-- ==== Sys2Proof/Word.lean ====
section
/-!
DEFINITION. Words, and the one table type the state is built from.
A `Tab` is a list of (number, value) pairs in strictly rising order that lists no entry equal to its default,
so that two tables that read alike are equal lists.
-/
namespace Sys2Proof

/-- A byte of memory (00 R8). -/
abbrev Byte := BitVec 8

/-- A register (00 R9). -/
abbrev Word := BitVec 32

/-- A 64-bit memory word (12 R449). -/
abbrev DWord := BitVec 64

/-- The two landings (01 R34). -/
inductive Side where
  | A
  | B
deriving DecidableEq, Repr

/-- The other landing. -/
def Side.other : Side → Side
  | .A => .B
  | .B => .A

/-- The landing's number, 0 for A and 1 for B (01 R46). -/
def Side.num : Side → Nat
  | .A => 0
  | .B => 1

/-- A value with its poison mark (12 R449 to R457). -/
structure Pw where
  v : DWord := 0
  p : Bool := false
deriving DecidableEq, Repr

/-- A sparse table: strictly rising numbers, no entry equal to the default. Log entry 1 (DESIGN CHOICE, safe). -/
abbrev Tab (α : Type) := List (Nat × α)

/-- The entry numbered `i`, or the default `d`. Log entry 1 (DESIGN CHOICE, safe). -/
def Tab.get {α : Type} (d : α) : Tab α → Nat → α
  | [], _ => d
  | (k, v) :: t, i => if k = i then v else Tab.get d t i

/-- The table without entry `i`. -/
def Tab.erase {α : Type} : Tab α → Nat → Tab α
  | [], _ => []
  | (k, v) :: t, i => if k = i then Tab.erase t i else (k, v) :: Tab.erase t i

/-- Entry `i` put in before the first larger number. -/
def Tab.ins {α : Type} (i : Nat) (v : α) : Tab α → Tab α
  | [] => [(i, v)]
  | (k, w) :: t => if i < k then (i, v) :: (k, w) :: t else (k, w) :: Tab.ins i v t

/-- Entry `i` set to `v`; setting the default removes the entry. -/
def Tab.set {α : Type} [DecidableEq α] (d : α) (t : Tab α) (i : Nat) (v : α) : Tab α :=
  if v = d then Tab.erase t i else Tab.ins i v (Tab.erase t i)

/-- Entry `i` changed by `f`. -/
def Tab.upd {α : Type} [DecidableEq α] (d : α) (t : Tab α) (i : Nat) (f : α → α) : Tab α :=
  Tab.set d t i (f (Tab.get d t i))

/-- The canonical form: strictly rising numbers and no entry equal to the default. -/
def Tab.wf {α : Type} [DecidableEq α] (d : α) : Tab α → Bool
  | [] => true
  | [(_, v)] => decide (v ≠ d)
  | (k, v) :: (k', v') :: t => decide (v ≠ d) && decide (k < k') && Tab.wf d ((k', v') :: t)

/-- Bit `i` of a number. -/
def bitOf (n i : Nat) : Bool := n / 2 ^ i % 2 == 1

/-- One for true, zero for false. -/
def b2n (b : Bool) : Nat := if b then 1 else 0

/-- Bits [hi:lo] of a number (00 R5). -/
def bits (n hi lo : Nat) : Nat := n / 2 ^ lo % 2 ^ (hi + 1 - lo)

/-- A count that stops at its largest value. -/
def satAdd (top a b : Nat) : Nat := min top (a + b)

end Sys2Proof
end

