-- ==== Sys2Proof/Syntax.lean ====
section
/-!
DEFINITION. The commands of the block: one constructor for each row of the operation table, with the row's operands.
`at_` is the module time of the command in whole nanoseconds; `cyc` a core cycle counted from the crossing's tick.
Where the environment supplies a measurement or the outcome of a physical act, it is an operand.
-/
namespace Sys2Proof

/-- Who makes a register access (00 R13): a Deckhand core, a pontoon tile, an engine's slot claim, a host partition. -/
inductive Requester where
  | deckhand (x : Side)
  | tile (x : Side) (n : Nat)
  | engine (x : Side) (u : Nat)
  | host (p : Nat)
deriving DecidableEq, Repr

/-- Which landings a tick or a cut-off reaches (02 R60, R61): both, or one while the periods differ. -/
inductive TickTo where
  | both
  | one (x : Side)
deriving DecidableEq, Repr

/-- The sample mark of one antenna at a tick (05 R196): the cable die's count of samples, the time of the first one counted
in 2^-16 ns, and the counts of Landing A and Landing B. -/
structure SampleMark where
  ant : Nat := 0
  count : Nat := 0
  time : Nat := 0
  countA : Nat := 0
  countB : Nat := 0
deriving DecidableEq, Repr

/-- A fare request (02 R81): `who` is a partition 0 to 7, 8 the Deckhand core, 9 the scrubber, 10 the refresh; `port` the
endpoint port; a request without data is a read of `len` bytes. -/
structure FareReq where
  who : Nat := 8
  port : Nat := 0
  since : Nat := 0
  addr : Nat := 0
  len : Nat := 8
  data : List Byte := []
deriving DecidableEq, Repr

/-- The header of a host command (16 R614): the partition and queue it arrives on and those its descriptor names, its
sequence number, whether lengths, flags and reserved bytes are as the command's table has them, the outcome of the check
code (none when absent), and the source address of a network command. -/
structure CmdHdr where
  at_ : Nat := 0
  part : Nat := 0
  queue : Nat := 0
  descPart : Nat := 0
  descQueue : Nat := 0
  seq : Word := 0
  formed : Bool := true
  check : Option Bool := none
deriving DecidableEq, Repr

/-- A CAN frame (14 R540, R548): identifier and its type, format flags, data length in bytes, data. -/
structure CanFrame where
  id : Nat := 0
  ext : Bool := false
  fdf : Bool := false
  brs : Bool := false
  esi : Bool := false
  remote : Bool := false
  dlen : Nat := 0
  data : List Byte := []
deriving DecidableEq, Repr

/-- An error that a CAN controller detects (14 R549, R566): its type 1 to 5, whether in the data phase and in the data field, the
buffer it was transmitting (none: it was receiving), the identifier on the bus with its type in bit 29, whether a dominant bit was seen in
its error flag or right after it, and whether ISO 11898-1 exempts the error from the count. -/
structure CanErr where
  typ : Nat := 1
  dataPhase : Bool := false
  dataField : Bool := false
  tx : Option Nat := none
  id : Nat := 0
  dominant : Bool := false
  exempt : Bool := false
deriving DecidableEq, Repr

/-- A network frame as received on a port (15 R574, R575): its bytes from the destination address to the end of the payload, whether the
check sequence and the length pass, module time at the end of the start-of-frame delimiter in 2^-16 ns, and the 40 bits that its preamble
carries on an inter-landing link. -/
structure EthRx where
  bytes : List Byte := []
  ok : Bool := true
  sfd : Nat := 0
  pre : Option Nat := none
deriving DecidableEq, Repr

/-- What the Bollard's pins give in one evaluation cycle (13 R487, R490, R501, R509, R512, R514). `edges`: level changes of the input
channels up to the cycle's start, in order, as (channel, ns since the end of S1, level); channel 1 of input n is channel n, channel 2
is 16 + n; level 0 at 0 V, 1 at 24 V, 2 above 34 V, 3 below −3 V. `sswT`, `sswC`: the switch pins. `enc`: counts of each encoder
channel (2e + k − 1) since the last cycle's start and whether both its lines changed in one sample. Of output channels (2o + k − 1):
`high` those that read above their off level, `low` those whose load current lay below 5 mA throughout; `pass`: whether the channel
under test read below its off level and its partner ON. `differ`: functions whose state the two banks hold differently. -/
structure BolPins where
  edges : List (Nat × Nat × Nat) := []
  sswT : Nat := 0
  sswC : Nat := 0
  enc : List (Int × Bool) := []
  high : Nat := 0
  low : Nat := 0
  pass : Bool := true
  differ : Nat := 0
deriving DecidableEq, Repr


/-- Where a register access goes: its address and its width in bytes (00 R9). -/
structure Access where
  addr : Nat := 0
  size : Nat := 4
deriving DecidableEq, Repr

/-- What the stages S0 to S2 find at power-good (11 R430): the inputs that are good, whether S0 ends well, its length and those of S1
and S2 in µs, the sealed-switch samples of S1 (13 R492), the logbook copies that their banks can read (17 R660). -/
structure PowerOn where
  goodA : Bool := true
  goodB : Bool := true
  s0Ok : Bool := true
  d0 : Nat := 0
  d1 : Nat := 0
  d2 : Nat := 0
  switches : List (Nat × Nat) := []
  copy1 : Bool := true
  copy2 : Bool := true
deriving DecidableEq, Repr

/-- What the stages of a landing find in one start (11 R430): the length of each stage run, as (stage, µs); the firmware copy whose
CRC-32 passes (2 for neither); the stage that fails in a way no other field tells (S3, S4, the S9 core set, S10); the DRAM lines and
spares that fail the read-back of S6 and whether a word of another memory does; whether the extended known-answer tests pass. -/
structure StartRun where
  times : List (Nat × Nat) := []
  fw : Nat := 0
  fail : Option Nat := none
  badLines : List Nat := []
  badSpares : List Nat := []
  otherBad : Bool := false
  kat : Bool := true
deriving DecidableEq, Repr
/-- The commands, in the order of the operation table. -/
inductive Instr where
  /-- REGISTER_WRITE (00 R9, R11, R12): `v` is the value on the bus, `again` the W1C bits that the hardware sets in the same cycle. -/
  | registerWrite (at_ : Nat) (r : Requester) (q : Access) (v again : Word)
  /-- RC_READ (00 R9, R11, R12): `again` is the value of the events that arrive in the same cycle as the read. -/
  | rcRead (at_ : Nat) (r : Requester) (q : Access) (again : Word)
  /-- PAIR_LOW_READ (00 R9, R13). -/
  | pairLowRead (at_ : Nat) (r : Requester) (q : Access)
  /-- PAIR_LOW_WRITE (00 R9, R14). -/
  | pairLowWrite (at_ : Nat) (r : Requester) (q : Access) (v : Word)
  /-- PAIR_HIGH_WRITE (00 R9, R14). -/
  | pairHighWrite (at_ : Nat) (r : Requester) (q : Access) (v : Word)
  /-- CROSSING_TICK (02 R71): the tick reaches the landings of `to`; `marks` are the sample marks the cable die
  measures at it, one for each antenna (05 R196). -/
  | crossingTick (at_ : Nat) (dst : TickTo) (marks : List SampleMark)
  /-- FMN_TICK_LOST (02 R89): `early` for a tick that arrives before its due cycle. -/
  | fmnTickLost (at_ : Nat) (x : Side) (early : Bool)
  /-- ARRIVAL_RECORD (02 R62): the record a landing sends, or the cable die makes (`x` none). -/
  | arrivalRecord (at_ : Nat) (x : Option Side) (cls port stamp : Nat) (content : List Byte)
  /-- ADMISSION_CUTOFF (02 R65): the cut-off of the list of the landings of `to`; `inputs` are the filtered levels of the 64 axis inputs
  (18 R690). -/
  | admissionCutoff (at_ : Nat) (dst : TickTo) (inputs : Nat)
  /-- GUARD_TIME_START (02 R88). -/
  | guardTimeStart (at_ : Nat) (x : Side)
  /-- SLOT_TRANSFER (02 R74): claim `k` of the running pattern; `flips` are the bits inverted on the Linkspan, as
  (beat, bit 0 to 71). -/
  | slotTransfer (at_ : Nat) (x : Side) (k : Nat) (flips : List (Nat × Nat))
  /-- LSP_SLOT_MISS (02 R87): claim `k` of the running pattern has not completed within its slot. -/
  | lspSlotMiss (at_ : Nat) (x : Side) (k : Nat)
  /-- FARE_GRANT (02 R81): lane-slot `slot`, `lane` of landing `x`; `fresh` are the requests of the refresh, the
  Deckhand core and the scrubber raised for it. -/
  | fareGrant (at_ : Nat) (x : Side) (slot lane : Nat) (fresh : List FareReq)
  /-- LSP_FARE_WAIT (02 R97): `who` is the partition, 8 for the Deckhand core, 9 for the scrubber. -/
  | lspFareWait (at_ : Nat) (x : Side) (who : Nat)
  /-- OPERATION_COMPLETION (02 R86): dispatch entry `k` of the running pattern completes in `cycle`. -/
  | operationCompletion (at_ : Nat) (x : Side) (k cycle : Nat)
  /-- FMN_OVERRUN (02 R87): the result of dispatch entry `k` is not available at its contract cycle. -/
  | fmnOverrun (at_ : Nat) (x : Side) (k cycle : Nat)
  /-- VERIFICATION_COMPLETE (02 R95): the verification of the image in flash bank `bank` ends on landing `x`;
  `received` is the number of bytes received, `ok` that the flash read them. -/
  | verificationComplete (at_ : Nat) (x : Side) (bank received : Nat) (ok : Bool)
  /-- TILE_START (03 R108): a START dispatch in core cycle `cyc` to tile `n` with job index `job`. -/
  | tileStart (x : Side) (n job cyc : Nat)
  /-- NOP (03 R116). -/
  | nop (x : Side) (n cyc : Nat) (w : Word)
  /-- ADD (03 R120 to R126). -/
  | add (x : Side) (n cyc : Nat) (w : Word)
  /-- SUB (03 R120 to R126). -/
  | sub (x : Side) (n cyc : Nat) (w : Word)
  /-- AND (03 R120 to R126). -/
  | and (x : Side) (n cyc : Nat) (w : Word)
  /-- OR (03 R120 to R126). -/
  | or (x : Side) (n cyc : Nat) (w : Word)
  /-- XOR (03 R120 to R126). -/
  | xor (x : Side) (n cyc : Nat) (w : Word)
  /-- SHL (03 R120 to R126). -/
  | shl (x : Side) (n cyc : Nat) (w : Word)
  /-- SHR (03 R120 to R126). -/
  | shr (x : Side) (n cyc : Nat) (w : Word)
  /-- SAR (03 R120 to R126). -/
  | sar (x : Side) (n cyc : Nat) (w : Word)
  /-- MIN (03 R120 to R126). -/
  | min (x : Side) (n cyc : Nat) (w : Word)
  /-- MAX (03 R120 to R126). -/
  | max (x : Side) (n cyc : Nat) (w : Word)
  /-- MINU (03 R120 to R126). -/
  | minu (x : Side) (n cyc : Nat) (w : Word)
  /-- MAXU (03 R120 to R126). -/
  | maxu (x : Side) (n cyc : Nat) (w : Word)
  /-- MOV (03 R120 to R126). -/
  | mov (x : Side) (n cyc : Nat) (w : Word)
  /-- MOVI (03 R118). -/
  | movi (x : Side) (n cyc : Nat) (w : Word)
  /-- SEL (03 R130). -/
  | sel (x : Side) (n cyc : Nat) (w : Word)
  /-- CMPEQ (03 R120 to R126). -/
  | cmpeq (x : Side) (n cyc : Nat) (w : Word)
  /-- CMPNE (03 R120 to R126). -/
  | cmpne (x : Side) (n cyc : Nat) (w : Word)
  /-- CMPLT (03 R120 to R126). -/
  | cmplt (x : Side) (n cyc : Nat) (w : Word)
  /-- CMPLE (03 R120 to R126). -/
  | cmple (x : Side) (n cyc : Nat) (w : Word)
  /-- CMPLTU (03 R120 to R126). -/
  | cmpltu (x : Side) (n cyc : Nat) (w : Word)
  /-- CMPLEU (03 R120 to R126). -/
  | cmpleu (x : Side) (n cyc : Nat) (w : Word)
  /-- PAND (03 R120 to R126). -/
  | pand (x : Side) (n cyc : Nat) (w : Word)
  /-- POR (03 R120 to R126). -/
  | por (x : Side) (n cyc : Nat) (w : Word)
  /-- PXOR (03 R120 to R126). -/
  | pxor (x : Side) (n cyc : Nat) (w : Word)
  /-- PNOT (03 R120 to R126). -/
  | pnot (x : Side) (n cyc : Nat) (w : Word)
  /-- PTST (03 R120 to R126). -/
  | ptst (x : Side) (n cyc : Nat) (w : Word)
  /-- EXTS (03 R120 to R126). -/
  | exts (x : Side) (n cyc : Nat) (w : Word)
  /-- EXTU (03 R120 to R126). -/
  | extu (x : Side) (n cyc : Nat) (w : Word)
  /-- QADD (03 R120 to R126). -/
  | qadd (x : Side) (n cyc : Nat) (w : Word)
  /-- QSUB (03 R120 to R126). -/
  | qsub (x : Side) (n cyc : Nat) (w : Word)
  /-- CLZ (03 R120 to R126). -/
  | clz (x : Side) (n cyc : Nat) (w : Word)
  /-- MUL (03 R120 to R126). -/
  | mul (x : Side) (n cyc : Nat) (w : Word)
  /-- MULH (03 R120 to R126). -/
  | mulh (x : Side) (n cyc : Nat) (w : Word)
  /-- MULHU (03 R120 to R126). -/
  | mulhu (x : Side) (n cyc : Nat) (w : Word)
  /-- QMUL (03 R120 to R126). -/
  | qmul (x : Side) (n cyc : Nat) (w : Word)
  /-- SATS (03 R120 to R126). -/
  | sats (x : Side) (n cyc : Nat) (w : Word)
  /-- FADD (03 R120 to R126). -/
  | fadd (x : Side) (n cyc : Nat) (w : Word)
  /-- FSUB (03 R120 to R126). -/
  | fsub (x : Side) (n cyc : Nat) (w : Word)
  /-- FMUL (03 R120 to R126). -/
  | fmul (x : Side) (n cyc : Nat) (w : Word)
  /-- FMA (03 R120 to R126). -/
  | fma (x : Side) (n cyc : Nat) (w : Word)
  /-- FMS (03 R120 to R126). -/
  | fms (x : Side) (n cyc : Nat) (w : Word)
  /-- FMIN (03 R120 to R126). -/
  | fmin (x : Side) (n cyc : Nat) (w : Word)
  /-- FMAX (03 R120 to R126). -/
  | fmax (x : Side) (n cyc : Nat) (w : Word)
  /-- FABS (03 R120 to R126). -/
  | fabs (x : Side) (n cyc : Nat) (w : Word)
  /-- FNEG (03 R120 to R126). -/
  | fneg (x : Side) (n cyc : Nat) (w : Word)
  /-- FDIV (03 R120 to R126). -/
  | fdiv (x : Side) (n cyc : Nat) (w : Word)
  /-- FSQRT (03 R120 to R126). -/
  | fsqrt (x : Side) (n cyc : Nat) (w : Word)
  /-- FCMPEQ (03 R120 to R126). -/
  | fcmpeq (x : Side) (n cyc : Nat) (w : Word)
  /-- FCMPLT (03 R120 to R126). -/
  | fcmplt (x : Side) (n cyc : Nat) (w : Word)
  /-- FCMPLE (03 R120 to R126). -/
  | fcmple (x : Side) (n cyc : Nat) (w : Word)
  /-- FCMPUN (03 R120 to R126). -/
  | fcmpun (x : Side) (n cyc : Nat) (w : Word)
  /-- FCVTIF (03 R120 to R126). -/
  | fcvtif (x : Side) (n cyc : Nat) (w : Word)
  /-- FCVTFI (03 R120 to R126). -/
  | fcvtfi (x : Side) (n cyc : Nat) (w : Word)
  /-- FCVTFF (03 R120 to R126). -/
  | fcvtff (x : Side) (n cyc : Nat) (w : Word)
  /-- FCVTQF (03 R120 to R126). -/
  | fcvtqf (x : Side) (n cyc : Nat) (w : Word)
  /-- FCVTFQ (03 R120 to R126). -/
  | fcvtfq (x : Side) (n cyc : Nat) (w : Word)
  /-- VBCAST (03 R120 to R126). -/
  | vbcast (x : Side) (n cyc : Nat) (w : Word)
  /-- VEXT (03 R120 to R126). -/
  | vext (x : Side) (n cyc : Nat) (w : Word)
  /-- VINS (03 R120 to R126). -/
  | vins (x : Side) (n cyc : Nat) (w : Word)
  /-- VSUM (03 R120 to R126). -/
  | vsum (x : Side) (n cyc : Nat) (w : Word)
  /-- VMOV (03 R120 to R126). -/
  | vmov (x : Side) (n cyc : Nat) (w : Word)
  /-- LDB (03 R120 to R126). -/
  | ldb (x : Side) (n cyc : Nat) (w : Word)
  /-- LDBU (03 R120 to R126). -/
  | ldbu (x : Side) (n cyc : Nat) (w : Word)
  /-- LDH (03 R120 to R126). -/
  | ldh (x : Side) (n cyc : Nat) (w : Word)
  /-- LDHU (03 R120 to R126). -/
  | ldhu (x : Side) (n cyc : Nat) (w : Word)
  /-- LDW (03 R120 to R126). -/
  | ldw (x : Side) (n cyc : Nat) (w : Word)
  /-- LDWU (03 R120 to R126). -/
  | ldwu (x : Side) (n cyc : Nat) (w : Word)
  /-- LDD (03 R127). -/
  | ldd (x : Side) (n cyc : Nat) (w : Word)
  /-- LDV (03 R120 to R126). -/
  | ldv (x : Side) (n cyc : Nat) (w : Word)
  /-- STB (03 R120 to R126). -/
  | stb (x : Side) (n cyc : Nat) (w : Word)
  /-- STH (03 R120 to R126). -/
  | sth (x : Side) (n cyc : Nat) (w : Word)
  /-- STW (03 R120 to R126). -/
  | stw (x : Side) (n cyc : Nat) (w : Word)
  /-- STD (03 R143). -/
  | std (x : Side) (n cyc : Nat) (w : Word)
  /-- STV (03 R120 to R126). -/
  | stv (x : Side) (n cyc : Nat) (w : Word)
  /-- MFS (03 R113). -/
  | mfs (x : Side) (n cyc : Nat) (w : Word)
  /-- MTS (03 R113). -/
  | mts (x : Side) (n cyc : Nat) (w : Word)
  /-- LOOP (03 R131). -/
  | loop (x : Side) (n cyc : Nat) (w : Word)
  /-- END (03 R136). -/
  | endProg (x : Side) (n cyc : Nat) (w : Word)
  /-- UPLINK_FRAME (04 R153): the 58 bytes of the frame of sample link `link` as each landing received it in its window;
  none where no frame was found, or it ended late. -/
  | uplinkFrame (at_ link : Nat) (fa fb : Option (List Byte))
  /-- FRAME_VERDICT (04 R154). -/
  | frameVerdict (at_ link : Nat)
  /-- DOWNLINK_WORD (04 R155): the word after sync edge `m`, counted from the manifest start. -/
  | downlinkWord (at_ link m : Nat)
  /-- SCH_RUN (04 R181): a RUN dispatch of step list `job`. -/
  | schRun (at_ : Nat) (x : Side) (job : Nat)
  /-- CAL_RUN_START (04 R172). -/
  | calRunStart (at_ link : Nat)
  /-- CAL_RESULT (04 R173). -/
  | calResult (at_ link : Nat)
  /-- SCH_BYPASS_LINK (04 R175). -/
  | schBypassLink (h : CmdHdr) (link : Nat)
  /-- SCH_RESTORE_LINK (04 R175). -/
  | schRestoreLink (h : CmdHdr) (link : Nat)
  /-- SCH_SET_USER_CAL (04 R175): FP32 gain, offset and substitute value. -/
  | schSetUserCal (h : CmdHdr) (chan : Nat) (a b sub : Word)
  /-- SCH_DC_FREEZE (04 R175): the channels of the mask (bit k for channel k) frozen or released. -/
  | schDcFreeze (h : CmdHdr) (mask : Nat) (freeze : Bool)
  /-- PASS (05 R204): the samples of the previous crossing of antennas A and B, one byte to a sample: bits 0 to 7 are the sign
  and magnitude of upper I, upper Q, lower I and lower Q (R195). -/
  | pass (at_ : Nat) (x : Side) (a b : List Byte)
  /-- GNS_WRITE (05 R206): a WRITE dispatch of mailbox entry `e`. -/
  | gnsWrite (at_ : Nat) (x : Side) (e : Nat)
  /-- TSOL (05 R216). -/
  | tsol (at_ : Nat) (x : Side)
  /-- PULSE_COMMIT (05 R218). -/
  | pulseCommit (at_ : Nat)
  /-- TIME_PULSE_OUTPUT (05 R219): output 0 or 1. -/
  | timePulseOutput (at_ i : Nat)
  /-- AIDING_POST (05 R213). -/
  | aidingPost (at_ : Nat)
  /-- AIDING_SAVE (05 R215): `okA` and `okB` say that the landing's flash took the write. -/
  | aidingSave (at_ : Nat) (okA okB : Bool)
  /-- POSITION_SAVE (05 R215). -/
  | positionSave (at_ : Nat)
  /-- GNS_ANTENNA_OFF (05 R221). -/
  | gnsAntennaOff (h : CmdHdr) (ant : Nat)
  /-- GNS_ANTENNA_ON (05 R221). -/
  | gnsAntennaOn (h : CmdHdr) (ant : Nat)
  /-- GNS_SAVE_AIDING (05 R221). -/
  | gnsSaveAiding (h : CmdHdr)
  /-- GNS_CLEAR_AIDING (05 R221). -/
  | gnsClearAiding (h : CmdHdr)
  /-- GNS_MAG (05 R227): antenna and band (0 upper, 1 lower). -/
  | gnsMag (at_ ant band : Nat)
  /-- GNS_HOLDOVER (05 R217). -/
  | gnsHoldover (at_ : Nat)
  /-- GNS_HOLD_LIMIT (05 R217). -/
  | gnsHoldLimit (at_ : Nat)
  /-- ALIGN (06 R235): a dispatch with queue entry `q`. -/
  | align (at_ : Nat) (x : Side) (q : Nat)
  /-- CLOSE (06 R258). -/
  | close (at_ : Nat) (x : Side)
  /-- FUS_EXCLUDE (06 R262). -/
  | fusExclude (h : CmdHdr) (stream : Nat)
  /-- FUS_READMIT (06 R262). -/
  | fusReadmit (h : CmdHdr) (stream : Nat)
  /-- FUS_PIN_TRACK (06 R262): source 0 takes the given north, east and σ (FP64), 1 the stream's latest object. -/
  | fusPinTrack (h : CmdHdr) (track typ source : Nat) (n e sigma : DWord) (stream : Nat)
  /-- FUS_RELEASE_TRACK (06 R262). -/
  | fusReleaseTrack (h : CmdHdr) (track : Nat)
  /-- FUS_SET_TRANSFORM (06 R262): the entry and its 64 bytes. -/
  | fusSetTransform (h : CmdHdr) (entry : Nat) (data : List Byte)
  /-- FUS_SET_ORIGIN (06 R262): latitude, longitude and height in FP64. -/
  | fusSetOrigin (h : CmdHdr) (lat lon height : DWord)
  /-- SLICE (07 R285): a dispatch with job index `j`. -/
  | slice (at_ : Nat) (x : Side) (j : Nat)
  /-- SLV_HOLD_EXPIRED (07 R294). -/
  | slvHoldExpired (at_ : Nat)
  /-- CTL_LOOP (08 R308): a LOOP dispatch of loop `n`. -/
  | ctlLoop (at_ : Nat) (x : Side) (n : Nat)
  /-- APPLY (08 R324): a dispatch with queue entry `q`. -/
  | apply (at_ : Nat) (x : Side) (q : Nat)
  /-- CTL_WRITE (08 R334): the 16 bytes of the write descriptor. -/
  | ctlWrite (h : CmdHdr) (data : List Byte)
  /-- CTL_SWAP (08 R334). -/
  | ctlSwap (h : CmdHdr) (loop bank fade : Nat)
  /-- UPDATE (09 R343): a dispatch of axis `a`. -/
  | update (at_ : Nat) (x : Side) (a : Nat)
  /-- START_DURATION_END (09 R371): of axis `a`. -/
  | startDurationEnd (at_ a : Nat)
  /-- AXE_STOP (09 R378): the axis mask. -/
  | axeStop (h : CmdHdr) (mask : Nat)
  /-- AXE_RESUME (09 R378): the axis mask. -/
  | axeResume (h : CmdHdr) (mask : Nat)
  /-- AXE_HOME (09 R378). -/
  | axeHome (h : CmdHdr) (a : Nat)
  /-- AXE_CLEAR_LIMIT (09 R378). -/
  | axeClearLimit (h : CmdHdr) (input : Nat)
  /-- AXE_START (09 R378). -/
  | axeStart (h : CmdHdr) (a : Nat)
  /-- AXE_OFF (09 R378). -/
  | axeOff (h : CmdHdr) (a : Nat)
  /-- AXE_POWER (09 R378): bus, running limit and step budget in W, ramp in W/s. -/
  | axePower (h : CmdHdr) (bus l a r : Nat)
  /-- AXE_NAN_EXPIRED (09 R352). -/
  | axeNanExpired (at_ : Nat)
  /-- AXE_START_TIMEOUT (09 R372): of axis `a`. -/
  | axeStartTimeout (at_ a : Nat)
  /-- AXE_PMS_STALE (09 R369): of bus `b`. -/
  | axePmsStale (at_ b : Nat)
  /-- LEG_REPORT (10 R393): landing `x` reports the leg that ended at the latest boundary. -/
  | legReport (at_ : Nat) (x : Side)
  /-- LEG_VERDICT (10 R398, R411): `differ` is none where the banks' verdicts agree, else whether one of them is Adrift. -/
  | legVerdict (at_ : Nat) (differ : Option Bool)
  /-- FAILOVER_TAKEOVER (10 R400). -/
  | failoverTakeover (at_ : Nat)
  /-- FAILBACK (10 R406). -/
  | failback (at_ : Nat)
  /-- RESYNC_FINAL_COPY (10 R408): `regBytes` is the size of the register state of the tiles and engines. -/
  | resyncFinalCopy (at_ regBytes : Nat)
  /-- RESYNC_COMPLETE (10 R408). -/
  | resyncComplete (at_ : Nat)
  /-- MANIFEST_HANDOVER (10 R410). -/
  | manifestHandover (at_ : Nat)
  /-- CHANGE_CONFIRM_TIMEOUT (10 R410). -/
  | changeConfirmTimeout (at_ : Nat)
  /-- BANK_WITHDRAW (10 R411): bank 1 or 2; 0 is a disagreement of two locked banks on the tick. -/
  | bankWithdraw (at_ bank : Nat)
  /-- CBL_OUT_OF_SERVICE (10 R409): the landing's number. -/
  | cblOutOfService (h : CmdHdr) (side : Nat)
  /-- CBL_MEMTEST (10 R409): the landing's number. -/
  | cblMemtest (h : CmdHdr) (side : Nat)
  /-- CBL_RELOAD (10 R409): the landing's number, the image bank. -/
  | cblReload (h : CmdHdr) (side bank : Nat)
  /-- CBL_RESYNC (10 R408): the landing's number. -/
  | cblResync (h : CmdHdr) (side : Nat)
  /-- CBL_HOLD_RETURN (10 R407): 1 hold, 0 release. -/
  | cblHoldReturn (h : CmdHdr) (hold : Nat)
  /-- CBL_MANIFEST_CHANGE (10 R410): the image bank, the warm-up in crossings. -/
  | cblManifestChange (h : CmdHdr) (bank warm : Nat)
  /-- CBL_CONFIRM_CHANGE (10 R410). -/
  | cblConfirmChange (h : CmdHdr)
  /-- CBL_ADRIFT_RELEASE (10 R405). -/
  | cblAdriftRelease (h : CmdHdr)
  /-- DKH_SET_MODE (11 R423): the new mode, the flags, the target, the set-point in m and degrees. -/
  | dkhSetMode (h : CmdHdr) (mode flags target : Nat) (north east heading : DWord)
  /-- SLW_LOAD (11 R428): the image bank. -/
  | slwLoad (h : CmdHdr) (bank : Nat)
  /-- SLW_RESTART (11 R441): the landing's number. -/
  | slwRestart (h : CmdHdr) (side : Nat)
  /-- POWER_GOOD (11 R430): S0 begins at `at_`. -/
  | powerGood (at_ : Nat) (p : PowerOn)
  /-- LANDING_START (11 R430): the stages of landing `x` from S3 on, which end at `at_` with S10 or with the stage that fails. -/
  | landingStart (at_ : Nat) (x : Side) (r : StartRun)
  /-- ROLE_ASSIGNMENT (11 R437): the preferred landing has completed S10. -/
  | roleAssignment (at_ : Nat)
  /-- ROLE_DEADLINE (11 R437). -/
  | roleDeadline (at_ : Nat)
  /-- DECKHAND_LOCKSTEP_CHECK (11 R442): whether the pair's outputs are the same. -/
  | deckhandLockstepCheck (at_ : Nat) (x : Side) (same : Bool)
  /-- SLW_STAGE_TIMEOUT (11 R434): stage 3 to 11 overruns its limit. -/
  | slwStageTimeout (at_ : Nat) (x : Side) (stage : Nat)
  /-- DKH_WATCHDOG (11 R442). -/
  | dkhWatchdog (at_ : Nat) (x : Side)
  /-- MERGE_WRITEBACK (12 R461): the oldest merge entry whose requester is granted its fare slot. -/
  | mergeWriteback (at_ : Nat) (x : Side)
  /-- BUCKET_LEAK (12 R462). -/
  | bucketLeak (at_ : Nat) (x : Side)
  /-- MEM_BUCKET_CFG (12 R477): a write of the register by `r`. -/
  | memBucketCfg (at_ : Nat) (r : Requester) (x : Side) (v : Word)
  /-- MEM_SCRUB_CFG (12 R479): a write of the register by `r`. -/
  | memScrubCfg (at_ : Nat) (r : Requester) (x : Side) (v : Word)
  /-- REMAP (12 R467): the oldest candidate line; `raced` lists the words (0 to 7) of the line written from other ports
while the copy runs, with their values, `ok0` and `ok1` say that the flash copies were written. -/
  | remap (at_ : Nat) (x : Side) (raced : List (Nat × DWord)) (ok0 ok1 : Bool)
  /-- SCRUB_LINE (12 R472): the next patrol line; `hard` lists the words whose re-read is not clean, `raced` the words
  written since the scrubber read them. -/
  | scrubLine (at_ : Nat) (x : Side) (hard raced : List Nat)
  /-- MEMTEST_COMPLETE (12 R474): `badLines` are the failing DRAM lines, `badSpares` the failing spares, `other` the
  number of failing words outside DRAM. -/
  | memtestComplete (at_ : Nat) (x : Side) (badLines badSpares : List Nat) (other : Nat)
  /-- EVALUATION_CYCLE (13 R511): a cycle ends, with what the pins gave at its start. -/
  | evaluationCycle (at_ : Nat) (pins : BolPins)
  /-- STOP_DELAY_END (13 R505): of function `k`. -/
  | stopDelayEnd (at_ k : Nat)
  /-- SAFE_TELEGRAM (13 R519): a copy received from network `net` (0 A, 1 B), the payload of its frame. -/
  | safeTelegram (at_ net : Nat) (pdu : List Byte)
  /-- TELEGRAM_TRANSMIT (13 R521): on connection `c`; `same` says that the two banks formed the same PDU. -/
  | telegramTransmit (at_ c : Nat) (same : Bool)
  /-- BOL_WRITE_PARAMS (13 R523). -/
  | bolWriteParams (h : CmdHdr) (block : List Byte)
  /-- BOL_ACK (13 R523). -/
  | bolAck (h : CmdHdr) (mask : Nat)
  /-- BOL_TELEGRAM_TIMEOUT (13 R520): of connection `c`. -/
  | bolTelegramTimeout (at_ c : Nat)
  /-- CAN_SEND (14 R541): the dispatch entry that starts job 16 × port + buffer in core cycle `cycle`, and the hand-over of its item;
  `inTx` that the buffer's pending frame is in transmission then. -/
  | canSend (at_ : Nat) (x : Side) (job cycle : Nat) (inTx : Bool)
  /-- CAN_FRAME_RECEIVED (14 R547): a frame of another node valid at a landing's controller, at its stamp. -/
  | canFrameReceived (at_ : Nat) (x : Side) (p : Nat) (f : CanFrame)
  /-- CAN_FRAME_SENT (14 R544): a frame that the module transmitted, as a landing's controller sees it complete. -/
  | canFrameSent (at_ : Nat) (x : Side) (p : Nat) (f : CanFrame)
  /-- CAN_BUS_ERROR (14 R549). -/
  | canBusError (at_ : Nat) (x : Side) (p : Nat) (e : CanErr)
  /-- BUS_OFF_RECOVERY (14 R550): the 128th occurrence of 11 recessive bits on a port. -/
  | busOffRecovery (at_ p : Nat)
  /-- REFERENCE_MESSAGE (14 R555): a port's reference message has been sent; `sof` is module time (2^-16 ns) at the sample point of its
  start-of-frame bit. -/
  | referenceMessage (at_ p sof : Nat)
  /-- CAN_ISOLATE (14 R557). -/
  | canIsolate (h : CmdHdr) (p : Nat)
  /-- CAN_RESTORE (14 R557). -/
  | canRestore (h : CmdHdr) (p : Nat)
  /-- CAN_BUS_ON (14 R557). -/
  | canBusOn (h : CmdHdr) (p : Nat)
  /-- CAN_RELEASE_ID (14 R557): port, identifier, extended. -/
  | canReleaseId (h : CmdHdr) (p id : Nat) (ext : Bool)
  /-- CAN_REF_LATE (14 R556). -/
  | canRefLate (at_ p : Nat)
  /-- ETH_SEND (15 R578): the dispatch entry that starts a transmit buffer's job in core cycle `cycle`, and the hand-over of its item. -/
  | ethSend (at_ : Nat) (x : Side) (job cycle : Nat)
  /-- MATCH (15 R583). -/
  | match_ (at_ : Nat) (x : Side)
  /-- ETH_FRAME_RECEIVED (15 R574): on port `p` of a landing. -/
  | ethFrameReceived (at_ : Nat) (x : Side) (p : Nat) (f : EthRx)
  /-- LAUNCH (15 R580): port `p` is idle and chooses its next frame; `sfd` is module time at the end of its start-of-frame delimiter in
  2^-16 ns. -/
  | launch (at_ : Nat) (x : Side) (p sfd : Nat)
  /-- LINK_CHANGE (15 R572). -/
  | linkChange (at_ : Nat) (x : Side) (p : Nat) (up : Bool)
  /-- LANE_BYPASS (15 R573). -/
  | laneBypass (at_ : Nat) (x : Side) (closed : Bool)
  /-- SYNC_RECEIVED (15 R591): for time base `b` on port `p`: the receive stamp and the master time in 2^-16 ns, the master's port
  identity. -/
  | syncReceived (at_ b p rx : Nat) (tm : Int) (ident : Nat)
  /-- PDELAY_REQUEST (15 R589): the second's request of port `p`. -/
  | pdelayRequest (at_ : Nat) (x : Side) (p : Nat)
  /-- MASTER_MESSAGE_TRANSMIT (15 R592): an Announce or a Sync of time base `b`. -/
  | masterMessageTransmit (at_ b : Nat) (announce : Bool)
  /-- ETH_SET_REFERENCE (15 R594): external 10 MHz or TCXO. -/
  | ethSetReference (h : CmdHdr) (ext : Bool)
  /-- ETH_STEP_TIME (15 R587). -/
  | ethStepTime (h : CmdHdr) (step : Nat)
  /-- REFERENCE_MEASURED (15 R585): the input lies within ±2 ppm and lost no edge. -/
  | referenceMeasured (at_ : Nat) (ok : Bool)
  /-- REFERENCE_LOCK (15 R585). -/
  | referenceLock (at_ : Nat)
  /-- REFERENCE_HOLD_END (15 R586). -/
  | referenceHoldEnd (at_ : Nat)
  /-- ETH_REF_LOST (15 R586). -/
  | ethRefLost (at_ : Nat)
  /-- ETH_TB_LOST (15 R591): of time base `b`. -/
  | ethTbLost (at_ b : Nat)
  /-- WRITE (16 R605, R606): `whole` is false for a transaction that ends inside a byte or a data word. -/
  | write (at_ : Nat) (port addr : Nat) (data : List Byte) (whole : Bool)
  /-- WRITE_PERFORMED (16 R606): the port's oldest buffered write. -/
  | writePerformed (at_ : Nat) (port : Nat)
  /-- READ_REQ (16 R605, R607). -/
  | readReq (at_ : Nat) (port addr len : Nat) (whole : Bool)
  /-- READ_COMPLETE (16 R607). -/
  | readComplete (at_ : Nat) (port : Nat)
  /-- READ_BUF (16 R605, R607): `len` bytes are clocked out from `off`. -/
  | readBuf (at_ : Nat) (port off len : Nat) (whole : Bool)
  /-- STATUS (16 R605, R608). -/
  | status (at_ : Nat) (port : Nat)
  /-- DOORBELL (16 R615): a write of `tail` to the tail of command queue `q` of partition `p`. -/
  | doorbell (at_ : Nat) (p q tail : Nat)
  /-- EVENT_HEAD_WRITE (16 R644). -/
  | eventHeadWrite (at_ : Nat) (p q head : Nat)
  /-- EVENT_ENTRY_WRITE (16 R619): the oldest entry waiting for event queue `q` of partition `p`. -/
  | eventEntryWrite (at_ : Nat) (p q : Nat)
  /-- QUEUE_MOVE_COMPLETE (16 R613). -/
  | queueMoveComplete (at_ : Nat)
  /-- FLASH_OPERATION_COMPLETE (16 R636): `okA` and `okB` say that the landing's flash took the operation. -/
  | flashOperationComplete (at_ : Nat) (bank : Nat) (okA okB : Bool)
  /-- LEVEL_TIMEOUT (16 R626). -/
  | levelTimeout (at_ : Nat) (p : Nat)
  /-- LOCKOUT_END (16 R630). -/
  | lockoutEnd (at_ : Nat) (p : Nat)
  /-- JTAG_ACCESS (16 R633): a debug access to landing `x`, or a boundary scan (`x` none). -/
  | jtagAccess (at_ : Nat) (x : Option Side)
  /-- PUR_SUBSCRIBE (16 R621). -/
  | purSubscribe (h : CmdHdr) (mask : Word) (q : Nat)
  /-- PUR_ACK_ALARM (16 R635). -/
  | purAckAlarm (h : CmdHdr) (code : Nat)
  /-- PUR_READ (16 R635). -/
  | purRead (h : CmdHdr) (addr len : Nat)
  /-- PUR_SET_QUEUE (16 R613). -/
  | purSetQueue (h : CmdHdr) (kind q k : Nat)
  /-- PUR_RESEND (16 R623). -/
  | purResend (h : CmdHdr) (q seq : Nat)
  /-- PUR_RELEASE (16 R623). -/
  | purRelease (h : CmdHdr) (q seq : Nat)
  /-- PUR_PING (16 R635). -/
  | purPing (h : CmdHdr)
  /-- TOL_CHALLENGE (16 R628). -/
  | tolChallenge (h : CmdHdr) (slot level : Nat)
  /-- TOL_RESPONSE (16 R629). -/
  | tolResponse (h : CmdHdr) (resp : List Byte)
  /-- TOL_LOGOUT (16 R626). -/
  | tolLogout (h : CmdHdr)
  /-- TOL_KEY_WRITE (16 R632). -/
  | tolKeyWrite (h : CmdHdr) (block : List Byte)
  /-- TOL_KEY_REVOKE (16 R632). -/
  | tolKeyRevoke (h : CmdHdr) (slot : Nat)
  /-- TOL_JTAG_UNLOCK (16 R633). -/
  | tolJtagUnlock (h : CmdHdr)
  /-- DKH_IMAGE_ERASE (16 R636). -/
  | dkhImageErase (h : CmdHdr) (bank : Nat)
  /-- DKH_IMAGE_WRITE (16 R636). -/
  | dkhImageWrite (h : CmdHdr) (bank off : Nat) (data : List Byte)
  /-- DKH_IMAGE_CLOSE (16 R636). -/
  | dkhImageClose (h : CmdHdr) (bank : Nat)
  /-- PUR_HOLD_EXPIRED (16 R625): `res` is a flash bank 0 to 3, 4 the manifest change, 5 the key storage, 6 the
  logbook. -/
  | purHoldExpired (at_ : Nat) (res : Nat)
  /-- SUPPLY_SWITCHOVER (17 R649): to VBAT or back to the main feed. -/
  | supplySwitchover (at_ : Nat) (toVbat : Bool)
  /-- BACKUP_RESET (17 R648). -/
  | backupReset (at_ : Nat)
  /-- BACKUP_WRITE (17 R651): a word written by `r` at byte offset `off`. -/
  | backupWrite (at_ : Nat) (r : Requester) (off : Nat) (v : Word)
  /-- RTC_SNAPSHOT (17 R654). -/
  | rtcSnapshot (at_ : Nat) (r : Requester)
  /-- RTC_COMMIT (17 R655). -/
  | rtcCommit (at_ : Nat) (r : Requester) (seconds : Word)
  /-- RTC_STAGE_SUBSEC (17 R655). -/
  | rtcStageSubsec (at_ : Nat) (r : Requester) (v : Word)
  /-- RTC_WAKE (17 R658). -/
  | rtcWake (at_ : Nat) (r : Requester) (v : Word)
  /-- WAKE_INSTANT (17 R658). -/
  | wakeInstant (at_ : Nat)
  /-- LOGBOOK_WRITE (17 R664): `ok1` and `ok2` say that the copy took the write. -/
  | logbookWrite (at_ : Nat) (ok1 ok2 : Bool)
  /-- RTC_SET (17 R672). -/
  | rtcSet (h : CmdHdr) (seconds : Word) (subsec : Nat)
  /-- RTC_SET_WAKE (17 R672). -/
  | rtcSetWake (h : CmdHdr) (period : Nat)
  /-- RTC_BKP_WRITE (17 R672). -/
  | rtcBkpWrite (h : CmdHdr) (off : Nat) (data : List Byte)
  /-- LOG_READ (17 R670). -/
  | logRead (h : CmdHdr) (first len : Nat)
  /-- LOG_SET_LIMIT (17 R669). -/
  | logSetLimit (h : CmdHdr) (code limit : Nat)
  /-- LOG_CLEAR (17 R671). -/
  | logClear (h : CmdHdr)
  /-- RTC_VBAT_LOW (17 R649): the 1 s measurement in 10 mV. -/
  | rtcVbatLow (at_ : Nat) (v : Nat)
  /-- RTC_OSC_STOP (17 R659). -/
  | rtcOscStop (at_ : Nat)
  /-- MODULE_STOP (18 R684): the higher supply input falls through 14.0 V. -/
  | moduleStop (at_ : Nat)
  /-- STEP_DRIVER_RETRY (18 R694): the trial of output `n`, `ok` when it draws normal current. -/
  | stepDriverRetry (at_ n : Nat) (ok : Bool)
  /-- TEMPERATURE_READ (18 R702): the four readings in °C, and the measured words of `SUP_V24A` and `SUP_V24B`. -/
  | temperatureRead (at_ : Nat) (a b c base : Byte) (va vb : Word)
  /-- TP_IN_EDGE (18 R701): module time of the edge in 2^-16 ns. -/
  | tpInEdge (at_ time : Nat)
  /-- SUP_V24A_LOW (18 R683), with the measured word. -/
  | supV24aLow (at_ : Nat) (v : Word)
  /-- SUP_V24B_LOW (18 R683), with the measured word. -/
  | supV24bLow (at_ : Nat) (v : Word)
  /-- SUP_V24_HIGH (18 R683): input 0 for `V24A`, 1 for `V24B`. -/
  | supV24High (at_ input : Nat) (v : Word)
  /-- SUP_REVERSED (18 R683). -/
  | supReversed (at_ input : Nat) (v : Word)
  /-- SUP_V24_RESTORED (18 R683). -/
  | supV24Restored (at_ input : Nat) (v : Word)
  /-- SUP_FIELD_LOST (18 R684). -/
  | supFieldLost (at_ : Nat)
  /-- SUP_FIELD_RESTORED (18 R684). -/
  | supFieldRestored (at_ : Nat)
  /-- SUP_DOMAIN_LOST (18 R685): the domain, 0 to 4. -/
  | supDomainLost (at_ domain : Nat)
  /-- SUP_STEP_SHORT (18 R694): of output `n`. -/
  | supStepShort (at_ n : Nat)
  /-- SUP_STEP_OPEN (18 R694): of output `n`; `now` is the mask of the pairs now found open. -/
  | supStepOpen (at_ n now : Nat)
  /-- SUP_AXIN_RANGE (18 R690): of axis input `i`. -/
  | supAxinRange (at_ i : Nat)
  /-- SUP_ENC_RANGE (18 R691): of encoder line 4e + l. -/
  | supEncRange (at_ line : Nat)
  /-- SUP_CAN_BUS (18 R695): of port `p`; `now` is the mask of the buses now out of range. -/
  | supCanBus (at_ p now : Nat)
  /-- SUP_TP_FAULT (18 R701): of output `n`; `now` is the mask of the outputs now found short. -/
  | supTpFault (at_ n now : Nat)
  /-- DELAY_REQ_TRANSMIT (15 R591): for time base `b`; `trip` is the last complete round trip as (t2 − t1) − (t4 − t3) in 2^-16 ns. -/
  | delayReqTransmit (at_ b : Nat) (trip : Option Int)
  /-- SAFETY_OUTPUT_OVERCURRENT (13 R514): of channel `c` of output `o`. -/
  | safetyOutputOvercurrent (at_ o c : Nat)
  /-- AXIN_RANGE_RESTORED (18 R690): of axis input `i`. -/
  | axinRangeRestored (at_ i : Nat)
  /-- ENCODER_LINE_RESTORED (18 R691): of encoder line 4e + l. -/
  | encoderLineRestored (at_ line : Nat)
  /-- LOG_CLEAR_COMPLETE (17 R671): `ok1` and `ok2` say that the copy took the erasure. -/
  | logClearComplete (at_ : Nat) (ok1 ok2 : Bool)
  /-- LIMIT_TABLE_WRITTEN (17 R669). -/
  | limitTableWritten (at_ : Nat) (ok1 ok2 : Bool)
  /-- PARAMS_STAGE_COMPLETE (13 R523): `ok1` and `ok2` say that the bank wrote and read back its slot. -/
  | paramsStageComplete (at_ : Nat) (ok1 ok2 : Bool)
  /-- KEY_WRITE_COMPLETE (16 R632). -/
  | keyWriteComplete (at_ : Nat) (ok : Bool)
deriving DecidableEq, Repr

end Sys2Proof
end

