-- ==== Sys2Proof/Decode.lean ====
section
/-!
DEFINITION. Decoding of a table word. The operation table gives no row any bits, so no word spells a command.
-/
namespace Sys2Proof

/-- The command that `nbits` bits of value `w` spell: none, since no row of the table has bits. -/
def decodeTableWord (_nbits _w : Nat) : Option Instr := none

end Sys2Proof
end

