-- ==== Sys2Proof/Config.lean ====
section
/-!
DEFINITION. What an implementation fixes and what the spec leaves open. Every value without a body is a free value: no
proof can see what it is.
-/
namespace Sys2Proof.Config

/-- The identity record's serial number (00 R3). Log entry 9 (DESIGN CHOICE, safe). -/
opaque serial : BitVec 64

/-- The identity record's hardware minor revision (00 R3, R2). Log entry 9 (DESIGN CHOICE, safe). -/
opaque hwMinor : Byte

/-- The day of manufacture (00 R3). -/
opaque mfgDate : Word

/-- The factory trim bytes at offsets 0x018 to 0xFFF of the OTP window, whose layout and content are not specified
(00 R712). -/
opaque otpByte : Nat → Byte

/-- The Deckhand firmware revision, minor and major (01 R47: "build"). -/
opaque fwMinor : BitVec 16
opaque fwMajor : BitVec 16

/-- The bytes of the Deckhand firmware installed at the factory, the same in both copies (00 R32, 11 R429).
Log entry 146 (DESIGN CHOICE, safe). -/
opaque firmwareByte : Nat → Byte

/-- The cable die's random source (16 R628): byte `i` of the nonce of draw `n`. Log entry 103 (DESIGN CHOICE, safe). -/
opaque nonceByte : Nat → Nat → Byte

/-- A value the spec leaves open, numbered by the free-value counter of the state. Log entry 10 (DESIGN CHOICE, safe). -/
opaque freeWord : Nat → DWord

/-- The primary code chip of a signal component (05 R193): signal code, PRN, chip number. The spec says that the code generator
produces the codes and does not list them. Log entry 50 (DESIGN CHOICE, safe). -/
opaque codeChip : Nat → Nat → Nat → Bool

/-- The error estimate of the time-pulse steering outside HOLDOVER, which the spec does not state (05 R217, R219): a value of
the steering state, the last σ and the time since the last accepted record. Log entry 52 (DESIGN CHOICE, safe). -/
opaque tpError : Nat → BitVec 32 → Nat → BitVec 32

/-- The horizontal variance of an object sample (06 R242), which the spec does not compute from its σ: kind, values, σ.
Log entry 13 (DESIGN CHOICE, safe). -/
opaque objectVariance : Nat → List (BitVec 64) → List Word → BitVec 64

/-- The variance that initialises a position (06 R245) from those of the measurements that initialise it. -/
opaque initVariance : List (BitVec 64) → BitVec 64

/-- The rates of roll (0) and pitch (1) by which they are propagated (06 R242), which the vessel state record does not hold: by epoch
and axis. Log entry 13 (DESIGN CHOICE, safe). -/
opaque attitudeRate : Nat → Nat → BitVec 64

/-- The velocity variance of a new `MOVING` track (06 R248), which the spec does not state. -/
opaque trackVelocityVariance : BitVec 64

/-- Bytes of the module's own PTP messages that the spec leaves to IEEE 1588 or does not state (15 R592): 0 the log interval of a
Delay_Resp, 1 to 4 clockAccuracy, offsetScaledLogVariance and priority2, 5 timeSource, 100 + t the control field of message type t.
Log entry 100 (DEDUCED, unsafe). -/
opaque ptpByte : Nat → Byte

/-- The period code of the crossing tick before any manifest runs (11 R430, 02 R98), which the spec does not state: 0, 1 or 2.
Log entry 29 (DESIGN CHOICE, safe). -/
opaque startPeriod : Fin 3

end Sys2Proof.Config
end

