-- ==== Sys2Proof/Machine/Faults.lean ====
section
/-!
DEFINITION. The fault codes and their severities (00 R26 to R31), transcribed from the fault tables of the unit
chapters, and the event-register bit that each code sets.
-/
namespace Sys2Proof.Machine

/-- The severities from low to high (00 R28). -/
inductive Sev where
  | note
  | caution
  | alarm
  | accuse
  | halt
deriving DecidableEq, Repr

/-- The severity's number in an event entry, 0 to 4 (16 R619). -/
def sevNum : Sev → Nat
  | .note => 0
  | .caution => 1
  | .alarm => 2
  | .accuse => 3
  | .halt => 4

/-- The fault codes of unit 0x01 with their severities, in the order of its table. -/
def faultsFmn : List (Nat × Sev) :=
  [(0x0101, .caution),
   (0x0102, .caution),
   (0x0103, .caution),
   (0x0104, .caution),
   (0x0105, .caution),
   (0x0106, .caution),
   (0x0107, .caution),
   (0x0108, .caution),
   (0x0109, .caution),
   (0x010A, .caution),
   (0x010B, .caution),
   (0x010C, .caution),
   (0x010D, .caution),
   (0x010E, .caution),
   (0x010F, .caution),
   (0x0110, .caution),
   (0x0111, .caution),
   (0x0112, .caution),
   (0x0113, .caution),
   (0x0114, .caution),
   (0x0140, .accuse),
   (0x0141, .halt),
   (0x0142, .halt),
   (0x0150, .note),
   (0x0151, .caution),
   (0x0152, .note),
   (0x0160, .caution),
   (0x0161, .caution),
   (0x0162, .accuse)]

/-- The fault codes of unit 0x02 with their severities, in the order of its table. -/
def faultsLsp : List (Nat × Sev) :=
  [(0x0201, .accuse),
   (0x0202, .accuse),
   (0x0203, .accuse),
   (0x0204, .caution)]

/-- The fault codes of unit 0x03 with their severities, in the order of its table. -/
def faultsSch : List (Nat × Sev) :=
  [(0x0301, .note),
   (0x0302, .alarm),
   (0x0303, .note),
   (0x0304, .caution),
   (0x0305, .alarm),
   (0x0306, .note),
   (0x0307, .accuse),
   (0x0308, .caution),
   (0x0309, .caution),
   (0x030A, .note),
   (0x030B, .caution),
   (0x030C, .caution)]

/-- The fault codes of unit 0x04 with their severities, in the order of its table. -/
def faultsGns : List (Nat × Sev) :=
  [(0x0401, .alarm),
   (0x0402, .caution),
   (0x0403, .caution),
   (0x0404, .accuse),
   (0x0405, .caution),
   (0x0406, .accuse),
   (0x0407, .caution),
   (0x0410, .alarm),
   (0x0411, .alarm),
   (0x0412, .caution),
   (0x0413, .note),
   (0x0414, .note),
   (0x0420, .caution)]

/-- The fault codes of unit 0x05 with their severities, in the order of its table. -/
def faultsFus : List (Nat × Sev) :=
  [(0x0501, .caution),
   (0x0502, .accuse),
   (0x0503, .caution),
   (0x0504, .note),
   (0x0505, .caution),
   (0x0506, .alarm),
   (0x0507, .note),
   (0x0508, .note),
   (0x0509, .caution),
   (0x050A, .alarm),
   (0x050B, .note),
   (0x050C, .alarm),
   (0x050D, .alarm),
   (0x050E, .note),
   (0x050F, .alarm),
   (0x0510, .caution),
   (0x0511, .caution),
   (0x0512, .caution),
   (0x0513, .note),
   (0x0514, .note),
   (0x0515, .accuse),
   (0x0516, .note)]

/-- The fault codes of unit 0x06 with their severities, in the order of its table. -/
def faultsSlv : List (Nat × Sev) :=
  [(0x0601, .accuse),
   (0x0602, .accuse),
   (0x0603, .caution),
   (0x0604, .caution),
   (0x0605, .caution),
   (0x0606, .note),
   (0x0607, .alarm),
   (0x0608, .caution),
   (0x0609, .alarm),
   (0x060A, .alarm)]

/-- The fault codes of unit 0x07 with their severities, in the order of its table. -/
def faultsCtl : List (Nat × Sev) :=
  [(0x0701, .accuse),
   (0x0702, .accuse),
   (0x0703, .caution),
   (0x0704, .caution),
   (0x0705, .note),
   (0x0706, .note),
   (0x0707, .note),
   (0x0708, .note),
   (0x0709, .note),
   (0x070A, .caution)]

/-- The fault codes of unit 0x08 with their severities, in the order of its table. -/
def faultsAxe : List (Nat × Sev) :=
  [(0x0801, .caution),
   (0x0802, .note),
   (0x0803, .caution),
   (0x0804, .caution),
   (0x0805, .note),
   (0x0806, .alarm),
   (0x0807, .caution),
   (0x0808, .accuse),
   (0x0809, .caution),
   (0x080A, .alarm),
   (0x080B, .note),
   (0x080C, .caution),
   (0x080D, .note),
   (0x080E, .note),
   (0x080F, .alarm),
   (0x0810, .alarm),
   (0x0811, .caution),
   (0x0812, .note)]

/-- The fault codes of unit 0x09 with their severities, in the order of its table. -/
def faultsMem : List (Nat × Sev) :=
  [(0x0901, .note),
   (0x0902, .caution),
   (0x0903, .caution),
   (0x0904, .accuse),
   (0x0905, .caution),
   (0x0906, .note),
   (0x0907, .alarm),
   (0x0908, .caution),
   (0x0909, .caution),
   (0x090A, .alarm),
   (0x090B, .caution),
   (0x090C, .alarm)]

/-- The fault codes of unit 0x0A with their severities, in the order of its table. -/
def faultsCan : List (Nat × Sev) :=
  [(0x0A01, .caution),
   (0x0A02, .note),
   (0x0A03, .alarm),
   (0x0A04, .note),
   (0x0A05, .alarm),
   (0x0A06, .alarm),
   (0x0A07, .caution),
   (0x0A08, .note),
   (0x0A09, .note),
   (0x0A0A, .caution),
   (0x0A0B, .caution),
   (0x0A0C, .note)]

/-- The fault codes of unit 0x0B with their severities, in the order of its table. -/
def faultsEth : List (Nat × Sev) :=
  [(0x0B01, .caution),
   (0x0B02, .note),
   (0x0B03, .alarm),
   (0x0B04, .note),
   (0x0B05, .caution),
   (0x0B06, .caution),
   (0x0B07, .caution),
   (0x0B08, .caution),
   (0x0B09, .alarm),
   (0x0B0A, .note),
   (0x0B0B, .caution),
   (0x0B0C, .alarm),
   (0x0B0D, .note),
   (0x0B0E, .caution),
   (0x0B0F, .alarm),
   (0x0B10, .caution),
   (0x0B11, .caution),
   (0x0B12, .note)]

/-- The fault codes of unit 0x0C with their severities, in the order of its table. -/
def faultsPur : List (Nat × Sev) :=
  [(0x0C01, .note),
   (0x0C02, .caution),
   (0x0C03, .note),
   (0x0C04, .note),
   (0x0C80, .note),
   (0x0C81, .caution),
   (0x0C82, .alarm),
   (0x0C83, .caution),
   (0x0C84, .caution),
   (0x0C85, .alarm),
   (0x0C86, .caution)]

/-- The fault codes of unit 0x0D with their severities, in the order of its table. -/
def faultsCbl : List (Nat × Sev) :=
  [(0x0D01, .caution),
   (0x0D02, .alarm),
   (0x0D03, .alarm),
   (0x0D04, .alarm),
   (0x0D05, .alarm),
   (0x0D06, .alarm),
   (0x0D07, .alarm),
   (0x0D08, .alarm),
   (0x0D09, .alarm),
   (0x0D10, .note),
   (0x0D11, .caution),
   (0x0D12, .note),
   (0x0D13, .caution),
   (0x0D20, .alarm),
   (0x0D21, .note),
   (0x0D22, .caution),
   (0x0D23, .alarm),
   (0x0D30, .caution),
   (0x0D40, .alarm),
   (0x0D41, .alarm),
   (0x0D50, .alarm)]

/-- The fault codes of unit 0x0E with their severities, in the order of its table. -/
def faultsBol : List (Nat × Sev) :=
  [(0x0E01, .note),
   (0x0E02, .note),
   (0x0E03, .alarm),
   (0x0E04, .alarm),
   (0x0E05, .alarm),
   (0x0E06, .alarm),
   (0x0E07, .alarm),
   (0x0E08, .note),
   (0x0E09, .alarm),
   (0x0E0A, .alarm),
   (0x0E0B, .alarm),
   (0x0E0C, .note),
   (0x0E0D, .note),
   (0x0E0E, .note),
   (0x0E0F, .note),
   (0x0E10, .alarm),
   (0x0E11, .note),
   (0x0E12, .alarm),
   (0x0E13, .alarm),
   (0x0E14, .alarm),
   (0x0E15, .alarm),
   (0x0E16, .alarm),
   (0x0E17, .caution),
   (0x0E18, .note),
   (0x0E19, .alarm)]

/-- The fault codes of unit 0x0F with their severities, in the order of its table. -/
def faultsRtc : List (Nat × Sev) :=
  [(0x0F01, .caution),
   (0x0F02, .note),
   (0x0F03, .caution),
   (0x0F04, .caution),
   (0x0F05, .alarm),
   (0x0F06, .note)]

/-- The fault codes of unit 0x10 with their severities, in the order of its table. -/
def faultsLog : List (Nat × Sev) :=
  [(0x1001, .note),
   (0x1002, .caution),
   (0x1003, .caution),
   (0x1004, .caution),
   (0x1005, .note)]

/-- The fault codes of unit 0x11 with their severities, in the order of its table. -/
def faultsSup : List (Nat × Sev) :=
  [(0x1101, .alarm),
   (0x1102, .alarm),
   (0x1103, .caution),
   (0x1104, .alarm),
   (0x1105, .note),
   (0x1106, .alarm),
   (0x1107, .note),
   (0x1108, .alarm),
   (0x1109, .caution),
   (0x110A, .caution),
   (0x110B, .caution),
   (0x110C, .caution),
   (0x110D, .caution),
   (0x110E, .caution),
   (0x110F, .alarm),
   (0x1110, .alarm)]

/-- The fault codes of unit 0x12 with their severities, in the order of its table. -/
def faultsSlw : List (Nat × Sev) :=
  [(0x1201, .note),
   (0x1202, .alarm),
   (0x1203, .alarm),
   (0x1204, .caution),
   (0x1205, .caution),
   (0x1206, .alarm),
   (0x1207, .caution),
   (0x1208, .alarm),
   (0x1209, .alarm),
   (0x120A, .caution),
   (0x120B, .note)]

/-- The fault codes of unit 0x13 with their severities, in the order of its table. -/
def faultsDkh : List (Nat × Sev) :=
  [(0x1301, .note),
   (0x1302, .alarm),
   (0x1303, .alarm),
   (0x1304, .alarm),
   (0x1305, .halt),
   (0x1306, .halt),
   (0x1307, .caution)]

/-- Every fault code of the manual (00 R26). -/
def faultTable : List (Nat × Sev) :=
  faultsFmn ++ faultsLsp ++ faultsSch ++ faultsGns ++ faultsFus ++ faultsSlv ++ faultsCtl ++ faultsAxe ++ faultsMem ++ faultsCan ++ faultsEth ++ faultsPur ++ faultsCbl ++ faultsBol ++ faultsRtc ++ faultsLog ++ faultsSup ++ faultsSlw ++ faultsDkh

/-- The severity of a defined code (00 R28); none for a code no table lists. -/
def severityOf (code : Nat) : Option Sev :=
  (faultTable.find? (fun r => r.1 == code)).map (fun r => r.2)

/-- The unit that detects a code, its high byte (00 R26). -/
def unitOf (code : Nat) : Nat := code / 256

/-- True for the units of a landing (00 R27); the codes of unit 0x0C are reported with source cable die (16 R624). -/
def landingUnit (u : Nat) : Bool := u ≤ 0x0B || u == 0x12 || u == 0x13

/-- The position of a code in a list. -/
def indexIn (code : Nat) : List (Nat × Sev) → Nat → Option Nat
  | [], _ => none
  | r :: rs, i => if r.1 == code then some i else indexIn code rs (i + 1)

/-- The unit register and the bit that a code sets there: the Ferryman's by 02 R102 (a Linkspan slot miss sets the
Ferryman's bit 6), GNSS by 05 R224, the cable arbiter's by row number (10 R413), the Tollhouse's at bit 4 + n
(16 R639), every other unit's at its low byte less 1. The load-refusal codes, the tile codes and the other Linkspan
codes have no event bit. -/
def eventBit (code : Nat) : Option (Nat × Nat) :=
  let n := code % 256
  match unitOf code with
  | 0x01 =>
    match n with
    | 0x40 => some (1, 0) | 0x41 => some (1, 1) | 0x42 => some (1, 2)
    | 0x50 => some (1, 3) | 0x51 => some (1, 4) | 0x52 => some (1, 5)
    | _ => none
  | 0x02 => if n == 3 then some (1, 6) else none
  | 0x04 =>
    match n with
    | 1 => some (4, 0) | 2 => some (4, 1) | 3 => some (4, 2) | 4 => some (4, 3)
    | 5 => some (4, 4) | 6 => some (4, 4) | 7 => some (4, 5)
    | 0x10 => some (4, 6) | 0x11 => some (4, 7) | 0x12 => some (4, 8) | 0x13 => some (4, 9)
    | 0x14 => some (4, 10) | 0x20 => some (4, 11)
    | _ => none
  | 0x0C => if n < 0x80 then some (0x0C, n - 1) else some (0x0C, n - 0x80 + 4)
  | 0x0D => (indexIn code faultsCbl 0).map (fun i => (0x0D, i))
  | u => if n == 0 then none else some (u, n - 1)

end Sys2Proof.Machine
end

