-- ==== Sys2Proof/Machine/State.lean ====
section
/-!
DEFINITION. The state of the module as plain data: every register, memory, buffer, counter and mode that the chapters
of the spec give it, the machine's fault and refusal names, and the state after reset.
-/
namespace Sys2Proof.Machine

/-- Vectors and matrices of FP64 encodings. -/
abbrev Vec := List DWord
abbrev Mat := List (List DWord)

/-- The ways a step can stop with a fault. No command of this block stops: every access error, fault code and refusal of
the spec is a next state. The type has one
name, which nothing raises (safe). -/
inductive Fault where
  /-- Raised by nothing (safe). -/
  | none
deriving DecidableEq, Repr

/-- The ways a command can be turned away as without a meaning. -/
inductive Refusal where
  /-- A command whose meaning is not written yet: raised by the arms of the dispatch only (safe). -/
  | notModelled (mnemonic : String)
deriving DecidableEq, Repr
/-- Who raises a fault (17 R662): a landing or the cable die. -/
inductive Source where
  | landing (x : Side)
  | cable
deriving DecidableEq, Repr

/-- One record waiting in the logbook's write buffer (17 R662, R664). `src` is 0, 1, 2 or 3; `leg` numbers the leg in
which the fault was raised, counted over the module's running time; `own` holds the payload of the logbook's own
records. -/
structure LogRec where
  code : Nat := 0
  src : Nat := 0
  seconds : Nat := 0
  subsec : Nat := 0
  rtcValid : Bool := false
  detail : Nat := 0
  leg : Nat := 0
  own : Option (List Byte) := none
deriving DecidableEq, Repr

/-- One record as read from a sector of a logbook flash copy (17 R662). -/
structure StoredRec where
  sector : Nat := 0
  seq : Nat := 0
  code : Nat := 0
  bytes : List Byte := []
deriving DecidableEq, Repr

/-- One event entry (16 R619). -/
structure EvEntry where
  typ : Nat := 1
  stat : Nat := 0
  op : Nat := 0
  source : Nat := 2
  flags : Nat := 0
  word : Nat := 0
  time : Nat := 0
  data : List Byte := []
deriving DecidableEq, Repr

/-- An event queue (16 R619, R620): ring indices, size exponent, next entry sequence, fault events dropped, entries
waiting for room, the entries in the ring not yet overwritten, oldest first, as (sequence, offset, bytes; a pad has none), and
how many of the latest of them lie between head and tail. -/
structure EventQ where
  k : Nat := 0
  tail : Nat := 0
  head : Nat := 0
  nextSeq : Nat := 0
  lost : Nat := 0
  waiting : List EvEntry := []
  unread : Nat := 0
  held : List (Option Nat × Nat × List Byte) := []
deriving DecidableEq, Repr

/-- A command queue (16 R615 to R617): ring indices, size exponent, commands outstanding, last accepted sequence
number (none before the first), a doorbell held during a ring move. -/
structure CmdQ where
  k : Nat := 0
  tail : Nat := 0
  head : Nat := 0
  outstanding : Nat := 0
  lastSeq : Option Word := none
  heldTail : Option Nat := none
deriving DecidableEq, Repr

/-- A challenge outstanding (16 R628). -/
structure Challenge where
  nonce : List Byte := []
  slot : Nat := 0
  level : Nat := 0
  time : Nat := 0
deriving DecidableEq, Repr

/-- A host partition (16 R603, R626 to R643). Instants are module time in ns. `nextLevel` is a level granted for the next tick, with the slot
and the source address of the frame that raised it. -/
structure Partition where
  level : Nat := 0
  nextLevel : Option Nat := none
  nextSlot : Nat := 0
  nextAddr : Nat := 0
  slot : Nat := 0
  bound : Option Nat := none
  lastAddr : Nat := 0
  lastNets : List Nat := []
  lockoutEnd : Option Nat := none
  challenge : Option Challenge := none
  fails : Nat := 0
  lastPass : Nat := 0
  subMask : Nat := 0
  subQ : Nat := 0
  irqEq : Nat := 0
  irqRead : Bool := false
  cq : Tab CmdQ := []
  eq : Tab EventQ := []
deriving DecidableEq, Repr

/-- A purser port's transaction state (16 R606 to R608). -/
structure PurPort where
  wbuf : List (Nat × List Byte) := []
  reading : Option (Nat × Nat) := none
  rbuf : List Byte := []
  readDone : Bool := false
  poisonWord : Option Nat := none
  error : Nat := 0
deriving DecidableEq, Repr

/-- A Tollhouse key slot in OTP (16 R627). -/
structure KeySlot where
  alg : Nat := 0
  manifest : Bool := false
  credential : Bool := false
  maxLevel : Nat := 0
  revoked : Bool := false
  key : List Byte := []
deriving DecidableEq, Repr

/-- A resource hold (16 R625): the partition and the instant of its last command on the resource. -/
structure Hold where
  part : Nat := 0
  last : Nat := 0
deriving DecidableEq, Repr

/-- A host command whose final completion is still to come (00 R24). -/
structure Pend where
  part : Nat := 0
  queue : Nat := 0
  seq : Word := 0
  op : Nat := 0
deriving DecidableEq, Repr

/-- A ring move in progress (16 R613). -/
structure QueueMove where
  cmd : Pend := {}
  fromB : List (Nat × Nat) := []
deriving DecidableEq, Repr

/-- A flash operation in progress on a bank (16 R636). -/
structure FlashOp where
  cmd : Pend := {}
  off : Nat := 0
  data : Option (List Byte) := none
deriving DecidableEq, Repr

/-- The purser and Tollhouse state, kept in the cable die (16 R624). `serving` from the end of S11 (R603); `written` the
ranges of each flash bank written since its erase; `outbox` the event frames of network partitions to be sent, as
(partition, network, address, entry); `alarmsAt` the active alarms at the tick and `shown` the registers changed since as they stood at it. -/
structure Purser where
  parts : Tab Partition := []
  ports : Tab PurPort := []
  slots : Tab KeySlot := []
  holds : Tab (Option Hold) := []
  alarms : List Nat := []
  alarmSrc : Tab Nat := []
  bootstrap : Bool := false
  jtagOpen : Bool := false
  serving : Bool := false
  move : Option QueueMove := none
  flashOps : Tab (List FlashOp) := []
  outbox : List (Nat × Nat × Nat × List Byte) := []
  written : Tab (List (Nat × Nat)) := []
  keyWrite : Option (Pend × KeySlot × Nat) := none
  alarmsAt : Nat := 0
  shown : Tab (Option Nat) := []
deriving DecidableEq, Repr

/-- The backup domain (17 R647 to R659). `phase` is the fraction of the crystal period elapsed, in 2^-16 ns of 32.768 kHz
counting; `snaps` the snapshots by requester as (seconds, subsec); `staged` the staged subseconds; `hold` what is left of the
wait of the prescaler after a commit, in the unit of `phase`; `was` the timebase cycle of the latest commit with the seconds and
subseconds before it; `wakeSeen` the RTC time in 1/256 s up to which wake instants are counted. -/
structure Rtc where
  seconds : Nat := 0
  subsec : Nat := 0
  phase : Nat := 0
  valid : Bool := false
  lost : Bool := true
  bkpValid : Bool := false
  mem : Tab Byte := []
  check : Word := 0
  period : Nat := 0
  wakeCount : Word := 0
  wakeBit : Bool := false
  snaps : Tab (Option (Nat × Nat)) := []
  staged : Tab Nat := []
  vbat : Nat := 0
  lowCount : Nat := 0
  vbatLow : Bool := false
  switches : Nat := 0
  onVbat : Bool := false
  hold : Nat := 0
  was : Option (Nat × Nat × Nat) := none
  wakeSeen : Nat := 0
deriving DecidableEq, Repr

/-- The logbook (17 R660 to R675). `flash1` and `flash2` are the bytes programmed in each sector of the two copies, from the sector's
start (none in an erased one; sector 0 is the Bollard's, 13 R494); `sector` the ring sector being written and `used` its bytes used, 0
before its header; `limits` the rate-limit table in force (code to limit + 1); `wrote` and `supp` the records written and suppressed of each code, `second` the whole second of
uptime they belong to. -/
structure Logbook where
  copy1 : Bool := false
  copy2 : Bool := false
  scanning : Bool := true
  clearing : Option Pend := none
  limitCmds : List Pend := []
  buffer : List LogRec := []
  lostPending : Nat := 0
  nextSeq : Nat := 0
  flash1 : Tab (List Byte) := []
  flash2 : Tab (List Byte) := []
  sector : Nat := 2
  used : Nat := 0
  limits : Tab Nat := []
  second : Nat := 0
  wrote : Tab Nat := []
  supp : Tab Nat := []
  lostCount : Nat := 0
  suppressed : Nat := 0
  starts : Nat := 0
  started : Bool := false
deriving DecidableEq, Repr

/-- A remap table entry (12 R469, R482): `line` is none for a retired spare. -/
structure RemapEntry where
  line : Option Nat := none
  spare : Nat := 0
  cause : Nat := 0
  valid : Bool := false
  seconds : Nat := 0
deriving DecidableEq, Repr

/-- A merge buffer entry (12 R460): a word address, the bytes written as (byte 0 to 7, value), and who asked. -/
structure MergeEntry where
  word : Nat := 0
  data : List (Nat × Byte) := []
  who : Nat := 8
deriving DecidableEq, Repr

/-- The memory integrity unit of a landing (12 R460 to R482). Counts are indexed by the kind of R464; `leakAt` is the instant of the
latest leak in ns. -/
structure MemInt where
  threshold : Nat := 16
  leak : Nat := 10
  level : Nat := 0
  armed : Bool := true
  trips : Nat := 0
  rate : Nat := 4
  scrubPos : Nat := 0
  scrubCarry : Nat := 0
  passes : Nat := 0
  errAddr : Nat := 0
  errInfo : Nat := 0
  corrected : Tab Nat := []
  uncorr : Tab Nat := []
  remap : List RemapEntry := []
  candidates : List (Nat × Nat) := []
  generation : Nat := 0
  copy : Bool := false
  tableLost : Bool := false
  marking : Bool := false
  marks : List Nat := []
  sent : List Nat := []
  memtest : Option Pend := none
  merge : List MergeEntry := []
  mergeWait : List MergeEntry := []
  leakAt : Nat := 0
deriving DecidableEq, Repr

/-- An arrival record waiting at the cable die (02 R62): `from_` is 0 or 1 for a landing, 2 for the cable die; `order`
its arrival number; `w0`, `w1` that it has waited one cut-off of Landing A's or B's list. -/
structure Arrival where
  cls : Nat := 0
  port : Nat := 0
  stamp : Nat := 0
  from_ : Nat := 2
  content : List Byte := []
  order : Nat := 0
  w0 : Bool := false
  w1 : Bool := false
deriving DecidableEq, Repr

/-- An input ready for admission (02 R65, R66). -/
structure Ready where
  cls : Nat := 0
  port : Nat := 0
  stamp : Nat := 0
  content : List Byte := []
  order : Nat := 0
  flags : Nat := 0
deriving DecidableEq, Repr

/-- An input whose stamp and content are agreed, the same for both lists (02 R61, R64): `d0`, `d1` that Landing A's or B's list has
admitted it. -/
structure Agreed where
  input : Ready := {}
  d0 : Bool := false
  d1 : Bool := false
deriving DecidableEq, Repr

/-- An admission entry of the running crossing (02 R68). -/
structure AdmEntry where
  cls : Nat := 0
  port : Nat := 0
  flags : Nat := 0
  stamp : Nat := 0
  seq : Nat := 0
  content : List Byte := []
deriving DecidableEq, Repr

/-- A word that a tile has stored to (03 R137, R138): the core cycle and address of the store, the word as it was before, the bytes stored,
and whether the store poisons the word. -/
structure TileStore where
  cycle : Nat := 0
  addr : Nat := 0
  old : Pw := {}
  bytes : List (Nat × Byte) := []
  poison : Bool := false
deriving DecidableEq, Repr

/-- The Ferryman of a landing (02 R98 to R106). `img` is the installed manifest image, byte by byte; `lastPattern` the pattern of the
crossing before; `open_` the dispatch
entries (index) and claims (2^32 + index) of the crossing still outstanding; `issued` the dispatch entries whose operation has run, and
`undo` the bytes and syndromes of the memories as they were before it, by entry; `overrun` the berths (by index)
whose producer overran in the period that ends at their next swap; `next` the verified image to be installed at the start tick; `tickLost` after a lost tick; `fareTurn` the partition next in rotation; `granted` the fare grants of the crossing as
(slot, lane, endpoint ports); `storeLog` the tile
stores of the crossing. -/
structure Ferryman where
  crossing : Nat := 0
  index : Nat := 0
  pattern : Nat := 0
  lastPattern : Nat := 0
  loaded : Bool := false
  running : Bool := false
  verifying : Bool := false
  halted : Bool := false
  lastVerify : Nat := 0
  verifyAt : Nat := 0
  img : Tab Byte := []
  next : Option (Tab Byte) := none
  startAt : Option Nat := none
  open_ : List Nat := []
  issued : List Nat := []
  undo : Tab (List Host.Cell × List Host.Cell) := []
  overrun : List Nat := []
  tickLost : Bool := false
  entries : Nat := 0
  beats : Nat := 0
  deferred : Nat := 0
  overrunCycle : Nat := 0
  overrunUnit : Nat := 0
  admitted : List AdmEntry := []
  seqs : Tab Nat := []
  fares : List FareReq := []
  fareTurn : Nat := 0
  granted : List (Nat × Nat × List Nat) := []
  storeLog : List TileStore := []
deriving DecidableEq, Repr

/-- Input agreement in the cable die (02 R62 to R67): records waiting, inputs agreed, entries ready by list (0 Landing A's,
1 Landing B's: the same while one list serves both), and the closed lists. -/
structure Agree where
  waiting : List Arrival := []
  inputs : List Agreed := []
  ready : Tab (List Ready) := []
  closed : Tab (List Ready) := []
  nextOrder : Nat := 0
deriving DecidableEq, Repr

/-- A result in flight (03 R135): the cycle in which it lands and what it writes: g registers, v lane groups (register * 4 +
group), p registers (value, poison), a special register, words of local memory (global word address, bytes, poisoned, whole
word), flags, and one count of `PSEEN`. -/
structure PendRes where
  land : Nat := 0
  g : List (Nat × Pw) := []
  v : List (Nat × Pw) := []
  p : List (Nat × Bool × Bool) := []
  sp : Option (Nat × Nat) := none
  mem : List (Nat × List (Nat × Byte) × Bool) := []
  flags : Nat := 0
  seen : Bool := false
deriving DecidableEq, Repr

/-- A pontoon tile (03): its registers with their poison, its special registers, results in flight (in the order issued),
the bundle address in issue, and the open loops, innermost first, as (first bundle, last bundle, iterations left); `left` the bundles of
its program still to issue, `next` the core cycle in which the next one does, `lost` whether a `LOOP` of it was lost (03 R723). -/
structure Tile where
  g : Tab Pw := []
  v : Tab Pw := []
  p : Tab (Bool × Bool) := []
  flags : Nat := 0
  pseen : Nat := 0
  job : Nat := 0
  lix0 : Nat := 0
  lix1 : Nat := 0
  running : Bool := false
  bundle : Nat := 0
  loops : List (Nat × Nat × Nat) := []
  flight : List PendRes := []
  left : Nat := 0
  next : Nat := 0
  lost : Bool := false
deriving DecidableEq, Repr

/-- The roles of a landing (01 R46, 10 R387), coded 0 to 5 in this order. -/
inductive Role where
  | none
  | active
  | standby
  | unsync
  | outOfService
  | quarantined
deriving DecidableEq, Repr

/-- An output item handed to the output selector (10 R390, R391): its key, the core cycle and the leg of its hand-over, the
endpoint port it goes to (0 for the items of keys 896 and above), a port, link or register address there, its content words. -/
structure OutItem where
  key : Nat := 0
  cycle : Nat := 0
  leg : Nat := 0
  port : Nat := 0
  sub : Nat := 0
  words : List Pw := []
deriving DecidableEq, Repr

/-- A leg report (10 R393): the leg, counted over the module's time, the digest, the accusation with its first code, the halt bit, the
compared values as (entry in the `DIGEST` section, value). -/
structure Report where
  leg : Nat := 0
  digest : DWord := 0
  accuse : Bool := false
  code : Nat := 0
  halt : Bool := false
  values : List (Nat × Nat) := []
deriving DecidableEq, Repr

/-- A resynchronisation in progress (10 R408): the joining landing, the admitting crossing of the active landing, the
command to complete, and that the final copy has been made. -/
structure Resync where
  side : Side := .B
  start : Nat := 0
  cmd : Option Pend := none
  copied : Bool := false
deriving DecidableEq, Repr

/-- A live manifest change (10 R410). `stage` 0 waits for a confirmation until `deadline`, 1 loads and verifies, 2 waits for
the common tick and warms up, 3 reloads the old active landing; `count` is the number of crossings of the new manifest, counted from 1 at its start;
`forced` after the active landing has failed; `side` is the landing being changed. -/
structure Change where
  cmd : Pend := {}
  bank : Nat := 0
  warm : Nat := 1
  stage : Nat := 0
  count : Nat := 0
  deadline : Nat := 0
  side : Side := .B
  forced : Bool := false
deriving DecidableEq, Repr

/-- A role change waiting for a leg boundary (10 R388): the leg, counted over the module's time, at whose start it takes effect. -/
structure RoleDue where
  side : Side := .A
  role : Role := .unsync
  leg : Nat := 0
deriving DecidableEq, Repr

/-- The cable arbiter (10 R387 to R418). `gap` is the failed active landing and the leg at whose boundary the standby takes
over; `agreedLegs` the legs of the running crossing that agreed so far; `agreed` the last agreed value of each compared
value; `held` the items held in the compare window; `gapSteps` the steps generated in a gap; `due` the role changes to
come; `judged` the first leg that has no verdict yet, `sinceA` and `sinceB` the first leg of each landing in step, counted over the module's
time. -/
structure Arbiter where
  preferred : Side := .A
  agree : Nat := 0
  mismatches : Nat := 0
  vLeg : Nat := 0
  vRow : Nat := 0
  vXing : Nat := 0
  vAccA : Bool := false
  vAccB : Bool := false
  vOutA : Bool := false
  vOutB : Bool := false
  vFailed : Nat := 0
  digA : DWord := 0
  digB : DWord := 0
  codeA : Nat := 0
  codeB : Nat := 0
  repA : Option Report := none
  repB : Option Report := none
  agreedLegs : Nat := 0
  adrift : Bool := false
  cause : Nat := 0
  held : List OutItem := []
  gap : Option (Side × Nat) := none
  resync : Option Resync := none
  resyncCount : Nat := 0
  resyncFailed : Bool := false
  finalKb : Nat := 0
  returnHeld : Bool := false
  failovers : Nat := 0
  failbacks : Nat := 0
  change : Option Change := none
  agreed : Tab (Option Nat) := []
  gapSteps : Tab Int := []
  due : List RoleDue := []
  judged : Nat := 0
  sinceA : Nat := 0
  sinceB : Nat := 0
  given : Bool := false
deriving DecidableEq, Repr


/-- The slipway of a landing (11 R430 to R445). `started` is the instant at which S3 of a restart began; `entered` the
instant at which the running stage began; `record` the slipway record as it stood at the start; `s10` that the landing has
completed S10; `inReset` that it holds itself in reset; `bank` the image bank in use, `tried` that the other bank has been
tried; `cmd` the restart command to complete; `newFlags` the path flags set in this start; `joins` that it
became UNSYNCHRONISED under R437 and joins without a command (R438). -/
structure Slipway where
  stage : Nat := 0
  running : Bool := false
  failedBefore : Nat := 0
  cold : Bool := false
  bank : Nat := 0
  otherBank : Bool := false
  slow : Bool := false
  remap1 : Bool := false
  short : Bool := false
  skip : Bool := false
  fallback : Bool := false
  fw1 : Bool := false
  alone : Bool := false
  started : Nat := 0
  entered : Nat := 0
  duration : Nat := 0
  record : List Nat := []
  times : Tab Nat := []
  s10 : Bool := false
  inReset : Bool := false
  newFlags : Nat := 0
  joins : Bool := false
  restarted : Bool := false
  cmd : Option Pend := none
deriving DecidableEq, Repr

/-- A mode record waiting to take effect (11 R421, R422): the new mode, its cause, the commanding partition, the command to
complete, the record's bytes. -/
structure ModeReq where
  mode : Nat := 1
  cause : Nat := 0
  part : Nat := 0xFF
  cmd : Option Pend := none
  bytes : List Byte := []
deriving DecidableEq, Repr

/-- A load of a manifest on a running landing (10 R409, R410, 11 R428, R438): `kind` 1 `SLW_LOAD`, 2 `CBL_RELOAD`, 3 the standby of a
manifest change, 4 the old active landing of one, 5 a joining landing; the image bank, the command to complete, and for kind 1 the load status
once the verification has ended (0 accepted). -/
structure Load where
  kind : Nat := 1
  bank : Nat := 0
  cmd : Option Pend := none
  status : Option Nat := none
deriving DecidableEq, Repr

/-- The Deckhand registers of both landings (11 R446): previous mode, cause and partition of the last change, its crossing
count; the published fusion level shown in `DKH_STATUS` (01 R46); `modeReqs` the mode records not yet admitted; `loads` the
loads in progress by landing number; `s0` how long before
module time 0 stage S0 began (ns), `deadline` that the deadline of R437 has passed, `s1` that stage S1 has
completed. -/
structure Deckhand where
  previous : Nat := 0
  cause : Nat := 0
  part : Nat := 0xFF
  xing : Nat := 0
  fusion : Nat := 4
  modeReqs : List ModeReq := []
  loads : Tab (Option Load) := []
  s0 : Nat := 0
  deadline : Bool := false
  s1 : Bool := false
deriving DecidableEq, Repr


/-- A stream of samples (04 R159 to R162): how many there have been, and the latest, newest first, as (Q1.31 value, flags):
bit 0 FILL, 1 CLIP, 2 DCFROZEN, 3 LINKERR, 4 poisoned (04 R183). -/
structure SchStream where
  count : Nat := 0
  hist : List (Int × Nat) := []
deriving DecidableEq, Repr

/-- A channel (04 R160 to R171): the DC blocker in 2^-55, the latest unfilled samples, the fill count, whether the blocker was
frozen for the latest input, its streams (0 the input, i the output of stage i), the next output (none before the first), the live result in force
and one to come (with the link sample after which it applies), the user layer set by command, changes not yet carried, the
epoch. -/
structure SchChan where
  m : Int := 0
  unfilled : List Int := []
  fillJ : Nat := 0
  frozen : Bool := false
  streams : Tab SchStream := []
  outN : Option Int := none
  live : Option (Nat × Nat) := none
  nextLive : Option (Nat × Nat × Nat) := none
  user : Option (Nat × Nat × Nat) := none
  changes : Nat := 0
  epoch : Nat := 0
deriving DecidableEq, Repr

/-- A sample link as a landing keeps it (04 R152 to R158, R172 to R174, R187, R188). `state` 0 DOWN, 1 UP, 2 LOST is the
state underneath a bypass; `m` counts samples since the manifest start; `rx` is the frame judged good by this landing; `words`
and `pass` the calibration block being received; `runAt` the sample at the start of the running calibration, `filling` until
the end of its fills. -/
structure SchLink where
  state : Nat := 0
  bypassed : Bool := false
  goods : Nat := 0
  bads : Nat := 0
  words : Nat := 0
  pass : List Byte := []
  lastPass : List Byte := []
  same : Nat := 0
  block : List Byte := []
  health : Nat := 0
  bad : Nat := 0
  repaired : Nat := 0
  repairs : List Nat := []
  m : Nat := 0
  expect : Option Nat := none
  rx : Option (List Byte) := none
  chan : Nat := 0
  nextChan : Nat := 0
  runAt : Nat := 0
  filling : Bool := false
  void : Bool := false
  done : Bool := false
  zSum : Int := 0
  spanSum : Int := 0
  accepted : Nat := 0
  rejected : Nat := 0
  voided : Nat := 0
  refOff : Bool := false
  refHold : Bool := false
deriving DecidableEq, Repr

/-- The sample chain of a landing (chapter 04): `start` is the crossing of the manifest start, `frozen` the channels frozen by
command, `shown` the state registers as they stood at the last tick, `bad` the stores of the chain with a word that reads poisoned:
(0, coefficient set), (1, channel descriptor) (04 R183). -/
structure Sch where
  links : Tab SchLink := []
  chans : Tab SchChan := []
  start : Nat := 0
  frozen : Tab Bool := []
  shown : Tab Nat := []
  bad : List (Nat × Nat) := []
deriving DecidableEq, Repr


/-- A half of a GNSS channel (05 R199 to R206): its settings, its NCOs (carrier phase in cycles * 2^32, code phase in chips *
2^32), the ten sums (I and Q of VE to VL), the flags of the running integration, the integrations of the running dwell, and
the writes queued in this crossing, taken at the tick, and waiting for a boundary. `eff` is the mode after every queued
write; `hit` that the code phase has just reached a boundary; `bad` that its settings, and `spoilt` that its running sums, rest on a word
that read poisoned (05 R210). -/
structure GnsHalf where
  mode : Nat := 0
  signal : Nat := 0
  prn : Nat := 0
  k : Nat := 1
  carRate : Nat := 0
  carPhase : Nat := 0
  codeRate : Nat := 0
  codePhase : Nat := 0
  delta : Nat := 32
  deltaV : Nat := 64
  sums : List Int := []
  count : Nat := 0
  partial_ : Bool := false
  newCfg : Bool := false
  slewed : Bool := false
  gap : Bool := false
  disabled : Bool := false
  hit : Bool := false
  full : Nat := 0
  eff : Nat := 0
  queued : List (List Byte) := []
  armed : List (List Byte) := []
  waiting : List (List Byte) := []
  bad : Bool := false
  spoilt : Bool := false
deriving DecidableEq, Repr

/-- An antenna (05 R196 to R198, R221, R226, R227): the last two marks, whether it had edges, samples dropped, disabled by
command now and as the samples being correlated were taken, the pass discarded, and the magnitude counts of the running
second with the fractions shown; `outU` and `outL` the instants (plus 1) since when a fraction is out of its range, 0 while it is not; `bad`
that the capture buffer holds a word that reads poisoned (05 R210). -/
structure GnsAnt where
  mark : Nat := 0
  prev : Nat := 0
  time : Nat := 0
  clk : Bool := false
  excess : Bool := false
  off : Bool := false
  wasOff : Bool := false
  skip : Bool := false
  onesU : Nat := 0
  onesL : Nat := 0
  total : Nat := 0
  fracU : Nat := 0
  fracL : Nat := 0
  outU : Nat := 0
  outL : Nat := 0
  bad : Bool := false
deriving DecidableEq, Repr

/-- The time-pulse steering (05 R216 to R219): offsets in 2^-32 ns, drifts in FP64 ns/s, epochs in ns of module time. `state`
0 FREE, 1 LOCKED, 2 HOLDOVER, 3 SLEWING; `co`, `cr`, `ct` the candidate; `oe` the offset emitted while slewing; `label` and
`edge` of the last committed pulse. -/
structure Steer where
  state : Nat := 0
  o : Int := 0
  r : BitVec 64 := 0
  t : Nat := 0
  lastAcc : Nat := 0
  sigma : BitVec 32 := 0
  run : Nat := 0
  co : Int := 0
  cr : BitVec 64 := 0
  ct : Nat := 0
  oe : Int := 0
  stepNext : Bool := true
  lockTick : Nat := 0
  label : Option Nat := none
  edge : Int := 0
  flags : Nat := 0
  pulses : Nat := 0
  limitHit : Bool := false
deriving DecidableEq, Repr

/-- The GNSS baseband of a landing (chapter 05): antennas 0 and 1, halves by 128 * antenna + 2 * channel + half, the latest
`VALID` position record of each antenna, the start of the magnitude second, the registers as they stood at the last tick. -/
structure Gns where
  ants : Tab GnsAnt := []
  halves : Tab GnsHalf := []
  steer : Steer := {}
  pos : Tab (List Byte) := []
  magStart : Nat := 0
  shown : Tab Nat := []
deriving DecidableEq, Repr

/-- The time-pulse outputs in the cable die (05 R219): the last committed word, and for each output the label last driven (plus
one) and the edges of that pulse in ns, with its polarity. -/
structure TimePulse where
  word : List Byte := []
  driven : Tab Nat := []
  rise : Tab Nat := []
  fall : Tab Nat := []
  low : Tab Bool := []
  short : Tab Bool := []
deriving DecidableEq, Repr

/-- Aiding kept by the Deckhand cores (05 R213, R215): the next class 3 input to post (0 the header, n the n-th orbit entry) and
the save commands to complete, and the RTC time at the manifest start tick in GPS ns, where it was valid. -/
structure Aiding where
  next : Option Nat := none
  saves : List Pend := []
  time : Option Nat := none
deriving DecidableEq, Repr



/-- A sample, or an object list, in a stream's history (06 R234, R239): its instant in ns, its arrival, the stamp that joins
objects, the objects as (index, values, σ), that a measurement has used it. -/
structure FusSample where
  t : Int := 0
  a : Int := 0
  stamp : Int := 0
  objs : List (Nat × List DWord × List Word) := []
  used : Bool := false
deriving DecidableEq, Repr

/-- A clock model (06 R236): the offset in ns at `t`, and the rate, in FP64. -/
structure FusClock where
  o : DWord := 0
  rho : DWord := 0
  t : Int := 0
deriving DecidableEq, Repr

/-- A source stream (06 R232 to R256): `excl` 0 in service, 2 excluded by failures, 3 by the operator; `window` the epochs
judged, newest first, as (epoch, 0 passed, 1 gated out, 2 voted out); `oMin` the smallest clock observation of the window with
its arrival; `candNew` that the candidate's first epoch is open;
`pos` the latest formed position measurement (north, east, instant); `applied` the instant of the latest one
applied; `latest` the values of the latest object. -/
structure FusStream where
  excl : Nat := 0
  adrift : Bool := false
  window : List (Nat × Nat) := []
  hist : List FusSample := []
  lates : List FusSample := []
  clk : Option FusClock := none
  cand : Option FusClock := none
  candNew : Bool := false
  consistent : Nat := 0
  oMin : Option (Int × Int) := none
  how : Nat := 0
  late : Nat := 0
  pos : Option (DWord × DWord × Int) := none
  applied : Option Int := none
  latest : Option (List DWord × List Word) := none
deriving DecidableEq, Repr

/-- What is kept of an epoch for late samples (06 R256): posterior, covariance, model input, transition Jacobian. -/
structure FusEpoch where
  x : Vec := []
  p : Mat := []
  input : Vec := []
  jac : Mat := []
deriving DecidableEq, Repr

/-- A fusion command waiting for the next `CLOSE` (06 R258, R262). -/
inductive FusCmd where
  | exclude (stream : Nat)
  | readmit (stream : Nat)
  | pin (track typ source : Nat) (n e sigma : DWord) (stream : Nat)
  | release (track : Nat)
  | transform (entry : Nat) (data : List Byte)
  | origin (lat lon height : DWord)
deriving DecidableEq, Repr

/-- The fusion engine of a landing (chapter 06): `start` the crossing of the manifest start, `closed` the last closed epoch,
`x` and `p` the filter, `hist` the latest epochs, newest first, `ages` the list epochs of each track since its creation,
`label` the count of labels, `levels` the candidates of the last 20 epochs, `pairRun` the epochs since the last disagreement,
`motion` the published roll, pitch and heave, `due` that the registers change at the next tick, `shown` the registers as they stood at the tick. -/
structure Fus where
  start : Nat := 0
  closed : Option Nat := none
  streams : Tab FusStream := []
  x : Vec := []
  p : Mat := []
  input : Vec := []
  posInit : Bool := false
  headInit : Bool := false
  posVar : DWord := 0
  headVar : DWord := 0
  hist : List FusEpoch := []
  histFrom : Nat := 0
  cmds : List FusCmd := []
  origin : Option (DWord × DWord × DWord) := none
  ages : Tab Nat := []
  label : Nat := 0
  levels : List Nat := []
  level : Nat := 4
  pairRun : Nat := 100
  reinitRun : Nat := 0
  tLast : Option Int := none
  vote : Bool := false
  headingDr : Bool := false
  groups : Nat := 0
  drUs : Nat := 0
  usedMask : Nat := 0
  lateApplied : Nat := 0
  lateDiscarded : Nat := 0
  motion : List Word := []
  due : Bool := true
  shown : Tab Nat := []
deriving DecidableEq, Repr


/-- A solver job (07 R284 to R296): the next slice and the instance's crossing of start, instances begun, work done, the scalar
registers, abandoned and finished marks, status and non-finite element of the last FINISH; for a solve job the factor buffer
taken, its commit count and that none was committed; for a FACTOR job the committed buffer, the commits and a pivot that
failed; instances published NaN and abandoned; the crossing a hold began, that it expired, and that the latest due tick left
the berth `NAN` or `MISSED`. -/
structure SlvJob where
  slice : Nat := 0
  started : Nat := 0
  inst : Nat := 0
  work : Nat := 0
  scal : Tab Nat := []
  abandoned : Bool := false
  finished : Bool := false
  status : Nat := 0
  bad : DWord := 0
  buffer : Nat := 0
  bufCount : Nat := 0
  noFactor : Bool := false
  committed : Option Nat := none
  commits : Nat := 0
  pivotBad : Bool := false
  nans : Nat := 0
  missed : Nat := 0
  hold : Option Nat := none
  holdOver : Bool := false
  leftBad : Bool := false
deriving DecidableEq, Repr

/-- The solver engine of a landing (chapter 07): `start` the crossing of the manifest start, the last NaN published, job and
slice of the latest stall, the leg of the latest `SLV_STALL` and the jobs and slices that stalled in it, and that a hold has expired. -/
structure Slv where
  start : Nat := 0
  jobs : Tab SlvJob := []
  nan : DWord := 0
  stallAt : Nat := 0
  stallLeg : Option Nat := none
  stalls : List Nat := []
  expired : Bool := false
  shown : Tab Nat := []
deriving DecidableEq, Repr


/-- A path of a control loop (08 R311 to R313): the histories (x1, x2, y1, y2) of its sections, the integrator, the previous
output with its saturation. -/
structure CtlPath where
  hist : List (Int × Int × Int × Int) := []
  integ : Int := 0
  prev : Int := 0
  satHi : Bool := false
  satLo : Bool := false
deriving DecidableEq, Repr

/-- A control loop (08 R308 to R331): the bank in use and its path; in a fade the old bank's path, the length and the next sample;
the pending swap as (bank, length); the last output value and the flags of the last output word; samples; that a bank word in
use was written. -/
structure CtlLoop where
  bank : Nat := 0
  path : CtlPath := {}
  old : CtlPath := {}
  fade : Option (Nat × Nat) := none
  pend : Option (Nat × Nat) := none
  out : Word := 0
  flags : Nat := 0
  count : Nat := 0
  written : Bool := false
deriving DecidableEq, Repr

/-- The control engine of a landing (chapter 08). -/
structure Ctl where
  loops : Tab CtlLoop := []
  writes : Nat := 0
  swaps : Nat := 0
  shown : Tab Nat := []
deriving DecidableEq, Repr


/-- A piece of a profile (09 R350): its start in FP64 seconds from the plan's origin, and p0, v0, a0 and j. -/
structure AxePiece where
  t : DWord := 0
  p : DWord := 0
  v : DWord := 0
  a : DWord := 0
  j : DWord := 0
deriving DecidableEq, Repr

/-- A step segment (09 R357): the instant it starts in ns, its timebase cycles, those it idles, K, the remainder, the sign, the
motion in 2^-16 counts, the cycles run. -/
structure AxeSeg where
  start : Nat := 0
  n : Nat := 0
  idle : Nat := 0
  k : Int := 0
  r : Nat := 0
  neg : Bool := false
  delta : Int := 0
  done : Nat := 0
deriving DecidableEq, Repr

/-- An axis (09 R342 to R374). `st` is its state code; `plan` its profile with its origin in ns, `was` the
profile before that origin and `off` the counts (48.16) added
to the rounded position; `target` the last target planned to, `asked` the target before the power clamp, `kept` the kept one;
`stop` a stop asked for (1) or running as a fault stop (2); `acc` the phase accumulator in 2^-48 counts and `planned` the
position at the end of the last planned segment; `carry` the counts to be added to the next; `shift` the counts (48.16) by which homing has moved every position against the
accumulator; `queued`
the start's place as (order, instant) and `flags` the last record's flags. -/
structure Axis where
  st : Nat := 6
  plan : List AxePiece := []
  origin : Int := 0
  was : List AxePiece := []
  wasOrigin : Int := 0
  off : Int := 0
  target : Option DWord := none
  asked : Option DWord := none
  kept : Option DWord := none
  replan : Bool := false
  stop : Nat := 0
  referenced : Bool := false
  stall : Bool := false
  currentLow : Bool := false
  startOk : Bool := false
  abrupt : Bool := false
  nanCount : Nat := 0
  nanOver : Bool := false
  phase : Nat := 0
  homeFrom : DWord := 0
  homeRef : DWord := 0
  stallCount : Nat := 0
  updates : Nat := 0
  shift : Int := 0
  acc : Int := 0
  planned : Int := 0
  carry : Int := 0
  lastNeg : Bool := false
  seg : Option AxeSeg := none
  next : Option AxeSeg := none
  queued : Option (Nat × Nat) := none
  flags : Nat := 0
deriving DecidableEq, Repr

/-- A switchboard bus (09 R369 to R374): L, A and R, the instant of the last `AXE_POWER` or of the manifest
start, whether fallback values apply, whether `AXE_PMS_STALE` has been raised since, U in W
with its fraction in 10^-9 W, the budget and allocation limit of the last tick, and f_b in FP64. -/
structure AxeBus where
  l : Nat := 0
  a : Nat := 0
  r : Nat := 0
  last : Option Nat := none
  stale : Bool := true
  warned : Bool := false
  u : Nat := 0
  frac : Nat := 0
  budget : Int := 0
  limit : Nat := 0
  f : DWord := 0x3FF0000000000000
deriving DecidableEq, Repr

/-- A reservation of an admitted start (09 R370): axis, bus, power, the instant it runs out; the tick that admitted it and the
place in the queue it had. -/
structure AxeHoldS where
  axis : Nat := 0
  bus : Nat := 0
  power : Nat := 0
  ends : Nat := 0
  at_ : Nat := 0
  place : Nat × Nat := (0, 0)
deriving DecidableEq, Repr

/-- The axis engine of a landing (chapter 09): the inputs latched with their release counts, the last snapshot and the crossing it
was taken in, the buses, the reservations, the next place in the start queue. -/
structure Axe where
  axes : Tab Axis := []
  latched : Tab Bool := []
  clear : Tab Nat := []
  inputs : Nat := 0
  snapped : Option Nat := none
  buses : Tab AxeBus := []
  reserved : List AxeHoldS := []
  order : Nat := 0
  shown : Tab Nat := []
deriving DecidableEq, Repr

/-- The step and direction outputs in the cable die (09 R357 to R360): for each output the steps that have left the pin, and
whether the direction pin stands at its level for negative steps; `off` the outputs whose driver is off (18 R686, R694), `skip` those
that resume with the next segment; `last` the instant in ns of the last step's carry or borrow. -/
structure StepPins where
  steps : Tab Int := []
  neg : Tab Bool := []
  off : Nat := 0
  skip : Nat := 0
  last : Tab Nat := []
deriving DecidableEq, Repr

/-- A safety input channel (13 R501, R514): its level (0 to 3 as in `BolPins`), since when its level as a bit and its range have
stood (ns since the end of S1), the filtered state. -/
structure BolChan where
  lev : Nat := 0
  since : Nat := 0
  range : Nat := 0
  filt : Bool := false
deriving DecidableEq, Repr

/-- A safety function (13 R503 to R508): its state code, the cause of the last stop or fault, the cycle count at which its stop delay
ends, for how many cycles its reset source has been 1, that automatic reset waits for the condition to fail, two-hand readiness and time,
the greatest and least counts of the channels since it entered RUN, and whether the banks differed on it in the last cycle. -/
structure BolFn where
  st : Nat := 0
  cause : Nat := 0
  stopAt : Nat := 0
  held : Nat := 0
  wait : Bool := false
  armed : Bool := false
  two : Nat := 0
  max1 : Int := 0
  min1 : Int := 0
  max2 : Int := 0
  min2 : Int := 0
  differ : Bool := false
deriving DecidableEq, Repr

/-- A channel of a safety output (13 R510 to R514): ON, ON throughout the last cycle, its fault latches, cycles reading high while OFF,
cycles of low load current. -/
structure BolOutCh where
  on : Bool := false
  thru : Bool := false
  excess : Bool := false
  read : Bool := false
  open_ : Bool := false
  high : Nat := 0
  low : Nat := 0
deriving DecidableEq, Repr

/-- A safety output (13 R514, R531): feedback latch, tests passed and void, the feedback time left (plus 1) and the value awaited. -/
structure BolOut where
  fb : Bool := false
  passed : Nat := 0
  void : Nat := 0
  fbLeft : Nat := 0
  fbWant : Bool := false
deriving DecidableEq, Repr

/-- A safety input (13 R502): cycles for which its channels have disagreed, the discrepancy latch. -/
structure BolInp where
  disc : Nat := 0
  latched : Bool := false
deriving DecidableEq, Repr

/-- An encoder (13 R508, R509): the counts of its channels, the references, the counts at the last 64 cycle starts, newest first, and
that its channels differ by more than the tolerance. -/
structure BolEnc where
  n1 : Int := 0
  n2 : Int := 0
  ref1 : Int := 0
  ref2 : Int := 0
  hist : List (Int × Int) := []
  bad : Bool := false
deriving DecidableEq, Repr

/-- A telegram connection (13 R517 to R521, R533): its state (1 to 3), the last sequence number accepted, whether one has been accepted
since it was last not HEALTHY, when (uptime in ns), the safe data, the error counts, the latest sequence number sent. -/
structure BolConn where
  st : Nat := 1
  seq : Nat := 0
  got : Bool := false
  last : Nat := 0
  data : Nat := 0
  crc : Nat := 0
  seqErr : Nat := 0
  fmt : Nat := 0
  sent : Nat := 0
deriving DecidableEq, Repr

/-- A parameter block being written (13 R523). -/
structure BolWrite where
  cmd : Pend := {}
  block : List Byte := []
  slot1 : Nat := 0
  slot2 : Nat := 0
deriving DecidableEq, Repr

/-- The Bollard (chapter 13). `live` from the end of stage S1, the instant `start` in ns; `cycle` cycles completed since; `gen` and `block` in force; `slots` the
parameter slots, 2 * (bank − 1) + slot; switch values of S1 with the live mask and the cycles each has differed;
`adrift` that the Bollard holds Adrift, with `cause` its code; `pinBad` the input channels out of range for 1 ms as 1 high, 2 low. -/
structure Bollard where
  live : Bool := false
  start : Nat := 0
  cycle : Nat := 0
  gen : Nat := 0
  block : List Byte := []
  staged : List Byte := []
  slots : Tab (List Byte) := []
  writing : Option BolWrite := none
  ssw : Nat := 0
  sswLive : Nat := 0
  sswRun : Tab Nat := []
  lock : Bool := false
  single : Bool := false
  trial : Bool := false
  adrift : Bool := false
  cause : Nat := 0
  chans : Tab BolChan := []
  inps : Tab BolInp := []
  pinBad : Tab Nat := []
  fns : Tab BolFn := []
  outs : Tab BolOut := []
  outCh : Tab BolOutCh := []
  encs : Tab BolEnc := []
  conns : Tab BolConn := []
deriving DecidableEq, Repr

/-- A pending frame of a transmit buffer (14 R543), with its confirm flag. -/
structure CanPend where
  frame : CanFrame := {}
  confirm : Bool := false
deriving DecidableEq, Repr

/-- A CAN controller of a landing (14 R543 to R552): error counters, passive state, pending frames and those that wait for an attempt to
end, statistics, the last error, acknowledgement errors in a row and whether they have been reported, data-field bit errors in a row
by identifier. -/
structure CanCtl where
  tec : Nat := 0
  rec_ : Nat := 0
  passive : Bool := false
  pend : Tab (Option CanPend) := []
  next : Tab (Option CanPend) := []
  sent : Nat := 0
  posted : Nat := 0
  bit : Nat := 0
  stuff : Nat := 0
  crc : Nat := 0
  ack : Nat := 0
  last : Nat := 0
  lastData : Bool := false
  dropped : Nat := 0
  ackRun : Nat := 0
  noAck : Bool := false
  coll : Tab Nat := []
deriving DecidableEq, Repr

/-- The CAN block of a landing (chapter 14): its controllers, the output keys (plus 1) under which the transmit buffers were written,
the manifest start in ns, the mirrored port records. -/
structure Can where
  ports : Tab CanCtl := []
  keys : Tab Nat := []
  start : Nat := 0
  shown : Tab Nat := []
deriving DecidableEq, Repr

/-- A port record in the cable die (14 R538, R554 to R556): isolation, the bus-off state (0, 2 recovering, 3 awaiting `CAN_BUS_ON`), the
suppressed identifiers with the type in bit 29, and of the time master the discontinuity to be reported, the last message's cycle count,
bit and bytes, the count sent, and the messages sent or abandoned: those with a number below `refDone`. -/
structure CanPort where
  isolated : Bool := false
  off : Nat := 0
  supp : List Nat := []
  disc : Bool := true
  cycle : Nat := 0
  refDisc : Bool := false
  refSent : Nat := 0
  ref : List Byte := []
  refDone : Nat := 0
deriving DecidableEq, Repr


/-- A frame queued at an egress port (15 R577, R580): its bytes, its launch time in ns, the time base whose value is inserted at its start;
of a transit frame the ingress stamp and the link delay added to a Sync, of a Pdelay_Resp the request's receive stamp (all in 2^-16 ns). -/
structure EthFrame where
  bytes : List Byte := []
  launch : Option Nat := none
  tb : Option Nat := none
  ingress : Option Nat := none
  link : Int := 0
  turn : Option Nat := none
deriving DecidableEq, Repr

/-- An SGMII port of a landing (15 R580 to R589): counts, queues, the last frame put on the wire, the stamp of the last frame other than a
launch frame started on time, the instant in ns at which the port is free; link delay with twice its last 8 measurements, the running request's sequence and transmit stamp, requests unanswered. -/
structure EthPort where
  rx : Nat := 0
  rxErr : Nat := 0
  tx : Nat := 0
  txDrop : Nat := 0
  launch : List EthFrame := []
  imm : List EthFrame := []
  transit : List EthFrame := []
  wire : List Byte := []
  txStamp : Nat := 0
  busy : Nat := 0
  delays : List Int := []
  delay : Int := 0
  seq : Nat := 0
  asked : Bool := false
  t1 : Option Nat := none
  miss : Nat := 0
deriving DecidableEq, Repr

/-- A copy of a network command (15 R583): partition, sequence number, network (0 A, 1 B), agreed stamp, source address, the bytes of
the command. -/
structure CmdCopy where
  part : Nat := 0
  seq : Nat := 0
  net : Nat := 0
  stamp : Nat := 0
  src : Nat := 0
  bytes : List Byte := []
deriving DecidableEq, Repr

/-- The Ethernet block of a landing (chapter 15): links, lane bypass, ports, the output keys (plus 1) of the transmit buffers, pending
copies, commands decided as (partition, sequence, ns), counts, the commands accepted in the running crossing, frames that no filter
matched, the registers as they stood at the last tick. -/
structure Eth where
  links : Nat := 0
  bypass : Bool := true
  ports : Tab EthPort := []
  keys : Tab Nat := []
  copies : List CmdCopy := []
  decided : List (Nat × Nat × Nat) := []
  paired : Nat := 0
  single : Nat := 0
  differ : Nat := 0
  late : Nat := 0
  accepted : List CmdCopy := []
  unmatched : Nat := 0
  shown : Tab Nat := []
deriving DecidableEq, Repr

/-- A network time base in the cable die (15 R590 to R592): its state (0 unused, 1 FREE, 2 LOCKED, 3 HOLDOVER, 4 master), o_b and r_b in
FP64, t_b in 2^-16 ns, the instants in ns of the last Sync and of the last on network A, the master heard (plus 1), Syncs in a row below
the step threshold, the `STEP` flag, the last error in ns, the last 8 round trips, the sequence numbers of its messages. -/
structure TimeBase where
  state : Nat := 0
  o : DWord := 0
  r : DWord := 0
  t : Nat := 0
  lastSync : Nat := 0
  lastA : Option Nat := none
  master : Nat := 0
  run : Nat := 0
  step : Bool := false
  err : Int := 0
  trips : List Int := []
  seqs : Nat := 0
  seqa : Nat := 0
  seqd : Nat := 0
deriving DecidableEq, Repr

/-- The timebase reference (15 R585, R586): external or TCXO, the state (0 locked, 1 measuring, 2 slewing, 3 holding after loss), the
reference being taken, the command to complete, that the change runs under the start option. -/
structure Reference where
  ext : Bool := false
  state : Nat := 0
  target : Bool := false
  cmd : Option Pend := none
  boot : Bool := false
deriving DecidableEq, Repr


/-- The supplies and pins (18 R683 to R710): the input states, the domains, temperatures as bytes, the pin conditions, the last
`TP_IN` edge in 2^-16 ns; `fieldCause` the code of a loss of the field domain that the next tick makes Adrift, or 0 (10 R402). `va` and `vb` are the last measured register words of the two inputs. -/
structure Supply where
  aOk : Bool := false
  bOk : Bool := false
  aRev : Bool := false
  bRev : Bool := false
  field : Bool := false
  landA : Bool := false
  landB : Bool := false
  bank1 : Bool := false
  bank2 : Bool := false
  hotA : Bool := false
  hotB : Bool := false
  va : Word := 0
  vb : Word := 0
  tempA : Byte := 0
  tempB : Byte := 0
  tempC : Byte := 0
  tempBase : Byte := 0
  stepShort : Nat := 0
  stepOpen : Nat := 0
  axin : Nat := 0
  enc : Nat := 0
  can : Nat := 0
  tp0 : Bool := false
  tp1 : Bool := false
  refPresent : Bool := false
  tpIn : Option Nat := none
  fieldCause : Nat := 0
deriving DecidableEq, Repr


/-- The ticks of one landing (02 R57, R60): the instant of its last tick (2^-16 ns) and its crossing period in ns (0 for no tick). -/
structure TickGrid where
  last : Nat := 0
  period : Nat := 0
deriving DecidableEq, Repr

/-- The cable die's tick generator (02 R57): the instant of the leading landing's last tick (2^-16 ns), its crossing period in ns (0 for no
tick), ticks issued, and each landing's own ticks. -/
structure TickGen where
  last : Nat := 0
  period : Nat := 0
  count : Nat := 0
  gridA : TickGrid := {}
  gridB : TickGrid := {}
deriving DecidableEq, Repr

/-- One landing (01 R34): its memories, its units and its registers. `mem` lists the bytes of its address space that are
not zero (the instruction store of tile n lies at 2^32 + n * 2^16, the DRAM spare lines at 2^33 + 64k), `syn` the stored
syndromes that are not clean, by word address / 8; `accused` of the running leg and the one before, as (leg over the module's time, first SELF-ACCUSE or HALT code, whether a HALT was
among them); `items` the output items handed over and not yet reported; `flash` the flash bytes that are not erased (0xFF), `fwErased` the
firmware banks (2 and 3) erased since the factory wrote them (00 R32); `shownTrim` and
`shownPeriod` the fields of `DKH_STATUS` as of its last tick (01 R46, R48). -/
structure Landing where
  mem : List Host.Cell := []
  syn : List Host.Cell := []
  flash : List Host.Cell := []
  fwErased : List Nat := []
  events : Tab Nat := []
  shownTrim : Nat := 3
  shownPeriod : Nat := 3
  accused : List (Nat × Nat × Bool) := []
  memi : MemInt := {}
  fmn : Ferryman := {}
  tiles : Tab Tile := []
  items : List OutItem := []
  slw : Slipway := {}
  sch : Sch := {}
  gns : Gns := {}
  fus : Fus := {}
  slv : Slv := {}
  ctl : Ctl := {}
  axe : Axe := {}
  can : Can := {}
  eth : Eth := {}
deriving DecidableEq, Repr

/-- The answer to the latest register or data-port access: the data and whether it was an access error (01 R42). -/
structure Resp where
  data : Word := 0
  bytes : List Byte := []
  err : Bool := false
  fare : List (Nat × Pw) := []
deriving DecidableEq, Repr

/-- The module. `now` is module time in 2^-16 ns (00 R21); `uptime` the logbook's uptime in the same unit, none before the
end of stage S0; `slDown` the word
last sent on each sample-link downlink; `lastRaised` the instants of the latest raising of each limited fault; `free` counts the free values
drawn; `shared` the cable-die words that one landing's claims have read and the other's have not yet, by register address, oldest first, with
the landing's number (01 R44); `tie` the timebase cycle and the register of Landing A's latest write of the cable die before S10 (01 R43);
`pending` is the queue of waiting commands, first in, first out. -/
structure State where
  now : Nat := 0
  uptime : Option Nat := none
  tick : TickGen := {}
  mode : Nat := 0
  a : Landing := {}
  b : Landing := {}
  roleA : Role := .none
  roleB : Role := .none
  bank1 : Bool := true
  bank2 : Bool := true
  events : Tab Nat := []
  agree : Agree := {}
  arb : Arbiter := {}
  dkh : Deckhand := {}
  slDown : Tab Nat := []
  tp : TimePulse := {}
  pins : StepPins := {}
  canRec : Tab CanPort := []
  sup : Supply := {}
  bol : Bollard := {}
  tbs : Tab TimeBase := []
  ref : Reference := {}
  aid : Aiding := {}
  latch : Tab (Option Word) := []
  pendLow : Tab (Option Word) := []
  shared : Tab (List (Nat × Word)) := []
  tie : Option (Nat × Nat) := none
  pur : Purser := {}
  rtc : Rtc := {}
  log : Logbook := {}
  lastRaised : Tab Nat := []
  resp : Resp := {}
  free : Nat := 0
  pending : List Instr := []
deriving DecidableEq, Repr

/-- The module right after power-on reset, before its first slipway stage: every field at the value the spec gives, or at
the value the assumption log names. Log entries 5 (DESIGN CHOICE, unsafe) and 6 (DEDUCED, safe). -/
def State.reset : State := {}

end Sys2Proof.Machine
end

