-- ==== Sys2Proof/Machine/Ops.lean ====
section
/-!
DEFINITION. The named operations every meaning is built from: choosing a landing, the passing of time, raising a fault,
posting event entries, host commands and their checks, and the reading of numbers laid out in bytes.
-/
namespace Sys2Proof.Machine

/-! ### Landings and roles -/

/-- Landing `x`. -/
def State.ld (s : State) : Side → Landing
  | .A => s.a
  | .B => s.b

/-- The state with landing `x` replaced. -/
def State.setLd (s : State) (x : Side) (l : Landing) : State :=
  match x with
  | .A => { s with a := l }
  | .B => { s with b := l }

/-- The state with landing `x` changed by `f`. -/
def State.modLd (s : State) (x : Side) (f : Landing → Landing) : State := s.setLd x (f (s.ld x))

/-- The role of landing `x` (10 R387). -/
def State.role (s : State) : Side → Role
  | .A => s.roleA
  | .B => s.roleB

/-- The state with the role of landing `x` set. -/
def State.setRole (s : State) (x : Side) (r : Role) : State :=
  match x with
  | .A => { s with roleA := r }
  | .B => { s with roleB := r }

/-- The role's code in `DKH_STATUS.ROLE` (01 R46). -/
def roleNum : Role → Nat
  | .none => 0
  | .active => 1
  | .standby => 2
  | .unsync => 3
  | .outOfService => 4
  | .quarantined => 5

/-- The landing in the ACTIVE role (01 R35). -/
def State.activeSide (s : State) : Option Side :=
  if s.roleA = .active then some .A else if s.roleB = .active then some .B else none

/-- The landing whose word counts where none is active yet: Landing A (02 R65, 16 R607). -/
def State.lead (s : State) : Side := s.activeSide.getD .A

/-- Roles have been assigned (stage S10, 11 R437). -/
def State.assigned (s : State) : Bool := s.activeSide.isSome

/-- A landing that takes host writes: ACTIVE, STANDBY or UNSYNCHRONISED (16 R606, R636). -/
def State.serves (s : State) (x : Side) : Bool :=
  s.role x = .active || s.role x = .standby || s.role x = .unsync

/-- The power domain of a landing is on (18 R685). -/
def State.powered (s : State) : Side → Bool
  | .A => s.sup.landA
  | .B => s.sup.landB

/-- A landing whose event rings are written: ACTIVE or STANDBY (16 R619). -/
def State.inStep (s : State) (x : Side) : Bool := s.role x = .active || s.role x = .standby

/-- `f` applied for Landing A and then for Landing B, to those that satisfy `c`. -/
def eachSide (c : Side → Bool) (f : Side → State → State) (s : State) : State :=
  let s := if c .A then f .A s else s
  if c .B then f .B s else s

/-! ### Time -/

/-- One nanosecond of module time (00 R21). -/
def nsUnit : Nat := 65536

/-- Module time in whole nanoseconds. -/
def State.nowNs (s : State) : Nat := s.now / nsUnit

/-- One RTC crystal period's worth of the phase counter (17 R652). -/
def rtcPeriod : Nat := 1000000000 * nsUnit

/-- The RTC counted on by `d` units of elapsed time: SUBSEC wraps at 32,768 into SECONDS, which wraps at 2^32
(17 R652); after a commit the prescaler waits for the next crystal edge (17 R655). -/
def rtcRun (d : Nat) (r : Rtc) : Rtc :=
  let ph := r.phase + (d * 32768 - r.hold)
  let sub := r.subsec + ph / rtcPeriod
  { r with hold := r.hold - d * 32768, phase := ph % rtcPeriod, subsec := sub % 32768, seconds := (r.seconds + sub / 32768) % 2 ^ 32 }

/-- Time moved on to module time `t` ns; an earlier instant moves nothing. Log entry 4 (DESIGN CHOICE, safe). -/
def advance (t : Nat) (s : State) : State :=
  let n := t * nsUnit
  if n ≤ s.now then s
  else
    let d := n - s.now
    { s with now := n, uptime := s.uptime.map (· + d), rtc := rtcRun d s.rtc }

/-- One second in module time units of 1 ns. -/
def secNs : Nat := 1000000000

/-- Leg of the running crossing, 0 to 7 (02 R58). -/
def State.legNow (s : State) : Nat :=
  if s.tick.period = 0 then 0 else min 7 ((s.now - s.tick.last) * 8 / (s.tick.period * nsUnit))

/-- The ticks of landing `x` (02 R60). -/
def State.grid (s : State) : Side → TickGrid
  | .A => s.tick.gridA
  | .B => s.tick.gridB

/-- Leg of the running crossing of landing `x` on its own ticks, 0 to 7 (02 R58, R60). -/
def State.ownLeg (s : State) (x : Side) : Nat :=
  let g := s.grid x
  if g.period = 0 then 0 else min 7 ((s.now - g.last) * 8 / (g.period * nsUnit))

/-- The running leg counted over the module's time. -/
def State.legCount (s : State) : Nat := s.tick.count * 8 + s.legNow

/-! ### Raising a fault -/

/-- The source's number in entries and records (16 R619): every code of unit 0x0C is reported as the cable die's. -/
def srcNum (src : Source) (code : Nat) : Nat :=
  if unitOf code = 0x0C then 2
  else match src with
    | .landing x => x.num
    | .cable => 2

/-- A bit set in a table of masks. -/
def setBitIn (t : Tab Nat) (u b : Nat) : Tab Nat :=
  let m := Tab.get 0 t u
  Tab.set 0 t u (if bitOf m b then m else m + 2 ^ b)

/-- The event register bit of the code (00 R28 and the event registers of the unit chapters). -/
def setEvent (src : Source) (code : Nat) (s : State) : State :=
  match eventBit code with
  | none => s
  | some (u, b) =>
    match src, decide (u = 0x0C) with
    | .landing x, false => s.modLd x (fun l => { l with events := setBitIn l.events u b })
    | _, _ => { s with events := setBitIn s.events u b }

/-- The bytes of a number, least significant first (00 R8). -/
def leBytes : Nat → Nat → List Byte
  | 0, _ => []
  | n + 1, v => BitVec.ofNat 8 v :: leBytes n (v / 256)

/-- The bytes a record takes in the logbook (17 R662): a 16-byte header and its payload. -/
def recBytes (r : LogRec) : Nat :=
  16 + (match r.own with
    | none => 8
    | some p => (p.length + 7) / 8 * 8)

/-- The bytes now in the write buffer (17 R664). -/
def bufferFill (b : List LogRec) : Nat := b.foldl (fun n r => n + recBytes r) 0

/-- The rank of a source within a leg: Landing A, Landing B, cable die (17 R664). -/
def srcRank (n : Nat) : Nat := if n = 3 then 0 else n

/-- The record put in its place: after every record of an earlier leg and every record of its leg of the same or an
earlier source (17 R664), and never before `LOG_START` (17 R666). -/
def placeRec (r : LogRec) : List LogRec → List LogRec
  | [] => [r]
  | q :: t => if q.leg = r.leg && srcRank r.src < srcRank q.src && q.code ≠ 0x1001 then r :: q :: t else q :: placeRec r t

/-- The same fault of the other landing in the same leg with equal detail makes one record with source 3 (17 R664);
none when there is no such record. -/
def mergeRec (r : LogRec) : List LogRec → Option (List LogRec)
  | [] => none
  | q :: t =>
    if q.code = r.code && q.leg = r.leg && q.detail = r.detail && q.src + r.src = 1 && q.own.isNone then
      some ({ q with src := 3 } :: t)
    else (mergeRec r t).map (q :: ·)

/-- A record put into the write buffer; one that finds it full is dropped and counted (17 R664, R665). -/
def logPut (r : LogRec) (s : State) : State :=
  match mergeRec r s.log.buffer with
  | some b => { s with log := { s.log with buffer := b } }
  | none =>
    if bufferFill s.log.buffer + recBytes r > 65536 then
      { s with log := { s.log with lostPending := s.log.lostPending + 1,
                                   lostCount := satAdd 0xFFFFFFFF s.log.lostCount 1 } }
    else { s with log := { s.log with buffer := placeRec r s.log.buffer } }

/-- The record of a fault now (17 R662). -/
def faultRec (src : Source) (code detail : Nat) (own : Option (List Byte)) (s : State) : LogRec :=
  { code := code, src := srcNum src code, seconds := s.rtc.seconds, subsec := s.rtc.subsec, rtcValid := s.rtc.valid,
    detail := detail % 2 ^ 32, leg := s.legCount, own := own }

/-- Partition `p`. -/
def State.part (s : State) (p : Nat) : Partition := Tab.get {} s.pur.parts p

/-- Partition `p` changed by `f`. -/
def State.modPart (s : State) (p : Nat) (f : Partition → Partition) : State :=
  { s with pur := { s.pur with parts := Tab.upd {} s.pur.parts p f } }

/-- An event entry put to wait for event queue `q` of partition `p` (16 R620). -/
def postEntry (p q : Nat) (e : EvEntry) (s : State) : State :=
  s.modPart p (fun t => { t with eq := Tab.upd {} t.eq q (fun w => { w with waiting := w.waiting ++ [e] }) })

/-- An entry posted to every partition subscribed to the unit (00 R28, 16 R621), partitions `p` upward. -/
def postSubscribed (u : Nat) (e : EvEntry) : Nat → Nat → State → State
  | 0, _, s => s
  | n + 1, p, s =>
    let t := s.part p
    let s := if bitOf t.subMask (u - 1) then postEntry p t.subQ e s else s
    postSubscribed u e n (p + 1) s

/-- The severity at or above CAUTION. -/
def Sev.posts : Sev → Bool
  | .note => false
  | _ => true

/-- The severity at or above ALARM. -/
def Sev.alarms : Sev → Bool
  | .note | .caution => false
  | _ => true

/-- The severity at or above SELF-ACCUSE. -/
def Sev.accuses : Sev → Bool
  | .accuse | .halt => true
  | _ => false

/-- The detecting landing declares itself faulty for the running leg (00 R28, R30); its report gives the first code (10 R393); a
HALT among the codes stops its manifest at the leg's end. Log entry 38 (DEDUCED, unsafe). -/
def accuse (x : Side) (code : Nat) (sev : Sev) (s : State) : State :=
  let g := s.legCount
  s.modLd x (fun l =>
    let old := l.accused.filter (fun e => g ≤ e.1 + 1)
    if old.any (fun e => e.1 = g) then
      { l with accused := old.map (fun e => if e.1 = g then (g, e.2.1, e.2.2 || decide (sev = .halt)) else e) }
    else { l with accused := old ++ [(g, code, decide (sev = .halt))] })

/-- The event entry of a fault from CAUTION up, to the subscribed partitions (00 R28, 16 R621). -/
def postEvent (src : Source) (code detail : Nat) (sev : Sev) (s : State) : State :=
  if sev.posts then
    postSubscribed (unitOf code)
      { typ := 2, stat := sevNum sev, op := code, source := srcNum src code, word := detail % 2 ^ 32, time := s.nowNs } 8 0 s
  else s

/-- The active alarm of a fault from ALARM up (00 R28). -/
def setAlarm (src : Source) (code : Nat) (sev : Sev) (s : State) : State :=
  if sev.alarms && !s.pur.alarms.contains code then
    { s with pur := { s.pur with alarms := s.pur.alarms ++ [code], alarmSrc := Tab.set 0 s.pur.alarmSrc code (srcNum src code) } }
  else s

/-- The self-accusation or halt of a landing's fault (00 R28). -/
def accuseFor (src : Source) (code : Nat) (sev : Sev) (s : State) : State :=
  match src, sev.accuses with
  | .landing x, true => accuse x code sev s
  | _, _ => s

/-- What a raising does beside its record (00 R28): its event bit, its event to subscribers from CAUTION up, its alarm
from ALARM up, its self-accusation or halt. Log entry 17 (DEDUCED, unsafe). -/
def react (src : Source) (code detail : Nat) (sev : Sev) (s : State) : State :=
  accuseFor src code sev (setAlarm src code sev (postEvent src code detail sev (setEvent src code s)))

/-- A fault raised (00 R26 to R31): its record and its reactions. `own` is the payload of the logbook's own records. -/
def raiseOwn (src : Source) (code detail : Nat) (own : Option (List Byte)) (s : State) : State :=
  match severityOf code with
  | none => s
  | some sev => react src code detail sev (logPut (faultRec src code detail own s) s)

/-- A fault raised with a detail. Log entry 17 (DEDUCED, unsafe). -/
def raise (src : Source) (code detail : Nat) (s : State) : State := raiseOwn src code detail none s

/-- The key of a limited raising: the code, who raises it, and what it is counted by. Log entry 18 (DEDUCED, safe). -/
def limitKey (src : Source) (code key : Nat) : Nat := (code * 4 + srcNum src code) * 65536 + key

/-- A fault raised at most once in `window` (an instant count `t` that only grows) for each key. Log entry 18 (DEDUCED, safe). -/
def raiseWithin (src : Source) (code detail key t window : Nat) (s : State) : State :=
  let k := limitKey src code key
  let last := Tab.get 0 s.lastRaised k
  if last ≠ 0 && t + 1 < last + window then s
  else raise src code detail { s with lastRaised := Tab.set 0 s.lastRaised k (t + 1) }

/-- "At most one per … per second". -/
def raisePerSecond (src : Source) (code detail key : Nat) (s : State) : State :=
  raiseWithin src code detail key s.nowNs secNs s

/-- "At most one per … per crossing" on landing `x`: one since its latest tick. -/
def raisePerCrossing (x : Side) (code detail key : Nat) (s : State) : State :=
  raiseWithin (.landing x) code detail key ((s.grid x).last / nsUnit) 1 s

/-! ### Status codes and host commands -/

/-- The command status codes (00 R22). -/
inductive Status where
  | done | accepted | state | range | auth | busy | format | unknown | integrity | stale | media | queueFull | peer
  | abandoned
deriving DecidableEq, Repr

/-- The status code's number (00 R22). -/
def Status.code : Status → Nat
  | .done => 0 | .accepted => 1 | .state => 2 | .range => 3 | .auth => 4 | .busy => 5 | .format => 6 | .unknown => 7
  | .integrity => 8 | .stale => 9 | .media => 10 | .queueFull => 11 | .peer => 12 | .abandoned => 13

/-- A completion entry for command `c` (16 R619, R620), with result data; `poison` flags a poisoned result word.
Log entry 14 (DESIGN CHOICE, unsafe). Log entry 16 (DEDUCED, unsafe). -/
def complete (c : Pend) (st : Status) (data : List Byte) (poison : Bool) (s : State) : State :=
  let s := postEntry c.part c.queue
    { typ := 1, stat := st.code, op := c.op, source := 2, flags := b2n poison, word := c.seq.toNat, time := s.nowNs,
      data := data } s
  if st = .accepted then s
  else s.modPart c.part (fun t =>
    { t with cq := Tab.upd {} t.cq c.queue (fun w => { w with outstanding := w.outstanding - 1 }) })

/-- The command a header and an opcode make. -/
def cmdOf (h : CmdHdr) (op : Nat) : Pend := { part := h.part, queue := h.queue, seq := h.seq, op := op }

/-- The sequence check of 16 R617: the first command of a queue passes; later, s − a modulo 2^32 lies from 1 to 2^31. -/
def fresh (h : CmdHdr) (s : State) : Bool :=
  match (Tab.get {} (s.part h.part).cq h.queue).lastSeq with
  | none => true
  | some a => let d := (h.seq - a).toNat; 1 ≤ d && d ≤ 2 ^ 31

/-- What a command's table asks, each already decided for its parameters: the format, the level needed, the range, the
modes, the state, the hold and the other landing (00 R23). -/
structure Asks where
  format : Bool := true
  level : Nat := 0
  integrity : Bool := true
  timely : Bool := true
  range : Bool := true
  modes : List Nat := [1, 2, 3, 4, 5]
  state : Bool := true
  free : Bool := true
  peer : Bool := true

/-- The first check that fails, in the order of 00 R23; none when the command passes. -/
def checkCommand (h : CmdHdr) (k : Asks) (s : State) : Option Status :=
  if !h.formed || h.descPart ≠ h.part || h.descQueue ≠ h.queue || h.part > 7 || h.queue > 3 || !k.format then
    some .format
  else if (s.part h.part).level < k.level then some .auth
  else if h.check = some false || !k.integrity then some .integrity
  else if !fresh h s || !k.timely then some .stale
  else if !k.range then some .range
  else if !k.modes.contains s.mode || !k.state then some .state
  else if !k.free then some .busy
  else if !k.peer then some .peer
  else none

/-- What passing every check leaves: the accepted sequence number (16 R617) and the instant of the partition's latest
passing command (16 R626). -/
def accept (h : CmdHdr) (s : State) : State :=
  s.modPart h.part (fun t =>
    { t with lastPass := s.nowNs, cq := Tab.upd {} t.cq h.queue (fun w => { w with lastSeq := some h.seq }) })

/-- A STATE response is logged (00 R22): a record whose code field is the opcode, with the sequence as its detail.
Log entry 15 (DEDUCED, unsafe). -/
def logState (c : Pend) (s : State) : State :=
  logPut { code := c.op, src := 2, seconds := s.rtc.seconds, subsec := s.rtc.subsec, rtcValid := s.rtc.valid,
           detail := c.seq.toNat, leg := s.legCount } s

/-- What a command that passed leaves and answers. -/
structure Answer where
  s : State
  st : Status := .done
  data : List Byte := []
  poison : Bool := false

/-- A host command (00 R22 to R24, 16 R618): time moves to its tick, the checks run in order; a command that fails is
completed with the status of its first failing check, after `onFail`; one that passes is accepted, carried out and
completed. Log entry 14 (DESIGN CHOICE, unsafe). -/
def hostCommandF (h : CmdHdr) (op : Nat) (asks : State → Asks) (eff : State → Answer) (onFail : Status → State → State)
    (s : State) : State :=
  let s := advance h.at_ s
  let c := cmdOf h op
  match checkCommand h (asks s) s with
  | some st => complete c st [] false (onFail st (if st = .state then logState c s else s))
  | none =>
    let r := eff (accept h s)
    complete c r.st r.data r.poison r.s

/-- A host command whose failing checks have no side effect (00 R23). -/
def hostCommand (h : CmdHdr) (op : Nat) (asks : State → Asks) (eff : State → Answer) (s : State) : State :=
  hostCommandF h op asks eff (fun _ s => s) s

/-- DONE in the state given. -/
def done (s : State) : Answer := { s := s }

/-! ### Holds (16 R625) -/

/-- The hold on resource `r`. -/
def State.hold (s : State) (r : Nat) : Option Hold := Tab.get none s.pur.holds r

/-- The hold on resource `r` set. -/
def State.setHold (s : State) (r : Nat) (h : Option Hold) : State :=
  { s with pur := { s.pur with holds := Tab.set none s.pur.holds r h } }

/-- The resource is free to partition `p`. -/
def freeTo (r p : Nat) (s : State) : Bool :=
  match s.hold r with
  | none => true
  | some h => h.part == p

/-- The hold taken by, or renewed for, partition `p` now. -/
def takeHold (r p : Nat) (s : State) : State := s.setHold r (some { part := p, last := s.nowNs })

/-! ### Numbers laid out in bytes (00 R8) -/

/-- `n` bytes from offset `o` of a byte table, little-endian; bytes not listed read 0. -/
def le (t : Tab Byte) : Nat → Nat → Nat
  | _, 0 => 0
  | o, n + 1 => (Tab.get 0 t o).toNat + 256 * le t (o + 1) n

/-- The number a byte list spells, least significant byte first. -/
def ofLe : List Byte → Nat
  | [] => 0
  | b :: t => b.toNat + 256 * ofLe t

/-- `n` bytes of a table from offset `o`, as a list. -/
def bytesAt (t : Tab Byte) : Nat → Nat → List Byte
  | _, 0 => []
  | o, n + 1 => Tab.get 0 t o :: bytesAt t (o + 1) n

/-- A byte list written into a table from offset `o`. -/
def putBytes (t : Tab Byte) : Nat → List Byte → Tab Byte
  | _, [] => t
  | o, b :: r => putBytes (Tab.set 0 t o b) (o + 1) r

/-- The signed value of the low `n` bits of a number. -/
def sval (n v : Nat) : Int :=
  let m := v % 2 ^ n
  if n ≠ 0 && 2 ^ (n - 1) ≤ m then (m : Int) - (2 ^ n : Nat) else (m : Int)

/-- The low `n` bits of an integer, two's complement. -/
def uval (n : Nat) (i : Int) : Nat := (i % ((2 ^ n : Nat) : Int)).toNat

/-- A write to a cable-die register by landing `x` takes effect: from the active landing, or from either before roles are first
assigned (01 R43). -/
def cableWriteOk (s : State) (x : Side) : Bool :=
  match s.activeSide with
  | some y => x = y
  | none => !s.arb.given

/-- A host access refused: nothing changes but the fault, at most once per partition per second (16 R611). -/
def hostRefused (p : Nat) (s : State) : State :=
  raisePerSecond .cable 0x0C01 p p { s with resp := { err := true } }

/-- `len` free bytes from the value numbered `n` on. -/
def freeBytes (n len : Nat) : List Byte := (List.range len).map (fun i => (Config.freeWord (n + i)).extractLsb' 0 8)

/-- A free value drawn: the next one of the state's counter. Log entry 10 (DESIGN CHOICE, safe). -/
def drawFree (s : State) : DWord × State := (Config.freeWord s.free, { s with free := s.free + 1 })

end Sys2Proof.Machine
end

