-- ==== Sys2Proof/Machine/Memory.lean ====
section
/-!
DEFINITION. A landing's memories (12 R449 to R465): the code, the class of a read, reads and writes of 64-bit words with
poison, narrow writes, the correctable-error bucket, remapped lines.
-/
namespace Sys2Proof.Machine

/-! ### The code (12 R449 to R451) -/

/-- Set bits of a byte. -/
def popcount8 (n : Nat) : Nat :=
  n % 2 + n / 2 % 2 + n / 4 % 2 + n / 8 % 2 + n / 16 % 2 + n / 32 % 2 + n / 64 % 2 + n / 128 % 2

/-- The columns of data bits 0 to 55: the 56 values of weight 3 in ascending order (12 R449). -/
def columns3 : List Nat := (List.range 256).filter (fun n => popcount8 n == 3)

/-- The columns of data bits 56 to 63: the eight smallest values of weight 5 (12 R449). -/
def columns5 : List Nat := [0x1F, 0x2F, 0x37, 0x3B, 0x3D, 0x3E, 0x4F, 0x57]

/-- The column of each stored bit: the 64 data bits, then check bits 0 to 7 (12 R449). -/
def columns : List Nat := columns3 ++ columns5 ++ [1, 2, 4, 8, 16, 32, 64, 128]

/-- The check bits of a word: the XOR of the columns of its set bits (12 R449). -/
def checkFrom (v : DWord) : List Nat → Nat → Byte
  | [], _ => 0
  | c :: t, i => (if v.getLsbD i then BitVec.ofNat 8 c else 0) ^^^ checkFrom v t (i + 1)

/-- The computed check value of a word (12 R449). -/
def checkBits (v : DWord) : Byte := checkFrom v (columns3 ++ columns5) 0

/-- The poison pattern (12 R450). -/
def poisonSyn : Byte := 0xFE

/-- The class of a read (12 R451). -/
inductive ReadClass where
  | clean
  | corrected (bit : Nat)
  | stored
  | uncorrectable
deriving DecidableEq, Repr

/-- The number of the stored bit whose column is `n`. -/
def columnBit (n : Nat) : List Nat → Nat → Option Nat
  | [], _ => none
  | c :: t, i => if c == n then some i else columnBit n t (i + 1)

/-- The first matching row of 12 R451 for a syndrome. -/
def classify (y : Byte) : ReadClass :=
  if y = 0 then .clean
  else match columnBit y.toNat columns 0 with
    | some b => .corrected b
    | none => if y = poisonSyn then .stored else .uncorrectable

/-- The value with stored bit `b` inverted; a check bit changes no data. -/
def fixBit (v : DWord) (b : Nat) : DWord := if b < 64 then v ^^^ BitVec.ofNat 64 (2 ^ b) else v

/-! ### Addresses -/

/-- Instruction stores and spare lines lie above the 32-bit map in this model. -/
def istoreBase (n : Nat) : Nat := 2 ^ 32 + n * 65536
def spareBase (k : Nat) : Nat := 2 ^ 33 + k * 64

/-- The kind of storage of an address (12 R464). -/
def memKind (a : Nat) : Nat :=
  if a < 0x08000000 then 0
  else if a < 0x10800000 then 1
  else if a < 0x20200000 then 3
  else if a < 0x28400000 then 2
  else if a < 2 ^ 32 then 5
  else if a < 2 ^ 33 then 4
  else 0

/-- A mapped memory of the address map that is not a register block, a flash window or OTP (01 R40). -/
def memMapped (a : Nat) : Bool :=
  a < 0x08000000 || (0x10000000 ≤ a && a < 0x10800000) || (0x20000000 ≤ a && a < 0x20200000)
    || (0x28000000 ≤ a && a < 0x28400000)

/-- The valid remap entry of the DRAM line of an address. -/
def remapOf (m : MemInt) (a : Nat) : Option RemapEntry :=
  if a < 0x08000000 then m.remap.find? (fun e => e.valid && e.line == some (a / 64 * 64)) else none

/-- Where an access to `a` goes: to the spare of a remapped line (12 R465). -/
def physical (m : MemInt) (a : Nat) : Nat :=
  match remapOf m a with
  | some e => spareBase e.spare + a % 64
  | none => a

/-! ### The canonical form -/

/-- The one form of a memory: strictly rising addresses, and no entry equal to what an unlisted address reads, 0.
Log entry 7 (DESIGN CHOICE, unsafe). -/
def Memory.wf (m : List Host.Cell) : Bool := Tab.wf 0 m

/-- The same of a flash, whose unlisted bytes read as erased, 0xFF. -/
def flashWf (m : List Host.Cell) : Bool := Tab.wf 0xFF m

/-- A landing's memories have their one form. Log entry 110 (DESIGN CHOICE, safe). -/
def Landing.memWf (l : Landing) : Bool := Memory.wf l.mem && Memory.wf l.syn && flashWf l.flash

/-! ### Raw words -/

/-- The 64-bit word at a word-aligned address. -/
def rawWord (m : List Host.Cell) (a : Nat) : DWord := BitVec.ofNat 64 (le m a 8)

/-- A word and its syndrome stored. -/
def rawPut (l : Landing) (a : Nat) (v : DWord) (y : Byte) : Landing :=
  { l with mem := putBytes l.mem a (leBytes 8 v.toNat), syn := Tab.set 0 l.syn (a / 8) y }

/-- The block of 256 bytes is marked if it has been sent in a resynchronisation (12 R473). -/
def markBlock (m : MemInt) (a : Nat) : MemInt :=
  let b := a / 256
  if m.marking && m.sent.contains b && !m.marks.contains b then { m with marks := m.marks ++ [b] } else m

/-- Every block of `n` bytes from `a` that has been sent is marked (12 R473). -/
def markRange (m : MemInt) (a n : Nat) : MemInt :=
  if m.marking then
    { m with marks := m.marks ++ m.sent.filter (fun b => a < 256 * b + 256 && 256 * b < a + n && !m.marks.contains b) }
  else m

/-- A word written at `a`, with the poison pattern when poisoned (12 R450), to the line's spare where it is remapped. -/
def ldWrite (l : Landing) (a : Nat) (w : Pw) : Landing :=
  let l := { l with memi := markBlock l.memi a }
  rawPut l (physical l.memi a) w.v (if w.p then poisonSyn else 0)

/-- A word written on landing `x` at the word-aligned address `a`. -/
def memWrite (x : Side) (a : Nat) (w : Pw) (s : State) : State := s.modLd x (fun l => ldWrite l a w)

/-! ### Counting (12 R462 to R464) -/

/-- One addition to the correctable-error bucket with its own threshold test (12 R462, R463). -/
def bucketAdd (x : Side) (s : State) : State :=
  let m := (s.ld x).memi
  let lev := satAdd 255 m.level 1
  if m.armed && m.threshold ≤ lev then
    raise (.landing x) 0x0902 lev
      (s.modLd x (fun l => { l with memi := { l.memi with level := lev, armed := false,
                                                          trips := (l.memi.trips + 1) % 65536 } }))
  else s.modLd x (fun l => { l with memi := { l.memi with level := lev } })

/-- `MEM_ERR_INFO` (12 R480). -/
def errInfo (y : Byte) (kind : Nat) (unc : Bool) : Nat := y.toNat + kind * 256 + b2n unc * 2048

/-- A DRAM line made a remap candidate, once (12 R466); a line that is served by a spare makes its spare the candidate,
with cause 5. -/
def addCandidate (m : MemInt) (line cause : Nat) : MemInt :=
  let p := physical m line
  let c := if p = line then (line, cause) else (p, 5)
  if m.candidates.any (fun d => d.1 == c.1) then m else { m with candidates := m.candidates ++ [c] }

/-- A corrected read or beat: counted, recorded, `MEM_CORRECTED`, one addition to the bucket (12 R462, R464). -/
def noteCorrected (x : Side) (kind a : Nat) (y : Byte) (s : State) : State :=
  let s := s.modLd x (fun l => { l with memi := { l.memi with
    corrected := Tab.upd 0 l.memi.corrected kind (fun n => satAdd 0xFFFF n 1),
    errAddr := a % 2 ^ 32, errInfo := errInfo y kind false } })
  bucketAdd x (raisePerSecond (.landing x) 0x0901 (a % 2 ^ 32) kind s)

/-- An uncorrectable read or beat: counted, recorded, and its fault; a DRAM line becomes a cause 1 candidate
(12 R451, R452, R464, R466). -/
def noteUncorrectable (x : Side) (kind a : Nat) (y : Byte) (s : State) : State :=
  let s := s.modLd x (fun l => { l with memi :=
    let m := { l.memi with
      uncorr := Tab.upd 0 l.memi.uncorr kind (fun n => satAdd 0xFFFF n 1),
      errAddr := a % 2 ^ 32, errInfo := errInfo y kind true }
    if kind = 0 && a < 0x08000000 then addCandidate m (a / 64 * 64) 1 else m })
  if kind = 6 then raise (.landing x) 0x090B (a % 2 ^ 32) s
  else raisePerSecond (.landing x) 0x0903 (a % 2 ^ 32) kind s

/-! ### Reads -/

/-- The word at the word-aligned address `a`, without its effects: the value the class of 12 R451 gives it. -/
def peekWord (l : Landing) (a : Nat) : Pw :=
  let pa := physical l.memi a
  let v := rawWord l.mem pa
  match classify (Tab.get 0 l.syn (pa / 8)) with
  | .clean => ⟨v, false⟩
  | .corrected b => ⟨fixBit v b, false⟩
  | .stored => ⟨v, true⟩
  | .uncorrectable => ⟨v, true⟩

/-- What a read of the word at `a` counts and raises; an engine's internal store is written back corrected in the same
access (12 R453). -/
def readEffects (x : Side) (a : Nat) (s : State) : State :=
  let l := s.ld x
  let pa := physical l.memi a
  let y := Tab.get 0 l.syn (pa / 8)
  match classify y with
  | .clean => s
  | .stored => s
  | .corrected b =>
    let s := noteCorrected x (memKind a) a y s
    if memKind a = 5 then s.modLd x (fun l => rawPut l pa (fixBit (rawWord l.mem pa) b) 0) else s
  | .uncorrectable => noteUncorrectable x (memKind a) a y s

/-- A read of the word at `a` on landing `x` (12 R451). Log entry 7 (DESIGN CHOICE, unsafe). -/
def memRead (x : Side) (a : Nat) (s : State) : Pw × State := (peekWord (s.ld x) a, readEffects x a s)

/-- Words read in ascending order from `a`. -/
def memReadN (x : Side) : Nat → Nat → State → List Pw × State
  | _, 0, s => ([], s)
  | a, n + 1, s =>
    let r := memRead x a s
    let t := memReadN x (a + 8) n r.2
    (r.1 :: t.1, t.2)

/-- Words written in ascending order from `a`. -/
def memWriteN (x : Side) : Nat → List Pw → State → State
  | _, [], s => s
  | a, w :: t, s => memWriteN x (a + 8) t (memWrite x a w s)

/-! ### Narrow writes (12 R460, R461) -/

/-- Byte `i` of a word replaced. -/
def setByte (v : DWord) (i : Nat) (b : Byte) : DWord :=
  (v &&& ~~~(BitVec.ofNat 64 (0xFF * 2 ^ (8 * i)))) ||| BitVec.ofNat 64 (b.toNat * 2 ^ (8 * i))

/-- The bytes merged into a word. -/
def mergeBytes (v : DWord) : List (Nat × Byte) → DWord
  | [] => v
  | (i, b) :: t => mergeBytes (setByte v i b) t

/-- Bytes merged into the word at `a`: read and classed, merged, and written back with its computed check bits or with
the poison pattern (12 R461). -/
def memMerge (x : Side) (a : Nat) (data : List (Nat × Byte)) (s : State) : State :=
  let r := memRead x a s
  memWrite x a ⟨mergeBytes r.1.v data, r.1.p⟩ r.2

/-- The bytes of a list that fall into the word at `w`, as (byte of the word, value). -/
def inWord (w a : Nat) : List Byte → List (Nat × Byte)
  | [] => []
  | b :: t => if a / 8 * 8 = w then (a - w, b) :: inWord w (a + 1) t else inWord w (a + 1) t

/-- Bytes written from `a`, word by word: a whole word is stored, a part of one merged. `n` bounds the words. -/
def memBytes (x : Side) : Nat → Nat → List Byte → State → State
  | 0, _, _, s => s
  | n + 1, a, data, s =>
    if data.isEmpty then s
    else
      let w := a / 8 * 8
      let k := w + 8 - a
      let now := data.take k
      let s := if now.length = 8 then memWrite x w ⟨BitVec.ofNat 64 (ofLe now), false⟩ s
        else memMerge x w (inWord w a now) s
      memBytes x n (w + 8) (data.drop k) s

/-- Bytes written from `a` on landing `x`. -/
def memPut (x : Side) (a : Nat) (data : List Byte) (s : State) : State := memBytes x (data.length / 8 + 2) a data s

/-- The byte at `a` as a read gives it. -/
def peekByte (l : Landing) (a : Nat) : Byte := (peekWord l (a / 8 * 8)).v.extractLsb' (8 * (a % 8)) 8

/-- `n` bytes from `a` as reads give them. -/
def peekBytes (l : Landing) : Nat → Nat → List Byte
  | _, 0 => []
  | a, n + 1 => peekByte l a :: peekBytes l (a + 1) n

/-- The number that `n` bytes from `a` spell, little-endian. -/
def peekLe (l : Landing) (a n : Nat) : Nat := ofLe (peekBytes l a n)

/-- The 32-bit word at `a`. -/
def peek32 (l : Landing) (a : Nat) : Word := BitVec.ofNat 32 (peekLe l a 4)

/-- Some word of the range is poisoned. -/
def anyPoison (l : Landing) (a : Nat) : Nat → Bool
  | 0 => false
  | n + 1 => (peekWord l a).p || anyPoison l (a + 8) n

/-! ### Flash -/

/-- Address `a` lies in a firmware copy that holds what the factory installed, as it has not been erased (00 R32, 11 R429).
Log entry 146 (DESIGN CHOICE, safe). -/
def factoryAt (l : Landing) (a : Nat) : Bool :=
  0x63000000 ≤ a && a < 0x63800000 && !l.fwErased.contains (if a < 0x63400000 then 2 else 3)

/-- A flash byte: what was programmed, else the factory's firmware, else 0xFF as an erased byte reads (00 R32, 11 R429). -/
def flashByte (l : Landing) (a : Nat) : Byte :=
  Tab.get (if factoryAt l a then Config.firmwareByte (a % 0x400000) else 0xFF) l.flash a

/-- `n` flash bytes from window address `a`. -/
def flashBytes (l : Landing) : Nat → Nat → List Byte
  | _, 0 => []
  | a, n + 1 => flashByte l a :: flashBytes l (a + 1) n

/-- Flash bytes programmed from window address `a`. -/
def flashPut (f : List Host.Cell) : Nat → List Byte → List Host.Cell
  | _, [] => f
  | a, b :: t => flashPut (Tab.set 0xFF f a b) (a + 1) t

/-- A flash range erased. -/
def flashErase (f : List Host.Cell) (a n : Nat) : List Host.Cell := f.filter (fun c => c.1 < a || a + n ≤ c.1)

end Sys2Proof.Machine
end

