-- ==== Sys2Proof/Machine/Manifest.lean ====
section
/-!
DEFINITION. Reading a manifest image (02 R91 to R94, R714 to R722): the header, the directory and the records of its
sections, by offset in the image.
-/
namespace Sys2Proof.Machine

/-- A section of an image: type, offset, length, CRC, and the offset of its directory entry (02 R93). -/
structure Section where
  typ : Nat := 0
  flags : Nat := 0
  off : Nat := 0
  len : Nat := 0
  crc : Nat := 0
  ent : Nat := 0
deriving DecidableEq, Repr

/-- Directory entry `i` (02 R93). -/
def dirEntry (m : Tab Byte) (i : Nat) : Section :=
  let o := 0x40 + 16 * i
  { typ := le m o 2, flags := le m (o + 2) 2, off := le m (o + 4) 4, len := le m (o + 8) 4, crc := le m (o + 12) 4,
    ent := o }

/-- The directory (02 R92, R93). -/
def directory (m : Tab Byte) : List Section := (List.range (le m 0x1C 2)).map (dirEntry m)

/-- The section of a type. -/
def sectionOf (m : Tab Byte) (typ : Nat) : Option Section := (directory m).find? (fun d => d.typ == typ)

/-- Header fields (02 R92). -/
def imgTrim (m : Tab Byte) : Nat := le m 0x0C 1
def imgPeriod (m : Tab Byte) : Nat := le m 0x0D 1
def imgCycle (m : Tab Byte) : Nat := le m 0x0E 2

/-- The crossing period in ns of a period code (01 R52). -/
def periodNs (code : Nat) : Nat := 125000 * 2 ^ code

/-- Core cycles in a crossing of a period code (02 R58). -/
def periodCycles (code : Nat) : Nat := 100000 * 2 ^ code

/-- The last claimable slot of a period code (02 R77). -/
def lastSlot (code : Nat) : Nat :=
  match code with
  | 0 => 2967
  | 1 => 5936
  | _ => 11874

/-- Crossings in a fusion epoch of 10 ms (01, one crossing). Log entry 54 (DEDUCED, unsafe). -/
def epochCrossings (code : Nat) : Nat := 80 / 2 ^ code

/-- The pattern of a crossing index (02 R71). -/
def cyclePattern (m : Tab Byte) (i : Nat) : Nat :=
  match sectionOf m 0x0002 with
  | some c => le m (c.off + i) 1
  | none => 0

/-- The list of pattern `p` in a section framed as 02 R715: offset in the image and count. -/
def patternList (m : Tab Byte) (c : Section) (p : Nat) : Nat × Nat :=
  (c.off + le m (c.off + 8 + 8 * p) 4, le m (c.off + 12 + 8 * p) 4)

/-- A dispatch entry (02 R94). -/
structure DispatchEnt where
  cycle : Nat := 0
  unit : Nat := 0
  op : Nat := 0
  job : Nat := 0
deriving DecidableEq, Repr

/-- The dispatch entry at an offset. -/
def dispatchAt (m : Tab Byte) (o : Nat) : DispatchEnt :=
  { cycle := le m o 4, unit := le m (o + 4) 1, op := le m (o + 5) 1, job := le m (o + 6) 2 }

/-- The dispatch entries of pattern `p` (02 R715). -/
def dispatches (m : Tab Byte) (p : Nat) : List DispatchEnt :=
  match sectionOf m 0x0001 with
  | some c => let l := patternList m c p; (List.range l.2).map (fun i => dispatchAt m (l.1 + 8 * i))
  | none => []

/-- A slot claim (02 R94). -/
structure Claim where
  slot : Nat := 0
  lane : Nat := 0
  beats : Nat := 0
  src : Nat := 0
  dst : Nat := 0
  flags : Nat := 0
  from_ : Nat := 0
  to_ : Nat := 0
deriving DecidableEq, Repr

/-- The slot claim at an offset. -/
def claimAt (m : Tab Byte) (o : Nat) : Claim :=
  { slot := le m o 2, lane := le m (o + 2) 1, beats := le m (o + 3) 1, src := le m (o + 4) 1, dst := le m (o + 5) 1,
    flags := le m (o + 6) 2, from_ := le m (o + 8) 4, to_ := le m (o + 12) 4 }

/-- The slot claims of pattern `p` (02 R716). -/
def claims (m : Tab Byte) (p : Nat) : List Claim :=
  match sectionOf m 0x0003 with
  | some c => let l := patternList m c p; (List.range l.2).map (fun i => claimAt m (l.1 + 16 * i))
  | none => []

/-- A berth declaration (02 R718). -/
structure BerthDecl where
  addr : Nat := 0
  size : Nat := 0
  double : Bool := false
  producer : Nat := 0
  voyage : Nat := 0xFFFF
  period : Nat := 1
  phase : Nat := 0
  map : Nat := 0
deriving DecidableEq, Repr

/-- The berth declaration at an offset. -/
def berthAt (m : Tab Byte) (o : Nat) : BerthDecl :=
  { addr := le m o 4, size := le m (o + 4) 4, double := le m (o + 8) 1 == 2, producer := le m (o + 9) 1,
    voyage := le m (o + 10) 2, period := le m (o + 12) 2, phase := le m (o + 14) 2, map := le m (o + 16) 4 }

/-- The berths (02 R718). -/
def berths (m : Tab Byte) : List BerthDecl :=
  match sectionOf m 0x0006 with
  | some c => (List.range (le m c.off 2)).map (fun i => berthAt m (c.off + 8 + 32 * i))
  | none => []

/-- A voyage (02 R719). -/
structure Voyage where
  unit : Nat := 0
  a : Nat := 0
  q : Nat := 1
  d : Nat := 1
  berth : Nat := 0
deriving DecidableEq, Repr

/-- The voyages (02 R719). -/
def voyages (m : Tab Byte) : List Voyage :=
  match sectionOf m 0x0007 with
  | some c => (List.range (le m c.off 2)).map (fun i =>
      let o := c.off + 8 + 16 * i
      { unit := le m o 1, a := le m (o + 2) 2, q := le m (o + 4) 2, d := le m (o + 6) 2, berth := le m (o + 8) 2 })
  | none => []

/-- The `INIT_DATA` records (02 R722) as (address, length, image offset of the data); `n` bounds the walk from offset `o`. -/
def initFrom (m : Tab Byte) : Nat → Nat → List (Nat × Nat × Nat)
  | 0, _ => []
  | n + 1, o =>
    let len := le m (o + 4) 4
    (le m o 4, len, o + 8) :: initFrom m n (o + 8 + (len + 7) / 8 * 8)

/-- The `INIT_DATA` records of an image. -/
def initRecords (m : Tab Byte) : List (Nat × Nat × Nat) :=
  match sectionOf m 0x000C with
  | some c => initFrom m (le m c.off 4) (c.off + 8)
  | none => []

/-- The number that `n` bytes from address `a` hold after `INIT_DATA` is written over zeros. -/
def initLe (m : Tab Byte) (a n : Nat) : Nat :=
  match (initRecords m).find? (fun r => r.1 ≤ a && a + n ≤ r.1 + r.2.1) with
  | some r => le m (r.2.2 + (a - r.1)) n
  | none => 0

/-- The Deckhand windows (02 R721): address, length, direct-write. -/
def windows (m : Tab Byte) : List (Nat × Nat × Bool) :=
  match sectionOf m 0x000B with
  | some c => (List.range (le m c.off 2)).map (fun i =>
      let o := c.off + 8 + 16 * i
      (le m o 4, le m (o + 4) 4, bitOf (le m (o + 8) 1) 0))
  | none => []

/-- The admission berth: address of the front buffer, size of one buffer (02 R94, R713). -/
def admission (m : Tab Byte) : Nat × Nat :=
  match sectionOf m 0x000D with
  | some c => (le m c.off 4, le m (c.off + 4) 4)
  | none => (0, 0)

/-- The part of an engine in `ENGINE_JOBS`: its offset in the image and its length (02 R717). -/
def enginePart (m : Tab Byte) (unit : Nat) : Option (Nat × Nat) :=
  match sectionOf m 0x0005 with
  | some c =>
    ((List.range (le m c.off 2)).map (fun i => c.off + 8 + 16 * i)).findSome?
      (fun o => if le m o 1 = unit then some (c.off + le m (o + 4) 4, le m (o + 8) 4) else none)
  | none => none

/-- The offset of an engine's part; where the manifest has none, an offset past every image, at which all bytes read 0. -/
def partOff (m : Tab Byte) (unit : Nat) : Nat := (enginePart m unit).elim (2 ^ 32) (fun p => p.1)

/-- The end of the apron memory the manifest uses: its berths and its admission berth (02 R713, R718). -/
def apronUseEnd (m : Tab Byte) : Nat :=
  let a := admission m
  (berths m).foldl (fun n b => max n (b.addr + b.size * (if b.double then 2 else 1))) (a.1 + 2 * a.2)

/-- An address range lies in a direct-write window. -/
def inDirectWindow (m : Tab Byte) (a n : Nat) : Bool :=
  (windows m).any (fun w => w.2.2 && w.1 ≤ a && a + n ≤ w.1 + w.2.1)

/-- The pattern count of `PATTERNS` (02 R715). -/
def patternCount (m : Tab Byte) : Nat := (sectionOf m 0x0001).elim 0 (fun c => le m c.off 2)

/-- The carried ranges of a manifest (10 R395). -/
def carried (m : Tab Byte) : List (Nat × Nat) :=
  match sectionOf m 0x0009 with
  | some c => let k := le m c.off 2
    (List.range (le m (c.off + 2) 2)).map (fun i => let o := c.off + 16 + 48 * k + 16 * i; (le m o 4, le m (o + 4) 4))
  | none => []

/-- Two ranges of positive length overlap. -/
def overlap (a b : Nat × Nat) : Bool := a.2 ≠ 0 && b.2 ≠ 0 && a.1 < b.1 + b.2 && b.1 < a.1 + a.2

/-- A pair record of `DEPENDENCIES`: its offset, the references as (kind, pattern, index), the crossing distance, the claims. -/
structure DepPair where
  off : Nat := 0
  prod : Nat × Nat × Nat := (0, 0, 0)
  cons : Nat × Nat × Nat := (0, 0, 0)
  dist : Nat := 0
  n : Nat := 0
  refs : List (Nat × Nat × Nat) := []
deriving DecidableEq, Repr

/-- A reference at an offset (02 R720). -/
def refAt (m : Tab Byte) (o : Nat) : Nat × Nat × Nat := (le m o 1, le m (o + 1) 1, le m (o + 2) 2)

/-- The pair record at an offset. -/
def pairAt (m : Tab Byte) (o : Nat) : DepPair :=
  let n := le m (o + 10) 2
  { off := o, prod := refAt m o, cons := refAt m (o + 4), dist := le m (o + 8) 2, n := n,
    refs := (List.range (min n 64)).map (fun i => refAt m (o + 16 + 4 * i)) }

/-- `n` pair records from an offset, up to the end of the section. -/
def pairsFrom (m : Tab Byte) (last : Nat) : Nat → Nat → List DepPair
  | 0, _ => []
  | n + 1, o =>
    if last < o + 16 then [{ off := o, n := 65 }]
    else let q := pairAt m o; q :: pairsFrom m last n (o + 16 + (4 * q.n + 7) / 8 * 8)

/-- The pair records of an image (02 R720). -/
def depPairs (m : Tab Byte) : List DepPair :=
  match sectionOf m 0x0008 with
  | some c => pairsFrom m (c.off + c.len) (le m c.off 4) (c.off + 8)
  | none => []

/-- The bytes a berth takes. -/
def berthSpan (b : BerthDecl) : Nat × Nat := (b.addr, b.size * (if b.double then 2 else 1))

/-- The ranges of DRAM that a manifest owns: those that its claims move data from or to, its initial data and its carried ranges (01 R37,
10 R395). Log entry 24 (DESIGN CHOICE, unsafe). -/
def dramOwned (m : Tab Byte) : List (Nat × Nat) :=
  ((List.range (patternCount m)).flatMap (fun p => (claims m p).flatMap (fun (c : Claim) => [(c.from_, 8 * c.beats), (c.to_, 8 * c.beats)]))
    ++ (initRecords m).map (fun r => (r.1, r.2.1)) ++ carried m).filter (fun (r : Nat × Nat) => decide (r.1 < 0x08000000))

/-- An address range lies in a Deckhand window of either kind. -/
def inWindow (m : Tab Byte) (a n : Nat) : Bool := (windows m).any (fun w => w.1 ≤ a && a + n ≤ w.1 + w.2.1)

end Sys2Proof.Machine
end

