-- ==== Sys2Proof/Machine/Ferryman.lean ====
section
/-!
DEFINITION. Input agreement, the admission list, the berths and the Ferryman's checks (chapter 02).
-/
namespace Sys2Proof.Machine

/-! ### Arrival records (02 R62 to R64) -/

/-- A record taken at the cable die. A Deckhand write is posted by the active landing's Deckhand core, or by Landing A's
before roles are assigned (02 R68); classes 1 and 2 are sampled at the cut-off (R63). -/
def takeRecord (x : Option Side) (cls port stamp : Nat) (content : List Byte) (s : State) : State :=
  if cls < 3 || 7 < cls || (cls = 3 && x ≠ some s.lead) then s
  else
    let from_ := x.elim 2 Side.num
    { s with agree := { s.agree with
      waiting := s.agree.waiting ++ [{ cls := cls, port := port, stamp := stamp, from_ := from_, content := content,
                                       order := s.agree.nextOrder }],
      nextOrder := s.agree.nextOrder + 1 } }

/-- ARRIVAL_RECORD (02 R62). -/
def execArrivalRecord (at_ : Nat) (x : Option Side) (cls port stamp : Nat) (content : List Byte) (s : State) :
    Host.Outcome State Fault Refusal :=
  .next (takeRecord x cls port stamp content (advance at_ s))

/-! ### The cut-off (02 R64 to R66) -/

/-- A record that has waited one cut-off of list `k`. -/
def Arrival.waitedIn (r : Arrival) (k : Nat) : Bool := if k = 0 then r.w0 else r.w1

/-- A record marked as waiting in the lists of `ks`. -/
def Arrival.setWaited (r : Arrival) (ks : List Nat) : Arrival :=
  { r with w0 := r.w0 || ks.contains 0, w1 := r.w1 || ks.contains 1 }

/-- An agreed input already admitted by list `k`. -/
def Agreed.doneIn (e : Agreed) (k : Nat) : Bool := if k = 0 then e.d0 else e.d1

/-- An agreed input marked as admitted by the lists of `ks`. -/
def Agreed.setDone (e : Agreed) (ks : List Nat) : Agreed := { e with d0 := e.d0 || ks.contains 0, d1 := e.d1 || ks.contains 1 }

/-- A paired class (02 R63). -/
def pairedClass (c : Nat) : Bool := 5 ≤ c && c ≤ 7

/-- A landing whose records are not waited for (02 R65). -/
def notPairing (s : State) (x : Side) : Bool :=
  !s.powered x || match s.role x with
    | .unsync | .outOfService | .quarantined => true
    | .none => s.assigned
    | _ => false

/-- The earliest waiting record of a class and port from one landing. -/
def earliest (cls port from_ : Nat) (rs : List Arrival) : Option Arrival :=
  (rs.filter (fun r => r.cls == cls && r.port == port && r.from_ == from_)).foldl
    (fun b r => match b with
      | none => some r
      | some q => if r.stamp < q.stamp || (r.stamp = q.stamp && r.order < q.order) then some r else some q) none

/-- The pair of two records: the smaller stamp, the later arrival, the active landing's content, `DIFFER` where the contents
differ (02 R64 to R66). Log entry 37 (DEDUCED, unsafe). -/
def pairOf (lead : Side) (ra rb : Arrival) : Ready :=
  let c := if lead = .A then ra.content else rb.content
  { cls := ra.cls, port := ra.port, stamp := min ra.stamp rb.stamp, content := c, order := max ra.order rb.order,
    flags := if ra.content = rb.content then 0 else 1 }

/-- Records that wait no longer, and the input they make, agreed for both lists (02 R61, R64). -/
def settleInput (orders : List Nat) (r : Ready) (s : State) : State :=
  { s with agree := { s.agree with
    waiting := s.agree.waiting.filter (fun q => !orders.contains q.order), inputs := s.agree.inputs ++ [{ input := r }] } }

/-- The pairs of one class and port taken (02 R64): at most `n`, those with an agreed stamp before the cut-off. -/
def takePairs (cut cls port : Nat) : Nat → State → State
  | 0, s => s
  | n + 1, s =>
    match earliest cls port 0 s.agree.waiting, earliest cls port 1 s.agree.waiting with
    | some ra, some rb =>
      if ra.stamp ≤ rb.stamp + 2000 && rb.stamp ≤ ra.stamp + 2000 && min ra.stamp rb.stamp < cut then
        let p := pairOf s.lead ra rb
        let s := settleInput [ra.order, rb.order] p s
        takePairs cut cls port n (if p.flags = 1 then raise (.landing s.lead.other) 0x0151 (cls * 256 + port) s else s)
      else s
    | _, _ => s

/-- A record taken alone, with the flags given. -/
def aloneOf (r : Arrival) (flags : Nat) : Ready :=
  { cls := r.cls, port := r.port, stamp := r.stamp, content := r.content, order := r.order, flags := flags }

/-- The records left after pairing (02 R64, R65), in turn: an unpaired class is taken, a paired class is taken at once while the other
landing takes no part, after one wait with `SINGLE`, and waits otherwise; a record taken alone lets the next of its class and port pair.
Log entry 37 (DEDUCED, unsafe). -/
def takeRest (k : Nat) (ks : List Nat) (cut : Nat) : List Arrival → State → State
  | [], s => s
  | r :: t, s =>
    if cut ≤ r.stamp || !s.agree.waiting.any (fun q => q.order = r.order) then takeRest k ks cut t s
    else
      let other := if r.from_ = 0 then Side.B else Side.A
      let again := fun (s : State) => takePairs cut r.cls r.port s.agree.waiting.length s
      if !pairedClass r.cls then takeRest k ks cut t (settleInput [r.order] (aloneOf r 0) s)
      else if notPairing s other then takeRest k ks cut t (again (settleInput [r.order] (aloneOf r 0) s))
      else if r.waitedIn k then
        takeRest k ks cut t (again (raise (.landing other) 0x0150 (r.cls * 256 + r.port) (settleInput [r.order] (aloneOf r 2) s)))
      else
        let w := s.agree.waiting.map (fun q => if q.order = r.order then q.setWaited ks else q)
        takeRest k ks cut t { s with agree := { s.agree with waiting := w } }

/-- The class and port pairs of the waiting records of the paired classes. -/
def pairKeys (rs : List Arrival) : List (Nat × Nat) :=
  ((rs.filter (fun r => pairedClass r.cls)).map (fun r => (r.cls, r.port))).eraseDups

/-- Every class and port paired. -/
def pairAll (cut : Nat) : List (Nat × Nat) → State → State
  | [], s => s
  | c :: t, s => pairAll cut t (takePairs cut c.1 c.2 s.agree.waiting.length s)

/-- The admission order (02 R66): class, port, agreed stamp, arrival. -/
def before (a b : Ready) : Bool :=
  a.cls < b.cls || (a.cls = b.cls && (a.port < b.port || (a.port = b.port &&
    (a.stamp < b.stamp || (a.stamp = b.stamp && a.order < b.order)))))

/-- An entry put in its place in the admission order. -/
def putReady (r : Ready) : List Ready → List Ready
  | [] => [r]
  | q :: t => if before r q then r :: q :: t else q :: putReady r t

/-- A list in the admission order. -/
def sortReady : List Ready → List Ready
  | [] => []
  | r :: t => putReady r (sortReady t)

/-- The bytes an entry's content takes: content offsets are multiples of 8 (02 R68). -/
def contentSize (r : Ready) : Nat := (r.content.length + 7) / 8 * 8

/-- The entries admitted in order up to the first that does not fit, and the rest (02 R66). -/
def fitReady (maxBytes : Nat) : List Ready → Nat → Nat → List Ready × List Ready
  | [], _, _ => ([], [])
  | r :: t, n, b =>
    if n < 256 && b + contentSize r ≤ maxBytes then
      let p := fitReady maxBytes t (n + 1) (b + contentSize r)
      (r :: p.1, p.2)
    else ([], r :: t)

/-- The content limit of a crossing period code (02 R66). -/
def contentLimit (code : Nat) : Nat := 16384 * 2 ^ code

/-- The landings a list serves. -/
def listSides (dst : TickTo) : List Side :=
  match dst with
  | .both => [.A, .B]
  | .one x => [x]

/-- The list that a cut-off builds: a landing's own, or the leading landing's for both (02 R61). -/
def listNum (s : State) (dst : TickTo) : Nat :=
  match dst with
  | .both => s.lead.num
  | .one x => x.num

/-- The landing whose manifest sets a list's capacity (02 R61, R66). -/
def listSide (s : State) (dst : TickTo) : Side :=
  match dst with
  | .both => s.lead
  | .one x => x

/-- The period code of the crossing that a list of landing `x` is for: its manifest's, one that starts at the coming tick included, or the
running tick's. -/
def listPeriod (s : State) (x : Side) : Nat :=
  let f := (s.ld x).fmn
  if f.startAt = some (f.crossing + 1) then imgPeriod (f.next.getD f.img)
  else if f.loaded then imgPeriod f.img
  else if (s.grid x).period = 500000 then 2 else if (s.grid x).period = 250000 then 1 else 0

/-- The deferral counted and reported on one landing (02 R66, R97, R104). -/
def noteDeferred (x : Side) (fresh all : Nat) (s : State) : State :=
  let s := s.modLd x (fun l => { l with fmn := { l.fmn with deferred := satAdd 0xFFFFFFFF l.fmn.deferred fresh } })
  if 0 < all then raisePerCrossing x 0x0152 all 0 s else s

/-- The cut-off at module time `cut` ns (02 R61, R65, R66): classes 1 and 2 sampled, records paired or waiting, the list closed, the rest
deferred. -/
def cutoff (dst : TickTo) (cut : Nat) (snapshot bollard : List Byte) (s : State) : State :=
  let k := listNum s dst
  let ks := if dst = .both then [0, 1] else [k]
  let s := takeRest k ks cut s.agree.waiting (pairAll cut (pairKeys s.agree.waiting) s)
  let now := s.agree.inputs.filter (fun e => !e.doneIn k && e.input.stamp < cut)
  let one := { cls := 1, stamp := cut, content := snapshot, order := s.agree.nextOrder : Ready }
  let two := { cls := 2, stamp := cut, content := bollard, order := s.agree.nextOrder + 1 : Ready }
  let all := one :: two :: sortReady (Tab.get [] s.agree.ready k ++ now.map (·.input))
  let f := fitReady (contentLimit (listPeriod s (listSide s dst))) all 0 0
  let fresh := (f.2.filter (fun r => r.flags < 4)).length
  let late := f.2.map (fun r => if r.flags < 4 then { r with flags := r.flags + 4 } else r)
  let s := { s with agree := { s.agree with
    inputs := (s.agree.inputs.map (fun e => if e.doneIn k || e.input.stamp < cut then e.setDone ks else e)).filter
      (fun e => !(e.d0 && e.d1)),
    ready := ks.foldl (fun t k => Tab.set [] t k late) s.agree.ready,
    closed := ks.foldl (fun t k => Tab.set [] t k f.1) s.agree.closed,
    nextOrder := s.agree.nextOrder + 2 } }
  (listSides dst).foldl (fun s x => noteDeferred x fresh f.2.length s) s

/-! ### The admission berth (02 R67, R68, R713) -/

/-- Entries numbered per class and port (02 R68). -/
def numberEntries : List Ready → Tab Nat → List AdmEntry × Tab Nat
  | [], t => ([], t)
  | r :: rs, t =>
    let key := r.cls * 256 + r.port
    let n := Tab.get 0 t key
    let p := numberEntries rs (Tab.set 0 t key ((n + 1) % 2 ^ 32))
    ({ cls := r.cls, port := r.port, flags := r.flags, stamp := r.stamp, seq := n, content := r.content } :: p.1, p.2)

/-- The 24 bytes of an entry whose content lies at offset `o` (02 R68). -/
def admBytes (e : AdmEntry) (o : Nat) : List Byte :=
  leBytes 1 e.cls ++ leBytes 1 e.port ++ leBytes 2 e.flags ++ leBytes 4 e.content.length ++ leBytes 8 e.stamp
    ++ leBytes 4 o ++ leBytes 4 e.seq

/-- Entries and contents laid out (02 R713). -/
def admLayout (base : Nat) : List AdmEntry → Nat → Nat → List (Nat × List Byte)
  | [], _, _ => []
  | e :: t, i, o =>
    (base + 0x10 + 24 * i, admBytes e o) :: (base + o, e.content) ::
      admLayout base t (i + 1) (o + (e.content.length + 7) / 8 * 8)

/-- Cells of `[a, a + n)` and `[a + n, a + 2n)` exchanged. -/
def swapCells (m : List Host.Cell) (a n : Nat) : List Host.Cell :=
  m.filter (fun c => c.1 < a)
    ++ (m.filter (fun c => a + n ≤ c.1 && c.1 < a + 2 * n)).map (fun c => (c.1 - n, c.2))
    ++ (m.filter (fun c => a ≤ c.1 && c.1 < a + n)).map (fun c => (c.1 + n, c.2))
    ++ m.filter (fun c => a + 2 * n ≤ c.1)

/-- Two buffers of `n` bytes (a multiple of 8) exchanged inside the apron, with their syndromes (02 R718). -/
def swapBuffers (l : Landing) (a n : Nat) : Landing :=
  { l with mem := swapCells l.mem a n, syn := swapCells l.syn (a / 8) (n / 8) }

/-- A range cleared to clean zeros. -/
def clearRange (l : Landing) (a n : Nat) : Landing :=
  { l with mem := l.mem.filter (fun c => c.1 < a || a + n ≤ c.1),
           syn := l.syn.filter (fun c => c.1 < a / 8 || (a + n) / 8 ≤ c.1) }

/-- Byte lists written at their addresses, whole words with good check bits. -/
def putAll (l : Landing) (ps : List (Nat × List Byte)) : Landing :=
  ps.foldl (fun l p => { l with
    mem := putBytes l.mem p.1 p.2, syn := l.syn.filter (fun c => c.1 < p.1 / 8 || (p.1 + p.2.length) / 8 ≤ c.1) }) l

/-- A berth word (02 R69). -/
def berthWord (count stat : Nat) : List Byte := leBytes 4 count ++ leBytes 1 stat ++ leBytes 3 0

/-- The crossing's list admitted on landing `x`: the back buffer written, the buffers swapped, the registers updated
(02 R67, R103, R713). -/
def admitList (x : Side) (k : Nat) (s : State) : State :=
  let list := Tab.get [] s.agree.closed k
  s.modLd x (fun l =>
    let p := numberEntries list l.fmn.seqs
    let beats := list.foldl (fun n r => n + contentSize r / 8) 0
    let f := { l.fmn with admitted := p.1, seqs := p.2, entries := list.length, beats := beats }
    let l := { l with fmn := f }
    let b := admission f.img
    if f.loaded && b.2 ≠ 0 then
      let back := b.1 + b.2
      let l := clearRange l back b.2
      let l := putAll l ((back, berthWord f.crossing 0 ++ leBytes 2 list.length ++ leBytes 6 0)
        :: admLayout back p.1 0 0x1810)
      swapBuffers { l with memi := markRange l.memi b.1 (2 * b.2) } b.1 b.2
    else l)

/-! ### Berth swaps (02 R69, R70, R718) -/

/-- Crossing index `i` is a swap tick of the berth. -/
def swapTick (b : BerthDecl) (i : Nat) : Bool := b.period ≠ 0 && i % b.period == b.phase

/-- The berth is published at the swap tick of index `i` (02 R718). -/
def publishedAt (img : Tab Byte) (b : BerthDecl) (i : Nat) : Bool :=
  b.map = 0 || match sectionOf img 0x0006 with
    | some c => let k := (i - b.phase) / b.period; bitOf (le img (c.off + b.map + k / 8) 1) (k % 8)
    | none => true

/-- The status of a berth word rewritten, its crossing count kept. -/
def setBerthStatus (l : Landing) (a stat : Nat) : Landing :=
  rawPut l a (BitVec.ofNat 64 (peekLe l a 4 + stat % 256 * 2 ^ 32)) 0

/-- One berth at its swap tick (02 R70): FRESH and swapped, MISSED after an overrun, HELD where unpublished; `own` is the
status of the berth's unit: HELD or MISSED holds it back, one of 0x80 and above is written at the swap in place of FRESH
(07 R292, R293, R297). -/
def swapBerth (img : Tab Byte) (i crossing : Nat) (overran : Bool) (own : Option Nat) (b : BerthDecl) (l : Landing) :
    Landing :=
  let l := { l with memi := if swapTick b i then markRange l.memi b.addr (berthSpan b).2 else l.memi }
  if !swapTick b i then l
  else if own = some 1 then setBerthStatus l b.addr 0x01
  else if overran || own = some 2 then setBerthStatus l b.addr 0x02
  else if !publishedAt img b i then setBerthStatus l b.addr 0x01
  else
    let l := if b.double then swapBuffers l b.addr b.size else l
    { l with mem := putBytes l.mem b.addr (berthWord (crossing % 2 ^ 32) (own.getD 0)), syn := Tab.set 0 l.syn (b.addr / 8) 0 }

/-- All berths of a landing at a tick; `own` gives the status of a unit that holds a berth's result. -/
def swapBerths (own : Nat → Option Nat) (l : Landing) : Landing :=
  let f := l.fmn
  let bs := berths f.img
  let l := (List.range bs.length).foldl (fun l n =>
    swapBerth f.img f.index f.crossing (f.overrun.contains n) (own n) (bs.getD n {}) l) l
  { l with fmn := { l.fmn with overrun := l.fmn.overrun.filter (fun n => !swapTick (bs.getD n {}) f.index) } }

/-- The two berth words of a double-buffered berth at the manifest start: count 0 and HELD (02 R70). -/
def holdTwo (l : Landing) (a n : Nat) (double : Bool) : Landing :=
  let l := rawPut l a (BitVec.ofNat 64 (0x01 * 2 ^ 32)) 0
  if double then rawPut l (a + n) (BitVec.ofNat 64 (0x01 * 2 ^ 32)) 0 else l

/-- Every berth word at the manifest start, those of the admission berth among them (02 R70, R713). -/
def holdBerths (l : Landing) : Landing :=
  let a := admission l.fmn.img
  let l := if a.2 ≠ 0 then holdTwo l a.1 a.2 true else l
  (berths l.fmn.img).foldl (fun l b => holdTwo l b.addr b.size b.double) l

/-! ### Index and pattern (02 R71 to R73) -/

/-- The item of claim `k` among the outstanding items: above every dispatch entry. -/
def claimItem (k : Nat) : Nat := 2 ^ 32 + k


/-- The Ferryman's count, index and pattern at a tick: a manifest named for this tick starts at index 0 (02 R71, R73,
R98). -/
def stepFerryman (f : Ferryman) : Ferryman :=
  let c := f.crossing + 1
  let start := f.startAt = some c
  let L := imgCycle f.img
  let i := if start then 0 else if f.running then (if L = 0 then 0 else (f.index + 1) % L) else f.index
  let run := f.running || start
  let p := if run then cyclePattern f.img i else 0
  let ds := (dispatches f.img p).length
  let cs := (claims f.img p).length
  { f with crossing := c, index := i, pattern := p, lastPattern := f.pattern, running := run, startAt := if start then none else f.startAt,
           open_ := if run then List.range ds ++ (List.range cs).map claimItem else [],
           issued := [], undo := [], granted := [],
           seqs := if start then [] else f.seqs, overrun := if start then [] else f.overrun, storeLog := [] }

/-- The dispatch entry of the running pattern that starts operation `op` of `unit`, on `job` and in the core cycle given where they are
given: the first such entry that is outstanding and has not run (02 R71, R72). -/
def entryFor (f : Ferryman) (unit op : Nat) (job cycle : Option Nat) : Option Nat :=
  if !f.running then none
  else
    let ds := dispatches f.img f.pattern
    (List.range ds.length).find? (fun k =>
      let d := ds.getD k {}
      d.unit = unit && d.op = op && job.elim true (fun j => d.job = j) && cycle.elim true (fun c => d.cycle = c) && f.open_.contains k && !f.issued.contains k)

/-- The cycle of dispatch entry `k` of the running pattern. -/
def entryCycle (f : Ferryman) (k : Nat) : Nat := ((dispatches f.img f.pattern).getD k {}).cycle

/-- Dispatch entry `k` marked as run. -/
def markIssued (x : Side) (k : Nat) (s : State) : State :=
  s.modLd x (fun l => { l with fmn := { l.fmn with issued := l.fmn.issued ++ [k] } })

/-- The cells of `old` that `new` holds otherwise, as they were in `old`; `n` bounds the walk over both. -/
def changedCells : Nat → List Host.Cell → List Host.Cell → List Host.Cell
  | 0, _, _ => []
  | _, [], [] => []
  | n + 1, c :: t, [] => c :: changedCells n t []
  | n + 1, [], d :: u => (d.1, 0) :: changedCells n [] u
  | n + 1, c :: t, d :: u =>
    if c.1 < d.1 then c :: changedCells n t (d :: u)
    else if d.1 < c.1 then (d.1, 0) :: changedCells n (c :: t) u
    else if c.2 = d.2 then changedCells n t u
    else c :: changedCells n t u

/-- What entry `k` changed in the memories since `l` is kept until its completion is checked (02 R87). -/
def keepUndo (x : Side) (k : Nat) (l : Landing) (s : State) : State :=
  s.modLd x (fun n =>
    let diff := fun (a b : List Host.Cell) => changedCells (a.length + b.length) a b
    { n with fmn := { n.fmn with undo := Tab.set ([], []) n.fmn.undo k (diff l.mem n.mem, diff l.syn n.syn) } })

/-- An operation runs as its dispatch entry of the running pattern starts it (02 R71, R72); with no such entry nothing is started. -/
def runEntry (x : Side) (unit op : Nat) (job cycle : Option Nat) (act : Nat → State → State) (s : State) : State :=
  match entryFor (s.ld x).fmn unit op job cycle with
  | none => s
  | some k => keepUndo x k (s.ld x) (act k (markIssued x k s))

/-- A manifest starts on this landing at the coming tick (02 R73). -/
def startsNow (f : Ferryman) : Bool := f.startAt = some (f.crossing + 1)

/-! ### The Ferryman's checks (02 R86 to R89) -/

/-- The unit number of `FMN_OVERRUN_AT` for an outstanding item (02 R106). -/
def openUnit (f : Ferryman) (n : Nat) : Nat :=
  if 2 ^ 32 ≤ n then 0x02 else ((dispatches f.img f.pattern).getD n {}).unit

/-- `FMN_OVERRUN_AT` (02 R106). Log entry 38 (DEDUCED, unsafe). -/
def noteOverrunAt (x : Side) (cycle unit : Nat) (s : State) : State :=
  s.modLd x (fun l => { l with fmn := { l.fmn with overrunCycle := cycle % 2 ^ 19, overrunUnit := unit } })

/-- GUARD_TIME_START (02 R88): a dispatch or claim still outstanding is a guard breach. Log entry 117 (DESIGN CHOICE, unsafe). -/
def guardCheck (x : Side) (s : State) : State :=
  let f := (s.ld x).fmn
  match f.open_ with
  | [] => s
  | n :: _ =>
    let cycle := periodCycles (imgPeriod f.img) / 20 * 19
    raise (.landing x) 0x0141 (openUnit f n) (noteOverrunAt x cycle (openUnit f n) s)

/-- The cut-off and first instant of the guard time of landing `x`'s running crossing, 95 % of its period after its tick, in ns; before any
tick, the instant given (02 R59). -/
def State.cutNs (s : State) (x : Side) (at_ : Nat) : Nat :=
  let g := s.grid x
  if g.period = 0 then at_ else g.last / nsUnit + g.period / 20 * 19

/-- GUARD_TIME_START (02 R59, R88). -/
def execGuardTimeStart (at_ : Nat) (x : Side) (s : State) : Host.Outcome State Fault Refusal :=
  .next (guardCheck x (advance (s.cutNs x at_) s))

/-- An outstanding item closed. -/
def closeItem (x : Side) (n : Nat) (s : State) : State :=
  s.modLd x (fun l => { l with fmn := { l.fmn with open_ := l.fmn.open_.filter (· ≠ n) } })

/-- The endpoint port that a unit's results leave by (02 R78): a tile's dock, the unit's port. -/
def unitPort (unit : Nat) : Nat :=
  if 0x80 ≤ unit then unit - 0x80 else if unit ≤ 8 then 0x1D + unit else if unit = 0x0A then 0x26 else if unit = 0x0B then 0x27 else 0x28

/-- The results of dispatch entry `k` of pattern `p` reach a berth: a claim that `DEPENDENCIES` names for them writes it, or a claim of the
pattern from the entry's unit that no pair names (02 R718, R720). Log entry 23 (DEDUCED, unsafe). -/
def reaches (m : Tab Byte) (p k : Nat) (b : BerthDecl) : Bool :=
  let into := fun (c : Claim) => overlap (c.to_, 8 * c.beats) (berthSpan b)
  let named := fun (c : Nat) => (depPairs m).any (fun d => d.refs.contains (1, p, c))
  let port := unitPort ((dispatches m p).getD k {}).unit
  (depPairs m).any (fun d => d.prod = (0, p, k) && d.refs.any (fun r => into ((claims m r.2.1).getD r.2.2 {})))
    || (List.range (claims m p).length).any (fun n =>
      let c := (claims m p).getD n {}
      c.src = port && into c && !named n)

/-- The berths that the results of dispatch entry `k` of the running pattern reach (02 R718); a solver berth's status is its job's own
(07 R297). -/
def berthsOf (f : Ferryman) (k : Nat) : List Nat :=
  let unit := ((dispatches f.img f.pattern).getD k {}).unit
  if unit = 0x06 then [] else
  (List.range (berths f.img).length).filter (fun n =>
    let b := (berths f.img).getD n {}
    b.producer == unit && reaches f.img f.pattern k b)

/-- The memories as they were before the operation of entry `k` (02 R87). -/
def undoEntry (x : Side) (k : Nat) (s : State) : State :=
  s.modLd x (fun l =>
    let u := Tab.get ([], []) l.fmn.undo k
    let back := fun (m cs : List Host.Cell) => cs.foldl (fun m c => Tab.set 0 m c.1 c.2) m
    { l with mem := back l.mem u.1, syn := back l.syn u.2, fmn := { l.fmn with undo := Tab.set ([], []) l.fmn.undo k ([], []) } })

/-- An overrun of dispatch entry `k` (02 R87): reported, its result not written, its unit's berths held back. Log entry 23 (DEDUCED, unsafe). -/
def overrun (x : Side) (k cycle : Nat) (s : State) : State :=
  let f := (s.ld x).fmn
  let u := openUnit f k
  let s := undoEntry x k (closeItem x k (noteOverrunAt x cycle u s))
  let s := s.modLd x (fun l => { l with fmn := { l.fmn with overrun := (l.fmn.overrun ++ berthsOf f k).eraseDups } })
  raise (.landing x) 0x0140 (u * 2 ^ 24 + cycle % 2 ^ 19) s

/-- LSP_SLOT_MISS (02 R87): the transfer is not written. Log entry 116 (DESIGN CHOICE, unsafe). -/
def slotMiss (x : Side) (k : Nat) (s : State) : State :=
  let f := (s.ld x).fmn
  let c := (claims f.img f.pattern).getD k {}
  raise (.landing x) 0x0203 c.slot (closeItem x (claimItem k) (noteOverrunAt x (32 * c.slot + 31) 0x02 s))

/-- LSP_SLOT_MISS (02 R87). -/
def execLspSlotMiss (at_ : Nat) (x : Side) (k : Nat) (s : State) : Host.Outcome State Fault Refusal :=
  .next (slotMiss x k (advance at_ s))

/-- A lost or early tick (02 R89): after a lost one no further crossing starts. -/
def tickLost (x : Side) (early : Bool) (s : State) : State :=
  let s := if early then s else s.modLd x (fun l => { l with fmn := { l.fmn with tickLost := true } })
  raise (.landing x) 0x0142 (b2n early) s

/-- FMN_TICK_LOST (02 R89). -/
def execFmnTickLost (at_ : Nat) (x : Side) (early : Bool) (s : State) : Host.Outcome State Fault Refusal :=
  .next (tickLost x early (advance at_ s))

/-- LSP_FARE_WAIT (02 R97). -/
def execLspFareWait (at_ : Nat) (x : Side) (who : Nat) (s : State) : Host.Outcome State Fault Refusal :=
  .next (raise (.landing x) 0x0204 who (advance at_ s))

end Sys2Proof.Machine
end

