-- ==== Sys2Proof/Machine/Outputs.lean ====
section
/-!
DEFINITION. The output selector (01 R39, 10 R390 to R394, R400 to R403): items handed over by a landing, held in the
compare window, replaced in Adrift, and the entry into Adrift.
-/
namespace Sys2Proof.Machine

/-- The arbiter changed by `f`. -/
def State.modArb (s : State) (f : Arbiter → Arbiter) : State := { s with arb := f s.arb }

/-- Core cycle of the running crossing (02 R58). -/
def State.cycleNow (s : State) : Nat := (s.now - s.tick.last) * 4 / (5 * nsUnit)

/-- The first 3 µs of a leg, in which its reports arrive and its verdict is given (10 R393). -/
def State.inWindow (s : State) : Bool :=
  s.tick.period ≠ 0 && ((s.now - s.tick.last) * 8) % (s.tick.period * nsUnit) < 8 * 3000 * nsUnit

/-- The start of the running leg, in ns (02 R58). -/
def State.legStart (s : State) : Nat := s.tick.last / nsUnit + s.legNow * (s.tick.period / 8)

/-- The first leg boundary at or after now: its instant in ns and the leg, counted over the module's time, that begins there; before any
tick, now and the leg of the first tick (02 R58, 10 R388). -/
def State.nextLeg (s : State) : Nat × Nat :=
  let u := s.tick.period / 8 * nsUnit
  let k := (s.now - s.tick.last + u - 1) / u
  if s.tick.period = 0 then (s.nowNs, 8 * (s.tick.count + 1))
  else if 8 ≤ k then ((s.tick.last + 8 * u) / nsUnit, 8 * (s.tick.count + 1))
  else ((s.tick.last + k * u) / nsUnit, 8 * s.tick.count + k)

/-- The instant of the leading landing's next tick, in ns (02 R57). -/
def State.nextTickNs (s : State) : Nat :=
  if s.tick.period = 0 then s.nowNs else s.tick.last / nsUnit + s.tick.period

/-- The outputs of landing `x` pass the selector (10 R400): it is ACTIVE, no gap is open, and no verdict has removed it. -/
def State.passes (s : State) (x : Side) : Bool :=
  s.activeSide = some x && s.arb.gap.isNone && !s.arb.due.any (fun d => d.side = x && d.role = .unsync)

/-- Adrift entered for a cause (10 R402): in modes 0 and 1 nothing; while Adrift the recorded cause stays. -/
def enterAdrift (code : Nat) (s : State) : State :=
  if s.mode ≤ 1 || s.arb.adrift then s
  else raise .cable 0x0D50 code (s.modArb (fun a => { a with adrift := true, cause := code }))

/-- The safe content of an output key in a manifest (10 R404): none where the section has no entry. `n` bounds the walk over
the entries from offset `o`. -/
def safeEntry (m : Tab Byte) (key : Nat) : Nat → Nat → Option (List Byte)
  | 0, _ => none
  | n + 1, o =>
    let len := le m (o + 2) 2
    if le m o 2 = key then some (bytesAt m (o + 8) len) else safeEntry m key n (o + 8 + (len + 7) / 8 * 8)

/-- The safe content of a key. -/
def safeContent (m : Tab Byte) (key : Nat) : Option (List Byte) :=
  match sectionOf m 0x000A with
  | some c => safeEntry m key (le m c.off 2) (c.off + 8)
  | none => none

/-- Bytes as content words, the last padded with zero bytes (10 R391); `n` bounds the words. -/
def wordsOf : Nat → List Byte → List Pw
  | 0, _ => []
  | n + 1, b => if b.isEmpty then [] else ⟨BitVec.ofNat 64 (ofLe (b.take 8)), false⟩ :: wordsOf n (b.drop 8)

/-- The content words of a byte list. -/
def toWords (b : List Byte) : List Pw := wordsOf (b.length / 8 + 1) b

/-- The bytes of content words. -/
def ofWords (ws : List Pw) : List Byte := ws.flatMap (fun w => leBytes 8 w.v.toNat)

/-- Some word carries poison. -/
def OutItem.poisoned (i : OutItem) : Bool := i.words.any (fun w => w.p)

/-- What the selector lets through of an item of the active landing (10 R403): in Adrift a CAN or Ethernet item is replaced by
its safe content, or suppressed where that has length 0. Log entry 111 (DEDUCED, unsafe). -/
def selectItem (s : State) (x : Side) (i : OutItem) : Option OutItem :=
  if s.arb.adrift && (i.port = 0x26 || i.port = 0x27) then
    match safeContent (s.ld x).fmn.img i.key with
    | some b => if b.isEmpty then none else some { i with words := toWords b }
    | none => none
  else some i

/-- An item let through by `deliver`; a poisoned CAN, Ethernet or cable-link item goes nowhere (12 R456). -/
def passItem (deliver : OutItem → State → State) (x : Side) (i : OutItem) (s : State) : State :=
  match selectItem s x i with
  | none => s
  | some j => if j.poisoned && j.port ≠ 0 then s else deliver j s

/-- An item that only enters its landing's digest: its effect reaches a pin in another way (10 R391). Log entry 111 (DEDUCED, unsafe). -/
def noteItem (x : Side) (i : OutItem) (s : State) : State := s.modLd x (fun l => { l with items := l.items ++ [i] })

/-- The leg, over the module's time, of a core cycle of the running crossing (02 R58). -/
def State.legOf (s : State) (cycle : Nat) : Nat := s.tick.count * 8 + min 7 (cycle * 8 * 5 / max 1 (s.tick.period * 4))

/-- An item of leg `i.leg` is handed over in the first 3 µs of its leg, before the verdict of the leg before it (10 R394). -/
def State.holds (s : State) (i : OutItem) : Bool :=
  decide (i.cycle % max 1 (s.tick.period / 10) < 2400) && decide (s.arb.judged < i.leg)

/-- An item handed to the selector by landing `x` (02 R58, 10 R390, R394, R400): every item enters the digest of the leg of its cycle; only the
active landing's goes on, held while the compare window is open, discarded from the verdict that removes it. -/
def handItem (deliver : OutItem → State → State) (x : Side) (i : OutItem) (s : State) : State :=
  let i := { i with leg := s.legOf i.cycle }
  let s := s.modLd x (fun l => { l with items := l.items ++ [i] })
  let s := if i.poisoned then raise (.landing x) 0x0904 i.key s else s
  if !s.passes x then s
  else if s.holds i then s.modArb (fun a => { a with held := a.held ++ [i] })
  else passItem deliver x i s

end Sys2Proof.Machine
end

