-- ==== Sys2Proof/Machine/Float.lean ====
section
/-!
DEFINITION. IEEE 754-2019 binary32 and binary64 arithmetic, round to nearest with ties to even (00 R18, 03 R121 to R125):
operands become exact dyadic numbers, the operation is exact, one rounding packs the result and says which flags it sets.
-/
namespace Sys2Proof.Machine

/-- A binary format by its exponent and fraction widths. -/
structure Fmt where
  eb : Nat
  mb : Nat
deriving DecidableEq, Repr

/-- FP64 and FP32 (00 R16). Log entry 12 (DESIGN CHOICE, unsafe). -/
def f64 : Fmt := ⟨11, 52⟩
def f32 : Fmt := ⟨8, 23⟩

/-- The flags in the places of `FLAGS` (03 R114). -/
def flNV : Nat := 1
def flDZ : Nat := 2
def flOF : Nat := 4
def flUF : Nat := 8
def flNX : Nat := 16
def flQS : Nat := 32
def flAF : Nat := 64

/-- The exponent bias, the width, and the special encodings. -/
def Fmt.bias (F : Fmt) : Nat := 2 ^ (F.eb - 1) - 1
def Fmt.width (F : Fmt) : Nat := 1 + F.eb + F.mb
def Fmt.signBit (F : Fmt) : Nat := 2 ^ (F.eb + F.mb)
def Fmt.inf (F : Fmt) : Nat := (2 ^ F.eb - 1) * 2 ^ F.mb
def Fmt.quiet (F : Fmt) : Nat := 2 ^ (F.mb - 1)
/-- The NaN of an invalid operation (03 R123). -/
def Fmt.nan (F : Fmt) : Nat := F.inf + F.quiet

/-- A value read from its encoding: a NaN with its signalling mark, an infinity, or (−1)^s · m · 2^e. -/
inductive Fv where
  | nan (signalling : Bool)
  | inf (s : Bool)
  | fin (s : Bool) (m : Nat) (e : Int)
deriving DecidableEq, Repr

/-- The value of an encoding. -/
def unpack (F : Fmt) (x : Nat) : Fv :=
  let s := x / F.signBit % 2 == 1
  let ex := x / 2 ^ F.mb % 2 ^ F.eb
  let fr := x % 2 ^ F.mb
  if ex = 2 ^ F.eb - 1 then (if fr = 0 then .inf s else .nan (fr < F.quiet))
  else if ex = 0 then .fin s fr (1 - (F.bias : Int) - F.mb)
  else .fin s (fr + 2 ^ F.mb) ((ex : Int) - F.bias - F.mb)

/-- The sign placed on an encoding. -/
def withSign (F : Fmt) (s : Bool) (x : Nat) : Nat := if s then x + F.signBit else x

/-- Division by a power of two rounded to nearest, ties to even; `st` says that something smaller was cut off below.
Also whether the result is inexact. -/
def roundShift (m k : Nat) (st : Bool) : Nat × Bool :=
  let q := m / 2 ^ k
  let r := m % 2 ^ k
  let half := if k = 0 then 0 else 2 ^ (k - 1)
  let up := k ≠ 0 && (decide (half < r) || (r == half && (st || q % 2 == 1)))
  (if up then q + 1 else q, r ≠ 0 || st)

/-- The exact value (−1)^s · (m + sticky) · 2^e rounded and packed (03 R122): tininess after rounding, UF only when tiny and
inexact. -/
def roundPack (F : Fmt) (s : Bool) (m : Nat) (e : Int) (st : Bool) : Nat × Nat :=
  if m = 0 then (withSign F s 0, if st then flNX + flUF else 0)
  else
    let E : Int := e + Nat.log2 m
    let emin : Int := 1 - (F.bias : Int)
    let q : Int := (if E < emin then emin else E) - F.mb
    let sh : Int := q - e
    let r := if sh ≤ 0 then (m * 2 ^ (-sh).toNat, st) else roundShift m sh.toNat st
    let shU : Int := E - F.mb - e
    let u := if shU ≤ 0 then m * 2 ^ (-shU).toNat else (roundShift m shU.toNat st).1
    let tiny := E < emin && !(u == 2 ^ (F.mb + 1) && E + 1 == emin)
    let mag := if E < emin then r.1 else ((E + F.bias).toNat - 1) * 2 ^ F.mb + r.1
    if F.inf ≤ mag then (withSign F s F.inf, flOF + flNX)
    else (withSign F s mag, (if r.2 then flNX else 0) + (if tiny && r.2 then flUF else 0))

/-- A NaN quieted, its payload kept. -/
def quietNan (F : Fmt) (x : Nat) : Nat := if x / F.quiet % 2 = 1 then x else x + F.quiet

/-- An encoding is a NaN, or a signalling one. -/
def isNan (F : Fmt) (x : Nat) : Bool := match unpack F x with
  | .nan _ => true
  | _ => false
def isSig (F : Fmt) (x : Nat) : Bool := match unpack F x with
  | .nan g => g
  | _ => false

/-- The NaN result of NaN operands: the first in order, quieted; NV for a signalling one (03 R123). -/
def nanOf (F : Fmt) (xs : List Nat) : Option (Nat × Nat) :=
  match xs.find? (isNan F) with
  | some x => some (quietNan F x, if xs.any (isSig F) then flNV else 0)
  | none => none

/-- An integer multiple of 2^e rounded; a zero sum takes the sign `z`. -/
def packInt (F : Fmt) (z : Bool) (n : Int) (e : Int) : Nat × Nat :=
  if n = 0 then (withSign F z 0, 0) else roundPack F (n < 0) n.natAbs e false

/-- A signed dyadic number. -/
def sgn (s : Bool) (m : Nat) : Int := if s then -(m : Int) else m

/-- The sum of two dyadic numbers as an integer at the smaller exponent. -/
def addDyadic (s1 : Bool) (m1 : Nat) (e1 : Int) (s2 : Bool) (m2 : Nat) (e2 : Int) : Int × Int :=
  let e := min e1 e2
  (sgn s1 (m1 * 2 ^ (e1 - e).toNat) + sgn s2 (m2 * 2 ^ (e2 - e).toNat), e)

/-- a + b, with the sign of b inverted when `neg` (a − b). A NaN keeps its own sign. -/
def fAdd (F : Fmt) (neg : Bool) (x y : Nat) : Nat × Nat :=
  match nanOf F [x, y] with
  | some r => r
  | none =>
    match unpack F x, unpack F y with
    | .inf s, .inf t => if s = (t ^^ neg) then (withSign F s F.inf, 0) else (F.nan, flNV)
    | .inf s, _ => (withSign F s F.inf, 0)
    | _, .inf t => (withSign F (t ^^ neg) F.inf, 0)
    | .fin s1 m1 e1, .fin s2 m2 e2 =>
      let r := addDyadic s1 m1 e1 (s2 ^^ neg) m2 e2
      packInt F (s1 && (s2 ^^ neg)) r.1 r.2
    | _, _ => (F.nan, flNV)

/-- a × b. -/
def fMul (F : Fmt) (x y : Nat) : Nat × Nat :=
  match nanOf F [x, y] with
  | some r => r
  | none =>
    match unpack F x, unpack F y with
    | .inf s, .inf t => (withSign F (s ^^ t) F.inf, 0)
    | .inf s, .fin t m _ => if m = 0 then (F.nan, flNV) else (withSign F (s ^^ t) F.inf, 0)
    | .fin t m _, .inf s => if m = 0 then (F.nan, flNV) else (withSign F (s ^^ t) F.inf, 0)
    | .fin s m e, .fin t n g => if m * n = 0 then (withSign F (s ^^ t) 0, 0) else roundPack F (s ^^ t) (m * n) (e + g) false
    | _, _ => (F.nan, flNV)

/-- c + a × b with one rounding, or c − a × b when `neg` (03 R121, R123). -/
def fFma (F : Fmt) (neg : Bool) (x y c : Nat) : Nat × Nat :=
  match nanOf F [x, y, c] with
  | some r => r
  | none =>
    match unpack F x, unpack F y, unpack F c with
    | .fin s m e, .fin t n g, .fin w k h =>
      let p := s ^^ t ^^ neg
      let r := addDyadic p (m * n) (e + g) w k h
      packInt F (p && w) r.1 r.2
    | .fin _ _ _, .fin _ _ _, .inf w => (withSign F w F.inf, 0)
    | a, b, d =>
      let zero := fun v => match v with
        | Fv.fin _ 0 _ => true
        | _ => false
      let sg := fun v => match v with
        | Fv.inf s => s
        | Fv.fin s _ _ => s
        | Fv.nan _ => false
      if zero a || zero b then (F.nan, flNV)
      else
        let p := sg a ^^ sg b ^^ neg
        match d with
        | .inf w => if w = p then (withSign F p F.inf, 0) else (F.nan, flNV)
        | _ => (withSign F p F.inf, 0)

/-- a / b. -/
def fDiv (F : Fmt) (x y : Nat) : Nat × Nat :=
  match nanOf F [x, y] with
  | some r => r
  | none =>
    match unpack F x, unpack F y with
    | .inf _, .inf _ => (F.nan, flNV)
    | .inf s, .fin t _ _ => (withSign F (s ^^ t) F.inf, 0)
    | .fin s _ _, .inf t => (withSign F (s ^^ t) 0, 0)
    | .fin s m e, .fin t n g =>
      if n = 0 then (if m = 0 then (F.nan, flNV) else (withSign F (s ^^ t) F.inf, flDZ))
      else if m = 0 then (withSign F (s ^^ t) 0, 0)
      else
        let k := 2 * F.mb + 6
        let q := m * 2 ^ k / n
        roundPack F (s ^^ t) q (e - g - k) (m * 2 ^ k % n ≠ 0)
    | _, _ => (F.nan, flNV)

/-- The integer square root, found bit by bit from bit `k`. -/
def isqrt (n : Nat) : Nat → Nat → Nat
  | 0, r => if (r + 1) * (r + 1) ≤ n then r + 1 else r
  | k + 1, r => isqrt n k (if (r + 2 ^ (k + 1)) * (r + 2 ^ (k + 1)) ≤ n then r + 2 ^ (k + 1) else r)

/-- √a. -/
def fSqrt (F : Fmt) (x : Nat) : Nat × Nat :=
  match nanOf F [x] with
  | some r => r
  | none =>
    match unpack F x with
    | .inf s => if s then (F.nan, flNV) else (F.inf, 0)
    | .fin s m e =>
      if m = 0 then (withSign F s 0, 0)
      else if s then (F.nan, flNV)
      else
        let k := 2 * F.mb + 8 + (if (e - (2 * F.mb + 8 : Nat)) % 2 = 0 then 0 else 1)
        let n := m * 2 ^ k
        let r := isqrt n (Nat.log2 n / 2 + 1) 0
        roundPack F false r ((e - k) / 2) (r * r ≠ n)
    | _ => (F.nan, flNV)

/-- Two numbers compared: −1, 0 or 1; none when either is a NaN. −0 equals +0. -/
def fCmp (F : Fmt) (x y : Nat) : Option Int :=
  match unpack F x, unpack F y with
  | .nan _, _ => none
  | _, .nan _ => none
  | .inf s, .inf t => some (if s = t then 0 else if s then -1 else 1)
  | .inf s, _ => some (if s then -1 else 1)
  | _, .inf t => some (if t then 1 else -1)
  | .fin s m e, .fin t n g => some ((addDyadic s m e (!t) n g).1.sign)

/-- FCMPEQ: quiet equality (03 R122). -/
def fEq (F : Fmt) (x y : Nat) : Bool × Nat :=
  (fCmp F x y == some 0, if isSig F x || isSig F y then flNV else 0)

/-- FCMPLT and FCMPLE: signalling comparisons (03 R122). -/
def fLt (F : Fmt) (x y : Nat) : Bool × Nat :=
  (fCmp F x y == some (-1), if isNan F x || isNan F y then flNV else 0)
def fLe (F : Fmt) (x y : Nat) : Bool × Nat :=
  (fCmp F x y == some (-1) || fCmp F x y == some 0, if isNan F x || isNan F y then flNV else 0)

/-- FCMPUN: a or b is a NaN (03 R121, R122). -/
def fUn (F : Fmt) (x y : Nat) : Bool × Nat :=
  (isNan F x || isNan F y, if isSig F x || isSig F y then flNV else 0)

/-- The sign of an encoding. -/
def fSign (F : Fmt) (x : Nat) : Bool := x / F.signBit % 2 == 1

/-- minimumNumber, or maximumNumber when `mx` (IEEE 754-2019): a number wins over a NaN, −0 is below +0. -/
def fMinMax (F : Fmt) (mx : Bool) (x y : Nat) : Nat × Nat :=
  let fl := if isSig F x || isSig F y then flNV else 0
  if isNan F x && isNan F y then (quietNan F x, fl)
  else if isNan F x then (y, fl)
  else if isNan F y then (x, fl)
  else
    let less := match fCmp F x y with
      | some c => if c = 0 then fSign F x && !fSign F y else c < 0
      | none => false
    (if less ^^ mx then x else y, fl)

/-- FABS and FNEG change the sign bit only (03 R123). -/
def fAbs (F : Fmt) (x : Nat) : Nat × Nat := (x % F.signBit, 0)
def fNeg (F : Fmt) (x : Nat) : Nat × Nat := (if fSign F x then x - F.signBit else x + F.signBit, 0)

/-- An integer multiple of 2^e as a float (03 R124). -/
def fOfInt (F : Fmt) (n : Int) (e : Int) : Nat × Nat := packInt F false n e

/-- A float as the nearest integer multiple of 2^−k, ties to even, with whether it is inexact; none for a NaN, an
infinity as its sign. -/
inductive ToInt where
  | nan
  | inf (s : Bool)
  | num (n : Int) (inexact : Bool)
deriving DecidableEq, Repr

def fToInt (F : Fmt) (k : Nat) (x : Nat) : ToInt :=
  match unpack F x with
  | .nan _ => .nan
  | .inf s => .inf s
  | .fin s m e =>
    let g := e + k
    if 0 ≤ g then .num (sgn s (m * 2 ^ g.toNat)) false
    else let r := roundShift m (-g).toNat false; .num (sgn s r.1) r.2

/-- FCVTFI (03 R124): saturates with NV, a NaN gives 0 with NV. -/
def fToI64 (F : Fmt) (x : Nat) : Nat × Nat :=
  match fToInt F 0 x with
  | .nan => (0, flNV)
  | .inf s => (if s then 2 ^ 63 else 2 ^ 63 - 1, flNV)
  | .num n i =>
    if n < -(2 ^ 63 : Int) then (2 ^ 63, flNV)
    else if (2 ^ 63 : Int) ≤ n then (2 ^ 63 - 1, flNV)
    else (uval 64 n, if i then flNX else 0)

/-- FCVTFQ (03 R124): to Q1.31, saturating with QS, a NaN gives 0 with NV; 32 bits. -/
def fToQ (F : Fmt) (x : Nat) : Nat × Nat :=
  match fToInt F 31 x with
  | .nan => (0, flNV)
  | .inf s => (if s then 0x80000000 else 0x7FFFFFFF, flQS)
  | .num n i =>
    if n < -(2 ^ 31 : Int) then (0x80000000, flQS)
    else if (2 ^ 31 : Int) ≤ n then (0x7FFFFFFF, flQS)
    else (uval 32 n, if i then flNX else 0)

/-- FCVTFF (03 R123): FP64 to FP32, keeping the high payload bits of a NaN. -/
def fNarrow (x : Nat) : Nat × Nat :=
  match unpack f64 x with
  | .nan g => (withSign f32 (fSign f64 x) (f32.inf + f32.quiet + x / 2 ^ 29 % 2 ^ 22), if g then flNV else 0)
  | .inf s => (withSign f32 s f32.inf, 0)
  | .fin s m e => roundPack f32 s m e false

/-- FCVTFF: FP32 to FP64. -/
def fWiden (x : Nat) : Nat × Nat :=
  match unpack f32 x with
  | .nan g => (withSign f64 (fSign f32 x) (f64.inf + f64.quiet + x % 2 ^ 22 * 2 ^ 29), if g then flNV else 0)
  | .inf s => (withSign f64 s f64.inf, 0)
  | .fin s m e => roundPack f64 s m e false

/-! ### FP64 shorthands for the engines -/

/-- FP64 numbers as the engines hold them: the encoding. -/
abbrev F64 := BitVec 64

def F64.add (a b : F64) : F64 := BitVec.ofNat 64 (fAdd f64 false a.toNat b.toNat).1
def F64.sub (a b : F64) : F64 := BitVec.ofNat 64 (fAdd f64 true a.toNat b.toNat).1
def F64.mul (a b : F64) : F64 := BitVec.ofNat 64 (fMul f64 a.toNat b.toNat).1
def F64.div (a b : F64) : F64 := BitVec.ofNat 64 (fDiv f64 a.toNat b.toNat).1
def F64.fma (a b c : F64) : F64 := BitVec.ofNat 64 (fFma f64 false a.toNat b.toNat c.toNat).1
def F64.sqrt (a : F64) : F64 := BitVec.ofNat 64 (fSqrt f64 a.toNat).1
def F64.neg (a : F64) : F64 := BitVec.ofNat 64 (fNeg f64 a.toNat).1
def F64.abs (a : F64) : F64 := BitVec.ofNat 64 (fAbs f64 a.toNat).1
def F64.lt (a b : F64) : Bool := (fLt f64 a.toNat b.toNat).1
def F64.le (a b : F64) : Bool := (fLe f64 a.toNat b.toNat).1
def F64.eq (a b : F64) : Bool := (fEq f64 a.toNat b.toNat).1
def F64.isNan (a : F64) : Bool := Machine.isNan f64 a.toNat
/-- Neither NaN nor infinite. -/
def F64.finite (a : F64) : Bool := match unpack f64 a.toNat with
  | .fin _ _ _ => true
  | _ => false
/-- An integer times a power of two as FP64. -/
def F64.ofDyadic (n e : Int) : F64 := BitVec.ofNat 64 (fOfInt f64 n e).1
def F64.ofInt (n : Int) : F64 := F64.ofDyadic n 0
def F64.ofNat (n : Nat) : F64 := F64.ofDyadic n 0
/-- A ratio of integers, one rounding. -/
def F64.ofRat (n d : Nat) : F64 := F64.div (F64.ofNat n) (F64.ofNat d)
def F64.min (a b : F64) : F64 := BitVec.ofNat 64 (fMinMax f64 false a.toNat b.toNat).1
def F64.max (a b : F64) : F64 := BitVec.ofNat 64 (fMinMax f64 true a.toNat b.toNat).1
/-- The nearest integer multiple of 2^−k, saturated at the range given; 0 for a NaN. -/
def F64.toInt (a : F64) (k : Nat) (lo hi : Int) : Int :=
  match fToInt f64 k a.toNat with
  | .nan => 0
  | .inf s => if s then lo else hi
  | .num n _ => if n < lo then lo else if hi < n then hi else n

/-- FP32 numbers as encodings. -/
abbrev F32 := BitVec 32

def F32.add (a b : F32) : F32 := BitVec.ofNat 32 (fAdd f32 false a.toNat b.toNat).1
def F32.sub (a b : F32) : F32 := BitVec.ofNat 32 (fAdd f32 true a.toNat b.toNat).1
def F32.mul (a b : F32) : F32 := BitVec.ofNat 32 (fMul f32 a.toNat b.toNat).1
def F32.div (a b : F32) : F32 := BitVec.ofNat 32 (fDiv f32 a.toNat b.toNat).1
def F32.fma (a b c : F32) : F32 := BitVec.ofNat 32 (fFma f32 false a.toNat b.toNat c.toNat).1
def F32.neg (a : F32) : F32 := BitVec.ofNat 32 (fNeg f32 a.toNat).1
def F32.abs (a : F32) : F32 := BitVec.ofNat 32 (fAbs f32 a.toNat).1
def F32.lt (a b : F32) : Bool := (fLt f32 a.toNat b.toNat).1
def F32.le (a b : F32) : Bool := (fLe f32 a.toNat b.toNat).1
def F32.eq (a b : F32) : Bool := (fEq f32 a.toNat b.toNat).1
def F32.isNan (a : F32) : Bool := Machine.isNan f32 a.toNat
def F32.finite (a : F32) : Bool := match unpack f32 a.toNat with
  | .fin _ _ _ => true
  | _ => false
/-- An integer times a power of two as FP32, one rounding. -/
def F32.ofDyadic (n e : Int) : F32 := BitVec.ofNat 32 (fOfInt f32 n e).1
/-- An FP64 number rounded to FP32, and an FP32 number widened. -/
def F64.narrow (a : F64) : F32 := BitVec.ofNat 32 (fNarrow a.toNat).1
def F32.widen (a : F32) : F64 := BitVec.ofNat 64 (fWiden a.toNat).1

/-- An integer divided by a positive one, rounded to nearest with ties to even (00 R17). -/
def roundDiv (n : Int) (d : Nat) : Int :=
  let q := n / (d : Int)
  let r := 2 * (n % (d : Int))
  if r < d || (r = d && q % 2 = 0) then q else q + 1

/-- An integer saturated to the signed range of `n` bits. -/
def satInt (n : Nat) (v : Int) : Int :=
  let h : Int := (2 ^ (n - 1) : Nat)
  if v < -h then -h else if h ≤ v then h - 1 else v

/-- An integer times 2^sh, rounded convergently. -/
def scaleRound (v sh : Int) : Int := if 0 ≤ sh then v * 2 ^ sh.toNat else roundDiv v (2 ^ (-sh).toNat)

end Sys2Proof.Machine
end

