-- ==== Sys2Proof/Machine/Trig.lean ====
section
/-!
DEFINITION. Sine and cosine of FP64 values, the exact value rounded once to nearest with ties to even (00 R17, R18): the
argument is reduced in integers with as many bits of π as its size needs, and the series is summed with 320 fraction bits.
-/
namespace Sys2Proof.Machine

/-- The fraction bits that a reduced argument is carried with. -/
def trigBits : Nat := 320

/-- The terms of arctan(1/n) from the `k`-th on, alternating, with `p` the scaled power n^-(2k+1). -/
def atanTerms (n2 : Nat) : Nat → Nat → Nat → Int
  | 0, _, _ => 0
  | f + 1, k, p => ((p / (2 * k + 1) : Nat) : Int) - atanTerms n2 f (k + 1) (p / n2)

/-- arctan(1/n) with `b` fraction bits. -/
def atanInv (b n : Nat) : Int := atanTerms (n * n) (b / 4 + 2) 0 (2 ^ b / n)

/-- π with `b` fraction bits (Machin's formula, 16 guard bits). -/
def piBits (b : Nat) : Int := (16 * atanInv (b + 16) 5 - 4 * atanInv (b + 16) 239) / 2 ^ 16

/-- The terms of a sine or cosine series of a reduced argument whose scaled square is `r2`: `t` the `k`-th term, `k` the next
factor of the factorial. -/
def trigTerms (r2 : Int) : Nat → Nat → Int → Int
  | 0, _, _ => 0
  | f + 1, k, t => t - trigTerms r2 f (k + 2) (t * r2 / 2 ^ trigBits / ((k * (k + 1) : Nat) : Int))

/-- Sine and cosine of a reduced argument with `trigBits` fraction bits. -/
def sinReduced (r : Int) : Int := trigTerms (r * r / 2 ^ trigBits) 60 2 r
def cosReduced (r : Int) : Int := trigTerms (r * r / 2 ^ trigBits) 60 1 (2 ^ trigBits)

/-- A finite argument reduced by quarter turns: how many, modulo 4, and the rest. -/
def quarterOf (s : Bool) (m : Nat) (e : Int) : Nat × Int :=
  let b := trigBits + (e + 53).toNat
  let x : Int := (m : Int) * 2 ^ ((b : Int) + e).toNat
  let h := piBits b / 2
  let n := (x + h / 2) / h
  let r := (x - n * h) / 2 ^ (b - trigBits)
  if s then ((-n) % 4 |>.toNat, -r) else (n % 4 |>.toNat, r)

/-- The value of `n` quarter turns and a rest, as a sine. -/
def quarterSin (n : Nat) (r : Int) : Int :=
  match n % 4 with
  | 0 => sinReduced r
  | 1 => cosReduced r
  | 2 => -sinReduced r
  | _ => -cosReduced r

/-- A sine (`turn` 0) or cosine (`turn` 1) in FP64: NaN of an infinity, a small argument by its first term. Marked beside
00 R18. Log entry 140 (DEDUCED, unsafe). -/
def f64Trig (turn x : Nat) : Nat :=
  match unpack f64 x with
  | .nan _ => quietNan f64 x
  | .inf _ => f64.nan
  | .fin s m e =>
    if m = 0 || (e + (Nat.log2 m : Int)) < -27 then (if turn = 0 then x else 0x3FF0000000000000)
    else
      let q := quarterOf s m e
      (packInt f64 false (quarterSin (q.1 + turn) q.2) (-(trigBits : Int))).1

/-- Sine and cosine of an angle in radians. Log entry 140 (DEDUCED, unsafe). -/
def F64.sin (x : F64) : F64 := BitVec.ofNat 64 (f64Trig 0 x.toNat)
def F64.cos (x : F64) : F64 := BitVec.ofNat 64 (f64Trig 1 x.toNat)

end Sys2Proof.Machine
end

