-- ==== Sys2Proof/Machine/FusionMath.lean ====
section
/-!
DEFINITION. The arithmetic of the fusion engine (chapter 06): vectors and matrices of FP64, the vessel model and its
Jacobian, measurement updates, world coordinates.
-/
namespace Sys2Proof.Machine

/-- A whole number, and a ratio of whole numbers, in FP64. -/
def fN (n : Nat) : F64 := F64.ofNat n

/-- Entries of vectors and matrices of FP64; 0 outside. -/
def Vec.at_ (v : Vec) (i : Nat) : F64 := v.getD i 0
def Mat.at_ (m : Mat) (i j : Nat) : F64 := (m.getD i []).getD j 0

/-- A matrix of `r` rows and `c` columns from its entries. -/
def Mat.make (r c : Nat) (f : Nat → Nat → F64) : Mat := (List.range r).map (fun i => (List.range c).map (f i))

/-- The sum of a list, in order. Log entry 12 (DESIGN CHOICE, unsafe). -/
def sumF (v : List F64) : F64 := match v with
  | [] => 0
  | a :: t => t.foldl F64.add a

/-- The product of an r by n and an n by c matrix; sums in ascending order of the inner index. -/
def Mat.mul (r n c : Nat) (a b : Mat) : Mat :=
  Mat.make r c (fun i j => sumF ((List.range n).map (fun k => F64.mul (a.at_ i k) (b.at_ k j))))
def Mat.tr (r c : Nat) (a : Mat) : Mat := Mat.make c r (fun i j => a.at_ j i)
def Mat.add (r c : Nat) (a b : Mat) : Mat := Mat.make r c (fun i j => F64.add (a.at_ i j) (b.at_ i j))
def Mat.sub (r c : Nat) (a b : Mat) : Mat := Mat.make r c (fun i j => F64.sub (a.at_ i j) (b.at_ i j))
def Mat.id (n : Nat) : Mat := Mat.make n n (fun i j => if i = j then fN 1 else 0)
def Mat.diag (v : Vec) : Mat := Mat.make v.length v.length (fun i j => if i = j then v.at_ i else 0)
def Mat.app (n : Nat) (a : Mat) (v : Vec) : Vec :=
  (List.range a.length).map (fun i => sumF ((List.range n).map (fun k => F64.mul (a.at_ i k) (v.at_ k))))
def Vec.add (a b : Vec) : Vec := (List.range a.length).map (fun i => F64.add (a.at_ i) (b.at_ i))
def Vec.sub (a b : Vec) : Vec := (List.range a.length).map (fun i => F64.sub (a.at_ i) (b.at_ i))
def Vec.scale (k : F64) (v : Vec) : Vec := v.map (F64.mul k)

/-- π in FP64. -/
def piF : F64 := 0x400921FB54442D18

/-- An angle normalised to (−π, π] (00 R20): multiples of 2π taken off. -/
def normAngle (a : F64) : F64 :=
  let tau := F64.mul (fN 2) piF
  let n := F64.toInt (F64.div a tau) 0 (-(2 ^ 62)) (2 ^ 62)
  let b := F64.sub a (F64.mul (F64.ofInt n) tau)
  if F64.le b (F64.neg piF) then F64.add b tau else if F64.lt piF b then F64.sub b tau else b

/-- Nanoseconds in seconds. -/
def nsSec (n : Int) : F64 := F64.div (F64.ofInt n) (fN 1000000000)

/-- The rotation Rz(yaw) Ry(pitch) Rx(roll) (06 R242). -/
def rotation (roll pitch yaw : F64) : Mat :=
  let cr := F64.cos roll; let sr := F64.sin roll
  let cp := F64.cos pitch; let sp := F64.sin pitch
  let cy := F64.cos yaw; let sy := F64.sin yaw
  let rz : Mat := [[cy, F64.neg sy, 0], [sy, cy, 0], [0, 0, fN 1]]
  let ry : Mat := [[cp, 0, sp], [0, fN 1, 0], [F64.neg sp, 0, cp]]
  let rx : Mat := [[fN 1, 0, 0], [0, cr, F64.neg sr], [0, sr, cr]]
  Mat.mul 3 3 3 rz (Mat.mul 3 3 3 ry rx)

/-- The semi-major axis and the squared eccentricity of WGS 84, from its flattening 1/298.257223563. -/
def wgsA : F64 := fN 6378137
def wgsE2 : F64 :=
  let f := F64.div (fN 1000000000) (fN 298257223563)
  F64.mul f (F64.sub (fN 2) f)

/-- A point of latitude, longitude and height in ECEF. -/
def ecefOf (lat lon h : F64) : Vec :=
  let sl := F64.sin lat; let cl := F64.cos lat
  let n := F64.div wgsA (F64.sqrt (F64.sub (fN 1) (F64.mul wgsE2 (F64.mul sl sl))))
  [F64.mul (F64.mul (F64.add n h) cl) (F64.cos lon), F64.mul (F64.mul (F64.add n h) cl) (F64.sin lon),
   F64.mul (F64.add (F64.mul n (F64.sub (fN 1) wgsE2)) h) sl]

/-- ECEF converted to north-east-down at an origin (06 R242). -/
def nedOf (o : F64 × F64 × F64) (p : Vec) : Vec :=
  let sl := F64.sin o.1; let cl := F64.cos o.1
  let sn := F64.sin o.2.1; let cn := F64.cos o.2.1
  let r : Mat := [[F64.neg (F64.mul sl cn), F64.neg (F64.mul sl sn), cl], [F64.neg sn, cn, 0],
    [F64.neg (F64.mul cl cn), F64.neg (F64.mul cl sn), F64.neg sl]]
  Mat.app 3 r (Vec.sub p (ecefOf o.1 o.2.1 o.2.2))

/-! ### The vessel model (06 R244): (N, E, ψ, u, v, r, d_N, d_E, d_r) and input (a_u, a_v, a_r) -/

/-- The derivative of the state. -/
def vesselRate (x a : Vec) : Vec :=
  let c := F64.cos (x.at_ 2); let s := F64.sin (x.at_ 2)
  let u := x.at_ 3; let v := x.at_ 4
  let dn := x.at_ 6; let de := x.at_ 7
  [F64.sub (F64.mul u c) (F64.mul v s), F64.add (F64.mul u s) (F64.mul v c), x.at_ 5,
   F64.add (F64.add (a.at_ 0) (F64.mul dn c)) (F64.mul de s),
   F64.add (F64.sub (a.at_ 1) (F64.mul dn s)) (F64.mul de c),
   F64.add (a.at_ 2) (x.at_ 8), 0, 0, 0]

/-- The Jacobian of the derivative. -/
def vesselJac (x : Vec) : Mat :=
  let c := F64.cos (x.at_ 2); let s := F64.sin (x.at_ 2)
  let u := x.at_ 3; let v := x.at_ 4
  let dn := x.at_ 6; let de := x.at_ 7
  let ns := F64.neg s
  [[0, 0, F64.sub (F64.neg (F64.mul u s)) (F64.mul v c), c, ns, 0, 0, 0, 0],
   [0, 0, F64.sub (F64.mul u c) (F64.mul v s), s, c, 0, 0, 0, 0],
   [0, 0, 0, 0, 0, fN 1, 0, 0, 0],
   [0, 0, F64.sub (F64.mul de c) (F64.mul dn s), 0, 0, 0, c, s, 0],
   [0, 0, F64.sub (F64.neg (F64.mul dn c)) (F64.mul de s), 0, 0, 0, ns, c, 0],
   [0, 0, 0, 0, 0, 0, 0, 0, fN 1], [], [], []]

/-- One midpoint step of `dt` seconds: the state after it and the transition, the identity plus dt times the Jacobian at the
midpoint. -/
def vesselStep (dt : F64) (x a : Vec) : Vec × Mat :=
  let h := F64.mul dt (F64.div (fN 1) (fN 2))
  let xm := Vec.add x (Vec.scale h (vesselRate x a))
  let x' := Vec.add x (Vec.scale dt (vesselRate xm a))
  let j := vesselJac xm
  (x'.set 2 (normAngle (x'.at_ 2)),
   Mat.make 9 9 (fun i k => F64.add (if i = k then fN 1 else 0) (F64.mul dt (j.at_ i k))))

/-- The covariance carried over a transition, plus diag(q) dt. -/
def covStep (dt : F64) (q : Vec) (f p : Mat) : Mat :=
  Mat.add 9 9 (Mat.mul 9 9 9 f (Mat.mul 9 9 9 p (Mat.tr 9 9 f))) (Mat.diag (Vec.scale dt q))

/-! ### Measurements (06 R244, R251): the measured states `rows`, values `z`, covariance `r` -/

/-- S = H P Hᵀ + R. -/
def innovCov (rows : List Nat) (p r : Mat) : Mat :=
  Mat.make rows.length rows.length (fun i j => F64.add (p.at_ (rows.getD i 0) (rows.getD j 0)) (r.at_ i j))

/-- The inverse of a 1 by 1 or 2 by 2 matrix that is positive definite in FP64; none for another. -/
def invPd (s : Mat) : Option Mat :=
  if s.length ≤ 1 then
    if F64.lt 0 (s.at_ 0 0) then some [[F64.div (fN 1) (s.at_ 0 0)]] else none
  else
    let det := F64.sub (F64.mul (s.at_ 0 0) (s.at_ 1 1)) (F64.mul (s.at_ 0 1) (s.at_ 1 0))
    if F64.lt 0 (s.at_ 0 0) && F64.lt 0 det then
      some [[F64.div (s.at_ 1 1) det, F64.neg (F64.div (s.at_ 0 1) det)],
            [F64.neg (F64.div (s.at_ 1 0) det), F64.div (s.at_ 0 0) det]]
    else none

/-- ν = z − H x, a heading's normalised. -/
def innovation (rows : List Nat) (x z : Vec) : Vec :=
  let v := (List.range rows.length).map (fun i => F64.sub (z.at_ i) (x.at_ (rows.getD i 0)))
  if rows = [2] then v.map normAngle else v

/-- νᵀ S⁻¹ ν. -/
def quadForm (v : Vec) (si : Mat) : F64 :=
  sumF ((List.range v.length).map (fun i => F64.mul (v.at_ i) ((Mat.app v.length si v).at_ i)))

/-- The gain P Hᵀ S⁻¹. -/
def gainOf (n : Nat) (rows : List Nat) (p si : Mat) : Mat :=
  let k := rows.length
  Mat.mul n k k (Mat.make n k (fun i j => p.at_ i (rows.getD j 0))) si

/-- A Joseph-form update of an n-state filter by one measurement; unchanged where S is not positive definite. -/
def josephUpdate (n : Nat) (rows : List Nat) (z : Vec) (r : Mat) (xp : Vec × Mat) : Vec × Mat :=
  let k := rows.length
  match invPd (innovCov rows xp.2 r) with
  | none => xp
  | some si =>
    let g := gainOf n rows xp.2 si
    let x := Vec.add xp.1 (Mat.app k g (innovation rows xp.1 z))
    let ikh := Mat.make n n (fun i j =>
      let h := (List.range k).foldl (fun a l => if rows.getD l 0 = j then g.at_ i l else a) 0
      F64.sub (if i = j then fN 1 else 0) h)
    (x, Mat.add n n (Mat.mul n n n ikh (Mat.mul n n n xp.2 (Mat.tr n n ikh)))
      (Mat.mul n k n g (Mat.mul k k n r (Mat.tr n k g))))

/-- The late update of 06 R256: Δx = C Hᵀ S⁻¹ ν with C = Φ P_t, and P − C Hᵀ S⁻¹ H Cᵀ. -/
def lateUpdate (rows : List Nat) (phi pt si : Mat) (v : Vec) (xp : Vec × Mat) : Vec × Mat :=
  let k := rows.length
  let c := Mat.mul 9 9 9 phi pt
  let ch := Mat.make 9 k (fun i j => c.at_ i (rows.getD j 0))
  let g := Mat.mul 9 k k ch si
  (Vec.add xp.1 (Mat.app k g v), Mat.sub 9 9 xp.2 (Mat.mul 9 k 9 g (Mat.tr 9 k ch)))

/-- A value put in its place among values in rising order. -/
def insertF (a : F64) : List F64 → List F64
  | [] => [a]
  | b :: t => if F64.lt a b then a :: b :: t else b :: insertF a t

/-- The median; for an even count the mean of the two middle values (06 R250). -/
def medianF (v : List F64) : F64 :=
  let o := v.foldl (fun l a => insertF a l) []
  let n := o.length
  if n % 2 = 1 then o.getD (n / 2) 0
  else F64.div (F64.add (o.getD (n / 2 - 1) 0) (o.getD (n / 2) 0)) (fN 2)

/-- The mean of a list. -/
def meanF (v : List F64) : F64 := F64.div (sumF v) (fN v.length)

/-- The horizontal distance of two points. -/
def distF (a b : F64 × F64) : F64 :=
  let n := F64.sub a.1 b.1; let e := F64.sub a.2 b.2
  F64.sqrt (F64.add (F64.mul n n) (F64.mul e e))

end Sys2Proof.Machine
end

