-- ==== Sys2Proof/Machine/Profile.lean ====
section
/-!
DEFINITION. Jerk-limited profiles (09 R348 to R351): ramps, plans, and their evaluation, in FP64.
-/
namespace Sys2Proof.Machine

/-- A profile's limits: v_max, a_max, d_max, j_max, d_f, j_f. -/
structure AxeLim where
  v : F64 := 0
  a : F64 := 0
  d : F64 := 0
  j : F64 := 0
  df : F64 := 0
  jf : F64 := 0

/-- A position, a velocity and an acceleration. -/
structure AxePva where
  p : F64 := 0
  v : F64 := 0
  a : F64 := 0
deriving DecidableEq, Repr

/-- Two and six in FP64. -/
def f2 : F64 := fN 2
def f6 : F64 := fN 6

/-- A piece evaluated τ seconds after its start, summed in the order of 09 R350. -/
def AxePiece.at_ (k : AxePiece) (tau : F64) : AxePva :=
  let t2 := F64.mul tau tau
  let t3 := F64.mul t2 tau
  { p := F64.add (F64.add (F64.add k.p (F64.mul k.v tau)) (F64.div (F64.mul k.a t2) f2)) (F64.div (F64.mul k.j t3) f6),
    v := F64.add (F64.add k.v (F64.mul k.a tau)) (F64.div (F64.mul k.j t2) f2),
    a := F64.add k.a (F64.mul k.j tau) }

/-- The profile τ seconds after its origin; before it, the first piece's start. -/
def profileAt (plan : List AxePiece) (tau : F64) : AxePva :=
  match plan with
  | [] => {}
  | k :: _ =>
    if F64.lt tau k.t then { p := k.p, v := k.v, a := k.a }
    else
      let c := plan.foldl (fun c q => if F64.le q.t tau then q else c) k
      c.at_ (F64.sub tau c.t)

/-- The plan's last piece has begun at τ: nothing more is to happen. -/
def planOver (plan : List AxePiece) (tau : F64) : Bool :=
  match plan.getLast? with
  | none => true
  | some k => F64.le k.t tau

/-- A plan under construction: its pieces, and the instant and state at their end. -/
structure AxePlan where
  ks : List AxePiece := []
  t : F64 := 0
  s : AxePva := {}

/-- A piece of jerk `j` lasting `dur` added. -/
def AxePlan.piece (w : AxePlan) (dur j : F64) : AxePlan :=
  if !F64.lt 0 dur then w
  else
    let k : AxePiece := { t := w.t, p := w.s.p, v := w.s.v, a := w.s.a, j := j }
    { ks := w.ks ++ [k], t := F64.add w.t dur, s := k.at_ dur }

/-- A value with the sign of another. -/
def signed (s v : F64) : F64 := if F64.lt s 0 then F64.neg v else v

/-- Whether a ramp of Δv keeps a constant acceleration for a while; its duration; the distance it covers (09 R348). -/
def rampLong (dv A J : F64) : Bool := F64.le (F64.div (F64.mul A A) J) dv
def rampTime (dv A J : F64) : F64 :=
  if rampLong dv A J then F64.add (F64.div dv A) (F64.div A J) else F64.mul f2 (F64.sqrt (F64.div dv J))
def rampDist (v0 v1 A J : F64) : F64 :=
  F64.mul (F64.div (F64.add v0 v1) f2) (rampTime (F64.abs (F64.sub v1 v0)) A J)

/-- A ramp to velocity `v1`, which it reaches exactly with zero acceleration. -/
def AxePlan.ramp (w : AxePlan) (v1 A J : F64) : AxePlan :=
  let dv := F64.sub v1 w.s.v
  let d := F64.abs dv
  if F64.eq d 0 then w
  else
    let j := signed dv J
    let w := if rampLong d A J then
        let t1 := F64.div A J
        let t2 := F64.sub (F64.div d A) t1
        let w1 := w.piece t1 j
        let w1 := { w1 with s := { w1.s with a := signed dv A } }
        (w1.piece t2 0).piece t1 (F64.neg j)
      else
        let t1 := F64.sqrt (F64.div d J)
        (w.piece t1 j).piece t1 (F64.neg j)
    { w with s := { w.s with v := v1, a := 0 } }

/-- The acceleration brought to 0 at jerk `J` (09 R349 step 1). -/
def AxePlan.settle (w : AxePlan) (J : F64) : AxePlan :=
  let a := w.s.a
  if F64.eq a 0 then w
  else
    let v := F64.add w.s.v (F64.div (F64.mul a (F64.abs a)) (F64.mul f2 J))
    let w := w.piece (F64.div (F64.abs a) J) (F64.neg (signed a J))
    { w with s := { w.s with v := v, a := 0 } }

/-- The plan ended in the state reached. -/
def AxePlan.close (w : AxePlan) : List AxePiece := w.ks ++ [{ t := w.t, p := w.s.p, v := w.s.v, a := 0, j := 0 }]

/-- The largest peak velocity whose two ramps cover no more than D: 64 steps of bisection (09 R349). -/
def peakVelocity (L : AxeLim) (vr D : F64) : Nat → F64 → F64 → F64
  | 0, lo, _ => lo
  | n + 1, lo, hi =>
    let mid := F64.div (F64.add lo hi) f2
    if F64.le (F64.add (rampDist vr mid L.a L.j) (rampDist mid 0 L.d L.j)) D then peakVelocity L vr D n mid hi
    else peakVelocity L vr D n lo mid

/-- A move from the velocity held toward the target, at rest exactly there (09 R349 step 3). -/
def AxePlan.move (w : AxePlan) (L : AxeLim) (target : F64) : AxePlan :=
  let D := F64.sub target w.s.p
  let d := F64.abs D
  let vr := F64.abs w.s.v
  if F64.eq d 0 && F64.eq vr 0 then w
  else
    let vp := peakVelocity L vr d 64 vr L.v
    let rest := F64.sub (F64.sub d (rampDist vr vp L.a L.j)) (rampDist vp 0 L.d L.j)
    let w := w.ramp (signed D vp) L.a L.j
    let w := if F64.lt 0 vp then w.piece (F64.div rest vp) 0 else w
    let w := w.ramp 0 L.d L.j
    { w with s := { p := target, v := 0, a := 0 } }

/-- A profile to a target position (09 R349). -/
def planPosition (L : AxeLim) (s : AxePva) (target : F64) : List AxePiece :=
  let w : AxePlan := ({ s := s } : AxePlan).settle L.j
  let v := w.s.v
  let D := F64.sub target w.s.p
  let behind := F64.lt (F64.mul D v) 0
  let short := F64.lt (F64.abs D) (rampDist (F64.abs v) 0 L.d L.j)
  let w := if !F64.eq v 0 && (behind || short) then w.ramp 0 L.d L.j else w
  (w.move L target).close

/-- A profile to a target velocity (09 R349). -/
def planVelocity (L : AxeLim) (s : AxePva) (target : F64) : List AxePiece :=
  let w : AxePlan := ({ s := s } : AxePlan).settle L.j
  let v := w.s.v
  let opp := F64.lt (F64.mul v target) 0
  if F64.eq target 0 || opp then
    let w := w.ramp 0 L.d L.j
    (if F64.eq target 0 then w else w.ramp target L.a L.j).close
  else
    let rise := F64.lt (F64.abs v) (F64.abs target)
    (w.ramp target (if rise then L.a else L.d) L.j).close

/-- A stop (09 R354): with d_max and j_max, or as a fault stop with d_f and j_f. -/
def planStop (L : AxeLim) (fault : Bool) (s : AxePva) : List AxePiece :=
  let w : AxePlan := ({ s := s } : AxePlan).settle (if fault then L.jf else L.j)
  (if fault then w.ramp 0 L.df L.jf else w.ramp 0 L.d L.j).close

/-- A stop with d_max and j_max, then a ramp to a velocity (09 R364 phase 2). -/
def planStopThen (L : AxeLim) (s : AxePva) (v : F64) : List AxePiece :=
  let w : AxePlan := ({ s := s } : AxePlan).settle L.j
  ((w.ramp 0 L.d L.j).ramp v L.a L.j).close

/-- A rest at a position. -/
def planRest (p : F64) : List AxePiece := [{ p := p }]

end Sys2Proof.Machine
end

