-- ==== Sys2Proof/Machine/RegMap.lean ====
section
/-!
DEFINITION. The register map: what a read of each register returns and how each register may be accessed, unit block by
unit block. Reads here have no effect; the effects of the reads that clear, latch or snapshot are commands of their own.
-/
namespace Sys2Proof.Machine

/-- How a register may be accessed (00 R11): `hostRw` an RW register marked host-writable, `own` a queue or interrupt
register of its own partition, `range` engine memory that requesters outside the manifest only read (01 R42). -/
inductive RegKind where
  | unassigned
  | ro
  | rw
  | hostRw
  | w1c
  | rc
  | wo
  | range
  | own (p : Nat)
deriving DecidableEq, Repr

/-- The requester's number in the tables kept per requester (00 R13). -/
def reqKey : Requester → Nat
  | .deckhand x => x.num
  | .tile x n => 16 + 16 * x.num + n
  | .engine x u => 64 + 32 * x.num + u
  | .host p => 8 + p

/-- Landing a requester belongs to; a host's reads come from the active landing (16 R607, R611). -/
def reqSide (s : State) : Requester → Side
  | .deckhand x => x
  | .tile x _ => x
  | .engine x _ => x
  | .host _ => s.lead

/-- The low word of a 64-bit count. -/
def lo32 (n : Nat) : Nat := n % 2 ^ 32

/-- The high word of a 64-bit count. -/
def hi32 (n : Nat) : Nat := n / 2 ^ 32 % 2 ^ 32

/-! ### Ferryman, 0x3001_0000 (02 R98 to R106) -/

def kindFmn (o : Nat) : RegKind :=
  if o = 0x18 then .w1c else if o = 0x20 then .rc else if o ≤ 0x28 then .ro else .unassigned

def regFmn (s : State) (x : Side) (o : Nat) : Nat :=
  let l := s.ld x
  let f := l.fmn
  let id := if f.loaded then le f.img 0x10 8 else 0
  match o with
  | 0x00 => lo32 f.crossing
  | 0x04 => hi32 f.crossing
  | 0x08 => f.index + s.ownLeg x * 4096 + f.pattern * 65536
  | 0x0C => b2n f.loaded + b2n f.running * 2 + b2n f.verifying * 4 + b2n f.halted * 8 + f.lastVerify * 65536
  | 0x10 => lo32 id
  | 0x14 => hi32 id
  | 0x18 => Tab.get 0 l.events 0x01
  | 0x1C => f.entries + f.beats * 65536
  | 0x20 => f.deferred
  | 0x24 => f.verifyAt
  | 0x28 => f.overrunCycle + f.overrunUnit * 2 ^ 24
  | _ => 0

/-! ### Memory integrity, 0x3009_0000 (12 R475 to R482) -/

def kindMem (o : Nat) : RegKind :=
  if o = 0x04 then .w1c
  else if o = 0x08 || o = 0x10 then .hostRw
  else if 0x20 ≤ o && o < 0x3C then .rc
  else if o ≤ 0x1C then .ro
  else if 0x100 ≤ o && o < 0x180 then .ro
  else .unassigned

/-- `MEM_REMAPn` (12 R482). The PENDING bit reads 0: a remap is one indivisible step. -/
def remapReg (e : RemapEntry) : Nat :=
  (match e.line with
    | some a => a / 64
    | none => 0x1FFFFF) + e.spare * 2 ^ 21 + e.cause * 2 ^ 26 + b2n e.valid * 2 ^ 30

def regMem (s : State) (x : Side) (o : Nat) : Nat :=
  let l := s.ld x
  let m := l.memi
  match o with
  | 0x00 => m.remap.length + b2n m.copy * 128 + b2n m.tableLost * 256 + b2n m.marking * 512
      + b2n m.memtest.isSome * 1024 + m.passes * 65536
  | 0x04 => Tab.get 0 l.events 0x09
  | 0x08 => m.threshold + m.leak * 256
  | 0x0C => m.level + b2n m.armed * 256 + m.trips * 65536
  | 0x10 => m.rate
  | 0x14 => m.scrubPos
  | 0x18 => m.errAddr
  | 0x1C => m.errInfo
  | _ =>
    if 0x20 ≤ o && o < 0x3C then
      Tab.get 0 m.corrected ((o - 0x20) / 4) + Tab.get 0 m.uncorr ((o - 0x20) / 4) * 65536
    else if 0x100 ≤ o && o < 0x180 then
      match m.remap[(o - 0x100) / 4]? with
      | some e => remapReg e
      | none => 0
    else 0

/-! ### Purser and Tollhouse, 0x300C_0000 (16 R637 to R645) -/

/-- Size of a ring of exponent `k` (16 R612). -/
def ringSize (k : Nat) : Nat := 4096 * 2 ^ k

/-- A partition whose path is a purser port (16 R603). -/
def isPort (p : Nat) : Bool := p < 4

/-- The size exponent of ring `r` in the order of 16 R612: P0 to P3 with 8 rings each, then N0 to N3 with 4. -/
def ringExp (s : State) (r : Nat) : Nat :=
  if r < 32 then
    let t := s.part (r / 8)
    if r % 8 < 4 then (Tab.get {} t.cq (r % 8)).k else (Tab.get {} t.eq (r % 8 - 4)).k
  else (Tab.get {} (s.part (4 + (r - 32) / 4)).eq ((r - 32) % 4)).k

/-- Bytes taken by rings 0 to `r` (16 R612). -/
def ringSpan (s : State) : Nat → Nat
  | 0 => ringSize (ringExp s 0)
  | r + 1 => ringSpan s r + ringSize (ringExp s (r + 1))

/-- The base that the layout of 16 R612 gives ring `r`. -/
def layoutBase (s : State) (r : Nat) : Nat := 0x10800000 - ringSpan s r

/-- The ring number of a queue; command queues of N0 to N3 have none. -/
def ringOf (p : Nat) (event : Bool) (q : Nat) : Option Nat :=
  if isPort p then some (8 * p + (if event then 4 else 0) + q)
  else if event then some (32 + 4 * (p - 4) + q) else none

/-- The base in force of ring `r`: during a move the old one (16 R613). -/
def ringBase (s : State) (r : Nat) : Nat :=
  match s.pur.move with
  | some m => (m.fromB.find? (fun e => e.1 == r)).elim (layoutBase s r) (fun e => e.2)
  | none => layoutBase s r

/-- Size of the purser area in bytes (16 R612). -/
def areaBytes (s : State) : Nat := ringSpan s 47

/-- The purser area reported: during a move the one before it (16 R638). -/
def areaInForce (s : State) : Nat := 0x10800000 - ringBase s 47

/-- Active alarms at the tick, saturating (16 R637). -/
def alarmCount (s : State) : Nat := min 1023 s.pur.alarmsAt

/-- A mask with bit p for each partition that satisfies `f`. -/
def partMask (s : State) (f : Partition → Bool) : Nat :=
  (List.range 8).foldl (fun n p => n + b2n (f (s.part p)) * 2 ^ p) 0

/-- Kind of an offset of a partition's registers. -/
def kindPart (p o : Nat) : RegKind :=
  if o < 0x0C then .ro
  else if o = 0x0C then .own p
  else if o < 0x50 then
    let r := o % 16
    if r = 0 then (if isPort p then .own p else .ro)
    else if r = 0xC then (if isPort p then .own p else .ro)
    else .ro
  else if o < 0x70 then .ro
  else .unassigned

def kindPur (o : Nat) : RegKind :=
  if o = 0 || o = 8 then .ro
  else if o = 4 then .w1c
  else if 0x100 ≤ o && o < 0x500 then kindPart ((o - 0x100) / 0x80) ((o - 0x100) % 0x80)
  else if 0x800 ≤ o && o < 0x820 then .ro
  else if 0x900 ≤ o && o < 0xB00 then .ro
  else .unassigned

/-- A register of partition `p` (16 R640 to R643). -/
def regPart (s : State) (p o : Nat) : Nat :=
  let t := s.part p
  if o = 0 then
    t.level + b2n t.bound.isSome * 4 + b2n t.lockoutEnd.isSome * 8 + b2n t.challenge.isSome * 16 + t.fails * 32
      + t.slot * 256 + min 0xFFFF ((s.tick.last / nsUnit - t.lastPass) / 100000000) * 65536
  else if o = 4 then t.subMask + t.subQ * 2 ^ 24
  else if o = 8 then
    (List.range 4).foldl (fun n k => n + (Tab.get {} t.cq k).k * 16 ^ k + (Tab.get {} t.eq k).k * 16 ^ (k + 4)) 0
  else if o = 0xC then t.irqEq + b2n t.irqRead * 16
  else if o < 0x50 then
    let q := (o - 0x10) / 16
    let c := Tab.get {} t.cq q
    let e := Tab.get {} t.eq q
    match o % 16 with
    | 0 => if isPort p then c.tail else 0
    | 4 => if isPort p then c.head else 0
    | 8 => e.tail
    | _ => e.head
  else if o < 0x70 then
    let k := (o - 0x50) / 4
    match ringOf p (4 ≤ k) (k % 4) with
    | some r => ringBase s r
    | none => 0
  else 0

/-- A register of the block as it stands. -/
def purNow (s : State) (o : Nat) : Nat :=
  if o = 0 then
    partMask s (fun t => 0 < t.level) + partMask s (fun t => t.lockoutEnd.isSome) * 256
      + b2n s.pur.bootstrap * 65536 + b2n s.pur.jtagOpen * 131072 + alarmCount s * 2 ^ 22
  else if o = 4 then Tab.get 0 s.events 0x0C
  else if o = 8 then areaInForce s / 4096
  else if 0x100 ≤ o && o < 0x500 then regPart s ((o - 0x100) / 0x80) ((o - 0x100) % 0x80)
  else if 0x800 ≤ o && o < 0x820 then
    let k := Tab.get {} s.pur.slots ((o - 0x800) / 4)
    k.alg + b2n k.manifest * 4 + b2n k.credential * 8 + k.maxLevel * 16 + b2n k.revoked * 64
  else if 0x900 ≤ o && o < 0xB00 then
    let k := Tab.get {} s.pur.slots ((o - 0x900) / 0x40)
    if k.alg = 2 then ofLe ((k.key.drop ((o - 0x900) % 0x40)).take 4) else 0
  else 0

/-- A register of the block as it is read (16, Registers): as it stood at the tick where it has changed since. -/
def regPur (s : State) (o : Nat) : Nat := (Tab.get none s.pur.shown o).getD (purNow s o)

/-! ### RTC and backup, 0x400F_0000 (17 R674), and logbook, 0x4010_0000 (17 R675) -/

def kindRtc (o : Nat) : RegKind :=
  if o = 0x00 then .hostRw
  else if o = 0x08 then .hostRw
  else if o = 0x18 then .w1c
  else if o = 0x1C then .rw
  else if o ≤ 0x28 then .ro
  else if 0x100 ≤ o && o < 0x180 then .ro
  else if 0x180 ≤ o && o < 0x200 then .hostRw
  else .unassigned

/-- Days from 2000-01-01 to the first day of year 2000 + y of the proleptic Gregorian calendar. -/
def yearDays (y : Nat) : Nat := 365 * y + (y + 3) / 4 - (y + 99) / 100 + (y + 399) / 400

/-- 2000 + y is a leap year. -/
def leap (y : Nat) : Bool := y % 4 == 0 && (y % 100 != 0 || y % 400 == 0)

/-- Days of the months of a year. -/
def monthDays (y : Nat) : List Nat := [31, if leap y then 29 else 28, 31, 30, 31, 30, 31, 31, 30, 31, 30, 31]

/-- The month (from 1) and day (from 1) of day `d` of a year. -/
def monthOf : List Nat → Nat → Nat → Nat × Nat
  | [], m, d => (m, d + 1)
  | n :: t, m, d => if d < n then (m, d + 1) else monthOf t (m + 1) (d - n)

/-- The year less 2000 of a day count; `n` bounds the search. -/
def yearOf : Nat → Nat → Nat → Nat
  | 0, y, _ => y
  | n + 1, y, d => if d < yearDays (y + 1) then y else yearOf n (y + 1) d

/-- `RTC_DATE` of a count of seconds (17 R653): day 0 is a Saturday, weekday 5. -/
def dateReg (secs : Nat) : Nat :=
  let d := secs / 86400
  let y := yearOf 140 0 d
  let md := monthOf (monthDays y) 1 (d - yearDays y)
  y % 256 + md.1 * 256 + md.2 * 4096 + (d + 5) % 7 * 2 ^ 17

/-- `RTC_TIME` of a count of seconds. -/
def timeReg (secs : Nat) : Nat := secs / 3600 % 24 + secs / 60 % 60 * 32 + secs % 60 * 2048

/-- The timebase cycle of the module time (02 R57: 100 MHz). -/
def cycleNow (s : State) : Nat := s.now / (10 * nsUnit)

/-- The seconds and subseconds that a snapshot takes: in the cycle of a commit those before it (17 R654, R655). -/
def rtcShown (s : State) : Nat × Nat :=
  match s.rtc.was with
  | some (c, o) => if c = cycleNow s then o else (s.rtc.seconds, s.rtc.subsec)
  | none => (s.rtc.seconds, s.rtc.subsec)

def regRtc (s : State) (r : Requester) (o : Nat) : Nat :=
  let c := s.rtc
  let snap := Tab.get none c.snaps (reqKey r)
  match o with
  | 0x00 => (rtcShown s).1
  | 0x04 => snap.elim 0 (fun p => p.2)
  | 0x08 => 0
  | 0x0C => snap.elim 0 (fun p => dateReg p.1)
  | 0x10 => snap.elim 0 (fun p => timeReg p.1)
  | 0x14 => b2n c.valid + b2n c.bkpValid * 2 + b2n c.lost * 4
  | 0x18 => Tab.get 0 s.events 0x0F + b2n c.wakeBit * 2 ^ 15
  | 0x1C => c.period
  | 0x20 => c.wakeCount.toNat
  | 0x24 => c.check.toNat
  | 0x28 => c.vbat + b2n c.vbatLow * 512 + c.switches * 65536
  | _ => if 0x100 ≤ o && o < 0x200 then le c.mem (o - 0x100) 4 else 0

def kindLog (o : Nat) : RegKind :=
  if o = 4 then .w1c else if o = 0x20 || o = 0x24 then .rc else if o ≤ 0x1C then .ro else .unassigned

/-- A record from its bytes (17 R662). -/
def recFrom (sector : Nat) (b : List Byte) : StoredRec :=
  { sector := sector, seq := ofLe ((b.drop 4).take 6), code := ofLe ((b.drop 2).take 2), bytes := b }

/-- The scan of a sector from offset `o` on, where `b` is programmed (17 R663): the records marked valid, and the end of what is
programmed, none where the rest of the sector is unusable. -/
def scanRecs (sector : Nat) : Nat → Nat → List Byte → List StoredRec × Option Nat
  | 0, o, _ => ([], some o)
  | n + 1, o, b =>
    let mark := (b.headD 0xFF).toNat
    let len := ((b.drop 1).headD 0xFF).toNat
    if mark = 0xFF && len = 0xFF then ([], some o)
    else if mark = 0xFF || len < 2 || 128 < len then ([], none)
    else
      let r := scanRecs sector n (o + 8 * len) (b.drop (8 * len))
      (if mark = 0x3C then recFrom sector (b.take (8 * len)) :: r.1 else r.1, r.2)

/-- The header of a ring sector (17 R661): "LOGS", version 1, the sequence of its first record. -/
def sectorHead (first : Nat) : List Byte := leBytes 4 0x53474F4C ++ leBytes 2 1 ++ leBytes 2 0 ++ leBytes 8 first

/-- The scan of a ring sector (17 R661, R663); one without its header holds no record. Log entry 109 (DEDUCED, unsafe). -/
def scanSector (sector : Nat) (b : List Byte) : List StoredRec × Option Nat :=
  if b = [] then ([], some 0)
  else if b.take 6 = (sectorHead 0).take 6 then scanRecs sector b.length 16 (b.drop 16)
  else ([], none)

/-- The valid records of a copy (17 R663). -/
def copyRecs (f : Tab (List Byte)) : List StoredRec :=
  f.flatMap (fun e => if 2 ≤ e.1 && e.1 < 256 then (scanSector e.1 e.2).1 else [])

/-- The valid records of the copies taken. -/
def logRecs (l : Logbook) (live : Bool × Bool) : List StoredRec :=
  (if live.1 then copyRecs l.flash1 else []) ++ (if live.2 then copyRecs l.flash2 else [])

/-- A copy is written and read while it is in use and its bank has not withdrawn (17 R660). Log entry 109 (DEDUCED, unsafe). -/
def copyLive (s : State) : Bool × Bool := (s.log.copy1 && s.bank1, s.log.copy2 && s.bank2)

/-- The oldest sequence held, or the next one where none is held. -/
def oldestSeq (s : State) : Nat := (logRecs s.log (copyLive s)).foldl (fun n r => min n r.seq) s.log.nextSeq

/-- Uptime in ms (17 R667). -/
def uptimeMs (s : State) : Nat := s.uptime.getD 0 / nsUnit / 1000000

def regLog (s : State) (o : Nat) : Nat :=
  let l := s.log
  match o with
  | 0x00 => b2n l.copy1 + b2n l.copy2 * 2 + b2n l.scanning * 4 + b2n l.clearing.isSome * 8
      + min 255 ((bufferFill l.buffer + 255) / 256) * 256 + l.limits.length * 65536
  | 0x04 => Tab.get 0 s.events 0x10
  | 0x08 => lo32 l.nextSeq
  | 0x0C => hi32 l.nextSeq
  | 0x10 => lo32 (oldestSeq s)
  | 0x14 => hi32 (oldestSeq s)
  | 0x18 => lo32 (uptimeMs s)
  | 0x1C => hi32 (uptimeMs s)
  | 0x20 => l.lostCount
  | 0x24 => l.suppressed
  | _ => 0


/-! ### Sample chain, 0x3003_0000 (04 R184 to R191) -/

def kindSch (o : Nat) : RegKind :=
  if o = 4 then .w1c
  else if o = 0 || o = 8 then .ro
  else if 0x40 ≤ o && o < 0x80 then .rc
  else if (0x80 ≤ o && o < 0xC0) || (0x100 ≤ o && o < 0x120) || (0x200 ≤ o && o < 0x400) then .ro
  else if 0x1000 ≤ o && o < 0x2000 then .range
  else if 0x8000 ≤ o then .range
  else .unassigned

/-- Link `n` of a landing. -/
def Landing.link (l : Landing) (n : Nat) : SchLink := Tab.get {} l.sch.links n

/-- Channel `k` of a landing. -/
def Landing.chan (l : Landing) (k : Nat) : SchChan := Tab.get {} l.sch.chans k

/-- The state code of a link (04 R184). -/
def SchLink.code (k : SchLink) : Nat := if k.bypassed then 3 else k.state

/-- The image offset of the descriptor of link `n` (04 R179). -/
def linkDesc (f : Ferryman) (n : Nat) : Nat :=
  partOff f.img 3 + 0x10 + 32 * n

/-- The phase of a link's live calibration (04 R188). -/
def calPhase (f : Ferryman) (k : SchLink) (n : Nat) : Nat :=
  if !k.filling then 0
  else
    let d := linkDesc f n
    let i := k.m - k.runAt
    let a := le f.img (d + 0xC) 1
    let b := a + le f.img (d + 0xD) 1
    let c := b + le f.img (d + 0xE) 1
    let e := c + le f.img (d + 0xF) 1
    if i ≤ a then 1 else if i ≤ b then 2 else if i ≤ c then 3 else if i ≤ e then 4 else 5

/-- A state register of the chain now. -/
def schNow (s : State) (x : Side) (o : Nat) : Nat :=
  let l := s.ld x
  if o = 0 then (List.range 16).foldl (fun v n => v + (l.link n).code * 4 ^ n) 0
  else if o = 8 then
    match (List.range 16).find? (fun n => (l.link n).bypassed) with
    | some n => n + 16
    | none => 0
  else if 0x40 ≤ o && o < 0x80 then (l.link ((o - 0x40) / 4)).health
  else if 0x80 ≤ o && o < 0xC0 then
    let n := (o - 0x80) / 4
    let k := l.link n
    k.chan + calPhase l.fmn k n * 16 + k.accepted % 256 * 256 + k.rejected % 256 * 65536 + k.voided % 256 * 2 ^ 24
  else if 0x100 ≤ o && o < 0x120 then
    let b := (o - 0x100) / 4 * 32
    (List.range 32).foldl (fun v i =>
      v + b2n ((l.chan (b + i)).frozen || Tab.get false l.sch.frozen (b + i)) * 2 ^ i) 0
  else if 0x200 ≤ o && o < 0x400 then
    let m := (o - 0x200) / 4
    (l.chan (2 * m)).epoch + (l.chan (2 * m + 1)).epoch * 65536
  else 0

/-- The offsets of the state registers, which change only at the tick. -/
def schOffsets : List Nat :=
  [0, 8] ++ (List.range 32).map (fun i => 0x40 + 4 * i) ++ (List.range 8).map (fun i => 0x100 + 4 * i)
    ++ (List.range 128).map (fun i => 0x200 + 4 * i)

def regSch (s : State) (x : Side) (o : Nat) : Nat :=
  let l := s.ld x
  if o = 4 then Tab.get 0 l.events 0x03
  else if 0x40 ≤ o && o < 0x80 then
    let k := l.link ((o - 0x40) / 4)
    k.bad + k.repaired * 65536 + Tab.get 0 l.sch.shown o * 2 ^ 24
  else if 0x1000 ≤ o && o < 0x2000 then
    ofLe (((l.link ((o - 0x1000) / 256)).block.drop (o % 256)).take 4)
  else if 0x8000 ≤ o then (peek32 l (0x30030000 + o)).toNat
  else Tab.get 0 l.sch.shown o

/-! ### GNSS baseband, 0x3004_0000 (05 R223 to R230) -/

def kindGns (o : Nat) : RegKind :=
  if o = 4 then .w1c
  else if o ≤ 0x1C then .ro
  else if 0x40 ≤ o && o ≤ 0x54 then .ro
  else if 0x8000 ≤ o && o < 0xC080 then .range
  else if 0xD000 ≤ o && o < 0xD880 then .range
  else .unassigned

/-- Halves of an antenna not OFF, saturating (05 R223). -/
def gnsActive (g : Gns) (a : Nat) : Nat :=
  min 127 ((g.halves.filter (fun e => e.1 / 128 = a && e.2.mode ≠ 0)).length)

/-- Antenna `a`. -/
def Gns.ant (g : Gns) (a : Nat) : GnsAnt := Tab.get {} g.ants a

/-- A GNSS register now, but for the error estimate, which is shown from the steering at the tick. -/
def gnsNow (g : Gns) (o : Nat) : Nat :=
  let a := g.ant 0
  let b := g.ant 1
  let t := g.steer
  match o with
  | 0x00 => b2n a.clk + b2n b.clk * 2 + b2n a.off * 4 + b2n b.off * 8 + gnsActive g 0 * 256 + gnsActive g 1 * 65536
  | 0x08 => lo32 a.mark
  | 0x0C => hi32 a.mark
  | 0x10 => lo32 b.mark
  | 0x14 => hi32 b.mark
  | 0x18 => (a.mark - a.prev) % 65536 + (b.mark - b.prev) % 65536 * 65536
  | 0x1C => a.fracU + a.fracL * 256 + b.fracU * 65536 + b.fracL * 2 ^ 24
  | 0x40 => t.state + t.flags * 4 + t.pulses * 65536
  | 0x48 => lo32 (t.label.getD 0)
  | 0x4C => hi32 (t.label.getD 0)
  | 0x50 => lo32 t.edge.toNat
  | 0x54 => hi32 t.edge.toNat
  | _ => 0

/-- The offsets of the registers that change at the tick. -/
def gnsOffsets : List Nat := [0x00, 0x08, 0x0C, 0x10, 0x14, 0x18, 0x1C, 0x40, 0x44, 0x48, 0x4C, 0x50, 0x54]

def regGns (s : State) (x : Side) (o : Nat) : Nat :=
  let l := s.ld x
  if o = 4 then Tab.get 0 l.events 0x04
  else if 0x8000 ≤ o then (peek32 l (0x30040000 + o)).toNat
  else Tab.get 0 l.gns.shown o

/-! ### Reference fusion, 0x3005_0000 (06 R264 to R270) -/

def kindFus (o : Nat) : RegKind :=
  if o = 4 then .w1c
  else if o = 0x28 then .rc
  else if o ≤ 0x2C then .ro
  else if 0x100 ≤ o && o < 0x200 then .ro
  else if (0x2000 ≤ o && o < 0x4020) || (0x4100 ≤ o && o < 0x41A0) || (0x4400 ≤ o && o < 0x5000) then .range
  else if (0x5000 ≤ o && o < 0x7000) || 0x8000 ≤ o then .range
  else .unassigned

/-- Stream `n`. -/
def Fus.stream (f : Fus) (n : Nat) : FusStream := Tab.get {} f.streams n

/-- The image offsets of the configured stream descriptors (06 R261), in ascending stream order (06 R258). -/
def fusDescs (m : Tab Byte) : List Nat :=
  if (enginePart m 5).isNone then []
  else
    let o := partOff m 5
    let all := (List.range (le m (o + 0x53) 1)).map (fun i => o + 128 + 64 * i)
    (List.range 64).filterMap (fun n => all.find? (fun d => le m d 1 = n))

/-- The descriptor of stream `n`. -/
def fusDesc (m : Tab Byte) (n : Nat) : Option Nat := (fusDescs m).find? (fun o => le m o 1 = n)

/-- The state code of a stream in its register (06 R269). -/
def fusStreamState (m : Tab Byte) (t : FusStream) (n : Nat) : Nat :=
  if (fusDesc m n).isNone then 0 else if t.adrift then 4 else if t.excl ≠ 0 then t.excl else 1

/-- Failures in a stream's window. -/
def FusStream.fails (t : FusStream) : Nat := (t.window.filter (fun e => e.2 ≠ 0)).length

/-- Tracks of landing `l` with one of the statuses. -/
def trackCount (l : Landing) (n : Nat) (st : List Nat) : Nat :=
  ((List.range n).filter (fun j => st.contains (peekByte l (0x30058000 + 128 * j)).toNat)).length

/-- The mask of streams that satisfy `c`. -/
def streamMask (f : Fus) (c : FusStream → Bool) : Nat :=
  f.streams.foldl (fun v e => v + b2n (c e.2) * 2 ^ e.1) 0

/-- A fusion register now. -/
def fusNow (l : Landing) (o : Nat) : Nat :=
  let f := l.fus
  let m := l.fmn.img
  match o with
  | 0x00 => f.level + b2n f.vote * 8 + b2n f.headingDr * 16 + b2n (f.posInit && f.headInit) * 32 + f.groups * 256
      + min 0xFFFF (f.drUs / 10000) * 65536
  | 0x08 => lo32 (f.closed.getD 0)
  | 0x0C => hi32 (f.closed.getD 0)
  | 0x10 => lo32 f.usedMask
  | 0x14 => hi32 f.usedMask
  | 0x18 => lo32 (streamMask f (fun t => t.excl ≠ 0))
  | 0x1C => hi32 (streamMask f (fun t => t.excl ≠ 0))
  | 0x20 => lo32 (streamMask f (fun t => t.adrift))
  | 0x24 => hi32 (streamMask f (fun t => t.adrift))
  | 0x2C =>
    let n := if (enginePart m 5).isNone then 0 else le m (partOff m 5 + 0x50) 2
    trackCount l n [2, 3, 4] + trackCount l n [1] * 65536
  | _ =>
    let n := (o - 0x100) / 4
    let t := f.stream n
    fusStreamState m t n + t.fails * 8 + t.consistent * 256 + t.how * 65536 + t.late * 2 ^ 24

/-- The offsets of the registers that change at the tick after a `CLOSE`. -/
def fusOffsets : List Nat :=
  [0x00, 0x08, 0x0C, 0x10, 0x14, 0x18, 0x1C, 0x20, 0x24, 0x2C] ++ (List.range 64).map (fun n => 0x100 + 4 * n)

def regFus (s : State) (x : Side) (o : Nat) : Nat :=
  let l := s.ld x
  if o = 4 then Tab.get 0 l.events 0x05
  else if o = 0x28 then l.fus.lateApplied + l.fus.lateDiscarded * 65536
  else if 0x2000 ≤ o then (peek32 l (0x30050000 + o)).toNat
  else if o = 0 && l.fus.shown.isEmpty then 4
  else Tab.get 0 l.fus.shown o

/-! ### Solver, 0x3006_0000 (07 R301 to R306) -/

def kindSlv (o : Nat) : RegKind :=
  if o = 4 then .w1c else if o ≤ 0x14 || (0x100 ≤ o && o < 0x180) then .ro else .unassigned

/-- Job `j`. -/
def Slv.job (v : Slv) (j : Nat) : SlvJob := Tab.get {} v.jobs j

/-- Matrices and jobs configured (07 R276). -/
def slvMats (m : Tab Byte) : Nat := if (enginePart m 6).isNone then 0 else le m (partOff m 6) 1
def slvJobs (m : Tab Byte) : Nat := if (enginePart m 6).isNone then 0 else le m (partOff m 6 + 1) 1

/-- The running holds as (crossings elapsed, job). -/
def slvHolds (l : Landing) : List (Nat × Nat) :=
  l.slv.jobs.filterMap (fun e => e.2.hold.map (fun c => (min 8 (l.fmn.crossing - c), e.1)))

/-- The longest running hold. -/
def longestHold (hs : List (Nat × Nat)) : Nat × Nat :=
  hs.foldl (fun a h => if a.1 < h.1 then h else a) (hs.headD (0, 0))

/-- A solver register now. -/
def slvNow (l : Landing) (o : Nat) : Nat :=
  let v := l.slv
  let hs := slvHolds l
  match o with
  | 0x00 => slvJobs l.fmn.img + slvMats l.fmn.img * 256 + b2n (!hs.isEmpty) * 65536 + b2n v.expired * 131072
  | 0x08 => let h := longestHold hs; h.1 + h.2 * 256
  | 0x0C => lo32 v.nan.toNat
  | 0x10 => hi32 v.nan.toNat
  | 0x14 => v.stallAt
  | _ =>
    let t := v.job ((o - 0x100) / 4)
    t.status + b2n t.hold.isSome * 8 + b2n t.committed.isSome * 16 + t.nans * 256 + t.missed * 65536

/-- The offsets of the registers that change at the tick. -/
def slvOffsets : List Nat := [0x00, 0x08, 0x0C, 0x10, 0x14] ++ (List.range 32).map (fun n => 0x100 + 4 * n)

def regSlv (s : State) (x : Side) (o : Nat) : Nat :=
  if o = 4 then Tab.get 0 (s.ld x).events 0x06 else Tab.get 0 (s.ld x).slv.shown o

/-! ### Control engine, 0x3007_0000 (08 R336 to R340) -/

def kindCtl (o : Nat) : RegKind :=
  if o = 0 then .ro else if o = 4 then .w1c else if o = 8 then .rc
  else if 0x400 ≤ o && o < 0x800 then .ro
  else if (0x800 ≤ o && o < 0xC00) || 0x1000 ≤ o then .range
  else .unassigned

/-- Loop `n`. -/
def Ctl.loop (c : Ctl) (n : Nat) : CtlLoop := Tab.get {} c.loops n

/-- Actuating loops are disabled (08 R321). -/
def ctlDisabled (s : State) : Bool := s.mode ≤ 1 || s.arb.adrift

/-- A control register now. -/
def ctlNow (s : State) (l : Landing) (o : Nat) : Nat :=
  let c := l.ctl
  let m := l.fmn.img
  let hdr := fun (k n : Nat) => if (enginePart m 7).isNone then 0 else le m (partOff m 7 + k) n
  if o = 0 then
    hdr 0 2 + hdr 4 1 * 65536 + b2n (c.loops.any (fun e => e.2.fade.isSome)) * 2 ^ 24
      + b2n (c.loops.any (fun e => e.2.pend.isSome)) * 2 ^ 25 + b2n (l.fmn.loaded && ctlDisabled s) * 2 ^ 26
  else
    let t := c.loop ((o - 0x400) / 4)
    let f := fun (b : Nat) => b2n (bitOf t.flags b)
    t.bank + b2n t.fade.isSome * 2 + b2n t.pend.isSome * 4 + t.pend.elim 0 (fun p => p.1) * 8 + f 0 * 16 + f 1 * 32 + f 3 * 64
      + f 8 * 128 + f 9 * 256 + t.fade.elim 0 (fun p => p.1 - p.2) * 65536

/-- The offsets of the registers that change at the tick. -/
def ctlOffsets : List Nat := 0 :: (List.range 256).map (fun n => 0x400 + 4 * n)

def regCtl (s : State) (x : Side) (o : Nat) : Nat :=
  let l := s.ld x
  if o = 4 then Tab.get 0 l.events 0x07
  else if o = 8 then l.ctl.writes + l.ctl.swaps * 65536
  else if 0x800 ≤ o then (peek32 l (0x30070000 + o)).toNat
  else Tab.get 0 l.ctl.shown o

/-! ### Axis engine, 0x3008_0000 (09 R380 to R385) -/

def kindAxe (o : Nat) : RegKind :=
  if o = 4 then .w1c
  else if o ≤ 0x14 then .ro
  else if (0x40 ≤ o && o < 0x80) || (0x100 ≤ o && o < 0x200) then .ro
  else if (0x800 ≤ o && o < 0x808) || (0x1000 ≤ o && o < 0x1400) || (0x2000 ≤ o && o < 0x2840) || (0x3000 ≤ o && o < 0x7800) then .range
  else .unassigned

/-- Axis `a`, bus `b`. -/
def Axe.axis (e : Axe) (a : Nat) : Axis := Tab.get {} e.axes a
def Axe.bus (e : Axe) (b : Nat) : AxeBus := Tab.get {} e.buses b

/-- The image offsets of the axis descriptors; the descriptor of axis `a` (09 R375, R376). -/
def axeDescs (m : Tab Byte) : List Nat :=
  if (enginePart m 8).isNone then []
  else (List.range (le m (partOff m 8) 1)).map (fun i => partOff m 8 + 160 + 192 * i)
def axeDesc (m : Tab Byte) (a : Nat) : Option Nat := (axeDescs m).find? (fun o => le m o 1 = a)

/-- The latched inputs as a mask. -/
def latchMask (e : Axe) : Nat := e.latched.foldl (fun v i => v + b2n i.2 * 2 ^ i.1) 0

/-- An axis register now. -/
def axeNow (s : State) (l : Landing) (o : Nat) : Nat :=
  let e := l.axe
  let m := l.fmn.img
  let ds := axeDescs m
  match o with
  | 0x00 =>
    ds.length + (ds.filter (fun d => le m (d + 1) 1 = 1)).length * 256 + b2n (e.axes.any (fun a => a.2.st = 5)) * 65536
      + b2n (e.latched.any (fun i => i.2)) * 2 ^ 17 + b2n (e.axes.any (fun a => a.2.queued.isSome)) * 2 ^ 18
      + b2n (!ds.isEmpty && (List.range 4).any (fun b => (e.bus b).stale)) * 2 ^ 19
  | 0x08 => lo32 (latchMask e)
  | 0x0C => hi32 (latchMask e)
  | 0x10 => lo32 e.inputs
  | 0x14 => hi32 e.inputs
  | _ =>
    if o < 0x80 then
      let n := (o - 0x40) / 16
      let b := e.bus n
      let queued := (e.axes.filter (fun a => a.2.queued.isSome && (axeDesc m a.1).elim false (fun d => le m (d + 6) 1 = n))).length
      match o % 16 with
      | 0 => min 0xFFFFFFFF b.limit
      | 4 => min 0xFFFFFFFF b.budget.toNat
      | 8 => min 0xFFFFFFFF b.u
      | _ => b2n (!ds.isEmpty && b.stale) + queued * 256 + b.last.elim 0 (fun t => min 0xFFFF ((s.nowNs - t) / 100000000)) * 65536
    else
      let a := e.axis ((o - 0x100) / 4)
      if (axeDesc m ((o - 0x100) / 4)).isNone then 0
      else
        let f := fun (b : Nat) => b2n (bitOf a.flags b)
        a.st + b2n a.referenced * 8 + f 4 * 16 + f 5 * 32 + b2n a.stall * 64 + b2n a.currentLow * 128 + b2n a.startOk * 256
          + f 10 * 512 + b2n ((a.st = 3 || a.st = 4 || a.st = 6) && a.kept.isSome
            && (axeDesc m ((o - 0x100) / 4)).elim false (fun d => le m (d + 2) 1 = 1)) * 1024 + a.phase * 65536
          + min 255 a.nanCount * 2 ^ 24

/-- The offsets of the registers that change at the tick. -/
def axeOffsets : List Nat :=
  [0x00, 0x08, 0x0C, 0x10, 0x14] ++ (List.range 16).map (fun n => 0x40 + 4 * n) ++ (List.range 64).map (fun n => 0x100 + 4 * n)

def regAxe (s : State) (x : Side) (o : Nat) : Nat :=
  let l := s.ld x
  if o = 4 then Tab.get 0 l.events 0x08
  else if 0x800 ≤ o then (peek32 l (0x30080000 + o)).toNat
  else Tab.get 0 l.axe.shown o

/-! ### Cable arbiter, 0x400D_0000 (10 R412 to R418) -/

def kindCbl (o : Nat) : RegKind := if o = 4 then .w1c else if o = 0xC then .rc else if o ≤ 0x34 then .ro else .unassigned

/-- A STANDBY landing is compared (10 R398, R410): not while the landings run different manifests. -/
def State.comparing (s : State) : Bool :=
  s.activeSide.isSome && (s.roleA = .standby || s.roleB = .standby)
    && s.arb.change.elim true (fun c => c.stage ≤ 1 || c.count = 0)

/-- A manifest change window is open (10 R410): from the start of the new manifest. -/
def State.windowOpen (s : State) : Bool := s.arb.change.elim false (fun c => c.stage = 3 || 0 < c.count)

/-- Crossings of the running or last resynchronisation (10 R417). -/
def State.resyncCrossings (s : State) : Nat :=
  match s.arb.resync with
  | some r => min 64 ((s.ld r.side.other).fmn.crossing - r.start)
  | none => s.arb.resyncCount

def regCbl (s : State) (o : Nat) : Nat :=
  let a := s.arb
  match o with
  | 0x00 =>
    roleNum s.roleA + roleNum s.roleB * 16 + a.preferred.num * 256 + b2n s.comparing * 512 + b2n s.windowOpen * 1024
      + b2n a.resync.isSome * 2048 + b2n a.returnHeld * 4096 + b2n a.adrift * 8192 + b2n s.bank1 * 16384 + b2n s.bank2 * 32768
  | 0x04 => Tab.get 0 s.events 0x0D
  | 0x08 => min 0xFFFFFFFF a.agree
  | 0x0C => a.mismatches
  | 0x10 =>
    a.vLeg + a.vRow * 16 + b2n a.vAccA * 256 + b2n a.vAccB * 512 + b2n a.vOutA * 1024 + b2n a.vOutB * 2048 + a.vFailed * 4096
  | 0x14 => lo32 a.vXing
  | 0x18 => lo32 a.digA.toNat
  | 0x1C => hi32 a.digA.toNat
  | 0x20 => lo32 a.digB.toNat
  | 0x24 => hi32 a.digB.toNat
  | 0x28 => a.codeA + a.codeB * 65536
  | 0x2C => s.resyncCrossings + b2n a.resyncFailed * 128 + min 0xFFFF a.finalKb * 65536
  | 0x30 => a.cause
  | 0x34 => a.failovers % 65536 + a.failbacks % 65536 * 65536
  | _ => 0

/-! ### Slipway, 0x3012_0000, and Deckhand, 0x3013_0000 (01 R46, R47, 11 R443 to R446) -/

def kindSlw (o : Nat) : RegKind :=
  if o = 8 then .w1c
  else if o = 0 || o = 4 || (0x10 ≤ o && o < 0x20) || (0x40 ≤ o && o < 0x70) then .ro
  else .unassigned

def regSlw (l : Landing) (o : Nat) : Nat :=
  let w := l.slw
  if o = 0 then
    w.stage + w.failedBefore % 4 * 16 + b2n w.cold * 64 + w.bank * 256 + b2n w.otherBank * 512 + b2n w.slow * 1024
      + b2n w.remap1 * 2048 + b2n w.short * 4096 + b2n w.skip * 8192 + b2n w.fallback * 16384 + b2n w.fw1 * 32768
      + b2n w.alone * 65536
  else if o = 4 then lo32 w.duration
  else if o = 8 then Tab.get 0 l.events 0x12
  else if 0x10 ≤ o && o < 0x20 then w.record.getD ((o - 0x10) / 4) 0
  else if 0x40 ≤ o && o < 0x70 then lo32 (Tab.get 0 w.times ((o - 0x40) / 4))
  else 0

def kindDkh (o : Nat) : RegKind := if o = 0x10 then .w1c else if o < 0x10 then .ro else .unassigned

def regDkh (s : State) (x : Side) (o : Nat) : Nat :=
  let l := s.ld x
  let d := s.dkh
  match o with
  | 0x00 =>
    x.num + roleNum (s.role x) * 2 + s.mode * 256 + b2n s.arb.adrift * 2048
      + l.shownTrim % 4 * 4096 + l.shownPeriod % 4 * 16384 + d.fusion * 65536
  | 0x04 => Config.fwMinor.toNat + Config.fwMajor.toNat * 65536
  | 0x08 => s.mode + d.previous * 16 + d.cause * 256 + d.part * 65536
  | 0x0C => lo32 d.xing
  | 0x10 => Tab.get 0 l.events 0x13
  | _ => 0

/-! ### Bollard, 0x400E_0000 (13 R525 to R534) -/

def kindBol (o : Nat) : RegKind :=
  if o = 4 then .w1c
  else if o = 0 || o = 8 || o = 0xC || o = 0x10 || o = 0x14 || o = 0x18 then .ro
  else if 0x40 ≤ o && o < 0xC0 then .ro
  else if 0xC0 ≤ o && o < 0xE0 then .rc
  else if 0x100 ≤ o && o < 0x140 then .ro
  else if (0x1000 ≤ o && o < 0x1424) || (0x1800 ≤ o && o < 0x1C24) then .ro
  else .unassigned

/-- The objects of the Bollard by number; an output channel by 2o + k − 1. -/
def Bollard.fn (b : Bollard) (k : Nat) : BolFn := Tab.get {} b.fns k
def Bollard.inp (b : Bollard) (n : Nat) : BolInp := Tab.get {} b.inps n
def Bollard.chan (b : Bollard) (i : Nat) : BolChan := Tab.get {} b.chans i
def Bollard.out (b : Bollard) (o : Nat) : BolOut := Tab.get {} b.outs o
def Bollard.och (b : Bollard) (i : Nat) : BolOutCh := Tab.get {} b.outCh i
def Bollard.enc (b : Bollard) (e : Nat) : BolEnc := Tab.get {} b.encs e
def Bollard.conn (b : Bollard) (c : Nat) : BolConn := Tab.get {} b.conns c

/-- `n` bytes of a block from offset `o`, as a number; a missing block reads 0 (13 R534). -/
def bolNum (b : List Byte) (o n : Nat) : Nat := ofLe ((b.drop o).take n)

/-- A connection that receives (13 R498). -/
def bolReceives (b : List Byte) (c : Nat) : Bool := bolNum b (0x120 + 32 * c) 1 % 4 == 3

/-- A mask over the numbers below `n`. -/
def maskFn (n : Nat) (f : Nat → Bool) : Nat := (List.range n).foldl (fun v i => v + b2n (f i) * 2 ^ i) 0

/-- A fault is latched on output `o` (13 R510). -/
def Bollard.faulted (b : Bollard) (o : Nat) : Bool :=
  let c := fun (i : Nat) => (b.och i).excess || (b.och i).read || (b.och i).open_
  c (2 * o) || c (2 * o + 1) || (b.out o).fb

/-- Function `k` is used and its state satisfies `f`; the states of R503. -/
def Bollard.used (b : Bollard) (k : Nat) : Bool := bolNum b.block (0x220 + 32 * k) 1 ≠ 0
def Bollard.fmask (b : Bollard) (f : Nat → Bool) : Nat := maskFn 16 (fun k => b.used k && f (b.fn k).st)

def regBol (s : State) (o : Nat) : Nat :=
  let b := s.bol
  if o = 0 then
    b.gen + b2n (b.live && b.gen ≠ 0) * 256 + b2n b.trial * 512 + b2n b.adrift * 1024 + b2n b.single * 2048 + b2n b.lock * 4096
  else if o = 4 then Tab.get 0 s.events 0x0E
  else if o = 8 then b.ssw + b.sswLive * 65536
  else if o = 0xC then b.fmask (fun c => c = 1 || c = 4) + b.fmask (· = 3) * 65536
  else if o = 0x10 then b.fmask (· = 2) + b.fmask (· = 4) * 65536
  else if o = 0x14 then
    maskFn 8 (fun i => (b.och (2 * i)).on) + maskFn 8 (fun i => (b.och (2 * i + 1)).on) * 256 + maskFn 8 b.faulted * 65536
  else if o = 0x18 then maskFn 32 (fun i => (b.chan i).filt)
  else if 0x40 ≤ o && o < 0x80 then
    let n := (o - 0x40) / 4
    Tab.get 0 b.pinBad n + 4 * Tab.get 0 b.pinBad (16 + n) + b2n (b.inp n).latched * 16
  else if 0x80 ≤ o && o < 0xA0 then
    let n := (o - 0x80) / 4
    let f := fun (c : BolOutCh) => b2n c.excess + b2n c.read * 2 + b2n c.open_ * 4
    f (b.och (2 * n)) + f (b.och (2 * n + 1)) * 8 + b2n (b.out n).fb * 64 + (b.out n).passed * 256 + (b.out n).void * 65536
  else if 0xA0 ≤ o && o < 0xC0 then
    let e := b.enc ((o - 0xA0) / 8)
    uval 32 (if o % 8 = 0 then e.n1 else e.n2)
  else if 0xC0 ≤ o && o < 0xE0 then
    let c := (o - 0xC0) / 4
    let k := b.conn c
    (if bolReceives b.block c then k.st else 0) + k.crc * 256 + k.seqErr * 65536 + k.fmt * 2 ^ 24
  else if 0x100 ≤ o && o < 0x140 then
    let k := b.fn ((o - 0x100) / 4)
    k.st + k.cause * 256 + (if k.st = 2 then (k.stopAt - b.cycle) * 65536 else 0)
  else if 0x1000 ≤ o && o < 0x1424 then bolNum b.block (o - 0x1000) 4
  else if 0x1800 ≤ o && o < 0x1C24 then bolNum b.staged (o - 0x1800) 4
  else 0

/-- A read of `BOL_TELc` clears its counts to what came in its own cycle, `v` in the register's layout (13 R533). -/
def clearBol (o v : Nat) (s : State) : State :=
  if 0xC0 ≤ o && o < 0xE0 then
    { s with bol :=
      { s.bol with conns := Tab.upd {} s.bol.conns ((o - 0xC0) / 4) (fun c =>
        { c with crc := bits v 15 8, seqErr := bits v 23 16, fmt := bits v 31 24 }) } }
  else s

/-! ### CAN ports, 0x300A_0000 (14 R559 to R569) -/

def kindCan (o : Nat) : RegKind :=
  if o = 0 then .ro else if o = 4 then .w1c
  else if 0x100 ≤ o && o < 0x200 then
    let k := o % 0x20
    if k = 8 || k = 0xC || k = 0x10 then .rc else if k = 0 || k = 4 || k = 0x14 then .ro else .unassigned
  else if 0x200 ≤ o && o < 0x400 then .ro
  else if (0x800 ≤ o && o < 0x3800) || 0x4000 ≤ o then .range
  else .unassigned

/-- The controller of port `p`; its port record. -/
def Can.port (c : Can) (p : Nat) : CanCtl := Tab.get {} c.ports p
def State.canPort (s : State) (p : Nat) : CanPort := Tab.get {} s.canRec p

/-- The descriptor of CAN port `p` in the CAN part (14 R559). -/
def canDesc (m : Tab Byte) (p : Nat) : Option Nat :=
  match enginePart m 0x0A with
  | none => none
  | some (o, _) => ((List.range 8).map (fun i => o + 64 * i)).find? (fun d => le m d 1 = p)

/-- The mode of a CAN port; 0 for one not configured. -/
def canMode (m : Tab Byte) (p : Nat) : Nat := (canDesc m p).elim 0 (fun d => le m (d + 1) 1)

/-- What the port records show after they are mirrored at a tick (14 R538): isolation at 0, bus-off at 1, reference messages at 8 + p, the
suppressed lists from 16. -/
def canMirror (s : State) : Tab Nat :=
  let ps := List.range 8
  let t := Tab.set 0 [] 0 (ps.foldl (fun v p => v + b2n (s.canPort p).isolated * 2 ^ p) 0)
  let t := Tab.set 0 t 1 (ps.foldl (fun v p => v + (s.canPort p).off * 4 ^ p) 0)
  ps.foldl (fun t p =>
    let r := s.canPort p
    let t := Tab.set 0 t (8 + p) (r.cycle + b2n r.refDisc * 64 + r.refSent * 65536)
    (List.range 16).foldl (fun t i => Tab.set 0 t (16 + 16 * p + i) ((r.supp.getD i 0) + b2n (i < r.supp.length) * 2 ^ 30)) t) t

/-- This landing's controllers are in bus monitoring (14 R537). -/
def canMonitors (s : State) (x : Side) : Bool := s.role x = .standby || s.role x = .unsync

def regCan (s : State) (x : Side) (o : Nat) : Nat :=
  let l := s.ld x
  let m := l.fmn.img
  let ps := List.range 8
  let sh := fun (i : Nat) => Tab.get 0 l.can.shown i
  let off := fun (p : Nat) => sh 1 / 4 ^ p % 4
  if o = 0 then
    ps.foldl (fun v p => v + b2n (canMode m p ≠ 0) * 2 ^ p + b2n (off p ≠ 0) * 2 ^ (16 + p)
      + b2n (l.can.port p).passive * 2 ^ (24 + p)) (sh 0 * 256)
  else if o = 4 then Tab.get 0 l.events 0x0A
  else if o < 0x200 then
    let p := (o - 0x100) / 0x20
    let c := l.can.port p
    match o % 0x20 with
    | 0x00 =>
      canMode m p + (if off p ≠ 0 then off p else b2n c.passive) * 4 + b2n (bitOf (sh 0) p) * 16
        + b2n (canMonitors s x && canMode m p ≠ 0) * 32 + min 255 c.tec * 256 + min 255 c.rec_ * 65536
        + ((List.range 16).filter (fun i => bitOf (sh (16 + 16 * p + i)) 30)).length * 2 ^ 24
    | 0x04 => (List.range 16).foldl (fun v b => v + b2n (Tab.get none c.pend b).isSome * 2 ^ b) 0
    | 0x08 => c.sent + c.posted * 65536
    | 0x0C => c.bit + c.stuff * 256 + c.crc * 65536 + c.ack * 2 ^ 24
    | 0x10 => c.last + b2n c.lastData * 8 + c.dropped * 65536
    | _ => sh (8 + p)
  else if o < 0x400 then sh (16 + (o - 0x200) / 4)
  else (peek32 l (0x300A0000 + o)).toNat

/-- A read of a CAN register that clears on read (14 R564 to R566) leaves what came in its own cycle, `v` in the register's layout. -/
def clearCan (o v : Nat) (c : Can) : Can :=
  { c with ports := Tab.upd {} c.ports ((o - 0x100) / 0x20) (fun k =>
      match o % 0x20 with
      | 0x08 => { k with sent := bits v 15 0, posted := bits v 31 16 }
      | 0x0C => { k with bit := bits v 7 0, stuff := bits v 15 8, crc := bits v 23 16, ack := bits v 31 24 }
      | 0x10 => { k with dropped := bits v 31 16 }
      | _ => k) }

/-! ### Ethernet and module time, 0x300B_0000 (15 R593 to R601) -/

def kindEth (o : Nat) : RegKind :=
  if o = 4 then .w1c
  else if o = 0x18 then .rc
  else if o = 0 || o = 8 || o = 0xC || o = 0x10 then .ro
  else if 0x100 ≤ o && o < 0x180 then
    let k := o % 0x20
    if k ≤ 4 then .rc else if k ≤ 0x10 then .ro else .unassigned
  else if 0x200 ≤ o && o < 0x240 then .ro
  else if 0x1000 ≤ o && o < 0xD000 then .range
  else .unassigned

/-- Port `p`; time base `b`. -/
def Eth.port (e : Eth) (p : Nat) : EthPort := Tab.get {} e.ports p
def State.tb (s : State) (b : Nat) : TimeBase := Tab.get {} s.tbs b

/-- A field of the Ethernet part's header; the offset of a time base's descriptor (15 R593). -/
def ethHdr (m : Tab Byte) (k n : Nat) : Nat := if (enginePart m 0x0B).isNone then 0 else le m (partOff m 0x0B + k) n
def tbDesc (m : Tab Byte) (b : Nat) : Nat := partOff m 0x0B + 64 + 512 + 32 * b

/-- The offsets of the registers that change at the tick. -/
def ethOffsets : List Nat :=
  [0, 0x18] ++ (List.range 4).flatMap (fun p => [0x100 + 0x20 * p, 0x104 + 0x20 * p, 0x108 + 0x20 * p])
    ++ (List.range 16).map (fun n => 0x200 + 4 * n)

def regEth (s : State) (x : Side) (o : Nat) : Nat :=
  let l := s.ld x
  if o = 4 then (Tab.get 0 l.events 0x0B) ||| (Tab.get 0 s.events 0x0B)
  else if o = 8 then lo32 s.nowNs
  else if o = 0xC then hi32 s.nowNs
  else if o = 0x10 then s.now % 65536
  else if 0x100 ≤ o && o < 0x180 && (o % 0x20 = 0x0C || o % 0x20 = 0x10) then
    let v := (l.eth.port ((o - 0x100) / 0x20)).txStamp / nsUnit
    if o % 0x20 = 0x0C then lo32 v else hi32 v
  else if 0x1000 ≤ o then (peek32 l (0x300B0000 + o)).toNat
  else Tab.get 0 l.eth.shown o

/-- A read of an Ethernet register that clears on read (15 R598, R599): what it showed is taken off the counts. -/
def clearEth (o : Nat) (e : Eth) : Eth :=
  let v := Tab.get 0 e.shown o
  let f := fun (lo n : Nat) => v / 2 ^ lo % 2 ^ n
  let e := { e with shown := Tab.set 0 e.shown o 0 }
  if o = 0x18 then
    { e with paired := e.paired - f 0 8, single := e.single - f 8 8, differ := e.differ - f 16 8, late := e.late - f 24 8 }
  else
    { e with ports := Tab.upd {} e.ports ((o - 0x100) / 0x20) (fun p =>
        if o % 0x20 = 0 then { p with rx := p.rx - f 0 16, rxErr := p.rxErr - f 16 16 }
        else { p with tx := p.tx - f 0 16, txDrop := p.txDrop - f 16 16 }) }

/-! ### Supplies and pins, 0x4011_0000 (18 R705 to R710) -/

def kindSup (o : Nat) : RegKind := if o = 4 then .w1c else if o ≤ 0x30 then .ro else .unassigned

def regSup (s : State) (o : Nat) : Nat :=
  let p := s.sup
  let tp := p.tpIn.getD 0
  match o with
  | 0x00 =>
    b2n p.aOk + b2n p.bOk * 2 + b2n p.aRev * 4 + b2n p.bRev * 8 + b2n p.field * 16 + b2n p.landA * 32 + b2n p.landB * 64
      + b2n p.bank1 * 128 + b2n p.bank2 * 256 + b2n (p.hotA || p.hotB) * 512
  | 0x04 => Tab.get 0 s.events 0x11
  | 0x08 => p.va.toNat
  | 0x0C => p.vb.toNat
  | 0x10 => p.tempA.toNat + p.tempB.toNat * 256 + p.tempC.toNat * 65536 + p.tempBase.toNat * 2 ^ 24
  | 0x14 => p.stepShort
  | 0x18 => p.stepOpen
  | 0x1C => lo32 p.axin
  | 0x20 => hi32 p.axin
  | 0x24 => p.enc + p.can * 65536 + b2n p.tp0 * 2 ^ 24 + b2n p.tp1 * 2 ^ 25 + b2n p.refPresent * 2 ^ 26
  | 0x28 => lo32 (tp / nsUnit)
  | 0x2C => hi32 (tp / nsUnit)
  | 0x30 => tp % nsUnit
  | _ => 0

/-! ### The map (01 R40, R41) -/

/-- The unit of an address in a register block: a landing's block or the cable die's. -/
def regUnit (a : Nat) : Option Nat :=
  let c := a / 65536
  if 0x3001 ≤ c && c ≤ 0x300C then some (c - 0x3000)
  else if c = 0x3012 || c = 0x3013 then some (c - 0x3000)
  else if 0x400D ≤ c && c ≤ 0x4011 then some (c - 0x4000)
  else none

/-- How the register at `a` may be accessed; none outside every register block (01 R40, R41). A block whose chapter gives no register
has unassigned offsets only. -/
def regKindAt (a : Nat) : Option RegKind :=
  let o := a % 65536
  (regUnit a).map (fun u =>
    match u with
    | 0x01 => kindFmn o
    | 0x03 => kindSch o
    | 0x04 => kindGns o
    | 0x05 => kindFus o
    | 0x06 => kindSlv o
    | 0x07 => kindCtl o
    | 0x08 => kindAxe o
    | 0x09 => kindMem o
    | 0x0A => kindCan o
    | 0x0B => kindEth o
    | 0x0C => kindPur o
    | 0x0D => kindCbl o
    | 0x0E => kindBol o
    | 0x0F => kindRtc o
    | 0x10 => kindLog o
    | 0x11 => kindSup o
    | 0x12 => kindSlw o
    | 0x13 => kindDkh o
    | _ => .unassigned)

/-- What the register at `a` shows requester `r`, on landing `x`; an unassigned offset reads 0 (00 R15). -/
def regValue (s : State) (r : Requester) (x : Side) (a : Nat) : Nat :=
  let o := a % 65536
  if regKindAt a = some .unassigned then 0 else match regUnit a with
  | some 0x01 => regFmn s x o
  | some 0x03 => regSch s x o
  | some 0x04 => regGns s x o
  | some 0x05 => regFus s x o
  | some 0x06 => regSlv s x o
  | some 0x07 => regCtl s x o
  | some 0x08 => regAxe s x o
  | some 0x09 => regMem s x o
  | some 0x0A => regCan s x o
  | some 0x0B => regEth s x o
  | some 0x0C => regPur s o
  | some 0x0D => regCbl s o
  | some 0x0E => regBol s o
  | some 0x0F => regRtc s r o
  | some 0x10 => regLog s o
  | some 0x11 => regSup s o
  | some 0x12 => regSlw (s.ld x) o
  | some 0x13 => regDkh s x o
  | _ => 0

/-- Byte `i` of the OTP window (00 R3, R712): the identity record and the factory trim data. -/
def otpAt (i : Nat) : Byte :=
  if i < 24 then
    (leBytes 4 0x256 ++ [Config.hwMinor, 1, 0, 0] ++ leBytes 8 Config.serial.toNat ++ leBytes 4 Config.mfgDate.toNat ++ leBytes 4 1).getD i 0
  else Config.otpByte i

end Sys2Proof.Machine
end

