-- ==== Sys2Proof/Machine/Axes.lean ====
section
/-!
DEFINITION. The axis engine (chapter 09): updates, stops, limits, homing, stall, step segments, the start ledger.
-/
namespace Sys2Proof.Machine

/-! ### Configuration (09 R375, R376) -/

/-- Fields of an axis descriptor at image offset `o`. -/
def aFlag (m : Tab Byte) (o b : Nat) : Bool := bitOf (le m (o + 3) 1) b
def aF64 (m : Tab Byte) (o k : Nat) : F64 := BitVec.ofNat 64 (le m (o + k) 8)
def aF32 (m : Tab Byte) (o k : Nat) : F32 := BitVec.ofNat 32 (le m (o + k) 4)
def aStep (m : Tab Byte) (o : Nat) : Bool := le m (o + 1) 1 = 1
def aPos (m : Tab Byte) (o : Nat) : Bool := le m (o + 2) 1 = 1
def aBus (m : Tab Byte) (o : Nat) : Option Nat := if le m (o + 6) 1 ≤ 3 then some (le m (o + 6) 1) else none
def aScale (m : Tab Byte) (o : Nat) : F64 := aF64 m o 8
def aPower (m : Tab Byte) (o : Nat) : Nat := le m (o + 0x9C) 4
def aLim (m : Tab Byte) (o : Nat) : AxeLim :=
  { v := aF64 m o 0x10, a := aF64 m o 0x18, d := aF64 m o 0x20, j := aF64 m o 0x28, df := aF64 m o 0x30, jf := aF64 m o 0x38 }

/-- An input of an axis, 0xFF for none; its homing reference input. -/
def aIn (m : Tab Byte) (o k : Nat) : Option Nat := if le m (o + k) 1 ≤ 63 then some (le m (o + k) 1) else none
def aRef (m : Tab Byte) (o : Nat) : Option Nat :=
  match le m (o + 0x5B) 1 with
  | 0 => aIn m o 0x5A
  | 1 => aIn m o 0x58
  | _ => aIn m o 0x59

/-- The update period of an axis in ns. -/
def aPeriod (m : Tab Byte) (o per : Nat) : Nat := 2 ^ le m (o + 4) 1 * per

/-- Field `k` of bus entry `b` (09 R375). -/
def busFld (m : Tab Byte) (b k : Nat) : Nat := le m (partOff m 8 + 32 + 32 * b + k) 4

/-- A position in units as Counts 48.16 (09 R350). -/
def toCounts (p scale : F64) : Int := F64.toInt (F64.mul p scale) 16 (-(2 ^ 63)) (2 ^ 63 - 1)

/-- The instant of the running crossing's tick, in ns. -/
def State.tickNs (s : State) (x : Side) : Nat := (s.grid x).last / nsUnit

/-- Axis `a` of landing `x` changed. -/
def State.modAxis (s : State) (x : Side) (a : Nat) (f : Axis → Axis) : State :=
  s.modLd x (fun l => { l with axe := { l.axe with axes := Tab.upd {} l.axe.axes a f } })

/-! ### Step generators (09 R357 to R360) -/

/-- The motion of a segment after `c` cycles, in 2^-48 counts (09 R357, R358). -/
def segRun (g : AxeSeg) (c : Nat) : Int :=
  let e := c - g.idle
  g.k * (e : Int) + (if g.neg then -((min e g.r : Nat) : Int) else ((min e g.r : Nat) : Int))

/-- One count of the accumulator. -/
def accCount : Int := 2 ^ 48

/-- A segment run on to instant `t`: the accumulator, the segment, the steps taken. -/
def runSeg (t : Nat) (acc : Int) (g : AxeSeg) : Int × AxeSeg × Int :=
  let c := min g.n ((t - g.start) / 10)
  let acc' := acc + (segRun g c - segRun g g.done)
  (acc', { g with done := c }, acc' / accCount - acc / accCount)

/-- The instant in ns of the last step of a segment up to `t`, where it takes one (09 R357, R359): the end of the first cycle in which the
accumulator, which stands at `acc` when `g.done` cycles have run, has the whole part it has at `t`. -/
def segLast (t : Nat) (acc : Int) (g : AxeSeg) : Nat :=
  let a0 := acc - segRun g g.done
  let f := (a0 + segRun g (min g.n ((t - g.start) / 10))) / accCount
  let need := (if g.neg then a0 - (f + 1) * accCount + 1 else f * accCount - a0).toNat
  let k := g.k.natAbs
  let e := if need ≤ (k + 1) * g.r then (need + k) / (k + 1) else g.r + (need - (k + 1) * g.r + k - 1) / k
  g.start + 10 * (g.idle + e)

/-- What an axis generated up to an instant: the steps of the segment that was running and of the one that started since, whether one
started, the sign of the last moving segment, and the instants of the last step of each. -/
structure StepRun where
  old : Int := 0
  new : Int := 0
  oldAt : Nat := 0
  newAt : Nat := 0
  started : Bool := false
  moved : Option Bool := none

/-- An axis's generator run on to instant `t` in ns. -/
def runAxis (t : Nat) (ax : Axis) : Axis × StepRun :=
  let mv := fun (g : AxeSeg) => if g.delta = 0 then none else some g.neg
  let r1 := match ax.seg with
    | none => (ax.acc, none, (0 : Int))
    | some g => let r := runSeg t ax.acc g; (r.1, some r.2.1, r.2.2)
  let at1 := ax.seg.elim 0 (segLast t ax.acc)
  match ax.next with
  | none => ({ ax with acc := r1.1, seg := r1.2.1 }, { old := r1.2.2, oldAt := at1, moved := r1.2.1.bind mv })
  | some g =>
    if t < g.start then ({ ax with acc := r1.1, seg := r1.2.1 }, { old := r1.2.2, oldAt := at1, moved := r1.2.1.bind mv })
    else
      let r := runSeg t r1.1 g
      ({ ax with acc := r.1, seg := some r.2.1, next := none },
       { old := r1.2.2, new := r.2.2, oldAt := at1, newAt := segLast t r1.1 g, started := true, moved := (mv g).or (r1.2.1.bind mv) })

/-- The steps of output `n` that reach its pin, and the pin's state after them (18 R686, R694). Log entry 68 (DEDUCED, unsafe). -/
def pinsStep (n : Nat) (r : StepRun) (p : StepPins) : StepPins :=
  let skip := bitOf p.skip n
  let p := if skip && r.started then { p with skip := p.skip - 2 ^ n } else p
  if bitOf p.off n then p
  else
    let d := if skip then (if r.started then r.new else 0) else r.old + r.new
    { p with
      steps := Tab.upd 0 p.steps n (· + d)
      last := if r.new ≠ 0 then Tab.set 0 p.last n r.newAt else if !skip && r.old ≠ 0 then Tab.set 0 p.last n r.oldAt else p.last
      neg := match r.moved with
        | some b => Tab.set false p.neg n b
        | none => p.neg }

/-- Every generator of landing `x` run on to now. The steps of the active landing reach the pins outside Adrift; those that the other
landing makes in a fail-over gap are counted (09 R360, 10 R400, R403). -/
def runAxes (x : Side) (s : State) : State :=
  (s.ld x).axe.axes.foldl (fun s q =>
    let r := runAxis s.nowNs ((s.ld x).axe.axis q.1)
    let s := s.modAxis x q.1 (fun _ => r.1)
    match s.arb.gap with
    | some g => if x = g.1.other then s.modArb (fun b => { b with gapSteps := Tab.upd 0 b.gapSteps q.1 (· + (r.2.old + r.2.new)) }) else s
    | none => if s.passes x && !s.arb.adrift then { s with pins := pinsStep q.1 r.2 s.pins } else s) s

/-- The steps of a fail-over gap handed to the new active landing (09 R360): its accumulators stand where the pins do, and the missing
counts go to the first segment that starts after the gap. Log entry 68 (DEDUCED, unsafe). -/
def takeGapSteps (x : Side) (s : State) : State :=
  let s' := s.modArb (fun b => { b with gapSteps := [] })
  s.arb.gapSteps.foldl (fun s q =>
    raise (.landing x) 0x0812 q.1 (s.modAxis x q.1 (fun ax =>
      { ax with acc := ax.acc - q.2 * accCount, carry := ax.carry + q.2 * 65536 }))) s'

/-- |K| at its largest (09 R359). -/
def kMax : Nat := 11258999068425

/-- The segment of a motion `delta` over `n` cycles from instant `start` after a last sign, and the counts carried over (09 R357 to
R359). Log entry 66 (DEDUCED, unsafe). -/
def planSeg (start n tdir : Nat) (lastNeg : Bool) (delta : Int) : AxeSeg × Int :=
  let neg := decide (delta < 0)
  let idle := if delta ≠ 0 && neg ≠ lastNeg then tdir else 0
  let n' := n - idle
  let big := delta.natAbs * 2 ^ 32 / n' > kMax
  let d := if big then ((kMax + 1) * n' - 1) / 2 ^ 32 else delta.natAbs
  let k := d * 2 ^ 32 / n'
  let sg := fun (v : Nat) => if neg then -(v : Int) else (v : Int)
  ({ start := start, n := n, idle := idle, k := sg k, r := d * 2 ^ 32 - k * n', neg := neg, delta := sg d }, delta - sg d)

/-! ### Profiles in place (09 R349, R350, R355) -/

/-- Seconds from a plan's origin to an instant, in FP64. -/
def Axis.tau (ax : Axis) (t : Nat) : F64 := nsSec ((t : Int) - ax.origin)

/-- Position, velocity and acceleration at an instant: by the plan before the running one where the instant lies before its
origin. -/
def Axis.at_ (ax : Axis) (t : Nat) : AxePva :=
  if (t : Int) < ax.origin && !ax.was.isEmpty then profileAt ax.was (nsSec ((t : Int) - ax.wasOrigin)) else profileAt ax.plan (ax.tau t)

/-- The position at an instant in Counts 48.16. -/
def Axis.counts (ax : Axis) (scale : F64) (t : Nat) : Int := toCounts (ax.at_ t).p scale + ax.off

/-- The profile over at an instant, and how long it has been at rest, in ns. -/
def Axis.excess (ax : Axis) (t : Nat) : Bool := planOver ax.plan (ax.tau t)
def Axis.restNs (ax : Axis) (t : Nat) : Int :=
  let e := ax.plan.getLast?.elim 0 (fun k => F64.toInt (F64.mul k.t (fN 1000000000)) 0 (-(2 ^ 63)) (2 ^ 63 - 1))
  (t : Int) - ax.origin - e

/-- At rest at a position in counts from instant `t`; the time that it has been at rest goes on. -/
def Axis.restAt (ax : Axis) (scale : F64) (c : Int) (t : Nat) : Axis :=
  let p := F64.div (F64.ofDyadic c (-16)) scale
  let rest := if ax.excess t && F64.eq (ax.at_ t).v 0 then max 0 (ax.restNs t) else 0
  { ax with plan := planRest p, origin := (t : Int) - rest, was := [], off := c - toCounts p scale, planned := c, carry := 0 }

/-- The profile frozen at an instant (09 R355): a STEP axis where its accumulator stands, its segment ended; a NETWORK axis at its
profile position. -/
def Axis.freeze (ax : Axis) (m : Tab Byte) (o t : Nat) : Axis :=
  let c := if aStep m o then roundDiv ax.acc (2 ^ 32) + ax.shift else ax.counts (aScale m o) t
  let w : Axis := ax.restAt (aScale m o) c t
  { w with seg := none, next := none, stop := 0, phase := 0, replan := false }

/-- A new plan from the state at `t`, its origin later by `wake` (09 R349, R368). Log entry 66 (DEDUCED, unsafe). -/
def Axis.planFrom (ax : Axis) (plan : AxePva → List AxePiece) (t wake : Nat) : Axis :=
  { ax with plan := plan (ax.at_ t), origin := ((t + wake : Nat) : Int), was := ax.plan, wasOrigin := ax.origin, replan := false }

/-! ### Snapshot, limits (09 R361 to R363) -/

/-- Input `i` is active in a snapshot. -/
def inActive (m : Tab Byte) (snap i : Nat) : Bool := bitOf snap i != bitOf (le m (partOff m 8 + 8) 8) i

/-- Input `i` latches: some axis has it as a limit, other than one that is homing onto it. -/
def latches (m : Tab Byte) (e : Axe) (i : Nat) : Bool :=
  (axeDescs m).any (fun o => (aIn m o 0x58 = some i || aIn m o 0x59 = some i)
    && !((e.axis (le m o 1)).st = 5 && aRef m o = some i))

/-- Input `i` in a snapshot: latch, chatter, release count. -/
def latchInput (x : Side) (m : Tab Byte) (snap i : Nat) (s : State) : State :=
  let e := (s.ld x).axe
  let set := fun (v : Bool) (n : Nat) => s.modLd x (fun l => { l with axe := { l.axe with
    latched := Tab.set false l.axe.latched i v, clear := Tab.set 0 l.axe.clear i n } })
  let n := Tab.get 0 e.clear i
  if Tab.get false e.latched i then
    if inActive m snap i then
      if n = 0 then s else raisePerSecond (.landing x) 0x0802 i i (set true 0)
    else set true (n + 1)
  else if inActive m snap i && latches m e i then raise (.landing x) 0x0801 i (set true 0)
  else s

/-- The snapshot of the running crossing taken, once (09 R344, R362). -/
def axeSnapshot (x : Side) (snap : Nat) (s : State) : State :=
  let l := s.ld x
  if l.axe.snapped = some l.fmn.crossing then s
  else
    let s := s.modLd x (fun l => { l with axe := { l.axe with snapped := some l.fmn.crossing, inputs := snap } })
    (List.range 64).foldl (fun s i => latchInput x l.fmn.img snap i s) s

/-- A latched limit of an axis: limit+ at 0x58, limit− at 0x59. -/
def limitAt (m : Tab Byte) (e : Axe) (o k : Nat) : Bool := (aIn m o k).elim false (fun i => Tab.get false e.latched i)

/-! ### The parts of an update (09 R356) -/

/-- The target handled (09 R352, R374): the axis with its count and its target before the power clamp, whether it was held as NaN and
whether it was clamped. Log entry 65 (DEDUCED, unsafe). -/
def takeTarget (x : Side) (m : Tab Byte) (o a : Nat) (t : F64) (s : State) : State × Bool × Bool :=
  if !F64.finite t then
    let s := raisePerSecond (.landing x) 0x0809 a a s
    (s.modAxis x a (fun ax => { ax with nanCount := if aFlag m o 0 then satAdd 0xFF ax.nanCount 1 else 0 }), true, false)
  else
    let lo := if aPos m o then aF64 m o 0x40 else F64.neg (aF64 m o 0x10)
    let hi := if aPos m o then aF64 m o 0x48 else aF64 m o 0x10
    let c := if F64.lt t lo then lo else if F64.lt hi t then hi else t
    let cl := F64.lt t lo || F64.lt hi t
    let s := if cl then raisePerSecond (.landing x) 0x080B a a s else s
    (s.modAxis x a (fun ax => { ax with nanCount := 0, nanOver := false, asked := some c, kept := some c }), false, cl)

/-- A fault stop from the state at T1 (09 R354, R356): it replaces a stop whose deceleration is smaller. -/
def faultStop (L : AxeLim) (t : Nat) (ax : Axis) : Axis :=
  if ax.st = 4 || ax.stop = 2 || (ax.st = 3 && !F64.lt L.d L.df) then { ax with phase := 0 }
  else
    let w : Axis := ax.planFrom (planStop L true) t 0
    { w with st := 3, stop := 2, phase := 0, target := none }

/-- The stall criterion of an update (09 R366): none where it says nothing. -/
def stallMet (m : Tab Byte) (o : Nat) (v : F64) (fb : DWord) : Option Bool :=
  let phi : F32 := fb.extractLsb' 0 32
  let amp : F32 := fb.extractLsb' 32 32
  if !F32.finite phi || !F32.finite amp then none
  else
    let delta := F64.abs (normAngle (F32.widen phi))
    some (F64.lt (F32.widen (aF32 m o 0x80)) delta || F64.lt (F32.widen amp) (F64.mul (F32.widen (aF32 m o 0x84)) (F64.abs v)))

/-- The stall count and the stall (09 R366, R367). -/
def stallStep (x : Side) (m : Tab Byte) (o a t : Nat) (fb : DWord) (s : State) : State :=
  let ax := (s.ld x).axe.axis a
  let v := (ax.at_ t).v
  if !aStep m o || !aFlag m o 3 then s
  else if F64.lt (F64.abs v) (F32.widen (aF32 m o 0x88)) then s.modAxis x a (fun ax => { ax with stallCount := 0 })
  else match stallMet m o v fb with
    | none => s
    | some false => s.modAxis x a (fun ax => { ax with stallCount := 0 })
    | some true =>
      let n := ax.stallCount + 1
      let s := s.modAxis x a (fun ax => { ax with stallCount := n })
      if n < le m (o + 0x90) 2 then s
      else
        let s := s.modAxis x a (fun ax => faultStop (aLim m o) t { ax with stallCount := 0, stall := true, referenced := false })
        raise (.landing x) 0x0806 a s

/-- The limits of an axis in motion (09 R363) and the aborts of its homing (R365); in homing the axis's own reference is no limit. -/
def limitStep (x : Side) (m : Tab Byte) (o a t snap : Nat) (s : State) : State :=
  let e := (s.ld x).axe
  let ax := e.axis a
  let st := ax.at_ t
  let L := aLim m o
  let own := fun (k : Nat) => ax.st = 5 && aIn m o k = aRef m o
  let hit := (F64.lt 0 st.v && limitAt m e o 0x58 && !own 0x58) || (F64.lt st.v 0 && limitAt m e o 0x59 && !own 0x59)
  let other := ax.st = 5 && [0x58, 0x59].any (fun k => (aIn m o k).elim false (fun i => aIn m o k ≠ aRef m o && inActive m snap i))
  let far := ax.st = 5 && F64.lt (aF64 m o 0x78) (F64.abs (F64.sub st.p ax.homeFrom))
  let s := if other then raise (.landing x) 0x0803 a s else if far then raise (.landing x) 0x0804 a s else s
  if (hit && (ax.st = 2 || ax.st = 3 || ax.st = 5)) || other || far then
    s.modAxis x a (fun ax => faultStop L t { ax with referenced := ax.referenced && ax.st ≠ 5 })
  else s

/-- The delay of a plan's origin where `CURRENT_LOW` is set: t_wake in whole segments (09 R368). -/
def wakeNs (m : Tab Byte) (o seg : Nat) (low : Bool) : Nat :=
  if low then (le m (o + 0x9A) 2 * 1000 + seg - 1) / seg * seg else 0

/-- Homing (09 R364) at T1 with a snapshot sampled at `ts`. -/
def homeStep (x : Side) (m : Tab Byte) (o a t ts seg snap : Nat) (s : State) : State :=
  let ax := (s.ld x).axe.axis a
  let L := aLim m o
  let act := (aRef m o).elim false (inActive m snap)
  let dir := fun (v : F64) => if le m (o + 0x5C) 1 = 1 then v else F64.neg v
  if ax.phase = 1 then
    if act then
      s.modAxis x a (fun ax =>
        let w : Axis := ax.planFrom (fun p => planStopThen L p (F64.neg (dir (aF64 m o 0x68)))) t (wakeNs m o seg ax.currentLow)
        { w with phase := 2, currentLow := false })
    else if ax.replan then
      s.modAxis x a (fun ax =>
        let w : Axis := ax.planFrom (fun p => planVelocity L p (dir (aF64 m o 0x60))) t (wakeNs m o seg ax.currentLow)
        { w with currentLow := false })
    else s
  else if ax.phase = 2 then
    if act then s
    else s.modAxis x a (fun ax =>
      let w : Axis := ax.planFrom (planStop L false) t 0
      { w with phase := 3, homeRef := BitVec.ofInt 64 (ax.counts (aScale m o) ts) })
  else if ax.phase = 3 && ax.excess t then
    let d := toCounts (aF64 m o 0x70) (aScale m o) - ax.homeRef.toInt
    let c := ax.counts (aScale m o) t + d
    let s := s.modAxis x a (fun ax =>
      let w : Axis := ax.restAt (aScale m o) c t
      { w with carry := ax.carry, shift := ax.shift + d, st := 4, phase := 0, referenced := true, stall := false,
               kept := some (F64.div (F64.ofDyadic c (-16)) (aScale m o)), target := none })
    raise (.landing x) 0x0805 a s
  else s

/-- A stop asked for is planned; a stop that has ended leaves the axis STOPPED (09 R354). -/
def stopStep (m : Tab Byte) (o t : Nat) (ax : Axis) : Axis :=
  let ax : Axis := if ax.st = 3 && ax.stop = 1 then
      let w : Axis := ax.planFrom (planStop (aLim m o) false) t 0
      { w with stop := 3, target := none }
    else ax
  if ax.st = 3 && ax.excess t then { ax with st := 4, stop := 0 } else ax

/-- A READY axis plans toward its target (09 R349, R374, R363): whether the power clamp scaled it. -/
def followStep (m : Tab Byte) (e : Axe) (o a t seg : Nat) : Axis × Bool :=
  let ax := e.axis a
  match ax.asked with
  | none => (ax, false)
  | some c =>
    let f := if aFlag m o 5 then (aBus m o).elim (fN 1) (fun b => (e.bus b).f) else fN 1
    let cl := F64.lt f (fN 1)
    let eff := if cl then F64.mul c f else c
    if ax.target = some eff && !ax.replan then (ax, cl)
    else
      let p := ax.at_ t
      let way := if aPos m o then F64.sub eff p.p else eff
      if F64.eq p.v 0 && ((F64.lt 0 way && limitAt m e o 0x58) || (F64.lt way 0 && limitAt m e o 0x59)) then
        ({ ax with st := 4, target := none, replan := false }, cl)
      else
        let moves := !(F64.eq way 0 && F64.eq p.v 0)
        let plan := fun (p : AxePva) => if aPos m o then planPosition (aLim m o) p eff else planVelocity (aLim m o) p eff
        let w : Axis := ax.planFrom plan t (wakeNs m o seg (moves && ax.currentLow))
        ({ w with target := some eff, currentLow := ax.currentLow && !moves }, cl)

/-- `CURRENT_LOW` after t_sc at rest (09 R368). -/
def lowStep (m : Tab Byte) (o t : Nat) (ax : Axis) : Axis :=
  let tsc := le m (o + 0x98) 2 * 1000000
  if tsc ≠ 0 && ax.excess t && F64.eq (ax.at_ t).v 0 && !ax.replan && ((tsc : Nat) : Int) ≤ ax.restNs t then
    { ax with currentLow := true } else ax

/-- The module in the state in which axes are SAFE (09 R355). -/
def axesSafe (s : State) : Bool := s.mode ≤ 1 || s.arb.adrift

/-- The 32-byte record (09 R345) of axis `a` describing instant `t`. -/
def recordBytes (m : Tab Byte) (e : Axe) (o a t : Nat) (safe nan clamped : Bool) (xing : Nat) : List Byte × Nat :=
  let ax := e.axis a
  let p := ax.at_ t
  let sf := safe && (!aStep m o || ax.st = 6)
  let fl := ax.st + b2n ax.referenced * 8 + b2n (limitAt m e o 0x58) * 16 + b2n (limitAt m e o 0x59) * 32 + b2n ax.stall * 64
    + b2n ax.currentLow * 128 + b2n ax.startOk * 256 + b2n sf * 512 + b2n nan * 2048 + b2n clamped * 4096
    + b2n ax.abrupt * 8192
  let sp := if sf then aF64 m o 0x50 else if aPos m o then p.p else p.v
  let rem := if aPos m o && (ax.st = 3 || ax.st = 4 || ax.st = 6) then ax.kept.elim 0 (fun k => F64.sub k p.p) else 0
  (leBytes 8 (uval 64 (ax.counts (aScale m o) t)) ++ leBytes 4 (F64.narrow p.v).toNat ++ leBytes 4 (F64.narrow p.a).toNat
    ++ leBytes 4 (F64.narrow sp).toNat ++ leBytes 2 fl ++ leBytes 2 (ax.updates % 65536)
    ++ leBytes 4 (F64.narrow rem).toNat ++ leBytes 4 (xing % 2 ^ 32), fl)

/-- A record written, with its CAN item, in core cycle `c`, and noted for the digest (09 R345 to R347). -/
def putRecord (x : Side) (m : Tab Byte) (o a c : Nat) (rec_ : List Byte) (s : State) : State :=
  let s := memPut x (0x30082000 + 32 * a) rec_ s
  let n := le m (o + 0xBB) 1
  let s := if le m (o + 0xB8) 8 = 0 then s
    else memPut x (0x30087000 + 32 * a) (bytesAt m (o + 0xB8) 8 ++ (rec_.drop 0x10).take n) s
  noteItem x { key := 928 + a, cycle := c, leg := s.legOf c, words := toWords rec_ } s

/-- The segment from T1 planned and noted (09 R347, R357 to R359). -/
def putSegment (x : Side) (m : Tab Byte) (o a c t1 seg : Nat) (delta : Int) (s : State) : State :=
  let ax := (s.ld x).axe.axis a
  let g := planSeg t1 (seg / 10) (le m (o + 0x92) 2) ax.lastNeg delta
  let s := if g.2 ≠ 0 then raisePerSecond (.landing x) 0x0807 a a s else s
  let s := s.modAxis x a (fun ax => { ax with
    next := some g.1, carry := g.2, lastNeg := if g.1.delta = 0 then ax.lastNeg else g.1.neg })
  noteItem x { key := 896 + a, cycle := c, leg := s.legOf c,
               words := [⟨BitVec.ofInt 64 g.1.k, false⟩, ⟨BitVec.ofNat 64 g.1.r, false⟩] } s

/-- An update that read poison (09 R356): the record again with `HELD`, no motion, the plan later by one period. -/
def heldUpdate (x : Side) (m : Tab Byte) (o a c t1 seg : Nat) (s : State) : State :=
  let r := peekBytes (s.ld x) (0x30082000 + 32 * a) 32
  let fl := ofLe ((r.drop 0x14).take 2)
  let fl := if bitOf fl 10 then fl else fl + 1024
  let s := s.modAxis x a (fun ax => { ax with origin := ax.origin + (seg : Int), was := [], flags := fl })
  let s := putRecord x m o a c (r.take 0x14 ++ leBytes 2 fl ++ r.drop 0x16) s
  let left := ((s.ld x).axe.axis a).carry
  let s := if aStep m o then putSegment x m o a c t1 seg 0 s else s
  let s := s.modAxis x a (fun ax => { ax with carry := left })
  raise (.landing x) 0x0808 a s

/-- The motion of an update that is neither held nor SAFE (09 R356 rows 4 to 7): whether the target was held as NaN or clamped. -/
def moveUpdate (x : Side) (m : Tab Byte) (o a t1 seg snap : Nat) (demand feedback : DWord) (s : State) : State × Bool × Bool :=
  let s := stallStep x m o a t1 feedback (limitStep x m o a t1 snap s)
  let s := s.modAxis x a (stopStep m o t1)
  let st := ((s.ld x).axe.axis a).st
  let t : F64 := if aFlag m o 2 then F32.widen (demand.extractLsb' 0 32) else demand
  if st = 3 || st = 4 then takeTarget x m o a t s
  else if st = 5 then (homeStep x m o a t1 (s.tickNs x - (s.grid x).period / 20) seg snap s, false, false)
  else if st = 2 then
    let r := takeTarget x m o a t s
    let w := followStep m (r.1.ld x).axe o a t1 seg
    (r.1.modAxis x a (fun _ => w.1), r.2.1, r.2.2 || w.2)
  else (s, false, false)

/-- UPDATE (09 R343): one update of axis `a`, whose results are available in core cycle `c`. -/
def updateOp (x : Side) (a c : Nat) (s : State) : State :=
  let m := (s.ld x).fmn.img
  match axeDesc m a with
  | none => s
  | some o =>
    let s := runAxes x s
    let t1 := s.tickNs x + (s.grid x).period
    let seg := aPeriod m o (s.grid x).period
    let r1 := memRead x 0x30080800 s
    let r2 := memRead x (0x30081000 + 8 * a) r1.2
    let r3 := memRead x (0x30081200 + 8 * a) r2.2
    let s := r3.2
    if r1.1.p || r2.1.p || r3.1.p then heldUpdate x m o a c t1 seg s
    else
      let snap := r1.1.v.toNat
      let s := axeSnapshot x snap s
      let safe := axesSafe s
      let w := if safe then (stallStep x m o a t1 0 s, false, false) else moveUpdate x m o a t1 seg snap r2.1.v r3.1.v s
      let s := w.1.modAxis x a (fun ax =>
        let ax : Axis := lowStep m o t1 ax
        { ax with updates := (ax.updates + 1) % 65536 })
      let l := s.ld x
      let rb := recordBytes m l.axe o a t1 safe w.2.1 w.2.2 (l.fmn.crossing + 1)
      let s := s.modAxis x a (fun ax => { ax with flags := rb.2 })
      let s := putRecord x m o a c rb.1 s
      if aStep m o then
        let ax := (s.ld x).axe.axis a
        let e := ax.counts (aScale m o) (t1 + seg)
        let delta := if safe then 0 else e - ax.planned + ax.carry
        let s := putSegment x m o a c t1 seg delta s
        s.modAxis x a (fun ax => { ax with planned := if safe then ax.planned else e })
      else s

/-- UPDATE (09 R343). -/
def execUpdate (at_ : Nat) (x : Side) (a : Nat) (s : State) : Host.Outcome State Fault Refusal :=
  .next (runEntry x 0x08 1 (some a) none (fun k s => updateOp x a (entryCycle (s.ld x).fmn k + 96) s) (advance at_ s))

/-! ### The start ledger (09 R369 to R374) -/

/-- Bus `b` of landing `x` changed. -/
def State.modBus (s : State) (x : Side) (b : Nat) (f : AxeBus → AxeBus) : State :=
  s.modLd x (fun l => { l with axe := { l.axe with buses := Tab.upd {} l.axe.buses b f } })

/-- The power reserved on a bus at instant `t` (09 R370). -/
def reservedOn (e : Axe) (b t : Nat) : Nat :=
  ((e.reserved.filter (fun h => h.bus = b && t < h.ends)).map (fun h => h.power)).foldl (· + ·) 0

/-- The next start in the queue of a bus: the axis with the least (priority, order) (09 R371). -/
def queueHead (m : Tab Byte) (e : Axe) (b : Nat) : Option (Nat × Nat) :=
  (axeDescs m).foldl (fun best o =>
    let a := le m o 1
    if aBus m o ≠ some b then best
    else match (e.axis a).queued with
      | none => best
      | some q =>
        let key := fun (c : Nat × Nat) => (le m (c.2 + 7) 1, ((e.axis c.1).queued.getD (0, 0)).1)
        match best with
        | none => some (a, o)
        | some c => if le m (o + 7) 1 < (key c).1 || (le m (o + 7) 1 = (key c).1 && q.1 < (key c).2) then some (a, o) else best) none

/-- The starts of a bus admitted in order up to the first that does not fit (09 R371), at most `n`; `told` are those already reported
at this tick. Log entry 67 (DEDUCED, unsafe). -/
def admitStarts (x : Side) (b : Nat) (told : List Nat) : Nat → State → State
  | 0, s => s
  | n + 1, s =>
    let l := s.ld x
    let m := l.fmn.img
    let t := s.nowNs
    match queueHead m l.axe b with
    | none => s
    | some (a, o) =>
      let bus := l.axe.bus b
      let p := aPower m o
      let budget : Int := (bus.a : Int) - (reservedOn l.axe b t : Nat)
      if p ≤ bus.u && (p : Int) ≤ budget then
        let h : AxeHoldS := { axis := a, bus := b, power := p, ends := t + le m (o + 0xA0) 4 * 1000000, at_ := t,
                              place := (l.axe.axis a).queued.getD (0, 0) }
        let s := s.modBus x b (fun k => { k with u := k.u - p })
        let s := s.modAxis x a (fun ax => { ax with queued := none, startOk := true })
        let s := s.modLd x (fun l => { l with axe := { l.axe with reserved := l.axe.reserved ++ [h] } })
        let s := if told.contains a then s else raise (.landing x) 0x080E a s
        admitStarts x b told n s
      else s

/-- The admissions of this tick on bus `b` taken back, before a further command of the tick is applied: the ledger runs after all of
them (09 R370). -/
def unadmit (x : Side) (b : Nat) (s : State) : State :=
  let t := s.nowNs
  let hs := (s.ld x).axe.reserved.filter (fun h => h.bus = b && h.at_ = t)
  hs.foldl (fun s h =>
    let s := s.modBus x b (fun k => { k with u := k.u + h.power })
    let s := s.modAxis x h.axis (fun ax => { ax with queued := some h.place, startOk := false })
    s.modLd x (fun l => { l with axe := { l.axe with reserved := l.axe.reserved.filter (fun g => g ≠ h) } })) s

/-- The factor of the power clamp (09 R374): min(1, limit / ΣP_a) over the targets held. -/
def clampFactor (m : Tab Byte) (e : Axe) (b limit : Nat) : F64 :=
  let ps := (axeDescs m).filterMap (fun o =>
    if aFlag m o 5 && aBus m o = some b then
      (e.axis (le m o 1)).asked.map (fun x =>
        let q := F64.abs (F64.div x (aF64 m o 0xB0))
        F64.mul (aF64 m o 0xA8) (F64.mul (F64.mul q q) q))
    else none)
  let sum := sumF ps
  if F64.lt 0 sum then F64.min (fN 1) (F64.div (fN limit) sum) else fN 1

/-- The ledger of bus `b` after the commands of a tick (09 R371, R373, R374): admissions, budget, limit, f_b, and the record.
Log entry 67 (DEDUCED, unsafe). -/
def ledgerBus (x : Side) (told : List Nat) (b : Nat) (s : State) : State :=
  let s := admitStarts x b told 64 s
  let l := s.ld x
  let r := reservedOn l.axe b s.nowNs
  let bus := l.axe.bus b
  let limit := bus.l - r
  let f := clampFactor l.fmn.img l.axe b limit
  let s := s.modBus x b (fun k => { k with budget := (bus.a : Int) - (r : Nat), limit := limit, f := f })
  let s := if F64.lt f (fN 1) then raisePerSecond (.landing x) 0x0811 b b s else s
  let w := fun (v : Nat) => leBytes 4 (min 0xFFFFFFFF v)
  memPut x (0x30082800 + 16 * b) (w limit ++ w r ++ w (b2n bus.stale) ++ leBytes 4 (l.fmn.crossing % 2 ^ 32)) s

/-- A change of the ledger's inputs on bus `b`: at a tick, the tick's ledger runs again with it. -/
def withLedger (x : Side) (b : Nat) (f : State → State) (s : State) : State :=
  if s.nowNs ≠ s.tickNs x then f s
  else
    let told := ((s.ld x).axe.reserved.filter (fun h => h.at_ = s.nowNs)).map (fun h => h.axis)
    ledgerBus x told b (f (unadmit x b s))

/-- The ramp allowance at a tick (09 R370). -/
def rampBus (m : Tab Byte) (per b : Nat) (k : AxeBus) : AxeBus :=
  let v := k.frac + k.r * per
  { k with u := min (busFld m b 0x0C) (k.u + v / 1000000000), frac := v % 1000000000 }

/-! ### The tick (09 R355, R370) -/

/-- Axis `a` on entry to, or after, the SAFE condition (09 R355). -/
def safeAxis (x : Side) (m : Tab Byte) (safe : Bool) (o : Nat) (s : State) : State :=
  let a := le m o 1
  let ax := (s.ld x).axe.axis a
  if !safe then
    if ax.st = 6 then s.modAxis x a (fun ax => { ax with st := 4, abrupt := false }) else s
  else if ax.st = 0 || ax.st = 6 then s
  else if ax.queued.isSome then s.modAxis x a (fun ax => { ax with st := 0, queued := none })
  else
    let t := s.nowNs
    let ab := F64.lt (F32.widen (aF32 m o 0x8C)) (F64.abs (ax.at_ t).v)
    let s := s.modAxis x a (fun ax =>
      let w : Axis := ax.freeze m o t
      { w with st := 6, target := none, abrupt := ab, referenced := ax.referenced && !ab })
    if ab then raise (.landing x) 0x080C a s else s

/-- The axis engine's work of a tick on landing `x`: the generators, the freeze or its end, the ledger. -/
def axesTick (x : Side) (s : State) : State :=
  let m := (s.ld x).fmn.img
  let ds := axeDescs m
  if ds.isEmpty || !(s.ld x).fmn.running then s
  else
    let s := runAxes x s
    let safe := axesSafe s
    let s := ds.foldl (fun s o => safeAxis x m safe o s) s
    (List.range 4).foldl (fun s b => ledgerBus x [] b (s.modBus x b (rampBus m (s.grid x).period b))) s

/-- The registers at a tick. -/
def showAxe (s : State) (x : Side) : State :=
  let l := s.ld x
  s.modLd x (fun l' => { l' with axe := { l'.axe with shown := axeOffsets.foldl (fun t o => Tab.set 0 t o (axeNow s l o)) [] } })

/-! ### Commands (09 R378, R379) -/

/-- The axes of a mask. -/
def maskAxes (mask : Nat) : List Nat := (List.range 64).filter (bitOf mask)

/-- A test of the axes of a mask on the lead landing, by descriptor and axis. -/
def axesAll (s : State) (mask : Nat) (f : Tab Byte → Axe → Nat → Axis → Bool) : Bool :=
  let l := s.ld s.lead
  (maskAxes mask).all (fun a => (axeDesc l.fmn.img a).elim false (fun o => f l.fmn.img l.axe o (l.axe.axis a)))

/-- AXE_STOP (09 R354): the stop is planned by the axis's next update. -/
def stopAxis (ax : Axis) : Axis :=
  if ax.st = 2 || ax.st = 5 then { ax with st := 3, stop := 1, phase := 0, replan := false } else ax

/-- AXE_STOP (09 R378). -/
def execAxeStop (h : CmdHdr) (mask : Nat) (s : State) : Host.Outcome State Fault Refusal :=
  .next (hostCommand h 0x0801
    (fun s => { level := 1, range := axesAll s mask (fun _ _ _ _ => true), modes := [2, 3, 4, 5] })
    (fun s => done (eachSide (fun _ => true) (fun x s => (maskAxes mask).foldl (fun s a => s.modAxis x a stopAxis) s) s)) s)

/-- The kept target lies beyond a latched limit (09 R379). -/
def beyondLimit (m : Tab Byte) (e : Axe) (o t : Nat) (ax : Axis) : Bool :=
  match ax.kept with
  | none => false
  | some k =>
    let way := if aPos m o then F64.sub k (ax.at_ t).p else k
    (F64.lt 0 way && limitAt m e o 0x58) || (F64.lt way 0 && limitAt m e o 0x59)

/-- AXE_RESUME (09 R378). -/
def execAxeResume (h : CmdHdr) (mask : Nat) (s : State) : Host.Outcome State Fault Refusal :=
  .next (hostCommand h 0x0802
    (fun s =>
      { level := 1, range := axesAll s mask (fun _ _ _ _ => true), modes := [2, 3, 4, 5],
        state := axesAll s mask (fun m e o ax =>
          (ax.st = 2 || ax.st = 3 || ax.st = 4) && !beyondLimit m e o s.nowNs ax
            && !(aFlag m o 1 && ax.stall && !ax.referenced)) })
    (fun s => done (eachSide (fun _ => true) (fun x s => (maskAxes mask).foldl (fun s a => s.modAxis x a (fun ax =>
      if ax.st = 3 || ax.st = 4 then { ax with st := 2, stop := 0, replan := true, stall := false } else ax)) s) s)) s)

/-- AXE_HOME (09 R364, R378). -/
def execAxeHome (h : CmdHdr) (a : Nat) (s : State) : Host.Outcome State Fault Refusal :=
  .next (hostCommand h 0x0803
    (fun s =>
      let l := s.ld s.lead
      let m := l.fmn.img
      { level := 2, range := (axeDesc m a).isSome, modes := [2, 3, 4, 5],
        state := (axeDesc m a).elim false (fun o => aStep m o && (l.axe.axis a).st = 4
          && [0x58, 0x59].all (fun k => !limitAt m l.axe o k || aIn m o k = aRef m o)) })
    (fun s => done (eachSide (fun _ => true) (fun x s => s.modAxis x a (fun ax =>
      { ax with st := 5, phase := 1, replan := true, referenced := false, homeFrom := (ax.at_ s.nowNs).p })) s)) s)

/-- AXE_CLEAR_LIMIT (09 R362, R378). -/
def execAxeClearLimit (h : CmdHdr) (input : Nat) (s : State) : Host.Outcome State Fault Refusal :=
  .next (hostCommand h 0x0804
    (fun s =>
      let e := (s.ld s.lead).axe
      { level := 1, range := input ≤ 63,
        state := Tab.get false e.latched input && 50000000 ≤ Tab.get 0 e.clear input * (s.grid s.lead).period })
    (fun s => done (eachSide (fun _ => true) (fun x s => s.modLd x (fun l => { l with axe := { l.axe with
      latched := Tab.set false l.axe.latched input false, clear := Tab.set 0 l.axe.clear input 0 } })) s)) s)

/-- AXE_START on landing `x` (09 R371). -/
def queueStart (x : Side) (a : Nat) (s : State) : State :=
  match (axeDesc (s.ld x).fmn.img a).bind (aBus (s.ld x).fmn.img) with
  | none => s
  | some b =>
    let q := fun (s : State) =>
      let n := (s.ld x).axe.order
      let s := s.modLd x (fun l => { l with axe := { l.axe with order := n + 1 } })
      raise (.landing x) 0x080D a (s.modAxis x a (fun ax => { ax with st := 1, queued := some (n, s.nowNs), startOk := false }))
    withLedger x b q s

/-- AXE_START (09 R378). -/
def execAxeStart (h : CmdHdr) (a : Nat) (s : State) : Host.Outcome State Fault Refusal :=
  .next (hostCommand h 0x0805
    (fun s =>
      let l := s.ld s.lead
      let m := l.fmn.img
      { level := 1, range := (axeDesc m a).isSome, modes := [2, 3, 4, 5],
        state := (l.axe.axis a).st = 0 && ((axeDesc m a).bind (aBus m)).isSome })
    (fun s => done (eachSide (fun _ => true) (fun x s => queueStart x a s) s)) s)

/-- AXE_OFF on landing `x` (09 R372). -/
def offAxis (x : Side) (a : Nat) (s : State) : State :=
  let m := (s.ld x).fmn.img
  match axeDesc m a with
  | none => s
  | some o =>
    let f := fun (s : State) => s.modAxis x a (fun ax =>
      let w : Axis := ax.freeze m o s.nowNs
      { w with st := 0, queued := none, startOk := false, target := none })
    let s := runAxes x s
    match aBus m o with
    | some b => withLedger x b f s
    | none => s

/-- AXE_OFF (09 R378). -/
def execAxeOff (h : CmdHdr) (a : Nat) (s : State) : Host.Outcome State Fault Refusal :=
  .next (hostCommand h 0x0806
    (fun s =>
      let l := s.ld s.lead
      let m := l.fmn.img
      { level := 1, range := (axeDesc m a).isSome, modes := [2, 3, 4, 5],
        state := (l.axe.axis a).st ≠ 0 && ((axeDesc m a).bind (aBus m)).isSome })
    (fun s => done (eachSide (fun _ => true) (fun x s => offAxis x a s) s)) s)

/-- AXE_POWER (09 R369, R378). -/
def execAxePower (h : CmdHdr) (bus l a r : Nat) (s : State) : Host.Outcome State Fault Refusal :=
  .next (hostCommand h 0x0807
    (fun _ => { level := 1, range := bus ≤ 3 && l < 2 ^ 32 && a < 2 ^ 32 && r < 2 ^ 32 })
    (fun s => done (eachSide (fun _ => true) (fun x s => withLedger x bus (fun s => s.modBus x bus (fun k =>
      { k with l := l, a := a, r := r, last := some s.nowNs, stale := false, warned := false })) s) s)) s)

/-! ### Timers -/

/-- AXE_NAN_EXPIRED on landing `x` (09 R352): CRITICAL axes whose count has reached 8, each once. Log entry 65 (DEDUCED, unsafe). -/
def nanExpired (x : Side) (s : State) : State :=
  (s.ld x).axe.axes.foldl (fun s q =>
    if q.2.nanCount < 8 || q.2.nanOver then s
    else enterAdrift 0x080A (raise (.landing x) 0x080A q.1 (s.modAxis x q.1 (fun ax => { ax with nanOver := true })))) s

/-- AXE_NAN_EXPIRED (09 R352). -/
def execAxeNanExpired (at_ : Nat) (s : State) : Host.Outcome State Fault Refusal :=
  .next (eachSide (fun x => s.inStep x) nanExpired (advance at_ s))

/-- START_DURATION_END on landing `x` (09 R371, R372). -/
def durationEnd (a : Nat) (x : Side) (s : State) : State :=
  let t := s.nowNs
  let due := (s.ld x).axe.reserved.filter (fun h => h.axis = a && h.ends ≤ t)
  match due with
  | [] => s
  | h :: _ =>
    withLedger x h.bus (fun s =>
      let s := s.modLd x (fun l => { l with axe := { l.axe with
        reserved := l.axe.reserved.filter (fun h => !(h.axis = a && decide (h.ends ≤ t))) } })
      s.modAxis x a (fun ax => if ax.st = 1 && ax.queued.isNone then { ax with st := 4 } else ax)) s

/-- START_DURATION_END (09 R371). -/
def execStartDurationEnd (at_ a : Nat) (s : State) : Host.Outcome State Fault Refusal :=
  .next (eachSide (fun _ => true) (durationEnd a) (advance at_ s))

/-- AXE_START_TIMEOUT on landing `x` (09 R372). -/
def startTimeout (a : Nat) (x : Side) (s : State) : State :=
  let m := (s.ld x).fmn.img
  match axeDesc m a, ((s.ld x).axe.axis a).queued with
  | some o, some q =>
    if q.2 + le m (o + 0xA4) 4 * 1000000 ≤ s.nowNs then
      raise (.landing x) 0x080F a (s.modAxis x a (fun ax => { ax with st := 0, queued := none }))
    else s
  | _, _ => s

/-- AXE_START_TIMEOUT (09 R372). -/
def execAxeStartTimeout (at_ a : Nat) (s : State) : Host.Outcome State Fault Refusal :=
  .next (eachSide (fun _ => true) (startTimeout a) (advance at_ s))

/-- AXE_PMS_STALE on landing `x` (09 R369). -/
def pmsStale (b : Nat) (x : Side) (s : State) : State :=
  let m := (s.ld x).fmn.img
  let k := (s.ld x).axe.bus b
  match k.last with
  | none => s
  | some t =>
    if (axeDescs m).isEmpty || k.warned || s.nowNs < t + busFld m b 0x10 * 1000000 then s
    else
      let s := withLedger x b (fun s => s.modBus x b (fun k =>
        { k with l := busFld m b 0, a := busFld m b 4, r := busFld m b 8, stale := true, warned := true })) s
      raise (.landing x) 0x0810 b s

/-- AXE_PMS_STALE (09 R369). -/
def execAxePmsStale (at_ b : Nat) (s : State) : Host.Outcome State Fault Refusal :=
  .next (eachSide (fun _ => true) (pmsStale b) (advance at_ s))

/-! ### Start and load checks (09 R370, R376, R377) -/

/-- The engine at a manifest start at instant `t` ns (09 R376). -/
def startAxe (t : Nat) (l : Landing) : Landing :=
  let m := l.fmn.img
  let l := { l with axe := {} }
  match enginePart m 8 with
  | none => l
  | some (o, len) =>
    let bus := fun (b : Nat) => ({ l := busFld m b 0, a := busFld m b 4, r := busFld m b 8, last := some t, u := busFld m b 0x0C } : AxeBus)
    let l := { l with axe := { l.axe with
      buses := (List.range 4).foldl (fun k b => Tab.set {} k b (bus b)) []
      axes := (axeDescs m).foldl (fun k d => Tab.set {} k (le m d 1)
        { st := if (aBus m d).isSome then 0 else 6, plan := planRest 0, origin := (t : Int) }) [] } }
    putAll l [(0x30083000, bytesAt m o len)]

/-- Latency and initiation interval of an update (09 R343). -/
def axeCost : Nat × Nat := (96, 16)

/-- A transmit item's header (14 R540, R542) for a port of the manifest. -/
def canHeadOk (m : Tab Byte) (port buf fl n id : Nat) : Bool :=
  port ≤ 7 && buf ≤ 15 && fl < 32 && id < 2 ^ 29 && (bitOf fl 0 || id < 2 ^ 11)
    && (n ≤ 8 || [12, 16, 20, 24, 32, 48, 64].contains n)
    && !(bitOf fl 1 && !(canDesc m port).elim false (fun d => bitOf (le m (d + 2) 1) 0))
    && !((bitOf fl 2 || 8 < n) && !bitOf fl 1) && !(bitOf fl 3 && bitOf fl 1)

/-- The CAN item header of an axis (09 R377). -/
def axeCanOk (m : Tab Byte) (d : Nat) : Bool :=
  let h := d + 0xB8
  let n := le m (h + 3) 1
  le m h 8 = 0 || (canHeadOk m (le m h 1) (le m (h + 1) 1) (le m (h + 2) 1) n (le m (h + 4) 4)
    && canMode m (le m h 1) ≠ 0 && (n = 8 || n = 16))

/-- The dispatch schedule of one axis (09 R343). -/
def axeScheduleOk (m : Tab Byte) (d : Nat) : Bool :=
  let a := le m d 1
  let q := 2 ^ le m (d + 4) 1
  let L := imgCycle m
  let cyc := fun (i : Nat) => ((dispatches m (cyclePattern m i)).filter (fun e => e.unit = 8 && e.op = 1 && e.job = a)).map (fun e => e.cycle)
  L % q = 0 && (match (cyc (le m (d + 5) 1)).head? with
    | none => false
    | some c0 => (List.range L).all (fun i => cyc i = if i % q = le m (d + 5) 1 then [c0] else []))

/-- The fields of an axis descriptor in range (09 R376, R377). -/
def axeDescOk (m : Tab Byte) (d : Nat) : Bool :=
  let f := fun (k n : Nat) => le m (d + k) n
  let L := aLim m d
  let fps := (List.range 9).map (fun i => aF64 m d (0x08 + 8 * i)) ++ [aF64 m d 0x50] ++ (List.range 4).map (fun i => aF64 m d (0x60 + 8 * i))
    ++ [aF64 m d 0xA8, aF64 m d 0xB0]
  let f32s := (List.range 4).map (fun i => aF32 m d (0x80 + 4 * i))
  f 0 1 ≤ 63 && (f 1 1 = 1 || f 1 1 = 2) && (f 2 1 = 1 || f 2 1 = 2) && f 3 1 < 64 && f 4 1 ≤ 4 && f 5 1 < 2 ^ f 4 1
    && (f 6 1 ≤ 3 || f 6 1 = 0xFF) && f 7 1 ≤ 7
    && fps.all F64.finite && f32s.all F32.finite
    && F64.lt 0 (aScale m d) && [L.v, L.a, L.d, L.j].all (F64.lt 0) && F64.le L.d L.df && F64.le L.j L.jf
    && F64.le (aF64 m d 0x40) (aF64 m d 0x48)
    && [0x58, 0x59, 0x5A].all (fun k => f k 1 ≤ 63 || f k 1 = 0xFF) && f 0x5B 1 ≤ 2 && f 0x5C 1 ≤ 1 && f 0x5D 3 = 0
    && 1 ≤ f 0x90 2 && f 0x90 2 ≤ 255 && 2 ≤ f 0x92 2 && f 0x92 2 ≤ 500 && 2 ≤ f 0x94 1 && f 0x94 1 ≤ 12 && f 0x95 3 = 0
    && f 0x98 2 ≤ 10000 && f 0x9A 2 ≤ 10000 && 1000 ≤ f 0xA4 4 && f 0xA4 4 ≤ 600000
    && axeCanOk m d
    && (!aStep m d || (f 0 1 ≤ 31 && F64.le (F64.mul L.v (aScale m d)) (fN 3999000)
      && ((aRef m d).isNone || [aF64 m d 0x60, aF64 m d 0x68, aF64 m d 0x78].all (F64.lt 0))))
    && f32s.all (fun v => F32.le 0 v)
    && (!aFlag m d 5 || (F64.le 0 (aF64 m d 0xA8) && !F64.eq (aF64 m d 0xB0) 0))

/-- The axis part refused (09 R377): the image offset of the fault. -/
def axePartBad (m : Tab Byte) : Option Nat :=
  match enginePart m 8 with
  | none => none
  | some (o, len) =>
    let ds := axeDescs m
    let head := le m o 1 ≤ 64 && le m (o + 1) 7 = 0 && le m (o + 0x10) 16 = 0 && len = 160 + 192 * le m o 1
      && (ds.map (fun d => le m d 1)).eraseDups.length = ds.length
    let busOk := fun (b : Nat) => 1000 ≤ busFld m b 0x10 && busFld m b 0x10 ≤ 60000 && le m (o + 32 + 32 * b + 0x14) 12 = 0
    let ops := (List.range (imgCycle m)).all (fun i => (dispatches m (cyclePattern m i)).all (fun e =>
      e.unit ≠ 8 || (e.op = 1 && (axeDesc m e.job).isSome)))
    if !head || !ops then some o
    else match (List.range 4).find? (fun b => !busOk b) with
      | some b => some (o + 32 + 32 * b)
      | none => ds.find? (fun d => !axeDescOk m d || !axeScheduleOk m d)

/-- A crossing's first update precedes the snapshot claim (09 R344, R377). -/
def axeDepBad (m : Tab Byte) : Bool :=
  (List.range (imgCycle m)).any (fun i =>
    let p := cyclePattern m i
    let us := (dispatches m p).filter (fun e => e.unit = 8)
    let cs := (claims m p).filter (fun k => k.dst = 0x25 && k.to_ ≤ 0x30080800 && 0x30080800 < k.to_ + 8 * k.beats)
    us.any (fun u => !cs.any (fun k => 32 * k.slot + 48 ≤ u.cycle)))

end Sys2Proof.Machine
end

