-- ==== Sys2Proof/Machine/Can.lean ====
section
/-!
DEFINITION. The CAN ports (chapter 14): transmit items, pending frames, reception, error confinement, the time master, isolation.
-/
namespace Sys2Proof.Machine

/-- The controller of port `p` on landing `x` changed; the port record changed. -/
def State.modCan (s : State) (x : Side) (p : Nat) (f : CanCtl → CanCtl) : State :=
  s.modLd x (fun l => { l with can := { l.can with ports := Tab.upd {} l.can.ports p f } })
def State.modCanPort (s : State) (p : Nat) (f : CanPort → CanPort) : State := { s with canRec := Tab.upd {} s.canRec p f }

/-- The source of a fault that the selector or a port record raises: the active landing. -/
def activeSource (s : State) : Source := s.activeSide.elim .cable .landing

/-- A landing's controller takes part on a port's bus (14 R537, R558, 18 R684). -/
def canOnBus (s : State) (x : Side) (p : Nat) : Bool :=
  s.serves x && canMode (s.ld x).fmn.img p ≠ 0 && !(s.canPort p).isolated && s.sup.field

/-- A landing's controller transmits on a port (14 R537, R550). -/
def canSends (s : State) (x : Side) (p : Nat) : Bool :=
  s.activeSide = some x && canMode (s.ld x).fmn.img p = 1 && (s.canPort p).off = 0

/-- The descriptor of a port sets a flag bit (14 R559). -/
def canFlag (m : Tab Byte) (p i : Nat) : Bool := (canDesc m p).elim false (fun d => bitOf (le m (d + 2) 1) i)

/-- An identifier with its type in bit 29. -/
def idKey (f : CanFrame) : Nat := f.id + b2n f.ext * 2 ^ 29

/-! ### Transmitting (14 R540 to R543) -/

/-- The frame of a transmit item (14 R540). -/
def frameOf (d : List Byte) : CanPend :=
  let fl := ofLe ((d.drop 2).take 1)
  let n := ofLe ((d.drop 3).take 1)
  { frame := { id := ofLe ((d.drop 4).take 4) % 2 ^ 29, ext := bitOf fl 0, fdf := bitOf fl 1, brs := bitOf fl 2, remote := bitOf fl 3,
               dlen := n, data := if bitOf fl 3 then [] else (d.drop 8).take n },
    confirm := bitOf fl 4 }

/-- Both landings' tracking of a port changed: they hold the same buffers (14 R543, R544). -/
def bothCan (p : Nat) (f : CanCtl → CanCtl) (s : State) : State := (s.modCan .A p f).modCan .B p f

/-- An item of the active landing at its buffer (14 R543). Bit 7 of `sub` says that the buffer's frame is in transmission. -/
def deliverCan (i : OutItem) (s : State) : State :=
  let p := i.sub % 128 / 16
  let b := i.sub % 16
  let f := frameOf (ofWords i.words)
  let r := s.canPort p
  let src := activeSource s
  if r.isolated || r.off ≠ 0 || r.supp.contains (idKey f.frame) then raisePerSecond src 0x0A09 p p s
  else
    let pend := Tab.get none ((s.ld s.lead).can.port p).pend b
    if 128 ≤ i.sub && pend.isSome then bothCan p (fun c => { c with next := Tab.set none c.next b (some f) }) s
    else
      let s := if pend.isSome then raisePerSecond src 0x0A08 p p s else s
      bothCan p (fun c => { c with pend := Tab.set none c.pend b (some f) }) s

/-- Where transmit buffer `job` = 16 × port + buffer lies (14 R569). -/
def canBuffer (job : Nat) : Nat := 0x300A0800 + 0x600 * (job / 16) + 0x60 * (job % 16)

/-- Latency and initiation interval of a CAN SEND (14 R541). -/
def canCost : Nat × Nat := (24, 8)

/-- The data of an item are padded with zero bytes (14 R540); a remote frame carries none. -/
def padZero (remote : Bool) (n : Nat) (ws : List Pw) : Bool := remote || ((ofWords ws).drop n).all (· == 0)

/-- CAN_SEND (14 R541, R542): the item of a buffer handed over at core cycle `cycle`. -/
def canSendOp (x : Side) (job cycle : Nat) (inTx : Bool) (s : State) : State :=
  let m := (s.ld x).fmn.img
  let r0 := memRead x (canBuffer job) s
  let h := r0.1.v.toNat
  let g := fun (lo n : Nat) => h / 2 ^ lo % 2 ^ n
  let n := if bitOf h 19 then 0 else (min 64 (g 24 8) + 7) / 8
  let rd := memReadN x (canBuffer job + 8) n r0.2
  let ws := r0.1 :: rd.1
  let s := rd.2
  let ok := canHeadOk m (g 0 8) (g 8 8) (g 16 8) (g 24 8) (g 32 32) && g 0 8 = job / 16
    && padZero (bitOf h 19) (g 24 8) rd.1
  if !ws.any (fun w => w.p) && !ok then raisePerSecond (.landing x) 0x0A07 (job / 16) (job / 16) s
  else
    let key := Tab.get 0 (s.ld x).can.keys job - 1
    handItem deliverCan x { key := key, cycle := cycle, port := 0x26, sub := job % 128 + 128 * b2n inTx, words := ws } s

/-- CAN_SEND (14 R541). -/
def execCanSend (at_ : Nat) (x : Side) (job cycle : Nat) (inTx : Bool) (s : State) : Host.Outcome State Fault Refusal :=
  .next (runEntry x 0x0A 1 (some job) (some cycle) (fun _ => canSendOp x job (cycle + canCost.1) inTx) (advance at_ s))

/-! ### Frames on the bus (14 R544 to R548) -/

/-- A completed frame equals a pending one (14 R544). -/
def sameFrame (a b : CanFrame) : Bool := { a with esi := false } = { b with esi := false }

/-- The buffer a completed frame counts for: of the equal pending frames, the one offered first (14 R543, R544). -/
def ownBuffer (c : CanCtl) (f : CanFrame) : Option (Nat × CanPend) :=
  (List.range 16).findSome? (fun b => match Tab.get none c.pend b with
    | some q => if sameFrame q.frame f then some (b, q) else none
    | none => none)

/-- The content of a class 7 entry (14 R548). -/
def canContent (f : CanFrame) (mailbox : Nat) (own : Option Nat) : List Byte :=
  let d := if f.remote then [] else f.data
  leBytes 4 (f.id + b2n f.ext * 2 ^ 29 + b2n f.remote * 2 ^ 30)
    ++ leBytes 1 (b2n f.fdf + b2n f.brs * 2 + b2n f.esi * 4 + b2n own.isSome * 8)
    ++ leBytes 1 mailbox ++ leBytes 1 f.dlen ++ leBytes 1 (own.getD 0)
    ++ d ++ List.replicate ((8 - d.length % 8) % 8) 0

/-- A class 7 record posted (14 R547). -/
def postCan (x : Side) (p : Nat) (content : List Byte) (s : State) : State :=
  (takeRecord (some x) 7 p s.nowNs content s).modCan x p (fun c => { c with posted := satAdd 0xFFFF c.posted 1 })

/-- The mailbox filter `k` of a port: its two words (14 R559). -/
def canFilter (m : Tab Byte) (p k : Nat) : Nat × Nat :=
  let o := partOff m 0x0A + 512 + 512 * p + 8 * k
  (le m o 4, le m (o + 4) 4)

/-- Mailbox `k` takes a frame (14 R545). -/
def mailboxTakes (m : Tab Byte) (p k : Nat) (f : CanFrame) (own : Bool) : Bool :=
  let w := canFilter m p k
  let mask := BitVec.ofNat 29 w.2
  bitOf w.1 30 && (!own || bitOf w.2 29) && bitOf w.1 29 = f.ext
    && (BitVec.ofNat 29 f.id &&& mask) = (BitVec.ofNat 29 w.1 &&& mask)

/-- Where a mailbox's primary buffer lies (14 R569). -/
def canMailbox (p k : Nat) : Nat := 0x300A4000 + 0x1800 * p + 96 * k

/-- A frame offered to the mailboxes of a landing (14 R545, R547); `own` is the transmit buffer of a sent frame.
Log entry 98 (DEDUCED, unsafe). -/
def offerFrame (x : Side) (p : Nat) (f : CanFrame) (own : Option Nat) (s : State) : State :=
  let m := (s.ld x).fmn.img
  match (List.range 64).find? (fun k => mailboxTakes m p k f own.isSome) with
  | some k =>
    let c := canContent f k own
    let s := memPut x (canMailbox p k) (leBytes 8 s.nowNs ++ c ++ List.replicate (88 - c.length) 0) s
    if bitOf (canFilter m p k).1 31 then postCan x p c s else s
  | none => if own.isSome then s else s.modCan x p (fun c => { c with dropped := satAdd 0xFFFF c.dropped 1 })

/-- An attempt on the bus ends (14 R543): the frame that waits for it becomes pending in its buffer, and the buffer `own` of a sent frame is
cleared. A frame that another node completes ends the attempt too, which has lost arbitration. -/
def endAttempt (own : Option Nat) (c : CanCtl) : CanCtl :=
  { c with
    pend := (List.range 16).foldl (fun t b =>
      let q := Tab.get none c.next b
      if own = some b || q.isSome then Tab.set none t b q else t) c.pend
    next := [] }

/-- A completed frame at a landing's controller (14 R544, R545): one equal to a pending frame counts as sent. -/
def takeCanFrame (x : Side) (p : Nat) (f : CanFrame) (s : State) : State :=
  let own := ownBuffer ((s.ld x).can.port p) f
  let s := s.modCan x p (endAttempt (own.map (·.1)))
  match own with
  | some (b, q) =>
    let s := s.modCan x p (fun c => { c with sent := satAdd 0xFFFF c.sent 1, coll := Tab.set 0 c.coll (idKey f) 0 })
    let s := if q.confirm then postCan x p (canContent f 0xFF (some b)) s else s
    offerFrame x p f (some b) s
  | none => offerFrame x p f none s

/-- A controller returns to error active once both counters are at most 127 (14 R549). -/
def errorActive (x : Side) (p : Nat) (s : State) : State :=
  let c := (s.ld x).can.port p
  if c.passive && c.tec ≤ 127 && c.rec_ ≤ 127 then
    raise (.landing x) 0x0A02 p (s.modCan x p (fun c => { c with passive := false }))
  else s

/-- The counters after a successful reception (ISO 11898-1): above 127 the receive counter falls to a value from 119 to 127. -/
def receivedOk (x : Side) (p : Nat) (s : State) : State :=
  if !canSends s x p then s
  else
    let c := (s.ld x).can.port p
    if c.rec_ ≤ 127 then errorActive x p (s.modCan x p (fun c => { c with rec_ := c.rec_ - 1 }))
    else
      let d := drawFree s
      errorActive x p (d.2.modCan x p (fun c => { c with rec_ := 119 + d.1.toNat % 9 }))

/-- The counters after a successful transmission (ISO 11898-1, 14 R551). -/
def sentOk (x : Side) (p : Nat) (s : State) : State :=
  if !canSends s x p then s
  else errorActive x p ((bothCan p (fun c => { c with ackRun := 0, noAck := false }) s).modCan x p (fun c => { c with tec := c.tec - 1 }))

/-- CAN_FRAME_RECEIVED (14 R547). -/
def execCanFrameReceived (at_ : Nat) (x : Side) (p : Nat) (f : CanFrame) (s : State) : Host.Outcome State Fault Refusal :=
  let s := advance at_ s
  .next (if canOnBus s x p then takeCanFrame x p f (receivedOk x p s) else s)

/-- CAN_FRAME_SENT (14 R544). -/
def execCanFrameSent (at_ : Nat) (x : Side) (p : Nat) (f : CanFrame) (s : State) : Host.Outcome State Fault Refusal :=
  let s := advance at_ s
  .next (if canOnBus s x p then takeCanFrame x p f (sentOk x p s) else s)

/-! ### Errors (14 R549 to R552) -/

/-- Every pending frame of a port cleared. -/
def clearPending (p : Nat) (s : State) : State := bothCan p (fun c => { c with pend := [], next := [] }) s

/-- The port goes bus-off (14 R550). -/
def goBusOff (x : Side) (p : Nat) (s : State) : State :=
  let m := (s.ld x).fmn.img
  let s := (clearPending p s).modCan x p (fun c => { c with passive := false })
  raise (.landing x) 0x0A03 p (s.modCanPort p (fun r => { r with off := if canFlag m p 1 then 3 else 2 }))

/-- Where the counters lead (14 R549, R550). Log entry 97 (DEDUCED, unsafe). -/
def confine (x : Side) (p : Nat) (s : State) : State :=
  let c := (s.ld x).can.port p
  if 255 < c.tec then goBusOff x p s
  else if (127 < c.tec || 127 < c.rec_) && !c.passive then
    raise (.landing x) 0x0A01 p (s.modCan x p (fun c => { c with passive := true }))
  else s

/-- The third data-field bit error in a row of an identifier (14 R552): the collision reported, the identifier suppressed where the
descriptor asks for it and the list has room. -/
def collision (x : Side) (p key : Nat) (s : State) : State :=
  let m := (s.ld x).fmn.img
  let s := raise (.landing x) 0x0A06 key (s.modCan x p (fun c => { c with coll := Tab.set 0 c.coll key 0 }))
  let supp := (s.canPort p).supp
  if canFlag m p 2 && supp.length < 16 && !supp.contains key then
    let drop := fun (t : Tab (Option CanPend)) => t.filter (fun q => q.2.elim true (fun w => idKey w.frame ≠ key))
    bothCan p (fun c => { c with pend := drop c.pend, next := drop c.next }) (s.modCanPort p (fun r => { r with supp := supp ++ [key] }))
  else s

/-- The active controller's counters and reports after an error (14 R549, R551, R552; ISO 11898-1). Log entry 97 (DEDUCED, unsafe). -/
def countError (x : Side) (p : Nat) (e : CanErr) (s : State) : State :=
  let m := (s.ld x).fmn.img
  match e.tx with
  | none =>
    let up := (if e.typ = 1 then 0 else 1) + (if e.dominant || e.typ = 1 then 8 else 0)
    if e.exempt then s else confine x p (s.modCan x p (fun c => { c with rec_ := min 255 (c.rec_ + up) }))
  | some _ =>
    let c := (s.ld x).can.port p
    let free := e.exempt || (e.typ = 5 && c.passive && !e.dominant)
    let s := s.modCan x p (fun c => { c with
      tec := if free then c.tec else min 256 (c.tec + 8)
      coll := if e.typ = 1 && e.dataField then Tab.upd 0 c.coll e.id (· + 1) else Tab.set 0 c.coll e.id 0 })
    let run := if e.typ = 5 then c.ackRun + 1 else 0
    let s := bothCan p (fun c => { c with ackRun := run }) s
    let s := if !c.noAck && (canDesc m p).elim false (fun d => le m (d + 3) 1 ≤ run) then
        raise (.landing x) 0x0A05 p (bothCan p (fun c => { c with noAck := true }) s)
      else s
    let s := if 3 ≤ Tab.get 0 c.coll e.id then collision x p e.id s else s
    confine x p (bothCan p (endAttempt none) s)

/-- CAN_BUS_ERROR at a landing's controller (14 R549, R565, R566). -/
def busError (x : Side) (p : Nat) (e : CanErr) (s : State) : State :=
  if !canOnBus s x p then s
  else
    let up := fun (b : Bool) (v : Nat) => satAdd 0xFF v (b2n b)
    let s := s.modCan x p (fun c => { c with
      bit := up (e.typ = 1) c.bit, stuff := up (e.typ = 2) c.stuff, crc := up (e.typ = 3 || e.typ = 4) c.crc,
      ack := up (e.typ = 5) c.ack, last := e.typ % 8, lastData := e.dataPhase })
    let s := raisePerSecond (.landing x) 0x0A0C p p s
    if canSends s x p then countError x p e s else s

/-- CAN_BUS_ERROR (14 R549). -/
def execCanBusError (at_ : Nat) (x : Side) (p : Nat) (e : CanErr) (s : State) : Host.Outcome State Fault Refusal :=
  .next (busError x p e (advance at_ s))

/-- A port's controllers error active with their counters at 0. -/
def resetCounters (p : Nat) (s : State) : State := bothCan p (fun c => { c with tec := 0, rec_ := 0, passive := false }) s

/-- BUS_OFF_RECOVERY (14 R550): counted by the active landing's controller while it is on the bus. -/
def busOffRecovery (p : Nat) (s : State) : State :=
  if (s.canPort p).off ≠ 2 || !s.activeSide.elim false (fun x => canOnBus s x p) then s
  else raise (activeSource s) 0x0A04 p (resetCounters p (s.modCanPort p (fun r => { r with off := 0, disc := true })))

/-- BUS_OFF_RECOVERY (14 R550). -/
def execBusOffRecovery (at_ p : Nat) (s : State) : Host.Outcome State Fault Refusal := .next (busOffRecovery p (advance at_ s))

/-- A port's record when another landing or manifest takes it (14 R538, R550, R553, R556): its next reference message reports a
discontinuity, and a port that is bus-off recovers afresh by the descriptor now in force. -/
def takePort (s : State) (p : Nat) (r : CanPort) : CanPort :=
  let m := (s.ld s.lead).fmn.img
  if canMode m p = 0 then r else { r with disc := true, off := if r.off = 3 && !canFlag m p 1 then 2 else r.off }

/-- A landing that ran the same manifest before the new active landing: the reference messages count from its start (14 R554, R556). -/
def keepStart (s : State) : State :=
  let l := s.ld s.lead
  let o := s.ld s.lead.other
  if o.can.start ≠ 0 && o.can.start < l.can.start && o.fmn.img = l.fmn.img then
    s.modLd s.lead (fun l => { l with can := { l.can with start := o.can.start } })
  else s

/-- A new active landing (14 R553, R556): its controllers start error active, with the counters at 0. -/
def canRoles (s : State) : State :=
  (List.range 8).foldl (fun s p =>
    (bothCan p (fun c => { c with tec := 0, rec_ := 0, passive := false, coll := [] }) s).modCanPort p (takePort s p)) (keepStart s)

/-! ### Time master (14 R554 to R556) -/

/-- Reference message number k due at or before an instant of module time in ns (14 R554). -/
def refNumber (start period phase now : Nat) : Option Nat :=
  let p := period * 1000
  let t0 := (start + p - 1) / p * p + phase * 1000
  if p = 0 || now < t0 then none else some ((now - t0) / p)

/-- The 8 bytes of a reference message (14 R555). -/
def refBytes (k : Nat) (disc : Bool) (sof : Nat) : List Byte :=
  let us := 1000 * nsUnit
  leBytes 1 (k % 64 + b2n disc * 128) ++ leBytes 1 (sof % us * 256 / us) ++ leBytes 6 (sof / us % 2 ^ 48)

/-- A time-master port of the active landing in modes 1 to 5: the landing, the descriptor, and the number of the message due last
(14 R554, R556). -/
def refDue (s : State) (p : Nat) : Option (Side × Nat × Nat) :=
  match s.activeSide with
  | none => none
  | some x =>
    let m := (s.ld x).fmn.img
    match canDesc m p with
    | none => none
    | some d =>
      if canFlag m p 3 && canMode m p = 1 && 1 ≤ s.mode && s.mode ≤ 5 then
        (refNumber (s.ld x).can.start (le m (d + 0x14) 4) (le m (d + 0x18) 4) s.nowNs).map (fun k => (x, d, k))
      else none

/-- REFERENCE_MESSAGE (14 R554 to R556): the message due last, once, outside a fail-over gap. Log entry 98 (DEDUCED, unsafe). -/
def sendReference (p sof : Nat) (s : State) : State :=
  match refDue s p with
  | none => s
  | some (x, d, k) =>
    if k < (s.canPort p).refDone || !canSends s x p || !canOnBus s x p || !s.passes x then s
    else
      let m := (s.ld x).fmn.img
      let disc := (s.canPort p).disc
      let b := refBytes k disc sof
      let f : CanFrame := { id := le m (d + 0x10) 4 % 2 ^ 29, ext := bitOf (le m (d + 0x10) 4) 29, dlen := 8, data := b }
      let s := s.modCanPort p (fun r => { r with
        disc := false, cycle := k % 64, refDisc := disc, refSent := (r.refSent + 1) % 65536, ref := b, refDone := k + 1 })
      eachSide (fun y => canOnBus s y p) (fun y s => offerFrame y p f (some 0) s) (sentOk x p (bothCan p (endAttempt none) s))

/-- REFERENCE_MESSAGE (14 R555). -/
def execReferenceMessage (at_ p sof : Nat) (s : State) : Host.Outcome State Fault Refusal := .next (sendReference p sof (advance at_ s))

/-- CAN_REF_LATE (14 R556): a message that has not been sent when the next is due is abandoned. -/
def refLate (p : Nat) (s : State) : State :=
  match refDue s p with
  | none => s
  | some (x, _, k) =>
    if (s.canPort p).refDone < k then raise (.landing x) 0x0A0B p (s.modCanPort p (fun r => { r with refDone := k })) else s

/-- CAN_REF_LATE (14 R556). -/
def execCanRefLate (at_ p : Nat) (s : State) : Host.Outcome State Fault Refusal := .next (refLate p (advance at_ s))

/-! ### Commands (14 R557, R558) -/

/-- The port is configured. -/
def canConfigured (s : State) (p : Nat) : Bool := p ≤ 7 && canMode (s.ld s.lead).fmn.img p ≠ 0

/-- `CAN_ISOLATED` raised on the landings in step. -/
def raiseIsolated (p : Nat) (s : State) : State := eachSide (fun x => s.inStep x) (fun x s => raise (.landing x) 0x0A0A p s) s

/-- CAN_ISOLATE (14 R557, R558). -/
def execCanIsolate (h : CmdHdr) (p : Nat) (s : State) : Host.Outcome State Fault Refusal :=
  .next (hostCommand h 0x0A01
    (fun s => { level := 2, range := canConfigured s p, state := !(s.canPort p).isolated })
    (fun s => done (raiseIsolated p (clearPending p (s.modCanPort p (fun r => { r with isolated := true }))))) s)

/-- CAN_RESTORE (14 R557). -/
def execCanRestore (h : CmdHdr) (p : Nat) (s : State) : Host.Outcome State Fault Refusal :=
  .next (hostCommand h 0x0A02
    (fun s => { level := 2, range := canConfigured s p, state := (s.canPort p).isolated })
    (fun s => done (raiseIsolated p (resetCounters p (s.modCanPort p (fun r => { r with isolated := false, off := 0, disc := true })))))
    s)

/-- CAN_BUS_ON (14 R550, R557). -/
def execCanBusOn (h : CmdHdr) (p : Nat) (s : State) : Host.Outcome State Fault Refusal :=
  .next (hostCommand h 0x0A03
    (fun s => { level := 1, range := canConfigured s p, state := (s.canPort p).off = 3 && canFlag (s.ld s.lead).fmn.img p 1 })
    (fun s => done (s.modCanPort p (fun r => { r with off := 2 }))) s)

/-- CAN_RELEASE_ID (14 R552, R557). -/
def execCanReleaseId (h : CmdHdr) (p id : Nat) (ext : Bool) (s : State) : Host.Outcome State Fault Refusal :=
  let key := id + b2n ext * 2 ^ 29
  .next (hostCommand h 0x0A04
    (fun s => { level := 1, range := canConfigured s p && id < 2 ^ 29, state := (s.canPort p).supp.contains key })
    (fun s => done (s.modCanPort p (fun r => { r with supp := r.supp.filter (fun k => k ≠ key) }))) s)

/-! ### Start, the mirror at a tick, load checks (14 R538, R559, R560) -/

/-- The CAN block at a manifest start at instant `t` ns; the mailboxes read 0 until their first frame (14 R569). -/
def startCan (t : Nat) (l : Landing) : Landing :=
  clearRange { l with can := { start := t, shown := l.can.shown } } 0x300A4000 0xC000

/-- The port records at a manifest start (14 R554, R556): the messages are counted from it. -/
def startCanRec (s : State) : State :=
  (List.range 8).foldl (fun s p => s.modCanPort p (fun r => { takePort s p r with disc := true, refDone := 0 })) s

/-- The records mirrored at a tick (14 R538). -/
def showCan (s : State) (x : Side) : State := s.modLd x (fun l => { l with can := { l.can with shown := canMirror s } })

/-- The descriptor of port `i` at image offset `d` in range (14 R559, R560). -/
def canDescOk (m : Tab Byte) (d i : Nat) : Bool :=
  let f := fun (k n : Nat) => le m (d + k) n
  let nom := f 4 1 * (1 + f 6 2 + f 5 1)
  let dat := f 9 1 * (1 + f 0xA 1 + f 0xB 1)
  let inR := fun (v lo hi : Nat) => lo ≤ v && v ≤ hi
  f 0 1 = i && f 1 1 ≤ 3 && (f 1 1 = 0 ||
    (f 2 1 < 32 && inR (f 3 1) 1 255 && inR (f 4 1) 1 32 && inR (f 5 1) 1 128 && inR (f 6 2) 2 256 && inR (f 8 1) 1 (f 5 1)
      && inR (f 9 1) 1 32 && inR (f 0xA 1) 1 32 && inR (f 0xB 1) 1 16 && inR (f 0xC 1) 1 (f 0xB 1) && f 0xD 1 ≤ 127 && f 0xE 2 = 0
      && f 0x10 4 < 2 ^ 30 && inR (f 0x14 4) 1000 1000000 && f 0x18 4 < f 0x14 4 && (List.range 36).all (fun k => f (0x1C + k) 1 = 0)
      && 80 ≤ nom && (!bitOf (f 2 1) 0 || (16 ≤ dat && dat ≤ nom)) && (!bitOf (f 2 1) 3 || f 1 1 = 1)))

/-- The SENDs of pattern `p` on a port, as cycles and buffers. -/
def canSendsOf (m : Tab Byte) (p : Nat) : List (Nat × Nat) :=
  ((dispatches m p).filter (fun e => e.unit = 0x0A)).map (fun e => (e.cycle, e.job))

/-- The SENDs of a pattern pass (14 R560): known codes, NORMAL ports, and 8 core cycles apart on a port. -/
def canSendsOk (m : Tab Byte) (p : Nat) : Bool :=
  let ds := canSendsOf m p
  (dispatches m p).all (fun e => e.unit ≠ 0x0A || e.op = 1) && ds.all (fun e => e.2 < 128 && canMode m (e.2 / 16) = 1)
    && ds.all (fun e => ds.all (fun g => e = g || e.2 / 16 ≠ g.2 / 16 || e.1 + 8 ≤ g.1 || g.1 + 8 ≤ e.1))

/-- The CAN part refused (14 R560): the image offset of the fault; without a part every port is unused. -/
def canPartBad (m : Tab Byte) : Option Nat :=
  let sends := (List.range (patternCount m)).all (canSendsOk m)
  match enginePart m 0x0A with
  | none => if sends then none else some ((sectionOf m 0x0001).elim 0 (fun c => c.off))
  | some (o, len) =>
    if len ≠ 512 + 4096 then some o
    else
      match (List.range 8).find? (fun i => !canDescOk m (o + 64 * i) i) with
      | some i => some (o + 64 * i)
      | none =>
        let bad := (List.range 512).find? (fun k =>
          canMode m (k / 64) ≠ 0 && 2 ^ 30 ≤ (canFilter m (k / 64) (k % 64)).2)
        match bad with
        | some k => some (o + 512 + 8 * k)
        | none => if sends then none else some o

/-- A SEND that precedes the slot claim writing its buffer (14 R560): none of the claims of its pattern that write it has been visible
by then (02 R75). -/
def canDepBad (m : Tab Byte) : Bool :=
  (List.range (patternCount m)).any (fun p =>
    let cs := (claims m p).filter (fun k => k.dst = 0x26)
    (canSendsOf m p).any (fun e =>
      let a := canBuffer e.2
      let ws := cs.filter (fun k => k.to_ < a + 96 && a < k.to_ + 8 * k.beats)
      !ws.isEmpty && ws.all (fun k => e.1 < 32 * k.slot + 48)))

end Sys2Proof.Machine
end

