-- ==== Sys2Proof/Machine/Control.lean ====
section
/-!
DEFINITION. The control engine (chapter 08): loops, samples, coefficient banks, swaps and fades.
-/
namespace Sys2Proof.Machine

/-! ### Configuration (08 R332) -/

/-- A field of the part's header; the number of loops and of slots. -/
def ctlHdr (m : Tab Byte) (k n : Nat) : Nat := if (enginePart m 7).isNone then 0 else le m (partOff m 7 + k) n
def ctlCount (m : Tab Byte) : Nat := ctlHdr m 0 2

/-- The image offsets of the loop descriptors; the descriptor of loop `n`. -/
def ctlDescs (m : Tab Byte) : List Nat := (List.range (ctlCount m)).map (fun i => partOff m 7 + 16 + 32 * i)
def ctlDesc (m : Tab Byte) (n : Nat) : Option Nat := (ctlDescs m).find? (fun o => le m o 2 = n)

/-- Fields of a loop descriptor. -/
def cSections (m : Tab Byte) (o : Nat) : Nat := le m (o + 2) 1
def cFlag (m : Tab Byte) (o b : Nat) : Bool := bitOf (le m (o + 3) 1) b
def cFirst (m : Tab Byte) (o : Nat) : Nat := le m (o + 4) 2
def cPreload (m : Tab Byte) (o : Nat) : F32 := BitVec.ofNat 32 (le m (o + 8) 4)
def cHold (m : Tab Byte) (o : Nat) : F32 := BitVec.ofNat 32 (le m (o + 0xC) 4)

/-- Where the header of loop `n` and section slot `j` of a bank lie (08 R322, R323). -/
def hdrAddr (bank n : Nat) : Nat := 0x30072000 + 0x3000 * bank + 48 * n
def slotAddr (bank j : Nat) : Nat := 0x30078000 + 0x4000 * bank + 16 * j

/-! ### BF24 arithmetic (08 R309 to R313) -/

/-- A mantissa re-normalised, and whether it saturated (08 R309). -/
def renorm (v eOld eNew : Int) : Int × Bool :=
  let r := scaleRound v (eOld - eNew)
  (satInt 24 r, satInt 24 r ≠ r)

/-- An FP32 number as a mantissa at an exponent, and whether it saturated (08 R310). -/
def toMantissa (v : F32) (e : Int) : Int × Bool :=
  match unpack f32 v.toNat with
  | .fin sg mm ex =>
    let r := scaleRound (if sg then -(mm : Int) else mm) (ex + 23 - e)
    (satInt 24 r, satInt 24 r ≠ r)
  | .inf sg => (if sg then -(2 ^ 23) else 2 ^ 23 - 1, true)
  | .nan _ => (0, true)

/-- A sum a * 2^p + b * 2^q rounded convergently. -/
def sumRound (a p b q : Int) : Int :=
  let k := min p q
  scaleRound (a * 2 ^ (p - k).toNat + b * 2 ^ (q - k).toNat) k

/-- A bank's content as a loop reads it: the header, and the section slots. -/
structure CtlBank where
  hdr : List Byte := []
  slots : List Byte := []

/-- The signed field of `n` bytes at an offset of a byte list. -/
def sFld (b : List Byte) (o n : Nat) : Int := sval (8 * n) (ofLe ((b.drop o).take n))

def CtlBank.eIn (k : CtlBank) : Int := sFld k.hdr 0 1
def CtlBank.eY (k : CtlBank) : Int := sFld k.hdr 1 1
def CtlBank.eI (k : CtlBank) : Int := sFld k.hdr 2 1
def CtlBank.eK (k : CtlBank) : Int := sFld k.hdr 3 1
def CtlBank.kI (k : CtlBank) : Int := sFld k.hdr 4 3
def CtlBank.iMax (k : CtlBank) : Int := sFld k.hdr 8 3
def CtlBank.iMin (k : CtlBank) : Int := sFld k.hdr 0xC 3
def CtlBank.yMax (k : CtlBank) : Int := sFld k.hdr 0x10 3
def CtlBank.yMin (k : CtlBank) : Int := sFld k.hdr 0x14 3
def CtlBank.delta (k : CtlBank) : Int := sFld k.hdr 0x18 3
def CtlBank.eOut (k : CtlBank) (i : Nat) : Int := sFld k.hdr (0x20 + i) 1
def CtlBank.coef (k : CtlBank) (i q : Nat) : Int := sFld k.slots (16 * i + 3 * q) 3
def CtlBank.eC (k : CtlBank) (i : Nat) : Int := sFld k.slots (16 * i + 15) 1

/-- A section's input exponent. -/
def CtlBank.eA (k : CtlBank) (i : Nat) : Int := if i = 0 then k.eIn else k.eOut (i - 1)

/-- One section (08 R311): its output and whether it saturated. -/
def sectionOut (k : CtlBank) (i : Nat) (x0 : Int) (h : Int × Int × Int × Int) : Int × Bool :=
  let c := k.coef i
  let num := c 0 * x0 + c 1 * h.1 + c 2 * h.2.1
  let den := c 3 * h.2.2.1 + c 4 * h.2.2.2
  let r := sumRound num (k.eA i + k.eC i - 23 - k.eOut i) (-den) (k.eC i - 23)
  (satInt 24 r, satInt 24 r ≠ r)

/-- The cascade: the output, the histories, and whether a section saturated; sections `i` upward. -/
def cascade (k : CtlBank) : Nat → List (Int × Int × Int × Int) → Int → Int × List (Int × Int × Int × Int) × Bool
  | _, [], x => (x, [], false)
  | i, h :: t, x =>
    let y := sectionOut k i x h
    let r := cascade k (i + 1) t y.1
    (r.1, (x, h.1, y.1, h.2.2.1) :: r.2.1, y.2 || r.2.2)

/-- One sample of a path: the path after it and the flags SAT_HI, SAT_LO, RATE, INT_CLAMP, SEC_SAT as bits 0 to 4 (08 R310 to
R313). -/
def samplePath (cond : Bool) (k : CtlBank) (u : F32) (p : CtlPath) : CtlPath × Nat :=
  let x := toMantissa u k.eIn
  let c := cascade k 0 p.hist x.1
  let ku := k.kI * x.1
  let skip := cond && ((p.satHi && 0 < ku) || (p.satLo && ku < 0))
  let sum := satInt 24 (sumRound p.integ 0 ku (k.eK + k.eIn - 23 - k.eI))
  let clamped := max k.iMin (min sum k.iMax)
  let integ := if skip then p.integ else clamped
  let iflag := !skip && clamped ≠ sum
  let eC := if p.hist.isEmpty then k.eIn else k.eOut (p.hist.length - 1)
  let y0 := satInt 24 (sumRound c.1 (eC - k.eY) integ (k.eI - k.eY))
  let y1 := min y0 k.yMax
  let y2 := max k.yMin y1
  let y3 := if k.delta = 0 then y2 else max (p.prev - k.delta) (min y2 (p.prev + k.delta))
  ({ hist := c.2.1, integ := integ, prev := y3, satHi := y1 ≠ y0, satLo := y2 ≠ y1 },
   b2n (y1 ≠ y0) + 2 * b2n (y2 ≠ y1) + 4 * b2n (y3 ≠ y2) + 8 * b2n iflag + 16 * b2n (x.2 || c.2.2))

/-- A path taken over by a bank (08 R327), and whether a re-normalisation saturated. -/
def takeOver (old new : CtlBank) (p : CtlPath) : CtlPath × Bool :=
  let hs := (List.range p.hist.length).map (fun i =>
    let h := p.hist.getD i (0, 0, 0, 0)
    let x1 := renorm h.1 (old.eA i) (new.eA i)
    let x2 := renorm h.2.1 (old.eA i) (new.eA i)
    let y1 := renorm h.2.2.1 (old.eOut i) (new.eOut i)
    let y2 := renorm h.2.2.2 (old.eOut i) (new.eOut i)
    ((x1.1, x2.1, y1.1, y2.1), x1.2 || x2.2 || y1.2 || y2.2))
  let i := renorm p.integ old.eI new.eI
  let q := renorm p.prev old.eY new.eY
  ({ p with hist := hs.map (fun h => h.1), integ := max new.iMin (min i.1 new.iMax), prev := q.1 },
   hs.any (fun h => h.2) || i.2 || q.2)

/-- The blended output of fade sample `j` of `f` (08 R328). -/
def blend (old new : CtlBank) (yo yn : Int) (f j : Nat) : Int :=
  let a := yo * ((f - 1 - j : Nat) : Int)
  let b := yn * ((j + 1 : Nat) : Int)
  let d := old.eY - new.eY
  satInt 24 (if 0 ≤ d then roundDiv (a * 2 ^ d.toNat + b) f else roundDiv (a + b * 2 ^ (-d).toNat) (f * 2 ^ (-d).toNat))

/-! ### A sample (08 R308 to R321, R327 to R330) -/

/-- Loop `n` of landing `x` changed. -/
def State.modLoop (s : State) (x : Side) (n : Nat) (f : CtlLoop → CtlLoop) : State :=
  s.modLd x (fun l => { l with ctl := { l.ctl with loops := Tab.upd {} l.ctl.loops n f } })

/-- A loop's part of a bank read: its content and whether a word is poisoned. -/
def readBank (x : Side) (m : Tab Byte) (o n bank : Nat) (s : State) : CtlBank × Bool × State :=
  let h := memReadN x (hdrAddr bank n) 6 s
  let t := memReadN x (slotAddr bank (cFirst m o)) (2 * cSections m o) h.2
  ({ hdr := ofWords h.1, slots := ofWords t.1 }, (h.1 ++ t.1).any (fun w => w.p), t.2)

/-- The output word (08 R318); `fl` holds bits 32 and up. -/
def outWord (v : F32) (fl count : Nat) : Pw := ⟨BitVec.ofNat 64 (v.toNat + fl * 2 ^ 32 + count % 65536 * 2 ^ 48), false⟩

/-- A held sample (08 R319, R320): `flag` is 9 for HELD, 10 for NAN_IN; `hold` the loop's hold value, which a disabled loop's word
carries (08 R321). Log entry 63 (DEDUCED, unsafe). -/
def heldSample (x : Side) (n flag : Nat) (disabled : Bool) (hold : F32) (s : State) : State :=
  let t := (s.ld x).ctl.loop n
  let v := if disabled then hold else t.out
  let fl := 2 ^ flag + b2n disabled * 256 + b2n t.pend.isSome * 64 + t.bank * 128 + b2n t.written * 2048
  let s := memWrite x (0x30071800 + 8 * n) (outWord v fl (t.count + 1)) s
  s.modLoop x n (fun t => { t with out := v, flags := fl, count := (t.count + 1) % 65536, written := false })

/-- CTL_LOOP: one sample of loop `n` (08 R308). Log entry 63 (DEDUCED, unsafe). -/
def loopOp (x : Side) (n : Nat) (s : State) : State :=
  let m := (s.ld x).fmn.img
  match ctlDesc m n with
  | none => s
  | some o =>
    let t := (s.ld x).ctl.loop n
    let disabled := cFlag m o 1 && ctlDisabled s
    -- the swap decision: what the sample will run on
    let due := if t.fade.isSome then none else t.pend
    let null := due.elim false (fun p => p.1 = t.bank)
    let swap := if null then none else due
    let bank := swap.elim t.bank (fun p => p.1)
    let two := t.fade.isSome || swap.isSome
    let inp := memRead x (0x30071000 + 8 * n) s
    let kn := readBank x m o n bank inp.2
    let ko := if two then readBank x m o n (1 - bank) kn.2.2 else ({}, false, kn.2.2)
    let s := ko.2.2
    if inp.1.p || kn.2.1 || ko.2.1 then
      raise (.landing x) 0x0701 n (heldSample x n 9 disabled (cHold m o) s)
    else
      let meas : F32 := inp.1.v.extractLsb' 0 32
      let ref : F32 := inp.1.v.extractLsb' 32 32
      let u := if cFlag m o 3 then F32.sub ref meas else meas
      if !F32.finite u then raisePerSecond (.landing x) 0x0704 n n (heldSample x n 10 disabled (cHold m o) s)
      else
        let s := if null then raise (.landing x) 0x0709 n s else s
        let s := if swap.isSome then
            let s := s.modLd x (fun l => { l with ctl := { l.ctl with swaps := satAdd 0xFFFF l.ctl.swaps 1 } })
            raise (.landing x) 0x0706 n s
          else s
        let cond := cFlag m o 2
        let tk := if swap.isSome then takeOver ko.1 kn.1 t.path else (t.path, false)
        let fade := match swap with
          | some p => if p.2 = 0 then none else some (p.2, 0)
          | none => t.fade
        let oldP := if swap.isSome then t.path else t.old
        let rn := samplePath cond kn.1 u tk.1
        let ro := if fade.isSome then samplePath cond ko.1 u oldP else (oldP, 0)
        let y := match fade with
          | some f => blend ko.1 kn.1 ro.1.prev rn.1.prev f.1 f.2
          | none => rn.1.prev
        let safe := fun (k : CtlBank) (p : CtlPath) =>
          if disabled then { p with integ := (toMantissa (cPreload m o) k.eI).1, prev := (toMantissa (cHold m o) k.eY).1 } else p
        let v := if disabled then cHold m o else F32.ofDyadic y (kn.1.eY - 23)
        let pend := if due.isSome then none else t.pend
        let fl := (rn.2 ||| ro.2 ||| (16 * b2n tk.2)) + 32 * b2n fade.isSome + 64 * b2n pend.isSome + 128 * bank
          + 256 * b2n disabled + 2048 * b2n t.written
        let next := fade.bind (fun f => if f.2 + 1 = f.1 then none else some (f.1, f.2 + 1))
        let was := bitOf t.flags 0 || bitOf t.flags 1
        let s := s.modLoop x n (fun t => { t with
          bank := bank, path := safe kn.1 rn.1, old := if fade.isSome then safe ko.1 ro.1 else oldP, fade := next, pend := pend,
          out := v, flags := fl, count := (t.count + 1) % 65536, written := false })
        let s := memWrite x (0x30071800 + 8 * n) (outWord v fl (t.count + 1)) s
        if (bitOf fl 0 || bitOf fl 1) && !was then raisePerSecond (.landing x) 0x0705 n n s else s

/-- CTL_LOOP (08 R308). -/
def execCtlLoop (at_ : Nat) (x : Side) (n : Nat) (s : State) : Host.Outcome State Fault Refusal :=
  .next (runEntry x 0x07 1 (some n) none (fun _ => loopOp x n) (advance at_ s))

/-! ### Writes and swap requests (08 R324 to R330) -/

/-- The loop that owns section slot `j`, as its descriptor. -/
def slotOwner (m : Tab Byte) (j : Nat) : Option Nat :=
  (ctlDescs m).find? (fun o => cFirst m o ≤ j && j < cFirst m o + cSections m o)

/-- The descriptor of the loop that a write touches. -/
def writeLoop (m : Tab Byte) (d : List Byte) : Option Nat :=
  if ofLe ((d.drop 2).take 1) = 2 then slotOwner m (ofLe (d.take 2)) else ctlDesc m (ofLe (d.take 2))

/-- A 32-bit value that an exponent item or a mantissa word may take (08 R309, R322). -/
def expOk (v : Nat) : Bool := let e := sval 32 v; -100 ≤ e && e ≤ 100
def mantOk (v : Nat) : Bool := sval 32 v == sval 24 v

/-- A write descriptor in range (08 R325). Log entry 64 (DEDUCED, unsafe). -/
def ctlWriteOk (m : Tab Byte) (d : List Byte) : Bool :=
  let f := fun (o n : Nat) => ofLe ((d.drop o).take n)
  let kind := f 2 1
  let item := f 4 1
  let v := f 8 4
  d.length = 16 && kind ≤ 3 && f 3 1 ≤ 1 && f 5 1 = 0 && f 0xC 4 = 0 && (writeLoop m d).isSome
    && (kind ≠ 1 || (item ≤ 17 && (if 4 ≤ item && item ≤ 9 then mantOk v && (item ≠ 9 || 0 ≤ sval 32 v) else expOk v)))
    && (kind ≠ 2 || (item ≤ 5 && (if item = 5 then expOk v else mantOk v)))
    && (kind ≠ 3 || (f 6 2 ≤ 1024 && (f 6 2 = 0 || (writeLoop m d).elim false (fun o => cFlag m o 0))))

/-- A bank in use by a loop: its own, and in a fade both (08 R326). -/
def bankInUse (t : CtlLoop) (b : Nat) : Bool := t.bank = b || t.fade.isSome

/-- Where a single write goes, and its bytes (08 R322 to R324). -/
def writeTarget (d : List Byte) : Nat × List Byte :=
  let f := fun (o n : Nat) => ofLe ((d.drop o).take n)
  let item := f 4 1
  if f 2 1 = 1 then
    let a := hdrAddr (f 3 1) (f 0 2)
    if item ≤ 3 then (a + item, leBytes 1 (f 8 4))
    else if item ≤ 9 then (a + 4 + 4 * (item - 4), leBytes 4 (f 8 4))
    else (a + 0x20 + (item - 10), leBytes 1 (f 8 4))
  else
    let a := slotAddr (f 3 1) (f 0 2)
    if item ≤ 4 then (a + 3 * item, leBytes 3 (f 8 4)) else (a + 15, leBytes 1 (f 8 4))

/-- A swap request at its arrival (08 R330). -/
def swapRequest (x : Side) (n bank f : Nat) (s : State) : State :=
  let t := (s.ld x).ctl.loop n
  let s' := s.modLoop x n (fun t => { t with pend := some (bank, f) })
  if t.pend.isSome then raise (.landing x) 0x0708 n s'
  else if t.fade.isSome then raise (.landing x) 0x0707 n s'
  else s'

/-- A write descriptor that passed its checks carried out on landing `x` (08 R324, R326); `host` for a host command. -/
def ctlApply (x : Side) (host : Bool) (d : List Byte) (s : State) : State :=
  let f := fun (o n : Nat) => ofLe ((d.drop o).take n)
  if f 2 1 = 0 then s
  else if f 2 1 = 3 then swapRequest x (f 0 2) (f 3 1) (f 6 2) s
  else
    let m := (s.ld x).fmn.img
    let w := writeTarget d
    let s := memPut x w.1 w.2 s
    let s := s.modLd x (fun l => { l with ctl := { l.ctl with writes := satAdd 0xFFFF l.ctl.writes 1 } })
    match writeLoop m d with
    | none => s
    | some o =>
      let n := le m o 2
      if bankInUse ((s.ld x).ctl.loop n) (f 3 1) then
        let s := s.modLoop x n (fun t => { t with written := true })
        if host then raise (.landing x) 0x070A n s else s
      else s

/-- APPLY (08 R324, R325): the entry carried out or ignored, then its kind field written with 0. -/
def applyOp (x : Side) (q : Nat) (s : State) : State :=
  let a := 0x30070800 + 16 * (q % 64)
  let r := memReadN x a 2 s
  let d := ofWords r.1
  let s := if r.1.any (fun w => w.p) then raise (.landing x) 0x0702 q r.2
    else if d.getD 2 0 = 0 then r.2
    else if ctlWriteOk (s.ld x).fmn.img d then ctlApply x false d r.2
    else raisePerCrossing x 0x0703 q 0 r.2
  memPut x (a + 2) [0] s

/-- APPLY (08 R324). -/
def execApply (at_ : Nat) (x : Side) (q : Nat) (s : State) : Host.Outcome State Fault Refusal :=
  .next (runEntry x 0x07 2 (some q) none (fun _ => applyOp x q) (advance at_ s))

/-- CTL_WRITE (08 R334, R335). -/
def execCtlWrite (h : CmdHdr) (data : List Byte) (s : State) : Host.Outcome State Fault Refusal :=
  .next (hostCommand h 0x0701
    (fun s =>
      let l := s.ld s.lead
      let m := l.fmn.img
      let k := ofLe ((data.drop 2).take 1)
      let live := (writeLoop m data).elim false (fun o => cFlag m o 1 && bankInUse (l.ctl.loop (le m o 2)) (ofLe ((data.drop 3).take 1)))
      { level := 2, format := data.length = 16 && (k = 1 || k = 2), range := ctlWriteOk m data,
        state := !((s.mode = 3 || s.mode = 4) && live) })
    (fun s => done (eachSide (fun _ => true) (fun x s => ctlApply x true data s) s)) s)

/-- CTL_SWAP (08 R334, R335). -/
def execCtlSwap (h : CmdHdr) (loop bank fade : Nat) (s : State) : Host.Outcome State Fault Refusal :=
  .next (hostCommand h 0x0702
    (fun s =>
      let m := (s.ld s.lead).fmn.img
      { level := 1, range := bank ≤ 1 && fade ≤ 1024 && (ctlDesc m loop).elim false (fun o => fade = 0 || cFlag m o 0) })
    (fun s => done (eachSide (fun _ => true) (fun x s => swapRequest x loop bank fade s) s)) s)

/-! ### Start, registers and load checks (08 R332, R333) -/

/-- The initial banks in the part: headers and slots of a bank as image offsets. -/
def ctlHdrOff (m : Tab Byte) (bank i : Nat) : Nat := partOff m 7 + 16 + 32 * ctlCount m + 48 * (ctlCount m * bank + i)
def ctlSlotOff (m : Tab Byte) (bank j : Nat) : Nat :=
  partOff m 7 + 16 + 32 * ctlCount m + 96 * ctlCount m + 16 * (ctlHdr m 2 2 * bank + j)

/-- The slots of the configured loops in ascending order: what the part's slot lists hold. -/
def ctlSlots (m : Tab Byte) : List Nat :=
  (List.range 1024).filter (fun j => (slotOwner m j).isSome)

/-- The engine at a manifest start (08 R332). -/
def startCtl (l : Landing) : Landing :=
  let m := l.fmn.img
  let l := { l with ctl := {} }
  if (enginePart m 7).isNone then l
  else
    let js := ctlSlots m
    let cells := [0, 1].flatMap (fun b =>
      (List.range (ctlCount m)).map (fun i => (hdrAddr b (le m (partOff m 7 + 16 + 32 * i) 2), bytesAt m (ctlHdrOff m b i) 48))
        ++ (List.range js.length).map (fun i => (slotAddr b (js.getD i 0), bytesAt m (ctlSlotOff m b i) 16)))
    let l := putAll l cells
    (ctlDescs m).foldl (fun (l : Landing) o =>
      let n := le m o 2
      let b := le m (o + 0x10) 1
      let i := (o - partOff m 7 - 16) / 32
      let h := ctlHdrOff m b i
      let eY := sval 8 (le m (h + 1) 1)
      let eI := sval 8 (le m (h + 2) 1)
      let p : CtlPath := { hist := List.replicate (cSections m o) (0, 0, 0, 0), integ := (toMantissa (cPreload m o) eI).1,
                           prev := (toMantissa (cHold m o) eY).1 }
      { l with ctl := { l.ctl with loops := Tab.set {} l.ctl.loops n { bank := b, path := p, old := p, out := cHold m o } } }) l

/-- The registers at a tick. -/
def showCtl (s : State) (x : Side) : State :=
  let l := s.ld x
  s.modLd x (fun l' => { l' with ctl := { l'.ctl with shown := ctlOffsets.foldl (fun t o => Tab.set 0 t o (ctlNow s l o)) [] } })

/-- Latency and initiation interval of a control operation (08 R316). -/
def ctlCost (m : Tab Byte) (op job : Nat) : Nat × Nat :=
  if op = 2 then (18, 2)
  else match ctlDesc m job with
    | some o =>
      let c := max 1 (cSections m o) * (if cFlag m o 0 then 2 else 1)
      (6 * c + 12, 2 * c)
    | none => (18, 2)

/-- An initial header in range (08 R309, R322). -/
def ctlHdrOk (m : Tab Byte) (h : Nat) : Bool :=
  let e := fun (k : Nat) => let v := sval 8 (le m (h + k) 1); -100 ≤ v && v ≤ 100
  let w := fun (k : Nat) => mantOk (le m (h + k) 4)
  (List.range 4).all e && (List.range 8).all (fun k => e (0x20 + k)) && (List.range 6).all (fun k => w (4 + 4 * k))
    && 0 ≤ sval 32 (le m (h + 0x18) 4) && le m (h + 0x1C) 4 = 0 && le m (h + 0x28) 8 = 0

/-- The hold value is exact at the output exponent of a header. -/
def holdExact (v : F32) (eY : Int) : Bool :=
  let r := toMantissa v eY
  !r.2 && F32.eq (F32.ofDyadic r.1 (eY - 23)) v

/-- The dispatch schedule of one loop (08 R315). Log entry 64 (DEDUCED, unsafe). -/
def ctlScheduleOk (m : Tab Byte) (o : Nat) : Bool :=
  let n := le m o 2
  let p := le m (o + 6) 1
  let ph := le m (o + 7) 1
  let L := imgCycle m
  let cyc := fun (i : Nat) => ((dispatches m (cyclePattern m i)).filter (fun e => e.unit = 7 && e.op = 1 && e.job = n)).map (fun e => e.cycle)
  if p = 7 then
    let leg := periodCycles (imgPeriod m) / 8
    match (cyc 0).head? with
    | none => false
    | some c0 => (List.range L).all (fun i => cyc i = (List.range 8).map (fun k => c0 + k * leg)) && c0 < leg
  else
    let q := 2 ^ p
    L % q = 0 && (match (cyc ph).head? with
      | none => false
      | some c0 => (List.range L).all (fun i => cyc i = if i % q = ph then [c0] else []))

/-- The control part refused (08 R333): the image offset of the fault. -/
def ctlPartBad (m : Tab Byte) : Option Nat :=
  match enginePart m 7 with
  | none => none
  | some (o, len) =>
    let n := ctlCount m
    let k := ctlHdr m 2 2
    let ds := ctlDescs m
    let fast := (ds.filter (fun d => le m (d + 6) 1 = 7)).length
    let head := n ≤ 256 && k ≤ 1024 && (List.range 11).all (fun i => ctlHdr m (5 + i) 1 = 0)
      && len = 16 + 32 * n + 96 * n + 32 * k && (ctlSlots m).length = k && fast = ctlHdr m 4 1 && fast ≤ 32
      && (ds.map (fun d => le m d 2)).eraseDups.length = n
    let descOk := fun (d : Nat) =>
      let p := le m (d + 6) 1
      le m d 2 ≤ 255 && cSections m d ≤ 8 && le m (d + 3) 1 < 16 && cFirst m d ≤ 1023 && cFirst m d + cSections m d ≤ 1024
        && p ≤ 7 && (if p = 7 then le m (d + 7) 1 = 0 else le m (d + 7) 1 < 2 ^ p) && le m (d + 0x10) 1 ≤ 1
        && (List.range 15).all (fun i => le m (d + 0x11 + i) 1 = 0)
        && ds.all (fun e => e = d || cSections m e = 0 || cSections m d = 0 || cFirst m e + cSections m e ≤ cFirst m d
          || cFirst m d + cSections m d ≤ cFirst m e)
        && [0, 1].all (fun b =>
          let h := ctlHdrOff m b ((d - o - 16) / 32)
          ctlHdrOk m h && holdExact (cHold m d) (sval 8 (le m (h + 1) 1)))
        && ctlScheduleOk m d
    let slotsOk := [0, 1].all (fun b => (List.range k).all (fun j =>
      let a := ctlSlotOff m b j
      let e := sval 8 (le m (a + 15) 1)
      decide ((-100 : Int) ≤ e) && e ≤ 100))
    let ops := (List.range (imgCycle m)).all (fun i => (dispatches m (cyclePattern m i)).all (fun e =>
      e.unit ≠ 7 || (e.op = 1 && (ctlDesc m e.job).isSome) || (e.op = 2 && e.job < 64)))
    if !head || !slotsOk || !ops then some o else ds.find? (fun d => !descOk d)

end Sys2Proof.Machine
end

