-- ==== Sys2Proof/Machine/Fusion.lean ====
section
/-!
DEFINITION. The reference fusion engine (chapter 06): samples taken in, the epoch, tracks, and the fusion commands.
-/
namespace Sys2Proof.Machine

/-! ### Configuration (06 R261) -/

/-- A field of the configuration header. -/
def fusHdr (m : Tab Byte) (k n : Nat) : Nat := if (enginePart m 5).isNone then 0 else le m (partOff m 5 + k) n

/-- An FP32 field at an offset, widened; an FP64 field. -/
def wideAt (m : Tab Byte) (o : Nat) : F64 := F32.widen (BitVec.ofNat 32 (le m o 4))
def f64At (m : Tab Byte) (o : Nat) : F64 := BitVec.ofNat 64 (le m o 8)

/-- The process noise densities of the nine states. -/
def fusQ (m : Tab Byte) : Vec := (List.range 9).map (fun i => wideAt m (partOff m 5 + 0x20 + 4 * i))

/-- The kind, time base, group and flags of the stream whose descriptor is at `d`. -/
def dKind (m : Tab Byte) (d : Nat) : Nat := le m (d + 1) 1
def dBase (m : Tab Byte) (d : Nat) : Nat := le m (d + 2) 1
def dGroup (m : Tab Byte) (d : Nat) : Nat := le m (d + 3) 1
def dFlag (m : Tab Byte) (d b : Nat) : Bool := bitOf (le m (d + 5) 1) b

/-- The interpolation and extrapolation limits in ns. -/
def dInterp (m : Tab Byte) (d : Nat) : Int := (le m (d + 0xC) 4 * 1000 : Nat)
def dExtrap (m : Tab Byte) (d : Nat) : Int := (le m (d + 0x10) 4 * 1000 : Nat)

/-- The epoch instant τ_e in ns of module time (06 R238), with crossings counted from the manifest start. -/
def fusTau (s : State) (x : Side) (e : Int) : Int :=
  let l := s.ld x
  let m := l.fmn.img
  let c : Int := ((l.fmn.crossing - l.fus.start : Nat) : Int)
  let ec : Int := (epochCrossings (imgPeriod m) : Nat)
  (((s.grid x).last / nsUnit : Nat) : Int) - (c - e * ec) * (periodNs (imgPeriod m) : Nat) - (fusHdr m 0 4 * 1000 : Nat)

/-- The epoch whose delivery window is open (06 R238). Log entry 110 (DESIGN CHOICE, safe). -/
def Fus.window (f : Fus) : Nat := f.closed.elim 0 (· + 1)

/-! ### ALIGN (06 R234 to R239) -/

/-- A clock model's offset at an instant (06 R236). -/
def FusClock.at_ (c : FusClock) (t : Int) : F64 := F64.add c.o (F64.mul c.rho (F64.ofInt (t - c.t)))

/-- A value in whole nanoseconds. -/
def toNs (v : F64) : Int := F64.toInt v 0 (-(2 ^ 63)) (2 ^ 63 - 1)

/-- An FP32 σ that is finite and positive. -/
def sigmaOk (b : Word) : Bool := F32.finite b && F32.lt 0 b

/-- The σ that a kind uses. -/
def usedSigma (kind : Nat) : List Nat := if kind ≤ 2 then [0, 1] else if kind = 5 then [0] else [0, 1, 2]

/-- A sample put in its place by instant. -/
def insertSample (p : FusSample) : List FusSample → List FusSample
  | [] => [p]
  | q :: t => if p.t < q.t then p :: q :: t else q :: insertSample p t

/-- A sample put into a history: joined to the list of the same stamp (06 R234), or in its place by instant. -/
def joinSample (p : FusSample) (l : List FusSample) : List FusSample :=
  if l.any (fun q => q.stamp = p.stamp) then
    l.map (fun q => if q.stamp = p.stamp then { q with objs := q.objs ++ p.objs } else q)
  else insertSample p l

/-- Stream `n` of landing `x` changed. -/
def State.modStream (s : State) (x : Side) (n : Nat) (f : FusStream → FusStream) : State :=
  s.modLd x (fun l => { l with fus := { l.fus with streams := Tab.upd {} l.fus.streams n f } })

/-- The smaller clock observation. -/
def minObs (old : Option (Int × Int)) (o : Int × Int) : Option (Int × Int) :=
  match old with
  | none => some o
  | some b => if o.1 < b.1 then some o else some b

/-- A sample stored as on time or late (06 R239). -/
def storeSample (x : Side) (n : Nat) (p : FusSample) (s : State) : State :=
  let f := (s.ld x).fus
  let e := f.window
  let s := s.modStream x n (fun t => { t with latest := (p.objs.getLast?).map (fun o => (o.2.1, o.2.2)) })
  if fusTau s x ((e : Int) - 1) < p.t then s.modStream x n (fun t => { t with hist := joinSample p t.hist })
  else
    let s := s.modStream x n (fun t => { t with late := (t.late + 1) % 256 })
    let h := (p.t - fusTau s x 0) / 10000000
    if h < (f.histFrom : Int) || 64 < (e : Int) - h then
      raise (.landing x) 0x0505 n
        (s.modLd x (fun l => { l with fus := { l.fus with lateDiscarded := satAdd 0xFFFF l.fus.lateDiscarded 1 } }))
    else s.modStream x n (fun t => { t with lates := joinSample p t.lates })

/-- The instant of a sample of stream state `t` (06 R233): a clock model's offset where the base is SOURCE. -/
def sampleInstant (base : Nat) (lam stamp a : Int) (t : FusStream) : Int :=
  if base = 0 then stamp
  else if base = 1 then a - lam
  else match (if t.adrift then t.cand else t.clk) with
    | some c => stamp + toNs (c.at_ a)
    | none => a - lam

/-- The words of an entry acted on (06 R235). -/
def alignEntry (x : Side) (ws : List Pw) (s : State) : State :=
  let b := ofWords ws
  let fld := fun (o n : Nat) => ofLe ((b.drop o).take n)
  let n := fld 0 1
  if n = 0xFF then s
  else if ws.any (fun w => w.p) then raise (.landing x) 0x0502 0 s
  else
    let m := (s.ld x).fmn.img
    let bad := raisePerSecond (.landing x) 0x0501 n n
    match fusDesc m n with
    | none => bad s
    | some d =>
      let k := dKind m d
      let sg := (List.range 3).map (fun i => BitVec.ofNat 32 (fld (0x30 + 4 * i) 4))
      if fld 2 2 ≥ 2 || fld 4 4 ≠ 0 || fld 0x3C 4 ≠ 0 || !((usedSigma k).all (fun i => sigmaOk (sg.getD i 0)))
          || (k ≠ 3 && k ≠ 4 && fld 1 1 ≠ 0) then bad s
      else
        let t := (s.ld x).fus.stream n
        let base := dBase m d
        let lam : Int := (le m (d + 8) 4 : Nat)
        let stamp : Int := (fld 8 8 : Nat)
        let a : Int := (fld 0x10 8 : Nat)
        let o := a - stamp - lam
        let s := if base = 2 then s.modStream x n (fun t => { t with
            oMin := minObs t.oMin (o, a),
            clk := if t.clk.isNone && !t.adrift then some { o := F64.ofInt o, t := a } else t.clk,
            cand := if t.cand.isNone && t.adrift then some { o := F64.ofInt o, t := a } else t.cand,
            candNew := t.candNew || (t.cand.isNone && t.adrift) }) else s
        let t := if base = 2 then (s.ld x).fus.stream n else t
        let inst := sampleInstant base lam stamp a t
        if a < inst then raisePerSecond (.landing x) 0x0503 n n s
        else if t.adrift then s
        else
          let ms := (List.range 3).map (fun i => BitVec.ofNat 64 (fld (0x18 + 8 * i) 8))
          storeSample x n { t := inst, a := a, stamp := if base = 1 then a else stamp, objs := [(fld 1 1, ms, sg)] } s

/-- ALIGN (06 R235): the entry acted on, then its stream field written with 0xFF. -/
def alignOp (x : Side) (q : Nat) (s : State) : State :=
  let a := 0x30053000 + 64 * (q % 64)
  let r := memReadN x a 8 s
  memPut x a [0xFF] (alignEntry x r.1 r.2)

/-- ALIGN (06 R235). -/
def execAlign (at_ : Nat) (x : Side) (q : Nat) (s : State) : Host.Outcome State Fault Refusal :=
  .next (runEntry x 0x05 1 (some q) none (fun _ => alignOp x q) (advance at_ s))

/-! ### Tracks (06 R247) -/

/-- A track record. `cov` is the covariance of (N, E, vN, vE). -/
structure FusTrack where
  st : Nat := 0
  typ : Nat := 0
  stream : Nat := 0
  hits : Nat := 0
  epoch : Nat := 0
  pos : F64 × F64 := (0, 0)
  vel : F64 × F64 := (0, 0)
  cov : Mat := []
  d2 : F32 := 0
  misses : Nat := 0
  label : Nat := 0
deriving DecidableEq, Repr

/-- The place of element (i, j) of the upper triangle by rows of a 4 by 4 matrix. -/
def triIdx (i j : Nat) : Nat := let a := min i j; let b := max i j; a * 4 - a * (a + 1) / 2 + b

/-- A track from its record. -/
def trackOf (b : List Byte) : FusTrack :=
  let fld := fun (o n : Nat) => ofLe ((b.drop o).take n)
  let d := fun (o : Nat) => BitVec.ofNat 64 (fld o 8)
  { st := fld 0 1, typ := fld 1 1, stream := fld 2 1, hits := fld 3 1, epoch := fld 4 4, pos := (d 8, d 0x10),
    vel := (d 0x18, d 0x20), cov := Mat.make 4 4 (fun i j => F32.widen (BitVec.ofNat 32 (fld (0x28 + 4 * triIdx i j) 4))),
    d2 := BitVec.ofNat 32 (fld 0x50 4), misses := fld 0x54 2, label := fld 0x58 8 }

/-- The record of a track. -/
def trackBytes (t : FusTrack) : List Byte :=
  let d := fun (v : F64) => leBytes 8 v.toNat
  let tri := [(0, 0), (0, 1), (0, 2), (0, 3), (1, 1), (1, 2), (1, 3), (2, 2), (2, 3), (3, 3)]
  leBytes 1 t.st ++ leBytes 1 t.typ ++ leBytes 1 t.stream ++ leBytes 1 t.hits ++ leBytes 4 t.epoch ++ d t.pos.1 ++ d t.pos.2
    ++ d t.vel.1 ++ d t.vel.2 ++ tri.flatMap (fun p => leBytes 4 (F64.narrow (t.cov.at_ p.1 p.2)).toNat)
    ++ leBytes 4 t.d2.toNat ++ leBytes 2 t.misses ++ leBytes 2 0 ++ leBytes 8 t.label ++ leBytes 32 0

/-- The address of track `j`. -/
def trackAddr (j : Nat) : Nat := 0x30058000 + 128 * j

/-! ### The work of an epoch (06 R258) -/

/-- A formed measurement: stream and its descriptor, how formed (as in the aligned table), the instant of the gate, the pivot's
instant, the values, the states measured, their covariance, the prior of a late one with its transition, and the outcome. -/
structure FusMeas where
  stream : Nat := 0
  d : Nat := 0
  obj : Nat := 0
  how : Nat := 0
  inst : Int := 0
  pivot : Int := 0
  z : Vec := []
  rows : List Nat := []
  r : Mat := []
  sigma : F64 := 0
  prior : Option (Vec × Mat × Mat) := none
  voted : Bool := false
  gated : Bool := false
  applied : Bool := false
  numeric : Bool := false
  d2 : F64 := 0
deriving DecidableEq, Repr

/-- What the steps of a `CLOSE` hand on: the engine, the tracks, the faults to raise in order as (code, detail, at most one
per second for the detail), the measurements, the prior's transition, the flags of the record, the streams out of service and
those of them excluded, the object-list streams served, and the tracks pinned through a poisoned transform. -/
structure FusWork where
  f : Fus := {}
  e : Nat := 0
  tau : Int := 0
  tracks : List FusTrack := []
  raises : List (Nat × Nat × Bool) := []
  late : List FusMeas := []
  onTime : List FusMeas := []
  jac : Mat := []
  flags : Nat := 0
  vel : F64 × F64 := (0, 0)
  excluded : List Nat := []
  barred : List Nat := []
  lists : List Nat := []
  badPins : List Nat := []
  median : F64 × F64 := (0, 0)
  voteSet : List (Nat × Nat × F64 × F64) := []
  posApplied : Bool := false
deriving DecidableEq, Repr

/-- A fault to raise. -/
def FusWork.note (w : FusWork) (code detail : Nat) (perSec : Bool) : FusWork :=
  { w with raises := w.raises ++ [(code, detail, perSec)] }

/-- A flag of the record set. -/
def FusWork.flag (w : FusWork) (b : Nat) : FusWork := { w with flags := w.flags ||| 2 ^ b }

/-- The filter is initialised (06 R245). -/
def Fus.valid (f : Fus) : Bool := f.posInit && f.headInit

/-- Stream `n` of the work changed. -/
def FusWork.modStream (w : FusWork) (n : Nat) (g : FusStream → FusStream) : FusWork :=
  { w with f := { w.f with streams := Tab.upd {} w.f.streams n g } }

/-! Step 2: clock models (06 R236, R237) -/

/-- A model updated by an epoch's smallest observation: the residual and the model, the rate first. Where the observation is at
the model's own instant the rate stays. Log entry 55 (DEDUCED, unsafe). -/
def clockUpdate (m : Tab Byte) (d : Nat) (c : FusClock) (o : Int × Int) : F64 × FusClock :=
  let eps := F64.sub (F64.ofInt o.1) (c.at_ o.2)
  let c := if o.2 = c.t then c
    else { c with rho := F64.add c.rho (F64.div (F64.mul (wideAt m (d + 0x24)) eps) (F64.ofInt (o.2 - c.t))) }
  (eps, { c with o := F64.add (c.at_ o.2) (F64.mul (wideAt m (d + 0x20)) eps), t := o.2 })

/-- The clock of one stream at a `CLOSE`. Log entry 55 (DEDUCED, unsafe). -/
def clockStep (m : Tab Byte) (w : FusWork) (d : Nat) : FusWork :=
  let n := le m d 1
  let t := w.f.stream n
  match t.oMin with
  | none => w
  | some o =>
    let w := w.modStream n (fun t => { t with oMin := none })
    let fresh : FusClock := { o := F64.ofInt o.1, t := o.2 }
    if dBase m d ≠ 2 then w
    else if t.adrift then
      match t.cand with
      | none => w
      | some c =>
        let u := clockUpdate m d c o
        if t.candNew then w.modStream n (fun t => { t with cand := some u.2, candNew := false, consistent := 0 })
        else if F64.le (F64.abs u.1) (wideAt m (d + 0x2C)) then
          if 63 ≤ t.consistent then
            (w.modStream n (fun t => { t with adrift := false, clk := some u.2, cand := none, consistent := 0, window := [] })).note
              0x0507 n false
          else w.modStream n (fun t => { t with cand := some u.2, consistent := t.consistent + 1 })
        else w.modStream n (fun t => { t with cand := some fresh, consistent := 0 })
    else
      match t.clk with
      | none => w
      | some c =>
        let u := clockUpdate m d c o
        if F64.lt (fN 10000000) (F64.abs u.1) || F64.lt (wideAt m (d + 0x28)) (F64.abs u.2.rho) then
          (w.modStream n (fun t => { t with adrift := true, clk := some u.2, cand := none, candNew := false, consistent := 0,
                                            hist := [], lates := [] })).note 0x0506 n false
        else w.modStream n (fun t => { t with clk := some u.2 })

/-! Measurements formed (06 R240 to R242) -/

/-- What forming a measurement needs besides the sample: lever arm and mounting angles by transform entry, origin, the vessel
state, the published roll and pitch with their instant and rates, and roll and pitch at the instant of the measurement. -/
structure FusFrame where
  tf : Nat → List Byte
  origin : F64 × F64 × F64
  x : Vec
  pub : F64 × F64
  pubAt : Int
  rate : F64 × F64
  roll : F64
  pitch : F64

/-- The frame at an instant: the published roll and pitch propagated to it with their rates (06 R242). -/
def FusFrame.moved (g : FusFrame) (t : Int) : FusFrame :=
  let dt := nsSec (t - g.pubAt)
  { g with roll := F64.add g.pub.1 (F64.mul g.rate.1 dt), pitch := F64.add g.pub.2 (F64.mul g.rate.2 dt) }

/-- Three FP64 values at an offset of a byte list. -/
def vec3 (b : List Byte) (o : Nat) : Vec := (List.range 3).map (fun i => BitVec.ofNat 64 (ofLe ((b.drop (o + 8 * i)).take 8)))

/-- R_v of a frame. -/
def FusFrame.rv (g : FusFrame) : Mat := rotation g.roll g.pitch (g.x.at_ 2)

/-- The body and world offset of an object: R_v (l + R_m o_s) (06 R242). -/
def objOffset (g : FusFrame) (entry kind : Nat) (v : Vec) : Vec :=
  let t := g.tf entry
  let a := vec3 t 0x20
  let c1 := F64.cos (v.at_ 1); let s1 := F64.sin (v.at_ 1)
  let c2 := F64.cos (v.at_ 2); let s2 := F64.sin (v.at_ 2)
  let os := if kind = 3 then v
    else [F64.mul (v.at_ 0) (F64.mul c2 c1), F64.mul (v.at_ 0) (F64.mul c2 s1), F64.neg (F64.mul (v.at_ 0) s2)]
  Mat.app 3 g.rv (Vec.add (vec3 t 8) (Mat.app 3 (rotation (a.at_ 0) (a.at_ 1) (a.at_ 2)) os))

/-- The values of a measurement of a kind that is not an object's (06 R242). -/
def formValues (g : FusFrame) (entry kind : Nat) (v : Vec) : Vec :=
  let t := g.tf entry
  let a := vec3 t 0x20
  if kind ≤ 2 then
    let p := if kind = 1 then nedOf g.origin v else v
    (Vec.sub p (Mat.app 3 g.rv (vec3 t 8))).take 2
  else if kind = 5 then [normAngle (F64.sub (v.at_ 0) (a.at_ 2))]
  else if kind = 6 then [F64.sub (v.at_ 0) (a.at_ 0), F64.sub (v.at_ 1) (a.at_ 1), v.at_ 2]
  else v

/-- The states a kind measures. -/
def kindRows (kind : Nat) : List Nat := if kind ≤ 4 then [0, 1] else if kind = 5 then [2] else []

/-- The variance of the first σ of a sample, or of an object's horizontal position (06 R242). -/
def sampleVar (kind : Nat) (v : Vec) (sg : List Word) : F64 :=
  if kind = 3 || kind = 4 then Config.objectVariance kind v sg
  else let a := F32.widen (sg.getD 0 0); F64.mul a a

/-- An isotropic covariance of the rows, plus a track's. -/
def measCov (rows : List Nat) (var : F64) (tr : Mat) : Mat :=
  Mat.make rows.length rows.length (fun i j => F64.add (if i = j then var else 0) (tr.at_ i j))

/-- How a pivot serves at τ (06 R240): how, the pivot, the values of a sample that is no list, the variance factor's other σ, and
the time it was moved by in ns. -/
structure FusAligned where
  how : Nat := 0
  p : FusSample := {}
  v : Vec := []
  other : List Word := []
  dt : Int := 0

/-- The pivot: the newest on-time sample no later than τ that no measurement has used (06 R240). -/
def pivotOf (h : List FusSample) (tau : Int) : Option FusSample :=
  (h.filter (fun p => p.t ≤ tau && !p.used)).getLast?

/-- The values and σ of a sample's first object. -/
def FusSample.vals (p : FusSample) : Vec := (p.objs.head?).elim [] (fun o => o.2.1)
def FusSample.sig (p : FusSample) : List Word := (p.objs.head?).elim [] (fun o => o.2.2)

/-- The line through two samples at a fraction (or multiple) of the way; a heading's difference normalised. -/
def lineAt (kind : Nat) (a b : Vec) (frac : F64) : Vec :=
  (List.range 3).map (fun i =>
    let d := F64.sub (b.at_ i) (a.at_ i)
    F64.add (a.at_ i) (F64.mul frac (if kind = 5 then normAngle d else d)))

/-- A stream's pivot aligned to τ; none where it forms no measurement. `rate` is the predicted yaw rate. -/
def alignTo (m : Tab Byte) (d : Nat) (h : List FusSample) (tau : Int) (rate : F64) : Option FusAligned :=
  let kind := dKind m d
  match pivotOf h tau with
  | none => none
  | some p =>
    if p.t = tau then some { how := 1, p := p, v := p.vals, other := p.sig }
    else
      let next := (h.filter (fun q => tau < q.t)).head?
      match (if kind = 3 || kind = 4 then none else next.filter (fun q => q.t - p.t ≤ dInterp m d)) with
      | some q =>
        some { how := 2, p := p, other := q.sig,
               v := lineAt kind p.vals q.vals (F64.div (F64.ofInt (tau - p.t)) (F64.ofInt (q.t - p.t))) }
      | none =>
        if tau - p.t ≤ dExtrap m d then
          let dt := tau - p.t
          let v := if kind = 5 then [F64.add (p.vals.at_ 0) (F64.mul rate (nsSec dt)), p.vals.at_ 1, p.vals.at_ 2]
            else if kind = 6 || kind = 7 then
              match ((h.filter (fun q => q.t < p.t)).getLast?).filter (fun q => p.t - q.t ≤ dInterp m d) with
              | some q => lineAt kind q.vals p.vals (F64.div (F64.ofInt (tau - q.t)) (F64.ofInt (p.t - q.t)))
              | none => p.vals
            else p.vals
          some { how := 3, p := p, v := v, other := p.sig, dt := dt }
        else none

/-- The variance of an aligned sample: the larger σ² of an interpolation, σ² + (σ_x dt)² of an extrapolation. -/
def alignedVar (m : Tab Byte) (d : Nat) (a : FusAligned) (base other : F64) : F64 :=
  let v := F64.max base other
  if a.how = 3 then
    let k := F64.mul (wideAt m (d + 0x1C)) (nsSec a.dt)
    F64.add base (F64.mul k k)
  else v

/-- A pivot marked as used. -/
def markUsed (t : Int) (stamp : Int) (h : List FusSample) : List FusSample :=
  h.map (fun p => if p.t = t && p.stamp = stamp then { p with used := true } else p)

/-! Association (06 R248) -/

/-- Candidate pairs as (d², object index, track, place of the object in the list). -/
abbrev FusPair := F64 × Nat × Nat × Nat

/-- The pair that goes first: the smaller d², then the lower object index, then the lower track. -/
def pairFirst (a b : FusPair) : FusPair :=
  if F64.lt b.1 a.1 then b
  else if F64.lt a.1 b.1 then a
  else if b.2.1 < a.2.1 || (b.2.1 = a.2.1 && b.2.2.1 < a.2.2.1) then b else a

/-- Pairs taken greedily; `n` bounds them. -/
def takeGreedy : Nat → List FusPair → List FusPair
  | 0, _ => []
  | _, [] => []
  | n + 1, p :: t =>
    let b := t.foldl pairFirst p
    b :: takeGreedy n ((p :: t).filter (fun q => q.2.2.2 ≠ b.2.2.2 && q.2.2.1 ≠ b.2.2.1))

/-- The d² of a world position against a track. -/
def trackD2 (w : F64 × F64) (cov : Mat) (t : FusTrack) : Option (F64) :=
  (invPd (Mat.add 2 2 cov t.cov)).map (fun si => quadForm [F64.sub w.1 t.pos.1, F64.sub w.2 t.pos.2] si)

/-- The objects of a list associated to the tracks that satisfy `may`: pairs of object and track with their d². Objects are
given as (position in the list, index, world position, covariance). Log entry 56 (DEDUCED, unsafe). -/
def associate (direct : Bool) (gate : F64) (may : FusTrack → Bool) (tracks : List FusTrack)
    (objs : List (Nat × Nat × (F64 × F64) × Mat)) : List FusPair :=
  let d2 := fun (o : Nat × Nat × (F64 × F64) × Mat) (t : FusTrack) => (trackD2 o.2.2.1 o.2.2.2 t).getD 0
  if direct then
    objs.filterMap (fun o =>
      match tracks[o.2.1]? with
      | some t => if t.st = 4 then some (d2 o t, o.2.1, o.2.1, o.1) else none
      | none => none)
  else
    let pairs := objs.flatMap (fun o => (List.range tracks.length).filterMap (fun j =>
      match tracks[j]? with
      | some t =>
        if t.st ≠ 0 && may t then
          match trackD2 o.2.2.1 o.2.2.2 t with
          | some v => if F64.le v gate then some (v, o.2.1, j, o.1) else none
          | none => none
        else none
      | none => none))
    takeGreedy objs.length pairs

/-- A track carried over 10 ms (06 R248, R258 step 5): a `PINNED` or `FREE` one stays. -/
def predictTrack (q : F64) (t : FusTrack) : FusTrack :=
  if t.st = 0 || t.st = 4 then t
  else
    let dt := F64.div (fN 1) (fN 100)
    let dt2 := F64.mul dt dt
    let q3 := F64.div (F64.mul q (F64.mul dt2 dt)) (fN 3)
    let q2 := F64.div (F64.mul q dt2) (fN 2)
    if t.typ = 2 then
      let f : Mat := Mat.make 4 4 (fun i j => if i = j then fN 1 else if i + 2 = j then dt else 0)
      let n : Mat := Mat.make 4 4 (fun i j =>
        if i = j then (if i < 2 then q3 else F64.mul q dt) else if i + 2 = j || j + 2 = i then q2 else 0)
      { t with pos := (F64.add t.pos.1 (F64.mul dt t.vel.1), F64.add t.pos.2 (F64.mul dt t.vel.2)),
               cov := Mat.add 4 4 (Mat.mul 4 4 4 f (Mat.mul 4 4 4 t.cov (Mat.tr 4 4 f))) n }
    else { t with cov := Mat.make 4 4 (fun i j => if i = j && i < 2 then F64.add (t.cov.at_ i j) q3 else t.cov.at_ i j) }

/-- A track updated by an object that is not for a `PINNED` one. -/
def updateTrack (w : F64 × F64) (cov : Mat) (t : FusTrack) : FusTrack :=
  let u := josephUpdate 4 [0, 1] [w.1, w.2] cov ([t.pos.1, t.pos.2, t.vel.1, t.vel.2], t.cov)
  { t with pos := (u.1.at_ 0, u.1.at_ 1), vel := if t.typ = 2 then (u.1.at_ 2, u.1.at_ 3) else (0, 0), cov := u.2 }

/-- The bits set in the latest `n` list epochs of a hit history. -/
def recentHits (hits n : Nat) : Nat := ((List.range n).filter (fun i => bitOf hits i)).length

/-- A track's status at a list epoch (06 R249): `hit` that an object was associated, `age` its list epochs since creation. -/
def trackEpoch (m : Tab Byte) (hit : Bool) (age : Nat) (t : FusTrack) : FusTrack :=
  let hits := (t.hits * 2 + b2n hit) % 256
  let misses := if hit then 0 else min 0xFFFF (t.misses + 1)
  let st := if t.st = 1 then
      if fusHdr m 0x4C 1 ≤ recentHits hits (fusHdr m 0x4D 1) then 2
      else if fusHdr m 0x4D 1 ≤ age then 0 else 1
    else if t.st = 2 then (if hit then 2 else 3)
    else if t.st = 3 then (if hit then 2 else if fusHdr m 0x4E 2 ≤ misses then 0 else 3)
    else t.st
  { t with hits := hits, misses := misses, st := st }

/-- Step 5 for one object-list stream: association, track updates and creations, and the measurements of its pinned objects.
`acc` carries the work and the tracks hit and fed so far. Log entry 54 (DEDUCED, unsafe). -/
def listStream (m : Tab Byte) (g : FusFrame) (pv : Mat) (acc : FusWork × List Nat × List (Bool × Nat)) (d : Nat) :
    FusWork × List Nat × List (Bool × Nat) :=
  let w := acc.1
  let n := le m d 1
  let kind := dKind m d
  let t := w.f.stream n
  if t.adrift || (kind ≠ 3 && kind ≠ 4) then acc
  else
    match alignTo m d t.hist w.tau 0 with
    | none => acc
    | some al =>
      let w := w.modStream n (fun t => { t with hist := markUsed al.p.t al.p.stamp t.hist })
      let w := { w with lists := w.lists ++ [n] }
      let dt := nsSec al.dt
      let shift : Vec := [F64.mul w.vel.1 dt, F64.mul w.vel.2 dt]
      let entry := le m (d + 4) 1
      let typ := if dFlag m d 1 then 2 else 1
      let direct := dFlag m d 2
      let objs := (List.range al.p.objs.length).map (fun i =>
        let o := al.p.objs.getD i (0, [], [])
        let off := objOffset g entry kind o.2.1
        let var := alignedVar m d al (sampleVar kind o.2.1 o.2.2) (sampleVar kind o.2.1 o.2.2)
        let wp := (F64.sub (F64.add (g.x.at_ 0) (off.at_ 0)) (shift.at_ 0), F64.sub (F64.add (g.x.at_ 1) (off.at_ 1)) (shift.at_ 1))
        (i, o.1, wp, Mat.add 2 2 (measCov [0, 1] var []) pv, off, var))
      let ps := associate direct (wideAt m (partOff m 5 + 0x48)) (fun t => t.st = 4 || t.typ = typ) w.tracks
        (objs.map (fun o => (o.1, o.2.1, o.2.2.1, o.2.2.2.1)))
      let w := objs.foldl (fun (w : FusWork) o =>
        let wp := o.2.2.1
        match ps.find? (fun p => p.2.2.2 = o.1) with
        | some p =>
          let tr := w.tracks.getD p.2.2.1 {}
          let hitTr := { tr with stream := n, epoch := w.e % 2 ^ 32, d2 := F64.narrow p.1 }
          if tr.st = 4 then
            let z := [F64.add (F64.sub tr.pos.1 (o.2.2.2.2.1.at_ 0)) (shift.at_ 0),
                      F64.add (F64.sub tr.pos.2 (o.2.2.2.2.1.at_ 1)) (shift.at_ 1)]
            { w with tracks := w.tracks.set p.2.2.1 hitTr,
                     onTime := w.onTime ++ [{ stream := n, d := d, obj := o.1, how := al.how, inst := w.tau, pivot := al.p.t, z := z,
                                              rows := [0, 1], r := measCov [0, 1] o.2.2.2.2.2 tr.cov, sigma := F64.sqrt o.2.2.2.2.2 }] }
          else { w with tracks := w.tracks.set p.2.2.1 (updateTrack wp o.2.2.2.1 hitTr) }
        | none =>
          if direct then w.note 0x0501 n true
          else if dFlag m d 0 then
            match (List.range w.tracks.length).find? (fun j => (w.tracks.getD j {}).st = 0) with
            | some j =>
              let vv := if typ = 2 then Config.trackVelocityVariance else 0
              let cov := Mat.make 4 4 (fun i k => if i < 2 && k < 2 then o.2.2.2.1.at_ i k else if i = k then vv else 0)
              { w with
                f := { w.f with label := (w.f.label + 1) % 2 ^ 64, ages := Tab.set 0 w.f.ages j 0 },
                tracks := w.tracks.set j { st := 1, typ := typ, stream := n, hits := 1, epoch := w.e % 2 ^ 32, pos := wp,
                                           cov := cov, label := (w.f.label + 1) % 2 ^ 64, misses := 0 } }
            | none => w.note 0x0510 n false
          else w) w
      (w, acc.2.1 ++ ps.map (fun p => p.2.2.1), acc.2.2 ++ [(direct, typ)])

/-- The list epochs of the tracks closed (06 R249): a track that a stream with a list may feed takes a hit or a miss. `before` are
the tracks as they stood, so that one created in this epoch takes none. Log entry 56 (DEDUCED, unsafe). -/
def closeTracks (m : Tab Byte) (before : List FusTrack) (hits : List Nat) (fed : List (Bool × Nat)) (w : FusWork) : FusWork :=
  (List.range w.tracks.length).foldl (fun (w : FusWork) j =>
    let t := w.tracks.getD j {}
    let old := before.getD j {}
    let may := fed.any (fun p => if p.1 then t.st = 4 else t.st = 4 || t.typ = p.2)
    if old.st = 0 || t.st = 0 || !may then w
    else
      let age := Tab.get 0 w.f.ages j + 1
      { w with f := { w.f with ages := Tab.set 0 w.f.ages j age }, tracks := w.tracks.set j (trackEpoch m (hits.contains j) age t) }) w

/-! Steps 3 to 6 -/

/-- Late samples in order of instant, then stream (06 R258 step 4), as (descriptor, sample). Log entry 58 (DEDUCED, unsafe). -/
def lateSamples (m : Tab Byte) (f : Fus) : List (Nat × FusSample) :=
  let all := (fusDescs m).flatMap (fun d => ((f.stream (le m d 1)).lates).map (fun p => (d, p)))
  let before := fun (a b : Nat × FusSample) => a.2.t < b.2.t || (a.2.t = b.2.t && le m a.1 1 < le m b.1 1)
  let rec ins : Nat × FusSample → List (Nat × FusSample) → List (Nat × FusSample)
    | a, [] => [a]
    | a, b :: t => if before a b then a :: b :: t else b :: ins a t
  all.foldl (fun l a => ins a l) []

/-- The state and covariance at a late instant, and the transition from it to τ_e (06 R256): `k` epochs late, `dt1` from the home
epoch, `dt2` to the next. -/
def latePrior (m : Tab Byte) (w : FusWork) (k : Nat) (dt1 dt2 : F64) : Option (Vec × Mat × Mat) :=
  match w.f.hist[k - 1]? with
  | none => none
  | some h =>
    let input := if k ≤ 1 then w.f.input else (w.f.hist.getD (k - 2) {}).input
    let a := vesselStep dt1 h.x input
    let p := covStep dt1 (fusQ m) a.2 h.p
    let b := vesselStep dt2 a.1 input
    let chain := (List.range (k - 1)).map (fun i => if i = k - 2 then w.jac else (w.f.hist.getD (k - 3 - i) {}).jac)
    some (a.1, p, chain.foldl (fun acc f => Mat.mul 9 9 9 f acc) b.2)

/-- The late measurements of one sample (06 R256 steps 1 and 2). -/
def lateForm (m : Tab Byte) (g : FusFrame) (tau0 : Int) (w : FusWork) (dp : Nat × FusSample) : FusWork :=
  let d := dp.1
  let p := dp.2
  let n := le m d 1
  let kind := dKind m d
  let entry := le m (d + 4) 1
  let h := (p.t - tau0) / 10000000
  let k := ((w.e : Int) - h).toNat
  let th := tau0 + h * 10000000
  match latePrior m w k (nsSec (p.t - th)) (nsSec (th + 10000000 - p.t)) with
  | none => { w.note 0x0505 n false with f := { w.f with lateDiscarded := satAdd 0xFFFF w.f.lateDiscarded 1 } }
  | some pr =>
    let g := { g with x := pr.1 }.moved p.t
    if kind = 3 || kind = 4 then
      let w := { w with lists := w.lists ++ [n] }
      let pv := pr.2.1
      let objs := (List.range p.objs.length).map (fun i =>
        let o := p.objs.getD i (0, [], [])
        let off := objOffset g entry kind o.2.1
        let var := sampleVar kind o.2.1 o.2.2
        (i, o.1, (F64.add (g.x.at_ 0) (off.at_ 0), F64.add (g.x.at_ 1) (off.at_ 1)), Mat.add 2 2 (measCov [0, 1] var []) pv, off, var))
      let ps := associate (dFlag m d 2) (wideAt m (partOff m 5 + 0x48)) (fun t => t.st = 4) w.tracks
        (objs.map (fun o => (o.1, o.2.1, o.2.2.1, o.2.2.2.1)))
      objs.foldl (fun (w : FusWork) o =>
        match ps.find? (fun q => q.2.2.2 = o.1) with
        | some q =>
          let tr := w.tracks.getD q.2.2.1 {}
          { w with late := w.late ++ [{ stream := n, d := d, obj := o.1, how := 4, inst := p.t, pivot := p.t,
                                        z := [F64.sub tr.pos.1 (o.2.2.2.2.1.at_ 0), F64.sub tr.pos.2 (o.2.2.2.2.1.at_ 1)], rows := [0, 1],
                                        r := measCov [0, 1] o.2.2.2.2.2 tr.cov, sigma := F64.sqrt o.2.2.2.2.2, prior := some pr }] }
        | none => if dFlag m d 2 then w.note 0x0501 n true else w) w
    else
      let var := sampleVar kind p.vals p.sig
      { w with late := w.late ++ [{ stream := n, d := d, how := 4, inst := p.t, pivot := p.t, z := formValues g entry kind p.vals,
                                    rows := kindRows kind, r := measCov (kindRows kind) var [], sigma := F64.sqrt var, prior := some pr }] }

/-- The aligned measurement of a stream that is no object list (06 R240, R258 step 6). -/
def streamForm (m : Tab Byte) (g : FusFrame) (w : FusWork) (d : Nat) : FusWork :=
  let n := le m d 1
  let kind := dKind m d
  let t := w.f.stream n
  if t.adrift || kind = 3 || kind = 4 then w
  else
    match alignTo m d t.hist w.tau (g.x.at_ 5) with
    | none => w
    | some a =>
      let z := formValues g (le m (d + 4) 1) kind a.v
      let dt := nsSec a.dt
      let z := if kind ≤ 2 && a.how = 3 then
          [F64.add (z.at_ 0) (F64.mul w.vel.1 dt), F64.add (z.at_ 1) (F64.mul w.vel.2 dt)] else z
      let var := alignedVar m d a (sampleVar kind a.p.vals a.p.sig) (sampleVar kind a.p.vals a.other)
      let w := w.modStream n (fun t => { t with hist := markUsed a.p.t a.p.stamp t.hist })
      { w with onTime := w.onTime ++ [{ stream := n, d := d, how := a.how, inst := w.tau, pivot := a.p.t, z := z,
                                        rows := kindRows kind, r := measCov (kindRows kind) var [], sigma := F64.sqrt var }] }

/-- Aligned measurements in ascending stream order, objects in list order. -/
def orderMeas (l : List FusMeas) : List FusMeas := (List.range 64).flatMap (fun n => l.filter (fun q => q.stream = n))

/-! Step 7: the vote (06 R250, R253) -/

/-- A measurement of position. -/
def FusMeas.isPos (q : FusMeas) : Bool := q.rows = [0, 1]

/-- The position value of a stream's measurements of this epoch: the mean of its latest kind, with its instant. -/
def streamPos (ms : List FusMeas) (n : Nat) : Option (F64 × F64 × Int) :=
  let all := ms.filter (fun q => q.stream = n && q.isPos)
  match all.getLast? with
  | none => none
  | some b =>
    let same := all.filter (fun q => q.inst = b.inst && q.how = b.how)
    some (meanF (same.map (fun q => q.z.at_ 0)), meanF (same.map (fun q => q.z.at_ 1)), b.inst)

/-- A position carried to τ with the vessel's predicted velocity. -/
def carry (w : FusWork) (p : F64 × F64 × Int) : F64 × F64 :=
  let dt := nsSec (w.tau - p.2.2)
  if w.tau = p.2.2 then (p.1, p.2.1) else (F64.add p.1 (F64.mul w.vel.1 dt), F64.add p.2.1 (F64.mul w.vel.2 dt))

/-- The vote radius of a stream. -/
def voteRadius (m : Tab Byte) (n : Nat) : F64 := (fusDesc m n).elim 0 (fun d => wideAt m (d + 0x18))

/-- Distinct groups of a vote set. -/
def voteGroups (v : List (Nat × Nat × F64 × F64)) : List Nat := (v.map (fun e => e.2.1)).eraseDups

/-- The vote set of the epoch (06 R250) as (stream, group, north, east). -/
def voteSetOf (m : Tab Byte) (w : FusWork) : List (Nat × Nat × F64 × F64) :=
  (fusDescs m).filterMap (fun d =>
    let n := le m d 1
    let t := w.f.stream n
    if dKind m d ≤ 4 && dGroup m d ≠ 0 && t.excl = 0 && !t.adrift then
      match t.pos with
      | some p => if w.tau - dExtrap m d ≤ p.2.2 then let c := carry w p; some (n, dGroup m d, c.1, c.2) else none
      | none => none
    else none)

/-- The vote: positions recorded, the set formed, the median taken, streams judged. -/
def voteStep (m : Tab Byte) (w : FusWork) : FusWork :=
  let ms := w.late ++ w.onTime
  let w := (fusDescs m).foldl (fun (w : FusWork) d =>
    let n := le m d 1
    match streamPos ms n with
    | some p => w.modStream n (fun t => { t with pos := some p })
    | none => w) w
  let v := voteSetOf m w
  let gs := voteGroups v
  let med := (medianF (v.map (fun e => e.2.2.1)), medianF (v.map (fun e => e.2.2.2)))
  let w : FusWork := { w with voteSet := v, median := med, f := { w.f with vote := 3 ≤ gs.length, pairRun := w.f.pairRun + 1 } }
  if 3 ≤ gs.length then
    let w := w.flag 7
    let out := (v.filter (fun e => ms.any (fun q => q.stream = e.1 && q.isPos)
      && F64.lt (voteRadius m e.1) (distF (e.2.2.1, e.2.2.2) med))).map (fun e => e.1)
    let mk := fun (q : FusMeas) => if out.contains q.stream && q.isPos then { q with voted := true } else q
    out.foldl (fun (w : FusWork) n => w.note 0x0509 n true) { w with late := w.late.map mk, onTime := w.onTime.map mk }
  else if gs.length = 2 then
    let mean := fun (g : Nat) =>
      let e := v.filter (fun e => e.2.1 = g)
      (meanF (e.map (fun e => e.2.2.1)), meanF (e.map (fun e => e.2.2.2)))
    let big := v.foldl (fun a e => F64.max a (voteRadius m e.1)) 0
    if F64.lt big (distF (mean (gs.getD 0 0)) (mean (gs.getD 1 0))) then
      let w2 := w.flag 3
      let w2 : FusWork := { w2 with f := { w2.f with pairRun := 0 } }
      if 100 < w.f.pairRun then w2.note 0x050C 0 false else w2
    else w
  else w

/-! Step 8: gating and applying (06 R251, R256) -/

/-- A measurement gated against a prior: a measurement of no filter state, of an excluded stream, or voted out is not. -/
def gate (m : Tab Byte) (w : FusWork) (xp : Vec × Mat) (q : FusMeas) : FusMeas :=
  if q.rows.isEmpty || q.voted || w.excluded.contains q.stream || !w.f.valid then q
  else match invPd (innovCov q.rows xp.2 q.r) with
    | none => { q with numeric := true }
    | some si =>
      let d2 := quadForm (innovation q.rows xp.1 q.z) si
      if F64.le d2 (wideAt m (q.d + 0x14)) then { q with d2 := d2, applied := true } else { q with d2 := d2, gated := true }

/-- What a gate raises. -/
def gateNotes (w : FusWork) (q : FusMeas) : FusWork :=
  let w := if q.numeric then w.note 0x0512 q.stream false else w
  if q.gated then w.note 0x0508 q.stream true else w

/-- What an applied measurement leaves besides the state. -/
def noteApplied (w : FusWork) (q : FusMeas) : FusWork :=
  let w := w.modStream q.stream (fun t => { t with applied := some (max q.inst (t.applied.getD q.inst)) })
  if q.isPos then { w with posApplied := true, f := { w.f with tLast := some (max q.inst (w.f.tLast.getD q.inst)) } } else w

/-- The filter's heading normalised (00 R20). -/
def normState (x : Vec) : Vec := x.set 2 (normAngle (x.at_ 2))

/-- The late measurements gated and applied in order. Log entry 58 (DEDUCED, unsafe). -/
def applyLate (m : Tab Byte) (w : FusWork) : FusWork :=
  w.late.foldl (fun (w : FusWork) q =>
    match q.prior with
    | none => { w with late := w.late ++ [q] }
    | some pr =>
      let q := gate m w (pr.1, pr.2.1) q
      let w := gateNotes { w with late := w.late ++ [q] } q
      if q.applied then
        match invPd (innovCov q.rows pr.2.1 q.r) with
        | none => w
        | some si =>
          let u := lateUpdate q.rows pr.2.2 pr.2.1 si (innovation q.rows pr.1 q.z) (w.f.x, w.f.p)
          noteApplied ((({ w with f := { w.f with x := normState u.1, p := u.2,
                                                  lateApplied := satAdd 0xFFFF w.f.lateApplied 1 } }).flag 1).note 0x0504 q.stream true) q
      else w) { w with late := [] }

/-- The on-time measurements gated against the state after the late updates, then applied in order. -/
def applyOnTime (m : Tab Byte) (w : FusWork) : FusWork :=
  let qs := w.onTime.map (gate m w (w.f.x, w.f.p))
  let w := qs.foldl gateNotes { w with onTime := qs }
  qs.foldl (fun (w : FusWork) q =>
    if q.applied then
      let u := josephUpdate 9 q.rows q.z q.r (w.f.x, w.f.p)
      noteApplied { w with f := { w.f with x := normState u.1, p := u.2 } } q
    else w) w

/-- Initialisation (06 R245): the heading from the first heading measurement; the position where two groups agree with the
median, or, with one group configured, from the first position measurement. Log entry 57 (DEDUCED, unsafe). -/
def initStep (m : Tab Byte) (w : FusWork) : FusWork :=
  if w.f.valid then w
  else
    let ok := fun (q : FusMeas) => !w.excluded.contains q.stream
    let w := match w.onTime.find? (fun q => q.rows = [2] && ok q) with
      | some q => if w.f.headInit then w
          else { w with f := { w.f with headInit := true, x := w.f.x.set 2 (q.z.at_ 0), headVar := q.r.at_ 0 0 } }
      | none => w
    let grp := fun (q : FusMeas) => dGroup m q.d
    let pos := w.onTime.filter (fun q => q.isPos && ok q)
    let groups := (((fusDescs m).filter (fun d => dKind m d ≤ 4 && dGroup m d ≠ 0)).map (dGroup m)).eraseDups
    let near := pos.filter (fun q => grp q ≠ 0 && F64.le (distF (q.z.at_ 0, q.z.at_ 1) w.median) (voteRadius m q.stream))
    let set := fun (n e v : F64) => { w with f := { w.f with posInit := true, posVar := v, x := (w.f.x.set 0 n).set 1 e, tLast := some w.tau } }
    let w := if w.f.posInit then w
      else if groups.length = 1 then
        match pos.head? with
        | some q => set (q.z.at_ 0) (q.z.at_ 1) (q.r.at_ 0 0)
        | none => w
      else if 2 ≤ ((near.map grp).eraseDups).length then
        set w.median.1 w.median.2 (Config.initVariance (near.map (fun q => q.r.at_ 0 0)))
      else w
    if w.f.valid then
      let q := fusQ m
      let p := Mat.diag ((List.range 9).map (fun i =>
        if i < 2 then w.f.posVar else if i = 2 then w.f.headVar else F64.mul (fN 100) (q.at_ i)))
      { w with f := { w.f with p := p, x := w.f.x.take 3 ++ [0, 0, 0, 0, 0, 0], hist := [], histFrom := w.e } }.note 0x0516 0 false
    else w

/-! Steps 9 and 10 (06 R252 to R255) -/

/-- A stream's window at the end of an epoch, and its exclusion. -/
def windowStep (w : FusWork) (n : Nat) : FusWork :=
  let ms := (w.late ++ w.onTime).filter (fun q => q.stream = n && !q.rows.isEmpty && !(q.numeric && !q.voted))
  if ms.isEmpty || w.excluded.contains n then w
  else
    let code := if ms.any (fun q => q.voted) then 2 else if ms.any (fun q => q.gated) then 1 else 0
    let w := w.modStream n (fun t => { t with window := ((w.e, code) :: t.window).take 20 })
    if 5 ≤ (w.f.stream n).fails then
      (w.modStream n (fun t => { t with excl := 2, window := [] })).note 0x050A n false
    else w

/-- The groups with a value within its radius of the median. -/
def nearGroups (m : Tab Byte) (w : FusWork) : List Nat :=
  ((w.voteSet.filter (fun e => F64.le (distF (e.2.2.1, e.2.2.2) w.median) (voteRadius m e.1))).map (fun e => e.2.1)).eraseDups

/-- Re-initialisation in the third epoch in which every gated position measurement fails (06 R254). Log entry 57 (DEDUCED, unsafe). -/
def reinitStep (m : Tab Byte) (w : FusWork) : FusWork :=
  let pos := (w.late ++ w.onTime).filter (fun q => q.isPos && (q.gated || q.applied || q.numeric))
  let cond := w.f.valid && w.f.vote && !pos.isEmpty && pos.all (fun q => q.gated) && 2 ≤ (nearGroups m w).length
  if !cond then { w with f := { w.f with reinitRun := 0 } }
  else if w.f.reinitRun < 2 then { w with f := { w.f with reinitRun := w.f.reinitRun + 1 } }
  else
    let big := w.voteSet.foldl (fun a e => F64.max a (voteRadius m e.1)) 0
    let p := Mat.make 9 9 (fun i j => if i < 2 || j < 2 then (if i = j then F64.mul big big else 0) else w.f.p.at_ i j)
    let near := w.voteSet.filter (fun e => F64.le (distF (e.2.2.1, e.2.2.2) w.median) (voteRadius m e.1))
    let w := near.foldl (fun (w : FusWork) e => w.modStream e.1 (fun t =>
      { t with window := t.window.map (fun k => if w.e < k.1 + 3 && k.2 = 1 then (k.1, 0) else k) })) w
    ({ w with f := { w.f with x := (w.f.x.set 0 w.median.1).set 1 w.median.2, p := p, hist := [], histFrom := w.e,
                              reinitRun := 0, tLast := some w.tau } }.flag 2).note 0x050F 0 false

/-- Groups counted as fresh (06 R255). -/
def freshGroups (m : Tab Byte) (w : FusWork) : Nat :=
  (((fusDescs m).filter (fun d =>
    let n := le m d 1
    let t := w.f.stream n
    dKind m d ≤ 4 && dGroup m d ≠ 0 && !w.excluded.contains n
      && (match t.applied with
        | some i => decide (w.tau - dExtrap m d ≤ i)
        | none => false))).map (dGroup m)).eraseDups.length

/-- The level (06 R255). -/
def levelStep (m : Tab Byte) (w : FusWork) : FusWork :=
  let g := freshGroups m w
  let dr := match w.f.tLast with
    | some t => (((w.tau - t) / 1000).toNat)
    | none => 0xFFFFFFFF
  let hd := (fusDescs m).any (fun d => dKind m d = 5 && (match (w.f.stream (le m d 1)).applied with
    | some i => decide (w.tau - dExtrap m d ≤ i)
    | none => false))
  let cand := if !w.f.valid then 4
    else if 3 ≤ g then 0
    else if g = 2 then (if bitOf w.flags 3 then 2 else 1)
    else if g = 1 then 2
    else if dr ≤ fusHdr m 4 4 * 1000 then 3 else 4
  let lv := (cand :: w.f.levels).take 20
  let lv' := lv ++ List.replicate (20 - lv.length) 4
  let lev := lv'.foldl max 0
  let w := if w.f.level < lev then w.note 0x050D lev false else if lev < w.f.level then w.note 0x050E lev false else w
  let w := if hd then w else w.flag 6
  let w := if w.f.valid then w.flag 0 else w
  { w with f := { w.f with level := lev, levels := lv, groups := g, drUs := min 0xFFFFFFFF dr, headingDr := !hd } }

/-! Step 11: outputs -/

/-- The mask of stream numbers. -/
def maskOf (l : List Nat) : Nat := l.eraseDups.foldl (fun v n => v + 2 ^ n) 0

/-- The vessel state record (06 R246). -/
def vesselRecord (w : FusWork) : List Byte :=
  let d := fun (i : Nat) => leBytes 8 (w.f.x.at_ i).toNat
  let used := maskOf (((w.late ++ w.onTime).filter (fun q => q.applied)).map (fun q => q.stream))
  leBytes 8 (uval 64 w.tau) ++ leBytes 4 (w.e % 2 ^ 32) ++ leBytes 1 w.f.level ++ leBytes 1 w.f.groups ++ leBytes 2 w.flags
    ++ (List.range 9).flatMap d ++ (List.range 3).flatMap (fun i => leBytes 4 (w.f.motion.getD i 0).toNat)
    ++ (List.range 9).flatMap (fun i => leBytes 4 (F64.narrow (F64.sqrt (w.f.p.at_ i i))).toNat)
    ++ leBytes 8 used ++ leBytes 8 (maskOf w.excluded) ++ leBytes 4 w.f.drUs ++ leBytes 4 0

/-- The aligned table entry of a stream (06 R246). -/
def alignedEntry (w : FusWork) (n : Nat) : List Byte :=
  let t := w.f.stream n
  let ms := (w.late ++ w.onTime).filter (fun q => q.stream = n)
  let any := fun (c : FusMeas → Bool) => b2n (ms.any c)
  let fl := any (fun q => q.applied) + 2 * any (fun q => q.gated) + 4 * any (fun q => q.voted) + 8 * b2n (w.barred.contains n) + 16 * b2n t.adrift
    + 32 * any (fun q => q.numeric)
  match ms.getLast? with
  | none => leBytes 1 n ++ leBytes 1 0 ++ leBytes 2 fl ++ leBytes 44 0
  | some q =>
    let z : Vec := if q.isPos then
        let same := ms.filter (fun r => r.how = q.how && r.pivot = q.pivot)
        [meanF (same.map (fun r => r.z.at_ 0)), meanF (same.map (fun r => r.z.at_ 1)), 0]
      else q.z
    let dt := nsSec (w.tau - q.pivot)
    let dt := if q.how = 2 then F64.neg dt else dt
    leBytes 1 n ++ leBytes 1 q.how ++ leBytes 2 fl ++ leBytes 4 (F64.narrow q.d2).toNat
      ++ (List.range 3).flatMap (fun i => leBytes 8 (z.at_ i).toNat) ++ leBytes 4 (F64.narrow q.sigma).toNat
      ++ leBytes 4 (F64.narrow dt).toNat ++ leBytes 8 (uval 64 q.pivot)

/-- Words of an output, poisoned where the epoch read an uncorrectable error (06 R260). -/
def outWords (poison : Bool) (b : List Byte) : List Pw := (toWords b).map (fun w => { w with p := poison })

/-! Step 1: commands (06 R262) -/

/-- A command carried out (06 R262): the work, the frame as it stands (`FUS_PIN_TRACK` of a stream's latest object reads it, and a
transform or an origin changes it) and the poisoned transform entries. -/
def fusCommand (m : Tab Byte) (a : FusWork × FusFrame × List Nat) (c : FusCmd) : FusWork × FusFrame × List Nat :=
  let w := a.1
  let g := a.2.1
  match c with
  | .exclude n => ((w.modStream n (fun t => { t with excl := 3 })).note 0x050A n false, g, a.2.2)
  | .readmit n => ((w.modStream n (fun t => { t with excl := 0, window := [] })).note 0x050B n false, g, a.2.2)
  | .pin j typ src n e sg st =>
    let var := F64.mul sg sg
    let d := (fusDesc m st).filter (fun _ => src ≠ 0)
    let entry := d.elim 64 (fun d => le m (d + 4) 1)
    let obj := match d, (w.f.stream st).latest with
      | some d, some o =>
        let off := objOffset g entry (dKind m d) o.1
        (F64.add (g.x.at_ 0) (off.at_ 0), F64.add (g.x.at_ 1) (off.at_ 1))
      | _, _ => (n, e)
    ({ w with
       badPins := (w.badPins.filter (· ≠ j)) ++ (if a.2.2.contains entry then [j] else [])
       f := { w.f with label := (w.f.label + 1) % 2 ^ 64 },
       tracks := w.tracks.set j { st := 4, typ := typ, stream := st, pos := obj, label := (w.f.label + 1) % 2 ^ 64,
                                  cov := Mat.make 4 4 (fun i k => if i = k && i < 2 then var else 0) } }, g, a.2.2)
  | .release j => ({ w with tracks := w.tracks.set j { w.tracks.getD j {} with st := 0 } }, g, a.2.2)
  | .transform k b =>
    (((fusDescs m).foldl (fun (w : FusWork) d =>
      if le m (d + 4) 1 = k then w.modStream (le m d 1) (fun t => { t with window := [] }) else w) w).note 0x0514 k false,
     { g with tf := fun i => if i % 64 = k then b else g.tf i }, a.2.2.filter (· ≠ k))
  | .origin la lo h =>
    ({ w with
       f := { w.f with origin := some (la, lo, h), posInit := false, headInit := false, x := List.replicate 9 0,
                       p := Mat.make 9 9 (fun _ _ => 0), hist := [], histFrom := w.e, tLast := none, reinitRun := 0 },
       tracks := w.tracks.map (fun t => { t with st := 0 }) },
     { g with origin := (la, lo, h), x := List.replicate 9 0 }, a.2.2)

/-! Poison of the outputs (06 R260) -/

/-- The outputs that depend on a poisoned word: the vessel record, aligned entries by stream, tracks. -/
structure FusDirt where
  vessel : Bool := false
  streams : List Nat := []
  tracks : List Nat := []

/-- What depends on the poisoned transform entries `tf` and on the poisoned tracks `tr` (with whether the word of the status is
one): `before` the tracks as steps 2 to 10 found them. Log entry 59 (DEDUCED, unsafe). -/
def dirtOf (m : Tab Byte) (w : FusWork) (tf : List Nat) (tr : List (Nat × Bool)) (before : List FusTrack) : FusDirt :=
  let ms := w.late ++ w.onTime
  let desc := fun (n : Nat) => (fusDesc m n).getD 0
  let badTf := fun (n : Nat) => tf.contains (le m (desc n + 4) 1)
  let feeds := fun (n : Nat) (t : FusTrack) => t.st = 4 || (!dFlag m (desc n) 2 && t.typ = (if dFlag m (desc n) 1 then 2 else 1))
  let live := tr.filter (fun p => p.2 || (before.getD p.1 {}).st ≠ 0)
  let ls := w.lists.filter (fun n => badTf n || live.any (fun p => p.2 || feeds n (before.getD p.1 {})))
  let ss := (ms.map (fun q => q.stream)).filter (fun n => badTf n && (dKind m (desc n) < 3 || dKind m (desc n) = 5 || dKind m (desc n) = 6))
  let pos := (ms.filter (fun q => q.isPos)).map (fun q => q.stream)
  let ds := ls ++ ss
  let ds := if ds.any (fun n => pos.contains n && w.voteSet.any (fun e => e.1 = n)) then ds ++ pos else ds
  let ds := if w.late.any (fun q => ds.contains q.stream && q.applied) then
      ds ++ (w.onTime.filter (fun q => !q.rows.isEmpty)).map (fun q => q.stream) else ds
  let fed := (List.range before.length).filter (fun j =>
    let t := w.tracks.getD j {}
    (w.tracks.getD j {}).label ≠ (before.getD j {}).label || ls.any (fun n => t.st ≠ 0 && feeds n t))
  { vessel := ms.any (fun q => ds.contains q.stream && !w.excluded.contains q.stream && (!q.rows.isEmpty || dKind m q.d = 6))
    streams := ds
    tracks := (tr.filter (fun p => p.2 || (w.tracks.getD p.1 {}).label = (before.getD p.1 {}).label)).map (fun p => p.1)
      ++ (if ls.isEmpty then [] else fed) }

/-! CLOSE -/

/-- The first `n` of the late and the aligned measurements (06 R259). -/
def capMeas (m : Tab Byte) (w : FusWork) : FusWork :=
  let n := fusHdr m 0x52 1
  let on := orderMeas w.onTime
  if w.late.length + on.length ≤ n then { w with onTime := on }
  else ({ w with late := w.late.take n, onTime := on.take (n - w.late.length) }.flag 4).note 0x0511 0 false

/-- The model input of the epoch (06 R244): the input written for it, or the one before with `MODEL_HELD`. -/
def modelInput (ws : List Pw) (w : FusWork) : FusWork :=
  let b := ofWords ws
  if ws.any (fun w => w.p) || ofLe (b.take 4) ≠ w.e % 2 ^ 32 then (w.flag 5).note 0x0513 0 true
  else { w with f := { w.f with input := vec3 b 8 } }

/-- Steps 2 to 10 over the engine's state. -/
def epochWork (m : Tab Byte) (g : FusFrame) (tau0 : Int) (input : List Pw) (w : FusWork) : FusWork :=
  let w := (fusDescs m).foldl (clockStep m) w
  let w : FusWork := { w with barred := (w.f.streams.filter (fun e => e.2.excl ≠ 0)).map (fun e => e.1) }
  let w : FusWork := { w with excluded := (w.f.streams.filter (fun e => e.2.excl ≠ 0 || e.2.adrift)).map (fun e => e.1) }
  let w := modelInput input w
  let dt := F64.div (fN 1) (fN 100)
  let st := vesselStep dt w.f.x w.f.input
  let w := if w.f.valid then { w with f := { w.f with x := st.1, p := covStep dt (fusQ m) st.2 w.f.p }, jac := st.2 } else w
  let c := F64.cos (w.f.x.at_ 2); let sn := F64.sin (w.f.x.at_ 2)
  let u := w.f.x.at_ 3; let v := w.f.x.at_ 4
  let w := { w with vel := (F64.sub (F64.mul u c) (F64.mul v sn), F64.add (F64.mul u sn) (F64.mul v c)) }
  let g := { g with x := w.f.x }.moved w.tau
  let w := (lateSamples m w.f).foldl (lateForm m g tau0) w
  let w := { w with f := { w.f with streams := w.f.streams.map (fun e => (e.1, { e.2 with lates := [] })) },
                    tracks := w.tracks.map (predictTrack (wideAt m (partOff m 5 + 0x44))) }
  let before := w.tracks
  let r := (fusDescs m).foldl (listStream m g w.f.p) (w, [], [])
  let w := closeTracks m before r.2.1 r.2.2 r.1
  let w := capMeas m ((fusDescs m).foldl (streamForm m g) w)
  let w := voteStep m w
  let w := applyOnTime m (applyLate m w)
  let w := initStep m w
  let w := (fusDescs m).foldl (fun w d => windowStep w (le m d 1)) w
  levelStep m (reinitStep m w)

/-- The published motion after an epoch: that of the first stream of kind 6 in service with a measurement. Log entry 59 (DEDUCED, unsafe). -/
def motionOf (w : FusWork) (m : Tab Byte) : List Word :=
  match w.onTime.find? (fun q => dKind m q.d = 6 && !w.excluded.contains q.stream) with
  | some q => q.z.map F64.narrow
  | none => w.f.motion

/-- The engine after the epoch: history kept, windows of samples trimmed to what a later epoch can use, how each stream was formed.
Log entry 59 (DEDUCED, unsafe). -/
def finishFus (m : Tab Byte) (w : FusWork) : Fus :=
  let ms := w.late ++ w.onTime
  let f := { w.f with
    closed := some w.e, motion := motionOf w m, cmds := [],
    usedMask := maskOf ((ms.filter (fun q => q.applied)).map (fun q => q.stream)),
    due := true,
    hist := if w.f.valid then ({ x := w.f.x, p := w.f.p, input := w.f.input, jac := w.jac } :: w.f.hist).take 64 else [],
    streams := w.f.streams.map (fun e =>
      let hist := e.2.hist.filter (fun p => w.tau - 400000000 < p.t)
      match (ms.filter (fun q => q.stream = e.1)).getLast? with
      | some q => (e.1, { e.2 with how := q.how, hist := hist })
      | none => (e.1, { e.2 with hist := hist })) }
  f

/-- The words of the transform entries in use read: the entries with a poisoned word. -/
def readTransforms (x : Side) (m : Tab Byte) (s : State) : List Nat × State :=
  (((fusDescs m).map (fun d => le m (d + 4) 1)).eraseDups).foldl (fun (a : List Nat × State) k =>
    let r := memReadN x (0x30052000 + 64 * (k % 64)) 8 a.2
    (if r.1.any (fun w => w.p) then a.1 ++ [k] else a.1, r.2)) ([], s)

/-- The tracks that take part, read from the table, and those with a poisoned word, with whether it is the word of the status. -/
def readTracks (x : Side) : Nat → Nat → State → List FusTrack × List (Nat × Bool) × State
  | 0, _, s => ([], [], s)
  | n + 1, j, s =>
    let r := memReadN x (trackAddr j) 16 s
    let t := readTracks x n (j + 1) r.2
    (trackOf (ofWords r.1) :: t.1,
     (if r.1.any (fun w => w.p) then [(j, (r.1.head?).any (fun w => w.p))] else []) ++ t.2.1, t.2.2)

/-- Track records written in ascending order. -/
def writeTracks (x : Side) (dirty : List Nat) : List FusTrack → Nat → State → State
  | [], _, s => s
  | t :: r, j, s => writeTracks x dirty r (j + 1) (memWriteN x (trackAddr j) (outWords (dirty.contains j) (trackBytes t)) s)

/-- What a CLOSE writes (06 R258, R260): the transforms of its commands, the engine's own state, its faults, the vessel record, the aligned
entries and the tracks. -/
def closeOut (x : Side) (m : Tab Byte) (cmds : List FusCmd) (w : FusWork) (dirt : FusDirt) (poisoned : Bool) (s : State) : State :=
  let s := cmds.foldl (fun s c => match c with
    | .transform k b => memPut x (0x30052000 + 64 * k) b s
    | _ => s) s
  let s := s.modLd x (fun l => { l with fus := finishFus m w })
  let s := w.raises.foldl (fun s r =>
    if r.2.2 then raisePerSecond (.landing x) r.1 r.2.1 r.2.1 s else raise (.landing x) r.1 r.2.1 s) s
  let s := if poisoned then raise (.landing x) 0x0515 0 s else s
  let s := memWriteN x 0x30054100 (outWords dirt.vessel (vesselRecord w)) s
  let s := (List.range 64).foldl (fun s n =>
    memWriteN x (0x30054400 + 48 * n) (outWords (dirt.streams.contains n) (alignedEntry w n)) s) s
  writeTracks x dirt.tracks w.tracks 0 s

/-- CLOSE (06 R258): the epoch's work in order, then its faults and its outputs. -/
def closeOp (x : Side) (s : State) : State :=
  let l := s.ld x
  let m := l.fmn.img
  let f := l.fus
  let e := (l.fmn.crossing - f.start) / max 1 (epochCrossings (imgPeriod m))
  let nt := fusHdr m 0x50 2
  let table := fun (k : Nat) => peekBytes l (0x30052000 + 64 * (k % 64)) 64
  let tf := readTransforms x m s
  let tr := readTracks x nt 0 tf.2
  let inp := memReadN x 0x30054000 4 tr.2.2
  let org := f.origin.getD (f64At m (partOff m 5 + 8), f64At m (partOff m 5 + 16), f64At m (partOff m 5 + 24))
  let x0 := if f.x.length = 9 then f.x else List.replicate 9 0
  let p0 := if f.p.length = 9 then f.p else Mat.make 9 9 (fun _ _ => 0)
  let pub := (F32.widen (f.motion.getD 0 0), F32.widen (f.motion.getD 1 0))
  let g : FusFrame := { tf := table, origin := org, x := x0, pub := pub, pubAt := fusTau s x ((e : Int) - 1),
                        rate := (Config.attitudeRate e 0, Config.attitudeRate e 1), roll := pub.1, pitch := pub.2 }
  let f0 := { f with x := x0, p := p0, input := if f.input.length = 3 then f.input else [0, 0, 0] }
  let a := f.cmds.foldl (fusCommand m) (({ f := f0, e := e, tau := fusTau s x e, tracks := tr.1 } : FusWork), g, tf.1)
  let before := a.1.tracks
  let bad := (tr.2.1.filter (fun p => (before.getD p.1 {}).label = (tr.1.getD p.1 {}).label)) ++ a.1.badPins.map (fun j => (j, false))
  let w := epochWork m a.2.1 (fusTau s x 0) inp.1 a.1
  let w := { w with f := { w.f with motion := motionOf w m } }
  let dirt := dirtOf m w a.2.2 bad before
  closeOut x m f.cmds w dirt (!(tf.1.isEmpty && tr.2.1.isEmpty)) inp.2

/-- CLOSE (06 R258). -/
def execClose (at_ : Nat) (x : Side) (s : State) : Host.Outcome State Fault Refusal := .next (runEntry x 0x05 2 none none (fun _ => closeOp x) (advance at_ s))

/-! ### Host commands (06 R262, R263) -/

/-- A command put to wait for the next `CLOSE` of every landing that applies commands. -/
def queueFus (c : FusCmd) (s : State) : State :=
  eachSide (fun _ => true) (fun x s => s.modLd x (fun l => { l with fus := { l.fus with cmds := l.fus.cmds ++ [c] } })) s

/-- A stream configured in the running manifest. -/
def streamKnown (s : State) (n : Nat) : Bool := (fusDesc (s.ld s.lead).fmn.img n).isSome

/-- A track that takes part. -/
def trackKnown (s : State) (j : Nat) : Bool := j < fusHdr (s.ld s.lead).fmn.img 0x50 2

/-- FUS_EXCLUDE (06 R262). -/
def execFusExclude (h : CmdHdr) (stream : Nat) (s : State) : Host.Outcome State Fault Refusal :=
  .next (hostCommand h 0x0501 (fun s => { level := 1, range := streamKnown s stream })
    (fun s => done (queueFus (.exclude stream) s)) s)

/-- FUS_READMIT (06 R262, R263). -/
def execFusReadmit (h : CmdHdr) (stream : Nat) (s : State) : Host.Outcome State Fault Refusal :=
  .next (hostCommand h 0x0502
    (fun s =>
      let t := (s.ld s.lead).fus.stream stream
      { level := 1, range := streamKnown s stream, state := t.excl ≠ 0 && !t.adrift })
    (fun s => done (queueFus (.readmit stream) s)) s)

/-- FUS_PIN_TRACK (06 R262). -/
def execFusPinTrack (h : CmdHdr) (track typ source : Nat) (n e sigma : DWord) (stream : Nat) (s : State) :
    Host.Outcome State Fault Refusal :=
  .next (hostCommand h 0x0503
    (fun s => { level := 1, range := trackKnown s track && (typ = 1 || typ = 2) && source ≤ 1 && (source = 0 || streamKnown s stream) })
    (fun s => done (queueFus (.pin track typ source n e sigma stream) s)) s)

/-- FUS_RELEASE_TRACK (06 R262). -/
def execFusReleaseTrack (h : CmdHdr) (track : Nat) (s : State) : Host.Outcome State Fault Refusal :=
  .next (hostCommand h 0x0504 (fun s => { level := 1, range := trackKnown s track })
    (fun s => done (queueFus (.release track) s)) s)

/-- FUS_SET_TRANSFORM (06 R241, R262): the 64 bytes are the table entry. -/
def execFusSetTransform (h : CmdHdr) (entry : Nat) (data : List Byte) (s : State) : Host.Outcome State Fault Refusal :=
  .next (hostCommand h 0x0505
    (fun _ => { level := 2, modes := [1, 2, 5], format := data.length = 64,
                range := entry ≤ 63 && ofLe (data.take 1) = entry })
    (fun s => done (queueFus (.transform entry data) s)) s)

/-- An angle of a host interface, in degrees, in radians (00 R20). Log entry 141 (DEDUCED, unsafe). -/
def hostAngle (deg : DWord) : F64 := F64.div (F64.mul deg piF) (fN 180)

/-- FUS_SET_ORIGIN (00 R20, 06 R262): latitude and longitude come in degrees. Log entry 141 (DEDUCED, unsafe). -/
def execFusSetOrigin (h : CmdHdr) (lat lon height : DWord) (s : State) : Host.Outcome State Fault Refusal :=
  .next (hostCommand h 0x0506 (fun _ => { level := 2, modes := [1] })
    (fun s => done (queueFus (.origin (hostAngle lat) (hostAngle lon) height) s)) s)

/-! ### Start, registers and load checks -/

/-- The engine at a manifest start (06 R234, R244, R245, R270): the state uninitialised with a record that is not `VALID` at F4, the
queue empty, the model input without an epoch, the tracks free, transform table and configuration copy as the image has them.
Log entry 142 (DEDUCED, unsafe). -/
def startFus (l : Landing) : Landing :=
  let m := l.fmn.img
  let l := { l with fus := { start := l.fmn.crossing } }
  let entry : List Byte := leBytes 8 0xFF ++ leBytes 56 0
  let l := clearRange (clearRange l 0x30052000 0x5000) 0x30058000 0x8000
  let l := putAll l [(0x30053000, (List.range 64).flatMap (fun _ => entry)), (0x30054000, leBytes 8 0xFFFFFFFF ++ leBytes 24 0),
    (0x30054100, leBytes 12 0 ++ leBytes 1 4 ++ leBytes 147 0), (0x30054400, (List.range 64).flatMap (fun n => leBytes 1 n ++ leBytes 47 0))]
  if (enginePart m 5).isNone then l
  else
    let o := partOff m 5
    let n := le m (o + 0x53) 1
    putAll l [(0x30055000, bytesAt m o (128 + 64 * n)), (0x30052000, bytesAt m (o + 128 + 64 * n) 4096)]

/-- The registers at a tick (06, Registers): they change only at the tick that follows a `CLOSE`. -/
def showFus (s : State) (x : Side) : State :=
  let l := s.ld x
  if l.fus.due then
    s.modLd x (fun l' => { l' with fus := { l'.fus with
      due := false, shown := fusOffsets.foldl (fun t o => Tab.set 0 t o (fusNow l o)) [] } })
  else s

/-- A stream descriptor in range (06 R261). -/
def fusDescOk (m : Tab Byte) (d : Nat) : Bool :=
  let c := fun (k n : Nat) => le m (d + k) n
  let unit := fun (k : Nat) => let v := wideAt m (d + k); F64.le 0 v && F64.le v (fN 1)
  let k := c 1 1
  c 0 1 < 64 && 1 ≤ k && k ≤ 7 && c 2 1 ≤ 2 && c 3 1 ≤ 15 && (2 < k || c 3 1 ≠ 0) && (k < 5 || c 3 1 = 0) && c 4 1 < 64
    && c 5 1 < 8 && c 6 2 = 0 && c 0xC 4 ≤ 200000 && c 0x10 4 ≤ 200000 && unit 0x20 && unit 0x24
    && (List.range 16).all (fun i => c (0x30 + i) 1 = 0)

/-- The fusion part in range, with one `CLOSE` in each epoch (06 R238, R257, R261): the offset of the part where it is not. -/
def fusPartBad (m : Tab Byte) : Option Nat :=
  match enginePart m 5 with
  | none => none
  | some (o, len) =>
    let c := fun (k n : Nat) => le m (o + k) n
    let n := c 0x53 1
    let streams := (List.range n).map (fun i => c (128 + 64 * i) 1)
    let ok := n ≤ 64 && len = 128 + 64 * n + 4096 && c 0 4 ≤ 100000 && 1000 ≤ c 4 4 && c 4 4 ≤ 600000
      && 1 ≤ c 0x4C 1 && c 0x4C 1 ≤ 8 && c 0x4C 1 ≤ c 0x4D 1 && c 0x4D 1 ≤ 8 && 1 ≤ c 0x4E 2 && c 0x4E 2 ≤ 6000
      && c 0x50 2 ≤ 256 && 1 ≤ c 0x52 1 && c 0x52 1 ≤ 64 && (List.range 44).all (fun i => c (0x54 + i) 1 = 0)
      && (List.range n).all (fun i => fusDescOk m (o + 128 + 64 * i)) && streams.eraseDups.length = n
      && (List.range 64).all (fun k => let t := 128 + 64 * n + 64 * k
            c t 1 = k && c (t + 1) 1 < 2 && c (t + 2) 6 = 0 && c (t + 0x38) 8 = 0)
    let cyc := imgCycle m
    let ec := epochCrossings (imgPeriod m)
    let closes := fun (p : Nat) => ((dispatches m p).filter (fun e => e.unit = 5 && e.op = 2)).length
    let per := (List.range cyc).map (fun i => closes (cyclePattern m i))
    let one := (List.range cyc).all (fun e =>
      ((List.range ec).foldl (fun n j => n + per.getD ((e * ec + j) % max 1 cyc) 0) 0) = 1)
    let jobs := (List.range cyc).all (fun i => (dispatches m (cyclePattern m i)).all (fun e =>
      e.unit ≠ 5 || (e.op = 1 && e.job < 64) || (e.op = 2 && e.job = 0)))
    if ok && one && jobs then none else some o

/-- Latency and initiation interval of a fusion operation (06 R257). -/
def fusCost (m : Tab Byte) (op : Nat) : Nat × Nat :=
  let k := fusHdr m 0x50 2 + fusHdr m 0x52 1
  if op = 2 then (32 * (k + 1) + 160, 32 * (k + 2)) else (48, 8)

end Sys2Proof.Machine
end

