-- ==== Sys2Proof/Machine/Crypto.lean ====
section
/-!
DEFINITION. The published checks and signatures the spec names: cyclic redundancy checks, SHA-256 and HMAC-SHA-256
(FIPS 180-4, FIPS 198-1), ECDSA over P-256 (FIPS 186). The spec names them and does not restate them: DEDUCED, see the
assumption log.
-/
namespace Sys2Proof.Machine

/-! ### Cyclic redundancy checks -/

/-- `k` bits of a reflected CRC: shift right, fold in the reflected polynomial. -/
def crcRefBits (poly : Nat) : Nat → Nat → Nat
  | 0, c => c
  | k + 1, c => crcRefBits poly k (if c % 2 = 1 then (c / 2) ^^^ poly else c / 2)

/-- A reflected CRC over bytes. Log entry 11 (DEDUCED, unsafe). -/
def crcRef (poly : Nat) : List Byte → Nat → Nat
  | [], c => c
  | b :: t, c => crcRef poly t (crcRefBits poly 8 (c ^^^ b.toNat))

/-- `k` bits of a forward CRC of width `w`. -/
def crcFwdBits (w poly : Nat) : Nat → Nat → Nat
  | 0, c => c
  | k + 1, c => crcFwdBits w poly k (if c / 2 ^ (w - 1) = 1 then (c * 2 % 2 ^ w) ^^^ poly else c * 2 % 2 ^ w)

/-- A forward CRC of width `w` (8 or more) over bytes. -/
def crcFwd (w poly : Nat) : List Byte → Nat → Nat
  | [], c => c
  | b :: t, c => crcFwd w poly t (crcFwdBits w poly 8 (c ^^^ (b.toNat * 2 ^ (w - 8))))

/-- The CRC-32 of the IEEE 802.3 frame check sequence (02 R93, 16 R614, 17 R650). -/
def crc32 (b : List Byte) : Nat := crcRef 0xEDB88320 b 0xFFFFFFFF ^^^ 0xFFFFFFFF

/-! ### SHA-256 -/

/-- The whole part of the cube root of `x`, from its part `r` down to the unit in `b` bits. -/
def cubeRoot (x : Nat) : Nat → Nat → Nat
  | 0, r => r
  | b + 1, r => cubeRoot x b (if (r + 2 ^ b) ^ 3 ≤ x then r + 2 ^ b else r)

/-- The primes below 324: no smaller number from 2 to 17 divides them. -/
def smallPrimes : List Nat :=
  (List.range 324).filter (fun n => 2 ≤ n && (List.range 18).all (fun d => d < 2 || n ≤ d || n % d ≠ 0))

/-- The round constants: the first 32 bits of the fractions of the cube roots of the first 64 primes. -/
def shaK : List (BitVec 32) := (smallPrimes.take 64).map (fun p => BitVec.ofNat 32 (cubeRoot (p * 2 ^ 96) 35 0))

/-- The eight working words. -/
structure ShaState where
  a : BitVec 32 := 0x6a09e667
  b : BitVec 32 := 0xbb67ae85
  c : BitVec 32 := 0x3c6ef372
  d : BitVec 32 := 0xa54ff53a
  e : BitVec 32 := 0x510e527f
  f : BitVec 32 := 0x9b05688c
  g : BitVec 32 := 0x1f83d9ab
  h : BitVec 32 := 0x5be0cd19
deriving DecidableEq, Repr

/-- The message schedule: the newest word first, extended by `n` words. -/
def shaExtend : Nat → List (BitVec 32) → List (BitVec 32)
  | 0, w => w
  | n + 1, w =>
    let x := w.getD 14 0
    let y := w.getD 1 0
    let s0 := x.rotateRight 7 ^^^ x.rotateRight 18 ^^^ (x >>> 3)
    let s1 := y.rotateRight 17 ^^^ y.rotateRight 19 ^^^ (y >>> 10)
    shaExtend n ((w.getD 15 0 + s0 + w.getD 6 0 + s1) :: w)

/-- One round. -/
def shaRound (s : ShaState) (kw : BitVec 32) : ShaState :=
  let s1 := s.e.rotateRight 6 ^^^ s.e.rotateRight 11 ^^^ s.e.rotateRight 25
  let ch := (s.e &&& s.f) ^^^ (~~~s.e &&& s.g)
  let t1 := s.h + s1 + ch + kw
  let s0 := s.a.rotateRight 2 ^^^ s.a.rotateRight 13 ^^^ s.a.rotateRight 22
  let mj := (s.a &&& s.b) ^^^ (s.a &&& s.c) ^^^ (s.b &&& s.c)
  { a := t1 + (s0 + mj), b := s.a, c := s.b, d := s.c, e := s.d + t1, f := s.e, g := s.f, h := s.g }

/-- The number big-endian bytes spell. -/
def ofBe (b : List Byte) : Nat := b.foldl (fun n x => n * 256 + x.toNat) 0

/-- `n` big-endian bytes of a number. -/
def beBytes (n v : Nat) : List Byte := (leBytes n v).reverse

/-- The 32-bit words of a block. -/
def beWords : Nat → List Byte → List (BitVec 32)
  | 0, _ => []
  | n + 1, b => BitVec.ofNat 32 (ofBe (b.take 4)) :: beWords n (b.drop 4)

/-- One 64-byte block. -/
def shaBlock (s : ShaState) (b : List Byte) : ShaState :=
  let w := (shaExtend 48 (beWords 16 b).reverse).reverse
  let r := (List.zipWith (· + ·) shaK w).foldl shaRound s
  { a := s.a + r.a, b := s.b + r.b, c := s.c + r.c, d := s.d + r.d, e := s.e + r.e, f := s.f + r.f, g := s.g + r.g,
    h := s.h + r.h }

/-- The blocks of a padded message. -/
def shaBlocks : Nat → ShaState → List Byte → ShaState
  | 0, s, _ => s
  | n + 1, s, b => shaBlocks n (shaBlock s (b.take 64)) (b.drop 64)

/-- SHA-256. Log entry 11 (DEDUCED, unsafe). -/
def sha256 (m : List Byte) : List Byte :=
  let n := m.length
  let z := (119 - n % 64) % 64
  let p := m ++ [0x80] ++ List.replicate z 0 ++ beBytes 8 (n * 8)
  let s := shaBlocks (p.length / 64) {} p
  [s.a, s.b, s.c, s.d, s.e, s.f, s.g, s.h].flatMap (fun w => beBytes 4 w.toNat)

/-- HMAC-SHA-256 with a key of at most 64 bytes. -/
def hmac256 (key m : List Byte) : List Byte :=
  let k := key ++ List.replicate (64 - key.length) 0
  sha256 (k.map (· ^^^ 0x5C) ++ sha256 (k.map (· ^^^ 0x36) ++ m))

/-! ### ECDSA P-256 -/

def p256P : Nat := 0xffffffff00000001000000000000000000000000ffffffffffffffffffffffff
def p256N : Nat := 0xffffffff00000000ffffffffffffffffbce6faada7179e84f3b9cac2fc632551
def p256B : Nat := 0x5ac635d8aa3a93e7b3ebbd55769886bc651d06b0cc53b0f63bce3c3e27d2604b
def p256Gx : Nat := 0x6b17d1f2e12c4247f8bce6e563a440f277037d812deb33a0f4a13945d898c296
def p256Gy : Nat := 0x4fe342e2fe1a7f9b8ee7eb4a7c0f9e162bce33576b315ececbb6406837bf51f5

/-- b to the power whose bits are given by `e`, modulo `m`; `k` bits. -/
def powMod (m : Nat) : Nat → Nat → Nat → Nat
  | 0, _, _ => 1 % m
  | k + 1, b, e =>
    let r := powMod m k (b * b % m) (e / 2)
    if e % 2 = 1 then b * r % m else r

/-- The inverse modulo a prime. -/
def invMod (m a : Nat) : Nat := powMod m 256 (a % m) (m - 2)

/-- A point of the curve; none is the point at infinity. -/
abbrev EcPoint := Option (Nat × Nat)

def subMod (m a b : Nat) : Nat := (a % m + m - b % m) % m

/-- Point addition. -/
def ecAdd (P Q : EcPoint) : EcPoint :=
  match P, Q with
  | none, q => q
  | p, none => p
  | some (x1, y1), some (x2, y2) =>
    if x1 = x2 && (y1 + y2) % p256P = 0 then none
    else
      let l := if x1 = x2 then subMod p256P (3 * x1 * x1) 3 * invMod p256P (2 * y1) % p256P
        else subMod p256P y2 y1 * invMod p256P (subMod p256P x2 x1) % p256P
      let x := subMod p256P (l * l) (x1 + x2)
      some (x, subMod p256P (l * subMod p256P x1 x) y1)

/-- Scalar multiplication over `k` bits. -/
def ecMul : Nat → Nat → EcPoint → EcPoint
  | 0, _, _ => none
  | k + 1, e, P =>
    let r := ecMul k (e / 2) (ecAdd P P)
    if e % 2 = 1 then ecAdd P r else r

/-- The public key lies on the curve. -/
def onCurve (x y : Nat) : Bool :=
  x < p256P && y < p256P && y * y % p256P == (subMod p256P (x * x % p256P * x) (3 * x) + p256B) % p256P

/-- ECDSA verification of `sig` (r then s, each 32 bytes big-endian) by the public key (x then y, each 32 bytes
big-endian) over SHA-256 of the message. -/
def ecdsaVerify (key sig m : List Byte) : Bool :=
  let x := ofBe (key.take 32)
  let y := ofBe ((key.drop 32).take 32)
  let r := ofBe (sig.take 32)
  let t := ofBe ((sig.drop 32).take 32)
  if !onCurve x y || r = 0 || t = 0 || p256N ≤ r || p256N ≤ t then false
  else
    let w := invMod p256N t
    let e := ofBe (sha256 m)
    match ecAdd (ecMul 256 (e * w % p256N) (some (p256Gx, p256Gy))) (ecMul 256 (r * w % p256N) (some (x, y))) with
    | none => false
    | some (px, _) => px % p256N == r

end Sys2Proof.Machine
end

