-- ==== Sys2Proof/Machine/Clock.lean ====
section
/-!
DEFINITION. The backup domain, the real-time clock and the logbook (chapter 17).
-/
namespace Sys2Proof.Machine

/-! ### Backup domain -/

/-- The backup memory with its check word recomputed in the same operation (17 R650, R651). -/
def bkpCheck (c : Rtc) : Rtc := { c with check := BitVec.ofNat 32 (crc32 (bytesAt c.mem 0 256)) }

/-- Bytes written to the backup memory from offset `o`. -/
def bkpPut (o : Nat) (b : List Byte) (s : State) : State :=
  { s with rtc := bkpCheck { s.rtc with mem := putBytes s.rtc.mem o b } }

/-- A byte of the backup memory. -/
def bkpByte (s : State) (o : Nat) : Nat := (Tab.get 0 s.rtc.mem o).toNat

/-- The offset of a landing's slipway record (11 R433). -/
def slipwayAt (x : Side) : Nat := 16 * x.num

/-- The interrupted flag set in a slipway record whose last stage is below 11 (11 R433). -/
def markInterrupted (x : Side) (s : State) : State :=
  if bkpByte s (slipwayAt x) < 11 then
    let f := bkpByte s (slipwayAt x + 4)
    if bitOf f 4 then s else bkpPut (slipwayAt x + 4) [BitVec.ofNat 8 (f + 16)] s
  else s

/-- SUPPLY_SWITCHOVER (17 R647, R649): to VBAT the interrupted flags are set and the switch is counted; back to the main
feed nothing is lost. -/
def switchSupply (toVbat : Bool) (s : State) : State :=
  if s.rtc.onVbat = toVbat then s
  else if toVbat then
    let s := markInterrupted .B (markInterrupted .A s)
    { s with rtc := { s.rtc with onVbat := true, switches := (s.rtc.switches + 1) % 65536 } }
  else { s with rtc := { s.rtc with onVbat := false } }

/-- SUPPLY_SWITCHOVER (17 R649). -/
def execSupplySwitchover (at_ : Nat) (toVbat : Bool) (s : State) : Host.Outcome State Fault Refusal :=
  .next (switchSupply toVbat (advance at_ s))

/-- The domain's power-on reset (17 R648): every counter, register and memory word of the domain 0 and `LOST` set; what the
cable die keeps outside the domain stays. -/
def resetDomain (c : Rtc) : Rtc :=
  { snaps := c.snaps, staged := c.staged, vbat := c.vbat, lowCount := c.lowCount, vbatLow := c.vbatLow,
    wakeBit := c.wakeBit, bkpValid := c.bkpValid, onVbat := c.onVbat, lost := true }

/-- BACKUP_RESET (17 R648). -/
def execBackupReset (at_ : Nat) (s : State) : Host.Outcome State Fault Refusal :=
  let s := advance at_ s
  .next { s with rtc := resetDomain s.rtc }

/-- The writers of each range of the backup memory (17 R651). -/
def bkpWriter (r : Requester) (o : Nat) (s : State) : Bool :=
  match r with
  | .deckhand x =>
    if o < 0x20 then slipwayAt x ≤ o && o < slipwayAt x + 16
    else (o < 0x64 || 0x80 ≤ o) && cableWriteOk s x
  | .tile x _ => 0x80 ≤ o && cableWriteOk s x
  | .engine x _ => 0x80 ≤ o && cableWriteOk s x
  | .host p => 0x80 ≤ o && 2 ≤ (s.part p).level

/-- BACKUP_WRITE (17 R651): an aligned word of its writer's range, with its check word; another host write is refused,
any other write has no effect. -/
def backupWrite (r : Requester) (o : Nat) (v : Word) (s : State) : State :=
  if o < 256 && o % 4 == 0 && bkpWriter r o s then bkpPut o (leBytes 4 v.toNat) s
  else match r with
    | .host p => hostRefused p s
    | _ => s

/-- BACKUP_WRITE (17 R651). -/
def execBackupWrite (at_ : Nat) (r : Requester) (o : Nat) (v : Word) (s : State) : Host.Outcome State Fault Refusal :=
  .next (backupWrite r o v (advance at_ s))

/-! ### Real-time clock -/

/-- A requester that may write the RTC registers: the active landing's Deckhand core and manifest (01 R43), a host at
ENGINEER level (17 R655). -/
def rtcWriter (r : Requester) (s : State) : Bool :=
  match r with
  | .deckhand x => cableWriteOk s x
  | .tile x _ => cableWriteOk s x
  | .engine x _ => cableWriteOk s x
  | .host p => 2 ≤ (s.part p).level

/-- `f` where `r` may write the RTC; a host that may not is refused, any other write is discarded. -/
def rtcWrite (r : Requester) (f : State → State) (s : State) : State :=
  if rtcWriter r s then f s
  else match r with
    | .host p => hostRefused p s
    | _ => s

/-- A snapshot of seconds and subseconds for the requester, and the seconds read (17 R654). -/
def takeSnapshot (r : Requester) (s : State) : State :=
  { s with rtc := { s.rtc with snaps := Tab.set none s.rtc.snaps (reqKey r) (some (rtcShown s)) },
           resp := { data := BitVec.ofNat 32 (rtcShown s).1 } }

/-- RTC_SNAPSHOT (17 R654). -/
def execRtcSnapshot (at_ : Nat) (r : Requester) (s : State) : Host.Outcome State Fault Refusal :=
  .next (takeSnapshot r (advance at_ s))

/-- The writer's number in an `RTC_TIME_SET` record (17 R662). -/
def writerNum (r : Requester) : Nat :=
  match r with
  | .deckhand _ => 0xFF
  | .tile _ _ => 0xFE
  | .engine _ _ => 0xFE
  | .host p => p

/-- The RTC time in 1/256 s (17 R658). -/
def wakeTime (c : Rtc) : Nat := (c.seconds * 32768 + c.subsec) / 128

/-- What is left of the crystal's period: the prescaler restarts at the next edge (17 R655). -/
def untilEdge (c : Rtc) : Nat := if c.hold = 0 then rtcPeriod - c.phase else c.hold

/-- The lost records' own record put into the buffer as soon as space allows (17 R665). -/
def postLost (s : State) : State :=
  if s.log.lostPending = 0 || bufferFill s.log.buffer + 24 > 65536 then s
  else
    let n := s.log.lostPending
    raiseOwn .cable 0x1004 n (some (leBytes 4 n ++ leBytes 4 0)) { s with log := { s.log with lostPending := 0 } }

/-- A commit (17 R655, R656): the time and the subseconds in one cycle, the prescaler restarted at the next crystal edge, the RTC valid;
the record with the old time, and `RTC_SETBACK` for an earlier time. Wakes go on from the new time (17 R658). -/
def commitTime (secs sub writer : Nat) (s : State) : State :=
  let o := s.rtc
  let back := decide (secs * 32768 + sub < o.seconds * 32768 + o.subsec)
  let pay := leBytes 4 o.seconds ++ leBytes 2 o.subsec ++ leBytes 2 sub ++ leBytes 8 (uptimeMs s) ++ leBytes 1 writer
    ++ leBytes 1 (b2n o.valid) ++ leBytes 6 0
  let old := rtcShown s
  let c := { o with seconds := secs, subsec := sub, phase := 0, hold := untilEdge o, valid := true, was := some (cycleNow s, old) }
  let s := { s with rtc := { c with wakeSeen := wakeTime c } }
  let s := postLost (raiseOwn .cable 0x0F02 o.seconds (some pay) s)
  if back then raise .cable 0x0F03 o.seconds s else s

/-- A write of `RTC_SECONDS` by `r` with its staged subseconds (17 R655). -/
def commitStaged (r : Requester) (secs : Word) (s : State) : State :=
  let sub := Tab.get 0 s.rtc.staged (reqKey r)
  commitTime secs.toNat sub (writerNum r)
    { s with rtc := { s.rtc with staged := Tab.set 0 s.rtc.staged (reqKey r) 0 } }

/-- RTC_COMMIT (17 R655). -/
def execRtcCommit (at_ : Nat) (r : Requester) (secs : Word) (s : State) : Host.Outcome State Fault Refusal :=
  .next (rtcWrite r (commitStaged r secs) (advance at_ s))

/-- A subsecond value staged for its requester (17 R655). -/
def stageSubsec (r : Requester) (v : Word) (s : State) : State :=
  { s with rtc := { s.rtc with staged := Tab.set 0 s.rtc.staged (reqKey r) (v.toNat % 32768) } }

/-- RTC_STAGE_SUBSEC (17 R655). -/
def execRtcStageSubsec (at_ : Nat) (r : Requester) (v : Word) (s : State) : Host.Outcome State Fault Refusal :=
  .next (rtcWrite r (stageSubsec r v) (advance at_ s))

/-- The longest wake period, 24 h in 1/256 s (17 R658). -/
def wakeMax : Nat := 22118400

/-- A wake period stored and reported; a longer one is not stored (17 R658, R674, R676). -/
def setWake (w : Nat) (s : State) : State :=
  if w ≤ wakeMax then raise .cable 0x0F06 w { s with rtc := { s.rtc with period := w, wakeSeen := wakeTime s.rtc } } else s

/-- A write of `RTC_WAKE`, which is not host-writable (16 R610, 17 R674). -/
def wakeWrite (r : Requester) (v : Word) (s : State) : State :=
  match r with
  | .host p => hostRefused p s
  | _ => rtcWrite r (setWake (v.toNat % 2 ^ 25)) s

/-- RTC_WAKE (17 R658). -/
def execRtcWake (at_ : Nat) (r : Requester) (v : Word) (s : State) : Host.Outcome State Fault Refusal :=
  .next (wakeWrite r v (advance at_ s))

/-- The next wake instant is reached (17 R658): the next multiple of the period, or time 0 where the count wraps first. -/
def wakeDue (c : Rtc) : Bool :=
  let next := (c.wakeSeen / c.period + 1) * c.period
  c.period ≠ 0 && (wakeTime c < c.wakeSeen || next ≤ wakeTime c)

/-- The RTC time up to which wakes are counted after the next of them. -/
def wakeNext (c : Rtc) : Nat :=
  let next := (c.wakeSeen / c.period + 1) * c.period
  if next < 2 ^ 40 then next else 0

/-- A wake instant counted, while wakes are enabled and one is reached (17 R658). Log entry 108 (DEDUCED, unsafe). -/
def countWake (c : Rtc) : Rtc :=
  if wakeDue c then { c with wakeCount := c.wakeCount + 1, wakeBit := true, wakeSeen := wakeNext c } else c

/-- WAKE_INSTANT (17 R658). -/
def execWakeInstant (at_ : Nat) (s : State) : Host.Outcome State Fault Refusal :=
  let s := advance at_ s
  .next { s with rtc := countWake s.rtc }

/-- RTC_SET (17 R672). -/
def execRtcSet (h : CmdHdr) (secs : Word) (sub : Nat) (s : State) : Host.Outcome State Fault Refusal :=
  .next (hostCommand h 0x0F01 (fun _ => { level := 2, range := sub ≤ 32767 })
    (fun s => done (commitTime secs.toNat sub 0xFF s)) s)

/-- RTC_SET_WAKE (17 R672). -/
def execRtcSetWake (h : CmdHdr) (period : Nat) (s : State) : Host.Outcome State Fault Refusal :=
  .next (hostCommand h 0x0F02 (fun _ => { level := 2, range := period ≤ wakeMax })
    (fun s => done (setWake period s)) s)

/-- RTC_BKP_WRITE (17 R672). -/
def execRtcBkpWrite (h : CmdHdr) (off : Nat) (data : List Byte) (s : State) : Host.Outcome State Fault Refusal :=
  .next (hostCommand h 0x0F03
    (fun _ => { format := data.length % 4 == 0 && 4 ≤ data.length && data.length ≤ 128, level := 2,
                range := 0x80 ≤ off && off ≤ 0xFC && off % 4 == 0 && off + data.length ≤ 0x100 })
    (fun s => done (bkpPut off data s)) s)

/-- One 1 s measurement of VBAT while main power is present (17 R649): the tenth low one in a row raises
`RTC_VBAT_LOW`. -/
def measureVbat (v : Nat) (s : State) : State :=
  let c := { s.rtc with vbat := v % 512 }
  if c.onVbat then { s with rtc := c }
  else if v < 220 then
    let n := min 10 (c.lowCount + 1)
    let s' := { s with rtc := { c with lowCount := n, vbatLow := n = 10 } }
    if n = 10 && !c.vbatLow then raise .cable 0x0F04 v s' else s'
  else { s with rtc := { c with lowCount := 0, vbatLow := false } }

/-- RTC_VBAT_LOW (17 R649). -/
def execRtcVbatLow (at_ : Nat) (v : Nat) (s : State) : Host.Outcome State Fault Refusal :=
  .next (measureVbat v (advance at_ s))

/-- The RTC counted back by `d` units of time in which its crystal stood still, not below 0 (17 R659). -/
def rtcBack (d : Nat) (c : Rtc) : Rtc :=
  let n := (c.seconds * 32768 + c.subsec) * rtcPeriod + c.phase - d * 32768
  let c := { c with seconds := n / rtcPeriod / 32768, subsec := n / rtcPeriod % 32768, phase := n % rtcPeriod }
  { c with wakeSeen := min c.wakeSeen (wakeTime c) }

/-- The crystal found still for 1 ms while main power is present (17 R659): the RTC becomes invalid until a commit, and its count goes on
from where it stopped. Log entry 108 (DEDUCED, unsafe). -/
def oscStop (s : State) : State :=
  if s.rtc.onVbat || s.uptime.isNone then s
  else raise .cable 0x0F05 0 { s with rtc := { rtcBack (1000000 * nsUnit) s.rtc with valid := false } }

/-- RTC_OSC_STOP (17 R659). -/
def execRtcOscStop (at_ : Nat) (s : State) : Host.Outcome State Fault Refusal := .next (oscStop (advance at_ s))

/-! ### Logbook -/

/-- The records of these codes are never suppressed (17 R668). -/
def neverSuppressed (code : Nat) : Bool := [0x0F02, 0x1001, 0x1002, 0x1004].contains code

/-- The default limit of a code by its severity (17 R668). -/
def defaultLimit (code : Nat) : Nat :=
  match severityOf code with
  | some .note => 4
  | some .caution => 16
  | some _ => 255
  | none => 4

/-- The limit in force of a code: its table entry (kept as limit + 1) or its default (17 R668). -/
def limitOf (l : Logbook) (code : Nat) : Nat :=
  match Tab.get 0 l.limits code with
  | 0 => defaultLimit code
  | n + 1 => n

/-- The record as stored: header and payload (17 R662). -/
def recStored (r : LogRec) (seq supp : Nat) : List Byte :=
  let pay := match r.own with
    | none => leBytes 4 r.detail ++ leBytes 2 r.subsec ++ leBytes 2 0
    | some p => p ++ List.replicate ((8 - p.length % 8) % 8) 0
  leBytes 1 0x3C ++ leBytes 1 ((16 + pay.length) / 8) ++ leBytes 2 r.code ++ leBytes 6 seq
    ++ leBytes 1 (r.src + b2n r.rtcValid * 4) ++ leBytes 1 (min 255 supp) ++ leBytes 4 r.seconds ++ pay

/-- The next sector of the ring (17 R660). -/
def nextSector (n : Nat) : Nat := if n < 255 then n + 1 else 2

/-- A failed copy taken out of use (17 R665). Log entry 109 (DEDUCED, unsafe). -/
def dropCopies (ok1 ok2 : Bool) (s : State) : State :=
  let live := copyLive s
  let f1 := live.1 && !ok1
  let f2 := live.2 && !ok2
  let s := { s with log := { s.log with copy1 := s.log.copy1 && !f1, copy2 := s.log.copy2 && !f2 } }
  let s := if f1 then raise .cable 0x1003 1 s else s
  if f2 then raise .cable 0x1003 2 s else s

/-- Bytes programmed after those of sector `n`. -/
def program (n : Nat) (b : List Byte) (f : Tab (List Byte)) : Tab (List Byte) := Tab.upd [] f n (· ++ b)

/-- A record whose programming failed: bytes not stated by the spec, so free, but never marked valid (17 R663). Log entry 109 (DEDUCED, unsafe). -/
def spoiledRec (free len : Nat) : List Byte :=
  match freeBytes free len with
  | [] => []
  | m :: t => (if m = 0x3C then 0xFF else m) :: t

/-- A sector header, where the sector is new, and a record's bytes programmed in each live copy, the valid mark last (17 R661, R663). -/
def storeRec (ok1 ok2 : Bool) (head rec : List Byte) (s : State) : State :=
  let live := copyLive s
  let put := fun (ok : Bool) (free : Nat) => program s.log.sector (head ++ if ok then rec else spoiledRec free rec.length)
  { s with
    free := s.free + 2 * rec.length,
    log := { s.log with
      flash1 := if live.1 then put ok1 s.free s.log.flash1 else s.log.flash1,
      flash2 := if live.2 then put ok2 (s.free + rec.length) s.log.flash2 else s.log.flash2 } }

/-- The sectors that `p` names erased in each live copy. -/
def eraseSectors (p : Nat → Bool) (s : State) : State :=
  let live := copyLive s
  let wipe := fun (f : Tab (List Byte)) => f.filter (fun e => !p e.1)
  { s with log := { s.log with
    flash1 := if live.1 then wipe s.log.flash1 else s.log.flash1,
    flash2 := if live.2 then wipe s.log.flash2 else s.log.flash2 } }

/-- The logbook moved to the next sector, which is erased; `LOG_WRAP` where it held records (17 R661). -/
def moveSector (s : State) : State :=
  let n := nextSector s.log.sector
  let held := (logRecs s.log (copyLive s)).any (fun r => r.sector == n)
  let s := eraseSectors (· == n) s
  let s : State := { s with log := { s.log with sector := n, used := 0 } }
  if held then raise .cable 0x1005 n s else s

/-- One record written with the next sequence number (17 R661, R662, R666). -/
def writeRec (r : LogRec) (ok1 ok2 : Bool) (s : State) : State :=
  let s := if 65536 < max 16 s.log.used + recBytes r then moveSector s else s
  let seq := s.log.nextSeq
  let supp := Tab.get 0 s.log.supp r.code
  let s := storeRec ok1 ok2 (if s.log.used = 0 then sectorHead seq else []) (recStored r seq supp) s
  let s := { s with log := { s.log with
    nextSeq := (seq + 1) % 2 ^ 48, used := max 16 s.log.used + recBytes r, started := true,
    wrote := Tab.upd 0 s.log.wrote r.code (· + 1), supp := Tab.set 0 s.log.supp r.code 0 } }
  dropCopies ok1 ok2 s

/-- A record suppressed by its limit: counted, no sequence taken (17 R666, R668). -/
def suppressRec (r : LogRec) (s : State) : State :=
  { s with log := { s.log with supp := Tab.upd 0 s.log.supp r.code (fun n => satAdd 255 n 1),
                               suppressed := satAdd 0xFFFFFFFF s.log.suppressed 1 } }

/-- The counts of the running whole second of uptime (17 R668). -/
def limitSecond (s : State) : State :=
  let sec := uptimeMs s / 1000
  if sec = s.log.second then s else { s with log := { s.log with second := sec, wrote := [] } }

/-- The leg of a record runs still, so that a record of the other landing or of an earlier source may join it (17 R664).
Log entry 144 (DEDUCED, unsafe). -/
def legOpen (r : LogRec) (s : State) : Bool :=
  s.tick.period ≠ 0 && r.leg = s.legCount && s.now < s.tick.last + s.tick.period * nsUnit

/-- The oldest buffered record written once its leg is over, or suppressed by its limit; nothing while a scan or a clear runs (17 R664 to
R668, R671). Log entry 144 (DEDUCED, unsafe). -/
def logbookStep (ok1 ok2 : Bool) (s : State) : State :=
  if s.log.scanning || s.log.clearing.isSome then s
  else match s.log.buffer with
    | [] => s
    | r :: t =>
      if legOpen r s then s
      else
      let s := limitSecond { s with log := { s.log with buffer := t } }
      let n := limitOf s.log r.code
      let s := if !neverSuppressed r.code && n ≠ 255 && n ≤ Tab.get 0 s.log.wrote r.code then suppressRec r s
        else writeRec r ok1 ok2 s
      postLost s

/-- LOGBOOK_WRITE (17 R664). -/
def execLogbookWrite (at_ : Nat) (ok1 ok2 : Bool) (s : State) : Host.Outcome State Fault Refusal :=
  .next (logbookStep ok1 ok2 (advance at_ s))

/-- A stored record put in ascending sequence. -/
def insertRec (r : StoredRec) : List StoredRec → List StoredRec
  | [] => [r]
  | q :: t => if r.seq < q.seq then r :: q :: t else if r.seq = q.seq then q :: t else q :: insertRec r t

/-- The records held, in ascending sequence, each from copy 1 where it holds it valid, else from copy 2 (17 R670). -/
def heldRecs (s : State) : List StoredRec := (logRecs s.log (copyLive s)).foldl (fun acc r => insertRec r acc) []

/-- As many whole records as fit in the length given. -/
def fitRecs : List StoredRec → Nat → List Byte
  | [], _ => []
  | r :: t, n => if r.bytes.length ≤ n then r.bytes ++ fitRecs t (n - r.bytes.length) else []

/-- LOG_READ (17 R670). -/
def execLogRead (h : CmdHdr) (first len : Nat) (s : State) : Host.Outcome State Fault Refusal :=
  .next (hostCommand h 0x1001 (fun _ => { level := 1, range := 16 ≤ len && len ≤ 1024 })
    (fun s => { s := s, data := fitRecs ((heldRecs s).filter (fun r => first ≤ r.seq)) len }) s)

/-- The rate-limit table with a code's limit set; its severity default frees the entry (17 R673). -/
def setLimit (code limit : Nat) (t : Tab Nat) : Tab Nat :=
  if limit = defaultLimit code then Tab.set 0 t code 0 else Tab.set 0 t code (limit + 1)

/-- LOG_SET_LIMIT (17 R672, R673): answered ACCEPTED; `LIMIT_TABLE_WRITTEN` completes it. -/
def execLogSetLimit (h : CmdHdr) (code limit : Nat) (s : State) : Host.Outcome State Fault Refusal :=
  .next (hostCommand h 0x1002
    (fun s => { level := 2, range := limit ≤ 255 && (severityOf code).isSome &&
      (s.log.limits.length < 1024 || Tab.get 0 s.log.limits code ≠ 0 || limit == defaultLimit code) })
    (fun s => { st := .accepted, s := { s with log := { s.log with
      limits := setLimit code limit s.log.limits, limitCmds := s.log.limitCmds ++ [cmdOf h 0x1002] } } }) s)

/-- The 1,024 entries of the rate-limit table with their CRC, as sector 1 holds them (17 R669). -/
def limitImage (t : Tab Nat) : List Byte :=
  let e := t.flatMap (fun p => leBytes 2 p.1 ++ leBytes 1 (p.2 - 1) ++ leBytes 1 0)
  let b := e ++ List.replicate (4096 - e.length) 0
  b ++ leBytes 4 (crc32 b)

/-- Sector 1 of each live copy rewritten with the table in force; bytes whose writing failed are free. -/
def storeLimits (ok1 ok2 : Bool) (s : State) : State :=
  let live := copyLive s
  let put := fun (ok : Bool) (free : Nat) (f : Tab (List Byte)) =>
    Tab.set [] f 1 (if ok then limitImage s.log.limits else freeBytes free 4100)
  { s with
    free := s.free + 8200,
    log := { s.log with
      flash1 := if live.1 then put ok1 s.free s.log.flash1 else s.log.flash1,
      flash2 := if live.2 then put ok2 (s.free + 4100) s.log.flash2 else s.log.flash2 } }

/-- The rewrite of sector 1 of both copies ends (17 R669): DONE, or MEDIA when a copy failed. -/
def limitWritten (ok1 ok2 : Bool) (s : State) : State :=
  match s.log.limitCmds with
  | [] => s
  | c :: t =>
    let live := copyLive s
    let bad := (live.1 && !ok1) || (live.2 && !ok2)
    let s := dropCopies ok1 ok2 (storeLimits ok1 ok2 { s with log := { s.log with limitCmds := t } })
    complete c (if bad then .media else .done) [] false s

/-- LIMIT_TABLE_WRITTEN (17 R669). -/
def execLimitTableWritten (at_ : Nat) (ok1 ok2 : Bool) (s : State) : Host.Outcome State Fault Refusal :=
  .next (limitWritten ok1 ok2 (advance at_ s))

/-- LOG_CLEAR (17 R671, R673): the hold is taken, every ring sector but the one being written is erased, and the clear
runs. -/
def execLogClear (h : CmdHdr) (s : State) : Host.Outcome State Fault Refusal :=
  .next (hostCommand h 0x1003
    (fun s => { level := 3, modes := [1], state := s.log.clearing.isNone || !freeTo 6 h.part s, free := freeTo 6 h.part s })
    (fun s =>
      let s := takeHold 6 h.part s
      let s := eraseSectors (fun n => 2 ≤ n && n ≠ s.log.sector) s
      { st := .accepted, s := { s with log := { s.log with clearing := some (cmdOf h 0x1003) } } }) s)

/-- The clear's end (17 R671): `LOG_CLEARED` at the start of the next sector with the next sequence, the last remaining
sector erased, and the command completed; the buffered records follow. -/
def clearEnd (ok1 ok2 : Bool) (s : State) : State :=
  match s.log.clearing with
  | none => s
  | some c =>
    let high := s.log.nextSeq - 1
    let pay := leBytes 1 c.part ++ leBytes 7 0 ++ leBytes 8 high ++ leBytes 8 (uptimeMs s)
    let r := faultRec .cable 0x1002 c.part (some pay) s
    let live := copyLive s
    let bad := (live.1 && !ok1) || (live.2 && !ok2)
    let old := s.log.sector
    let s := { s with log := { s.log with clearing := none, sector := nextSector old, used := 0 } }
    let s := eraseSectors (· == old) (writeRec r ok1 ok2 s)
    let s := react .cable 0x1002 c.part .caution s
    complete c (if bad then .media else .done) [] false (s.setHold 6 none)

/-- LOG_CLEAR_COMPLETE (17 R671). -/
def execLogClearComplete (at_ : Nat) (ok1 ok2 : Bool) (s : State) : Host.Outcome State Fault Refusal :=
  .next (clearEnd ok1 ok2 (advance at_ s))

end Sys2Proof.Machine
end

