-- ==== Sys2Proof/Machine/Gnss.lean ====
section
/-!
DEFINITION. The dual-frequency GNSS baseband, its aiding and the time-pulse steering (chapter 05).
-/
namespace Sys2Proof.Machine

/-! ### Configuration (05 R220) -/

/-- A field of the configuration block: `n` bytes at offset `o`. -/
def gnsCfg (m : Tab Byte) (o n : Nat) : Nat := if (enginePart m 4).isNone then 0 else le m (partOff m 4 + o) n

/-- Bit `b` of antenna `a`'s byte: 0 fitted, 1 and 2 bands fitted, 3 and 4 bands inverted. -/
def gnsAntBit (m : Tab Byte) (a b : Nat) : Bool := bitOf (gnsCfg m a 1) b

/-- The largest number of samples in a crossing of antenna `a` (05 R198). -/
def gnsNmax (m : Tab Byte) (a : Nat) : Nat := (gnsCfg m (4 + 4 * a) 4 * periodNs (imgPeriod m) + 999999999) / 1000000000 + 1

/-- The n_max of a pass: the larger of the fitted antennas' (05 R204). -/
def passNmax (m : Tab Byte) : Nat :=
  max (if gnsAntBit m 0 0 then gnsNmax m 0 else 0) (if gnsAntBit m 1 0 then gnsNmax m 1 else 0)

/-- Antenna `a` of landing `x` changed; half `i` changed; the steering changed. -/
def State.modAnt (s : State) (x : Side) (a : Nat) (f : GnsAnt → GnsAnt) : State :=
  s.modLd x (fun l => { l with gns := { l.gns with ants := Tab.upd {} l.gns.ants a f } })
def State.modHalf (s : State) (x : Side) (i : Nat) (f : GnsHalf → GnsHalf) : State :=
  s.modLd x (fun l => { l with gns := { l.gns with halves := Tab.upd {} l.gns.halves i f } })
def State.modSteer (s : State) (x : Side) (f : Steer → Steer) : State :=
  s.modLd x (fun l => { l with gns := { l.gns with steer := f l.gns.steer } })

/-! ### Signals (05 R193, R200, R201) -/

/-- Primary code length and chips per 1 ms of a signal. -/
def codeLen (sig : Nat) : Nat := if sig = 1 then 1023 else if sig = 2 || sig = 3 then 4092 else 10230
def codeMs (sig : Nat) : Nat := if sig < 0x10 then 1023 else 10230

/-- The replica is BOC(1,1). -/
def isBoc (sig : Nat) : Bool := 2 ≤ sig && sig ≤ 5

/-- A signal component of the list. -/
def knownSignal (sig : Nat) : Bool := (1 ≤ sig && sig ≤ 5) || (0x11 ≤ sig && sig ≤ 0x16)

/-- The largest PRN of a signal's constellation. -/
def maxPrn (sig : Nat) : Nat :=
  if sig = 1 || sig = 0x11 || sig = 0x12 then 32
  else if sig = 2 || sig = 3 || sig = 0x13 || sig = 0x14 then 36 else 63

/-- The carrier tables C and S (05 R201). -/
def carC : List Int := [15, 15, 14, 12, 11, 8, 6, 3, 0, -3, -6, -8, -11, -12, -14, -15, -15, -15, -14, -12, -11, -8, -6, -3,
  0, 3, 6, 8, 11, 12, 14, 15]
def carS : List Int := [0, 3, 6, 8, 11, 12, 14, 15, 15, 15, 14, 12, 11, 8, 6, 3, 0, -3, -6, -8, -11, -12, -14, -15, -15, -15,
  -14, -12, -11, -8, -6, -3]

/-- The replica at a code phase in chips * 2^32 (05 R201). Log entry 50 (DESIGN CHOICE, safe). -/
def replica (sig prn phase : Nat) : Int :=
  let chip : Int := if Config.codeChip sig prn (phase / 2 ^ 32) then -1 else 1
  if isBoc sig && 2 ^ 31 ≤ phase % 2 ^ 32 then -chip else chip

/-- The offsets of the five correlators in chips * 2^32 (05 R200). -/
def corrOffsets (h : GnsHalf) : List Int :=
  if h.mode = 2 then (List.range 5).map (fun i => (i * h.delta * 2 ^ 26 : Nat))
  else [-((h.deltaV * 2 ^ 25 : Nat) : Int), -((h.delta * 2 ^ 25 : Nat) : Int), 0, (h.delta * 2 ^ 25 : Nat),
        (h.deltaV * 2 ^ 25 : Nat)]

/-- The value of a 2-bit sample (05 R195). -/
def sampleVal (b : Nat) : Int := (if b % 2 = 0 then 1 else -1) * (if b / 2 % 2 = 0 then 1 else 3)

/-- I and Q of a band in a sample byte; an inverted band has its Q negated. -/
def bandIQ (b : Byte) (lower inv : Bool) : Int × Int :=
  let n := b.toNat / (if lower then 16 else 1)
  (sampleVal n, if inv then -(sampleVal (n / 4)) else sampleVal (n / 4))

/-! ### Writes taking effect (05 R206, R207) -/

/-- A field of a descriptor. -/
def dFld (d : List Byte) (o n : Nat) : Nat := ofLe ((d.drop o).take n)

/-- Field mask bit of a descriptor. -/
def dMask (d : List Byte) (b : Nat) : Bool := bitOf (dFld d 2 2) b

/-- The fields of a write other than mode changes from or to OFF. -/
def applyFields (d : List Byte) (h : GnsHalf) : GnsHalf :=
  let h := if dMask d 0 then
      { h with mode := dFld d 4 1, signal := dFld d 5 1, prn := dFld d 6 1, k := dFld d 7 1,
               full := if h.mode = dFld d 4 1 then h.full else 0 }
    else h
  let h := if dMask d 1 then { h with carRate := dFld d 8 4 } else h
  let h := if dMask d 2 then { h with codeRate := dFld d 0xC 4 } else h
  let h := if dMask d 4 then { h with delta := dFld d 0x18 1, deltaV := dFld d 0x19 1 } else h
  if dMask d 3 then
    let n : Nat := codeLen h.signal * 2 ^ 32
    { h with codePhase := (((h.codePhase : Int) + sval 32 (dFld d 0x10 4) * 2 ^ 24) % (n : Int)).toNat }
  else h

/-- A start: the half runs from sample M_n on. -/
def startHalf (d : List Byte) (h : GnsHalf) : GnsHalf :=
  let h := applyFields d { h with mode := 0 }
  { h with carPhase := if dMask d 5 then dFld d 0x14 4 else 0,
           codePhase := dFld d 0x10 4 * 2 ^ 24 % (codeLen h.signal * 2 ^ 32),
           sums := [], count := 0, spoilt := false, partial_ := true, newCfg := false, slewed := false, gap := false, disabled := false,
           hit := false, full := 0, waiting := [] }

/-- Writes of one crossing in dispatch order: of two code slews the last stands (05 R206). Log entry 136 (DEDUCED, unsafe). -/
def mergeSlews : List (List Byte) → List (List Byte)
  | [] => []
  | d :: t => (if t.any (fun e => dMask e 3) then d.set 2 (d.getD 2 0 &&& 0xF7) else d) :: mergeSlews t

/-- The writes taken at the tick applied at sample M_n: starts and stops at once, later fields of a half started here with
them, others at the half's first boundary. -/
def applyArmed : List (List Byte) → Bool → GnsHalf → GnsHalf
  | [], _, h => { h with armed := [] }
  | d :: t, fresh, h =>
    if dMask d 0 && dFld d 4 1 = 0 then applyArmed t false { h with mode := 0, waiting := [], sums := [] }
    else if h.mode = 0 then applyArmed t true (startHalf d h)
    else if fresh then applyArmed t true (applyFields d h)
    else applyArmed t false { h with waiting := h.waiting ++ [d] }

/-! ### The pass (05 R199 to R204, R209) -/

/-- The flags of the integration just ended (05 R209). -/
def halfFlags (h : GnsHalf) : Nat :=
  1 + 2 * b2n h.partial_ + 4 * b2n h.newCfg + 8 * b2n h.slewed + 16 * b2n h.gap + 32 * b2n h.disabled + 64 * b2n (h.mode = 2)

/-- A 64-byte dump record as words (05 R209), poisoned where its integration rests on a poisoned word (05 R210); `i` is the half's number, `idx` the sample index of the boundary.
Log entry 139 (DESIGN CHOICE, safe). -/
def dumpRecord (i idx : Nat) (h : GnsHalf) : List Pw :=
  let w0 := i % 128 / 2 + (i % 2 + i / 128 * 2) * 256 + halfFlags h * 65536 + (h.count + 1) % 2 ^ 32 * 2 ^ 32
  let ss := (List.range 5).map (fun k => uval 32 (h.sums.getD (2 * k) 0) + uval 32 (h.sums.getD (2 * k + 1) 0) * 2 ^ 32)
  let res := h.codePhase % (codeMs h.signal * 2 ^ 32) % 2 ^ 32
  (([w0, idx] ++ ss ++ [res + h.carPhase * 2 ^ 32]).map (fun v => ⟨BitVec.ofNat 64 v, h.bad || h.spoilt⟩))

/-- The half at a boundary: its integration closed, waiting writes applied, a search dwell moved on (05 R202, R206).
Log entry 49 (DEDUCED, unsafe). Log entry 136 (DEDUCED, unsafe). -/
def closeIntegration (h : GnsHalf) : GnsHalf :=
  let full := if h.partial_ then h.full else h.full + 1
  let cfg := !h.waiting.isEmpty
  let h := { h with count := (h.count + 1) % 2 ^ 32, sums := [], partial_ := false, newCfg := cfg, slewed := false,
                    gap := false, disabled := false, full := full, hit := false, spoilt := false }
  let h := h.waiting.foldl (fun h d => applyFields d h) { h with waiting := [] }
  if h.mode = 2 && h.k ≤ h.full then
    { h with full := 0, slewed := true,
             codePhase := (h.codePhase + 5 * h.delta * 2 ^ 26) % (codeLen h.signal * 2 ^ 32) }
  else h

/-- One sample correlated and the NCOs stepped (05 R199, R201). Log entry 49 (DEDUCED, unsafe). -/
def correlate (iq : Int × Int) (h : GnsHalf) : GnsHalf :=
  let c := h.carPhase / 2 ^ 27
  let C := carC.getD c 0
  let S := carS.getD c 0
  let n : Nat := codeLen h.signal * 2 ^ 32
  let i := iq.1 * C + iq.2 * S
  let q := iq.2 * C - iq.1 * S
  let rs := (corrOffsets h).map (fun o => replica h.signal h.prn (((h.codePhase : Int) + o) % (n : Int)).toNat)
  let sums := (List.range 10).map (fun k => h.sums.getD k 0 + rs.getD (k / 2) 0 * (if k % 2 = 0 then i else q))
  let p := h.codePhase + h.codeRate
  let ms := codeMs h.signal * 2 ^ 32
  { h with sums := sums, carPhase := (h.carPhase + h.carRate) % 2 ^ 32, codePhase := p % n,
           hit := p / ms ≠ h.codePhase / ms }

/-- The samples of a crossing run through a half: sample `j` of the crossing is the next; a dropped or missing one counts as 0
and marks `GAP`. Answers the half and the record of the integration that ended, if any, with the sample of its ending boundary. -/
def runHalf (i base : Nat) : List (Option (Int × Int)) → Nat → Bool → GnsHalf → Option (Nat × List Pw) → GnsHalf × Option (Nat × List Pw)
  | [], _, _, h, r => (h, r)
  | v :: t, j, dis, h, r =>
    let r := if h.hit then some (j, dumpRecord i (base + j) h) else r
    let h := if h.hit then closeIntegration h else h
    let h := { h with gap := h.gap || v.isNone, disabled := h.disabled || dis }
    runHalf i base t (j + 1) dis (correlate (if dis then (0, 0) else v.getD (0, 0)) h) r

/-- Words written from `a` in the store of the baseband, there from core cycle `t` on (05 R204): a claim that reads one before has the word
as it was. -/
def putAt (x : Side) (t : Nat) : Nat → List Pw → State → State
  | _, [], s => s
  | a, w :: ws, s =>
    let s := s.modLd x (fun l => { l with fmn := { l.fmn with
      storeLog := l.fmn.storeLog ++ [{ cycle := t, addr := a, old := peekWord l a }] } })
    putAt x t (a + 8) ws (memWrite x a w s)

/-- The `NEW` flag of a half's stored record cleared, from core cycle `t` on (05 R209). -/
def clearNew (x : Side) (i t : Nat) (s : State) : State :=
  let a := 0x30048000 + 64 * i
  let w := peekWord (s.ld x) a
  if w.v.getLsbD 16 then putAt x t a [⟨w.v &&& ~~~(0x10000 : DWord), w.p⟩] s else s

/-- The samples of antenna `a` as a half of a band sees them: `n` samples, those beyond n_max dropped. -/
def bandSamples (m : Tab Byte) (a : Nat) (lower : Bool) (n : Nat) (skip : Bool) (bs : List Byte) : List (Option (Int × Int)) :=
  let nmax := gnsNmax m a
  let inv := gnsAntBit m a (if lower then 4 else 3)
  (List.range n).map (fun j =>
    if skip || nmax ≤ j then none else (bs[j]?).map (fun b => bandIQ b lower inv))

/-- One half in a pass dispatched in core cycle `c` (05 R204). -/
def passHalf (x : Side) (c : Nat) (bs : List Byte) (i : Nat) (s : State) : State :=
  let l := s.ld x
  let g := l.gns
  let a := i / 128
  let t := g.ant a
  let h := Tab.get {} g.halves i
  let h := applyArmed (mergeSlews h.armed) false h
  let done := c + 2 * ((passNmax l.fmn.img + 7) / 8) + 64
  if h.mode = 0 then clearNew x i done (s.modHalf x i (fun _ => h))
  else
    let n := t.mark - t.prev
    let h := { h with gap := h.gap || n = 0, spoilt := h.spoilt || (t.bad && !t.wasOff) }
    let r := runHalf i t.prev (bandSamples l.fmn.img a (i % 2 = 1) n t.skip bs) 0 t.wasOff h none
    let s := s.modHalf x i (fun _ => r.1)
    match r.2 with
    | some e => putAt x (c + 2 * ((e.1 + 8) / 8) + 64) (0x30048000 + 64 * i) e.2 s
    | none => clearNew x i done s

/-- Magnitude bits of a crossing counted (05 R227). -/
def countMag (x : Side) (a : Nat) (bs : List Byte) (s : State) : State :=
  let one := fun (b : Byte) (k : Nat) => b2n (b.getLsbD k)
  s.modAnt x a (fun t => { t with
    onesU := bs.foldl (fun n b => n + one b 1 + one b 3) t.onesU,
    onesL := bs.foldl (fun n b => n + one b 5 + one b 7) t.onesL,
    total := t.total + 2 * bs.length })

/-- The pass over both antennas, dispatched in core cycle `c` (05 R204). -/
def gnsPass (x : Side) (c : Nat) (a b : List Byte) (s : State) : State :=
  let s := countMag x 1 b (countMag x 0 a s)
  let s := (List.range 256).foldl (fun s i => passHalf x c (if i < 128 then a else b) i s) s
  (s.modAnt x 0 (fun t => { t with skip := false })).modAnt x 1 (fun t => { t with skip := false })

/-- PASS (05 R204). -/
def execPass (at_ : Nat) (x : Side) (a b : List Byte) (s : State) : Host.Outcome State Fault Refusal :=
  .next (runEntry x 0x04 1 none none (fun k s => gnsPass x (entryCycle (s.ld x).fmn k) a b s) (advance at_ s))

/-- The ceiling of tracking channels of a trim (01 R52). -/
def chanCeiling (trim : Nat) : Nat := if trim = 0 then 64 else if trim = 1 then 48 else 32

/-- The descriptor of a write is in range for a half whose mode will be `eff` (05 R207, R208). -/
def gnsWriteOk (m : Tab Byte) (d : List Byte) (eff : Nat) : Bool :=
  let sig := dFld d 5 1
  let mode := dFld d 4 1
  let start := dMask d 0 && mode ≠ 0 && eff = 0
  dFld d 0 1 < chanCeiling (imgTrim m) && dFld d 1 1 < 4 && dFld d 2 2 < 128 && dFld d 0x1A 6 == 0
    && !(dMask d 3 && dMask d 6)
    && (!(dMask d 5 || dMask d 6) || start)
    && (!start || (dMask d 1 && dMask d 2 && dMask d 4 && dMask d 6))
    && (eff ≠ 0 || start)
    && (!dMask d 0 || (mode ≤ 2 && knownSignal sig && (sig < 0x10) == (dFld d 1 1 % 2 == 0)
        && 1 ≤ dFld d 6 1 && dFld d 6 1 ≤ maxPrn sig && 1 ≤ dFld d 7 1 && dFld d 7 1 ≤ 16))
    && (!dMask d 2 || dFld d 0xC 4 < 2 ^ 31)
    && (!dMask d 4 || (4 ≤ dFld d 0x18 1 && dFld d 0x18 1 ≤ 64 && dFld d 0x18 1 ≤ dFld d 0x19 1 && dFld d 0x19 1 ≤ 128))
    && (!dMask d 6 || dFld d 0x10 4 < codeLen sig * 256)

/-- GNS_WRITE (05 R206, R208): the descriptor queued on its half, or ignored whole. -/
def gnsWriteOp (x : Side) (e : Nat) (s : State) : State :=
  let r := memReadN x (0x3004D000 + 32 * (e % 64)) 4 s
  let s := r.2
  if r.1.any (fun w => w.p) then raise (.landing x) 0x0406 e s
  else
    let d := ofWords r.1
    let i := 128 * (dFld d 1 1 / 2 % 2) + 2 * (dFld d 0 1 % 64) + dFld d 1 1 % 2
    let h := Tab.get {} (s.ld x).gns.halves i
    if gnsWriteOk (s.ld x).fmn.img d h.eff then
      s.modHalf x i (fun h => { h with queued := h.queued ++ [d], eff := if dMask d 0 then dFld d 4 1 else h.eff })
    else raisePerCrossing x 0x0405 e 0 s

/-- GNS_WRITE (05 R206). -/
def execGnsWrite (at_ : Nat) (x : Side) (e : Nat) (s : State) : Host.Outcome State Fault Refusal :=
  .next (runEntry x 0x04 2 (some e) none (fun _ => gnsWriteOp x e) (advance at_ s))

/-! ### At the tick (05 R196 to R198, R210) -/

/-- The mark record of antenna `a` (05 R210). -/
def markRecord (a : Nat) (t : GnsAnt) (crossing : Nat) : List Pw :=
  let fl := b2n (!t.clk) + 2 * b2n t.excess + 4 * b2n t.off
  [a + fl * 256 + crossing % 2 ^ 32 * 2 ^ 32, t.mark, t.time / 65536,
   t.time % 65536 + (t.mark - t.prev) % 2 ^ 32 * 2 ^ 32].map (fun v => ⟨BitVec.ofNat 64 v, false⟩)

/-- The mark of one antenna taken by landing `x` (05 R196, R198); at the start tick the mark only sets the count. -/
def takeMark (x : Side) (start : Bool) (k : SampleMark) (s : State) : State :=
  let m := (s.ld x).fmn.img
  let own := if x = .A then k.countA else k.countB
  let t := (s.ld x).gns.ant k.ant
  let n := k.count - t.mark
  let fit := gnsAntBit m k.ant 0
  let excess := !start && gnsNmax m k.ant < n
  let s := s.modAnt x k.ant (fun t => { t with
    prev := if start then k.count else t.mark, mark := k.count, time := k.time, clk := !start && n ≠ 0, excess := excess,
    wasOff := t.off, skip := !start && own ≠ k.count })
  let s := if !start && own ≠ k.count then raise (.landing x) 0x0404 k.ant s else s
  let s := if fit && !start && n = 0 then raisePerSecond (.landing x) 0x0401 k.ant k.ant s else s
  let s := if fit && excess then raise (.landing x) 0x0402 k.ant s else s
  memWriteN x (0x3004C000 + 32 * k.ant) (markRecord k.ant ((s.ld x).gns.ant k.ant) (s.ld x).fmn.crossing) s

/-- The writes of the crossing that ended frozen for its pass (05 R203, R205). -/
def armHalves (l : Landing) : Landing :=
  { l with gns := { l.gns with
    halves := l.gns.halves.map (fun e => (e.1, { e.2 with armed := e.2.armed ++ e.2.queued, queued := [] })) } }

/-- A fraction of a band outside 0.20 to 0.45 (05 R227). -/
def fracOut (f : Nat) : Bool := f < 51 || 115 < f

/-- Since when a fraction is out of its range, plus 1, after it has become `f` at `now`. -/
def outSince (since f now : Nat) : Nat := if fracOut f then (if since = 0 then now + 1 else since) else 0

/-- The magnitude fractions at the end of a second (05 R227). Log entry 132 (DEDUCED, unsafe). -/
def magSecond (x : Side) (s : State) : State :=
  if (s.ld x).gns.magStart + secNs ≤ s.nowNs then
    let frac := fun (n d : Nat) => if d = 0 then 0 else min 255 (roundDiv (n * 256 : Nat) d).toNat
    let f := fun (t : GnsAnt) =>
      let u := frac t.onesU t.total
      let l := frac t.onesL t.total
      { t with fracU := u, fracL := l, onesU := 0, onesL := 0, total := 0,
               outU := outSince t.outU u s.nowNs, outL := outSince t.outL l s.nowNs }
    let s := (s.modAnt x 0 f).modAnt x 1 f
    s.modLd x (fun l => { l with gns := { l.gns with magStart := s.nowNs } })
  else s

/-- GNS_MAG (05 R227): a fitted band's fraction outside its range for one second. Log entry 132 (DEDUCED, unsafe). -/
def gnsMagStep (ant band : Nat) (x : Side) (s : State) : State :=
  let s := magSecond x s
  let t := (s.ld x).gns.ant ant
  let since := if band = 0 then t.outU else t.outL
  if gnsAntBit (s.ld x).fmn.img ant (1 + band) && since ≠ 0 && since - 1 + secNs ≤ s.nowNs then raise (.landing x) 0x0403 (ant + 256 * band) s
  else s

/-- GNS_MAG (05 R227). -/
def execGnsMag (at_ ant band : Nat) (s : State) : Host.Outcome State Fault Refusal :=
  .next (eachSide (fun x => (s.ld x).fmn.running) (gnsMagStep ant band) (advance at_ s))

/-! ### Time-pulse steering (05 R216 to R219) -/

/-- Fixed-point limits of an offset, 2^-32 ns. -/
def offMax : Int := (2 ^ 96 : Nat)

/-- An FP64 number of ns as an offset. -/
def toOff (v : F64) : Int := F64.toInt v 32 (-offMax) offMax

/-- An offset carried on with a drift over the ns from `t` to `now` (05 R216). -/
def carryOff (o : Int) (r : F64) (t now : Nat) : Int :=
  o + toOff (F64.mul r (F64.div (F64.ofInt ((now : Int) - t)) (F64.ofNat secNs)))

/-- The filter step of R216: offset, drift and epoch after a record of offset `y` at `tm`. Log entry 51 (DESIGN CHOICE, unsafe). -/
def steerFilter (alpha beta : F64) (o : Int) (r : F64) (t : Nat) (y : Int) (tm : Nat) : Int × F64 × Nat :=
  let p := carryOff o r t tm
  let e := F64.ofDyadic (y - p) (-32)
  (p + toOff (F64.mul alpha e), F64.add r (F64.mul beta e), tm)

/-- FP64 and FP32 fields of the configuration. -/
def cfg64 (m : Tab Byte) (o : Nat) : F64 := BitVec.ofNat 64 (gnsCfg m o 8)
def cfg32 (m : Tab Byte) (o : Nat) : F32 := BitVec.ofNat 32 (gnsCfg m o 4)

/-- An error within ± the gate. -/
def inGate (m : Tab Byte) (e : Int) : Bool := F64.le (F64.abs (F64.ofDyadic e (-32))) (F32.widen (cfg32 m 0x38))

/-- The offset emitted at `now` (05 R217). -/
def emitted (t : Steer) (now : Nat) : Int :=
  match t.state with
  | 1 => t.o
  | 2 => carryOff t.o t.r t.t now
  | 3 => t.oe
  | _ => 0

/-- LOCKED entered with the candidate (05 R217). -/
def lockSteer (x : Side) (step : Bool) (s : State) : State :=
  raise (.landing x) 0x0414 0 (s.modSteer x (fun t => { t with
    state := 1, o := t.co, r := t.cr, t := t.ct, stepNext := t.stepNext || step, run := 0, lockTick := (s.grid x).last / nsUnit }))

/-- A record that passes every test but the gate, outside LOCKED: the candidate filter, started at the first of a run of
records within its gate (05 R217). Log entry 51 (DESIGN CHOICE, unsafe). -/
def candidate (m : Tab Byte) (y : Int) (tm : Nat) (gated : Bool) (t : Steer) : Steer :=
  if t.run ≠ 0 && (!gated || inGate m (y - carryOff t.co t.cr t.ct tm)) then
    let f := steerFilter (cfg64 m 0x28) (cfg64 m 0x30) t.co t.cr t.ct y tm
    { t with co := f.1, cr := f.2.1, ct := f.2.2, run := t.run + 1 }
  else { t with co := y, cr := 0, ct := tm, run := 1 }

/-- A record offered to the steering (05 R216, R217). -/
def steerRecord (x : Side) (y : Int) (tm : Nat) (sigma : F32) (s : State) : State :=
  let m := (s.ld x).fmn.img
  let t := (s.ld x).gns.steer
  let note := fun (u : Steer) => { u with sigma := sigma, lastAcc := s.nowNs }
  match t.state with
  | 0 =>
    let s := s.modSteer x (fun t => note (candidate m y tm false t))
    if 10 ≤ (s.ld x).gns.steer.run then lockSteer x true s else s
  | 1 =>
    if inGate m (y - carryOff t.o t.r t.t tm) then
      let f := steerFilter (cfg64 m 0x28) (cfg64 m 0x30) t.o t.r t.t y tm
      s.modSteer x (fun t => note { t with o := f.1, r := f.2.1, t := f.2.2 })
    else raisePerSecond (.landing x) 0x0413 0 0 s
  | 2 =>
    let s := s.modSteer x (candidate m y tm true)
    let u := (s.ld x).gns.steer
    if 10 ≤ u.run then
      let d := carryOff u.co u.cr u.ct s.nowNs - emitted u s.nowNs
      if F64.lt (F64.abs (F64.ofDyadic d (-32))) (F64.ofNat 100) then
        s.modSteer x (fun u => note { u with state := 3, oe := emitted u s.nowNs })
      else lockSteer x true (s.modSteer x note)
    else s
  | _ =>
    s.modSteer x (fun t => note (candidate m y tm false t))

/-- TSOL (05 R216): the record in the time-solution input. -/
def tsolOp (x : Side) (s : State) : State :=
  let r := memReadN x 0x3004D800 16 s
  let s := r.2
  let m := (s.ld x).fmn.img
  let d := ofWords r.1
  let poison := r.1.any (fun w => w.p)
  let fl := dFld d 0x64 2
  let s := if !poison && bitOf fl 0 then
      s.modLd x (fun l => { l with gns := { l.gns with pos := Tab.set [] l.gns.pos (dFld d 0x60 1 % 2) d } })
    else s
  let sigma : F32 := BitVec.ofNat 32 (dFld d 0x5C 4)
  if poison || !bitOf fl 0 || bitOf fl 2 || !F32.le sigma (cfg32 m 0x3C) then
    s.modSteer x (fun t => if t.state = 0 || t.state = 2 then { t with run := 0 } else t)
  else
    let y := sval 64 (dFld d 0x40 8) * 2 ^ 32 + toOff (F32.widen (BitVec.ofNat 32 (dFld d 0x48 4)))
    steerRecord x y (dFld d 0 8) sigma s

/-- TSOL (05 R216). -/
def execTsol (at_ : Nat) (x : Side) (s : State) : Host.Outcome State Fault Refusal :=
  .next (runEntry x 0x04 3 none none (fun _ => tsolOp x) (advance at_ s))

/-- The holdover error estimate σ + k1 τ + k2 τ² in ns (05 R217). -/
def holdEstimate (m : Tab Byte) (t : Steer) (now : Nat) : F64 :=
  let tau := F64.div (F64.ofInt ((now : Int) - t.lastAcc)) (F64.ofNat secNs)
  F64.add (F64.add (F32.widen t.sigma) (F64.mul (F32.widen (cfg32 m 0x40)) tau))
    (F64.mul (F64.mul (F32.widen (cfg32 m 0x44)) tau) tau)

/-- The current error estimate in whole ns, saturating; outside HOLDOVER a value the spec does not state. Log entry 52 (DESIGN CHOICE, safe). -/
def steerError (m : Tab Byte) (t : Steer) (now : Nat) : Nat :=
  if t.state = 2 then (F64.toInt (holdEstimate m t now) 0 0 0xFFFFFFFF).toNat
  else (Config.tpError t.state t.sigma (now - t.lastAcc)).toNat

/-- HOLDOVER entered after 2 s without an accepted record (05 R217). -/
def holdoverStep (x : Side) (s : State) : State :=
  let t := (s.ld x).gns.steer
  if (t.state = 1 || t.state = 3) && t.lastAcc + 2 * secNs ≤ s.nowNs then
    raise (.landing x) 0x0410 0 (s.modSteer x (fun t =>
      if t.state = 3 then { t with state := 2, o := t.oe, t := s.nowNs, run := 0, limitHit := false }
      else { t with state := 2, run := 0, limitHit := false }))
  else s

/-- GNS_HOLDOVER (05 R217). -/
def execGnsHoldover (at_ : Nat) (s : State) : Host.Outcome State Fault Refusal :=
  .next (eachSide (fun _ => true) holdoverStep (advance at_ s))

/-- The estimate first exceeds the holdover limit (05 R217). -/
def holdLimitStep (x : Side) (s : State) : State :=
  let t := (s.ld x).gns.steer
  let m := (s.ld x).fmn.img
  if t.state = 2 && !t.limitHit && F64.lt (F32.widen (cfg32 m 0x48)) (holdEstimate m t s.nowNs) then
    raise (.landing x) 0x0411 (steerError m t s.nowNs) (s.modSteer x (fun t => { t with limitHit := true }))
  else s

/-- GNS_HOLD_LIMIT (05 R217). -/
def execGnsHoldLimit (at_ : Nat) (s : State) : Host.Outcome State Fault Refusal :=
  .next (eachSide (fun _ => true) holdLimitStep (advance at_ s))

/-- An integer quotient rounded up. -/
def ceilDiv (a : Int) (d : Nat) : Int := (a + d - 1) / (d : Int)

/-- One second as an offset. -/
def secOff : Int := (1000000000 * 2 ^ 32 : Nat)

/-- The label of the next pulse for an emitted offset `oe` (05 R218): of the first pulse, the first second whose commit, at the first tick at
or after its edge minus 200 ms, comes after the latest tick before the lock. Log entry 133 (DEDUCED, unsafe). -/
def nextLabel (t : Steer) (oe : Int) : Int :=
  match t.label with
  | none => ((t.lockTick : Int) * 2 ^ 32 + secOff / 5 - oe) / (1000000000 * 2 ^ 32) + 1
  | some k => if t.stepNext then ceilDiv (t.edge * 2 ^ 32 + secOff / 2 - oe) (1000000000 * 2 ^ 32) else (k : Int) + 1

/-- Pulses are given: in every state but FREE, and there where an enabled output has `FREE_RUN`. -/
def pulsesRun (m : Tab Byte) (t : Steer) : Bool :=
  t.state ≠ 0 || [0x14, 0x15].any (fun o => bitOf (gnsCfg m o 1) 0 && bitOf (gnsCfg m o 1) 2)

/-- The emitted offset moved at a commit while SLEWING, and whether it reaches the candidate (05 R217). -/
def slewTo (t : Steer) (now : Nat) : Int × Bool :=
  let d := carryOff t.co t.cr t.ct now - t.oe
  let lim : Int := (50 * 2 ^ 32 : Nat)
  if d < -lim then (t.oe - lim, false) else if lim < d then (t.oe + lim, false) else (t.oe + d, true)

/-- The pulse word (05 R219). -/
def pulseWord (m : Tab Byte) (t : Steer) (now : Nat) : List Pw :=
  [uval 64 t.edge, t.label.getD 0, steerError m t now + t.state * 2 ^ 32 + t.flags * 2 ^ 40, 0].map
    (fun v => ⟨BitVec.ofNat 64 v, false⟩)

/-- The commit of the next pulse on landing `x` at its latest tick (05 R218). Log entry 133 (DEDUCED, unsafe). -/
def commitStep (x : Side) (s : State) : State :=
  let m := (s.ld x).fmn.img
  let t := (s.ld x).gns.steer
  let now := (s.grid x).last / nsUnit
  if (enginePart m 4).isNone || !(s.ld x).fmn.running || !pulsesRun m t then s
  else
    let oe := emitted t now
    let k := nextLabel t oe
    let oe1 := emitted t (roundDiv (k * secOff + oe) (2 ^ 32)).toNat
    if (now : Int) * 2 ^ 32 < k * secOff + oe1 - secOff / 5 then s
    else
      let slew := slewTo t now
      let step := t.stepNext && t.state ≠ 0
      let oe2 := if t.state = 3 then slew.1 else oe1
      let fl := b2n step + 2 * b2n (t.state = 3) + 4 * b2n (t.state = 2) + 8 * b2n (t.state = 0)
      let s := s.modSteer x (fun t => { t with
        edge := roundDiv (k * secOff + oe2) (2 ^ 32), label := some k.toNat, flags := fl, stepNext := false,
        oe := oe2, pulses := (t.pulses + 1) % 65536 })
      let s := memWriteN x 0x3004C040 (pulseWord m (s.ld x).gns.steer now) s
      let s := if step then raise (.landing x) 0x0412 0 s else s
      if t.state = 3 && slew.2 then lockSteer x false s else s

/-- PULSE_COMMIT (05 R218). -/
def execPulseCommit (at_ : Nat) (s : State) : Host.Outcome State Fault Refusal :=
  .next (eachSide (fun _ => true) commitStep (advance at_ s))

/-- Output `i` driven at the committed edge plus its offset, once for each label (05 R219). -/
def pulseOut (i : Nat) (s : State) : State :=
  let m := (s.ld s.lead).fmn.img
  let w := s.tp.word
  let e := sval 64 (dFld w 0 8) + sval 32 (gnsCfg m (0x20 + 4 * i) 4)
  let k := dFld w 8 8
  let cfg := gnsCfg m (0x14 + i) 1
  let free := bitOf (dFld w 0x15 1) 3
  if w.isEmpty || !bitOf cfg 0 || (free && !bitOf cfg 2) || Tab.get 0 s.tp.driven i = k + 1 || (s.nowNs : Int) < e then s
  else { s with tp := { s.tp with
    driven := Tab.set 0 s.tp.driven i (k + 1), rise := Tab.set 0 s.tp.rise i e.toNat,
    fall := Tab.set 0 s.tp.fall i (e.toNat + 1000 * gnsCfg m (0x18 + 4 * i) 4),
    low := Tab.set false s.tp.low i (bitOf cfg 1), short := Tab.set false s.tp.short i false } }

/-- TIME_PULSE_OUTPUT (05 R219). -/
def execTimePulseOutput (at_ i : Nat) (s : State) : Host.Outcome State Fault Refusal :=
  .next (pulseOut i (advance at_ s))

/-- The level of a time-pulse output now. -/
def tpLevel (s : State) (i : Nat) : Bool :=
  let on := Tab.get 0 s.tp.rise i ≤ s.nowNs && s.nowNs < Tab.get 0 s.tp.fall i && !Tab.get false s.tp.short i
  on ^^ Tab.get false s.tp.low i

/-! ### Aiding (05 R213 to R215) -/

/-- The base of the orbit store in flash (11 R429). -/
def orbitBase : Nat := 0x63FF0000

/-- An orbit entry whose CRC-32 passes (05 R214). -/
def orbitOk (e : List Byte) : Bool := e.length == 256 && crc32 (e.take 252) == ofLe (e.drop 252)

/-- The entries of a landing's orbit store, from its start up to the first place without one. -/
def orbitEntries (l : Landing) : List (List Byte) :=
  (((List.range 240).map (fun i => flashBytes l (orbitBase + 256 * i) 256)).takeWhile orbitOk)

/-- A byte of the saved aiding (17 R651). Log entry 53 (DEDUCED, unsafe). -/
def savedAid (s : State) (o n : Nat) : Nat := le s.rtc.mem (0x20 + o) n

/-- The RTC time as GPS time in ns, where the RTC and the saved GPS minus UTC are valid (05 R213, 17 R657). -/
def rtcGps (s : State) : Option Nat :=
  if s.rtc.valid && bitOf (savedAid s 0 2) 2 then
    some ((s.rtc.seconds + 630720000 + savedAid s 2 1) * 1000000000 + s.rtc.subsec * 1000000000 / 32768)
  else none

/-- The aiding header (05 R213, 17 R657); its RTC time is that of the start tick. -/
def aidHeader (s : State) (entries : Nat) : List Byte :=
  let fl := savedAid s 0 2
  let pos := bitOf fl 0
  let drift := bitOf fl 1
  let g := savedAid s 2 1
  leBytes 2 (b2n s.aid.time.isSome + 2 * b2n pos + 4 * b2n drift) ++ leBytes 2 entries ++ leBytes 4 0 ++ leBytes 8 (s.aid.time.getD 0)
    ++ leBytes 1 g ++ leBytes 7 0 ++ bytesAt s.rtc.mem 0x28 24 ++ bytesAt s.rtc.mem 0x40 8 ++ bytesAt s.rtc.mem 0x48 8

/-- The next class 3 inputs of the aiding posted (05 R213): the header with the first 64 entries, then 64 more each time.
Log entry 53 (DEDUCED, unsafe). -/
def aidPost (s : State) : State :=
  match s.aid.next with
  | none => s
  | some n =>
    let es := orbitEntries (s.ld s.lead)
    let s := if n = 0 then takeRecord (some s.lead) 3 0 s.nowNs (aidHeader s es.length) s else s
    let s := ((es.drop n).take 64).foldl (fun s e => takeRecord (some s.lead) 3 0 s.nowNs e s) s
    { s with aid := { s.aid with next := if n + 64 < es.length then some (n + 64) else none } }

/-- AIDING_POST (05 R213). -/
def execAidingPost (at_ : Nat) (s : State) : Host.Outcome State Fault Refusal :=
  .next (aidPost (advance at_ s))

/-- The entries of the orbit berth whose CRC-32 passes (05 R215); they follow the berth word. -/
def berthOrbits (l : Landing) : List (List Byte) :=
  let a := gnsCfg l.fmn.img 0x4C 4
  ((List.range (gnsCfg l.fmn.img 0x50 2)).map (fun i => peekBytes l (a + 8 + 256 * i) 256)).filter orbitOk

/-- The orbit store of a landing rewritten. -/
def saveOrbits (l : Landing) : Landing :=
  { l with flash := flashPut (flashErase l.flash orbitBase 65536) orbitBase (berthOrbits l).flatten }

/-- The waiting save commands completed. -/
def completeAll (st : Status) : List Pend → State → State
  | [], s => s
  | c :: t, s => completeAll st t (complete c st [] false s)

/-- AIDING_SAVE (05 R215): on every landing that runs; a failed write leaves the previous store. -/
def aidSave (okA okB : Bool) (s : State) : State :=
  let ok := fun x => match x with
    | Side.A => okA
    | Side.B => okB
  let runs := fun x => (s.ld x).fmn.running
  let s' := eachSide runs (fun x s => if ok x then s.modLd x saveOrbits else raise (.landing x) 0x0420 0 s) s
  let bad := (runs .A && !okA) || (runs .B && !okB)
  completeAll (if bad then .media else .done) s.aid.saves { s' with aid := { s'.aid with saves := [] } }

/-- AIDING_SAVE (05 R215). -/
def execAidingSave (at_ : Nat) (okA okB : Bool) (s : State) : Host.Outcome State Fault Refusal :=
  let s := advance at_ s
  .next (if s.mode = 0 then s else aidSave okA okB s)

/-- The saved aiding of the record chosen (17 R651): antenna A's latest `VALID` record, or B's where A has none. -/
def aidBytes (s : State) (g : Gns) : Option (List Byte) :=
  let pa := Tab.get [] g.pos 0
  let pb := Tab.get [] g.pos 1
  let p := if pa.isEmpty then pb else pa
  if p.isEmpty then none
  else
    let utc := bitOf (dFld p 0x64 2) 3
    let drift := !pa.isEmpty || !pb.isEmpty
    let old := savedAid s 2 1
    let had := bitOf (savedAid s 0 2) 2
    some (leBytes 2 (1 + 2 * b2n drift + 4 * b2n (utc || had))
      ++ leBytes 1 (if utc then dFld p 0x63 1 else if had then old else 0) ++ leBytes 5 0 ++ (p.drop 0x10).take 24
      ++ (p.drop 8).take 8 ++ leBytes 4 (dFld pa 0x4C 4) ++ leBytes 4 (dFld pb 0x4C 4) ++ leBytes 16 0)

/-- POSITION_SAVE (05 R215). -/
def execPositionSave (at_ : Nat) (s : State) : Host.Outcome State Fault Refusal :=
  let s := advance at_ s
  .next (match aidBytes s (s.ld s.lead).gns with
    | some b => bkpPut 0x20 b s
    | none => s)

/-! ### Commands (05 R221, R222) -/

/-- Antenna `a` of a running landing disabled or enabled at this tick: its mark record shows it (05 R210, R221). -/
def setAntenna (a : Nat) (off : Bool) (x : Side) (s : State) : State :=
  let s := s.modAnt x a (fun t => { t with off := off })
  let s := if (s.ld x).fmn.running then
      memWriteN x (0x3004C000 + 32 * a) (markRecord a ((s.ld x).gns.ant a) (s.ld x).fmn.crossing) s
    else s
  raise (.landing x) 0x0407 a s

/-- GNS_ANTENNA_OFF (05 R221, R222). -/
def execGnsAntennaOff (h : CmdHdr) (ant : Nat) (s : State) : Host.Outcome State Fault Refusal :=
  .next (hostCommand h 0x0401
    (fun s => { level := 2, range := ant ≤ 1,
                state := !(2 ≤ s.mode && s.mode ≤ 4 && ((s.ld s.lead).gns.ant (1 - ant)).off) })
    (fun s => done (eachSide (fun _ => true) (setAntenna ant true) s)) s)

/-- GNS_ANTENNA_ON (05 R221). -/
def execGnsAntennaOn (h : CmdHdr) (ant : Nat) (s : State) : Host.Outcome State Fault Refusal :=
  .next (hostCommand h 0x0402 (fun _ => { level := 2, range := ant ≤ 1 })
    (fun s => done (eachSide (fun _ => true) (setAntenna ant false) s)) s)

/-- GNS_SAVE_AIDING (05 R221). -/
def execGnsSaveAiding (h : CmdHdr) (s : State) : Host.Outcome State Fault Refusal :=
  .next (hostCommand h 0x0403 (fun _ => { level := 1 })
    (fun s => { st := .accepted, s := { s with aid := { s.aid with saves := s.aid.saves ++ [cmdOf h 0x0403] } } }) s)

/-- GNS_CLEAR_AIDING (05 R221): the next start has no aiding, so no saved value counts as valid. Log entry 138 (DEDUCED, unsafe). -/
def execGnsClearAiding (h : CmdHdr) (s : State) : Host.Outcome State Fault Refusal :=
  .next (hostCommand h 0x0404 (fun _ => { level := 2, modes := [1, 5] })
    (fun s =>
      let s := eachSide (fun _ => true) (fun x s => s.modLd x (fun l => { l with flash := flashErase l.flash orbitBase 65536 })) s
      done (bkpPut 0x20 (leBytes 2 0) s)) s)

/-! ### Start, registers and load checks -/

/-- The baseband at a manifest start; the antennas keep what the host disabled. -/
def startGns (now : Nat) (l : Landing) : Landing :=
  let keep := l.gns.ants.map (fun e => (e.1, ({ off := e.2.off, wasOff := e.2.off } : GnsAnt)))
  { l with gns := { ants := keep.filter (fun e => e.2 ≠ {}), magStart := now, steer := { lockTick := now - 1 }, pos := l.gns.pos } }

/-- The registers at a tick (05, Registers). -/
def showGns (s : State) (x : Side) : State :=
  let g := (s.ld x).gns
  let t := gnsOffsets.foldl (fun t o =>
    Tab.set 0 t o (if o = 0x44 then steerError (s.ld x).fmn.img g.steer s.nowNs else gnsNow g o)) []
  s.modLd x (fun l => { l with gns := { l.gns with shown := t } })

/-- TSOL operations come no more often than the position rate of both antennas in the trim (01 R52). Log entry 134 (DEDUCED, unsafe). -/
def tsolRateBad (m : Tab Byte) : Bool :=
  let n := ((List.range (imgCycle m)).map (fun i =>
    ((dispatches m (cyclePattern m i)).filter (fun e => e.unit = 4 && e.op = 3)).length)).foldl (· + ·) 0
  let rate := if imgTrim m = 0 then 20 else 10
  2 * rate * imgCycle m * periodNs (imgPeriod m) < n * secNs

/-- The orbit berth in the apron and, where it has entries, in a read-only Deckhand window (05 R215, R220). Log entry 135 (DEDUCED, safe). -/
def orbitBerthOk (m : Tab Byte) (a n : Nat) : Bool :=
  n = 0 || (0x10000000 ≤ a && a + 8 + 256 * n ≤ 0x10800000
    && (windows m).any (fun w => !w.2.2 && w.1 ≤ a && a + 8 + 256 * n ≤ w.1 + w.2.1))

/-- The GNSS part in range (05 R204, R219, R220): the offset of the first fault; an image without the part has no PASS in its crossings.
Log entry 137 (DEDUCED, safe). -/
def gnsPartBad (m : Tab Byte) : Option Nat :=
  match enginePart m 4 with
  | none => some ((sectionOf m 0x0001).elim 0 (fun c => c.off))
  | some (o, len) =>
    let c := fun (k n : Nat) => le m (o + k) n
    let fs := fun (k : Nat) => 20000000 ≤ c k 4 && c k 4 ≤ 80000000
    let frac := fun (k : Nat) => let v : F64 := BitVec.ofNat 64 (c k 8); F64.le 0 v && F64.le v (F64.ofNat 1)
    let gate : F32 := BitVec.ofNat 32 (c 0x38 4)
    let ok := len = 128 && c 0 1 < 32 && c 1 1 < 32 && c 2 2 = 0 && fs 4 && fs 8 && c 0x14 1 < 8 && c 0x15 1 < 8
      && c 0x16 2 = 0 && 1 ≤ c 0x18 4 && c 0x18 4 ≤ 500000 && 1 ≤ c 0x1C 4 && c 0x1C 4 ≤ 500000
      && [0x20, 0x24].all (fun k => let v := sval 32 (c k 4); -1000000 ≤ v && v ≤ 1000000)
      && frac 0x28 && frac 0x30 && F32.le (F32.ofDyadic 10 0) gate && F32.le gate (F32.ofDyadic 10000 0)
      && c 0x50 2 ≤ 240 && orbitBerthOk m (c 0x4C 4) (c 0x50 2) && (List.range 46).all (fun i => c (0x52 + i) 1 = 0)
    let pats := (List.range (imgCycle m)).map (cyclePattern m)
    let onePass := pats.all (fun p => ((dispatches m p).filter (fun e => e.unit = 4 && e.op = 1)).length = 1)
    let tp := bitOf (c 0x14 1) 0 || bitOf (c 0x15 1) 0
    let word := !tp || (List.range (patternCount m)).all (fun p =>
      (claims m p).any (fun k => k.src = 0x21 && k.dst = 0x28 && k.flags = 1008 && k.from_ = 0x3004C040 && k.beats = 4))
    if ok && onePass && word then none else some o

/-- Latency and initiation interval of a GNSS operation (05 R204, R205). -/
def gnsCost (m : Tab Byte) (op : Nat) : Nat × Nat :=
  if op = 1 then let i := 2 * ((passNmax m + 7) / 8); (i + 64, i) else (40, 4)

end Sys2Proof.Machine
end

