-- ==== Sys2Proof/Machine/Purser.lean ====
section
/-!
DEFINITION. Host partitions, queue rings, the Tollhouse and the flash commands (chapter 16).
-/
namespace Sys2Proof.Machine

/-! ### Small pieces -/

/-- Command queue `q` of partition `p`. -/
def State.cq (s : State) (p q : Nat) : CmdQ := Tab.get {} (s.part p).cq q

/-- Command queue `q` of partition `p` changed. -/
def State.modCq (s : State) (p q : Nat) (f : CmdQ → CmdQ) : State :=
  s.modPart p (fun t => { t with cq := Tab.upd {} t.cq q f })

/-- Event queue `q` of partition `p`. -/
def State.eq (s : State) (p q : Nat) : EventQ := Tab.get {} (s.part p).eq q

/-- Event queue `q` of partition `p` changed. -/
def State.modEq (s : State) (p q : Nat) (f : EventQ → EventQ) : State :=
  s.modPart p (fun t => { t with eq := Tab.upd {} t.eq q f })

/-- Purser port `n`. -/
def State.port (s : State) (n : Nat) : PurPort := Tab.get {} s.pur.ports n

/-- Purser port `n` changed. -/
def State.modPort (s : State) (n : Nat) (f : PurPort → PurPort) : State :=
  { s with pur := { s.pur with ports := Tab.upd {} s.pur.ports n f } }

/-- The port errors of `STATUS` (16 R608). -/
def errNotReady : Nat := 1
def errFormat : Nat := 2
def errUnmapped : Nat := 3
def errLevel : Nat := 4
def errBusy : Nat := 5
def errQueueFull : Nat := 6

/-- The first failure since the last `STATUS` is kept (16 R608). -/
def portError (n e : Nat) (s : State) : State :=
  s.modPort n (fun p => if p.error = 0 then { p with error := e } else p)

/-- A transaction recorded as `FORMAT` (16 R604, R646). -/
def portFormat (n : Nat) (s : State) : State := raisePerSecond .cable 0x0C03 n n (portError n errFormat s)

/-- A ring whose base moves in the running ring move (16 R613). -/
def ringMoving (s : State) (r : Nat) : Bool :=
  match s.pur.move with
  | some m => m.fromB.any (fun e => e.1 == r)
  | none => false

/-- A queue whose ring is moving. -/
def queueMoving (s : State) (p : Nat) (event : Bool) (q : Nat) : Bool :=
  match ringOf p event q with
  | some r => ringMoving s r
  | none => false

/-- Base of a queue's ring. -/
def queueBase (s : State) (p : Nat) (event : Bool) (q : Nat) : Nat :=
  match ringOf p event q with
  | some r => ringBase s r
  | none => 0

/-- The interrupt pin of a purser port (16 R609), true when asserted. -/
def irqPin (s : State) (n : Nat) : Bool :=
  let t := s.part n
  ((List.range 4).any (fun q => bitOf t.irqEq q && (s.eq n q).head ≠ (s.eq n q).tail))
    || (t.irqRead && (s.port n).readDone)

/-- The sealed reach of a partition's level (16 R626): set, with `TOL_LEVEL` where it changes; a partition at WATCH is not
bound to an address. P0 holds MASTER while no master key exists, but in a lockout (R630, R631). Log entry 106 (DEDUCED, unsafe). -/
def setLevel (p n slot : Nat) (s : State) : State :=
  let t := s.part p
  let n := if p = 0 && s.pur.bootstrap && t.lockoutEnd.isNone then 3 else n
  let s' := s.modPart p (fun t => { t with
    level := n, slot := slot, nextLevel := none,
    bound := if n = 0 || isPort p then none else some t.nextAddr })
  if t.level = n then s' else raise .cable 0x0C80 (p + n * 256) s'

/-- Registers of the block that change between two ticks show what they showed at the tick (16, Registers). -/
def keepShown (os : List Nat) (s : State) : State :=
  { s with pur := { s.pur with shown := os.foldl (fun t o => Tab.set none t o (some (regPur s o))) s.pur.shown } }

/-- The registers of a partition's level and lockout kept. -/
def keepPart (p : Nat) (s : State) : State := keepShown [0, 0x100 + 0x80 * p] s

/-- The registers take what they show at a tick (16, Registers). -/
def showPur (s : State) : State := { s with pur := { s.pur with alarmsAt := s.pur.alarms.length, shown := [] } }

/-- The level falls to WATCH (16 R626). -/
def dropLevel (p : Nat) (s : State) : State := setLevel p 0 0 s

/-! ### Doorbell and event head (16 R615, R616, R644) -/

/-- What the entries between two ring offsets are: cut, too many, or the descriptors' offsets and lengths. -/
inductive Walk where
  | cut
  | many
  | ok (l : List (Nat × Nat))
deriving DecidableEq, Repr

/-- The descriptors from offset `o` to `e` of a ring at `base` of `size` bytes on a landing; a pad entry fills the ring to
its end (16 R614, R615). -/
def walkRing (l : Landing) (base size e : Nat) : Nat → Nat → Walk
  | 0, o => if o = e then .ok [] else .many
  | n + 1, o =>
    if o = e then .ok []
    else if peekLe l (base + o + 2) 2 = 0 then
      if o < e && e < size then .cut else walkRing l base size e n 0
    else
      let len := (16 + peekLe l (base + o + 8) 2 + 7) / 8 * 8
      let o' := o + len
      if size < o' || (o < e && e < o') then .cut
      else match walkRing l base size e n (o' % size) with
        | .ok t => .ok ((o, len) :: t)
        | w => w

/-- A class 4 arrival record of a descriptor, stamped at the doorbell (02 R62, 16 R615). -/
def postArrival (cls port : Nat) (content : List Byte) (s : State) : State :=
  { s with agree := { s.agree with
    waiting := s.agree.waiting ++ [{ cls := cls, port := port, stamp := s.nowNs, from_ := 2, content := content,
                                     order := s.agree.nextOrder }],
    nextOrder := s.agree.nextOrder + 1 } }

/-- The descriptors of a doorbell made into arrival records. -/
def postDescriptors (p base : Nat) (l : Landing) : List (Nat × Nat) → State → State
  | [], s => s
  | (o, n) :: t, s => postDescriptors p base l t (postArrival 4 p (peekBytes l (base + o) n) s)

/-- The doorbell taken (16 R615, R616): refused whole where the value is no entry boundary or the queue would exceed 16
outstanding commands; else one arrival record of each descriptor, and head and tail at the new value. -/
def ringDoorbell (p q tail : Nat) (s : State) : State :=
  let c := s.cq p q
  let size := ringSize c.k
  if tail % 8 ≠ 0 || size ≤ tail then portFormat p s
  else
    let base := queueBase s p false q
    match walkRing (s.ld s.lead) base size tail 19 c.tail with
    | .cut => portFormat p s
    | .many => portError p errQueueFull s
    | .ok ds =>
      if 16 < c.outstanding + ds.length then portError p errQueueFull s
      else
        let s' := postDescriptors p base (s.ld s.lead) ds s
        s'.modCq p q (fun c => { c with tail := tail, head := tail, outstanding := c.outstanding + ds.length })

/-- A write of a command queue tail (16 R613, R615, R643): held while the ring moves; a network partition has no
doorbell. -/
def doorbellWrite (p q tail : Nat) (s : State) : State :=
  if !isPort p then s
  else if queueMoving s p false q then s.modCq p q (fun c => { c with heldTail := some tail })
  else ringDoorbell p q (tail % 2 ^ 20) s

/-- DOORBELL (16 R615). -/
def execDoorbell (at_ : Nat) (p q tail : Nat) (s : State) : Host.Outcome State Fault Refusal :=
  .next (doorbellWrite p q tail (advance at_ s))

/-- The unread entries of an event queue, oldest first. -/
def unreadOf (e : EventQ) : List (Option Nat × Nat × List Byte) := e.held.drop (e.held.length - e.unread)

/-- How many unread entries lie before offset `h`; none when `h` is no entry boundary from head to tail (16 R644). -/
def boundaryIn (h tail : Nat) : List (Option Nat × Nat × List Byte) → Nat → Option Nat
  | [], n => if h = tail then some n else none
  | e :: t, n => if e.2.1 = h then some n else boundaryIn h tail t (n + 1)

/-- A write of an event queue head (16 R643, R644); the bits above the index are reserved (00 R11). -/
def eventHeadStep (p q head : Nat) (s : State) : State :=
  if !isPort p then s
  else
    let e := s.eq p q
    let head := head % 2 ^ 20
    match boundaryIn head e.tail (unreadOf e) 0 with
    | some n => s.modEq p q (fun e => { e with head := head, unread := e.unread - n })
    | none => portFormat p s

/-- EVENT_HEAD_WRITE (16 R644). -/
def execEventHeadWrite (at_ : Nat) (p q head : Nat) (s : State) : Host.Outcome State Fault Refusal :=
  .next (eventHeadStep p q head (advance at_ s))

/-! ### Event entries (16 R619, R620, R623) -/

/-- An entry as bytes (16 R619). -/
def entryBytes (e : EvEntry) (seq : Nat) : List Byte :=
  let n := (24 + e.data.length + 7) / 8 * 8
  let b := leBytes 1 e.typ ++ leBytes 1 e.stat ++ leBytes 2 n ++ leBytes 4 seq ++ leBytes 8 e.time ++ leBytes 2 e.op
    ++ leBytes 1 e.source ++ leBytes 1 e.flags ++ leBytes 4 e.word ++ e.data
  b ++ List.replicate (n - b.length) 0

/-- Free bytes of a ring: one 8-byte gap always stays free (16 R619). -/
def ringFree (e : EventQ) : Nat :=
  let size := ringSize e.k
  size - 8 - (e.tail + size - e.head) % size

/-- Entries overwritten by `n` bytes at offset `o` leave the ring. -/
def dropOver (o n : Nat) (h : List (Option Nat × Nat × List Byte)) : List (Option Nat × Nat × List Byte) :=
  h.filter (fun e => e.2.1 + e.2.2.length ≤ o || o + n ≤ e.2.1)

/-- Bytes put at the tail as one entry or pad. Log entry 104 (DEDUCED, unsafe). -/
def putAtTail (e : EventQ) (seq : Option Nat) (b : List Byte) : EventQ :=
  { e with tail := (e.tail + b.length) % ringSize e.k, unread := e.unread + 1,
           held := dropOver e.tail b.length e.held ++ [(seq, e.tail, b)] }

/-- An entry put into the ring, after a pad entry that fills the ring to its end where the entry would wrap; none where it
does not fit (16 R619). Log entry 104 (DEDUCED, unsafe). -/
def ringPut (e : EventQ) (b : List Byte) : Option EventQ :=
  let rest := ringSize e.k - e.tail
  let pad := if rest < b.length then rest else 0
  if ringFree e < pad + b.length then none
  else
    let e := if pad = 0 then e else putAtTail e none (leBytes 1 5 ++ leBytes 1 0 ++ leBytes 2 pad ++ List.replicate (pad - 4) 0)
    some { putAtTail e (some e.nextSeq) b with nextSeq := (e.nextSeq + 1) % 2 ^ 32 }

/-- The entry and, before it, the type 4 entry of the events dropped (16 R620). -/
def ringEntry (e : EventQ) (v : EvEntry) (time : Nat) : Option EventQ :=
  if e.lost = 0 then ringPut e (entryBytes v e.nextSeq)
  else
    match ringPut e (entryBytes { typ := 4, source := 2, time := time, word := e.lost } e.nextSeq) with
    | none => none
    | some e' => (ringPut e' (entryBytes v e'.nextSeq)).map (fun e'' => { e'' with lost := 0 })

/-- The bytes new to a ring, written into it on every landing in step (16 R619). -/
def writeNew (base : Nat) : List (Option Nat × Nat × List Byte) → State → State
  | [], s => s
  | e :: t, s => writeNew base t (eachSide s.inStep (fun x s => memPut x (base + e.2.1) e.2.2 s) s)

/-- The frames of a network partition's entry (16 R623): one on each network its commands arrive on, to its latest
source address. -/
def netEntry (p : Nat) (b : List Byte) (s : State) : State :=
  let t := s.part p
  { s with pur := { s.pur with outbox := s.pur.outbox ++ t.lastNets.map (fun n => (p, n, t.lastAddr, b)) } }

/-- The entries just put, sent as frames where the partition is a network partition. -/
def netEntries (p : Nat) : List (Option Nat × Nat × List Byte) → State → State
  | [], s => s
  | e :: t, s => netEntries p t (if e.1.isSome then netEntry p e.2.2 s else s)

/-- The fault events behind a completion that waits for space are dropped where they find the ring full too (16 R620). -/
def dropBehind (e : EventQ) : EventQ :=
  let keep := e.waiting.filter (fun v => v.typ = 1 || (ringPut e (entryBytes v e.nextSeq)).isSome)
  { e with waiting := keep, lost := satAdd 0xFFFFFFFF e.lost (e.waiting.length - keep.length) }

/-- The oldest entry waiting for an event queue written when space allows; a fault event that finds the ring full is
dropped and counted (16 R619, R620). -/
def entryStep (p q : Nat) (s : State) : State :=
  let e := s.eq p q
  if queueMoving s p true q then s
  else match e.waiting with
    | [] => s
    | v :: t =>
      match ringEntry { e with waiting := t } v s.nowNs with
      | some e' =>
        let new := e'.held.drop (e'.held.length - (e'.unread - e.unread))
        let s' := writeNew (queueBase s p true q) new (s.modEq p q (fun _ => e'))
        let s' := if isPort p then s' else netEntries p new s'
        if e.lost = 0 then s' else raise .cable 0x0C02 (p + 256 * q) s'
      | none =>
        if v.typ = 1 then s.modEq p q dropBehind
        else s.modEq p q (fun e => { e with waiting := t, lost := satAdd 0xFFFFFFFF e.lost 1 })

/-- EVENT_ENTRY_WRITE (16 R619). -/
def execEventEntryWrite (at_ : Nat) (p q : Nat) (s : State) : Host.Outcome State Fault Refusal :=
  .next (entryStep p q (advance at_ s))

/-! ### Ring sizes (16 R612, R613) -/

/-- The bases of all 48 rings. -/
def allBases (s : State) : List (Nat × Nat) := (List.range 48).map (fun r => (r, layoutBase s r))

/-- The state with a ring's exponent changed and its indices 0. -/
def resizeRing (p : Nat) (event : Bool) (q k : Nat) (s : State) : State :=
  if event then s.modEq p q (fun e => { e with k := k, head := 0, tail := 0, held := [], unread := 0 })
  else s.modCq p q (fun c => { c with k := k, head := 0, tail := 0 })

/-- The new area would exceed 2 MB or reach into apron memory the running manifest uses (16 R613). -/
def areaTooLarge (s : State) : Bool :=
  let n := areaBytes s
  0x200000 < n || (let f := (s.ld s.lead).fmn; f.loaded && 0x10800000 - n < apronUseEnd f.img)

/-- PUR_SET_QUEUE (16 R613). -/
def execPurSetQueue (h : CmdHdr) (kind q k : Nat) (s : State) : Host.Outcome State Fault Refusal :=
  .next (hostCommand h 0x0C04
    (fun s =>
      let ev := kind == 1
      { modes := [1],
        range := kind ≤ 1 && q ≤ 3 && k ≤ 8 && (ev || isPort h.part) && !areaTooLarge (resizeRing h.part ev q k s),
        state := s.pur.move.isNone &&
          (if ev then (s.eq h.part q).head == (s.eq h.part q).tail
           else (s.cq h.part q).head == (s.cq h.part q).tail && (s.cq h.part q).outstanding == 0) })
    (fun s =>
      let old := allBases s
      let s' := resizeRing h.part (kind == 1) q k s
      let moving := old.filter (fun e => layoutBase s' e.1 ≠ e.2)
      { st := .accepted,
        s := { s' with pur := { s'.pur with move := some { cmd := cmdOf h 0x0C04, fromB := moving } } } }) s)

/-- A moving ring's bytes read from its old base. -/
def ringImages (s : State) (l : Landing) (mv : List (Nat × Nat)) : List (Nat × List Byte) :=
  mv.map (fun e => (layoutBase s e.1, peekBytes l e.2 (ringSize (ringExp s e.1))))

/-- The moved rings written to their new bases on landing `x`. -/
def putImages (x : Side) : List (Nat × List Byte) → State → State
  | [], s => s
  | e :: t, s => putImages x t (memPut x e.1 e.2 s)

/-- Held doorbells taken after a move (16 R613 step 3). -/
def heldDoorbells : Nat → State → State
  | 0, s => s
  | n + 1, s =>
    let s := heldDoorbells n s
    let p := n / 4
    let q := n % 4
    match (s.cq p q).heldTail with
    | some t => ringDoorbell p q (t % 2 ^ 20) (s.modCq p q (fun c => { c with heldTail := none }))
    | none => s

/-- The end of a ring move (16 R613 step 3). -/
def moveEnd (s : State) : State :=
  match s.pur.move with
  | none => s
  | some m =>
    let s := eachSide s.serves (fun x s => putImages x (ringImages s (s.ld x) m.fromB) s) s
    let s := { s with pur := { s.pur with move := none } }
    complete m.cmd .done [] false (heldDoorbells 16 s)

/-- QUEUE_MOVE_COMPLETE (16 R613): at the first tick after the copy ends. -/
def execQueueMoveComplete (at_ : Nat) (s : State) : Host.Outcome State Fault Refusal :=
  let s := advance at_ s
  .next (moveEnd (if s.pur.move.isSome then advance s.nextTickNs s else s))

/-! ### Commands of the purser (16 R635) -/

/-- PUR_SUBSCRIBE (16 R621). -/
def execPurSubscribe (h : CmdHdr) (mask : Word) (q : Nat) (s : State) : Host.Outcome State Fault Refusal :=
  .next (hostCommand h 0x0C01 (fun _ => { range := q ≤ 3 && mask.toNat < 2 ^ 19 })
    (fun s => done (s.modPart h.part (fun t => { t with subMask := mask.toNat, subQ := q }))) s)

/-- The type 3 entry of a cleared alarm, to the partitions subscribed to its unit (16 R621). -/
def clearAlarm (code : Nat) (s : State) : State :=
  let src := Tab.get 0 s.pur.alarmSrc code
  let s := { s with pur := { s.pur with alarms := s.pur.alarms.filter (· ≠ code),
                                        alarmSrc := Tab.set 0 s.pur.alarmSrc code 0 } }
  postSubscribed (unitOf code)
    { typ := 3, stat := (severityOf code).elim 0 sevNum, op := code, source := src, time := s.nowNs } 8 0 s

/-- Every alarm of a list cleared. -/
def clearAlarms : List Nat → State → State
  | [], s => s
  | c :: t, s => clearAlarms t (clearAlarm c s)

/-- PUR_ACK_ALARM (16 R635, 00 R28). -/
def execPurAckAlarm (h : CmdHdr) (code : Nat) (s : State) : Host.Outcome State Fault Refusal :=
  .next (hostCommand h 0x0C02
    (fun s => { level := 1, range := code < 65536, state := code = 0 || s.pur.alarms.contains code })
    (fun s =>
      let s := clearAlarms (if code = 0 then s.pur.alarms else [code]) s
      done { s with pur := { s.pur with alarmsAt := s.pur.alarms.length } }) s)

/-- Frames of the entries from a sequence on, sent again in order (16 R623). -/
def resendFrom (p seq : Nat) (h : List (Option Nat × Nat × List Byte)) (s : State) : State :=
  netEntries p (h.dropWhile (fun e => e.1 ≠ some seq)) s

/-- PUR_RESEND (16 R623). -/
def execPurResend (h : CmdHdr) (q seq : Nat) (s : State) : Host.Outcome State Fault Refusal :=
  .next (hostCommand h 0x0C05
    (fun s => { range := q ≤ 3 && ((s.eq h.part q).held.any (fun e => e.1 == some seq) || isPort h.part),
                state := !isPort h.part })
    (fun s => done (resendFrom h.part seq (s.eq h.part q).held s)) s)

/-- The head moved past the entry of a sequence (16 R623). -/
def releaseTo (seq : Nat) (e : EventQ) : EventQ :=
  let rest := ((unreadOf e).dropWhile (fun v => v.1 ≠ some seq)).drop 1
  { e with unread := rest.length, head := match rest with
    | [] => e.tail
    | v :: _ => v.2.1 }

/-- PUR_RELEASE (16 R623, R635). -/
def execPurRelease (h : CmdHdr) (q seq : Nat) (s : State) : Host.Outcome State Fault Refusal :=
  .next (hostCommand h 0x0C06
    (fun s => { range := q ≤ 3 && ((unreadOf (s.eq h.part q)).any (fun e => e.1 == some seq) || isPort h.part),
                state := !isPort h.part })
    (fun s => done (s.modEq h.part q (releaseTo seq))) s)

/-- PUR_PING (16 R635). -/
def execPurPing (h : CmdHdr) (s : State) : Host.Outcome State Fault Refusal :=
  .next (hostCommand h 0x0C07 (fun _ => { modes := [0, 1, 2, 3, 4, 5] }) done s)

/-! ### Tollhouse (16 R626 to R633) -/

/-- Key slot `k`. -/
def State.slot (s : State) (k : Nat) : KeySlot := Tab.get {} s.pur.slots k

/-- The 16-byte nonce of the next draw of the random source (16 R628). Log entry 103 (DESIGN CHOICE, safe). -/
def drawNonce (s : State) : List Byte × State :=
  ((List.range 16).map (Config.nonceByte s.free), { s with free := s.free + 1 })

/-- TOL_CHALLENGE (16 R628, R630). -/
def execTolChallenge (h : CmdHdr) (slot level : Nat) (s : State) : Host.Outcome State Fault Refusal :=
  .next (hostCommand h 0x0C80
    (fun s =>
      let k := s.slot slot
      { range := slot ≤ 7 && k.alg ≠ 0 && k.credential && !k.revoked && level ≤ k.maxLevel,
        state := (s.part h.part).lockoutEnd.isNone })
    (fun s =>
      let n := drawNonce s
      { s := n.2.modPart h.part (fun t =>
          { t with challenge := some { nonce := n.1, slot := slot, level := level, time := s.nowNs } }),
        data := n.1 ++ leBytes 8 Config.serial.toNat }) s)

/-- The 27 bytes that a response signs (16 R629). -/
def challengeMessage (c : Challenge) (p : Nat) : List Byte :=
  c.nonce ++ leBytes 8 Config.serial.toNat ++ leBytes 1 p ++ leBytes 1 c.level ++ leBytes 1 c.slot

/-- The response answers the challenge (16 R629). -/
def responseOk (k : KeySlot) (c : Challenge) (p : Nat) (resp : List Byte) : Bool :=
  let m := challengeMessage c p
  if k.alg = 1 then resp == hmac256 (k.key.take 32) m ++ List.replicate 32 0
  else if k.alg = 2 then ecdsaVerify k.key resp m
  else false

/-- A response older than 30 s is stale (16 R629). -/
def challengeOld (c : Challenge) (s : State) : Bool := 30 * secNs < s.nowNs - c.time

/-- A failed response (16 R630): counted and reported; the third in a row locks the partition out for 60 s. Log entry 106 (DEDUCED, unsafe). -/
def responseFailed (p : Nat) (s : State) : State :=
  let n := (s.part p).fails + 1
  let s := raise .cable 0x0C81 p (s.modPart p (fun t => { t with fails := min 3 n }))
  if 3 ≤ n then
    raise .cable 0x0C82 p (dropLevel p (s.modPart p (fun t => { t with lockoutEnd := some (s.nowNs + 60 * secNs) })))
  else s

/-- The challenge used up. -/
def consume (p : Nat) (s : State) : State := s.modPart p (fun t => { t with challenge := none })

/-- The source address of the frame that brought a command of a network partition (16 R622): of the accepted copy, else the latest one. -/
def sourceOf (h : CmdHdr) (s : State) : Nat :=
  (((s.ld s.lead).eth.accepted.find? (fun c => c.part = h.part && c.seq = h.seq.toNat)).map (·.src)).getD (s.part h.part).lastAddr

/-- TOL_RESPONSE (16 R629, R630): the level granted takes effect at the next tick (R626). -/
def execTolResponse (h : CmdHdr) (resp : List Byte) (s : State) : Host.Outcome State Fault Refusal :=
  .next (hostCommandF h 0x0C81
    (fun s => match (s.part h.part).challenge with
      | none => { format := resp.length == 64, state := false }
      | some c => { format := resp.length == 64, integrity := responseOk (s.slot c.slot) c h.part resp,
                    timely := !challengeOld c s })
    (fun s => match (s.part h.part).challenge with
      | none => done s
      | some c => done (s.modPart h.part (fun t =>
          { t with challenge := none, fails := 0, nextLevel := some c.level, nextSlot := c.slot, nextAddr := sourceOf h s })))
    (fun st s =>
      if (s.part h.part).challenge.isNone then s
      else if st = .integrity && h.check ≠ some false then responseFailed h.part (consume h.part s)
      else if st = .stale && fresh h s then consume h.part s
      else s) s)

/-- TOL_LOGOUT (16 R626). -/
def execTolLogout (h : CmdHdr) (s : State) : Host.Outcome State Fault Refusal :=
  .next (hostCommand h 0x0C82 (fun _ => {}) (fun s => done (dropLevel h.part s)) s)

/-- The key slot that the 72 bytes of `TOL_KEY_WRITE` describe (16 R632). -/
def keyOf (b : List Byte) : KeySlot :=
  let f := ofLe ((b.drop 2).take 1)
  { alg := ofLe ((b.drop 1).take 1), manifest := bitOf f 0, credential := bitOf f 1, maxLevel := ofLe ((b.drop 3).take 1),
    key := (b.drop 8).take 64 }

/-- The reserved bytes of a key block are 0, and an HMAC secret is followed by 32 zero bytes. -/
def keyFormed (b : List Byte) : Bool :=
  b.length == 72 && ((b.drop 4).take 4).all (· == 0) && ofLe ((b.drop 2).take 1) < 4
    && (ofLe ((b.drop 1).take 1) ≠ 1 || (b.drop 40).all (· == 0))

/-- TOL_KEY_WRITE (16 R625, R632). -/
def execTolKeyWrite (h : CmdHdr) (block : List Byte) (s : State) : Host.Outcome State Fault Refusal :=
  .next (hostCommand h 0x0C83
    (fun s =>
      let k := ofLe (block.take 1)
      let key := keyOf block
      { format := keyFormed block, level := 3, modes := [1],
        range := k ≤ 7 && 1 ≤ key.alg && key.alg ≤ 2 && key.maxLevel ≤ 3,
        state := (s.slot k).alg == 0, free := (s.hold 5).isNone })
    (fun s =>
      let s := takeHold 5 h.part s
      { st := .accepted,
        s := { s with pur := { s.pur with keyWrite := some (cmdOf h 0x0C83, keyOf block, ofLe (block.take 1)) } } }) s)

/-- Some unrevoked credential key can grant MASTER (16 R631). -/
def masterKey (s : State) : Bool :=
  (List.range 8).any (fun k => let t := s.slot k; t.alg ≠ 0 && t.credential && !t.revoked && t.maxLevel == 3)

/-- The key slot written, or MEDIA; the hold released (16 R625, R632). P0's bootstrap level falls at the next tick once a
master key exists (R631). -/
def keyWriteEnd (ok : Bool) (s : State) : State :=
  match s.pur.keyWrite with
  | none => s
  | some (c, key, k) =>
    let s := keepShown ((0x800 + 4 * k) :: (List.range 16).map (fun i => 0x900 + 0x40 * k + 4 * i)) s
    let s := { s with pur := { s.pur with keyWrite := none } }.setHold 5 none
    if ok then
      let s := { s with pur := { s.pur with slots := Tab.set {} s.pur.slots k key } }
      let s := if s.pur.bootstrap && masterKey s then s.modPart 0 (fun t => { t with nextLevel := some 0 }) else s
      complete c .done [] false (raise .cable 0x0C83 k s)
    else complete c .media [] false s

/-- KEY_WRITE_COMPLETE (16 R632). -/
def execKeyWriteComplete (at_ : Nat) (ok : Bool) (s : State) : Host.Outcome State Fault Refusal :=
  .next (keyWriteEnd ok (advance at_ s))

/-- TOL_KEY_REVOKE (16 R632). -/
def execTolKeyRevoke (h : CmdHdr) (slot : Nat) (s : State) : Host.Outcome State Fault Refusal :=
  .next (hostCommand h 0x0C84
    (fun s => { level := 3, modes := [1], range := slot ≤ 7, state := (s.slot slot).alg ≠ 0 && !(s.slot slot).revoked,
                free := freeTo 5 h.part s })
    (fun s => done (raise .cable 0x0C83 slot
      { s with pur := { s.pur with slots := Tab.upd {} s.pur.slots slot (fun k => { k with revoked := true }) } })) s)

/-- TOL_JTAG_UNLOCK (16 R633). -/
def execTolJtagUnlock (h : CmdHdr) (s : State) : Host.Outcome State Fault Refusal :=
  .next (hostCommand h 0x0C85 (fun _ => { level := 3, modes := [1] })
    (fun s => done (raise .cable 0x0C85 h.part { s with pur := { s.pur with jtagOpen := true } })) s)

/-- A JTAG access served: boundary scan while unlocked, debug of an OUT_OF_SERVICE or QUARANTINED landing only
(16 R633). -/
def jtagServed (x : Option Side) (s : State) : Bool :=
  s.pur.jtagOpen && match x with
    | none => true
    | some y => s.role y = .outOfService || s.role y = .quarantined

/-- JTAG_ACCESS (16 R633). -/
def execJtagAccess (at_ : Nat) (x : Option Side) (s : State) : Host.Outcome State Fault Refusal :=
  let s := advance at_ s
  .next { s with resp := { err := !jtagServed x s } }

/-- LEVEL_TIMEOUT (16 R626): 30 min without a passing command. -/
def execLevelTimeout (at_ : Nat) (p : Nat) (s : State) : Host.Outcome State Fault Refusal :=
  let s := advance at_ s
  .next (if 1800 * secNs ≤ s.nowNs - (s.part p).lastPass then dropLevel p (keepPart p s) else s)

/-- LOCKOUT_END (16 R630): after 60 s; the count of failures starts again. Log entry 106 (DEDUCED, unsafe). -/
def execLockoutEnd (at_ : Nat) (p : Nat) (s : State) : Host.Outcome State Fault Refusal :=
  let s := advance at_ s
  .next (match (s.part p).lockoutEnd with
    | some t =>
      if t ≤ s.nowNs then
        let s := (keepPart p s).modPart p (fun q => { q with lockoutEnd := none, fails := 0 })
        if p = 0 && s.pur.bootstrap then setLevel 0 3 0 s else s
      else s
    | none => s)

/-- PUR_HOLD_EXPIRED (16 R625): 60 s without a command from the holder on the resource. Log entry 107 (DEDUCED, unsafe). -/
def execPurHoldExpired (at_ : Nat) (res : Nat) (s : State) : Host.Outcome State Fault Refusal :=
  let s := advance at_ s
  .next (match s.hold res with
    | some h => if 60 * secNs ≤ s.nowNs - h.last then raise .cable 0x0C04 (h.part + 256 * res) (s.setHold res none) else s
    | none => s)

/-! ### Flash commands (16 R636) -/

/-- The window address and size of a flash bank (11 R429). -/
def bankBase (b : Nat) : Nat :=
  match b with
  | 0 => 0x60000000
  | 1 => 0x61800000
  | 2 => 0x63000000
  | _ => 0x63400000
def bankSize (b : Nat) : Nat := if b < 2 then 0x01800000 else 0x00400000

/-- A bank is checked at MASTER for the firmware copies and at ENGINEER otherwise (16 R636). -/
def bankLevel (b : Nat) : Nat := if b = 2 || b = 3 then 3 else 2

/-- The boot bank in a landing's slipway record (11 R433). -/
def bootBank (x : Side) (s : State) : Nat := bkpByte s (slipwayAt x + 5) % 2

/-- Operations waiting on a bank. -/
def State.flashOps (s : State) (b : Nat) : List FlashOp := Tab.get [] s.pur.flashOps b

/-- An operation added to a bank. -/
def addFlashOp (b : Nat) (o : FlashOp) (s : State) : State :=
  { s with pur := { s.pur with flashOps := Tab.set [] s.pur.flashOps b (s.flashOps b ++ [o]) } }

/-- DKH_IMAGE_ERASE (16 R636). -/
def execDkhImageErase (h : CmdHdr) (b : Nat) (s : State) : Host.Outcome State Fault Refusal :=
  .next (hostCommand h 0x1302
    (fun s => { level := bankLevel b, range := b ≤ 3, free := freeTo b h.part s,
                state := s.mode ≤ 1 || !(b ≤ 1 && (bootBank .A s == b || bootBank .B s == b)) })
    (fun s =>
      let s := addFlashOp b { cmd := cmdOf h 0x1302 } (takeHold b h.part s)
      { st := .accepted, s := { s with pur := { s.pur with written := Tab.set [] s.pur.written b [] } } }) s)

/-- The range touches bytes written since the erase (16 R636). -/
def overlapsWritten (b off n : Nat) (s : State) : Bool :=
  (Tab.get [] s.pur.written b).any (fun w => w.1 < off + n && off < w.1 + w.2)

/-- DKH_IMAGE_WRITE (16 R636). Log entry 8 (DEDUCED, safe). -/
def execDkhImageWrite (h : CmdHdr) (b off : Nat) (data : List Byte) (s : State) : Host.Outcome State Fault Refusal :=
  .next (hostCommand h 0x1303
    (fun s => { level := bankLevel b,
                range := b ≤ 3 && off % 256 == 0 && data.length % 256 == 0 && 256 ≤ data.length && data.length ≤ 2048
                  && off + data.length ≤ bankSize b,
                state := (match s.hold b with
                  | some k => k.part == h.part
                  | none => false) && !overlapsWritten b off data.length s,
                free := freeTo b h.part s })
    (fun s =>
      let s := addFlashOp b { cmd := cmdOf h 0x1303, off := off, data := some data } (takeHold b h.part s)
      { st := .accepted, s := { s with pur := { s.pur with
        written := Tab.upd [] s.pur.written b (· ++ [(off, data.length)]) } } }) s)

/-- DKH_IMAGE_CLOSE (16 R636). Log entry 107 (DEDUCED, unsafe). -/
def execDkhImageClose (h : CmdHdr) (b : Nat) (s : State) : Host.Outcome State Fault Refusal :=
  .next (hostCommand h 0x1304 (fun s => { level := bankLevel b, range := b ≤ 3, free := freeTo b h.part s })
    (fun s => done (s.setHold b none)) s)

/-- A flash operation carried out on one landing. -/
def flashApply (b : Nat) (o : FlashOp) (l : Landing) : Landing :=
  match o.data with
  | none =>
    { l with
      flash := flashErase l.flash (bankBase b) (bankSize b),
      fwErased := if 2 ≤ b && !l.fwErased.contains b then b :: l.fwErased else l.fwErased }
  | some d => { l with flash := flashPut l.flash (bankBase b + o.off) d }

/-- A flash operation ends on every serving landing: DONE, or MEDIA if any of them fails (16 R636). -/
def flashEnd (b : Nat) (okA okB : Bool) (s : State) : State :=
  match s.flashOps b with
  | [] => s
  | o :: t =>
    let s := { s with pur := { s.pur with flashOps := Tab.set [] s.pur.flashOps b t } }
    let ok := fun x => match x with
      | Side.A => okA
      | Side.B => okB
    let bad := (s.serves .A && !okA) || (s.serves .B && !okB)
    let s := eachSide (fun x => s.serves x && ok x) (fun x s => s.modLd x (flashApply b o)) s
    complete o.cmd (if bad then .media else .done) [] false s

/-- FLASH_OPERATION_COMPLETE (16 R636). -/
def execFlashOperationComplete (at_ : Nat) (b : Nat) (okA okB : Bool) (s : State) : Host.Outcome State Fault Refusal :=
  .next (flashEnd b okA okB (advance at_ s))

end Sys2Proof.Machine
end

