-- ==== Sys2Proof/Machine/Ethernet.lean ====
section
/-!
DEFINITION. Ship networks and network time (chapter 15): transmit items, frames in transit, operator commands, module time, the
reference, the transparent clock and the time bases.
-/
namespace Sys2Proof.Machine

/-- The Ethernet block of landing `x` changed; a port changed; a time base changed. -/
def State.modEth (s : State) (x : Side) (f : Eth → Eth) : State := s.modLd x (fun l => { l with eth := f l.eth })
def State.modEthPort (s : State) (x : Side) (p : Nat) (f : EthPort → EthPort) : State :=
  s.modEth x (fun e => { e with ports := Tab.upd {} e.ports p f })
def State.modTb (s : State) (b : Nat) (f : TimeBase → TimeBase) : State := { s with tbs := Tab.upd {} s.tbs b f }

/-- `n` bytes of a frame from offset `o`; the number they spell. -/
def fBytes (f : List Byte) (o n : Nat) : List Byte := (f.drop o).take n
def fNum (f : List Byte) (o n : Nat) : Nat := ofBe (fBytes f o n)

/-- Bytes of a frame replaced from offset `o`. -/
def fPut (f : List Byte) (o : Nat) (b : List Byte) : List Byte := f.take o ++ b ++ f.drop (o + b.length)

/-! ### Configuration (15 R593) -/

/-- The module's own address on a landing; a network is used; it is peer-to-peer. Log entry 99 (DEDUCED, unsafe). -/
def ownAddr (m : Tab Byte) : List Byte := if (enginePart m 0x0B).isNone then [] else bytesAt m (partOff m 0x0B) 6
def netUsed (m : Tab Byte) (n : Nat) : Bool := bitOf (ethHdr m 6 1) n
def netP2p (m : Tab Byte) (n : Nat) : Bool := bitOf (ethHdr m 6 1) (2 + n)

/-- Network partition `p` (4 to 7) is configured; it is compared on two networks. -/
def netPart (m : Tab Byte) (p : Nat) : Bool := 4 ≤ p && p ≤ 7 && bitOf (ethHdr m 7 1) (p - 4)
def netPaired (m : Tab Byte) (p : Nat) : Bool := bitOf (ethHdr m 7 1) p

/-- PHY receive and transmit latency in 2^-16 ns; the late tolerance in ns. -/
def phyRx (m : Tab Byte) : Nat := ethHdr m 8 2 * nsUnit
def phyTx (m : Tab Byte) : Nat := ethHdr m 0xA 2 * nsUnit
def lateNs (m : Tab Byte) : Nat := ethHdr m 0xC 2 * 1000

/-- A filter's descriptor; fields of a time base's. -/
def filterOff (m : Tab Byte) (i : Nat) : Nat := partOff m 0x0B + 64 + 16 * i
def tbRole (m : Tab Byte) (b : Nat) : Nat := if (enginePart m 0x0B).isNone then 0 else le m (tbDesc m b) 1
def tbNet (m : Tab Byte) (b : Nat) : Nat := le m (tbDesc m b + 2) 1

/-- A port that faces the other landing (15 R571). -/
def interLink (x : Side) (p : Nat) : Bool :=
  match x with
  | .A => p % 2 = 1
  | .B => p % 2 = 0

/-- The lanes of a landing are to be joined (15 R573): it is unpowered, held in reset, halted, QUARANTINED, or has not completed S3. -/
def lanesJoin (s : State) (x : Side) : Bool :=
  let l := s.ld x
  !s.powered x || l.slw.inReset || l.fmn.halted || s.role x = .quarantined || l.slw.stage < 4

/-- A landing's ports work: its lanes are not bypassed (15 R573). -/
def ethOn (s : State) (x : Side) : Bool := !(s.ld x).eth.bypass && !lanesJoin s x

/-- No PHY lies between a port and its partner (15 R571, R573): it faces the other landing, whose lanes are not bypassed.
Log entry 99 (DEDUCED, unsafe). -/
def noPhy (s : State) (x : Side) (p : Nat) : Bool := interLink x p && ethOn s x.other

/-! ### PTP messages (15 R588; IEEE 1588-2019) -/

/-- Where the payload of a frame starts: after one VLAN tag when present. -/
def payloadAt (f : List Byte) : Nat := if fNum f 12 2 = 0x8100 then 18 else 14
def etherType (f : List Byte) : Nat := fNum f (payloadAt f - 2) 2

/-- The type of a PTP message; none for another frame. -/
def ptpType (f : List Byte) : Option Nat :=
  if etherType f = 0x88F7 && payloadAt f + 34 ≤ f.length then some (fNum f (payloadAt f) 1 % 16) else none

/-- The domain, the correction in 2^-16 ns, the sequence and the source port identity of a PTP message. -/
def ptpDomain (f : List Byte) : Nat := fNum f (payloadAt f + 4) 1
def ptpCorr (f : List Byte) : Int := sval 64 (fNum f (payloadAt f + 8) 8)
def ptpSeq (f : List Byte) : Nat := fNum f (payloadAt f + 30) 2
def ptpSource (f : List Byte) : List Byte := fBytes f (payloadAt f + 20) 10

/-- A PTP message with `d` added to its correction. -/
def addCorr (f : List Byte) (d : Int) : List Byte := fPut f (payloadAt f + 8) (beBytes 8 (uval 64 (ptpCorr f + d)))

/-- The module's clock identity, from its address; the identity of a port. -/
def clockIdent (m : Tab Byte) : List Byte := (ownAddr m).take 3 ++ [0xFF, 0xFE] ++ (ownAddr m).drop 3
def portIdent (m : Tab Byte) (p : Nat) : List Byte := clockIdent m ++ beBytes 2 (p + 1)

/-- A PTP frame: message type, domain, flags, source port, sequence, log interval, destination, body. -/
def ptpFrame (m : Tab Byte) (dst : List Byte) (typ domain flags src seq log : Nat) (body : List Byte) : List Byte :=
  dst ++ ownAddr m ++ beBytes 2 0x88F7 ++
    (beBytes 1 typ ++ [0x12] ++ beBytes 2 (34 + body.length) ++ beBytes 1 domain ++ [0] ++ beBytes 2 flags ++ beBytes 8 0 ++ beBytes 4 0
      ++ portIdent m src ++ beBytes 2 seq ++ [Config.ptpByte (100 + typ)] ++ beBytes 1 log ++ body)

/-- The PTP multicast address, and that of the peer-delay messages (15 R574). -/
def ptpMulti : List Byte := [0x01, 0x1B, 0x19, 0, 0, 0]
def peerAddr : List Byte := [0x01, 0x80, 0xC2, 0, 0, 0x0E]

/-- A PTP timestamp (seconds and nanoseconds) of a value in whole ns. -/
def ptpStamp (v : Int) : List Byte := let n := v.toNat; beBytes 6 (n / 1000000000 % 2 ^ 48) ++ beBytes 4 (n % 1000000000)

/-! ### Queues (15 R577, R580) -/

/-- A frame padded to 60 bytes. -/
def padFrame (b : List Byte) : List Byte := b ++ List.replicate (60 - b.length) 0

/-- A launch frame put in its place: by launch time, then by release order. -/
def putLaunch (f : EthFrame) : List EthFrame → List EthFrame
  | [] => [f]
  | g :: t => if f.launch.getD 0 < g.launch.getD 0 then f :: g :: t else g :: putLaunch f t

/-- A frame queued at an egress port; one that finds its queue full is discarded and counted (15 R580). Log entry 99 (DEDUCED, unsafe). -/
def queueFrame (x : Side) (p : Nat) (f : EthFrame) (s : State) : State :=
  s.modEthPort x p (fun k =>
    let full := if f.launch.isSome then 16 ≤ k.launch.length else 32 ≤ k.imm.length
    if full then { k with txDrop := satAdd 0xFFFF k.txDrop 1 }
    else if f.launch.isSome then { k with launch := putLaunch f k.launch }
    else { k with imm := k.imm ++ [f] })

/-- The egress ports that a network mask and a direction mask name. -/
def egressPorts (net dir : Nat) : List Nat :=
  (List.range 4).filter (fun p => bitOf net (p / 2) && bitOf dir (p % 2))

/-- An item let through by the selector: one frame on each egress port it names (15 R579). -/
def deliverEth (i : OutItem) (s : State) : State :=
  let x := s.lead
  let m := (s.ld x).fmn.img
  let d := ofWords i.words
  let g := fun (o n : Nat) => ofLe ((d.drop o).take n)
  let b := (d.drop 0x10).take (g 4 2)
  let f : EthFrame :=
    { bytes := padFrame (fPut b 6 (ownAddr m)), launch := if bitOf (g 3 1) 0 then some (g 8 8) else none,
      tb := if bitOf (g 3 1) 1 then some (g 3 1 / 4 % 4) else none }
  (egressPorts (g 1 1) (g 2 1)).foldl (fun s p => queueFrame x p f s) s

/-- Where transmit buffer `b` lies (15 R577). -/
def ethBuffer (b : Nat) : Nat := 0x300B1000 + 0x600 * b

/-- A transmit item in the form of R577 and R579, handed over at instant `now` ns. -/
def ethItemOk (m : Tab Byte) (job now : Nat) (d : List Byte) : Bool :=
  let g := fun (o n : Nat) => ofLe ((d.drop o).take n)
  let fl := g 3 1
  let fr := (d.drop 0x10).take (g 4 2)
  g 0 1 = job && job ≤ 31 && 1 ≤ g 1 1 && g 1 1 ≤ 3 && 1 ≤ g 2 1 && g 2 1 ≤ 3 && fl < 16
    && 14 ≤ g 4 2 && g 4 2 ≤ 1518 && g 6 2 = 0 && (bitOf fl 0 || g 8 8 = 0)
    && [0, 1].all (fun n => !bitOf (g 1 1) n || netUsed m n)
    && (!bitOf fl 1 || (tbRole m (fl / 4) ≠ 0 && ptpType fr = some 0))
    && (!bitOf fl 0 || g 8 8 ≤ now + secNs)

/-- Latency and initiation interval of an Ethernet operation (15 R578); `b` is the item's length in bytes. -/
def ethCost (op b : Nat) : Nat × Nat := if op = 2 then (1088, 1024) else (64 + (b + 7) / 8, (b + 7) / 8)

/-- The length of an Ethernet item, b of 02 R80: as far as the claims of pattern `p` write its buffer (15 R577, R578). -/
def sendBytes (m : Tab Byte) (p job : Nat) : Nat :=
  ((claims m p).filter (fun c => c.dst = 0x27 && (c.to_ - 0x300B1000) / 0x600 = job)).foldl
    (fun n c => max n (c.to_ + 8 * c.beats - ethBuffer job)) 0

/-- ETH_SEND (15 R578, R579): the item of a buffer handed over at core cycle `cycle`. -/
def ethSendOp (x : Side) (job cycle : Nat) (s : State) : State :=
  let m := (s.ld x).fmn.img
  let h := memReadN x (ethBuffer job) 2 s
  let n := (min 1520 (ofLe ((ofWords h.1).drop 4 |>.take 2)) + 7) / 8
  let r := memReadN x (ethBuffer job + 16) n h.2
  let ws := h.1 ++ r.1
  let s := r.2
  if !ws.any (fun w => w.p) && !ethItemOk m job (s.tickNs x + cycle * 5 / 4) (ofWords ws) then raisePerCrossing x 0x0B06 job 0 s
  else
    let key := Tab.get 0 (s.ld x).eth.keys job - 1
    handItem deliverEth x { key := key, cycle := cycle, port := 0x27, sub := job, words := ws } s

/-- ETH_SEND (15 R578). -/
def execEthSend (at_ : Nat) (x : Side) (job cycle : Nat) (s : State) : Host.Outcome State Fault Refusal :=
  .next (runEntry x 0x0B 1 (some job) (some cycle) (fun _ s =>
    let f := (s.ld x).fmn
    ethSendOp x job (cycle + (ethCost 1 (sendBytes f.img f.pattern job)).1) s) (advance at_ s))

/-! ### An egress port starts a frame (15 R580, R581, R588) -/

/-- The value of a time base at module time `t` (2^-16 ns), in FP64 ns (15 R590, R592). Log entry 101 (DEDUCED, unsafe). -/
def tbValue (s : State) (b t : Nat) : F64 :=
  let k := s.tb b
  let m := (s.ld s.lead).fmn.img
  let f := fun (v : Nat) => F64.ofDyadic v (-16)
  if k.state = 4 && le m (tbDesc m b + 3) 1 = 1 then
    let e := (s.ld s.lead).gns.steer
    let oe := if e.state = 3 then e.oe else e.o
    F64.add (F64.sub (f t) (F64.ofDyadic oe (-32))) (F64.ofNat 19000000000)
  else F64.add (F64.add (f t) k.o) (F64.mul k.r (F64.sub (f t) (f k.t)))

/-- Event frames of network partitions taken from the outbox into the active landing's queues (16 R623), on both ports of their
network. -/
def drainOutbox (s : State) : State :=
  match s.activeSide with
  | none => s
  | some x =>
    if !s.passes x then s
    else
      let s' := { s with pur := { s.pur with outbox := [] } }
      s.pur.outbox.foldl (fun s q =>
        let b := padFrame (leBytes 6 q.2.2.1 ++ ownAddr (s.ld x).fmn.img ++ beBytes 2 0x88B6 ++ q.2.2.2)
        [0, 1].foldl (fun s d => queueFrame x (2 * q.2.1 + d) { bytes := b } s) s) s'

/-- A frame's wire time (15 R580). -/
def wireNs (f : EthFrame) : Nat := (f.bytes.length + 24) * 8

/-- The next frame of a port at instant `now` ns, and the queues without it (15 R580). -/
def nextFrame (now : Nat) (k : EthPort) : Option (EthFrame × EthPort) :=
  let free := fun (f : EthFrame) => k.launch.head?.elim true (fun g => now + wireNs f ≤ g.launch.getD 0)
  match k.launch with
  | f :: t =>
    if f.launch.getD 0 ≤ now then some (f, { k with launch := t })
    else match k.transit, k.imm with
      | g :: u, _ => if free g then some (g, { k with transit := u }) else none
      | [], g :: u => if free g then some (g, { k with imm := u }) else none
      | [], [] => none
  | [] => match k.transit, k.imm with
    | g :: u, _ => some (g, { k with transit := u })
    | [], g :: u => some (g, { k with imm := u })
    | [], [] => none

/-- Launch frames too late discarded (15 R580); at most `n`. -/
def dropLate (x : Side) (p tol : Nat) : Nat → State → State
  | 0, s => s
  | n + 1, s =>
    match ((s.ld x).eth.port p).launch with
    | [] => s
    | f :: t =>
      if f.launch.getD 0 + tol < s.nowNs then
        dropLate x p tol n (raise (.landing x) 0x0B07 p (s.modEthPort x p (fun k =>
          { k with launch := t, txDrop := satAdd 0xFFFF k.txDrop 1 })))
      else s

/-- The bytes put on the wire by a frame whose start-of-frame delimiter ends at `sfd` (2^-16 ns): residence and link delay added,
turnaround, the time base inserted (15 R577, R588, R589). -/
def wireBytes (s : State) (x : Side) (p sfd : Nat) (f : EthFrame) : List Byte :=
  let m := (s.ld x).fmn.img
  let out : Int := (sfd + (if noPhy s x p then 0 else phyTx m) : Nat)
  let b := f.bytes
  let b := match f.ingress, ptpType b with
    | some i, some t => if t ≤ 3 then addCorr b (out - (i : Nat) + (if t = 0 then f.link else 0)) else b
    | _, _ => b
  let b := match f.turn with
    | some i => addCorr b (out - (i : Nat))
    | none => b
  match f.tb with
  | some k => fPut b (payloadAt b + 34) (ptpStamp (F64.toInt (tbValue s k sfd) 0 (-(2 ^ 96)) (2 ^ 96)))
  | none => b

/-- A port that is free starts its next frame (15 R580, R581); a launch frame starts on time at the first 125 MHz edge from its launch time. -/
def launchStep (x : Side) (p sfd : Nat) (s : State) : State :=
  let s := drainOutbox s
  if !ethOn s x || !bitOf (s.ld x).eth.links p || s.nowNs < ((s.ld x).eth.port p).busy then s
  else
    let m := (s.ld x).fmn.img
    let s := dropLate x p (lateNs m) 16 s
    match nextFrame s.nowNs ((s.ld x).eth.port p) with
    | none => s
    | some (f, k) =>
      let b := wireBytes s x p sfd f
      let stamp := sfd + (if noPhy s x p then 0 else phyTx m)
      let onTime := f.launch.elim false (fun t => decide (s.nowNs < t + 8))
      let own := f.ingress.isNone && f.turn.isNone && ptpType b = some 2
      s.modEthPort x p (fun _ => { k with
        tx := satAdd 0xFFFF k.tx 1, wire := b, busy := s.nowNs + wireNs f,
        txStamp := if !onTime && s.activeSide = some x then stamp else k.txStamp,
        t1 := if own then some stamp else k.t1 })

/-- LAUNCH (15 R580). -/
def execLaunch (at_ : Nat) (x : Side) (p sfd : Nat) (s : State) : Host.Outcome State Fault Refusal :=
  .next (launchStep x p sfd (advance at_ s))

/-! ### Reception (15 R572 to R576, R589) -/

/-- The entry stamp in 2^-16 ns (15 R575): of a preamble stamp the value nearest the receive time with those low bits. -/
def entryStamp (m : Tab Byte) (x : Side) (p : Nat) (f : EthRx) : Nat :=
  match f.pre, interLink x p with
  | some v, true =>
    let w := 2 ^ 40
    let t := f.sfd / nsUnit
    let base := t / w * w + v % w
    let c := if base + w / 2 < t then base + w else if t + w / 2 < base then base - w else base
    c * nsUnit
  | _, _ => f.sfd - phyRx m

/-- The receive filter that a frame matches on a network (15 R576). -/
def filterOf (m : Tab Byte) (n : Nat) (b : List Byte) : Option Nat :=
  if etherType b = 0x88B6 && b.take 6 = ownAddr m then some 0xFF
  else (List.range 32).find? (fun i =>
    let o := filterOff m i
    bitOf (le m (o + 8) 1) 0 && bitOf (le m (o + 8) 1) (1 + n) && bytesAt m o 6 = b.take 6 && le m (o + 6) 2 = etherType b)

/-- The content of a class 5 or 6 entry (15 R576). -/
def ethContent (m : Tab Byte) (i stamp : Nat) (b : List Byte) : List Byte :=
  leBytes 1 i ++ leBytes 1 (b2n (payloadAt b = 18) + 2 * b2n (b.take 6 = ownAddr m)) ++ leBytes 2 b.length ++ leBytes 4 0
    ++ leBytes 8 (stamp / nsUnit) ++ leBytes 2 (stamp % nsUnit) ++ leBytes 6 0 ++ b ++ List.replicate ((8 - b.length % 8) % 8) 0

/-- A frame copied to a landing (15 R575, R576). -/
def copyFrame (x : Side) (p stamp : Nat) (b : List Byte) (s : State) : State :=
  let m := (s.ld x).fmn.img
  match filterOf m (p / 2) b with
  | some i => takeRecord (some x) (5 + p / 2) (p % 2) (stamp / nsUnit + (b.length + 4) * 8) (ethContent m i stamp b) s
  | none => s.modEth x (fun e => { e with unmatched := satAdd 0xFFFFFFFF e.unmatched 1 })

/-- A transit frame queued at the other port of its network (15 R574): its size in the 32 KB buffer. -/
def forwardFrame (x : Side) (p sfd : Nat) (b : List Byte) (s : State) : State :=
  let q := if p % 2 = 0 then p + 1 else p - 1
  let m := (s.ld x).fmn.img
  let k := (s.ld x).eth.port q
  let used := k.transit.foldl (fun n f => n + f.bytes.length) 0
  if 32768 < used + b.length then
    raisePerSecond (.landing x) 0x0B05 q q (s.modEthPort x q (fun k => { k with txDrop := satAdd 0xFFFF k.txDrop 1 }))
  else
    let f : EthFrame := { bytes := b, ingress := some (sfd - (if noPhy s x p then 0 else phyRx m)),
                          link := if netP2p m (p / 2) then ((s.ld x).eth.port p).delay else 0 }
    s.modEthPort x q (fun k => { k with transit := k.transit ++ [f] })

/-- A peer-delay message (15 R589): a request is answered, a response measures the link. -/
def peerDelay (x : Side) (p : Nat) (f : EthRx) (s : State) : State :=
  let m := (s.ld x).fmn.img
  let b := f.bytes
  let rx := f.sfd - (if noPhy s x p then 0 else phyRx m)
  if !netP2p m (p / 2) then s
  else match ptpType b with
    | some 2 =>
      let body := ptpStamp 0 ++ ptpSource b
      queueFrame x p { bytes := ptpFrame m peerAddr 3 (ptpDomain b) 0 p (ptpSeq b) 0x7F body, turn := some rx } s
    | some 3 =>
      let k := (s.ld x).eth.port p
      match k.t1, k.asked with
      | some t1, true =>
        if ptpSeq b ≠ k.seq || fBytes b (payloadAt b + 44) 10 ≠ portIdent m p then s
        else
          let d := (rx : Int) - (t1 : Int) - ptpCorr b
          s.modEthPort x p (fun k =>
            let ds := (d :: k.delays).take 8
            { k with delays := ds, delay := roundDiv (ds.foldl (· + ·) 0) (2 * ds.length), asked := false, t1 := none, miss := 0 })
      | _, _ => s
    | _ => s

/-- A Delay_Req answered by the master time base of its domain (15 R592). -/
def delayResp (x : Side) (p : Nat) (f : EthRx) (s : State) : State :=
  let m := (s.ld x).fmn.img
  let b := f.bytes
  if !s.passes x || netP2p m (p / 2) || ptpType b ≠ some 1 then s
  else match (List.range 4).find? (fun k => tbRole m k = 2 && le m (tbDesc m k + 1) 1 = ptpDomain b && bitOf (tbNet m k) (p / 2)) with
    | none => s
    | some k =>
      let t := F64.toInt (tbValue s k (entryStamp m x p f)) 0 (-(2 ^ 96)) (2 ^ 96)
      let r := ptpFrame m ptpMulti 9 (ptpDomain b) 0 p (ptpSeq b) (Config.ptpByte 0).toNat (ptpStamp t ++ ptpSource b)
      queueFrame x p { bytes := padFrame (addCorr r (ptpCorr b)) } s

/-- ETH_FRAME_RECEIVED (15 R572 to R576). -/
def frameReceived (x : Side) (p : Nat) (f : EthRx) (s : State) : State :=
  if !ethOn s x || 4 ≤ p then s
  else
    let m := (s.ld x).fmn.img
    let b := f.bytes
    let s := s.modEthPort x p (fun k => { k with rx := satAdd 0xFFFF k.rx 1 })
    if !f.ok || b.length < 60 || 1518 < b.length then
      raisePerSecond (.landing x) 0x0B04 p p (s.modEthPort x p (fun k => { k with rxErr := satAdd 0xFFFF k.rxErr 1 }))
    else if etherType b = 0x8808 then s
    else if b.take 6 = peerAddr then peerDelay x p f s
    else
      let stamp := entryStamp m x p f
      let out := if p % 2 = 0 then p + 1 else p - 1
      let uni := b.take 6 = ownAddr m
      let fromUs := fBytes b 6 6 = ownAddr m
      let group := bitOf (fNum b 0 1) 0
      let bcast := b.take 6 = List.replicate 6 0xFF
      let named := (List.range 32).any (fun i => bitOf (le m (filterOff m i + 8) 1) 0 && bytesAt m (filterOff m i) 6 = b.take 6)
      let s := if uni && !interLink x out then s else forwardFrame x p f.sfd b s
      let s := if fromUs then s else delayResp x p f s
      if !fromUs && (uni || bcast || (group && named)) then copyFrame x p stamp b s else s

/-- ETH_FRAME_RECEIVED (15 R574). -/
def execEthFrameReceived (at_ : Nat) (x : Side) (p : Nat) (f : EthRx) (s : State) : Host.Outcome State Fault Refusal :=
  .next (frameReceived x p f (advance at_ s))

/-! ### Links and bypass (15 R572, R573) -/

/-- LINK_CHANGE (15 R572). -/
def linkChange (x : Side) (p : Nat) (up : Bool) (s : State) : State :=
  let was := bitOf (s.ld x).eth.links p
  if was = up || 4 ≤ p then s
  else
    let s := s.modEth x (fun e => { e with links := if up then e.links + 2 ^ p else e.links - 2 ^ p })
    raise (.landing x) (if up then 0x0B02 else 0x0B01) p s

/-- LINK_CHANGE (15 R572). -/
def execLinkChange (at_ : Nat) (x : Side) (p : Nat) (up : Bool) (s : State) : Host.Outcome State Fault Refusal :=
  .next (linkChange x p up (advance at_ s))

/-- LANE_BYPASS (15 R573): the switch follows the landing's condition, and the other landing reports it. -/
def laneBypass (x : Side) (closed : Bool) (s : State) : State :=
  if (s.ld x).eth.bypass = closed || lanesJoin s x ≠ closed then s
  else raise (.landing x.other) 0x0B03 (b2n closed) (s.modEth x (fun e => { e with bypass := closed }))

/-- LANE_BYPASS (15 R573). -/
def execLaneBypass (at_ : Nat) (x : Side) (closed : Bool) (s : State) : Host.Outcome State Fault Refusal :=
  .next (laneBypass x closed (advance at_ s))

/-- A role change (15 R582): the queues of frames that the module originates start empty. -/
def ethRoles (s : State) : State :=
  eachSide (fun _ => true) (fun x s => (List.range 4).foldl (fun s p => s.modEthPort x p (fun k => { k with launch := [], imm := [] })) s) s

/-! ### Operator commands (15 R583, 16 R622) -/

/-- The copy that an admission entry of filter 0xFF carries. -/
def copyOf (m : Tab Byte) (e : AdmEntry) : Option CmdCopy :=
  if (e.cls ≠ 5 && e.cls ≠ 6) || e.content.take 1 ≠ [0xFF] then none
  else
    let f := (e.content.drop 0x18).take (ofLe ((e.content.drop 2).take 2))
    let d := f.drop (payloadAt f)
    let n := 16 + ofLe ((d.drop 8).take 2)
    let p := ofLe (d.take 1)
    if !netPart m p then none
    else some { part := p, seq := ofLe ((d.drop 4).take 4), net := e.cls - 5, stamp := e.stamp, src := ofLe (fBytes f 6 6), bytes := d.take n }

/-- The pending fields of a copy's command. -/
def CmdCopy.pend (c : CmdCopy) : Pend :=
  { part := c.part, queue := ofLe ((c.bytes.drop 1).take 1), seq := BitVec.ofNat 32 c.seq, op := ofLe ((c.bytes.drop 2).take 2) }

/-- A command completed on the lead landing's run without having been outstanding. -/
def completeNew (x : Side) (c : CmdCopy) (st : Status) (s : State) : State :=
  if x ≠ s.lead then s
  else complete c.pend st [] false (s.modCq c.part c.pend.queue (fun q => { q with outstanding := q.outstanding + 1 }))

/-- A command accepted (15 R583, 16 R622): it enters its partition's command path, unless 16 are outstanding. -/
def acceptCopy (x : Side) (c : CmdCopy) (nets : List Nat) (s : State) : State :=
  let s := s.modEth x (fun e => { e with decided := (c.part, c.seq, s.tickNs x) :: e.decided })
  if x = s.lead && 16 ≤ (s.cq c.part c.pend.queue).outstanding then completeNew x c .queueFull s
  else
    let s := s.modEth x (fun e => { e with accepted := e.accepted ++ [c] })
    if x ≠ s.lead then s
    else
      let s := s.modCq c.part c.pend.queue (fun q => { q with outstanding := q.outstanding + 1 })
      s.modPart c.part (fun t => { t with lastAddr := c.src, lastNets := (t.lastNets ++ nets).eraseDups })

/-- `LATE` counted; a copy taken from the pending table. -/
def countLate (x : Side) (s : State) : State := s.modEth x (fun e => { e with late := satAdd 0xFF e.late 1 })
def dropCopy (x : Side) (c : CmdCopy) (s : State) : State := s.modEth x (fun e => { e with copies := e.copies.filter (· ≠ c) })

/-- A pending copy accepted alone (15 R583). Log entry 102 (DEDUCED, unsafe). -/
def acceptSingle (x : Side) (c : CmdCopy) (s : State) : State :=
  let s := (dropCopy x c s).modEth x (fun e => { e with single := satAdd 0xFF e.single 1 })
  raise (.landing x) 0x0B08 c.part (acceptCopy x c [c.net] s)

/-- The command content compared: from the partition field on. -/
def sameCommand (a b : CmdCopy) : Bool := a.bytes == b.bytes

/-- One copy (15 R583): the first matching row applies. -/
def matchCopy (x : Side) (c : CmdCopy) (s : State) : State :=
  let m := (s.ld x).fmn.img
  let e := (s.ld x).eth
  let like := fun (d : CmdCopy) => d.part = c.part && d.seq = c.seq
  let foreign : Bool := (s.part c.part).bound.elim false (fun a => decide (a ≠ c.src))
  if foreign then (if x = s.lead then raisePerSecond .cable 0x0C84 c.part c.part s else s)
  else if e.decided.any (fun d => d.1 = c.part && d.2.1 = c.seq && s.tickNs x ≤ d.2.2 + secNs) then
    raise (.landing x) 0x0B0A c.part (countLate x s)
  else if e.copies.any (fun d => like d && d.net = c.net) then countLate x s
  else match e.copies.find? (fun d => like d && d.net ≠ c.net) with
    | some d =>
      if d.stamp + 20000000 < c.stamp || c.stamp + 20000000 < d.stamp then
        raise (.landing x) 0x0B0A c.part (countLate x (acceptSingle x d s))
      else if sameCommand c d then
        acceptCopy x c [0, 1] ((dropCopy x d s).modEth x (fun e => { e with paired := satAdd 0xFF e.paired 1 }))
      else
        let s := (dropCopy x d s).modEth x (fun e => { e with
          differ := satAdd 0xFF e.differ 1, decided := (c.part, c.seq, s.tickNs x) :: e.decided })
        completeNew x c .integrity (raise (.landing x) 0x0B09 c.part s)
    | none =>
      if !netPaired m c.part then acceptCopy x c [c.net] s
      else if 64 ≤ e.copies.length then raise (.landing x) 0x0B0B c.part s
      else s.modEth x (fun e => { e with copies := e.copies ++ [c] })

/-- MATCH (15 R583). Log entry 102 (DEDUCED, unsafe). -/
def matchOp (x : Side) (s : State) : State :=
  let f := (s.ld x).fmn
  let s := s.modEth x (fun e => { e with
    accepted := [], decided := e.decided.filter (fun d => s.tickNs x ≤ d.2.2 + secNs) })
  let s := (f.admitted.filterMap (copyOf f.img)).foldl (fun s c => matchCopy x c s) s
  let old := (s.ld x).eth.copies.filter (fun c => c.stamp + 20000000 + 2 * (s.grid x).period < s.tickNs x)
  old.foldl (fun s c => acceptSingle x c s) s

/-- MATCH (15 R583). -/
def execMatch (at_ : Nat) (x : Side) (s : State) : Host.Outcome State Fault Refusal :=
  .next (runEntry x 0x0B 2 none none (fun _ => matchOp x) (advance at_ s))

/-! ### The reference (15 R585, R586) -/

/-- The reference state changed. -/
def State.modRef (s : State) (f : Reference → Reference) : State := { s with ref := f s.ref }

/-- A change of reference begins (15 R585): the external input is measured first. -/
def startReference (ext : Bool) (cmd : Option Pend) (boot : Bool) (s : State) : State :=
  s.modRef (fun r => { r with target := ext, state := if ext then 1 else 2, cmd := cmd, boot := boot })

/-- The final completion of a reference change. -/
def finishReference (st : Status) (s : State) : State :=
  match s.ref.cmd with
  | some c => complete c st [] false (s.modRef (fun r => { r with cmd := none }))
  | none => s

/-- ETH_SET_REFERENCE (15 R594). -/
def execEthSetReference (h : CmdHdr) (ext : Bool) (s : State) : Host.Outcome State Fault Refusal :=
  .next (hostCommand h 0x0B01
    (fun s => { level := 2, state := s.ref.ext != ext && s.ref.state = 0 })
    (fun s => { s := startReference ext (some (cmdOf h 0x0B01)) false s, st := .accepted }) s)

/-- REFERENCE_MEASURED (15 R585, 11 R431). -/
def referenceMeasured (ok : Bool) (s : State) : State :=
  let s := if ok then { s with sup := { s.sup with refPresent := true } } else s
  if s.ref.state ≠ 1 then s
  else if ok then s.modRef (fun r => { r with state := 2 })
  else
    let boot := s.ref.boot
    let s := finishReference .range (s.modRef (fun r => { r with state := 0, target := r.ext, boot := false }))
    if boot then eachSide (fun x => (s.ld x).slw.running || s.serves x) (fun x s => raise (.landing x) 0x120A 0 (s.modLd x (fun l => { l with slw := { l.slw with fallback := true } }))) s else s

/-- REFERENCE_MEASURED (15 R585). -/
def execReferenceMeasured (at_ : Nat) (ok : Bool) (s : State) : Host.Outcome State Fault Refusal :=
  .next (referenceMeasured ok (advance at_ s))

/-- REFERENCE_LOCK (15 R585, R594): on DONE the choice becomes the start option. -/
def referenceLock (s : State) : State :=
  if s.ref.state ≠ 2 then s
  else
    let had := s.ref.cmd.isSome
    let s := s.modRef (fun r => { r with ext := r.target, state := 0, boot := false })
    let s := raise .cable 0x0B0D (b2n s.ref.ext) s
    let s := if had then bkpPut 0x60 (leBytes 4 (b2n s.ref.ext)) s else s
    finishReference .done s

/-- REFERENCE_LOCK (15 R585). -/
def execReferenceLock (at_ : Nat) (s : State) : Host.Outcome State Fault Refusal := .next (referenceLock (advance at_ s))

/-- ETH_REF_LOST (15 R585, R586): while the input is measured, the change is refused. -/
def refLost (s : State) : State :=
  let s := { s with sup := { s.sup with refPresent := false } }
  if s.ref.state = 1 then referenceMeasured false s
  else if !s.ref.ext then s else raise .cable 0x0B0C 0 (s.modRef (fun r => { r with state := 3 }))

/-- ETH_REF_LOST (15 R586). -/
def execEthRefLost (at_ : Nat) (s : State) : Host.Outcome State Fault Refusal := .next (refLost (advance at_ s))

/-- REFERENCE_HOLD_END (15 R586): the slew to the TCXO begins. -/
def holdEnd (s : State) : State := if s.ref.state = 3 then s.modRef (fun r => { r with state := 2, target := false }) else s

/-- REFERENCE_HOLD_END (15 R586). -/
def execReferenceHoldEnd (at_ : Nat) (s : State) : Host.Outcome State Fault Refusal := .next (holdEnd (advance at_ s))

/-! ### A step of module time (15 R587) -/

/-- The fusion engine uninitialised, its histories and clock models restarted, the record not `VALID` (15 R587, 06 R245). -/
def restartFusion (l : Landing) : Landing :=
  let l := putAll l [(0x30054100, leBytes 12 0 ++ leBytes 1 4 ++ leBytes 147 0)]
  { l with fus := { l.fus with
    closed := none, start := l.fmn.crossing, streams := l.fus.streams.map (fun e => (e.1, ({ excl := e.2.excl } : FusStream))),
    x := [], p := [], input := [], posInit := false, headInit := false, posVar := 0, headVar := 0, hist := [], histFrom := 0,
    tLast := none, levels := [], level := 4, motion := [], due := true } }

/-- An axis's instants moved on by `d` ns. -/
def shiftAxis (d : Nat) (ax : Axis) : Axis :=
  let g := fun (k : AxeSeg) => { k with start := k.start + d }
  { ax with origin := ax.origin + (d : Int), wasOrigin := ax.wasOrigin + (d : Int), seg := ax.seg.map g, next := ax.next.map g, queued := ax.queued.map (fun q => (q.1, q.2 + d)) }

/-- The instants of a landing moved on by `d` ns: those defined from the manifest start tick, the steering, the command copies. -/
def shiftLanding (d : Nat) (l : Landing) : Landing :=
  { l with
    axe := { l.axe with
      axes := l.axe.axes.map (fun e => (e.1, shiftAxis d e.2))
      buses := l.axe.buses.map (fun e => (e.1, { e.2 with last := e.2.last.map (· + d) }))
      reserved := l.axe.reserved.map (fun h => { h with ends := h.ends + d, at_ := h.at_ + d, place := (h.place.1, h.place.2 + d) }) }
    can := { l.can with start := l.can.start + d }
    gns := { l.gns with
      magStart := l.gns.magStart + d
      ants := l.gns.ants.map (fun e => (e.1, { e.2 with
        time := e.2.time + d * nsUnit, outU := if e.2.outU = 0 then 0 else e.2.outU + d, outL := if e.2.outL = 0 then 0 else e.2.outL + d }))
      steer := { l.gns.steer with
        o := l.gns.steer.o + (d : Int) * 2 ^ 32, co := l.gns.steer.co + (d : Int) * 2 ^ 32, oe := l.gns.steer.oe + (d : Int) * 2 ^ 32,
        t := l.gns.steer.t + d, ct := l.gns.steer.ct + d, lastAcc := l.gns.steer.lastAcc + d, lockTick := l.gns.steer.lockTick + d,
        edge := l.gns.steer.edge + (d : Int) } }
    memi := { l.memi with leakAt := l.memi.leakAt + d }
    slw := { l.slw with started := l.slw.started + d, entered := l.slw.entered + d }
    eth := { l.eth with
      ports := l.eth.ports.map (fun e => (e.1, { e.2 with busy := e.2.busy + d }))
      copies := l.eth.copies.map (fun c => { c with stamp := c.stamp + d })
      decided := l.eth.decided.map (fun c => (c.1, c.2.1, c.2.2 + d)) } }

/-- The timers of the cable die moved on by `d` ns, so that they run the time they have still to run. -/
def shiftTimers (d : Nat) (s : State) : State :=
  { s with
    bol := { s.bol with start := s.bol.start + d }
    tbs := s.tbs.map (fun e => (e.1, { e.2 with
      o := F64.sub e.2.o (fN d), t := e.2.t + d * nsUnit, lastSync := e.2.lastSync + d, lastA := e.2.lastA.map (· + d) }))
    tp := { s.tp with rise := s.tp.rise.map (fun e => (e.1, e.2 + d)), fall := s.tp.fall.map (fun e => (e.1, e.2 + d)) }
    pur := { s.pur with
      parts := s.pur.parts.map (fun e => (e.1, { e.2 with
        lastPass := e.2.lastPass + d, lockoutEnd := e.2.lockoutEnd.map (· + d),
        challenge := e.2.challenge.map (fun c => { c with time := c.time + d }) }))
      holds := s.pur.holds.map (fun e => (e.1, e.2.map (fun h => { h with last := h.last + d }))) }
    arb := { s.arb with change := s.arb.change.map (fun c => { c with deadline := c.deadline + d }) } }

/-- Module time stepped by `d` ns (15 R587). Log entry 84 (DEDUCED, unsafe). -/
def stepTime (d : Nat) (s : State) : State :=
  let s := { s with now := s.now + d * nsUnit, tick := { s.tick with
    last := s.tick.last + d * nsUnit, gridA := { s.tick.gridA with last := s.tick.gridA.last + d * nsUnit },
    gridB := { s.tick.gridB with last := s.tick.gridB.last + d * nsUnit } } }
  let s := eachSide (fun _ => true) (fun x s => s.modLd x (fun l => restartFusion (shiftLanding d l))) (shiftTimers d s)
  let s := (List.range 8).foldl (fun s p => s.modCanPort p (fun r => { r with disc := true })) s
  eachSide (fun x => s.inStep x) (fun x s => raise (.landing x) 0x0B0E 0 s) s

/-- ETH_STEP_TIME (15 R587, R594). -/
def execEthStepTime (h : CmdHdr) (step : Nat) (s : State) : Host.Outcome State Fault Refusal :=
  .next (hostCommand h 0x0B02
    (fun _ => { level := 2, modes := [1], range := 1 ≤ step && step ≤ 2 ^ 62 })
    (fun s => done (stepTime step s)) s)

/-! ### Peer delay and time bases (15 R589 to R592) -/

/-- PDELAY_REQUEST (15 R589): a request unanswered is counted; the next goes out. -/
def pdelayStep (x : Side) (p : Nat) (s : State) : State :=
  let m := (s.ld x).fmn.img
  if !ethOn s x || 4 ≤ p || !netP2p m (p / 2) then s
  else
    let k := (s.ld x).eth.port p
    let miss := if k.asked then k.miss + 1 else 0
    let s := if miss = 3 then raise (.landing x) 0x0B10 p s else s
    let seq := (k.seq + 1) % 65536
    let s := s.modEthPort x p (fun k => { k with seq := seq, asked := true, t1 := none, miss := miss })
    queueFrame x p { bytes := ptpFrame m peerAddr 2 0 0 p seq 0x7F (ptpStamp 0 ++ List.replicate 10 0) } s

/-- PDELAY_REQUEST (15 R589). -/
def execPdelayRequest (at_ : Nat) (x : Side) (p : Nat) (s : State) : Host.Outcome State Fault Refusal :=
  .next (pdelayStep x p (advance at_ s))

/-- The path delay of time base `b` for a Sync on port `p`, in FP64 ns (15 R591): before the first round trip, which states no delay, a free
value. Log entry 101 (DEDUCED, unsafe). -/
def pathDelay (s : State) (b p : Nat) : F64 :=
  let x := s.lead
  if netP2p (s.ld x).fmn.img (p / 2) then F64.ofDyadic ((s.ld x).eth.port p).delay (-16)
  else
    let t := (s.tb b).trips
    if t.isEmpty then Config.freeWord s.free else F64.div (F64.ofDyadic (t.foldl (· + ·) 0) (-17)) (fN t.length)

/-- A Sync is taken by time base `b` (15 R591): its network, and its master. -/
def syncTaken (s : State) (b p ident : Nat) : Bool :=
  let m := (s.ld s.lead).fmn.img
  let t := s.tb b
  let net := p / 2
  let conf := le m (tbDesc m b + 8) 10
  let lately := match t.lastA with
    | some a => s.nowNs < a + le m (tbDesc m b + 6) 2 * 1000000
    | none => false
  s.activeSide.isSome && tbRole m b = 1 && p < 4 && b < 4 && (tbNet m b = net + 1 || (tbNet m b = 3 && (net = 0 || !lately)))
    && (if conf = 0 then t.master = 0 || t.master = ident + 1 else conf = ident)

/-- SYNC_RECEIVED (15 R591): the servo. Log entry 101 (DEDUCED, unsafe). -/
def syncStep (b p rx : Nat) (tm : Int) (ident : Nat) (s : State) : State :=
  if !syncTaken s b p ident then s
  else
    let m := (s.ld s.lead).fmn.img
    let t := s.tb b
    let r := F64.ofDyadic (rx : Nat) (-16)
    let md := F64.add (F64.ofDyadic tm (-16)) (pathDelay s b p)
    let e := F64.sub md (tbValue s b rx)
    let thr := fN (le m (tbDesc m b + 0x1C) 4)
    let small := F64.lt (F64.abs e) thr
    let alpha := F32.widen (BitVec.ofNat 32 (le m (tbDesc m b + 0x14) 4))
    let beta := F32.widen (BitVec.ofNat 32 (le m (tbDesc m b + 0x18) 4))
    let err := F64.toInt e 0 (-(2 ^ 63)) (2 ^ 63 - 1)
    let s := { s with free := s.free + 1 }.modTb b (fun t => { t with
      lastSync := s.nowNs, lastA := if p / 2 = 0 then some s.nowNs else t.lastA, master := ident + 1, err := err })
    let free := fun (t : TimeBase) => { t with o := F64.sub md r, r := 0, t := rx, step := true }
    match t.state with
    | 1 =>
      let run := if small then t.run + 1 else 0
      let s := s.modTb b (fun t => { free t with run := if 8 ≤ run then 0 else run, state := if 8 ≤ run then 2 else 1 })
      if 8 ≤ run then raise .cable 0x0B12 b s else s
    | 2 =>
      if !small then raise .cable 0x0B11 b (s.modTb b free)
      else
        let dt := F64.sub r (F64.ofDyadic (t.t : Nat) (-16))
        s.modTb b (fun t => { t with
          o := F64.add (F64.add t.o (F64.mul t.r dt)) (F64.mul alpha e), r := F64.add t.r (F64.div (F64.mul beta e) dt), t := rx, step := false })
    | 3 => s.modTb b (fun t => { free t with state := 2, run := 0 })
    | _ => s

/-- SYNC_RECEIVED (15 R591). -/
def execSyncReceived (at_ b p rx : Nat) (tm : Int) (ident : Nat) (s : State) : Host.Outcome State Fault Refusal :=
  .next (syncStep b p rx tm ident (advance at_ s))

/-- ETH_TB_LOST (15 R591): no Sync within the timeout. -/
def tbLost (b : Nat) (s : State) : State :=
  let m := (s.ld s.lead).fmn.img
  let t := s.tb b
  if t.state = 2 && t.lastSync + le m (tbDesc m b + 6) 2 * 1000000 ≤ s.nowNs then
    raise .cable 0x0B0F b (s.modTb b (fun t => { t with state := 3, master := 0, run := 0 }))
  else s

/-- ETH_TB_LOST (15 R591). -/
def execEthTbLost (at_ b : Nat) (s : State) : Host.Outcome State Fault Refusal := .next (tbLost b (advance at_ s))

/-- A message of a time base put on every port of its networks, without an output key (15 R591, R592). -/
def sendTb (b : Nat) (f : Nat → EthFrame) (s : State) : State :=
  match s.activeSide with
  | none => s
  | some x =>
    if !s.passes x then s
    else (egressPorts (tbNet (s.ld x).fmn.img b) 3).foldl (fun s p => queueFrame x p (f p) s) s

/-- DELAY_REQ_TRANSMIT (15 R591): the last round trip taken, the next request sent. -/
def delayReq (b : Nat) (trip : Option Int) (s : State) : State :=
  let m := (s.ld s.lead).fmn.img
  if tbRole m b ≠ 1 || 4 ≤ b then s
  else
    let s := s.modTb b (fun t => { t with
      trips := (match trip with
        | some d => (d :: t.trips).take 8
        | none => t.trips),
      seqd := (t.seqd + 1) % 65536 })
    let seq := (s.tb b).seqd
    let net := (List.range 2).filter (fun n => bitOf (tbNet m b) n && !netP2p m n)
    match s.activeSide with
    | none => s
    | some x =>
      if !s.passes x then s
      else net.foldl (fun s n => [0, 1].foldl (fun s d =>
        queueFrame x (2 * n + d) { bytes := padFrame (ptpFrame m ptpMulti 1 (le m (tbDesc m b + 1) 1) 0 (2 * n + d) seq 0x7F (ptpStamp 0)) } s) s) s

/-- DELAY_REQ_TRANSMIT (15 R591). -/
def execDelayReqTransmit (at_ b : Nat) (trip : Option Int) (s : State) : Host.Outcome State Fault Refusal :=
  .next (delayReq b trip (advance at_ s))

/-- The clockClass of a master time base (15 R592). -/
def clockClass (s : State) (b : Nat) : Nat :=
  let m := (s.ld s.lead).fmn.img
  let t := (s.ld s.lead).gns.steer
  if le m (tbDesc m b + 3) 1 = 1 then
    if t.state = 1 || t.state = 3 then 6 else if t.state = 2 && !t.limitHit then 7 else 248
  else 248

/-- GPS minus UTC in whole seconds: of the latest `VALID` record with `UTC_VALID`, else of the saved aiding (05, 17). -/
def gpsUtc (s : State) : Nat :=
  let g := (s.ld s.lead).gns
  match [0, 1].findSome? (fun a =>
    let d := Tab.get [] g.pos a
    if bitOf (ofLe ((d.drop 0x64).take 2)) 3 then some (ofLe ((d.drop 0x63).take 1)) else none) with
  | some v => v
  | none => bkpByte s 0x22

/-- The body of an Announce (15 R592; IEEE 1588-2019); the fields the spec does not state are free values. Log entry 100 (DEDUCED, unsafe). -/
def announceBody (s : State) (b : Nat) : List Byte :=
  let m := (s.ld s.lead).fmn.img
  ptpStamp 0 ++ beBytes 2 (gpsUtc s + 19) ++ [0] ++ beBytes 1 (le m (tbDesc m b + 5) 1) ++ beBytes 1 (clockClass s b)
    ++ [Config.ptpByte 1, Config.ptpByte 2, Config.ptpByte 3, Config.ptpByte 4] ++ clockIdent m ++ beBytes 2 0 ++ [Config.ptpByte 5]

/-- MASTER_MESSAGE_TRANSMIT (15 R592). -/
def masterMessage (b : Nat) (announce : Bool) (s : State) : State :=
  let m := (s.ld s.lead).fmn.img
  if tbRole m b ≠ 2 || 4 ≤ b then s
  else
    let dom := le m (tbDesc m b + 1) 1
    if announce then
      let s := s.modTb b (fun t => { t with seqa := (t.seqa + 1) % 65536 })
      let body := announceBody s b
      sendTb b (fun p => { bytes := padFrame (ptpFrame m ptpMulti 11 dom 0 p (s.tb b).seqa 0 body) }) s
    else
      let s := s.modTb b (fun t => { t with seqs := (t.seqs + 1) % 65536 })
      sendTb b (fun p => { bytes := padFrame (ptpFrame m ptpMulti 0 dom 0 p (s.tb b).seqs (le m (tbDesc m b + 4) 1) (ptpStamp 0)), tb := some b }) s

/-- MASTER_MESSAGE_TRANSMIT (15 R592). -/
def execMasterMessageTransmit (at_ b : Nat) (announce : Bool) (s : State) : Host.Outcome State Fault Refusal :=
  .next (masterMessage b announce (advance at_ s))

/-! ### Start, registers and load checks (15 R593, R578) -/

/-- A register of the block now; counts that clear on read included. -/
def ethNow (s : State) (x : Side) (o : Nat) : Nat :=
  let e := (s.ld x).eth
  if o = 0 then e.links % 16 + b2n (s.ld x.other).eth.bypass * 16 + b2n s.ref.ext * 256 + s.ref.state * 512
  else if o = 0x18 then e.paired + e.single * 256 + e.differ * 65536 + e.late * 2 ^ 24
  else if o < 0x180 then
    let p := e.port ((o - 0x100) / 0x20)
    match o % 0x20 with
    | 0x00 => p.rx + p.rxErr * 65536
    | 0x04 => p.tx + p.txDrop * 65536
    | _ => (BitVec.ofInt 32 p.delay).toNat
  else
    let b := (o - 0x200) / 0x10
    let t := s.tb b
    let v := (BitVec.ofInt 64 (F64.toInt (tbValue s b s.now) 0 (-(2 ^ 96)) (2 ^ 96))).toNat
    match o % 0x10 with
    | 0x00 => t.state + b2n t.step * 8 + le (s.ld s.lead).fmn.img (tbDesc (s.ld s.lead).fmn.img b + 1) 1 * 256 * b2n (t.state ≠ 0)
    | 0x04 => if t.state = 0 then 0 else lo32 v
    | 0x08 => if t.state = 0 then 0 else hi32 v
    | _ => (BitVec.ofInt 32 (max (-(2 ^ 31)) (min (2 ^ 31 - 1) t.err))).toNat

/-- The Ethernet block at a manifest start: links, bypass, queues and counts stay. -/
def startEth (l : Landing) : Landing := { l with eth := { l.eth with keys := [], copies := [], decided := [], accepted := [] } }

/-- The time bases at a manifest start (15 R590 to R592). Log entry 88 (DEDUCED, unsafe). -/
def startTbs (s : State) : State :=
  let m := (s.ld s.lead).fmn.img
  { s with tbs := (List.range 4).foldl (fun t b =>
      match tbRole m b with
      | 1 => Tab.set {} t b { state := 1, lastSync := s.nowNs }
      | 2 => Tab.set {} t b { state := 4, o := F64.mul (fN (le m (tbDesc m b + 0x1C) 4)) (fN 1000000) }
      | _ => t) [] }

/-- The registers at a tick. -/
def showEth (s : State) (x : Side) : State :=
  s.modEth x (fun e => { e with shown := ethOffsets.foldl (fun t o => Tab.set 0 t o (ethNow s x o)) [] })

/-- The dispatches of a pattern to the Ethernet unit (15 R578); `need` asks for the one MATCH, after the admission list. -/
def ethOpsOk (m : Tab Byte) (need : Bool) (p : Nat) : Bool :=
  let ds := (dispatches m p).filter (fun e => e.unit = 0x0B)
  let ms := ds.filter (fun e => e.op = 2)
  ds.all (fun e => (e.op = 1 && e.job ≤ 31) || (e.op = 2 && e.job = 0))
    && (!need || (ms.length = 1 && ms.all (fun e => 1600 ≤ e.cycle)))

/-- The header of the Ethernet part in range, in a part of `len` bytes (15 R593). -/
def ethHeadOk (m : Tab Byte) (len : Nat) : Bool :=
  len = 64 + 512 + 128 && ethHdr m 6 1 < 16 && ethHdr m 8 2 ≤ 2000 && ethHdr m 0xA 2 ≤ 2000 && ethHdr m 0xC 2 ≤ 100
    && (List.range 50).all (fun k => ethHdr m (0xE + k) 1 = 0)

/-- A time base descriptor in range (15 R593); one not used is not looked into. Log entry 99 (DEDUCED, unsafe). -/
def tbOk (m : Tab Byte) (b : Nat) : Bool :=
  let d := tbDesc m b
  let sync := sval 8 (le m (d + 4) 1)
  let unit := fun (k : Nat) => let v : F32 := BitVec.ofNat 32 (le m k 4); F32.le 0 v && F32.le v (F64.narrow (fN 1))
  le m d 1 ≤ 2 && (le m d 1 = 0 || (le m (d + 1) 1 ≤ 127 && 1 ≤ le m (d + 2) 1 && le m (d + 2) 1 ≤ 3 && le m (d + 3) 1 ≤ 1
    && decide ((-4 : Int) ≤ sync) && decide (sync ≤ 1) && 500 ≤ le m (d + 6) 2 && le m (d + 6) 2 ≤ 10000 && le m (d + 0x12) 2 = 0
    && unit (d + 0x14) && unit (d + 0x18)
    && (List.range b).all (fun c => tbRole m c = 0 || le m (tbDesc m c + 1) 1 ≠ le m (d + 1) 1)))

/-- The Ethernet part refused (15 R593, R578): the image offset of the fault; the operations are checked without a part too. -/
def ethPartBad (m : Tab Byte) : Option Nat :=
  let need := ethHdr m 7 1 % 16 ≠ 0
  let ops := (List.range (patternCount m)).all (ethOpsOk m false)
    && (List.range (imgCycle m)).all (fun i => ethOpsOk m need (cyclePattern m i))
  match enginePart m 0x0B with
  | none => if ops then none else some ((sectionOf m 0x0001).elim 0 (fun c => c.off))
  | some (o, len) =>
    let filt := fun (i : Nat) => le m (filterOff m i + 8) 1 < 8 && le m (filterOff m i + 9) 7 = 0
    if !ethHeadOk m len || !ops then some o
    else match (List.range 32).find? (fun i => !filt i) with
      | some i => some (filterOff m i)
      | none => ((List.range 4).find? (fun b => !tbOk m b)).map (tbDesc m)

end Sys2Proof.Machine
end

