-- ==== Sys2Proof/Machine/Bollard.lean ====
section
/-!
DEFINITION. The Bollard safety functions (chapter 13): the parameter block and its checks, the start in stage S1, the evaluation cycle,
safe telegrams, the stop of Adrift, the host commands.
-/
namespace Sys2Proof.Machine

/-! ### The parameter block (13 R494 to R500) -/

def blkMagic : Nat := 0x504C4F42

/-- Bytes of the block that must be 0. -/
def blkZero (b : List Byte) (o n : Nat) : Bool := ((b.drop o).take n).all (· == 0)

/-- The descriptors' places. -/
def bIn (n : Nat) : Nat := 0x020 + 8 * n
def bOut (o : Nat) : Nat := 0x0A0 + 8 * o
def bEnc (e : Nat) : Nat := 0x0E0 + 16 * e
def bConn (c : Nat) : Nat := 0x120 + 32 * c
def bFn (k : Nat) : Nat := 0x220 + 32 * k

/-- Magic, version and length are right (13 R524). -/
def blkFormat (b : List Byte) : Bool :=
  b.length = 1060 && bolNum b 0 4 = blkMagic && bolNum b 4 2 = 1 && bolNum b 8 4 = 1060

/-- The block's check value (13 R494). -/
def blkCrc (b : List Byte) : Bool := crc32 (b.take 0x420) = bolNum b 0x420 4

/-- An input's type; a used encoder; a used connection that receives, that transmits. -/
def inType (b : List Byte) (n : Nat) : Nat := if n < 16 then bolNum b (bIn n) 1 else 0
def encUsed (b : List Byte) (e : Nat) : Bool := e < 4 && bitOf (bolNum b (bEnc e) 1) 0
def connUsed (b : List Byte) (c : Nat) : Bool := c < 8 && bitOf (bolNum b (bConn c) 1) 0
def connRx (b : List Byte) (c : Nat) : Bool := connUsed b c && bitOf (bolNum b (bConn c) 1) 1
def connTx (b : List Byte) (c : Nat) : Bool := connUsed b c && bitOf (bolNum b (bConn c) 1) 2

def within (v lo hi : Nat) : Bool := lo ≤ v && v ≤ hi

/-- An input descriptor passes (13 R495). -/
def inOk (b : List Byte) (n : Nat) : Bool :=
  let t := inType b n
  t = 0 || (t ≤ 5 && within (bolNum b (bIn n + 1) 1) 1 8 && within (bolNum b (bIn n + 2) 2) 10 500 && blkZero b (bIn n + 4) 4)

/-- Functions that name output `o`. -/
def outNamed (b : List Byte) (o : Nat) : List Nat :=
  (List.range 16).filter (fun k => bolNum b (bFn k) 1 ≠ 0 && bitOf (bolNum b (bFn k + 5) 1) o)

def outEnabled (b : List Byte) (o : Nat) : Bool := bitOf (bolNum b (bOut o) 1) 0
def outFeedback (b : List Byte) (o : Nat) : Option Nat :=
  let f := bolNum b (bOut o + 2) 1
  if f = 0xFF then none else some f

/-- An output descriptor passes (13 R496, R500). -/
def outOk (b : List Byte) (o : Nat) : Bool :=
  bolNum b (bOut o) 1 < 4 && (!outEnabled b o || (within (bolNum b (bOut o + 1) 1) 10 40 && !(outNamed b o).isEmpty
    && (outFeedback b o).elim true (fun f => inType b f = 5 && within (bolNum b (bOut o + 4) 2) 10 500)))
    && blkZero b (bOut o + 3) 1 && blkZero b (bOut o + 6) 2

/-- An encoder descriptor passes (13 R497). -/
def encOk (b : List Byte) (e : Nat) : Bool :=
  !encUsed b e || (bolNum b (bEnc e) 1 < 4 && within (bolNum b (bEnc e + 1) 1) 4 64 && 1 ≤ bolNum b (bEnc e + 2) 2
    && blkZero b (bEnc e + 4) 12)

/-- A connection descriptor passes (13 R498, R500). -/
def connOk (b : List Byte) (c : Nat) : Bool :=
  let id := bolNum b (bConn c + 2) 2
  let tx := bolNum b (bConn c + 0xA) 2
  !connUsed b c || (bolNum b (bConn c) 1 < 8 && within (bolNum b (bConn c + 1) 1) 1 3 && within id 1 65534
    && ((List.range 8).filter (fun d => connUsed b d && bolNum b (bConn d + 2) 2 = id)).length = 1
    && (!connRx b c || within (bolNum b (bConn c + 8) 2) 10 1000)
    && (if connTx b c then within tx 5 500 else tx = 0) && blkZero b (bConn c + 0x12) 14)

/-- The fields of function `k` (13 R499). -/
def fnType (b : List Byte) (k : Nat) : Nat := bolNum b (bFn k) 1
def fnA (b : List Byte) (k : Nat) : Nat := bolNum b (bFn k + 1) 1
def fnB (b : List Byte) (k : Nat) : Nat := bolNum b (bFn k + 2) 1
def fnReset (b : List Byte) (k : Nat) : Nat := bolNum b (bFn k + 3) 1
def fnCat (b : List Byte) (k : Nat) : Nat := bolNum b (bFn k + 4) 1
def fnOuts (b : List Byte) (k : Nat) : Nat := bolNum b (bFn k + 5) 1
def fnAdrift (b : List Byte) (k : Nat) : Bool := bitOf (bolNum b (bFn k + 6) 1) 0
def fnStop (b : List Byte) (k : Nat) : Nat := bolNum b (bFn k + 8) 2
def fnP1 (b : List Byte) (k : Nat) : Nat := bolNum b (bFn k + 0xC) 4
def fnP2 (b : List Byte) (k : Nat) : Nat := bolNum b (bFn k + 0x10) 4

/-- A reset source that is a telegram bit, as (connection, bit). -/
def resetBit (r : Nat) : Option (Nat × Nat) := if 0x10 ≤ r && r < 0x90 then some ((r - 0x10) / 16, (r - 0x10) % 16) else none

/-- The reset source is allowed for the type (13 R504). -/
def resetOk (b : List Byte) (k : Nat) : Bool :=
  let t := fnType b k
  let r := fnReset b k
  if t = 4 then r = 0xFF
  else if r = 0xFE then t = 2 || t = 3 || t = 5
  else if r < 0x10 then inType b r = 4
  else (resetBit r).elim false (fun c => connRx b c.1)

/-- The sources are of the types of R504 and used. -/
def sourcesOk (b : List Byte) (k : Nat) : Bool :=
  let two := fun (n : Nat) => inType b n = 1 || inType b n = 2
  match fnType b k with
  | 1 | 2 => two (fnA b k) && fnB b k = 0xFF
  | 3 => inType b (fnA b k) = 3 && fnB b k = 0xFF
  | 4 => two (fnA b k) && two (fnB b k) && fnA b k ≠ fnB b k
  | 5 => connRx b (fnA b k) && fnB b k < 16
  | _ => encUsed b (fnA b k) && fnB b k = 0xFF

/-- A function descriptor passes (13 R499, R500, R504). -/
def fnOk (b : List Byte) (k : Nat) : Bool :=
  let t := fnType b k
  t = 0 || (t ≤ 8 && sourcesOk b k && resetOk b k && bolNum b (bFn k + 6) 1 < 2
    && (if fnCat b k = 0 then fnStop b k = 0 else fnCat b k = 1 && within (fnStop b k) 1 10000)
    && (t ≠ 8 || fnP1 b k ≤ 1)
    && blkZero b (bFn k + 7) 1 && blkZero b (bFn k + 0xA) 2 && blkZero b (bFn k + 0x14) 12)

/-- The block passes the range checks of R494 to R500. Log entry 92 (DEDUCED, unsafe). -/
def blkRange (b : List Byte) : Bool :=
  1 ≤ bolNum b 6 1 && within (bolNum b 7 1) 1 60 && blkZero b 0x10 16
    && (List.range 16).all (inOk b) && (List.range 8).all (outOk b) && (List.range 4).all (encOk b)
    && (List.range 8).all (connOk b) && (List.range 16).all (fnOk b)

def blkOk (b : List Byte) : Bool := blkFormat b && blkCrc b && blkRange b

/-- The switches the block needs are set (13 R492). -/
def blkAllowed (b : List Byte) (ssw : Nat) : Bool :=
  (bitOf ssw 1 || (List.range 16).all (fun k => !(within (fnType b k) 6 8)))
    && (bitOf ssw 2 || (List.range 8).all (fun c => !connUsed b c))

/-! ### The start (13 R490 to R492, R503) -/

/-- The slot of bank `k` (0 or 1). -/
def Bollard.slot (b : Bollard) (k i : Nat) : List Byte := Tab.get [] b.slots (2 * k + i)

/-- The block of generation `g` that a bank takes (13 R492). Log entry 92 (DEDUCED, unsafe). -/
def Bollard.take (b : Bollard) (k g ssw : Nat) : Option (List Byte) :=
  ([0, 1].map (b.slot k)).find? (fun c => blkOk c && bolNum c 6 1 = g && blkAllowed c ssw)

/-- The switches are valid, steady and alike (13 R492): `r` holds the five samples of both banks as (true pins, complement pins). -/
def switchesOk (r : List (Nat × Nat)) : Bool :=
  match r with
  | [] => false
  | (t, c) :: _ => r.all (fun q => q = (t, c)) && t < 65536 && t + c = 0xFFFF && t / 8 % 32 = 0

/-- The Bollard with a block in force, at the end of S1, the instant `t` in ns (13 R487, R503, R509, R520). -/
def Bollard.begin_ (t : Nat) (b : Bollard) (g ssw : Nat) (blk : List Byte) : Bollard :=
  { b with
    live := true, start := t, gen := g, block := blk, ssw := ssw, sswLive := 0xFFFF, cycle := 0,
    fns := (List.range 16).foldl (fun t k => if within (fnType blk k) 6 8 then Tab.set {} t k { st := 4 } else t) [] }

/-- Stage S1 (13 R492) with the switch samples; the answer's second part says that it completed. -/
def bolS1 (samples : List (Nat × Nat)) (s : State) : State × Bool :=
  let b := s.bol
  let ssw := (samples.headD (0, 0)).1
  let g := ssw / 256
  let s' := { s with bol := { b with ssw := ssw } }
  if !switchesOk samples then (raise .cable 0x0E14 0 s', false)
  else if g = 0 then (raise .cable 0x0E17 0 { s with bol := b.begin_ s.nowNs 0 ssw [] }, true)
  else
    match b.take 0 g ssw, b.take 1 g ssw with
    | some p, some q => if p = q then ({ s with bol := b.begin_ s.nowNs g ssw p }, true) else (raise .cable 0x0E16 g s', false)
    | _, _ => (raise .cable 0x0E16 g s', false)

/-! ### Inputs and encoders (13 R501, R502, R508, R509, R514) -/

/-- The Bollard's working data in a cycle: itself and the codes raised so far, with their details. -/
structure BolWork where
  b : Bollard
  ev : List (Nat × Nat) := []

def BolWork.raise_ (w : BolWork) (code detail : Nat) : BolWork := { w with ev := w.ev ++ [(code, detail)] }
def BolWork.mod (w : BolWork) (f : Bollard → Bollard) : BolWork := { w with b := f w.b }

def Bollard.modFn (b : Bollard) (k : Nat) (f : BolFn → BolFn) : Bollard := { b with fns := Tab.upd {} b.fns k f }
def Bollard.modOch (b : Bollard) (i : Nat) (f : BolOutCh → BolOutCh) : Bollard := { b with outCh := Tab.upd {} b.outCh i f }
def Bollard.modOut (b : Bollard) (i : Nat) (f : BolOut → BolOut) : Bollard := { b with outs := Tab.upd {} b.outs i f }

/-- The level as a bit. -/
def levBit (l : Nat) : Bool := l = 1 || l = 2

/-- The filter time of a channel in ns (13 R501). -/
def filterNs (b : Bollard) (i : Nat) : Nat :=
  (if inType b.block (i % 16) = 0 then 1 else bolNum b.block (bIn (i % 16) + 1) 1) * 1000000

/-- A channel at instant `t`: its filtered state follows a level held for the filter time. -/
def settleChan (f t : Nat) (c : BolChan) : BolChan :=
  if levBit c.lev ≠ c.filt && c.since + f ≤ t then { c with filt := levBit c.lev } else c

/-- A level change at instant `t`. -/
def edgeIn (f t lev : Nat) (c : BolChan) : BolChan :=
  let c := settleChan f t c
  { c with lev := lev, since := if levBit lev = levBit c.lev then c.since else t, range := if lev = c.lev then c.range else t }

/-- The input channels sampled at the start of the cycle (13 R487, R501). -/
def sampleIn (p : BolPins) (b : Bollard) : Bollard :=
  let t := b.cycle * 1000000
  let b := p.edges.foldl (fun b e =>
    { b with chans := Tab.upd {} b.chans e.1 (edgeIn (filterNs b e.1) e.2.1 e.2.2) }) b
  (List.range 32).foldl (fun b i => { b with chans := Tab.upd {} b.chans i (settleChan (filterNs b i) t) }) b

/-- The range condition of a channel that has stood for 1 ms: 1 high, 2 low (13 R514). -/
def pinState (b : Bollard) (i : Nat) : Nat :=
  let c := b.chan i
  if 2 ≤ c.lev && c.range + 1000000 ≤ b.cycle * 1000000 then (if c.lev = 2 then 1 else 2) else 0

/-- Bank `k` (0 or 1) evaluates (13 R488). -/
def bankUp (s : State) (k : Nat) : Bool := if k = 0 then s.bank1 else s.bank2

/-- Channel `k` of input `n` is at its safe level (13 R488, R502, R514). Log entry 115 (DEDUCED, unsafe). -/
def chanSafe (s : State) (b : Bollard) (n k : Nat) : Bool :=
  let i := 16 * k + n
  if !bankUp s k || Tab.get 0 b.pinBad i ≠ 0 then true
  else if inType b.block n = 2 && k = 1 then (b.chan i).filt else !(b.chan i).filt

/-- The logical value of an input (13 R502). -/
def inValue (s : State) (b : Bollard) (n : Nat) : Bool :=
  inType b.block n ≠ 0 && !chanSafe s b n 0 && !chanSafe s b n 1 && !(b.inp n).latched

/-- Function `k` uses input `n`, encoder `e`. -/
def usesIn (b : Bollard) (k n : Nat) : Bool :=
  let t := fnType b.block k
  t ≠ 0 && ((t ≤ 4 && fnA b.block k = n) || (t = 4 && fnB b.block k = n) || (fnReset b.block k = n && n < 16))
def usesEnc (b : Bollard) (k e : Nat) : Bool := within (fnType b.block k) 6 8 && fnA b.block k = e

/-- Functions satisfying `c` enter FAULT with the cause code (13 R503, R511). -/
def faultFns (c : Nat → Bool) (code : Nat) (w : BolWork) : BolWork :=
  w.mod (fun b => (List.range 16).foldl (fun b k =>
    if fnType b.block k ≠ 0 && c k && (b.fn k).st ≠ 3 then b.modFn k (fun f => { f with st := 3, cause := code % 256 }) else b) b)

/-- Pin range checks (13 R514). -/
def checkPins (w : BolWork) : BolWork :=
  (List.range 32).foldl (fun w i =>
    let n := pinState w.b i
    let was := Tab.get 0 w.b.pinBad i
    let w := w.mod (fun b => { b with pinBad := Tab.set 0 b.pinBad i n })
    if n ≠ 0 && was = 0 && inType w.b.block (i % 16) ≠ 0 then
      faultFns (fun k => usesIn w.b k (i % 16)) 0x0E09 (w.raise_ 0x0E09 i) else w) w

/-- Discrepancy checks (13 R502). -/
def checkDisc (s : State) (w : BolWork) : BolWork :=
  (List.range 16).foldl (fun w n =>
    if inType w.b.block n = 0 then w
    else
      let a := chanSafe s w.b n 0
      let c := chanSafe s w.b n 1
      let p := w.b.inp n
      let set := fun (w : BolWork) (q : BolInp) => w.mod (fun b => { b with inps := Tab.set {} b.inps n q })
      if a = c then set w { disc := 0, latched := p.latched && !a }
      else if bolNum w.b.block (bIn n + 2) 2 ≤ p.disc && !p.latched then
        faultFns (fun k => usesIn w.b k n) 0x0E03 ((set w { p with latched := true }).raise_ 0x0E03 n)
      else set w { p with disc := p.disc + 1 }) w

/-- Switch checks (13 R493): a switch invalid or changed in 10 consecutive cycles; the answer lists those found now. -/
def checkSwitches (p : BolPins) (w : BolWork) : BolWork × List Nat :=
  (List.range 16).foldl (fun (w, l) i =>
    let good := bitOf p.sswT i ≠ bitOf p.sswC i && bitOf p.sswT i = bitOf w.b.ssw i
    let n := if good then 0 else min 11 (Tab.get 0 w.b.sswRun i + 1)
    let w := w.mod (fun b =>
      { b with
        sswRun := Tab.set 0 b.sswRun i n,
        sswLive := if bitOf b.sswLive i = good then b.sswLive else if good then b.sswLive + 2 ^ i else b.sswLive - 2 ^ i })
    if n = 10 then ((w.mod (fun b => { b with lock := true })).raise_ 0x0E15 i, l ++ [i]) else (w, l)) (w, [])

/-- The functions a changed switch concerns (13 R491). -/
def concerned (b : Bollard) (i k : Nat) : Bool :=
  match i with
  | 0 => false
  | 1 => within (fnType b.block k) 6 8
  | 2 => fnType b.block k = 5 || (resetBit (fnReset b.block k)).isSome
  | _ => true

/-- The channel's counts move (13 R488, 18 R691): its bank evaluates and both its lines are in range. -/
def encMoves (s : State) (e k : Nat) : Bool := bankUp s k && s.sup.enc / 2 ^ (4 * e + 2 * k) % 4 = 0

/-- Channel counts at the cycle start as the limits use them: channel 2 negated when inverted (13 R508). -/
def encInv (b : Bollard) (e : Nat) (v : Int) : Int := if bitOf (bolNum b.block (bEnc e) 1) 1 then -v else v

/-- A difference of counts, which are 32 bits wide (13 R532). -/
def encDiff (a b : Int) : Int := sval 32 (uval 32 (a - b))

/-- Encoder counts and checks (13 R509). -/
def checkEnc (s : State) (p : BolPins) (w : BolWork) : BolWork :=
  (List.range 4).foldl (fun w e =>
    let m := fun (k : Nat) => if encMoves s e k then (p.enc.getD (2 * e + k) (0, false)) else (0, false)
    let q := w.b.enc e
    let n1 := sval 32 (uval 32 (q.n1 + (m 0).1))
    let n2 := sval 32 (uval 32 (q.n2 + (m 1).1))
    let tol : Int := bolNum w.b.block (bEnc e + 2) 2
    let d := encDiff n1 (encInv w.b e n2)
    let bad := tol < d || tol < -d
    let q' : BolEnc := { q with n1 := n1, n2 := n2, hist := ((n1, n2) :: q.hist).take 65, bad := bad }
    let w := w.mod (fun b => { b with encs := Tab.set {} b.encs e q' })
    if encUsed w.b.block e && ((m 0).2 || (m 1).2 || (bad && !q.bad)) then
      faultFns (fun k => usesEnc w.b k e) 0x0E0A (w.raise_ 0x0E0A e) else w) w

/-- The banks differ on a function for 2 consecutive cycles (13 R486). -/
def checkBanks (s : State) (p : BolPins) (w : BolWork) : BolWork :=
  (List.range 16).foldl (fun w k =>
    let d := s.bank1 && s.bank2 && bitOf p.differ k
    let was := (w.b.fn k).differ
    let w := w.mod (fun b => b.modFn k (fun f => { f with differ := d }))
    if d && was && fnType w.b.block k ≠ 0 then faultFns (· = k) 0x0E12 (w.raise_ 0x0E12 k) else w) w

/-! ### Output conditions (13 R510, R514) -/

/-- The code of the fault latched on output `o` that a function takes as its cause. -/
def latchCode (b : Bollard) (o : Nat) : Nat :=
  let c := fun (f : BolOutCh → Bool) => f (b.och (2 * o)) || f (b.och (2 * o + 1))
  if c (·.excess) then 0x0E05 else if c (·.read) then 0x0E04 else if c (·.open_) then 0x0E06 else 0x0E07

/-- Readback while OFF for 2 cycles, and open load for 50 ms while ON (13 R514); none while the field domain is off (18 R684). -/
def checkChan (s : State) (p : BolPins) (w : BolWork) (i : Nat) : BolWork :=
  let c := w.b.och i
  let en := outEnabled w.b.block (i / 2) && s.sup.field && bankUp s (i % 2)
  let hi := if en && !c.on && bitOf p.high i then min 2 (c.high + 1) else 0
  let lo := if en && c.on && bitOf (bolNum w.b.block (bOut (i / 2)) 1) 1 && bitOf p.low i then min 50 (c.low + 1) else 0
  let r := hi = 2 && !c.read
  let q := lo = 50 && !c.open_
  let w := w.mod (fun b =>
    b.modOch i (fun c => { c with high := hi, low := lo, read := c.read || r, open_ := c.open_ || q }))
  let w := if r then w.raise_ 0x0E04 i else w
  if q then w.raise_ 0x0E06 i else w

/-- Feedback inputs (13 R514). -/
def checkFeedback (s : State) (w : BolWork) (o : Nat) : BolWork :=
  let t := w.b.out o
  match outFeedback w.b.block o with
  | none => w
  | some f =>
    if t.fbLeft = 0 then w
    else if inValue s w.b f = t.fbWant then w.mod (fun b => b.modOut o (fun t => { t with fbLeft := 0 }))
    else if t.fbLeft = 1 then (w.mod (fun b => b.modOut o (fun t => { t with fbLeft := 0, fb := true }))).raise_ 0x0E07 o
    else w.mod (fun b => b.modOut o (fun t => { t with fbLeft := t.fbLeft - 1 }))

/-- Output checks, and FAULT of every function that names an output with a latched fault (13 R510). -/
def checkOuts (s : State) (p : BolPins) (w : BolWork) : BolWork :=
  let w := (List.range 16).foldl (checkChan s p) w
  let w := (List.range 8).foldl (checkFeedback s) w
  (List.range 8).foldl (fun w o =>
    if outEnabled w.b.block o && w.b.faulted o then
      faultFns (fun k => bitOf (fnOuts w.b.block k) o) (latchCode w.b o) w else w) w

/-! ### Functions (13 R504 to R508) -/

/-- A limit of a SEA_TRIAL function is exceeded on a channel with counts `p`, reference, extremes and count of t_w earlier. -/
def exceeded (b : Bollard) (k : Nat) (p ref hi lo old : Int) : Bool :=
  let blk := b.block
  match fnType blk k with
  | 6 =>
    let tw := bolNum blk (bEnc (fnA blk k) + 1) 1
    ((fnP1 blk k * tw : Nat) : Int) < (encDiff p old).natAbs * 1000
  | 7 =>
    let d := encDiff p ref
    d < sval 32 (fnP1 blk k) || sval 32 (fnP2 blk k) < d
  | _ => if fnP1 blk k = 1 then (fnP2 blk k : Int) < encDiff hi p else (fnP2 blk k : Int) < encDiff p lo

/-- The count of `n` cycles ago; the counts are 0 at the end of S1. -/
def histAt (e : BolEnc) (n : Nat) : Int × Int := e.hist.getD n (0, 0)

/-- No limit of SEA_TRIAL function `k` is exceeded on either channel (13 R508). -/
def trialCond (b : Bollard) (k : Nat) : Bool :=
  let e := b.enc (fnA b.block k)
  let f := b.fn k
  let tw := bolNum b.block (bEnc (fnA b.block k) + 1) 1
  let inv := encInv b (fnA b.block k)
  let old := histAt e tw
  !exceeded b k e.n1 e.ref1 f.max1 f.min1 old.1 && !exceeded b k (inv e.n2) (inv e.ref2) f.max2 f.min2 (inv old.2)

/-- A telegram bit as the functions see it (13 R519, R520). -/
def telBit (b : Bollard) (c i : Nat) : Bool := (b.conn c).st = 2 && bitOf (b.conn c).data i

/-- The RUN condition of function `k` (13 R504). -/
def runCond (s : State) (b : Bollard) (k : Nat) : Bool :=
  let blk := b.block
  match fnType blk k with
  | 1 | 2 | 3 => inValue s b (fnA blk k)
  | 4 => inValue s b (fnA blk k) && inValue s b (fnB blk k)
  | 5 => telBit b (fnA blk k) (fnB blk k)
  | _ => trialCond b k

/-- Function `k` stops (13 R505): at once, or after its stop delay, counted from the cycle's end. -/
def stopFn (k code endCycle : Nat) (b : Bollard) : Bollard :=
  if fnCat b.block k = 0 then b.modFn k (fun f => { f with st := 0, cause := code % 256 })
  else b.modFn k (fun f => { f with st := 2, cause := code % 256, stopAt := endCycle + fnStop b.block k })

/-- Demand stops (13 R505), and the stops of a changed switch (13 R493). Log entry 95 (DEDUCED, unsafe). -/
def demands (s : State) (found : List Nat) (w : BolWork) : BolWork :=
  (List.range 16).foldl (fun w k =>
    let t := fnType w.b.block k
    let st := (w.b.fn k).st
    let fin := w.b.cycle + 1
    if t = 0 then w
    else if st = 1 && !runCond s w.b k then
      let w := w.raise_ 0x0E01 k
      if 6 ≤ t then (w.mod (stopFn k 0x0E0B fin)).raise_ 0x0E0B k else w.mod (stopFn k 0x0E01 fin)
    else if (st = 1 || st = 4) && found.any (fun i => concerned w.b i k) then w.mod (stopFn k 0x0E15 fin)
    else w) w

/-- Function `k` enters RUN (13 R506, R508). -/
def enterRun (k : Nat) (w : BolWork) : BolWork :=
  let e := w.b.enc (fnA w.b.block k)
  let p2 := encInv w.b (fnA w.b.block k) e.n2
  (w.mod (fun b => b.modFn k (fun f =>
    { f with st := 1, armed := false, max1 := e.n1, min1 := e.n1, max2 := p2, min2 := p2 }))).raise_ 0x0E02 k

/-- The value of a reset source: an input, or a bit of a HEALTHY connection; none while the connection is not HEALTHY. -/
def resetValue (s : State) (b : Bollard) (r : Nat) : Option Bool :=
  if r < 0x10 then some (inValue s b r)
  else match resetBit r with
    | some (c, i) => if (b.conn c).st = 2 then some (bitOf (b.conn c).data i) else none
    | none => some false

/-- Two-hand entry (13 R504): `a` and `b` are the two values; the answer says that the function may enter RUN. -/
def twoHand (k : Nat) (x y : Bool) (w : BolWork) : BolWork × Bool :=
  let f := w.b.fn k
  let set := fun (g : BolFn) => w.mod (fun b => b.modFn k (fun _ => g))
  if f.st = 1 then (set { f with armed := false, two := 0 }, false)
  else if !x && !y then (set { f with armed := true, two := 0 }, false)
  else if !f.armed then (w, false)
  else if x && y then (set { f with armed := false, two := 0 }, f.two ≤ 500)
  else if 500 ≤ f.two then ((set { f with armed := false, two := 0 }).raise_ 0x0E0C k, false)
  else (set { f with two := f.two + 1 }, false)

/-- Reset events and restarts of function `k` (13 R506, R507); none while one bank evaluates (13 R488). -/
def restart (s : State) (w : BolWork) (k : Nat) : BolWork :=
  let t := fnType w.b.block k
  if t = 0 then w
  else
    let r := fnReset w.b.block k
    let cond := runCond s w.b k
    let two := t = 4
    let th := if two then twoHand k (inValue s w.b (fnA w.b.block k)) (inValue s w.b (fnB w.b.block k)) w else (w, false)
    let w := th.1
    let f := w.b.fn k
    let v := resetValue s w.b r
    let event := v = some false && 100 ≤ f.held && f.held ≤ 5000
    let held := if v = some true then min 5001 (f.held + 1) else 0
    let w := w.mod (fun b => b.modFn k (fun f => { f with held := held, wait := f.wait && cond }))
    let may := f.st = 0 && cond && s.bank1 && s.bank2
    let go := if two then th.2 else if r = 0xFE then !f.wait else event
    if may && go then enterRun k w else w

/-- The extremes of the counts since the function entered RUN (13 R508). -/
def extremes (w : BolWork) : BolWork :=
  (List.range 16).foldl (fun w k =>
    if fnType w.b.block k = 8 then
      let e := w.b.enc (fnA w.b.block k)
      let p2 := encInv w.b (fnA w.b.block k) e.n2
      w.mod (fun b => b.modFn k (fun f =>
        { f with
          max1 := if 0 < encDiff e.n1 f.max1 then e.n1 else f.max1, min1 := if encDiff e.n1 f.min1 < 0 then e.n1 else f.min1,
          max2 := if 0 < encDiff p2 f.max2 then p2 else f.max2, min2 := if encDiff p2 f.min2 < 0 then p2 else f.min2 }))
    else w) w

/-! ### Outputs (13 R510, R512, R513) -/

/-- Channel `i` (2o + k − 1) is to be ON (13 R510); no channel is while the field domain is off (18 R684). -/
def outOn (s : State) (b : Bollard) (i : Nat) : Bool :=
  let o := i / 2
  outEnabled b.block o && !b.faulted o && s.sup.field && bankUp s (i % 2)
    && (outNamed b.block o).all (fun k => let t := (b.fn k).st; t = 1 || t = 2 || t = 4)

/-- Output commands (13 R510), and the feedback time they start (13 R514); `up` says that channels may also go on, which they do only at the
end of a cycle (13 R487). -/
def command (up : Bool) (s : State) (b : Bollard) : Bollard :=
  let was := b
  let b := (List.range 16).foldl (fun b i => b.modOch i (fun c => { c with on := (up || c.on) && outOn s was i })) b
  (List.range 8).foldl (fun b o =>
    let on := fun (b : Bollard) (i : Nat) => (b.och i).on
    let off0 := !on was (2 * o) && !on was (2 * o + 1)
    let on0 := on was (2 * o) && on was (2 * o + 1)
    let off1 := !on b (2 * o) && !on b (2 * o + 1)
    let on1 := on b (2 * o) && on b (2 * o + 1)
    let t := bolNum b.block (bOut o + 4) 2
    if off1 && !off0 then b.modOut o (fun q => { q with fbLeft := t + 1, fbWant := true })
    else if on1 && !on0 then b.modOut o (fun q => { q with fbLeft := t + 1, fbWant := false })
    else b) b

/-- Channels as they stand after the cycle's outputs: ON throughout it. -/
def markThru (b : Bollard) : Bollard :=
  (List.range 16).foldl (fun b i => b.modOch i (fun c => { c with thru := c.on })) b

/-- The test of a channel in the cycle (13 R512, R513): `was` is the Bollard at the cycle's start. -/
def testOut (was : Bollard) (p : BolPins) (w : BolWork) : BolWork :=
  (List.range 16).foldl (fun w i =>
    let o := i / 2
    let t := bolNum w.b.block 7 1
    if t ≠ 0 && was.cycle % (1000 * t) = i && (was.och (2 * o)).thru && (was.och (2 * o + 1)).thru then
      if !(was.och (2 * o)).on || !(was.och (2 * o + 1)).on then
        (w.mod (fun b => b.modOut o (fun q => { q with void := (q.void + 1) % 256 }))).raise_ 0x0E08 i
      else if p.pass then w.mod (fun b => b.modOut o (fun q => { q with passed := (q.passed + 1) % 256 }))
      else (w.mod (fun b => b.modOch i (fun c => { c with read := true }))).raise_ 0x0E04 i
    else w) w

/-! ### Adrift (13 R522) -/

/-- A flagged function is STOPPING, STOPPED or FAULT, or the switches have changed. Log entry 96 (DEDUCED, unsafe). -/
def adriftWanted (b : Bollard) : Bool :=
  b.lock || (List.range 16).any (fun k =>
    fnType b.block k ≠ 0 && fnAdrift b.block k && (let t := (b.fn k).st; t = 0 || t = 2 || t = 3))

/-- The Bollard's Adrift after a change of states: the first stop of a flagged function is raised. Log entry 96 (DEDUCED, unsafe). -/
def adriftHold (was : Bollard) (w : BolWork) : BolWork :=
  let now := adriftWanted w.b
  let code := if w.b.lock then 0x0E15 else 0x0E19
  let w' := w.mod (fun b => { b with adrift := now, cause := if now then (if was.adrift && !w.b.lock then b.cause else code) else 0 })
  if now && !adriftWanted was && !(w.b.lock && !was.lock) then w'.raise_ 0x0E19 0 else w'

/-- The codes of a working step raised by the cable die. -/
def finish (s : State) (w : BolWork) : State := w.ev.foldl (fun s e => raise .cable e.1 e.2 s) { s with bol := w.b }

/-! ### The evaluation cycle (13 R511) -/

/-- A bank that has withdrawn: its channels are off at once (13 R488). -/
def bankOff (s : State) : State :=
  let b := command false s s.bol
  { s with bol := (List.range 16).foldl (fun b i => b.modOch i (fun c => { c with thru := c.thru && bankUp s (i % 2) })) b }

/-- The Bollard evaluates with one bank (13 R488). -/
def noteSingle (s : State) : State :=
  if s.bol.live && s.bank1 ≠ s.bank2 && !s.bol.single then
    raise .cable 0x0E13 (if s.bank1 then 2 else 1) { s with bol := { s.bol with single := true } }
  else s

/-- Stop delays that have run out (13 R505). -/
def endStops (b : Bollard) : Bollard :=
  (List.range 16).foldl (fun b k =>
    if (b.fn k).st = 2 && (b.fn k).stopAt ≤ b.cycle then b.modFn k (fun f => { f with st := 0 }) else b) b

/-- The work of a cycle in the order of R511; the stop delays that end at its start have their outputs off from its start. Log entry 95 (DEDUCED, unsafe). -/
def bolCycle (p : BolPins) (s : State) : BolWork :=
  let was := command false s (endStops s.bol)
  let b := sampleIn p was
  let w := checkPins { b := b }
  let r := checkSwitches p w
  let w := checkOuts s p (checkBanks s p (checkDisc s (checkEnc s p r.1)))
  let w := extremes (demands s r.2 w)
  let w := (List.range 16).foldl (restart s) w
  let w := testOut was p (w.mod (fun b => command true s (markThru b)))
  adriftHold s.bol (w.mod (fun b => { b with cycle := b.cycle + 1 }))

/-- EVALUATION_CYCLE (13 R511): no cycle runs before the end of S1 or without a bank. -/
def evaluationStep (p : BolPins) (s : State) : State :=
  let s := noteSingle s
  if s.bol.live && (s.bank1 || s.bank2) then finish s (bolCycle p s) else s

/-- The end of the running cycle, at which its results take effect (13 R487). -/
def cycleEnd (s : State) : State := if s.bol.live then advance (s.bol.start + (s.bol.cycle + 1) * 1000000) s else s

def execEvaluationCycle (at_ : Nat) (pins : BolPins) (s : State) : Host.Outcome State Fault Refusal :=
  .next (evaluationStep pins (cycleEnd (advance at_ s)))

/-- STOP_DELAY_END (13 R505): outputs follow at once. -/
def stopDelayEndStep (k : Nat) (s : State) : State :=
  let f := s.bol.fn k
  if f.st = 2 && f.stopAt ≤ s.bol.cycle then
    let b := s.bol.modFn k (fun f => { f with st := 0 })
    finish s (adriftHold s.bol { b := command false s b })
  else s

def execStopDelayEnd (at_ k : Nat) (s : State) : Host.Outcome State Fault Refusal :=
  .next (stopDelayEndStep k (advance at_ s))

/-- SAFETY_OUTPUT_OVERCURRENT (13 R514): the channel is off within 100 µs and the fault latched; `c` is 1 or 2. -/
def overcurrent (o c : Nat) (s : State) : State :=
  let i := 2 * o + (c - 1)
  if s.bol.live && (s.bol.och i).on then
    raise .cable 0x0E05 i { s with bol := s.bol.modOch i (fun q => { q with on := false, thru := false, excess := true }) }
  else s

def execSafetyOutputOvercurrent (at_ o c : Nat) (s : State) : Host.Outcome State Fault Refusal :=
  .next (overcurrent o c (advance at_ s))

/-- The field domain is lost (18 R684): a category 0 demand stop of every function that names an output, with `SUP_FIELD_LOST` as its
cause; the channels are off. -/
def bolFieldLost (s : State) : State :=
  let b := (List.range 16).foldl (fun b k =>
    let t := (b.fn k).st
    if fnType b.block k ≠ 0 && fnOuts b.block k ≠ 0 && (t = 1 || t = 2 || t = 4) then
      b.modFn k (fun f => { f with st := 0, cause := 0x06 }) else b) s.bol
  finish s (adriftHold s.bol { b := (List.range 16).foldl (fun b i => b.modOch i (fun c => { c with on := false, thru := false })) b })

/-- The SEA_TRIAL functions become active or inactive at the tick of a mode record (13 R508). -/
def bolTrial (on : Bool) (s : State) : State :=
  let b := s.bol
  if b.trial = on || !b.live then s
  else
    let ks := (List.range 16).filter (fun k => within (fnType b.block k) 6 8)
    let b : Bollard := { b with trial := on }
    let w : BolWork :=
      if on then
        let b := (List.range 4).foldl (fun (b : Bollard) e =>
          { b with encs := Tab.upd {} b.encs e (fun q => { q with ref1 := q.n1, ref2 := q.n2 }) }) b
        ks.foldl (fun w k =>
          let e := w.b.enc (fnA w.b.block k)
          let p2 := encInv w.b (fnA w.b.block k) e.n2
          let w := w.mod (fun b => b.modFn k (fun f => { f with max1 := e.n1, min1 := e.n1, max2 := p2, min2 := p2 }))
          if (w.b.fn k).st ≠ 4 then w
          else if trialCond w.b k && s.bank1 && s.bank2 then enterRun k w
          else (w.mod (fun b => b.modFn k (fun f => { f with st := 0, cause := 0x0B }))).raise_ 0x0E0B k) { b := b }
      else { b := ks.foldl (fun b k => if (b.fn k).st = 3 then b else b.modFn k (fun f => { f with st := 4 })) b }
    finish s (adriftHold s.bol w)

/-- The Bollard state copy admitted as class 2 (13 R489). -/
def bollardCopy (s : State) : List Byte :=
  let b := s.bol
  leBytes 2 (b.fmask (fun c => c = 1 || c = 4)) ++ leBytes 2 (b.fmask (· = 2)) ++ leBytes 2 (b.fmask (· = 3))
    ++ leBytes 1 (maskFn 8 (fun o => (b.och (2 * o)).on && (b.och (2 * o + 1)).on))
    ++ leBytes 1 (b2n b.adrift + b2n b.single * 2 + b2n b.trial * 4)
    ++ leBytes 2 (maskFn 16 (inValue s b)) ++ leBytes 1 (maskFn 8 (fun c => connRx b.block c && (b.conn c).st = 2))
    ++ List.replicate 5 0 ++ (List.range 4).flatMap (fun e => leBytes 4 (uval 32 (b.enc e).n1))

/-! ### Safe telegrams (13 R516 to R521) -/

/-- CRC-32C over the signature and PDU bytes 0 to 0x0F (13 R518). -/
def telCrc (sig : List Byte) (pdu : List Byte) : Nat := crcRef 0x82F63B78 (sig ++ pdu.take 16) 0xFFFFFFFF ^^^ 0xFFFFFFFF

def telSig (b : List Byte) (c : Nat) : List Byte := (b.drop (bConn c + 4)).take 4

def State.modConn (s : State) (c : Nat) (f : BolConn → BolConn) : State :=
  { s with bol := { s.bol with conns := Tab.upd {} s.bol.conns c f } }

/-- A telegram failure on connection `c`: counted, raised at most once a second, and an unfinished start begins anew. -/
def telFail (c code : Nat) (f : BolConn → BolConn) (s : State) : State :=
  raisePerSecond .cable code c c (s.modConn c (fun k => let k := f k; if k.st = 2 then k else { k with got := false }))

/-- Uptime in ns. -/
def State.upNs (s : State) : Nat := s.uptime.getD 0 / nsUnit

/-- An accepted telegram (13 R519, R520). Log entry 91 (DEDUCED, unsafe). -/
def telAccept (c seq data status : Nat) (s : State) : State :=
  let k := s.bol.conn c
  let up := k.st ≠ 2 && k.got
  let s := s.modConn c (fun k =>
    { k with
      seq := seq, got := true, last := s.upNs, data := if status = 0 then data else 0, st := if up then 2 else k.st })
  if up then raise .cable 0x0E11 c s else s

/-- SAFE_TELEGRAM (13 R519): the checks in order. Log entry 91 (DEDUCED, unsafe). -/
def telegramStep (net : Nat) (pdu : List Byte) (s : State) : State :=
  let blk := s.bol.block
  let g := fun (o n : Nat) => ofLe ((pdu.drop o).take n)
  let conn := (List.range 8).find? (fun c =>
    connRx blk c && bolNum blk (bConn c + 2) 2 = g 2 2 && bitOf (bolNum blk (bConn c + 1) 1) net)
  let known := (List.range 8).find? (fun c => connUsed blk c && bolNum blk (bConn c + 2) 2 = g 2 2)
  let bad := pdu.length < 20 || g 0 1 ≠ 1 || g 1 1 ≠ 1 || 4 ≤ g 0xA 1 || g 0xB 1 ≠ 0
  if !s.bol.live || !(s.bank1 || s.bank2) then s
  else match bad, conn, known with
    | true, _, some c => telFail c 0x0E0D (fun k => { k with fmt := satAdd 0xFF k.fmt 1 }) s
    | true, _, none => raisePerSecond .cable 0x0E0D 0xFF 0xFF s
    | false, none, some c => telFail c 0x0E0D (fun k => { k with fmt := satAdd 0xFF k.fmt 1 }) s
    | false, none, none => raisePerSecond .cable 0x0E0D 0xFF 0xFF s
    | false, some c, _ =>
      let k := s.bol.conn c
      let seq := g 4 4
      let d := (seq + 2 ^ 32 - k.seq) % 2 ^ 32
      let behind := (k.sent + 2 ^ 32 - g 0xC 4) % 2 ^ 32
      if telCrc (telSig blk c) pdu ≠ g 0x10 4 then telFail c 0x0E0E (fun k => { k with crc := satAdd 0xFF k.crc 1 }) s
      else if k.got && d = 0 then s
      else if (k.got && 15 < d) || (connTx blk c && 4 < behind) then
        telFail c 0x0E0F (fun k => { k with seqErr := satAdd 0xFF k.seqErr 1 }) s
      else telAccept c seq (g 8 2) (g 0xA 1 % 4) s

def execSafeTelegram (at_ net : Nat) (pdu : List Byte) (s : State) : Host.Outcome State Fault Refusal :=
  .next (telegramStep net pdu (advance at_ s))

/-- BOL_TELEGRAM_TIMEOUT (13 R520). -/
def telTimeout (c : Nat) (s : State) : State :=
  let k := s.bol.conn c
  if s.bol.live && connRx s.bol.block c && k.st = 2 && k.last + bolNum s.bol.block (bConn c + 8) 2 * 1000000 ≤ s.upNs then
    raise .cable 0x0E10 c (s.modConn c (fun k => { k with st := 3, got := false, data := 0 }))
  else s

def execBolTelegramTimeout (at_ c : Nat) (s : State) : Host.Outcome State Fault Refusal := .next (telTimeout c (advance at_ s))

/-- TELEGRAM_TRANSMIT (13 R521). The status byte the module sends is not stated: a free value of two bits.
Log entry 94 (DESIGN CHOICE, safe). -/
def telegramSend (c : Nat) (same : Bool) (s : State) : State :=
  let b := s.bol
  if !b.live || !connTx b.block c || !(s.bank1 || s.bank2) then s
  else if !same && s.bank1 && s.bank2 then raise .cable 0x0E12 (256 + c) s
  else
    match s.activeSide with
    | none => s
    | some x =>
      if !s.passes x then s else
      let k := b.conn c
      let seq := (k.sent + 1) % 2 ^ 32
      let d := leBytes 1 1 ++ leBytes 1 2 ++ leBytes 2 (bolNum b.block (bConn c + 2) 2) ++ leBytes 4 seq
        ++ leBytes 2 (b.fmask (fun c => c = 1 || c = 4)) ++ leBytes 1 ((Config.freeWord s.free).toNat % 4) ++ leBytes 1 0
        ++ leBytes 4 (if connRx b.block c && k.got then k.seq else 0)
      let pdu := d ++ leBytes 4 (telCrc (telSig b.block c) d)
      let f : EthFrame :=
        { bytes := padFrame ((b.block.drop (bConn c + 0xC)).take 6 ++ ownAddr (s.ld x).fmn.img ++ beBytes 2 0x88B5 ++ pdu) }
      let s := { s.modConn c (fun k => { k with sent := seq }) with free := s.free + 1 }
      (egressPorts (bolNum b.block (bConn c + 1) 1) 3).foldl (fun s p => queueFrame x p f s) s

def execTelegramTransmit (at_ c : Nat) (same : Bool) (s : State) : Host.Outcome State Fault Refusal :=
  .next (telegramSend c same (advance at_ s))

/-! ### Host commands (13 R523, R524) -/

/-- The slot a bank writes (13 R523). -/
def writeSlot (b : Bollard) (k : Nat) : Nat :=
  let g := fun (i : Nat) => let c := b.slot k i; if blkOk c then bolNum c 6 1 else 0
  if b.gen ≠ 0 && g 0 = b.gen then 1
  else if b.gen ≠ 0 && g 1 = b.gen then 0
  else if g 1 < g 0 then 1 else 0

/-- BOL_WRITE_PARAMS (13 R523). -/
def execBolWriteParams (h : CmdHdr) (block : List Byte) (s : State) : Host.Outcome State Fault Refusal :=
  .next (hostCommand h 0x0E01
    (fun s =>
      { level := 3, modes := [1], format := blkFormat block, integrity := blkCrc block, range := blkRange block,
        state := bolNum block 6 1 ≠ s.bol.gen, free := s.bol.writing.isNone })
    (fun s =>
      let w : BolWrite := { cmd := cmdOf h 0x0E01, block := block, slot1 := writeSlot s.bol 0, slot2 := writeSlot s.bol 1 }
      { s := { s with bol := { s.bol with writing := some w } }, st := .accepted }) s)

/-- The bytes of a slot whose writing failed: not stated by the spec, so free. Log entry 93 (DESIGN CHOICE, safe). -/
def spoiled (n : Nat) : List Byte := freeBytes n 1060

/-- PARAMS_STAGE_COMPLETE (13 R523). -/
def stageComplete (ok1 ok2 : Bool) (s : State) : State :=
  match s.bol.writing with
  | none => s
  | some w =>
    let put := fun (k slot : Nat) (ok : Bool) (n : Nat) (t : Tab (List Byte)) =>
      if bankUp s k then Tab.set [] t (2 * k + slot) (if ok then w.block else spoiled n) else t
    let ok := ok1 && ok2 && s.bank1 && s.bank2
    let b := { s.bol with
      writing := none, staged := if ok then w.block else s.bol.staged,
      slots := put 1 w.slot2 ok2 (s.free + 1060) (put 0 w.slot1 ok1 s.free s.bol.slots) }
    let s : State := { s with bol := b, free := s.free + 2120 }
    if ok then complete w.cmd .done [] false (raise .cable 0x0E18 (bolNum w.block 6 1) s)
    else complete w.cmd .media [] false s

def execParamsStageComplete (at_ : Nat) (ok1 ok2 : Bool) (s : State) : Host.Outcome State Fault Refusal :=
  .next (stageComplete ok1 ok2 (advance at_ s))

/-- A cause of function `k`'s fault remains (13 R507, R524). -/
def causeRemains (s : State) (b : Bollard) (k : Nat) : Bool :=
  (List.range 16).any (fun n => usesIn b k n && ((b.inp n).latched || Tab.get 0 b.pinBad n ≠ 0 || Tab.get 0 b.pinBad (16 + n) ≠ 0))
    || (List.range 4).any (fun e => usesEnc b k e && (b.enc e).bad)
    || (b.fn k).differ
    || (List.range 8).any (fun o => bitOf (fnOuts b.block k) o && outEnabled b.block o
        && ((b.och (2 * o)).high ≠ 0 || (b.och (2 * o + 1)).high ≠ 0
          || ((b.out o).fb && (outFeedback b.block o).elim false (fun f => inValue s b f ≠ (b.out o).fbWant))))

/-- BOL_ACK of a function (13 R507): FAULT becomes STOPPED. -/
def ackFn (b : Bollard) (k : Nat) : Bollard := b.modFn k (fun f => { f with st := 0, wait := true })

/-- The latches of the outputs none of whose functions is in FAULT any more are cleared (13 R510). -/
def clearLatches (mask : Nat) (b : Bollard) : Bollard :=
  (List.range 8).foldl (fun b o =>
    let ks := outNamed b.block o
    if ks.any (bitOf mask) && ks.all (fun k => (b.fn k).st ≠ 3) then
      let z := fun (c : BolOutCh) => { c with excess := false, read := false, open_ := false, low := 0 }
      ((b.modOch (2 * o) z).modOch (2 * o + 1) z).modOut o (fun q => { q with fb := false })
    else b) b

/-- BOL_ACK (13 R523, R524). -/
def execBolAck (h : CmdHdr) (mask : Nat) (s : State) : Host.Outcome State Fault Refusal :=
  .next (hostCommand h 0x0E02
    (fun s =>
      { level := 2, format := mask < 65536,
        state := (List.range 16).all (fun k => !bitOf mask k || ((s.bol.fn k).st = 3 && !causeRemains s s.bol k)) })
    (fun s =>
      let b := (List.range 16).foldl (fun b k => if bitOf mask k then ackFn b k else b) s.bol
      let b := clearLatches mask b
      done (finish s (adriftHold s.bol { b := b }))) s)

end Sys2Proof.Machine
end

