-- ==== Sys2Proof/Machine/MemInt.lean ====
section
/-!
DEFINITION. Memory integrity commands (chapter 12): merge write-back, the bucket, remapping, the patrol scrubber and the
memory test.
-/
namespace Sys2Proof.Machine

/-! ### Merge buffer -/

/-- A narrow fare write taken into the merge buffer (12 R460): into the entry of its word, else into a free one of the
four, else it waits. -/
def mergeTake (m : MemInt) (e : MergeEntry) : MemInt :=
  if m.merge.any (fun q => q.word == e.word) then
    { m with merge := m.merge.map (fun q => if q.word = e.word then { q with data := q.data ++ e.data } else q) }
  else if m.merge.length < 4 then { m with merge := m.merge ++ [e] }
  else { m with mergeWait := m.mergeWait ++ [e] }

/-- The waiting writes taken in arrival order as long as they find room. -/
def mergeRefill (m : MemInt) : List MergeEntry → MemInt
  | [] => m
  | e :: t => mergeRefill (mergeTake m e) t

/-- Waiting writes offered again. -/
def mergeOffer (m : MemInt) : MemInt := mergeRefill { m with mergeWait := [] } m.mergeWait

/-- The oldest merge entry written back in its fare slot (12 R461). -/
def mergeStep (x : Side) (s : State) : State :=
  match (s.ld x).memi.merge with
  | [] => s
  | e :: t =>
    let s := s.modLd x (fun l => { l with memi := { l.memi with merge := t } })
    let s := memMerge x e.word e.data s
    s.modLd x (fun l => { l with memi := mergeOffer l.memi })

/-- The entry that holds word `w` written back ahead of a whole write of the word by a fare request (12 R460, R461). -/
def mergeFlush (x : Side) (w : Nat) (s : State) : State :=
  match (s.ld x).memi.merge.find? (fun e => e.word = w) with
  | none => s
  | some e =>
    let s := memMerge x w e.data (s.modLd x (fun l => { l with memi := { l.memi with merge := l.memi.merge.erase e } }))
    s.modLd x (fun l => { l with memi := mergeOffer l.memi })

/-- MERGE_WRITEBACK (12 R461). -/
def execMergeWriteback (at_ : Nat) (x : Side) (s : State) : Host.Outcome State Fault Refusal :=
  .next (mergeStep x (advance at_ s))

/-! ### Bucket -/

/-- The level falls by 1 unless it is 0; the bucket re-arms below half the threshold, rounded down (12 R462, R463). -/
def leakBucket (m : MemInt) : MemInt :=
  let lev := m.level - 1
  { m with level := lev, armed := m.armed || decide (lev < m.threshold / 2) }

/-- The instant of the next leak, no earlier than one leak interval after the one before it (12 R462, R463). -/
def leakNs (m : MemInt) (at_ : Nat) : Nat := max at_ (m.leakAt + m.leak * 100000000)

/-- BUCKET_LEAK (12 R462): once per leak interval. -/
def execBucketLeak (at_ : Nat) (x : Side) (s : State) : Host.Outcome State Fault Refusal :=
  let s := advance (leakNs (s.ld x).memi at_) s
  .next (s.modLd x (fun l => { l with memi := { leakBucket l.memi with leakAt := s.nowNs } }))

/-- The registers of this unit are written by the Deckhand core of the landing and by host partitions at ENGINEER level
(chapter 12, Registers). -/
def memWriter (x : Side) (r : Requester) (s : State) : Bool :=
  match r with
  | .deckhand y => x = y
  | .host p => 2 ≤ (s.part p).level
  | _ => false

/-- A configuration write by `r`: performed where `r` may write, refused to a host below ENGINEER, else without
effect. -/
def memConfig (r : Requester) (x : Side) (f : MemInt → MemInt) (s : State) : State :=
  if memWriter x r s then s.modLd x (fun l => { l with memi := f l.memi })
  else match r with
    | .host p => hostRefused p s
    | _ => s

/-- `MEM_BUCKET_CFG` stored unless either field is 0; it raises nothing (12 R463, R477). -/
def bucketCfg (v : Word) (m : MemInt) : MemInt :=
  let t := bits v.toNat 7 0
  let k := bits v.toNat 23 8
  if t = 0 || k = 0 then m else { m with threshold := t, leak := k }

/-- MEM_BUCKET_CFG (12 R477). -/
def execMemBucketCfg (at_ : Nat) (r : Requester) (x : Side) (v : Word) (s : State) : Host.Outcome State Fault Refusal :=
  .next (memConfig r x (bucketCfg v) (advance at_ s))

/-- `MEM_SCRUB_CFG` stored for 0 to 64, ignored for 65 to 127 (12 R479). -/
def scrubCfg (v : Word) (m : MemInt) : MemInt :=
  let t := bits v.toNat 6 0
  if t ≤ 64 then { m with rate := t } else m

/-- MEM_SCRUB_CFG (12 R479). -/
def execMemScrubCfg (at_ : Nat) (r : Requester) (x : Side) (v : Word) (s : State) : Host.Outcome State Fault Refusal :=
  .next (memConfig r x (scrubCfg v) (advance at_ s))

/-! ### Remap -/

/-- The lowest spare in no entry of the table (12 R467). -/
def freeSpare (m : MemInt) : Option Nat :=
  (List.range 32).find? (fun k => !m.remap.any (fun e => e.spare == k))

/-- One word copied from `src` to `dst` in the class its read gives (12 R467 step 2): the raced words keep the value
written from the other port. -/
def copyWord (src dst : Nat) (raced : List (Nat × DWord)) (i : Nat) (l : Landing) : Landing :=
  match raced.find? (fun e => e.1 == i) with
  | some e => rawPut (rawPut l (src + 8 * i) e.2 0) (dst + 8 * i) e.2 0
  | none =>
    let v := rawWord l.mem (src + 8 * i)
    match classify (Tab.get 0 l.syn ((src + 8 * i) / 8)) with
    | .clean => rawPut l (dst + 8 * i) v 0
    | .corrected b => rawPut l (dst + 8 * i) (fixBit v b) 0
    | _ => rawPut l (dst + 8 * i) v poisonSyn

/-- The eight words of a line copied. -/
def copyLine (src dst : Nat) (raced : List (Nat × DWord)) (l : Landing) : Landing :=
  (List.range 8).foldl (fun l i => copyWord src dst raced i l) l

/-- One entry of the remap table in flash (12 R469). -/
def remapEntryBytes (e : RemapEntry) : List Byte :=
  leBytes 4 (e.line.getD 0xFFFFFFFF) ++ leBytes 1 e.spare ++ leBytes 1 e.cause ++ leBytes 2 0 ++ leBytes 4 e.seconds
    ++ leBytes 4 0

/-- The remap table as it lies in flash (12 R469). -/
def remapBytes (m : MemInt) : List Byte :=
  let b := leBytes 4 0x50414D52 ++ leBytes 2 1 ++ leBytes 2 m.remap.length ++ leBytes 4 m.generation ++ leBytes 4 0
    ++ m.remap.flatMap remapEntryBytes ++ List.replicate (16 * (32 - m.remap.length)) 0
  b ++ leBytes 4 (crc32 b)

/-- The table written to one flash copy, or the failure raised (12 R467, R468). -/
def saveCopy (x : Side) (addr : Nat) (ok : Bool) (s : State) : State :=
  if ok then s.modLd x (fun l => { l with flash := flashPut (flashErase l.flash addr 0x214) addr (remapBytes l.memi) })
  else raise (.landing x) 0x0909 addr s

/-- The table saved to copy 0 and then to copy 1, with the next generation (12 R467 step 4, R469). -/
def saveRemap (x : Side) (ok0 ok1 : Bool) (s : State) : State :=
  let s := s.modLd x (fun l => { l with memi := { l.memi with generation := (l.memi.generation + 1) % 2 ^ 32 } })
  saveCopy x 0x63801000 ok1 (saveCopy x 0x63800000 ok0 s)

/-- The table with the failing spare retired in an entry of its own and its line on spare `k` (12 R466 cause 5). -/
def retireSpare (m : MemInt) (bad k secs : Nat) : List RemapEntry :=
  m.remap.map (fun e => if e.spare = bad then { e with spare := k, seconds := secs } else e)
    ++ [{ line := none, spare := bad, cause := 5, valid := true, seconds := secs }]

/-- The oldest candidate line remapped to the lowest free spare, or `MEM_REMAP_FULL` (12 R467, R468); a failing spare that serves
no line is only retired (R466). Log entry 89 (DEDUCED, unsafe). -/
def remapStep (x : Side) (raced : List (Nat × DWord)) (ok0 ok1 : Bool) (s : State) : State :=
  match (s.ld x).memi.candidates with
  | [] => s
  | (line, cause) :: t =>
    let s := s.modLd x (fun l => { l with memi := { l.memi with candidates := t } })
    if cause = 5 && !(s.ld x).memi.remap.any (fun e => e.spare = (line - 2 ^ 33) / 64 && e.line.isSome) then
      let bad := (line - 2 ^ 33) / 64
      if (s.ld x).memi.remap.any (fun e => e.spare = bad) then s
      else
        let secs := s.rtc.seconds
        saveRemap x ok0 ok1 (raise (.landing x) 0x0906 (line % 2 ^ 32) (s.modLd x (fun l =>
          { l with memi := { l.memi with remap := retireSpare l.memi bad bad secs } })))
    else match freeSpare (s.ld x).memi with
    | none => raise (.landing x) 0x0907 (line % 2 ^ 32) s
    | some k =>
      let secs := s.rtc.seconds
      let s := s.modLd x (fun l =>
        let l := copyLine line (spareBase k) raced l
        if cause = 5 then { l with memi := { l.memi with remap := retireSpare l.memi ((line - 2 ^ 33) / 64) k secs } }
        else { l with memi := { l.memi with remap := l.memi.remap ++
          [{ line := some line, spare := k, cause := cause, valid := true, seconds := secs }] } })
      saveRemap x ok0 ok1 (raise (.landing x) 0x0906 (line % 2 ^ 32) s)

/-- REMAP (12 R467). Log entry 89 (DEDUCED, unsafe). -/
def execRemap (at_ : Nat) (x : Side) (raced : List (Nat × DWord)) (ok0 ok1 : Bool) (s : State) :
    Host.Outcome State Fault Refusal :=
  .next (remapStep x raced ok0 ok1 (advance at_ s))

/-! ### Scrubber -/

/-- The lines of the patrol list (12 R471). -/
def patrolLines : Nat := 2334720

/-- The address of a patrol line (12 R471). -/
def patrolAddr (n : Nat) : Nat :=
  if n < 2097152 then 64 * n
  else if n < 2228224 then 0x10000000 + 64 * (n - 2097152)
  else if n < 2293760 then 0x28000000 + 64 * (n - 2228224)
  else if n < 2326528 then 0x20000000 + 64 * (n - 2293760)
  else istoreBase ((n - 2326528) / 512) + 64 * ((n - 2326528) % 512)

/-- One word of a patrol line acted on by its class (12 R472). -/
def scrubWord (x : Side) (a : Nat) (hard raced : Bool) (s : State) : State :=
  let l := s.ld x
  let pa := physical l.memi a
  match classify (Tab.get 0 l.syn (pa / 8)) with
  | .clean => s
  | .stored => s
  | .corrected b =>
    let s := readEffects x a s
    let s := if raced then s else s.modLd x (fun l => rawPut l pa (fixBit (rawWord l.mem pa) b) 0)
    if hard && !raced then
      let s := if memKind a = 0 then s.modLd x (fun l => { l with memi := addCandidate l.memi (a / 64 * 64) 2 }) else s
      raise (.landing x) 0x0905 (a % 2 ^ 32) s
    else s
  | .uncorrectable =>
    let s := readEffects x a s
    if raced then s else s.modLd x (fun l => rawPut l pa (rawWord l.mem pa) poisonSyn)

/-- The position after a line: line 0 after the last, counting a pass (12 R471). -/
def patrolNext (m : MemInt) : MemInt :=
  let p := m.scrubPos + 1
  let m := { m with scrubCarry := m.scrubCarry - 1 }
  if p < patrolLines then { m with scrubPos := p }
  else { m with scrubPos := 0, passes := (m.passes + 1) % 65536 }

/-- One line scrubbed, if the rate has lines left for it (12 R471, R472). -/
def scrubStep (x : Side) (hard raced : List Nat) (s : State) : State :=
  if (s.ld x).memi.scrubCarry = 0 then s
  else
    let a := patrolAddr (s.ld x).memi.scrubPos
    let s := (List.range 8).foldl (fun s i => scrubWord x (a + 8 * i) (hard.contains i) (raced.contains i) s) s
    s.modLd x (fun l => { l with memi := patrolNext l.memi })

/-- SCRUB_LINE (12 R472). Log entry 90 (DEDUCED, unsafe). -/
def execScrubLine (at_ : Nat) (x : Side) (hard raced : List Nat) (s : State) : Host.Outcome State Fault Refusal :=
  .next (scrubStep x hard raced (advance at_ s))

/-! ### Memory test -/

/-- Every memory of 12 R458 filled with clean zeros: DRAM and its spares, apron, solver store, tile memories. -/
def fillLanding (l : Landing) : Landing :=
  { l with mem := l.mem.filter (fun c => memKind c.1 == 5), syn := l.syn.filter (fun c => memKind (c.1 * 8) == 5) }

/-- Candidates of the memory test added: DRAM lines with cause 4, spares with cause 5. -/
def testCandidates (m : MemInt) (badLines badSpares : List Nat) : MemInt :=
  let m := badLines.foldl (fun m a => addCandidate m a 4) m
  (badSpares.filter (fun k => !m.remap.any (fun e => e.spare = k && e.line.isNone))).foldl (fun m k => { m with candidates := m.candidates ++ [(spareBase k, 5)] }) m

/-- All candidates remapped, one after another. -/
def remapAll (x : Side) : Nat → State → State
  | 0, s => s
  | n + 1, s => if (s.ld x).memi.candidates.isEmpty then s else remapAll x n (remapStep x [] true true s)

/-- The test's end (12 R474): the failing lines remapped, every memory filled, the result posted, and `MEM_MEMTEST_FAIL`
for a failing word outside DRAM or a line without a spare. Log entry 90 (DEDUCED, unsafe). -/
def memtestEnd (x : Side) (badLines badSpares : List Nat) (other : Nat) (s : State) : State :=
  match (s.ld x).memi.memtest with
  | none => s
  | some c =>
    let before := (s.ld x).memi.remap.length
    let s := s.modLd x (fun l => { l with memi := { testCandidates l.memi badLines badSpares with memtest := none } })
    let n := (s.ld x).memi.candidates.length
    let s := remapAll x n s
    let mapped := (s.ld x).memi.remap.length - before
    let fail := decide (0 < other) || decide (mapped < n)
    let s := s.modLd x fillLanding
    let s := if fail then raise (.landing x) 0x090C other s else s
    complete c .done (leBytes 4 (b2n fail) ++ leBytes 4 (badLines.length + badSpares.length) ++ leBytes 4 mapped) false s

/-- MEMTEST_COMPLETE (12 R474). -/
def execMemtestComplete (at_ : Nat) (x : Side) (badLines badSpares : List Nat) (other : Nat) (s : State) :
    Host.Outcome State Fault Refusal :=
  .next (memtestEnd x badLines badSpares other (advance at_ s))

end Sys2Proof.Machine
end

