-- ==== Sys2Proof/Machine/Tile.lean ====
section
/-!
DEFINITION. The pontoon tiles (chapter 03): fields of a syllable, guards, results in flight, the shared operand forms and
the flow of a program. Each syllable's own meaning is in TileInt, TileFloat and TileMem.
-/
namespace Sys2Proof.Machine

/-! ### Fields of a syllable (03 R117, R118) -/

def sylP (w : Word) : Nat := bits w.toNat 31 29
def sylN (w : Word) : Bool := bitOf w.toNat 28
def sylI (w : Word) : Bool := bitOf w.toNat 27
def sylOp (w : Word) : Nat := bits w.toNat 26 21
def sylD (w : Word) : Nat := bits w.toNat 20 15
def sylA (w : Word) : Nat := bits w.toNat 14 9
def sylB (w : Word) : Nat := bits w.toNat 8 3
def sylFn (w : Word) : Nat := bits w.toNat 2 0
def sylImm9 (w : Word) : Int := sval 9 w.toNat
def sylImm15 (w : Word) : Int := sval 15 w.toNat
def sylCount (w : Word) : Nat := bits w.toNat 20 9
def sylLen (w : Word) : Nat := bits w.toNat 8 0

/-! ### The tile's registers (03, Registers) -/

/-- Tile `n` of landing `x`. -/
def State.tile (s : State) (x : Side) (n : Nat) : Tile := Tab.get {} (s.ld x).tiles n

/-- Tile `n` of landing `x` changed. -/
def State.modTile (s : State) (x : Side) (n : Nat) (f : Tile → Tile) : State :=
  s.modLd x (fun l => { l with tiles := Tab.upd {} l.tiles n f })

/-- Register g r: g0 reads 0 and is never poisoned. -/
def readG (t : Tile) (r : Nat) : Pw := if r % 64 = 0 then {} else Tab.get {} t.g (r % 64)

/-- Lane group k of register v r. -/
def readV (t : Tile) (r k : Nat) : Pw := Tab.get {} t.v (r % 32 * 4 + k)

/-- Register p r with its poison: p0 reads true and is never poisoned. -/
def readP (t : Tile) (r : Nat) : Bool × Bool := if r % 8 = 0 then (true, false) else Tab.get (false, false) t.p (r % 8)

/-- A g register written; g0 discards. -/
def putG (t : Tile) (r : Nat) (w : Pw) : Tile := if r = 0 then t else { t with g := Tab.set {} t.g r w }

/-- A lane group written. -/
def putV (t : Tile) (i : Nat) (w : Pw) : Tile := { t with v := Tab.set {} t.v i w }

/-- A p register written; p0 discards. -/
def putP (t : Tile) (r : Nat) (b : Bool × Bool) : Tile := if r = 0 then t else { t with p := Tab.set (false, false) t.p r b }

/-- A writable special register written (03 R113, R114); the others discard. -/
def putSpecial (t : Tile) (k v : Nat) : Tile :=
  if k = 7 then { t with flags := v % 128 } else if k = 8 then { t with pseen := v % 2 ^ 32 } else t

/-! ### Landing of results (03 R115, R135, R145) -/

/-- The registers of a result written. -/
def landRegs (t : Tile) (r : PendRes) : Tile :=
  let t := r.g.foldl (fun t e => putG t e.1 e.2) t
  let t := r.v.foldl (fun t e => putV t e.1 e.2) t
  let t := r.p.foldl (fun t e => putP t e.1 e.2) t
  match r.sp with
  | some e => putSpecial t e.1 e.2
  | none => t

/-- The flags of a result set and its poison counted, after every write of the same cycle (03 R115, R145). -/
def landFlags (t : Tile) (r : PendRes) : Tile :=
  { t with flags := t.flags ||| r.flags, pseen := if r.seen then satAdd 0xFFFFFFFF t.pseen 1 else t.pseen }

/-- A word with bytes of a store in it: a narrow store leaves stored poison (03 R143). -/
def mergeStore (old : Pw) (bytes : List (Nat × Byte)) (poison : Bool) : Pw :=
  ⟨mergeBytes old.v bytes, poison || (old.p && bytes.length < 8)⟩

/-- One word of a store written, what the dock needs of it kept (03 R137, R138, R143); a narrow store reads the word (03 R149, 12 R451,
R464). -/
def landWord (x : Side) (cyc : Nat) (e : Nat × List (Nat × Byte) × Bool) (s : State) : State :=
  let old := peekWord (s.ld x) e.1
  let s := if e.2.1.length < 8 then readEffects x e.1 s else s
  let s := s.modLd x (fun l => { l with fmn := { l.fmn with
    storeLog := l.fmn.storeLog ++ [{ cycle := cyc, addr := e.1, old := old, bytes := e.2.1, poison := e.2.2 }] } })
  memWrite x e.1 (mergeStore old e.2.1 e.2.2) s

/-- A narrow store into a word with stored poison writes a poisoned word (03 R143, R145). -/
def markSeen (l : Landing) (r : PendRes) : PendRes :=
  { r with seen := r.seen || r.mem.any (fun e => e.2.1.length < 8 && (peekWord l e.1).p) }

/-- The results of one cycle landed: registers and special registers first, then memory, then flags. -/
def landCycle (x : Side) (n cyc : Nat) (rs : List PendRes) (s : State) : State :=
  let rs := rs.map (markSeen (s.ld x))
  let s := s.modTile x n (fun t => rs.foldl landRegs t)
  let s := rs.foldl (fun s r => r.mem.foldl (fun s e => landWord x cyc e s) s) s
  s.modTile x n (fun t => rs.foldl landFlags t)

/-- The earliest landing cycle in flight. -/
def firstLand (rs : List PendRes) : Option Nat :=
  rs.foldl (fun b r => match b with
    | none => some r.land
    | some m => some (min m r.land)) none

/-- Every result that lands in cycle `t` or earlier, cycle by cycle. -/
def settleN (x : Side) (n t : Nat) : Nat → State → State
  | 0, s => s
  | k + 1, s =>
    match firstLand (s.tile x n).flight with
    | none => s
    | some c =>
      if t < c then s
      else
        let rs := (s.tile x n).flight.filter (fun r => r.land == c)
        let s := s.modTile x n (fun u => { u with flight := u.flight.filter (fun r => r.land ≠ c) })
        settleN x n t k (landCycle x n c rs s)

/-- The tile brought to cycle `t`: a syllable issued in cycle t sees every result landed by then (03 R135). -/
def settle (x : Side) (n t : Nat) (s : State) : State := settleN x n t (s.tile x n).flight.length s

/-- A result put in flight. -/
def launch (x : Side) (n : Nat) (r : PendRes) (s : State) : State :=
  s.modTile x n (fun t => { t with flight := t.flight ++ [r] })

/-! ### Guards (03 R129, R142) -/

/-- The guard of a syllable: executing, not executing, or poisoned. -/
inductive Guard where
  | yes
  | no
  | poison
deriving DecidableEq, Repr

/-- The guard read in the issue cycle. -/
def guardOf (t : Tile) (w : Word) : Guard :=
  let g := readP t (sylP w)
  if g.2 then .poison else if g.1 ^^ sylN w then .yes else .no

/-- A result lands only where it writes something: writes to g0 and p0 are discarded and are no results. -/
def seenG (d : Nat) (p : Bool) : Bool := p && d % 64 ≠ 0
def seenP (d : Nat) (p : Bool) : Bool := p && d % 8 ≠ 0

/-- A result for g d. -/
def resG (land d : Nat) (w : Pw) (flags : Nat) : PendRes :=
  { land := land, g := [(d % 64, w)], flags := if w.p then 0 else flags, seen := seenG d w.p }

/-- A result for p d. -/
def resP (land d : Nat) (b p : Bool) (flags : Nat) : PendRes :=
  { land := land, p := [(d % 8, b, p)], flags := if p then 0 else flags, seen := seenP d p }

/-- Four lane groups for v d, with the flags of the unpoisoned groups (03 R115). -/
def resV (land d : Nat) (ws : List (Pw × Nat)) : PendRes :=
  { land := land, v := (List.range ws.length).map (fun k => (d % 32 * 4 + k, (ws.getD k ({}, 0)).1)),
    flags := ws.foldl (fun f e => if e.1.p then f else f ||| e.2) 0, seen := ws.any (fun e => e.1.p) }

/-- The poisoned zero of a destination under a poisoned guard (03 R142). -/
def poisonG (land d : Nat) : PendRes := resG land d ⟨0, true⟩ 0
def poisonV (land d : Nat) : PendRes := resV land d (List.replicate 4 (⟨0, true⟩, 0))
def poisonP (land d : Nat) : PendRes := resP land d false true 0

/-- A guarded syllable issued in cycle `cyc`: it settles the tile, reads its guard, and puts in flight the result of its
execution, or `bad` under a poisoned guard; under a false guard it does nothing (03 R129, R142). Log entry 42 (DEDUCED, safe). -/
def issue (x : Side) (n cyc : Nat) (w : Word) (bad : PendRes) (run : Tile → PendRes) (s : State) : State :=
  let s := settle x n cyc s
  let t := s.tile x n
  match guardOf t w with
  | .no => s
  | .poison => launch x n bad s
  | .yes => launch x n (run t) s

/-! ### Operand forms of slots 0 and 1 (03 R120) -/

/-- Source b: g B, or the immediate sign-extended. -/
def srcB (t : Tile) (w : Word) : Pw :=
  if sylI w then { v := BitVec.ofInt 64 (sylImm9 w) } else readG t (sylB w)

/-- A two-source integer operation; `f` gives the value and the flags. -/
def intOp (lat : Nat) (f : DWord → DWord → DWord × Nat) (x : Side) (n cyc : Nat) (w : Word) (s : State) : State :=
  issue x n cyc w (poisonG (cyc + lat) (sylD w)) (fun t =>
    let a := readG t (sylA w)
    let b := srcB t w
    let r := f a.v b.v
    resG (cyc + lat) (sylD w) ⟨r.1, a.p || b.p⟩ r.2) s

/-- A one-source integer operation. -/
def intOp1 (f : DWord → DWord × Nat) (x : Side) (n cyc : Nat) (w : Word) (s : State) : State :=
  issue x n cyc w (poisonG (cyc + 1) (sylD w)) (fun t =>
    let a := readG t (sylA w)
    let r := f a.v
    resG (cyc + 1) (sylD w) ⟨r.1, a.p⟩ r.2) s

/-- An integer compare. -/
def cmpOp (f : DWord → DWord → Bool) (x : Side) (n cyc : Nat) (w : Word) (s : State) : State :=
  issue x n cyc w (poisonP (cyc + 1) (sylD w)) (fun t =>
    let a := readG t (sylA w)
    let b := srcB t w
    resP (cyc + 1) (sylD w) (f a.v b.v) (a.p || b.p) 0) s

/-- A predicate operation. -/
def predOp (f : Bool → Bool → Bool) (x : Side) (n cyc : Nat) (w : Word) (s : State) : State :=
  issue x n cyc w (poisonP (cyc + 1) (sylD w)) (fun t =>
    let a := readP t (sylA w)
    let b := readP t (sylB w)
    resP (cyc + 1) (sylD w) (f a.1 b.1) (a.2 || b.2) 0) s

/-! ### Operand forms of slot 2 (03 R112, R121) -/

/-- The format selected by `S`. -/
def fmtOf (w : Word) : Fmt := if bitOf w.toNat 0 then f32 else f64

/-- `V` of the register form. -/
def sylV (w : Word) : Bool := bitOf w.toNat 1

/-- A scalar operand in a format: bits [31:0] for FP32. -/
def scalarIn (F : Fmt) (v : DWord) : Nat := v.toNat % 2 ^ F.width

/-- An operation applied to every lane of a group. -/
def laneOp (F : Fmt) (f : Nat → Nat → Nat → Nat × Nat) (a b c : DWord) : DWord × Nat :=
  if F.mb = 52 then
    let r := f a.toNat b.toNat c.toNat
    (BitVec.ofNat 64 r.1, r.2)
  else
    let l := f (a.toNat % 2 ^ 32) (b.toNat % 2 ^ 32) (c.toNat % 2 ^ 32)
    let h := f (a.toNat / 2 ^ 32) (b.toNat / 2 ^ 32) (c.toNat / 2 ^ 32)
    (BitVec.ofNat 64 (l.1 + h.1 * 2 ^ 32), l.2 ||| h.2)

/-- A floating-point operation, scalar or lane-wise: `f` takes the format, a, b and the accumulator; `useB` and `useC` say
which sources it reads (03 R121, R141). -/
def floatOp (lat : Nat) (useB useC : Bool) (f : Fmt → Nat → Nat → Nat → Nat × Nat) (x : Side) (n cyc : Nat) (w : Word)
    (s : State) : State :=
  let F := fmtOf w
  let d := sylD w
  if sylV w then
    issue x n cyc w (poisonV (cyc + lat) d) (fun t =>
      resV (cyc + lat) d ((List.range 4).map (fun k =>
        let a := readV t (sylA w) k
        let b := readV t (sylB w) k
        let c := readV t d k
        let r := laneOp F (f F) a.v b.v c.v
        (⟨r.1, a.p || (useB && b.p) || (useC && c.p)⟩, r.2)))) s
  else
    issue x n cyc w (poisonG (cyc + lat) d) (fun t =>
      let a := readG t (sylA w)
      let b := readG t (sylB w)
      let c := readG t d
      let r := f F (scalarIn F a.v) (scalarIn F b.v) (scalarIn F c.v)
      resG (cyc + lat) d ⟨BitVec.ofNat 64 r.1, a.p || (useB && b.p) || (useC && c.p)⟩ r.2) s

/-- A floating-point compare. -/
def fcmpOp (f : Fmt → Nat → Nat → Bool × Nat) (x : Side) (n cyc : Nat) (w : Word) (s : State) : State :=
  let F := fmtOf w
  issue x n cyc w (poisonP (cyc + 2) (sylD w)) (fun t =>
    let a := readG t (sylA w)
    let b := readG t (sylB w)
    let r := f F (scalarIn F a.v) (scalarIn F b.v)
    resP (cyc + 2) (sylD w) r.1 (a.p || b.p) r.2) s

/-- A scalar conversion; `f` takes the format and the whole register. -/
def convOp (f : Fmt → DWord → Nat × Nat) (x : Side) (n cyc : Nat) (w : Word) (s : State) : State :=
  issue x n cyc w (poisonG (cyc + 3) (sylD w)) (fun t =>
    let a := readG t (sylA w)
    let r := f (fmtOf w) a.v
    resG (cyc + 3) (sylD w) ⟨BitVec.ofNat 64 r.1, a.p⟩ r.2) s

/-! ### Memory forms of slot 3 (03 R126 to R128, R137 to R144) -/

/-- The base of a tile's local memory in the address map (03 R139). -/
def tileBase (n : Nat) : Nat := 0x20000000 + n * 0x20000

/-- The address of a load or store and whether its registers are poisoned (03 R127). -/
def sylAddr (t : Tile) (w : Word) (size : Nat) : Pw :=
  let a := readG t (sylA w)
  if sylI w then ⟨a.v + BitVec.ofInt 64 (sylImm9 w * size), a.p⟩
  else let b := readG t (sylB w); ⟨a.v + b.v, a.p || b.p⟩

/-- The address rule (03 R127). Log entry 40 (DEDUCED, unsafe). -/
def addrOk (a : DWord) (size : Nat) : Bool := a.toNat < 0x20000 && a.toNat % size == 0

/-- A tile fault, at most one per tile per crossing, and its flag landing in cycle `land` (03 R115, R149). Log entry 41 (DEDUCED, unsafe). -/
def tileFault (x : Side) (n code detail land : Nat) (s : State) : State :=
  launch x n { land := land, flags := flAF } (raisePerCrossing x code (n * 2 ^ 20 + detail % 2 ^ 20) n s)

/-- A scalar load of `size` bytes; `f` extends them (03 R126, R128, R140 to R144). -/
def loadOp (size : Nat) (f : Nat → DWord) (x : Side) (n cyc : Nat) (w : Word) (s : State) : State :=
  let s := settle x n cyc s
  let t := s.tile x n
  let d := sylD w
  match guardOf t w with
  | .no => s
  | .poison => launch x n (poisonG (cyc + 3) d) s
  | .yes =>
    let a := sylAddr t w size
    if a.p then launch x n (poisonG (cyc + 3) d) s
    else if !addrOk a.v size then
      tileFault x n 0x0160 a.v.toNat (cyc + 3) (launch x n (poisonG (cyc + 3) d) s)
    else
      let ga := tileBase n + a.v.toNat
      let r := memRead x (ga / 8 * 8) s
      let v := r.1.v.toNat / 2 ^ (8 * (ga % 8)) % 2 ^ (8 * size)
      launch x n (resG (cyc + 3) d ⟨f v, r.1.p⟩ 0) r.2

/-- A vector load of 32 bytes: each lane group takes the poison of its word (03 R140). -/
def loadVec (x : Side) (n cyc : Nat) (w : Word) (s : State) : State :=
  let s := settle x n cyc s
  let t := s.tile x n
  let d := sylD w
  match guardOf t w with
  | .no => s
  | .poison => launch x n (poisonV (cyc + 3) d) s
  | .yes =>
    let a := sylAddr t w 32
    if a.p then launch x n (poisonV (cyc + 3) d) s
    else if !addrOk a.v 32 then tileFault x n 0x0160 a.v.toNat (cyc + 3) (launch x n (poisonV (cyc + 3) d) s)
    else
      let r := memReadN x (tileBase n + a.v.toNat) 4 s
      launch x n (resV (cyc + 3) d (r.1.map (fun p => (p, 0)))) r.2

/-- The words of a store: for each word its address, its bytes and its poison. -/
def storeWords (ga size : Nat) (ws : List Pw) : List (Nat × List (Nat × Byte) × Bool) :=
  (List.range ws.length).map (fun k =>
    let w := ws.getD k {}
    (ga / 8 * 8 + 8 * k, (List.range (min 8 size)).map (fun i => (ga % 8 + i, w.v.extractLsb' (8 * i) 8)), w.p))

/-- The words of a store under a poisoned guard: value 0 with the poison pattern (03 R142). -/
def poisonWords (ga count : Nat) : List (Nat × List (Nat × Byte) × Bool) :=
  (List.range count).map (fun k => (ga / 8 * 8 + 8 * k, (List.range 8).map (fun i => (i, 0)), true))

/-- A store of `size` bytes of the words that `src` reads (03 R126, R128, R137, R142 to R145). Log entry 40 (DEDUCED, unsafe). -/
def storeOp (size : Nat) (src : Tile → List Pw) (x : Side) (n cyc : Nat) (w : Word) (s : State) : State :=
  let s := settle x n cyc s
  let t := s.tile x n
  let g := guardOf t w
  if g = .no then s
  else
    let a := sylAddr t w size
    let ga := tileBase n + a.v.toNat
    if a.p then tileFault x n 0x0161 a.v.toNat (cyc + 1) s
    else if !addrOk a.v size then
      tileFault x n (if g = .poison then 0x0161 else 0x0160) a.v.toNat (cyc + 1) s
    else if g = .poison then
      launch x n { land := cyc + 1, mem := poisonWords ga ((size + 7) / 8), seen := true } s
    else
      let ws := src t
      launch x n { land := cyc + 1, mem := storeWords ga size ws, seen := ws.any (fun p => p.p) } s

end Sys2Proof.Machine
end

