-- ==== Sys2Proof/Machine/TileFloat.lean ====
section
/-!
DEFINITION. Slot 2 of a pontoon tile: floating-point, conversion and vector syllables (03 R121 to R125).
-/
namespace Sys2Proof.Machine

/-- The lane number and width of `VEXT` and `VINS` (03 R121). -/
def laneNum (w : Word) : Nat := bits w.toNat 2 0
def laneWide (w : Word) : Bool := !bitOf w.toNat 3
/-- The lane group of the lane. -/
def laneGroup (w : Word) : Nat := if laneWide w then laneNum w % 4 else laneNum w / 2

/-- One 32-bit half of a word replaced. -/
def insertHalf (v : DWord) (h : Nat) (a : DWord) : DWord :=
  let b := a.toNat % 2 ^ 32
  if h = 0 then BitVec.ofNat 64 (v.toNat / 2 ^ 32 * 2 ^ 32 + b) else BitVec.ofNat 64 (v.toNat % 2 ^ 32 + b * 2 ^ 32)

/-- Two lanes added, the flags gathered. -/
def addLanes (F : Fmt) (a b : Nat × Nat) : Nat × Nat :=
  let r := fAdd F false a.1 b.1
  (r.1, a.2 ||| b.2 ||| r.2)

/-- The fixed order of `VSUM` (03 R125). -/
def vsum (F : Fmt) (gs : List Nat) : Nat × Nat :=
  let g := fun k => gs.getD k 0
  if F.mb = 52 then addLanes F (addLanes F (g 0, 0) (g 1, 0)) (addLanes F (g 2, 0) (g 3, 0))
  else
    let p := fun k => addLanes F (g k % 2 ^ 32, 0) (g k / 2 ^ 32, 0)
    addLanes F (addLanes F (p 0) (p 1)) (addLanes F (p 2) (p 3))

/-- d = a + b (03 R121). -/
def runFadd (x : Side) (n cyc : Nat) (w : Word) (s : State) : State :=
  floatOp 4 true false (fun F a b _ => fAdd F false a b) x n cyc w s

/-- FADD (03 R121). -/
def execFadd (x : Side) (n cyc : Nat) (w : Word) (s : State) : Host.Outcome State Fault Refusal :=
  .next (runFadd x n cyc w s)

/-- d = a − b (03 R121). -/
def runFsub (x : Side) (n cyc : Nat) (w : Word) (s : State) : State :=
  floatOp 4 true false (fun F a b _ => fAdd F true a b) x n cyc w s

/-- FSUB (03 R121). -/
def execFsub (x : Side) (n cyc : Nat) (w : Word) (s : State) : Host.Outcome State Fault Refusal :=
  .next (runFsub x n cyc w s)

/-- d = a × b (03 R121). -/
def runFmul (x : Side) (n cyc : Nat) (w : Word) (s : State) : State :=
  floatOp 4 true false (fun F a b _ => fMul F a b) x n cyc w s

/-- FMUL (03 R121). -/
def execFmul (x : Side) (n cyc : Nat) (w : Word) (s : State) : Host.Outcome State Fault Refusal :=
  .next (runFmul x n cyc w s)

/-- d = d + a × b with one rounding (03 R121). -/
def runFma (x : Side) (n cyc : Nat) (w : Word) (s : State) : State :=
  floatOp 4 true true (fun F a b c => fFma F false a b c) x n cyc w s

/-- FMA (03 R121). -/
def execFma (x : Side) (n cyc : Nat) (w : Word) (s : State) : Host.Outcome State Fault Refusal :=
  .next (runFma x n cyc w s)

/-- d = d − a × b with one rounding (03 R121). -/
def runFms (x : Side) (n cyc : Nat) (w : Word) (s : State) : State :=
  floatOp 4 true true (fun F a b c => fFma F true a b c) x n cyc w s

/-- FMS (03 R121). -/
def execFms (x : Side) (n cyc : Nat) (w : Word) (s : State) : Host.Outcome State Fault Refusal :=
  .next (runFms x n cyc w s)

/-- minimumNumber(a, b) (03 R121). -/
def runFmin (x : Side) (n cyc : Nat) (w : Word) (s : State) : State :=
  floatOp 2 true false (fun F a b _ => fMinMax F false a b) x n cyc w s

/-- FMIN (03 R121). -/
def execFmin (x : Side) (n cyc : Nat) (w : Word) (s : State) : Host.Outcome State Fault Refusal :=
  .next (runFmin x n cyc w s)

/-- maximumNumber(a, b) (03 R121). -/
def runFmax (x : Side) (n cyc : Nat) (w : Word) (s : State) : State :=
  floatOp 2 true false (fun F a b _ => fMinMax F true a b) x n cyc w s

/-- FMAX (03 R121). -/
def execFmax (x : Side) (n cyc : Nat) (w : Word) (s : State) : Host.Outcome State Fault Refusal :=
  .next (runFmax x n cyc w s)

/-- The sign bit cleared, no other bit changed (03 R121, R123). -/
def runFabs (x : Side) (n cyc : Nat) (w : Word) (s : State) : State :=
  floatOp 1 false false (fun F a _ _ => fAbs F a) x n cyc w s

/-- FABS (03 R121). -/
def execFabs (x : Side) (n cyc : Nat) (w : Word) (s : State) : Host.Outcome State Fault Refusal :=
  .next (runFabs x n cyc w s)

/-- The sign bit inverted, no other bit changed (03 R121, R123). -/
def runFneg (x : Side) (n cyc : Nat) (w : Word) (s : State) : State :=
  floatOp 1 false false (fun F a _ _ => fNeg F a) x n cyc w s

/-- FNEG (03 R121). -/
def execFneg (x : Side) (n cyc : Nat) (w : Word) (s : State) : Host.Outcome State Fault Refusal :=
  .next (runFneg x n cyc w s)

/-- d = a / b, scalar, on the divide unit (03 R121, R135). -/
def runFdiv (x : Side) (n cyc : Nat) (w : Word) (s : State) : State :=
  floatOp (if bitOf w.toNat 0 then 12 else 24) true false (fun F a b _ => fDiv F a b) x n cyc w s

/-- FDIV (03 R121). -/
def execFdiv (x : Side) (n cyc : Nat) (w : Word) (s : State) : Host.Outcome State Fault Refusal :=
  .next (runFdiv x n cyc w s)

/-- d = √a, scalar, on the divide unit (03 R121, R135). -/
def runFsqrt (x : Side) (n cyc : Nat) (w : Word) (s : State) : State :=
  floatOp (if bitOf w.toNat 0 then 14 else 28) false false (fun F a _ _ => fSqrt F a) x n cyc w s

/-- FSQRT (03 R121). -/
def execFsqrt (x : Side) (n cyc : Nat) (w : Word) (s : State) : Host.Outcome State Fault Refusal :=
  .next (runFsqrt x n cyc w s)

/-- pd = (a = b), a quiet comparison (03 R121, R122). -/
def runFcmpeq (x : Side) (n cyc : Nat) (w : Word) (s : State) : State :=
  fcmpOp fEq x n cyc w s

/-- FCMPEQ (03 R121). -/
def execFcmpeq (x : Side) (n cyc : Nat) (w : Word) (s : State) : Host.Outcome State Fault Refusal :=
  .next (runFcmpeq x n cyc w s)

/-- pd = (a < b), a signalling comparison (03 R121, R122). -/
def runFcmplt (x : Side) (n cyc : Nat) (w : Word) (s : State) : State :=
  fcmpOp fLt x n cyc w s

/-- FCMPLT (03 R121). -/
def execFcmplt (x : Side) (n cyc : Nat) (w : Word) (s : State) : Host.Outcome State Fault Refusal :=
  .next (runFcmplt x n cyc w s)

/-- pd = (a ≤ b), a signalling comparison (03 R121, R122). -/
def runFcmple (x : Side) (n cyc : Nat) (w : Word) (s : State) : State :=
  fcmpOp fLe x n cyc w s

/-- FCMPLE (03 R121). -/
def execFcmple (x : Side) (n cyc : Nat) (w : Word) (s : State) : Host.Outcome State Fault Refusal :=
  .next (runFcmple x n cyc w s)

/-- pd = a or b is a NaN, a quiet comparison (03 R121, R122). -/
def runFcmpun (x : Side) (n cyc : Nat) (w : Word) (s : State) : State :=
  fcmpOp fUn x n cyc w s

/-- FCMPUN (03 R121). -/
def execFcmpun (x : Side) (n cyc : Nat) (w : Word) (s : State) : Host.Outcome State Fault Refusal :=
  .next (runFcmpun x n cyc w s)

/-- The signed 64-bit integer a in the format S (03 R121, R124). -/
def runFcvtif (x : Side) (n cyc : Nat) (w : Word) (s : State) : State :=
  convOp (fun F a => fOfInt F a.toInt 0) x n cyc w s

/-- FCVTIF (03 R121). -/
def execFcvtif (x : Side) (n cyc : Nat) (w : Word) (s : State) : Host.Outcome State Fault Refusal :=
  .next (runFcvtif x n cyc w s)

/-- a in the format S as a signed 64-bit integer, saturated (03 R121, R124). -/
def runFcvtfi (x : Side) (n cyc : Nat) (w : Word) (s : State) : State :=
  convOp (fun F a => fToI64 F (scalarIn F a)) x n cyc w s

/-- FCVTFI (03 R121). -/
def execFcvtfi (x : Side) (n cyc : Nat) (w : Word) (s : State) : Host.Outcome State Fault Refusal :=
  .next (runFcvtfi x n cyc w s)

/-- FP64 to FP32 for S = 1, FP32 to FP64 for S = 0 (03 R121, R123). -/
def runFcvtff (x : Side) (n cyc : Nat) (w : Word) (s : State) : State :=
  convOp (fun F a => if F.mb = 23 then fNarrow a.toNat else fWiden (a.toNat % 2 ^ 32)) x n cyc w s

/-- FCVTFF (03 R121). -/
def execFcvtff (x : Side) (n cyc : Nat) (w : Word) (s : State) : Host.Outcome State Fault Refusal :=
  .next (runFcvtff x n cyc w s)

/-- The Q1.31 a in the format S (03 R121, R124). -/
def runFcvtqf (x : Side) (n cyc : Nat) (w : Word) (s : State) : State :=
  convOp (fun F a => fOfInt F (sval 32 a.toNat) (-31)) x n cyc w s

/-- FCVTQF (03 R121). -/
def execFcvtqf (x : Side) (n cyc : Nat) (w : Word) (s : State) : Host.Outcome State Fault Refusal :=
  .next (runFcvtqf x n cyc w s)

/-- a in the format S as Q1.31, saturated; zeros in bits [63:32] (03 R112, R121, R124). -/
def runFcvtfq (x : Side) (n cyc : Nat) (w : Word) (s : State) : State :=
  convOp (fun F a => fToQ F (scalarIn F a)) x n cyc w s

/-- FCVTFQ (03 R112). -/
def execFcvtfq (x : Side) (n cyc : Nat) (w : Word) (s : State) : Host.Outcome State Fault Refusal :=
  .next (runFcvtfq x n cyc w s)

/-- Every lane of vd = g a (03 R121). -/
def runVbcast (x : Side) (n cyc : Nat) (w : Word) (s : State) : State :=
  issue x n cyc w (poisonV (cyc + 2) (sylD w)) (fun t =>
    let a := readG t (sylA w)
    let v := if (fmtOf w).mb = 52 then a.v else BitVec.ofNat 64 (a.v.toNat % 2 ^ 32 * (2 ^ 32 + 1))
    resV (cyc + 2) (sylD w) (List.replicate 4 (⟨v, a.p⟩, 0))) s

/-- VBCAST (03 R121). -/
def execVbcast (x : Side) (n cyc : Nat) (w : Word) (s : State) : Host.Outcome State Fault Refusal :=
  .next (runVbcast x n cyc w s)

/-- gd = lane IMM9 [2:0] of va (03 R121). -/
def runVext (x : Side) (n cyc : Nat) (w : Word) (s : State) : State :=
  issue x n cyc w (poisonG (cyc + 2) (sylD w)) (fun t =>
    let a := readV t (sylA w) (laneGroup w)
    let v := if laneWide w then a.v else BitVec.ofNat 64 (a.v.toNat / 2 ^ (32 * (laneNum w % 2)) % 2 ^ 32)
    resG (cyc + 2) (sylD w) ⟨v, a.p⟩ 0) s

/-- VEXT (03 R121). -/
def execVext (x : Side) (n cyc : Nat) (w : Word) (s : State) : Host.Outcome State Fault Refusal :=
  .next (runVext x n cyc w s)

/-- Lane IMM9 [2:0] of vd = g a, the other lanes unchanged; the lanes kept carry their poison (03 R121, R141). -/
def runVins (x : Side) (n cyc : Nat) (w : Word) (s : State) : State :=
  issue x n cyc w (poisonV (cyc + 2) (sylD w)) (fun t =>
    let a := readG t (sylA w)
    resV (cyc + 2) (sylD w) ((List.range 4).map (fun k =>
      let o := readV t (sylD w) k
      if k = laneGroup w then
        if laneWide w then (⟨a.v, a.p⟩, 0)
        else (⟨insertHalf o.v (laneNum w % 2) a.v, a.p || o.p⟩, 0)
      else (o, 0)))) s

/-- VINS (03 R121). -/
def execVins (x : Side) (n cyc : Nat) (w : Word) (s : State) : Host.Outcome State Fault Refusal :=
  .next (runVins x n cyc w s)

/-- gd = the sum of the lanes of va in fixed order (03 R121, R125). -/
def runVsum (x : Side) (n cyc : Nat) (w : Word) (s : State) : State :=
  let lat := if bitOf w.toNat 0 then 12 else 8
  issue x n cyc w (poisonG (cyc + lat) (sylD w)) (fun t =>
    let gs := (List.range 4).map (readV t (sylA w))
    let r := vsum (fmtOf w) (gs.map (fun g => g.v.toNat))
    resG (cyc + lat) (sylD w) ⟨BitVec.ofNat 64 r.1, gs.any (fun g => g.p)⟩ r.2) s

/-- VSUM (03 R121). -/
def execVsum (x : Side) (n cyc : Nat) (w : Word) (s : State) : Host.Outcome State Fault Refusal :=
  .next (runVsum x n cyc w s)

/-- vd = va, no bit changed (03 R121, R123). -/
def runVmov (x : Side) (n cyc : Nat) (w : Word) (s : State) : State :=
  issue x n cyc w (poisonV (cyc + 1) (sylD w)) (fun t =>
    resV (cyc + 1) (sylD w) ((List.range 4).map (fun k => (readV t (sylA w) k, 0)))) s

/-- VMOV (03 R121). -/
def execVmov (x : Side) (n cyc : Nat) (w : Word) (s : State) : Host.Outcome State Fault Refusal :=
  .next (runVmov x n cyc w s)

end Sys2Proof.Machine
end

