-- ==== Sys2Proof/Machine/TileInt.lean ====
section
/-!
DEFINITION. Slots 0 and 1 of a pontoon tile: integer, predicate and Q1.31 syllables (03 R116, R120).
-/
namespace Sys2Proof.Machine

/-- Shift counts use bits [5:0] (03 R120). -/
def shiftCount (b : DWord) : Nat := b.toNat % 64

/-- The width that FN codes: 8, 16 or 32 bits (03 R120). -/
def fnWidth (w : Word) : Nat := 8 * 2 ^ sylFn w

/-- A Q1.31 source, bits [31:0] (03 R120). -/
def q31 (a : DWord) : Int := sval 32 a.toNat

/-- An integer saturated to the signed range of `n` bits, sign-extended to 64; QS when it saturates. -/
def satTo (n : Nat) (i : Int) : DWord × Nat :=
  let hi : Int := 2 ^ (n - 1)
  if i < -hi then (BitVec.ofInt 64 (-hi), flQS) else if hi ≤ i then (BitVec.ofInt 64 (hi - 1), flQS)
  else (BitVec.ofInt 64 i, 0)

/-- Saturation to Q1.31. -/
def satQ (i : Int) : DWord × Nat := satTo 32 i

/-- An integer divided by 2^k with convergent rounding (00 R17). -/
def roundInt (i : Int) (k : Nat) : Int :=
  let r := (roundShift i.natAbs k false).1
  if i < 0 then -(r : Int) else r

/-- A syllable that does nothing (03 R116): the tile is brought to the cycle. -/
def runNop (x : Side) (n cyc : Nat) (_w : Word) (s : State) : State :=
  settle x n cyc s

/-- NOP (03 R116). -/
def execNop (x : Side) (n cyc : Nat) (w : Word) (s : State) : Host.Outcome State Fault Refusal :=
  .next (runNop x n cyc w s)

/-- d = a + b, wrapping (03 R120). -/
def runAdd (x : Side) (n cyc : Nat) (w : Word) (s : State) : State :=
  intOp 1 (fun a b => (a + b, 0)) x n cyc w s

/-- ADD (03 R120). Log entry 42 (DEDUCED, safe). -/
def execAdd (x : Side) (n cyc : Nat) (w : Word) (s : State) : Host.Outcome State Fault Refusal :=
  .next (runAdd x n cyc w s)

/-- d = a − b, wrapping (03 R120). -/
def runSub (x : Side) (n cyc : Nat) (w : Word) (s : State) : State :=
  intOp 1 (fun a b => (a - b, 0)) x n cyc w s

/-- SUB (03 R120). -/
def execSub (x : Side) (n cyc : Nat) (w : Word) (s : State) : Host.Outcome State Fault Refusal :=
  .next (runSub x n cyc w s)

/-- d = a AND b (03 R120). -/
def runAnd (x : Side) (n cyc : Nat) (w : Word) (s : State) : State :=
  intOp 1 (fun a b => (a &&& b, 0)) x n cyc w s

/-- AND (03 R120). -/
def execAnd (x : Side) (n cyc : Nat) (w : Word) (s : State) : Host.Outcome State Fault Refusal :=
  .next (runAnd x n cyc w s)

/-- d = a OR b (03 R120). -/
def runOr (x : Side) (n cyc : Nat) (w : Word) (s : State) : State :=
  intOp 1 (fun a b => (a ||| b, 0)) x n cyc w s

/-- OR (03 R120). -/
def execOr (x : Side) (n cyc : Nat) (w : Word) (s : State) : Host.Outcome State Fault Refusal :=
  .next (runOr x n cyc w s)

/-- d = a XOR b (03 R120). -/
def runXor (x : Side) (n cyc : Nat) (w : Word) (s : State) : State :=
  intOp 1 (fun a b => (a ^^^ b, 0)) x n cyc w s

/-- XOR (03 R120). -/
def execXor (x : Side) (n cyc : Nat) (w : Word) (s : State) : Host.Outcome State Fault Refusal :=
  .next (runXor x n cyc w s)

/-- d = a shifted left by bits [5:0] of b (03 R120). -/
def runShl (x : Side) (n cyc : Nat) (w : Word) (s : State) : State :=
  intOp 1 (fun a b => (a <<< shiftCount b, 0)) x n cyc w s

/-- SHL (03 R120). -/
def execShl (x : Side) (n cyc : Nat) (w : Word) (s : State) : Host.Outcome State Fault Refusal :=
  .next (runShl x n cyc w s)

/-- d = a shifted right with zero fill (03 R120). -/
def runShr (x : Side) (n cyc : Nat) (w : Word) (s : State) : State :=
  intOp 1 (fun a b => (a >>> shiftCount b, 0)) x n cyc w s

/-- SHR (03 R120). -/
def execShr (x : Side) (n cyc : Nat) (w : Word) (s : State) : Host.Outcome State Fault Refusal :=
  .next (runShr x n cyc w s)

/-- d = a shifted right with sign fill (03 R120). -/
def runSar (x : Side) (n cyc : Nat) (w : Word) (s : State) : State :=
  intOp 1 (fun a b => (a.sshiftRight (shiftCount b), 0)) x n cyc w s

/-- SAR (03 R120). -/
def execSar (x : Side) (n cyc : Nat) (w : Word) (s : State) : Host.Outcome State Fault Refusal :=
  .next (runSar x n cyc w s)

/-- The signed minimum (03 R120). -/
def runMin (x : Side) (n cyc : Nat) (w : Word) (s : State) : State :=
  intOp 1 (fun a b => (if a.toInt ≤ b.toInt then a else b, 0)) x n cyc w s

/-- MIN (03 R120). -/
def execMin (x : Side) (n cyc : Nat) (w : Word) (s : State) : Host.Outcome State Fault Refusal :=
  .next (runMin x n cyc w s)

/-- The signed maximum (03 R120). -/
def runMax (x : Side) (n cyc : Nat) (w : Word) (s : State) : State :=
  intOp 1 (fun a b => (if a.toInt ≤ b.toInt then b else a, 0)) x n cyc w s

/-- MAX (03 R120). -/
def execMax (x : Side) (n cyc : Nat) (w : Word) (s : State) : Host.Outcome State Fault Refusal :=
  .next (runMax x n cyc w s)

/-- The unsigned minimum (03 R120). -/
def runMinu (x : Side) (n cyc : Nat) (w : Word) (s : State) : State :=
  intOp 1 (fun a b => (if a.toNat ≤ b.toNat then a else b, 0)) x n cyc w s

/-- MINU (03 R120). -/
def execMinu (x : Side) (n cyc : Nat) (w : Word) (s : State) : Host.Outcome State Fault Refusal :=
  .next (runMinu x n cyc w s)

/-- The unsigned maximum (03 R120). -/
def runMaxu (x : Side) (n cyc : Nat) (w : Word) (s : State) : State :=
  intOp 1 (fun a b => (if a.toNat ≤ b.toNat then b else a, 0)) x n cyc w s

/-- MAXU (03 R120). -/
def execMaxu (x : Side) (n cyc : Nat) (w : Word) (s : State) : Host.Outcome State Fault Refusal :=
  .next (runMaxu x n cyc w s)

/-- d = a (03 R120). -/
def runMov (x : Side) (n cyc : Nat) (w : Word) (s : State) : State :=
  intOp1 (fun a => (a, 0)) x n cyc w s

/-- MOV (03 R120). -/
def execMov (x : Side) (n cyc : Nat) (w : Word) (s : State) : Host.Outcome State Fault Refusal :=
  .next (runMov x n cyc w s)

/-- d = IMM15, sign-extended (03 R118, R120). -/
def runMovi (x : Side) (n cyc : Nat) (w : Word) (s : State) : State :=
  issue x n cyc w (poisonG (cyc + 1) (sylD w))
    (fun _ => resG (cyc + 1) (sylD w) ⟨BitVec.ofInt 64 (sylImm15 w), false⟩ 0) s

/-- MOVI (03 R118). -/
def execMovi (x : Side) (n cyc : Nat) (w : Word) (s : State) : Host.Outcome State Fault Refusal :=
  .next (runMovi x n cyc w s)

/-- d = a if the guard is true, b if false; it always executes, and the operand not selected has no effect (03 R120, R130, R141).
Log entry 118 (DEDUCED, unsafe). -/
def runSel (x : Side) (n cyc : Nat) (w : Word) (s : State) : State :=
  let s := settle x n cyc s
  let t := s.tile x n
  let g := readP t (sylP w)
  let c := if g.1 ^^ sylN w then readG t (sylA w) else readG t (sylB w)
  launch x n (resG (cyc + 1) (sylD w) ⟨c.v, c.p || g.2⟩ 0) s

/-- SEL (03 R120). -/
def execSel (x : Side) (n cyc : Nat) (w : Word) (s : State) : Host.Outcome State Fault Refusal :=
  .next (runSel x n cyc w s)

/-- pd = (a = b) (03 R120). -/
def runCmpeq (x : Side) (n cyc : Nat) (w : Word) (s : State) : State :=
  cmpOp (fun a b => a == b) x n cyc w s

/-- CMPEQ (03 R120). -/
def execCmpeq (x : Side) (n cyc : Nat) (w : Word) (s : State) : Host.Outcome State Fault Refusal :=
  .next (runCmpeq x n cyc w s)

/-- pd = (a ≠ b) (03 R120). -/
def runCmpne (x : Side) (n cyc : Nat) (w : Word) (s : State) : State :=
  cmpOp (fun a b => a != b) x n cyc w s

/-- CMPNE (03 R120). -/
def execCmpne (x : Side) (n cyc : Nat) (w : Word) (s : State) : Host.Outcome State Fault Refusal :=
  .next (runCmpne x n cyc w s)

/-- pd = (a < b, signed) (03 R120). -/
def runCmplt (x : Side) (n cyc : Nat) (w : Word) (s : State) : State :=
  cmpOp (fun a b => decide (a.toInt < b.toInt)) x n cyc w s

/-- CMPLT (03 R120). -/
def execCmplt (x : Side) (n cyc : Nat) (w : Word) (s : State) : Host.Outcome State Fault Refusal :=
  .next (runCmplt x n cyc w s)

/-- pd = (a ≤ b, signed) (03 R120). -/
def runCmple (x : Side) (n cyc : Nat) (w : Word) (s : State) : State :=
  cmpOp (fun a b => decide (a.toInt ≤ b.toInt)) x n cyc w s

/-- CMPLE (03 R120). -/
def execCmple (x : Side) (n cyc : Nat) (w : Word) (s : State) : Host.Outcome State Fault Refusal :=
  .next (runCmple x n cyc w s)

/-- pd = (a < b, unsigned) (03 R120). -/
def runCmpltu (x : Side) (n cyc : Nat) (w : Word) (s : State) : State :=
  cmpOp (fun a b => decide (a.toNat < b.toNat)) x n cyc w s

/-- CMPLTU (03 R120). -/
def execCmpltu (x : Side) (n cyc : Nat) (w : Word) (s : State) : Host.Outcome State Fault Refusal :=
  .next (runCmpltu x n cyc w s)

/-- pd = (a ≤ b, unsigned) (03 R120). -/
def runCmpleu (x : Side) (n cyc : Nat) (w : Word) (s : State) : State :=
  cmpOp (fun a b => decide (a.toNat ≤ b.toNat)) x n cyc w s

/-- CMPLEU (03 R120). -/
def execCmpleu (x : Side) (n cyc : Nat) (w : Word) (s : State) : Host.Outcome State Fault Refusal :=
  .next (runCmpleu x n cyc w s)

/-- pd = pa AND pb (03 R120). -/
def runPand (x : Side) (n cyc : Nat) (w : Word) (s : State) : State :=
  predOp (fun a b => a && b) x n cyc w s

/-- PAND (03 R120). -/
def execPand (x : Side) (n cyc : Nat) (w : Word) (s : State) : Host.Outcome State Fault Refusal :=
  .next (runPand x n cyc w s)

/-- pd = pa OR pb (03 R120). -/
def runPor (x : Side) (n cyc : Nat) (w : Word) (s : State) : State :=
  predOp (fun a b => a || b) x n cyc w s

/-- POR (03 R120). -/
def execPor (x : Side) (n cyc : Nat) (w : Word) (s : State) : Host.Outcome State Fault Refusal :=
  .next (runPor x n cyc w s)

/-- pd = pa XOR pb (03 R120). -/
def runPxor (x : Side) (n cyc : Nat) (w : Word) (s : State) : State :=
  predOp (fun a b => a ^^ b) x n cyc w s

/-- PXOR (03 R120). -/
def execPxor (x : Side) (n cyc : Nat) (w : Word) (s : State) : Host.Outcome State Fault Refusal :=
  .next (runPxor x n cyc w s)

/-- pd = NOT pa (03 R120). -/
def runPnot (x : Side) (n cyc : Nat) (w : Word) (s : State) : State :=
  issue x n cyc w (poisonP (cyc + 1) (sylD w)) (fun t =>
    let a := readP t (sylA w)
    resP (cyc + 1) (sylD w) (!a.1) a.2 0) s

/-- PNOT (03 R120). -/
def execPnot (x : Side) (n cyc : Nat) (w : Word) (s : State) : Host.Outcome State Fault Refusal :=
  .next (runPnot x n cyc w s)

/-- pd = the poison of the source, never poisoned; 0 under a poisoned guard (03 R120, R142). -/
def runPtst (x : Side) (n cyc : Nat) (w : Word) (s : State) : State :=
  issue x n cyc w (resP (cyc + 1) (sylD w) false false 0) (fun t =>
    let b := match sylFn w with
      | 0 => (readG t (sylA w)).p
      | 1 => (List.range 4).any (fun k => (readV t (sylA w) k).p)
      | _ => (readP t (sylA w)).2
    resP (cyc + 1) (sylD w) b false 0) s

/-- PTST (03 R120). -/
def execPtst (x : Side) (n cyc : Nat) (w : Word) (s : State) : Host.Outcome State Fault Refusal :=
  .next (runPtst x n cyc w s)

/-- a sign-extended from the width FN (03 R120). -/
def runExts (x : Side) (n cyc : Nat) (w : Word) (s : State) : State :=
  intOp1 (fun a => (BitVec.ofInt 64 (sval (fnWidth w) a.toNat), 0)) x n cyc w s

/-- EXTS (03 R120). -/
def execExts (x : Side) (n cyc : Nat) (w : Word) (s : State) : Host.Outcome State Fault Refusal :=
  .next (runExts x n cyc w s)

/-- a zero-extended from the width FN (03 R120). -/
def runExtu (x : Side) (n cyc : Nat) (w : Word) (s : State) : State :=
  intOp1 (fun a => (BitVec.ofNat 64 (a.toNat % 2 ^ fnWidth w), 0)) x n cyc w s

/-- EXTU (03 R120). -/
def execExtu (x : Side) (n cyc : Nat) (w : Word) (s : State) : Host.Outcome State Fault Refusal :=
  .next (runExtu x n cyc w s)

/-- Q1.31 a + b, saturating, sign-extended (03 R120). -/
def runQadd (x : Side) (n cyc : Nat) (w : Word) (s : State) : State :=
  intOp 1 (fun a b => satQ (q31 a + q31 b)) x n cyc w s

/-- QADD (03 R120). -/
def execQadd (x : Side) (n cyc : Nat) (w : Word) (s : State) : Host.Outcome State Fault Refusal :=
  .next (runQadd x n cyc w s)

/-- Q1.31 a − b, saturating, sign-extended (03 R120). -/
def runQsub (x : Side) (n cyc : Nat) (w : Word) (s : State) : State :=
  intOp 1 (fun a b => satQ (q31 a - q31 b)) x n cyc w s

/-- QSUB (03 R120). -/
def execQsub (x : Side) (n cyc : Nat) (w : Word) (s : State) : Host.Outcome State Fault Refusal :=
  .next (runQsub x n cyc w s)

/-- The count of leading zero bits of a, 0 to 64 (03 R120). -/
def runClz (x : Side) (n cyc : Nat) (w : Word) (s : State) : State :=
  intOp1 (fun a => (BitVec.ofNat 64 (if a = 0 then 64 else 63 - Nat.log2 a.toNat), 0)) x n cyc w s

/-- CLZ (03 R120). -/
def execClz (x : Side) (n cyc : Nat) (w : Word) (s : State) : Host.Outcome State Fault Refusal :=
  .next (runClz x n cyc w s)

/-- The low 64 bits of a × b (03 R120). -/
def runMul (x : Side) (n cyc : Nat) (w : Word) (s : State) : State :=
  intOp 3 (fun a b => (a * b, 0)) x n cyc w s

/-- MUL (03 R120). -/
def execMul (x : Side) (n cyc : Nat) (w : Word) (s : State) : Host.Outcome State Fault Refusal :=
  .next (runMul x n cyc w s)

/-- The high 64 bits of the signed product (03 R120). -/
def runMulh (x : Side) (n cyc : Nat) (w : Word) (s : State) : State :=
  intOp 3 (fun a b => (BitVec.ofInt 64 (a.toInt * b.toInt / 2 ^ 64), 0)) x n cyc w s

/-- MULH (03 R120). -/
def execMulh (x : Side) (n cyc : Nat) (w : Word) (s : State) : Host.Outcome State Fault Refusal :=
  .next (runMulh x n cyc w s)

/-- The high 64 bits of the unsigned product (03 R120). -/
def runMulhu (x : Side) (n cyc : Nat) (w : Word) (s : State) : State :=
  intOp 3 (fun a b => (BitVec.ofNat 64 (a.toNat * b.toNat / 2 ^ 64), 0)) x n cyc w s

/-- MULHU (03 R120). -/
def execMulhu (x : Side) (n cyc : Nat) (w : Word) (s : State) : Host.Outcome State Fault Refusal :=
  .next (runMulhu x n cyc w s)

/-- Q1.31 a × b, rounded convergently, saturating, sign-extended (03 R120). -/
def runQmul (x : Side) (n cyc : Nat) (w : Word) (s : State) : State :=
  intOp 3 (fun a b => satQ (roundInt (q31 a * q31 b) 31)) x n cyc w s

/-- QMUL (03 R120). -/
def execQmul (x : Side) (n cyc : Nat) (w : Word) (s : State) : Host.Outcome State Fault Refusal :=
  .next (runQmul x n cyc w s)

/-- a saturated to the signed range of the width FN, sign-extended (03 R120). -/
def runSats (x : Side) (n cyc : Nat) (w : Word) (s : State) : State :=
  intOp1 (fun a => satTo (fnWidth w) a.toInt) x n cyc w s

/-- SATS (03 R120). -/
def execSats (x : Side) (n cyc : Nat) (w : Word) (s : State) : Host.Outcome State Fault Refusal :=
  .next (runSats x n cyc w s)

end Sys2Proof.Machine
end

