-- ==== Sys2Proof/Machine/TileMem.lean ====
section
/-!
DEFINITION. Slot 3 of a pontoon tile: loads, stores, special registers, loops and the end of a program (03 R126 to R133).
-/
namespace Sys2Proof.Machine

/-- A special register (03 R113); the reserved numbers read 0. -/
def readSpecial (f : Ferryman) (n cyc : Nat) (t : Tile) (k : Nat) : Nat :=
  match k with
  | 0 => n
  | 1 => f.crossing % 2 ^ 32
  | 2 => f.index
  | 3 => cyc
  | 4 => t.job
  | 5 => t.lix0
  | 6 => t.lix1
  | 7 => t.flags
  | 8 => t.pseen
  | _ => 0

/-- The iteration index of a level set (03 R132, R133). -/
def setLix (level v : Nat) (t : Tile) : Tile := if level = 0 then { t with lix0 := v } else { t with lix1 := v }

/-- A loop opened at the bundle in issue: a level inside a body is level 1 (03 R131, R132). After a lost `LOOP` bundles issue in address
order, and no body is opened (03 R723). Log entry 120 (DEDUCED, unsafe). -/
def openLoop (w : Word) (t : Tile) : Tile :=
  setLix t.loops.length 0
    { t with loops := if t.lost then [] else (t.bundle + 1, t.bundle + 1 + sylLen w, sylCount w) :: t.loops }

/-- gd = a byte, sign-extended (03 R126, R127). -/
def runLdb (x : Side) (n cyc : Nat) (w : Word) (s : State) : State :=
  loadOp 1 (fun v => BitVec.ofInt 64 (sval 8 v)) x n cyc w s

/-- LDB (03 R126). -/
def execLdb (x : Side) (n cyc : Nat) (w : Word) (s : State) : Host.Outcome State Fault Refusal :=
  .next (runLdb x n cyc w s)

/-- gd = a byte, zero-extended (03 R126, R127). -/
def runLdbu (x : Side) (n cyc : Nat) (w : Word) (s : State) : State :=
  loadOp 1 (fun v => BitVec.ofNat 64 v) x n cyc w s

/-- LDBU (03 R126). -/
def execLdbu (x : Side) (n cyc : Nat) (w : Word) (s : State) : Host.Outcome State Fault Refusal :=
  .next (runLdbu x n cyc w s)

/-- gd = 16 bits, sign-extended (03 R126, R127). -/
def runLdh (x : Side) (n cyc : Nat) (w : Word) (s : State) : State :=
  loadOp 2 (fun v => BitVec.ofInt 64 (sval 16 v)) x n cyc w s

/-- LDH (03 R126). -/
def execLdh (x : Side) (n cyc : Nat) (w : Word) (s : State) : Host.Outcome State Fault Refusal :=
  .next (runLdh x n cyc w s)

/-- gd = 16 bits, zero-extended (03 R126, R127). -/
def runLdhu (x : Side) (n cyc : Nat) (w : Word) (s : State) : State :=
  loadOp 2 (fun v => BitVec.ofNat 64 v) x n cyc w s

/-- LDHU (03 R126). -/
def execLdhu (x : Side) (n cyc : Nat) (w : Word) (s : State) : Host.Outcome State Fault Refusal :=
  .next (runLdhu x n cyc w s)

/-- gd = 32 bits, sign-extended (03 R126, R127). -/
def runLdw (x : Side) (n cyc : Nat) (w : Word) (s : State) : State :=
  loadOp 4 (fun v => BitVec.ofInt 64 (sval 32 v)) x n cyc w s

/-- LDW (03 R126). -/
def execLdw (x : Side) (n cyc : Nat) (w : Word) (s : State) : Host.Outcome State Fault Refusal :=
  .next (runLdw x n cyc w s)

/-- gd = 32 bits, zero-extended (03 R126, R127). -/
def runLdwu (x : Side) (n cyc : Nat) (w : Word) (s : State) : State :=
  loadOp 4 (fun v => BitVec.ofNat 64 v) x n cyc w s

/-- LDWU (03 R126). -/
def execLdwu (x : Side) (n cyc : Nat) (w : Word) (s : State) : Host.Outcome State Fault Refusal :=
  .next (runLdwu x n cyc w s)

/-- gd = 64 bits (03 R126, R127). -/
def runLdd (x : Side) (n cyc : Nat) (w : Word) (s : State) : State :=
  loadOp 8 (fun v => BitVec.ofNat 64 v) x n cyc w s

/-- LDD (03 R126). -/
def execLdd (x : Side) (n cyc : Nat) (w : Word) (s : State) : Host.Outcome State Fault Refusal :=
  .next (runLdd x n cyc w s)

/-- vd = 32 bytes (03 R126, R140). -/
def runLdv (x : Side) (n cyc : Nat) (w : Word) (s : State) : State :=
  loadVec x n cyc w s

/-- LDV (03 R126). -/
def execLdv (x : Side) (n cyc : Nat) (w : Word) (s : State) : Host.Outcome State Fault Refusal :=
  .next (runLdv x n cyc w s)

/-- Stores bits [7:0] of gd (03 R126, R143). -/
def runStb (x : Side) (n cyc : Nat) (w : Word) (s : State) : State :=
  storeOp 1 (fun t => [readG t (sylD w)]) x n cyc w s

/-- STB (03 R126). -/
def execStb (x : Side) (n cyc : Nat) (w : Word) (s : State) : Host.Outcome State Fault Refusal :=
  .next (runStb x n cyc w s)

/-- Stores bits [15:0] of gd (03 R126, R143). -/
def runSth (x : Side) (n cyc : Nat) (w : Word) (s : State) : State :=
  storeOp 2 (fun t => [readG t (sylD w)]) x n cyc w s

/-- STH (03 R126). -/
def execSth (x : Side) (n cyc : Nat) (w : Word) (s : State) : Host.Outcome State Fault Refusal :=
  .next (runSth x n cyc w s)

/-- Stores bits [31:0] of gd (03 R126, R143). -/
def runStw (x : Side) (n cyc : Nat) (w : Word) (s : State) : State :=
  storeOp 4 (fun t => [readG t (sylD w)]) x n cyc w s

/-- STW (03 R126). -/
def execStw (x : Side) (n cyc : Nat) (w : Word) (s : State) : Host.Outcome State Fault Refusal :=
  .next (runStw x n cyc w s)

/-- Stores gd, with the poison pattern for a poisoned value (03 R126, R143). -/
def runStd (x : Side) (n cyc : Nat) (w : Word) (s : State) : State :=
  storeOp 8 (fun t => [readG t (sylD w)]) x n cyc w s

/-- STD (03 R126). -/
def execStd (x : Side) (n cyc : Nat) (w : Word) (s : State) : Host.Outcome State Fault Refusal :=
  .next (runStd x n cyc w s)

/-- Stores vd (03 R126, R143). -/
def runStv (x : Side) (n cyc : Nat) (w : Word) (s : State) : State :=
  storeOp 32 (fun t => (List.range 4).map (readV t (sylD w))) x n cyc w s

/-- STV (03 R126). -/
def execStv (x : Side) (n cyc : Nat) (w : Word) (s : State) : Host.Outcome State Fault Refusal :=
  .next (runStv x n cyc w s)

/-- gd = special register A, zero-extended, never poisoned (03 R113, R126). -/
def runMfs (x : Side) (n cyc : Nat) (w : Word) (s : State) : State :=
  issue x n cyc w (poisonG (cyc + 1) (sylD w))
    (fun t => resG (cyc + 1) (sylD w) ⟨BitVec.ofNat 64 (readSpecial (s.ld x).fmn n cyc t (sylA w)), false⟩ 0) s

/-- MFS (03 R113). -/
def execMfs (x : Side) (n cyc : Nat) (w : Word) (s : State) : Host.Outcome State Fault Refusal :=
  .next (runMfs x n cyc w s)

/-- Special register D = bits [31:0] of g a; a poisoned guard writes 0 (03 R113, R126, R142). -/
def runMts (x : Side) (n cyc : Nat) (w : Word) (s : State) : State :=
  issue x n cyc w { land := cyc + 1, sp := some (sylD w, 0) }
    (fun t => { land := cyc + 1, sp := some (sylD w, (readG t (sylA w)).v.toNat % 2 ^ 32) }) s

/-- MTS (03 R113). -/
def execMts (x : Side) (n cyc : Nat) (w : Word) (s : State) : Host.Outcome State Fault Refusal :=
  .next (runMts x n cyc w s)

/-- A counted loop over the following bundles (03 R118, R131 to R133): the index of its level becomes 0. -/
def runLoop (x : Side) (n cyc : Nat) (w : Word) (s : State) : State :=
  let s := settle x n cyc s
  s.modTile x n (fun t => openLoop w t)

/-- LOOP (03 R118). -/
def execLoop (x : Side) (n cyc : Nat) (w : Word) (s : State) : Host.Outcome State Fault Refusal :=
  .next (runLoop x n cyc w s)

/-- The last bundle of the program (03 R126, R136). -/
def runEndProg (x : Side) (n cyc : Nat) (_w : Word) (s : State) : State :=
  let s := settle x n cyc s
  s.modTile x n (fun t => { t with running := false, loops := [] })

/-- END (03 R126). -/
def execEndProg (x : Side) (n cyc : Nat) (w : Word) (s : State) : Host.Outcome State Fault Refusal :=
  .next (runEndProg x n cyc w s)

end Sys2Proof.Machine
end

