-- ==== Sys2Proof/Machine/TileRun.lean ====
section
/-!
DEFINITION. Tile programs (03 R108, R109, R131 to R136, R146 to R148, R723): the table of syllables by slot and opcode,
the issue of a program from the instruction store, tile code in a manifest and its load checks.
-/
namespace Sys2Proof.Machine

/-- What a syllable does on a tile of a landing in its issue cycle. -/
abbrev Syl := Side → Nat → Nat → Word → State → State

/-- Slots 0 and 1 (03 R120). -/
def sylInt (op : Nat) : Syl :=
  match op with
  | 0x01 => runAdd | 0x02 => runSub | 0x03 => runAnd | 0x04 => runOr | 0x05 => runXor | 0x06 => runShl | 0x07 => runShr
  | 0x08 => runSar | 0x09 => runMin | 0x0A => runMax | 0x0B => runMinu | 0x0C => runMaxu | 0x0D => runMov
  | 0x0E => runMovi | 0x0F => runSel | 0x10 => runCmpeq | 0x11 => runCmpne | 0x12 => runCmplt | 0x13 => runCmple
  | 0x14 => runCmpltu | 0x15 => runCmpleu | 0x16 => runPand | 0x17 => runPor | 0x18 => runPxor | 0x19 => runPnot
  | 0x1A => runPtst | 0x1B => runExts | 0x1C => runExtu | 0x1D => runQadd | 0x1E => runQsub | 0x1F => runClz
  | 0x20 => runMul | 0x21 => runMulh | 0x22 => runMulhu | 0x23 => runQmul | 0x24 => runSats
  | _ => runNop

/-- Slot 2 (03 R121). -/
def sylFloat (op : Nat) : Syl :=
  match op with
  | 0x01 => runFadd | 0x02 => runFsub | 0x03 => runFmul | 0x04 => runFma | 0x05 => runFms | 0x06 => runFmin
  | 0x07 => runFmax | 0x08 => runFabs | 0x09 => runFneg | 0x0A => runFdiv | 0x0B => runFsqrt | 0x10 => runFcmpeq
  | 0x11 => runFcmplt | 0x12 => runFcmple | 0x13 => runFcmpun | 0x18 => runFcvtif | 0x19 => runFcvtfi
  | 0x1A => runFcvtff | 0x1B => runFcvtqf | 0x1C => runFcvtfq | 0x20 => runVbcast | 0x21 => runVext | 0x22 => runVins
  | 0x23 => runVsum | 0x24 => runVmov
  | _ => runNop

/-- Slot 3 (03 R126). -/
def sylMem (op : Nat) : Syl :=
  match op with
  | 0x01 => runLdb | 0x02 => runLdbu | 0x03 => runLdh | 0x04 => runLdhu | 0x05 => runLdw | 0x06 => runLdwu
  | 0x07 => runLdd | 0x08 => runLdv | 0x09 => runStb | 0x0A => runSth | 0x0B => runStw | 0x0C => runStd | 0x0D => runStv
  | 0x10 => runMfs | 0x11 => runMts | 0x12 => runLoop | 0x13 => runEndProg
  | _ => runNop

/-- The syllable of a slot (03 R116). Verification admits no opcode that is undefined in its slot. -/
def sylOf (slot : Nat) (w : Word) : Syl :=
  if slot < 2 then sylInt (sylOp w) else if slot = 2 then sylFloat (sylOp w) else sylMem (sylOp w)

/-! ### Tile code in a manifest (03 R146) -/

/-- A tile record: its image offset, tile number, entry, bundle and image counts, record length. -/
structure TileRec where
  off : Nat := 0
  tile : Nat := 0
  entries : Nat := 0
  bundles : Nat := 0
  images : Nat := 0
  len : Nat := 0
deriving DecidableEq, Repr

/-- The record at an image offset. -/
def tileRecAt (m : Tab Byte) (o : Nat) : TileRec :=
  { off := o, tile := le m o 1, entries := le m (o + 1) 1, bundles := le m (o + 2) 2, images := le m (o + 4) 2,
    len := le m (o + 8) 4 }

/-- `n` records laid one after the other from offset `o`. -/
def tileRecsFrom (m : Tab Byte) : Nat → Nat → List TileRec
  | 0, _ => []
  | n + 1, o => let r := tileRecAt m o; r :: tileRecsFrom m n (o + r.len)

/-- The tile records of an image. -/
def tileRecs (m : Tab Byte) : List TileRec :=
  match sectionOf m 0x0004 with
  | some c => tileRecsFrom m (le m c.off 2) (c.off + 8)
  | none => []

/-- The record of tile `n`. -/
def tileRec (m : Tab Byte) (n : Nat) : Option TileRec := (tileRecs m).find? (fun r => r.tile == n)

/-- Bundle address of entry `e`. -/
def TileRec.entry (r : TileRec) (m : Tab Byte) (e : Nat) : Nat := le m (r.off + 0x10 + 2 * e) 2

/-- Image offset of bundle `b`. -/
def TileRec.code (r : TileRec) (b : Nat) : Nat := r.off + 0x10 + (2 * r.entries + 7) / 8 * 8 + 16 * b

/-- Syllable `k` of bundle `b`. -/
def TileRec.syl (r : TileRec) (m : Tab Byte) (b k : Nat) : Word := BitVec.ofNat 32 (le m (r.code b + 4 * k) 4)

/-- The local images: image offset of each, its local offset and its length. -/
def imagesFrom (m : Tab Byte) : Nat → Nat → List (Nat × Nat × Nat)
  | 0, _ => []
  | n + 1, o => (o, le m o 4, le m (o + 4) 4) :: imagesFrom m n (o + 8 + le m (o + 4) 4)

/-- The local images of a record. -/
def TileRec.locals (r : TileRec) (m : Tab Byte) : List (Nat × Nat × Nat) := imagesFrom m r.images (r.code r.bundles)

/-- The `LOOP` of a bundle: its count and length fields. -/
def TileRec.loopAt (r : TileRec) (m : Tab Byte) (b : Nat) : Option (Nat × Nat) :=
  let w := r.syl m b 3
  if sylOp w = 0x12 then some (sylCount w, sylLen w) else none

/-- Bundles issued over the range `[b, e)` (03 R134); `n` bounds the walk. -/
def issued (r : TileRec) (m : Tab Byte) : Nat → Nat → Nat → Nat
  | 0, _, _ => 0
  | n + 1, b, e =>
    if e ≤ b then 0
    else match r.loopAt m b with
      | none => 1 + issued r m n (b + 1) e
      | some (c, l) => 1 + (c + 1) * issued r m n (b + 1) (b + 2 + l) + issued r m n (b + 2 + l) e

/-- The first `END` from bundle `b` on. -/
def TileRec.endFrom (r : TileRec) (m : Tab Byte) (b : Nat) : Option Nat :=
  ((List.range (r.bundles - b)).map (b + ·)).find? (fun k => sylOp (r.syl m k 3) == 0x13)

/-- The issue count N of entry `e` (03 R134, R723). -/
def TileRec.issueCount (r : TileRec) (m : Tab Byte) (e : Nat) : Nat :=
  let b := r.entry m e
  match r.endFrom m b with
  | some k => issued r m 2049 b (k + 1)
  | none => 0

/-! ### Issue (03 R109, R131 to R133, R723) -/

/-- The bundle after the one in issue: an open body that ends here returns while it has iterations left, its index
increased in the cycle of the return; a finished one is left (03 R131 to R133). Log entry 41 (DEDUCED, unsafe). -/
def nextBundle (t : Tile) : List (Nat × Nat × Nat) → Tile
  | [] => { t with bundle := t.bundle + 1, loops := [] }
  | (first, last, left) :: rest =>
    if t.bundle = last then
      if 0 < left then
        let lix := if rest.length = 0 then t.lix0 else t.lix1
        setLix rest.length (lix + 1) { t with bundle := first, loops := (first, last, left - 1) :: rest }
      else nextBundle t rest
    else { t with bundle := t.bundle + 1, loops := (first, last, left) :: rest }

/-- Bundle `b` of tile `n` holds a `LOOP` in the installed record (03 R723). -/
def loopLost (m : Tab Byte) (n b : Nat) : Bool :=
  (tileRec m n).elim false (fun r => b < r.bundles && (r.loopAt m b).isSome)

/-- One bundle in issue in cycle `cyc`: its two words fetched, its four syllables issued; a fetch with an uncorrectable
error executes as four `NOP` syllables, and a `LOOP` it held is lost: issue goes on in address order and returns to no body start
(03 R149, R723). The store ends at bundle 2,047. Log entry 120 (DEDUCED, unsafe). -/
def issueBundle (x : Side) (n cyc : Nat) (s : State) : State :=
  let b := (s.tile x n).bundle
  if 2048 ≤ b then settle x n cyc s
  else
    let r := memReadN x (istoreBase n + 16 * b) 2 s
    let v := ofLe (r.1.flatMap (fun p => leBytes 8 p.v.toNat))
    if r.1.any (fun p => p.p) then
      let s := settle x n cyc (raise (.landing x) 0x0162 (n * 2 ^ 16 + b) r.2)
      if loopLost (s.ld x).fmn.img n b then s.modTile x n (fun t => { t with lost := true, loops := [] }) else s
    else (List.range 4).foldl (fun s k =>
      let w := BitVec.ofNat 32 (v / 2 ^ (32 * k))
      sylOf k w x n cyc w s) r.2

/-- The next `k` bundles of a tile's program, one in each cycle (03 R109); the program ends with its last (03 R108, R723). -/
def issueN (x : Side) (n : Nat) : Nat → State → State
  | 0, s => s
  | k + 1, s =>
    let s := issueBundle x n (s.tile x n).next s
    issueN x n k (s.modTile x n (fun t =>
      { nextBundle t t.loops with next := t.next + 1, left := t.left - 1, running := 1 < t.left,
                                  loops := if 1 < t.left then (nextBundle t t.loops).loops else [] }))

/-- Tile `n` brought to core cycle `t` of its crossing: every bundle due by then has issued, and every result due has landed. Log entry 39
(DESIGN CHOICE, unsafe). Log entry 39 (DESIGN CHOICE, unsafe). -/
def runTile (x : Side) (n t : Nat) (s : State) : State :=
  let u := s.tile x n
  settle x n t (issueN x n (min u.left (t + 1 - u.next)) s)

/-- A tile's program run to its completion, all of its results landed (03 R136). -/
def finishTile (x : Side) (n : Nat) (s : State) : State :=
  let s := issueN x n (s.tile x n).left s
  (s.tile x n).flight.foldl (fun s p => settle x n p.land s) s

/-- Every tile of a landing at the end of its crossing. -/
def finishTiles (x : Side) (s : State) : State := (List.range 16).foldl (fun s n => finishTile x n s) s

/-- The core cycle of landing `x`'s running crossing at the module's instant: 1.25 ns each (02 R57). -/
def State.coreCycle (s : State) (x : Side) : Nat := (s.now - (s.grid x).last) * 4 / (5 * nsUnit)

/-- The tile whose local memory holds an address, brought to the present cycle before the word is read or written. -/
def touchTile (x : Side) (a : Nat) (s : State) : State :=
  if 0x20000000 ≤ a && a < 0x20200000 then runTile x ((a - 0x20000000) / 0x20000) (s.coreCycle x) s else s

/-- TILE_START (03 R108, R109, R723): a dispatch in cycle `cyc` has the entry's bundles issue from cycle `cyc` + 2 on, as many as its issue
count; one that the tile still runs is brought to its end first. -/
def tileStart (x : Side) (n job cyc : Nat) (s : State) : State :=
  let m := (s.ld x).fmn.img
  match tileRec m n with
  | none => s
  | some r =>
    if r.entries ≤ job then s
    else
      (finishTile x n s).modTile x n (fun t =>
        { t with job := job, running := 0 < r.issueCount m job, bundle := r.entry m job, loops := [], left := r.issueCount m job,
                 next := cyc + 2, lost := false })

/-- TILE_START (03 R108). Log entry 39 (DESIGN CHOICE, unsafe). -/
def execTileStart (x : Side) (n job cyc : Nat) (s : State) : Host.Outcome State Fault Refusal :=
  .next (runEntry x (0x80 + n) 1 (some job) (some cyc) (fun _ => tileStart x n job cyc) s)

/-- The stores of a tile since cycle `cyc` taken back, and its program stopped (02 R87). Log entry 119 (DEDUCED, unsafe). -/
def undoTile (x : Side) (n cyc : Nat) (s : State) : State :=
  let mine := fun (e : TileStore) => tileBase n ≤ e.addr && e.addr < tileBase n + 0x20000 && cyc < e.cycle
  let log := (s.ld x).fmn.storeLog
  let s := (log.filter mine).foldr (fun e s => memWrite x e.addr e.old s) s
  (s.modLd x (fun l => { l with fmn := { l.fmn with storeLog := log.filter (fun e => !mine e) } })).modTile x n
    (fun t => { t with running := false, loops := [], left := 0, flight := [] })

/-! ### Timing and hazards from the code alone (03 R135, R136, R148) -/

/-- The latency of a syllable (03 R135). -/
def sylLat (slot : Nat) (w : Word) : Nat :=
  let op := sylOp w
  let single := bitOf w.toNat 0
  if slot < 2 then (if 0x20 ≤ op && op ≤ 0x23 then 3 else 1)
  else if slot = 2 then
    if op = 0x08 || op = 0x09 || op = 0x24 then 1
    else if op = 0x06 || op = 0x07 || (0x10 ≤ op && op ≤ 0x13) || (0x20 ≤ op && op ≤ 0x22) then 2
    else if 0x18 ≤ op && op ≤ 0x1C then 3
    else if op = 0x23 then (if single then 12 else 8)
    else if op = 0x0A then (if single then 12 else 24)
    else if op = 0x0B then (if single then 14 else 28)
    else 4
  else if 0x01 ≤ op && op ≤ 0x08 then 3
  else 1

/-- Keys of the registers a syllable's result lands in: g 0 to 63, p 64 to 71, special 128 to 191, v lane groups from
256; writes to g0 and p0 have none. -/
def keyG (d : Nat) : List Nat := if d = 0 then [] else [d]
def keyP (d : Nat) : List Nat := if d = 0 then [] else [64 + d]
def keyV (d : Nat) : List Nat := (List.range 4).map (256 + 4 * d + ·)

/-- The registers a syllable writes, as keys. -/
def sylDests (slot : Nat) (w : Word) : List Nat :=
  let op := sylOp w
  let d := sylD w
  if slot < 2 then
    if op = 0 then [] else if 0x10 ≤ op && op ≤ 0x1A then keyP d else keyG d
  else if slot = 2 then
    if op = 0 then []
    else if 0x10 ≤ op && op ≤ 0x13 then keyP d
    else if op = 0x21 || op = 0x23 then keyG d
    else if op = 0x20 || op = 0x22 || op = 0x24 then keyV d
    else if sylV w then keyV d else keyG d
  else if 1 ≤ op && op ≤ 7 then keyG d
  else if op = 8 then keyV d
  else if op = 0x10 then keyG d
  else if op = 0x11 then [128 + d]
  else []

/-- A walk over the issue sequence of an entry: the results in flight as (landing, key), the latest landing, the first
cycle the divide unit is free, the first bundle with a hazard. -/
structure Scan where
  bundle : Nat := 0
  loops : List (Nat × Nat × Nat) := []
  flight : List (Nat × Nat) := []
  last : Nat := 0
  divFree : Nat := 0
  bad : Option Nat := none
deriving DecidableEq, Repr

/-- One bundle of the walk, in cycle `t`. -/
def scanBundle (r : TileRec) (m : Tab Byte) (t : Nat) (c : Scan) : Scan :=
  let b := c.bundle
  let fl := c.flight.filter (fun e => t < e.1)
  let c := (List.range 4).foldl (fun (c : Scan) k =>
    let w := r.syl m b k
    let land := t + sylLat k w
    let ks := sylDests k w
    let div := k == 2 && (sylOp w == 0x0A || sylOp w == 0x0B)
    let clash := ks.any (fun d => c.flight.contains (land, d)) || (div && t < c.divFree)
    { c with
      flight := c.flight ++ ks.map (fun d => (land, d)),
      last := if w = 0 || (k = 3 && (sylOp w = 0x12 || sylOp w = 0x13)) then c.last else max c.last land,
      divFree := if div then t + (if bitOf w.toNat 0 then 4 else 8) else c.divFree,
      bad := if c.bad.isNone && clash then some b else c.bad }) { c with flight := fl }
  let ls := match r.loopAt m b with
    | some (n, l) => (b + 1, b + 1 + l, n) :: c.loops
    | none => c.loops
  let u := nextBundle { bundle := b } ls
  { c with bundle := u.bundle, loops := u.loops }

/-- `n` bundles of the walk. -/
def scanN (r : TileRec) (m : Tab Byte) : Nat → Nat → Scan → Scan
  | 0, _, c => c
  | n + 1, t, c => scanN r m n (t + 1) (scanBundle r m t c)

/-- The walk of an entry dispatched in cycle 0: its first bundle issues in cycle 2. -/
def scanEntry (r : TileRec) (m : Tab Byte) (e : Nat) : Scan :=
  scanN r m (r.issueCount m e) 2 { bundle := r.entry m e }

/-! ### Load checks (03 R148) -/

/-- Operand fields of the register form in slots 0 and 1. -/
def intForm (slot : Nat) (w : Word) : Bool :=
  let op := sylOp w
  let d := sylD w
  let a := sylA w
  let b := sylB w
  let fn := sylFn w
  let imm := sylI w
  let ri := (1 ≤ op && op ≤ 0x0A) || (0x10 ≤ op && op ≤ 0x13) || op = 0x20
  if op = 0 then w = 0
  else if op = 0x0E then imm
  else if 0x24 < op || (0x20 ≤ op && op ≤ 0x23 && slot = 0) then false
  else if imm then ri && (op < 0x10 || 0x14 ≤ op || d < 8)
  else if op = 0x0D || op = 0x1F then b = 0 && fn = 0
  else if 0x10 ≤ op && op ≤ 0x15 then d < 8 && fn = 0
  else if 0x16 ≤ op && op ≤ 0x18 then d < 8 && a < 8 && b < 8 && fn = 0
  else if op = 0x19 then d < 8 && a < 8 && b = 0 && fn = 0
  else if op = 0x1A then d < 8 && b = 0 && (fn = 0 || (fn = 1 && a < 32) || (fn = 2 && a < 8))
  else if op = 0x1B || op = 0x1C || op = 0x24 then b = 0 && fn < 3
  else fn = 0

/-- Operand fields in slot 2 (03 R121). -/
def floatForm (w : Word) : Bool :=
  let op := sylOp w
  let d := sylD w
  let a := sylA w
  let b := sylB w
  let v := sylV w
  let two := (1 ≤ op && op ≤ 7) || op = 0x0A || (0x10 ≤ op && op ≤ 0x13)
  let one := op = 0x08 || op = 0x09 || op = 0x0B || (0x18 ≤ op && op ≤ 0x1C)
  if op = 0 then w = 0
  else if op = 0x21 || op = 0x22 then
    sylI w && bits w.toNat 8 4 = 1 && (bitOf w.toNat 3 || bits w.toNat 2 0 < 4)
      && (if op = 0x21 then a < 32 else d < 32)
  else if sylI w || bitOf w.toNat 2 then false
  else if op = 0x20 then v && d < 32 && b = 0
  else if op = 0x23 then v && a < 32 && b = 0
  else if op = 0x24 then v && d < 32 && a < 32 && b = 0
  else if !(two || one) || (one && b ≠ 0) then false
  else if 0x10 ≤ op && op ≤ 0x13 then !v && d < 8
  else if op = 0x0A || op = 0x0B || 0x18 ≤ op then !v
  else !v || (d < 32 && a < 32 && b < 32)

/-- Operand fields in slot 3 (03 R126). -/
def memForm (w : Word) : Bool :=
  let op := sylOp w
  let fn := sylFn w
  if op = 0 then w = 0
  else if op ≤ 0x0D then (op ≠ 8 && op ≠ 0x0D || sylD w < 32) && (sylI w || fn = 0)
  else if op = 0x10 then !sylI w && sylA w < 9 && sylB w = 0 && fn = 0
  else if op = 0x11 then !sylI w && sylD w < 9 && sylB w = 0 && fn = 0
  else if op = 0x12 then sylI w
  else if op = 0x13 then bits w.toNat 27 27 = 0 && bits w.toNat 20 0 = 0
  else false

/-- The Encoding check of a syllable (03 R119, R148). -/
def sylValid (slot : Nat) (w : Word) : Bool :=
  !(sylN w && sylP w = 0) && (if slot < 2 then intForm slot w else if slot = 2 then floatForm w else memForm w)

/-- The bodies of a record's loops, as (LOOP bundle, first, last). -/
def TileRec.bodies (r : TileRec) (m : Tab Byte) : List (Nat × Nat × Nat) :=
  (List.range r.bundles).filterMap (fun b => (r.loopAt m b).map (fun l => (b, b + 1, b + 1 + l.2)))

/-- The Control check of bundle `b` (03 R148). Log entry 36 (DEDUCED, unsafe). -/
def controlOk (r : TileRec) (m : Tab Byte) (bodies : List (Nat × Nat × Nat)) (b : Nat) : Bool :=
  let w := r.syl m b 3
  let op := sylOp w
  let outer := bodies.filter (fun e => e.2.1 ≤ b && b ≤ e.2.2)
  if op = 0x12 then
    let last := b + 1 + sylLen w
    sylP w = 0 && !sylN w && last < r.bundles && outer.length < 2 && outer.all (fun e => last ≤ e.2.2)
  else if op = 0x13 then sylP w = 0 && !sylN w && outer.isEmpty
  else true

/-- Two of the local images overlap, or one lies outside local memory or is misaligned (03 R148). -/
def imageBad (is : List (Nat × Nat × Nat)) : Option Nat :=
  (List.range is.length).findSome? (fun k =>
    let i := is.getD k (0, 0, 0)
    if i.2.1 % 8 ≠ 0 || i.2.2 % 8 ≠ 0 || 0x20000 ≤ i.2.1 || 0x20000 < i.2.1 + i.2.2
        || (is.take k).any (fun j => overlap i.2 j.2) then some i.1 else none)

/-- The padding of a record's entry table is 0 (03 R146). -/
def TileRec.padOk (r : TileRec) (m : Tab Byte) : Bool :=
  (List.range (r.code 0 - (r.off + 0x10 + 2 * r.entries))).all (fun i => le m (r.off + 0x10 + 2 * r.entries + i) 1 == 0)

/-- The Record check (03 R148); `last` ends the section. -/
def recordOk (m : Tab Byte) (last : Nat) (before : List TileRec) (r : TileRec) : Bool :=
  let size := r.code r.bundles - r.off + (r.locals m).foldl (fun n i => n + 8 + i.2.2) 0
  r.tile < 16 && before.all (fun q => q.tile ≠ r.tile) && 1 ≤ r.entries && r.entries ≤ 64 && 1 ≤ r.bundles
    && r.bundles ≤ 2048 && r.images ≤ 256 && le m (r.off + 6) 2 == 0 && le m (r.off + 12) 4 == 0 && r.len % 8 == 0
    && r.len == size && r.off + r.len ≤ last && r.padOk m

/-- The record of tile `n` passes the Record check (03 R147, R148). -/
def recordFine (m : Tab Byte) (n : Nat) : Bool :=
  match sectionOf m 0x0004, tileRec m n with
  | some c, some r => recordOk m (c.off + c.len) ((tileRecs m).takeWhile (fun q => q.tile ≠ n)) r
  | _, _ => false

/-- Cycles from dispatch to completion (03 R136): 1 + N + D; none of a record that fails the Record check. -/
def tileCycles (m : Tab Byte) (n job : Nat) : Nat :=
  match tileRec m n with
  | none => 0
  | some r =>
    if recordFine m n then
      let k := r.issueCount m job
      1 + k + max 1 ((scanEntry r m job).last - (1 + k))
    else 0

/-- The first failure of a record, as an image offset (03 R148). Log entry 36 (DEDUCED, unsafe). -/
def tileRecBad (m : Tab Byte) (last : Nat) (before : List TileRec) (r : TileRec) : Option Nat :=
  if !recordOk m last before r then some r.off
  else
    let bodies := r.bodies m
    let bs := List.range r.bundles
    let es := List.range r.entries
    if es.any (fun e => let b := r.entry m e; r.bundles ≤ b || bodies.any (fun y => y.2.1 ≤ b && b ≤ y.2.2)) then some r.off
    else match bs.find? (fun b => !(List.range 4).all (fun k => sylValid k (r.syl m b k))) with
      | some b => some (r.code b)
      | none =>
        match bs.find? (fun b => !controlOk r m bodies b) with
        | some b => some (r.code b)
        | none =>
          match es.find? (fun e => (r.endFrom m (r.entry m e)).isNone) with
          | some e => some (r.code (r.entry m e))
          | none =>
            match es.findSome? (fun e => (scanEntry r m e).bad) with
            | some b => some (r.code b)
            | none =>
              match bs.find? (fun b => sylOp (r.syl m b 3) == 0x11 && sylD (r.syl m b 3) < 7) with
              | some b => some (r.code b)
              | none => imageBad (r.locals m)

/-- The first failure of a list of records. -/
def tileRecsBad (m : Tab Byte) (last : Nat) : List TileRec → List TileRec → Option Nat
  | [], _ => none
  | r :: t, before =>
    match tileRecBad m last before r with
    | some o => some o
    | none => tileRecsBad m last t (before ++ [r])

/-- The check `FMN_V_TILE` of an image (03 R148): the offset of the first failure. -/
def tileBad (m : Tab Byte) : Option Nat :=
  match sectionOf m 0x0004 with
  | none => none
  | some c =>
    if le m (c.off + 2) 6 ≠ 0 then some c.off else tileRecsBad m (c.off + c.len) (tileRecs m) []

end Sys2Proof.Machine
end

