-- ==== Sys2Proof/Machine/Registers.lean ====
section
/-!
DEFINITION. Register accesses (00 R9 to R15, 01 R40 to R44) and the data ports of the pursers (16 R604 to R611).
-/
namespace Sys2Proof.Machine

/-! ### Reads -/

/-- The registers latched by a read of `a`, the low word of a 64-bit pair (00 R13, 15 R597, 18 R710). -/
def pairHigh (a : Nat) : List Nat :=
  let o := a % 65536
  let is := fun (l : List Nat) => if l.contains o then [a + 4] else []
  match regUnit a with
  | some 0x01 => is [0x00, 0x10]
  | some 0x04 => is [0x08, 0x10, 0x48, 0x50]
  | some 0x05 => is [0x08, 0x10, 0x18, 0x20]
  | some 0x06 => is [0x0C]
  | some 0x08 => is [0x08, 0x10]
  | some 0x0B =>
    if o = 8 then [a + 4, a + 8]
    else if 0x100 ≤ o && o < 0x180 && o % 0x20 = 0x0C then [a + 4]
    else if 0x200 ≤ o && o < 0x240 && o % 16 = 4 then [a + 4] else []
  | some 0x0D => is [0x18, 0x20]
  | some 0x10 => is [0x08, 0x10, 0x18]
  | some 0x11 => if o = 0x28 then [a + 4, a + 8] else is [0x1C]
  | _ => []

/-- The latch of requester `r` for the register at `a`. -/
def latchKey (r : Requester) (a : Nat) : Nat := reqKey r * 2 ^ 32 + a

/-- The fields of an RC register left at what arrived in the cycle of the read (00 R11, R12): `v` in the register's own layout. A
register that follows the tick keeps what came after the tick by itself. -/
def rcPut (x : Side) (a v : Nat) (s : State) : State :=
  let o := a % 65536
  match regUnit a with
  | some 0x01 => s.modLd x (fun l => { l with fmn := { l.fmn with deferred := v } })
  | some 0x03 =>
    s.modLd x (fun l => { l with sch := { l.sch with
      links := Tab.upd {} l.sch.links ((o - 0x40) / 4) (fun k => { k with bad := bits v 15 0, repaired := bits v 23 16 }) } })
  | some 0x05 =>
    s.modLd x (fun l => { l with fus := { l.fus with lateApplied := bits v 15 0, lateDiscarded := bits v 31 16 } })
  | some 0x07 => s.modLd x (fun l => { l with ctl := { l.ctl with writes := bits v 15 0, swaps := bits v 31 16 } })
  | some 0x09 =>
    let k := (o - 0x20) / 4
    s.modLd x (fun l => { l with memi := { l.memi with
      corrected := Tab.set 0 l.memi.corrected k (bits v 15 0), uncorr := Tab.set 0 l.memi.uncorr k (bits v 31 16) } })
  | some 0x0A => s.modLd x (fun l => { l with can := clearCan o v l.can })
  | some 0x0B => s.modLd x (fun l => { l with eth := clearEth o l.eth })
  | some 0x0D => s.modArb (fun b => { b with mismatches := v })
  | some 0x0E => clearBol o v s
  | some 0x10 =>
    if o = 0x20 then { s with log := { s.log with lostCount := v } } else { s with log := { s.log with suppressed := v } }
  | _ => s

/-- A read of the register at `a` by `r`, on landing `x`: its value and its effects (00 R11, R13, 17 R654); `again` as in `rcPut`. -/
def regRead (r : Requester) (x : Side) (a again : Nat) (s : State) : Word × State :=
  match Tab.get none s.latch (latchKey r a) with
  | some v => (v, { s with latch := Tab.set none s.latch (latchKey r a) none })
  | none =>
    let v := BitVec.ofNat 32 (regValue s r x a)
    let s := (pairHigh a).foldl (fun t h =>
      { t with latch := Tab.set none t.latch (latchKey r h) (some (BitVec.ofNat 32 (regValue s r x h))) }) s
    let s := if regKindAt a = some .rc then rcPut x a again s else s
    (v, if a = 0x400F0000 then takeSnapshot r s else s)

/-! ### Writes -/

/-- The bits written 1 cleared in an event register (00 R11): a landing's own, or the cable die's; the Ethernet block shows both. -/
def clearEvents (x : Side) (u v : Nat) (s : State) : State :=
  let f := fun (t : Tab Nat) => Tab.upd 0 t u (fun m => m - (m &&& v))
  if u = 0x0B then { s.modLd x (fun l => { l with events := f l.events }) with events := f s.events }
  else if u ≤ 0x0B || u = 0x12 || u = 0x13 then s.modLd x (fun l => { l with events := f l.events })
  else
    let s := { s with events := f s.events }
    if u = 0x0F && bitOf v 15 then { s with rtc := { s.rtc with wakeBit := false } } else s

/-- A write to one of the purser registers that a partition owns (16 R644). -/
def ownWrite (p o : Nat) (v : Word) (s : State) : State :=
  let k := (o - 0x100) % 0x80
  if k = 0x0C then s.modPart p (fun t => { t with irqEq := v.toNat % 16, irqRead := bitOf v.toNat 4 })
  else if k % 16 = 0 then doorbellWrite p ((k - 0x10) / 16) v.toNat s
  else eventHeadStep p ((k - 0x1C) / 16) v.toNat s

/-- A 32-bit write of the register at `a` by `r` on landing `x`, allowed and in the right size: by its access code (00 R11). A cable-die
register takes a landing's write only under 01 R43, a purser register only its own partition's. -/
def regWrite (r : Requester) (x : Side) (a : Nat) (v : Word) (s : State) : State :=
  let o := a % 65536
  let u := (regUnit a).getD 0
  let host : Option Nat := match r with
    | .host p => some p
    | _ => none
  if a / 65536 ≥ 0x4000 && !cableWriteOk s x then s
  else match regKindAt a with
    | some .w1c => clearEvents x u v.toNat s
    | some (.own p) => if host = some p then ownWrite p o v s else s
    | some .hostRw | some .rw =>
      if a = 0x30090008 then memConfig r x (bucketCfg v) s
      else if a = 0x30090010 then memConfig r x (scrubCfg v) s
      else if a = 0x400F0000 then rtcWrite r (commitStaged r v) s
      else if a = 0x400F0008 then rtcWrite r (stageSubsec r v) s
      else if a = 0x400F001C then wakeWrite r v s
      else backupWrite r (o - 0x100) v s
    | _ => s

/-- An access error to a landing's own requester (01 R42, R45): nothing is done. -/
def accessError (x : Side) (code a : Nat) (s : State) : State :=
  raise (.landing x) code (a % 2 ^ 32) { s with resp := { err := true } }

/-! ### What a partition may reach (16 R610, R724) -/

/-- The ring of partition `p` that holds address `a`. -/
def ownRing (s : State) (p a : Nat) : Bool :=
  [false, true].any (fun ev => (List.range 4).any (fun q =>
    (ringOf p ev q).elim false (fun r => ringBase s r ≤ a && a < ringBase s r + ringSize (ringExp s r))))

/-- The level that partition `p` needs to read or write the word at `a`: none where it is refused at every level.
Log entry 19 (DEDUCED, unsafe). Log entry 20 (DEDUCED, safe). -/
def hostNeeds (s : State) (p : Nat) (write : Bool) (a : Nat) : Option Nat :=
  match regKindAt a with
  | some k =>
    let purser := regUnit a = some 0x0C && 0x100 ≤ a % 65536 && a % 65536 < 0x500
    if purser && (a % 65536 - 0x100) / 0x80 ≠ p then none
    else match k, write with
      | .own _, _ => some 0
      | .w1c, true => some 1
      | .rc, false => some 1
      | .hostRw, true => some 2
      | .unassigned, _ => some 0
      | _, false => some 0
      | _, true => none
  | none =>
    let area := 0x10800000 - areaBytes s
    if area ≤ a && a < 0x10800000 then
      if ownRing s p a then some 0 else if write then none else some 2
    else if memMapped a then
      if write then (if inDirectWindow (s.ld s.lead).fmn.img a 4 then some 2 else none) else some 2
    else if 0x60000000 ≤ a && a < 0x64000000 then (if write then none else some 2)
    else if 0x70000000 ≤ a && a < 0x70001000 then (if write then none else some 2)
    else none

/-- The level needed for `n` words from `a`: none where some word is refused at every level. Log entry 20 (DEDUCED, safe). -/
def hostRange (s : State) (p : Nat) (write : Bool) : Nat → Nat → Option Nat
  | _, 0 => some 0
  | a, n + 1 =>
    match hostNeeds s p write a, hostRange s p write (a + 4) n with
    | some i, some j => some (max i j)
    | _, _ => none

/-- Bytes `a` to `a + 3` read for partition `p`, with poison and the read's effects. Log entry 114 (DEDUCED, unsafe). -/
def hostWord (p a : Nat) (s : State) : Word × Bool × State :=
  let x := s.lead
  if (regKindAt a).isSome then
    let r := regRead (.host p) x a 0 s
    (r.1, false, r.2)
  else if memMapped a then
    let s := touchTile x a s
    let w := peekWord (s.ld x) (a / 8 * 8)
    (w.v.extractLsb' (8 * (a % 8)) 32, w.p, s)
  else if a < 0x70000000 then (BitVec.ofNat 32 (ofLe (flashBytes (s.ld x) a 4)), false, s)
  else (BitVec.ofNat 32 (ofLe ((List.range 4).map (fun i => otpAt (a - 0x70000000 + i)))), false, s)

/-- `n` words from `a` read for partition `p` (16 R607): the data and the first poisoned word; each 64-bit memory word is read once.
Log entry 19 (DEDUCED, unsafe). -/
def hostRead (p : Nat) : Nat → Nat → Nat → State → List Byte × Option Nat × State
  | _, 0, _, s => ([], none, s)
  | a, n + 1, i, s =>
    let r := hostWord p a s
    let s := if memMapped a && (i = 0 || a % 8 = 0) then readEffects s.lead (a / 8 * 8) r.2.2 else r.2.2
    let t := hostRead p (a + 4) n (i + 1) s
    (leBytes 4 r.1.toNat ++ t.1, if r.2.1 then some i else t.2.1, t.2.2)

/-! ### Register commands -/

/-- A host write of memory on landing `x`: whole words directly, parts of words through the merge buffer (16 R606, 12 R460). -/
def hostMemWrite (x : Side) (p : Nat) : Nat → Nat → List Byte → State → State
  | 0, _, _, s => s
  | n + 1, a, data, s =>
    if data.isEmpty then s
    else
      let w := a / 8 * 8
      let now := data.take (w + 8 - a)
      let s := touchTile x w s
      let s :=
        if now.length = 8 then memWrite x w ⟨BitVec.ofNat 64 (ofLe now), false⟩ (mergeFlush x w s)
        else s.modLd x (fun l => { l with memi := mergeTake l.memi { word := w, data := inWord w a now, who := p } })
      hostMemWrite x p n (w + 8) (data.drop (w + 8 - a)) s

/-- A performed write of registers: word by word; a landing's register on every serving landing, a cable-die register once.
Log entry 114 (DEDUCED, unsafe). -/
def hostRegWrite (p : Nat) : Nat → Nat → List Byte → State → State
  | 0, _, _, s => s
  | n + 1, a, data, s =>
    let v := BitVec.ofNat 32 (ofLe (data.take 4))
    let s :=
      if a / 65536 ≥ 0x4000 || regUnit a = some 0x0C then regWrite (.host p) s.lead a v s
      else eachSide s.serves (fun x s => regWrite (.host p) x a v s) s
    hostRegWrite p n (a + 4) (data.drop 4) s

/-- A write or read by the Deckhand core of landing `x` may reach a range: manifest-owned memory only in the windows of the manifest
(01 R37, 02 R68). Log entry 24 (DESIGN CHOICE, unsafe). -/
def deckhandMay (s : State) (x : Side) (write : Bool) (a n : Nat) : Bool :=
  let f := (s.ld x).fmn
  let owned := (0x10000000 ≤ a && a < 0x10800000 - areaBytes s) || (0x20000000 ≤ a && a < 0x20200000)
    || (0x28000000 ≤ a && a < 0x28400000) || (a < 0x08000000 && (dramOwned f.img).any (overlap (a, n)))
  !f.loaded || !owned || (if write then inDirectWindow f.img a n else inWindow f.img a n)

/-- A requester that the Deckhand windows bind is refused a range. -/
def windowRefused (s : State) (r : Requester) (write : Bool) (a n : Nat) : Bool :=
  match r with
  | .deckhand x => !deckhandMay s x write a n
  | _ => false

/-- The read-only windows of a landing's flash and of the OTP (01 R40). -/
def roWindow (a : Nat) : Bool := (0x60000000 ≤ a && a < 0x64000000) || (0x70000000 ≤ a && a < 0x70001000)

/-- `n` bytes from `a` lie in one mapped memory (01 R40, R42). -/
def memRange (a n : Nat) : Bool := memMapped a && memMapped (a + n - 1) && a / 0x08000000 = (a + n - 1) / 0x08000000

/-- A Bollard register other than `BOL_EVENTS` refuses a write (13 R485). -/
def bolFixed (a : Nat) (k : RegKind) : Bool := regUnit a = some 0x0E && k ≠ .w1c && k ≠ .unassigned

/-- What a write by `r` that is refused leaves (00 R9, 01 R37, R42, 16 R610): none where it is performed. -/
def writeRefused (r : Requester) (a size : Nat) (s : State) : Option State :=
  let x := reqSide s r
  match r with
  | .host p =>
    match (if size = 4 && a % 4 = 0 then hostNeeds s p true a else none) with
    | some n => if n ≤ (s.part p).level then none else some (hostRefused p s)
    | none => some (hostRefused p s)
  | _ =>
    match regKindAt a with
    | none => if memRange a size && !windowRefused s r true a size then none else some (accessError x 0x0201 a s)
    | some k =>
      if size ≠ 4 || a % 4 ≠ 0 then some (accessError x 0x0202 a s)
      else if k = .range || bolFixed a k then some (accessError x 0x0201 a s) else none

/-- What a read of `size` bytes by `r` that is refused leaves (00 R9, 01 R37, R42, 16 R610): none where it is performed. -/
def readRefused (r : Requester) (a size : Nat) (s : State) : Option State :=
  let x := reqSide s r
  match r with
  | .host p =>
    match (if size = 4 && a % 4 = 0 then hostNeeds s p false a else none) with
    | some n => if n ≤ (s.part p).level then none else some (hostRefused p s)
    | none => some (hostRefused p s)
  | _ =>
    if (regKindAt a).isSome then (if size ≠ 4 || a % 4 ≠ 0 then some (accessError x 0x0202 a s) else none)
    else if (memRange a size && !windowRefused s r false a size) || (roWindow a && roWindow (a + size - 1)) then none
    else some (accessError x 0x0201 a s)

/-- A write of the cable die before S10 by landing `x` (01 R43): in one 100 MHz cycle Landing A's write of a register stands, and Landing
B's is discarded with an access error. Log entry 113 (DEDUCED, safe). -/
def cableTie (x : Side) (a : Nat) (f : State → State) (s : State) : State :=
  let c := s.now / (10 * nsUnit)
  if s.arb.given then f s
  else if x = .A then f { s with tie := some (c, a) }
  else if s.tie = some (c, a) then { s with resp := { err := true } }
  else f s

/-- An allowed write of `v` by `r` at `a`: a register by its access code, or `size` bytes of memory. The W1C bits of `again`, set by the
hardware in the same cycle, stay set (00 R12). -/
def performWrite (r : Requester) (a size : Nat) (v again : Word) (s : State) : State :=
  let x := reqSide s r
  let bytes := leBytes size v.toNat
  let v := if regKindAt a = some .w1c then v &&& ~~~again else v
  match r, (regKindAt a).isSome with
  | .host p, true => hostRegWrite p 1 a (leBytes 4 v.toNat) s
  | .host p, false => eachSide s.serves (fun x s => hostMemWrite x p 3 a bytes s) s
  | _, true => if 0x4000 ≤ a / 65536 then cableTie x a (regWrite r x a v) s else regWrite r x a v s
  | _, false => memPut x a bytes (touchTile x a s)

/-- REGISTER_WRITE (00 R9, R11, R12, 01 R37, R42, R43). -/
def registerWrite (r : Requester) (a size : Nat) (v again : Word) (s : State) : State :=
  let s := { s with resp := {} }
  (writeRefused r a size s).getD (performWrite r a size v again s)

def execRegisterWrite (at_ : Nat) (r : Requester) (q : Access) (v again : Word) (s : State) : Host.Outcome State Fault Refusal :=
  .next (registerWrite r q.addr q.size v again (advance at_ s))

/-- Four bytes read at a mapped address outside the register blocks: memory, flash or OTP (00 R3, R712, 01 R40). -/
def mapRead (x : Side) (a : Nat) (s : State) : Word × State :=
  let s := touchTile x a s
  if memMapped a then
    let s' := readEffects x (a / 8 * 8) s
    (BitVec.ofNat 32 (peekLe (s.ld x) a 4), if a % 8 ≤ 4 then s' else readEffects x (a / 8 * 8 + 8) s')
  else if a < 0x70000000 then (BitVec.ofNat 32 (ofLe (flashBytes (s.ld x) a 4)), s)
  else (BitVec.ofNat 32 (ofLe ((List.range 4).map (fun i => otpAt (a - 0x70000000 + i)))), s)

/-- A read of `size` bytes by `r` (00 R9, R11 to R13, R15, 01 R37, R42), answered in `resp`. -/
def registerRead (r : Requester) (a size again : Nat) (s : State) : State :=
  let x := reqSide s r
  let s := { s with resp := {} }
  let q := if (regKindAt a).isSome then regRead r x a again s else mapRead x a s
  (readRefused r a size s).getD { q.2 with resp := { data := q.1 &&& BitVec.ofNat 32 (256 ^ min size 4 - 1) } }

/-- RC_READ (00 R9, R11, R12). -/
def execRcRead (at_ : Nat) (r : Requester) (q : Access) (again : Word) (s : State) : Host.Outcome State Fault Refusal :=
  .next (registerRead r q.addr q.size again.toNat (advance at_ s))

/-- PAIR_LOW_READ (00 R9, R13). -/
def execPairLowRead (at_ : Nat) (r : Requester) (q : Access) (s : State) : Host.Outcome State Fault Refusal :=
  .next (registerRead r q.addr q.size 0 (advance at_ s))

/-- The low word of a 64-bit write held for its requester (00 R14); one held before is discarded; a write that would be refused is
(00 R9, 01 R42). Log entry 21 (DEDUCED, safe). -/
def holdLow (r : Requester) (a size : Nat) (v : Word) (s : State) : State :=
  let s := { s with resp := {} }
  (writeRefused r a size s).getD { s with pendLow := Tab.set none s.pendLow (latchKey r a) (some v) }

/-- PAIR_LOW_WRITE (00 R9, R14). -/
def execPairLowWrite (at_ : Nat) (r : Requester) (q : Access) (v : Word) (s : State) : Host.Outcome State Fault Refusal :=
  .next (holdLow r q.addr q.size v (advance at_ s))

/-- The high word at `a` commits both words, or is discarded where its requester holds no low word (00 R14); a write that would be refused
is (00 R9, 01 R42). Log entry 21 (DEDUCED, safe). -/
def commitPair (r : Requester) (a size : Nat) (v : Word) (s : State) : State :=
  let s := { s with resp := {} }
  (writeRefused r a size s).getD
    (match Tab.get none s.pendLow (latchKey r (a - 4)) with
      | none => s
      | some w => registerWrite r a 4 v 0 (registerWrite r (a - 4) 4 w 0
          { s with pendLow := Tab.set none s.pendLow (latchKey r (a - 4)) none }))

/-- PAIR_HIGH_WRITE (00 R9, R14). -/
def execPairHighWrite (at_ : Nat) (r : Requester) (q : Access) (v : Word) (s : State) : Host.Outcome State Fault Refusal :=
  .next (commitPair r q.addr q.size v (advance at_ s))

/-! ### Purser ports (16 R604 to R608) -/

/-- The address rules of a transaction (16 R605). -/
def portRange (a n : Nat) : Bool := a % 4 = 0 && n % 4 = 0 && 4 ≤ n && n ≤ 4096 && a / 4096 = (a + n - 1) / 4096

/-- A refused transaction (16 R611). -/
def portRefused (port : Nat) (need : Option Nat) (s : State) : State :=
  hostRefused port (portError port (if need.isSome then errLevel else errUnmapped) s)

/-- Some ring that is moving overlaps the range (16 R613). -/
def inMovingRing (s : State) (a n : Nat) : Bool :=
  match s.pur.move with
  | none => false
  | some m => m.fromB.any (fun e =>
      let size := ringSize (ringExp s e.1)
      (e.2 < a + n && a < e.2 + size) || (layoutBase s e.1 < a + n && a < layoutBase s e.1 + size))

/-- WRITE (16 R605, R606). -/
def portWrite (port a : Nat) (data : List Byte) (whole : Bool) (s : State) : State :=
  let s := { s with resp := {} }
  if !s.pur.serving then portError port errNotReady s
  else if !whole || !portRange a data.length then portFormat port s
  else
    let need := hostRange s port true a (data.length / 4)
    if !(need.elim false (fun n => n ≤ (s.part port).level)) then portRefused port need s
    else if 2 ≤ (s.port port).wbuf.length || inMovingRing s a data.length then portError port errBusy s
    else s.modPort port (fun p => { p with wbuf := p.wbuf ++ [(a, data)] })

def execWrite (at_ port addr : Nat) (data : List Byte) (whole : Bool) (s : State) : Host.Outcome State Fault Refusal :=
  .next (portWrite port addr data whole (advance at_ s))

/-- WRITE_PERFORMED (16 R606): the oldest write of the port. -/
def writePerformed (port : Nat) (s : State) : State :=
  match (s.port port).wbuf with
  | [] => s
  | (a, data) :: t =>
    let s := s.modPort port (fun p => { p with wbuf := t })
    if (regKindAt a).isSome then hostRegWrite port (data.length / 4) a data s
    else eachSide s.serves (fun x s => hostMemWrite x port (data.length / 8 + 2) a data s) s

def execWritePerformed (at_ port : Nat) (s : State) : Host.Outcome State Fault Refusal :=
  .next (writePerformed port (advance at_ s))

/-- READ_REQ (16 R605, R607). Log entry 22 (DEDUCED, unsafe). -/
def portReadReq (port a n : Nat) (whole : Bool) (s : State) : State :=
  let s := { s with resp := {} }
  if !s.pur.serving then portError port errNotReady s
  else if !whole || !portRange a n then portFormat port s
  else
    let need := hostRange s port false a (n / 4)
    if !(need.elim false (fun k => k ≤ (s.part port).level)) then
      portRefused port need (if (s.port port).reading.isSome then s else s.modPort port (fun p => { p with readDone := false }))
    else if (s.port port).reading.isSome then portError port errBusy s
    else s.modPort port (fun p => { p with reading := some (a, n), readDone := false })

def execReadReq (at_ port addr len : Nat) (whole : Bool) (s : State) : Host.Outcome State Fault Refusal :=
  .next (portReadReq port addr len whole (advance at_ s))

/-- READ_COMPLETE (16 R607). Log entry 22 (DEDUCED, unsafe). -/
def portReadComplete (port : Nat) (s : State) : State :=
  match (s.port port).reading with
  | none => s
  | some (a, n) =>
    let r := hostRead port a (n / 4) 0 s
    r.2.2.modPort port (fun p => { p with reading := none, rbuf := r.1, readDone := true, poisonWord := r.2.1 })

def execReadComplete (at_ port : Nat) (s : State) : Host.Outcome State Fault Refusal :=
  .next (portReadComplete port (advance at_ s))

/-- READ_BUF (16 R605, R607): 0 beyond the last read's length. -/
def portReadBuf (port off len : Nat) (whole : Bool) (s : State) : State :=
  let s := { s with resp := {} }
  if !s.pur.serving then portError port errNotReady s
  else if !whole || off % 4 ≠ 0 then portFormat port s
  else { s with resp := { bytes := (List.range len).map (fun i => (s.port port).rbuf.getD (off + i) 0) } }

def execReadBuf (at_ port off len : Nat) (whole : Bool) (s : State) : Host.Outcome State Fault Refusal :=
  .next (portReadBuf port off len whole (advance at_ s))

/-- The status word of a port (16 R608). -/
def portStatus (s : State) (port : Nat) : Nat :=
  let p := s.port port
  b2n p.readDone + b2n p.reading.isSome * 2 + b2n (2 ≤ p.wbuf.length) * 4 + b2n (!p.wbuf.isEmpty) * 8
    + b2n (p.readDone && p.poisonWord.isSome) * 16 + p.error * 256 + (s.part port).level * 4096
    + (if p.readDone then p.poisonWord.getD 0 else 0) * 65536

/-- STATUS (16 R605, R608). -/
def execStatus (at_ port : Nat) (s : State) : Host.Outcome State Fault Refusal :=
  let s := advance at_ s
  .next ({ s with resp := { data := BitVec.ofNat 32 (portStatus s port) } }.modPort port (fun p => { p with error := 0 }))

/-- The parameters of `PUR_READ` are in form (16 R635). -/
def purReadOk (a n : Nat) : Bool := a % 4 = 0 && n % 4 = 0 && 4 ≤ n && n ≤ 1024

/-- PUR_READ (16 R611, R635): AUTH where a higher level would pass, RANGE where none would. -/
def execPurRead (h : CmdHdr) (addr len : Nat) (s : State) : Host.Outcome State Fault Refusal :=
  .next (hostCommandF h 0x0C03
    (fun s =>
      let ok := purReadOk addr len
      let need := if ok then hostRange s h.part false addr (len / 4) else some 0
      { level := need.getD 0, range := ok && need.isSome, modes := [0, 1, 2, 3, 4, 5] })
    (fun s =>
      let r := hostRead h.part addr (len / 4) 0 s
      { s := r.2.2, data := r.1, poison := r.2.1.isSome })
    (fun st s => if purReadOk addr len && (st = .auth || st = .range) then hostRefused h.part s else s) s)

end Sys2Proof.Machine
end

