-- ==== Sys2Proof/Machine/SampleChain.lean ====
section
/-!
DEFINITION. Sample links and the sample chain (chapter 04).
-/
namespace Sys2Proof.Machine

/-! ### State and descriptors -/

/-- Link `n` of landing `x` changed. -/
def State.modLink (s : State) (x : Side) (n : Nat) (f : SchLink → SchLink) : State :=
  s.modLd x (fun l => { l with sch := { l.sch with links := Tab.upd {} l.sch.links n f } })

/-- Channel `k` of landing `x` changed. -/
def State.modChan (s : State) (x : Side) (k : Nat) (f : SchChan → SchChan) : State :=
  s.modLd x (fun l => { l with sch := { l.sch with chans := Tab.upd {} l.sch.chans k f } })

/-- Link descriptor fields (04 R179). -/
structure LinkDesc where
  nsub : Nat := 0
  deltaMax : Nat := 0
  interval : Nat := 0
  sa : Nat := 1
  nz : Nat := 1
  sb : Nat := 1
  nr : Nat := 1
  sc : Nat := 1
  mask : Nat := 0
  zTol : F32 := 0
  sTol : F32 := 0
deriving DecidableEq, Repr

/-- The descriptor of link `n`. -/
def linkOf (f : Ferryman) (n : Nat) : LinkDesc :=
  let m := f.img
  let o := linkDesc f n
  { nsub := le m (o + 1) 1, deltaMax := le m (o + 4) 4, interval := le m (o + 8) 4, sa := le m (o + 0xC) 1,
    nz := le m (o + 0xD) 1, sb := le m (o + 0xE) 1, nr := le m (o + 0xF) 1, sc := le m (o + 0x10) 1,
    mask := le m (o + 0x12) 2, zTol := BitVec.ofNat 32 (le m (o + 0x14) 4), sTol := BitVec.ofNat 32 (le m (o + 0x18) 4) }

/-- The part's counts: channel descriptors, coefficient sets, step lists. The framing of this part is the model's: a
16-byte header with the three counts, 16 link descriptors, the channel descriptors, a table of coefficient sets and one of
step lists (offset in the part, count), with one Q1.23 coefficient to a 32-bit word. DESIGN CHOICE, see the log. -/
def schCounts (m : Tab Byte) : Nat × Nat × Nat :=
  let o := partOff m 3
  (le m o 2, le m (o + 2) 2, le m (o + 4) 2)

/-- Image offset of channel descriptor `i` (04 R180). -/
def chanDesc (m : Tab Byte) (i : Nat) : Nat := partOff m 3 + 0x210 + 64 * i

/-- The index of the descriptor of channel `k`. -/
def chanIndex (m : Tab Byte) (k : Nat) : Option Nat :=
  (List.range (schCounts m).1).find? (fun i => le m (chanDesc m i) 2 == k)

/-- Coefficient set `i`: its coefficients. -/
def coefSet (m : Tab Byte) (i : Nat) : List Int :=
  let t := chanDesc m (schCounts m).1 + 8 * i
  if (schCounts m).2.1 ≤ i then []
  else (List.range (le m (t + 4) 4)).map (fun j => sval 24 (le m (partOff m 3 + le m t 4 + 4 * j) 4))

/-- Step list `j`: its steps (04 R181). Log entry 45 (DESIGN CHOICE, unsafe). -/
def stepList (m : Tab Byte) (j : Nat) : List Nat :=
  let t := chanDesc m (schCounts m).1 + 8 * (schCounts m).2.1 + 8 * j
  if (schCounts m).2.2 ≤ j then []
  else (List.range (le m (t + 4) 4)).map (fun i => le m (partOff m 3 + le m t 4 + 4 * i) 4)

/-- Stage `i` (from 1) of a channel descriptor: set, T, D, s, g (04 R180). -/
structure StageDesc where
  set : Nat := 0
  taps : Nat := 1
  dec : Nat := 1
  shift : Nat := 0
  g : Nat := 0
deriving DecidableEq, Repr

def stageOf (m : Tab Byte) (d i : Nat) : StageDesc :=
  let o := d + 8 * i
  { set := le m o 2, taps := le m (o + 2) 2, dec := le m (o + 4) 1, shift := le m (o + 5) 1, g := le m (o + 6) 2 }

/-- Stage count and the exponent e of a channel descriptor. -/
def stageCount (m : Tab Byte) (d : Nat) : Nat := le m (d + 2) 1
def expOf (m : Tab Byte) (d : Nat) : Int := sval 8 (le m (d + 5) 1)

/-- The output period in ns for a crossing of `p` ns (04 R164). -/
def outPeriod (p : Nat) (e : Int) : Nat := if e < 0 then p / 2 ^ (-e).toNat else p * 2 ^ e.toNat

/-! ### Frames (04 R152, R153) -/

/-- Byte `i` of a frame. Log entry 43 (DEDUCED, unsafe). -/
def frByte (f : List Byte) (i : Nat) : Nat := (f.getD i 0).toNat

/-- The raw sample of channel `c`: 24 bits, two's complement. Log entry 43 (DEDUCED, unsafe). -/
def frSample (f : List Byte) (c : Nat) : Int :=
  sval 24 (frByte f (2 + 3 * c) + 256 * frByte f (3 + 3 * c) + 65536 * frByte f (4 + 3 * c))

/-- Overrange, echo, health and block word of a frame. -/
def frOver (f : List Byte) (c : Nat) : Bool := bitOf (frByte f 50 + 256 * frByte f 51) c
def frEcho (f : List Byte) : Nat := frByte f 52
def frHealth (f : List Byte) : Nat := frByte f 53

/-- A frame sound in itself: 464 bits, preamble and CRC-16. -/
def frameSound (f : List Byte) : Bool :=
  f.length == 58 && frByte f 0 == 0xA5
    && crcRef 0x8408 ((f.drop 1).take 55) 0xFFFF == frByte f 56 + 256 * frByte f 57

/-- Nanoseconds from the start of a crossing of `p` ns to sync edge `i` of its `ns`: the first edge of the link clock at or after the ideal
instant (04 R151). -/
def syncOffset (p ns i : Nat) : Nat := (p * i + 10 * ns - 1) / (10 * ns) * 10

/-- The instant of sync edge `m` of a link on landing `x`, in module time ns (04 R151). -/
def State.syncEdge (s : State) (x : Side) (link m : Nat) : Int :=
  let f := (s.ld x).fmn
  let p := (s.grid x).period
  let ns := max 1 (linkOf f link).nsub
  let tick : Int := ((s.grid x).last / nsUnit : Nat) - ((f.crossing : Int) - ((s.ld x).sch.start + m / ns : Nat)) * p
  tick + syncOffset p ns (m % ns)

/-- The duration of a frame: 464 bits of the link clock (04 R150, R152). -/
def frameNs : Nat := 4640

/-- A frame whose last bit has just come keeps the window of its sample: it starts 0.5 µs or more after its sync edge and ends 0.2 µs or
more before the next (04 R153). Log entry 128 (DEDUCED, unsafe). -/
def frameInTime (s : State) (x : Side) (link : Nat) : Bool :=
  let m := ((s.ld x).link link).m
  s.syncEdge x link m + 500 + frameNs ≤ s.nowNs && (s.nowNs : Int) + 200 ≤ s.syncEdge x link (m + 1)

/-- A landing's verdict on a frame that came in time or not (04 R153): the count of sequence numbers runs on through bad frames and follows
a sound frame that breaks it. -/
def judgeFrame (inTime : Bool) (f : Option (List Byte)) (k : SchLink) : SchLink :=
  match f with
  | some b =>
    if inTime && frameSound b then
      let ok := k.expect.isNone || k.expect == some (frByte b 1)
      { k with expect := some ((frByte b 1 + 1) % 256), rx := if ok then some b else none }
    else { k with expect := k.expect.map (fun n => (n + 1) % 256), rx := none }
  | none => { k with expect := k.expect.map (fun n => (n + 1) % 256), rx := none }

/-- UPLINK_FRAME (04 R153): the command's instant is that of the frame's last bit. Log entry 128 (DEDUCED, unsafe). -/
def execUplinkFrame (at_ link : Nat) (fa fb : Option (List Byte)) (s : State) : Host.Outcome State Fault Refusal :=
  let s := advance at_ s
  .next ((s.modLink .A link (judgeFrame (frameInTime s .A link) fa)).modLink .B link (judgeFrame (frameInTime s .B link) fb))

/-! ### The agreed frame (04 R154 to R158) -/

/-- The calibration block passes its checks: CRC-32, magic, version (04 R157, R158). -/
def blockOk (b : List Byte) : Bool :=
  b.length == 256 && ofLe (b.take 4) == 0x4B424546 && ofLe ((b.drop 4).take 2) == 1
    && crc32 (b.take 252) == ofLe (b.drop 252)

/-- Fields of a calibration block. Log entry 46 (DESIGN CHOICE, unsafe). -/
def blockDelta (b : List Byte) : Nat := ofLe ((b.drop 0x10).take 4)
def blockVref (b : List Byte) : F32 := BitVec.ofNat 32 (ofLe ((b.drop 0x14).take 4))
def blockRefs (b : List Byte) : Bool := bitOf (ofLe ((b.drop 0x18).take 4)) 0
def blockZ (b : List Byte) (c : Nat) : F32 := BitVec.ofNat 32 (ofLe ((b.drop (0x20 + 8 * c)).take 4))
def blockS (b : List Byte) (c : Nat) : F32 := BitVec.ofNat 32 (ofLe ((b.drop (0x24 + 8 * c)).take 4))

/-- The block word of a good frame received: word 0 starts a pass, a word out of order ends it. -/
def takeWord (f : List Byte) (k : SchLink) : SchLink :=
  let w := frByte f 1 % 128
  let b := (f.drop 54).take 2
  if w = 0 then { k with words := 1, pass := b, same := if k.words = 0 then k.same else 0 }
  else if w = k.words then { k with words := w + 1, pass := k.pass ++ b }
  else { k with words := 0, pass := [], same := 0 }

/-- A frame counted: good frames in a row, or bad ones, which end the pass being received. -/
def countFrame (f : Option (List Byte)) (k : SchLink) : SchLink :=
  match f with
  | some b => takeWord b { k with goods := k.goods + 1, bads := 0 }
  | none => { k with goods := 0, bads := k.bads + 1, bad := satAdd 0xFFFF k.bad 1, words := 0, pass := [], same := 0 }

/-- The run of a link is void (04 R174): counted once; a result of it that no output carries yet is dropped, and is no accepted one.
Log entry 44 (DEDUCED, unsafe). Log entry 124 (DEDUCED, unsafe). -/
def voidRun (x : Side) (n : Nat) (s : State) : State :=
  let l := s.ld x
  let k := l.link n
  if !k.filling || k.void then s
  else
    let c := 16 * n + k.chan
    let held := k.done && (l.chan c).nextLive.isSome
    let s := s.modLink x n (fun k => { k with
      void := true, voided := k.voided + 1, accepted := if held then k.accepted - 1 else k.accepted })
    if held then s.modChan x c (fun h => { h with nextLive := none }) else s

/-- The link becomes LOST (04 R158, R174). -/
def loseLink (x : Side) (n : Nat) (s : State) : State :=
  let run := ((s.ld x).link n).filling
  raise (.landing x) 0x0302 n ((voidRun x n s).modLink x n (fun k =>
    { k with state := 2, refHold := k.refHold || run, filling := false }))

/-- A complete pass of the block judged (04 R158, R192): a block that fails or changes after its acceptance, a delay above the link's. -/
def judgePass (x : Side) (n : Nat) (s : State) : State :=
  let l := s.ld x
  let k := l.link n
  if k.words ≠ 128 then s
  else
    let b := k.pass
    let ok := blockOk b
    let slow := ok && (linkOf l.fmn n).deltaMax < blockDelta b
    let changed := ok && !k.block.isEmpty && b ≠ k.block && (k.state = 1 || b ≠ k.lastPass)
    let s := s.modLink x n (fun k => { k with
      words := 0, pass := [], lastPass := b,
      same := if !ok || slow then 0 else if b = k.lastPass && 0 < k.same then k.same + 1 else 1 })
    let s := if !ok || changed then raise (.landing x) 0x0304 n s else s
    let s := if slow then raise (.landing x) 0x0305 n s else s
    if k.state = 1 && (!ok || b ≠ k.block) then loseLink x n s else s

/-- The link becomes UP (04 R158): its block replaces the one before; a channel whose factory values change while they are in force has a
calibration change (04 R169). -/
def linkUp (x : Side) (n : Nat) (s : State) : State :=
  let k := (s.ld x).link n
  let s := s.modLink x n (fun k => { k with state := 1, block := k.lastPass, refHold := false })
  let s := (List.range 16).foldl (fun s c => s.modChan x (16 * n + c) (fun h =>
    let new := !k.block.isEmpty && h.live.isNone && (blockZ k.block c ≠ blockZ k.lastPass c || blockS k.block c ≠ blockS k.lastPass c)
    { h with unfilled := [], changes := h.changes + b2n new })) s
  raise (.landing x) 0x0303 n s

/-- The link's transitions at this sample (04 R158). -/
def linkMoves (x : Side) (n : Nat) (s : State) : State :=
  let k := (s.ld x).link n
  if k.state = 1 then (if 8 ≤ k.bads then loseLink x n s else s)
  else if 64 ≤ k.goods && 2 ≤ k.same then linkUp x n s
  else s

/-- The front-end's health byte (04 R192): a bit that changes to 1 is reported; a reference fault voids a run (R174). -/
def takeHealth (x : Side) (n : Nat) (f : List Byte) (s : State) : State :=
  let k := (s.ld x).link n
  let h := frHealth f
  let rise := (List.range 8).any (fun i => bitOf h i && !bitOf k.health i)
  let s := s.modLink x n (fun k => { k with health := h })
  let s := if bitOf h 1 then voidRun x n s else s
  if rise then raise (.landing x) 0x030B (n + h * 256) s else s

/-! ### Live calibration in the sample stream (04 R172 to R174) -/

/-- The samples at which the phases of a run end, counted from its start. -/
def runEnds (d : LinkDesc) : Nat × Nat × Nat × Nat × Nat :=
  let a := d.sa
  let b := a + d.nz
  let c := b + d.sb
  let e := c + d.nr
  (a, b, c, e, e + d.sc)

/-- The reference commanded for sample `i` of a run: 1 zero, 2 span, 0 the signal input. The select with reference 0 goes out after sync
'last span sample - 1' and acts on the last span sample itself (04 R155, R172). Log entry 123 (DEDUCED, unsafe). -/
def runRef (d : LinkDesc) (i : Nat) : Nat :=
  let e := runEnds d
  if i = 0 then 0 else if i ≤ e.2.1 then 1 else if i < e.2.2.2.1 then 2 else 0

/-- The echo of a sample of a run matches the selection commanded. -/
def echoOk (d : LinkDesc) (chan i : Nat) (f : List Byte) : Bool :=
  let r := frEcho f / 16 % 4
  r == runRef d i && (r == 0 || frEcho f % 16 == chan)

/-- One sample of a run: window sums, voids, the end of its fills (04 R172, R174). Log entry 44 (DEDUCED, unsafe). -/
def runSample (x : Side) (n : Nat) (f : Option (List Byte)) (s : State) : State :=
  let l := s.ld x
  let k := l.link n
  let d := linkOf l.fmn n
  let e := runEnds d
  let i := k.m - k.runAt
  if !k.filling then s
  else
    let inZ := e.1 < i && i ≤ e.2.1
    let inS := e.2.2.1 < i && i ≤ e.2.2.2.1
    let s := match f with
      | none => if inZ || inS then voidRun x n s else s
      | some b =>
        if !echoOk d k.chan i b then
          raise (.landing x) 0x0309 n ((voidRun x n s).modLink x n (fun k => { k with filling := false, refOff := true }))
        else
          let v := frSample b k.chan
          s.modLink x n (fun k =>
            { k with zSum := if inZ then k.zSum + v else k.zSum, spanSum := if inS then k.spanSum + v else k.spanSum })
    s.modLink x n (fun k => if e.2.2.2.2 ≤ i then { k with filling := false } else k)

/-! ### Input, fill and the DC blocker (04 R160, R161) -/

/-- The sum of a list of samples. -/
def sumInt (l : List Int) : Int := l.foldl (· + ·) 0

/-- Fill sample `j` of a channel: the mean of the last 8 unfilled samples carried on by the slope from the 8 before, or the
last one where there are fewer than 16 (04 R160). Log entry 46 (DESIGN CHOICE, unsafe). -/
def fillValue (h : SchChan) : Int :=
  if h.unfilled.length < 16 then h.unfilled.headD 0
  else
    let a := sumInt (h.unfilled.take 8)
    let b := sumInt ((h.unfilled.drop 8).take 8)
    satInt 32 (roundDiv (16 * a + (a - b) * (2 * (min h.fillJ 64 : Nat) + 9)) 128)

/-- The flags of an input sample. -/
def inFlags (filled clip frozen bad : Bool) : Nat := b2n filled + 2 * b2n clip + 4 * b2n frozen + 8 * b2n bad

/-- A sample put at the head of a stream. -/
def SchStream.push (t : SchStream) (v : Int) (fl : Nat) : SchStream :=
  { t with count := t.count + 1, hist := (v, fl) :: t.hist }

/-- The input of one channel captured: `raw` is the signal sample where there is one, `clip` its overrange mark; `dc` is the
descriptor's k_dc where the blocker is enabled; the DC blocker's m counts 2^-55. Log entry 47 (DEDUCED, unsafe). -/
def captureChan (raw : Option Int) (clip bad : Bool) (dc : Option Nat) (cmdFrozen : Bool) (h : SchChan) : SchChan :=
  let filled := raw.isNone
  let v := raw.getD (fillValue h)
  let h := match raw with
    | some r => { h with unfilled := r :: h.unfilled.take 15, fillJ := 0 }
    | none => { h with fillJ := h.fillJ + 1 }
  let frozen := dc.isSome && (filled || cmdFrozen)
  let y := match dc with
    | some _ => satInt 32 (roundDiv (v * 2 ^ 24 - h.m) (2 ^ 24))
    | none => v
  let m := match dc with
    | some k => if frozen then h.m else satInt 56 (h.m + roundDiv (v * 2 ^ 24 - h.m) (2 ^ k))
    | none => h.m
  { h with m := m, frozen := frozen,
           streams := Tab.upd {} h.streams 0 (fun t => t.push y (inFlags filled (clip && !filled) frozen bad)) }

/-- Channel `c` of link `n` captured from the agreed frame (04 R156, R160). -/
def captureOne (x : Side) (n : Nat) (f : Option (List Byte)) (k : SchLink) (lost : Bool) (c : Nat) (s : State) : State :=
  let l := s.ld x
  let m := l.fmn.img
  match chanIndex m (16 * n + c) with
  | none => s
  | some i =>
    let d := chanDesc m i
    let dc := if bitOf (le m (d + 3) 1) 0 then some (le m (d + 4) 1) else none
    let cmd := Tab.get false l.sch.frozen (16 * n + c)
    match f with
    | none => s.modChan x (16 * n + c) (captureChan none false true dc cmd)
    | some b =>
      let isRef := frEcho b / 16 % 4 ≠ 0 && frEcho b % 16 = c
      let live := k.filling && k.chan = c && k.runAt < k.m
      let raw := if isRef || live || lost then none else some (frSample b c * 256)
      s.modChan x (16 * n + c) (captureChan raw (frOver b c) false dc cmd)

/-- One sample of a link taken by landing `x`: the frame agreed, if any (04 R154 to R161). -/
def takeFrame (x : Side) (n : Nat) (f : Option (List Byte)) (s : State) : State :=
  let before := (s.ld x).link n
  let s := s.modLink x n (countFrame f)
  let s := if f.isNone then raise (.landing x) 0x0301 n s else s
  let s := judgePass x n s
  let s := linkMoves x n s
  let s := match f with
    | some b => takeHealth x n b s
    | none => s
  let lost := ((s.ld x).link n).state = 2
  let s := runSample x n f s
  let s := (List.range 16).foldl (fun s c => captureOne x n f before lost c s) s
  s.modLink x n (fun k => { k with m := k.m + 1, rx := none })

/-- A repaired frame counted (04 R154, R192). Log entry 48 (DEDUCED, unsafe). -/
def noteRepair (x : Side) (n : Nat) (s : State) : State :=
  let c := (s.ld x).fmn.crossing
  let s := s.modLink x n (fun k =>
    { k with repaired := satAdd 0xFF k.repaired 1, repairs := c :: k.repairs.filter (fun r => c < r + 4000) })
  let s := raise (.landing x) 0x0306 n s
  if 8 ≤ ((s.ld x).link n).repairs.length then
    raise (.landing x) 0x0307 n (s.modLink x n (fun k => { k with repairs := [] }))
  else s

/-- The verdicts of the landings combined (04 R154): a landing whose copy is bad uses the other's good frame. -/
def frameVerdict (n : Nat) (s : State) : State :=
  let fa := ((s.ld .A).link n).rx
  let fb := ((s.ld .B).link n).rx
  let used := fun x => (linkOf (s.ld x).fmn n).nsub ≠ 0 && (s.ld x).fmn.running
  let a := if fa.isSome then fa else fb
  let b := if fb.isSome then fb else fa
  let s := if used .A then takeFrame .A n a s else s
  let s := if used .B then takeFrame .B n b s else s
  let s := if used .A && fa.isNone && fb.isSome then noteRepair .A n s else s
  if used .B && fb.isNone && fa.isSome then noteRepair .B n s else s

/-- FRAME_VERDICT (04 R154). -/
def execFrameVerdict (at_ link : Nat) (s : State) : Host.Outcome State Fault Refusal :=
  .next (frameVerdict link (advance at_ s))

/-! ### The downlink (04 R155, R172, R174) -/

/-- A downlink word: preamble, command, argument, CRC-8 over bits 8 to 23. -/
def downWord (cmd arg : Nat) : Nat :=
  0x5A + cmd * 256 + arg * 65536 + crcRef 0xE0 [BitVec.ofNat 8 cmd, BitVec.ofNat 8 arg] 0 * 2 ^ 24

/-- The words that keep the selection and that select the signal input. -/
def downKeep : Nat := downWord 0 0
def downSignal : Nat := downWord 1 0

/-- The word a landing gives after sync edge `m` (04 R172, R174). Log entry 123 (DEDUCED, unsafe). -/
def downFor (f : Ferryman) (n m : Nat) (k : SchLink) : Nat :=
  let d := linkOf f n
  let e := runEnds d
  if k.refHold || k.refOff then downSignal
  else if k.filling then
    let r := m - k.runAt
    if r = 0 then downWord 1 (k.chan + 16)
    else if r = e.2.1 then downWord 1 (k.chan + 32)
    else if r + 1 = e.2.2.2.1 then downSignal
    else downKeep
  else downKeep

/-- The word sent on a link (10 R403, 12 R456): in Adrift the one that selects the signal input; a poisoned one keeps the
selection. -/
def deliverDown (i : OutItem) (s : State) : State :=
  let v := if s.arb.adrift then downSignal else if i.poisoned then downKeep else (i.words.headD {}).v.toNat % 2 ^ 32
  { s with slDown := Tab.set 0 s.slDown i.sub v }

/-- The downlink words of link `n` after sync edge `m`: every running landing hands its own to the selector; in the gap of
a fail-over the selection is kept (10 R401). -/
def downlink (n m : Nat) (s : State) : State :=
  let s := if s.arb.gap.isSome then { s with slDown := Tab.set 0 s.slDown n downKeep } else s
  eachSide (fun x => (s.ld x).fmn.running && (linkOf (s.ld x).fmn n).nsub ≠ 0) (fun x s =>
    let l := s.ld x
    let w := downFor l.fmn n m (l.link n)
    let s := s.modLink x n (fun k => { k with refOff := false })
    handItem deliverDown x { key := 992 + n, cycle := s.cycleNow, sub := n, words := [⟨BitVec.ofNat 64 w, false⟩] } s) s

/-- DOWNLINK_WORD (04 R155). -/
def execDownlinkWord (at_ link m : Nat) (s : State) : Host.Outcome State Fault Refusal :=
  .next (downlink link m (advance at_ s))

/-! ### Stages and the resampler (04 R162 to R165, R171) -/

/-- Element `p` of a stream: before the start and not yet there, 0 flagged as filled. -/
def SchStream.at_ (t : SchStream) (p : Int) : Int × Nat :=
  if p < 0 || (t.count : Int) ≤ p then (0, 1) else t.hist.getD (t.count - 1 - p.toNat) (0, 1)

/-- The stream without what lies before element `p`. -/
def SchStream.trim (t : SchStream) (p : Int) : SchStream :=
  { t with hist := t.hist.take ((t.count : Int) - p).toNat }

/-- The OR of sample flags, poison among them (04 R171, R183); a `CLIP` of the sum is added. -/
def orFlags (l : List (Int × Nat)) (clip : Bool) : Nat :=
  (List.range 5).foldl (fun n i => n + b2n (l.any (fun e => bitOf e.2 i) || (i = 1 && clip)) * 2 ^ i) 0

/-- Flags with the poison of the coefficients and the descriptor read (04 R183). Log entry 131 (DESIGN CHOICE, safe). -/
def withPoison (bad : Bool) (fl : Nat) : Nat := if bad && !bitOf fl 4 then fl + 16 else fl

/-- The next output of stage `i` of a channel (04 R162, R171, R183). -/
def stageStep (bad : Bool) (cs : List Int) (g : StageDesc) (i : Nat) (h : SchChan) : SchChan :=
  let src := Tab.get {} h.streams (i - 1)
  let dst := Tab.get {} h.streams i
  let j := dst.count
  let xs := (List.range g.taps).map (fun (t : Nat) => src.at_ ((j * g.dec : Nat) - (t : Int)))
  let sum := sumInt ((List.range g.taps).map (fun t => cs.getD t 0 * (xs.getD t (0, 0)).1))
  let r := roundDiv (sum * 2 ^ g.shift) (2 ^ 23)
  let v := satInt 32 r
  let h := { h with streams := Tab.set {} h.streams i (dst.push v (withPoison bad (orFlags xs (v ≠ r)))) }
  { h with streams := Tab.set {} h.streams (i - 1) (src.trim (((j + 1) * g.dec : Nat) - (g.taps : Int) + 1)) }

/-- The product of the decimations of the first `n` stages. -/
def decTotal (m : Tab Byte) (d : Nat) : Nat → Nat
  | 0 => 1
  | n + 1 => decTotal m d n * (stageOf m d (n + 1)).dec

/-- The sum over the first `n` stages of their delays in sixteenths of the link's sample period. -/
def delayTotal (m : Tab Byte) (d : Nat) : Nat → Nat
  | 0 => 0
  | n + 1 => delayTotal m d n + (stageOf m d (n + 1)).g * decTotal m d n

/-- x of 04 R165 with 32 fraction bits, truncated: output `n` of channel `k` at crossing period `p` ns, on a link of `nsub`
samples to the crossing with delay `delta` ns. -/
def resampleX (m : Tab Byte) (d p nsub delta k : Nat) (n : Int) : Int :=
  let u := n * outPeriod p (expOf m d) + k * 40
  let c := stageCount m d
  let dt := decTotal m d c
  let num := 16 * (u + delta) * nsub + p * delayTotal m d c + p * dt * le m (d + 0x2C) 2
  num * 2 ^ 32 / (16 * p * dt : Nat)

/-- The swap tick after crossing `j` (counted from the manifest start) of the berth that a claim carries a word of the output store to; the
next tick where none does (04 R166, R171). Log entry 129 (DEDUCED, unsafe). -/
def nextPublish (m : Tab Byte) (d j : Nat) : Nat :=
  let a := 0x30038000 + le m (d + 0x3C) 4
  let carry := (List.range (patternCount m)).findSome? (fun p =>
    (claims m p).find? (fun c => c.src = 0x20 && c.from_ ≤ a && a < c.from_ + 8 * c.beats))
  let berth := carry.bind (fun c => (berths m).find? (fun b =>
    let at_ := c.to_ + (a - c.from_)
    (berthSpan b).1 ≤ at_ && at_ < (berthSpan b).1 + (berthSpan b).2))
  match berth with
  | some b => if b.period = 0 then j + 1 else j + 1 + (b.phase + b.period - (j + 1) % b.period) % b.period
  | none => j + 1

/-- The index of a channel's first output, whose step runs in crossing `j`: the first of those that the next publication, at crossing c,
holds, with instants from the tick of crossing c - d - w up to that of c - d (04 R166); the ones before the manifest start have negative
indices. Log entry 129 (DEDUCED, unsafe). -/
def firstOut (m : Tab Byte) (d j : Nat) : Int :=
  let e := expOf m d
  let late : Int := (le m (d + 6) 2 : Int) - nextPublish m d j
  if e < 0 then -(late + 1) * 2 ^ (-e).toNat else -((late + 2 ^ e.toNat) / 2 ^ e.toNat)

/-- The interpolated coefficient h(i + f), Q1.23; `f` has 32 fraction bits (04 R165). -/
def interpCoef (cs : List Int) (i f : Nat) : Int :=
  let q := 64 * i + f / 2 ^ 26
  let fr := roundDiv (f % 2 ^ 26 : Nat) 1024
  let a := cs.getD q 0
  let b := cs.getD (q + 1) 0
  roundDiv (a * 65536 + (b - a) * fr) 65536

/-- The next resampler output as a Q1.31 value and flags, and the channel after it (04 R165, R171). -/
def resampleStep (cs : List Int) (taps : Nat) (x : Int) (last : Nat) (h : SchChan) : Int × Nat × SchChan :=
  let src := Tab.get {} h.streams last
  let m : Int := x / 2 ^ 32
  let f : Nat := (x % 2 ^ 32).toNat
  let ys := (List.range taps).map (fun (i : Nat) => src.at_ (m - (i : Int)))
  let sum := sumInt ((List.range taps).map (fun i => interpCoef cs i f * (ys.getD i (0, 0)).1))
  let r := roundDiv sum (2 ^ 23)
  let v := satInt 32 r
  (v, orFlags ys (v ≠ r), { h with streams := Tab.set {} h.streams last (src.trim (m - taps + 1)) })

/-! ### Calibration and the output word (04 R168 to R170) -/

/-- Changes due at this output applied: their count and the channel after them (04 R169). -/
def applyChanges (linkM : Nat) (h : SchChan) : Nat × SchChan :=
  let due := match h.nextLive with
    | some (z, s, i) => if i < linkM then some (z, s) else none
    | none => none
  let h' := match due with
    | some v => { h with live := some v, nextLive := none }
    | none => h
  let n := h'.changes + b2n due.isSome
  (n, { h' with changes := 0, epoch := (h'.epoch + n) % 65536 })

/-- Gain, offset and substitute value in force (04 R168, R175). -/
def userLayer (m : Tab Byte) (d : Nat) (h : SchChan) : F32 × F32 × F32 :=
  match h.user with
  | some (a, b, v) => (BitVec.ofNat 32 a, BitVec.ofNat 32 b, BitVec.ofNat 32 v)
  | none => (BitVec.ofNat 32 (le m (d + 0x30) 4), BitVec.ofNat 32 (le m (d + 0x34) 4), BitVec.ofNat 32 (le m (d + 0x38) 4))

/-- The value of an output (04 R168). Log entry 47 (DEDUCED, unsafe). -/
def calValue (q : Int) (z sc a b : F32) : F32 := F32.fma a (F32.mul (F32.sub (F32.ofDyadic q (-8)) z) sc) b

/-- Descriptor `i` or coefficient set `set` reads poisoned (04 R183). Log entry 131 (DESIGN CHOICE, safe). -/
def Sch.poisons (h : Sch) (i set : Nat) : Bool := h.bad.contains (0, set) || h.bad.contains (1, i)

/-- One resampler output of descriptor `i`: computed, calibrated and written to the output store in core cycle `cyc` (04 R165 to R171,
R183). Log entry 126 (DEDUCED, unsafe). -/
def runOutput (x : Side) (i cyc : Nat) (s : State) : State :=
  let l := s.ld x
  let m := l.fmn.img
  let d := chanDesc m i
  let k := le m d 2
  let n := k / 16
  let lk := l.link n
  let ch := l.chan k
  let p := periodNs (imgPeriod m)
  let o := ch.outN.getD (firstOut m d (l.fmn.crossing - l.sch.start))
  let xx := resampleX m d p (linkOf l.fmn n).nsub (blockDelta lk.block) k o
  let r := resampleStep (coefSet m (le m (d + 0x28) 2)) (le m (d + 0x2A) 1) xx (stageCount m d) ch
  let c := applyChanges lk.m r.2.2
  let u := userLayer m d c.2
  let zs := match c.2.live with
    | some (z, sc) => (BitVec.ofNat 32 z, BitVec.ofNat 32 sc)
    | none => (blockZ lk.block (k % 16), blockS lk.block (k % 16))
  let sub := lk.bypassed || lk.state ≠ 1
  let v := if sub then u.2.2 else calValue r.1 zs.1 zs.2 u.1 u.2.1
  let fl := r.2.1
  let w := v.toNat + (fl % 2) * 2 ^ 32 + b2n lk.bypassed * 2 ^ 33 + b2n (!lk.bypassed && lk.state ≠ 1) * 2 ^ 34
    + (fl / 2 % 2) * 2 ^ 35 + b2n (0 < c.1) * 2 ^ 36 + b2n c.2.live.isSome * 2 ^ 37 + (fl / 4 % 2) * 2 ^ 38
    + (fl / 8 % 2) * 2 ^ 39 + c.2.epoch * 2 ^ 48
  let a := 0x30038000 + le m (d + 0x3C) 4 + 8 * (o % 8).toNat
  let s := s.modLd x (fun l => { l with fmn := { l.fmn with
    storeLog := l.fmn.storeLog ++ [{ cycle := cyc, addr := a, old := peekWord l a }] } })
  let s := s.modChan x k (fun _ => { c.2 with outN := some (o + 1) })
  let s := memWrite x a ⟨BitVec.ofNat 64 w, bitOf fl 4 || l.sch.poisons i (le m (d + 0x28) 2)⟩ s
  if fl / 2 % 2 = 1 then raisePerCrossing x 0x030A k k s else s

/-- Initiation interval and latency of a step (02 R80): a stage of `t` taps, or the resampler of `t` taps. -/
def stepCost (resample : Bool) (t : Nat) : Nat × Nat :=
  let i := 2 * ((t + 7) / 8)
  (i, i + (if resample then 28 else 20))

/-- Taps of a step. -/
def stepTaps (m : Tab Byte) (w : Nat) : Nat :=
  let d := chanDesc m (w % 65536)
  if w / 65536 % 8 = 4 then le m (d + 0x2A) 1 else (stageOf m d (w / 65536 % 8 + 1)).taps

/-- One step of a step list, started in core cycle `cyc` (04 R181). -/
def runStep (x : Side) (w cyc : Nat) (s : State) : State :=
  let m := (s.ld x).fmn.img
  let i := w % 65536
  let kind := w / 65536 % 8
  let d := chanDesc m i
  if (schCounts m).1 ≤ i then s
  else if kind = 4 then runOutput x i (cyc + (stepCost true (stepTaps m w)).2) s
  else if kind < stageCount m d then
    let g := stageOf m d (kind + 1)
    s.modChan x (le m d 2) (stageStep ((s.ld x).sch.poisons i g.set) (coefSet m g.set) g (kind + 1))
  else s

/-- The steps of a list back to back from core cycle `cyc` (04 R181). -/
def runSteps (x : Side) : List Nat → Nat → State → State
  | [], _, s => s
  | w :: t, cyc, s =>
    let cost := stepCost (w / 65536 % 8 = 4) (stepTaps (s.ld x).fmn.img w)
    runSteps x t (cyc + cost.1) (runStep x w cyc s)

/-- SCH_RUN (04 R181). -/
def execSchRun (at_ : Nat) (x : Side) (job : Nat) (s : State) : Host.Outcome State Fault Refusal :=
  .next (runEntry x 0x03 1 (some job) none (fun k s =>
    let f := (s.ld x).fmn
    runSteps x (stepList f.img job) (entryCycle f k) s) (advance at_ s))

/-! ### Live calibration (04 R172, R173) -/

/-- The next channel of a mask from `c` on, wrapping. -/
def nextInMask (mask c : Nat) : Option Nat :=
  ((List.range 16).map (fun i => (c + i) % 16)).find? (bitOf mask)

/-- A run starts, or counts as void (04 R172). Log entry 44 (DEDUCED, unsafe). Log entry 121 (DESIGN CHOICE, unsafe). -/
def calStart (x : Side) (n : Nat) (s : State) : State :=
  let l := s.ld x
  let k := l.link n
  let d := linkOf l.fmn n
  let since := l.fmn.crossing - l.sch.start
  if !l.fmn.running || d.interval = 0 || since % d.interval ≠ 0 || !blockRefs k.block && k.state = 1 then s
  else match nextInMask d.mask k.nextChan with
    | none => s
    | some c =>
      if k.state ≠ 1 || k.bypassed || bitOf k.health 1 || k.filling then
        s.modLink x n (fun k => { k with voided := k.voided + 1 })
      else
        s.modLink x n (fun k => { k with
          chan := c, nextChan := (c + 1) % 16, runAt := since * d.nsub, filling := true, void := false, done := false,
          zSum := 0, spanSum := 0 })

/-- CAL_RUN_START (04 R172). -/
def execCalRunStart (at_ link : Nat) (s : State) : Host.Outcome State Fault Refusal :=
  .next (eachSide (fun _ => true) (fun x s => calStart x link s) (advance at_ s))

/-- A window's mean in FP32. Log entry 122 (DESIGN CHOICE, unsafe). -/
def meanF32 (sum : Int) (n : Nat) : F32 := F32.div (F32.ofDyadic sum 0) (F32.ofDyadic n 0)

/-- The live result of a run judged (04 R173). Log entry 122 (DESIGN CHOICE, unsafe). -/
def calEnd (x : Side) (n : Nat) (s : State) : State :=
  let l := s.ld x
  let k := l.link n
  let d := linkOf l.fmn n
  let e := runEnds d
  if !k.filling || k.void || k.done || k.m ≤ k.runAt + e.2.2.2.1 then s
  else
    let z := meanF32 k.zSum d.nz
    let sc := F32.div (blockVref k.block) (F32.sub (meanF32 k.spanSum d.nr) z)
    let zf := blockZ k.block k.chan
    let sf := blockS k.block k.chan
    let ok := F32.le (F32.abs (F32.sub z zf)) d.zTol
      && F32.le (F32.abs (F32.sub (F32.div sc sf) (F32.ofDyadic 1 0))) d.sTol
    let s := s.modLink x n (fun k => { k with
      done := true, accepted := if ok then k.accepted + 1 else k.accepted,
      rejected := if ok then k.rejected else k.rejected + 1 })
    if ok then s.modChan x (16 * n + k.chan) (fun h => { h with
        nextLive := some (z.toNat, sc.toNat, k.runAt + e.2.2.2.2) })
    else raise (.landing x) 0x0308 (16 * n + k.chan) s

/-- CAL_RESULT (04 R173). -/
def execCalResult (at_ link : Nat) (s : State) : Host.Outcome State Fault Refusal :=
  .next (eachSide (fun _ => true) (fun x s => calEnd x link s) (advance at_ s))

/-! ### Host commands (04 R175 to R177) -/

/-- Some other link than `n` is bypassed. -/
def otherBypassed (s : State) (n : Nat) : Bool :=
  (List.range 16).any (fun m => m ≠ n && ((s.ld s.lead).link m).bypassed)

/-- SCH_BYPASS_LINK (04 R175, R176). Log entry 125 (DESIGN CHOICE, unsafe). -/
def execSchBypassLink (h : CmdHdr) (link : Nat) (s : State) : Host.Outcome State Fault Refusal :=
  .next (hostCommand h 0x0301
    (fun s => { level := 2, range := link < 16,
                state := !otherBypassed s link && ((s.ld s.lead).link link).state ≠ 0
                  && !((s.ld s.lead).link link).bypassed })
    (fun s => done (eachSide (fun _ => true) (fun x s =>
      raise (.landing x) 0x030C link ((voidRun x link s).modLink x link (fun k => { k with bypassed := true }))) s)) s)

/-- SCH_RESTORE_LINK (04 R175, R177). Log entry 125 (DESIGN CHOICE, unsafe). -/
def execSchRestoreLink (h : CmdHdr) (link : Nat) (s : State) : Host.Outcome State Fault Refusal :=
  .next (hostCommand h 0x0302
    (fun s => { level := 2, range := link < 16, state := ((s.ld s.lead).link link).bypassed })
    (fun s => done (eachSide (fun _ => true) (fun x s =>
      raise (.landing x) 0x030C link (s.modLink x link (fun k => { k with bypassed := false }))) s)) s)

/-- SCH_SET_USER_CAL (04 R169, R175, R176). -/
def execSchSetUserCal (h : CmdHdr) (chan : Nat) (a b sub : Word) (s : State) : Host.Outcome State Fault Refusal :=
  .next (hostCommand h 0x0303
    (fun _ => { level := 2, range := chan < 256, modes := [1, 2, 5] })
    (fun s => done (eachSide (fun _ => true) (fun x s =>
      s.modChan x chan (fun c => { c with user := some (a.toNat, b.toNat, sub.toNat), changes := c.changes + 1 })) s)) s)

/-- SCH_DC_FREEZE (04 R175). -/
def execSchDcFreeze (h : CmdHdr) (mask : Nat) (freeze : Bool) (s : State) : Host.Outcome State Fault Refusal :=
  .next (hostCommand h 0x0304
    (fun _ => { level := 1, range := mask < 2 ^ 256 })
    (fun s => done (eachSide (fun _ => true) (fun x s =>
      s.modLd x (fun l => { l with sch := { l.sch with
        frozen := (List.range 256).foldl (fun t k => if bitOf mask k then Tab.set false t k freeze else t) l.sch.frozen } }))
      s)) s)

/-! ### At the tick and at load -/

/-- The chain at a manifest start (04 R158, R160, R162): links DOWN, histories empty. -/
def startSch (l : Landing) : Landing := { l with sch := { start := l.fmn.crossing } }

/-- The state registers at a tick (04, Registers). -/
def showSch (s : State) (x : Side) : State :=
  let t := schOffsets.foldl (fun t o => Tab.set 0 t o (schNow s x o)) []
  s.modLd x (fun l => { l with sch := { l.sch with shown := t } })

/-- The tap ceiling of a trim (01 R52). -/
def tapCeiling (trim : Nat) : Nat := if trim = 0 then 128 else if trim = 1 then 96 else 64

/-- Latency and initiation interval of a `RUN` job (04 R181): steps run back to back. -/
def runCost (m : Tab Byte) (job : Nat) : Nat × Nat :=
  (stepList m job).foldl (fun (acc : Nat × Nat) w =>
    let c := stepCost (w / 65536 % 8 = 4) (stepTaps m w)
    (acc.2 + c.2, acc.2 + c.1)) (0, 0)

/-- A link descriptor in range (04 R151, R179). -/
def linkDescOk (m : Tab Byte) (n : Nat) : Bool :=
  let o := partOff m 3 + 0x10 + 32 * n
  let ns := le m (o + 1) 1
  le m o 1 = n && le m (o + 2) 2 = 0 && le m (o + 0x11) 1 = 0 && le m (o + 0x1C) 4 = 0
    && (ns = 0 || (ns ≤ 24 && ns * secNs ≤ 48000 * periodNs (imgPeriod m)
      && (List.range 5).all (fun i => le m (o + 0xC + i) 1 ≠ 0 || le m (o + 8) 4 = 0)))

/-- A channel descriptor in range (04 R162 to R165, R180). Log entry 127 (DESIGN CHOICE, safe). -/
def chanDescOk (m : Tab Byte) (i : Nat) : Bool :=
  let d := chanDesc m i
  let n := stageCount m d
  let e := expOf m d
  let p := le m (d + 0x2A) 1
  let set := le m (d + 0x28) 2
  le m d 2 < 256 && n ≤ 4 && le m (d + 3) 1 < 2 && 8 ≤ le m (d + 4) 1 && le m (d + 4) 1 ≤ 24 && -2 ≤ e && e ≤ 6
    && secNs ≤ 8000 * outPeriod (periodNs (imgPeriod m)) e
    && (List.range n).all (fun j =>
      let g := stageOf m d (j + 1)
      1 ≤ g.taps && g.taps ≤ 128 && 1 ≤ g.dec && g.dec ≤ 8 && g.shift ≤ 7 && (coefSet m g.set).length == g.taps)
    && 1 ≤ p && p ≤ 32 && (coefSet m set).length == 64 * p + 1 && (coefSet m set).getD (64 * p) 1 == 0
    && le m (d + 0x2B) 1 == 0 && le m (d + 0x2E) 2 == 0 && le m (d + 0x3C) 4 % 64 == 0 && le m (d + 0x3C) 4 + 64 ≤ 0x8000
    && (linkOf { img := m } (le m d 2 / 16)).nsub ≠ 0

/-- A step in range (04 R181). -/
def stepOk (m : Tab Byte) (w : Nat) : Bool :=
  let i := w % 65536
  let k := w / 65536 % 8
  i < (schCounts m).1 && w / 2 ^ 19 == 0 && (k == 4 || k < stageCount m (chanDesc m i))

/-- The bytes of history that the descriptors need: 4 to a sample, a stage's taps and the resampler's. Log entry 45 (DESIGN CHOICE, unsafe). -/
def histBytes (m : Tab Byte) : Nat :=
  (List.range (schCounts m).1).foldl (fun n i =>
    let d := chanDesc m i
    n + 4 * ((List.range (stageCount m d)).foldl (fun t j => t + (stageOf m d (j + 1)).taps) (le m (d + 0x2A) 1))) 0

/-- The part's first fault: its code and image offset (04 R179 to R182). -/
def schPartBad (m : Tab Byte) : Option (Nat × Nat) :=
  match enginePart m 3 with
  | none => none
  | some (o, len) =>
    let c := schCounts m
    let tables := 0x210 + 64 * c.1 + 8 * c.2.1 + 8 * c.2.2
    let coefs := (List.range c.2.1).foldl (fun n i => n + (coefSet m i).length) 0
    let steps := (List.range c.2.2).foldl (fun n j => n + (stepList m j).length) 0
    if c.1 > 256 || len ≠ (tables + 4 * (coefs + steps) + 7) / 8 * 8 || 65536 < coefs || 0x80000 < histBytes m then
      some (0x010C, o)
    else match (List.range 16).find? (fun n => !linkDescOk m n) with
      | some n => some (0x010C, o + 0x10 + 32 * n)
      | none =>
        match (List.range c.1).find? (fun i => !chanDescOk m i) with
        | some i => some (0x010C, chanDesc m i)
        | none =>
          match (List.range c.2.2).find? (fun j => !(stepList m j).all (stepOk m)) with
          | some _ => some (0x010C, o + tables)
          | none =>
            match (List.range c.1).find? (fun i => (List.range (stageCount m (chanDesc m i))).any
                (fun j => tapCeiling (imgTrim m) < (stageOf m (chanDesc m i) (j + 1)).taps)) with
            | some i => some (0x0108, chanDesc m i)
            | none => none

/-- The instant, in core cycles from the manifest start, from which the sample of index `q` of link `n` is usable
(04 R151, R154): 2 µs after the sync edge after it. -/
def sampleUsable (m : Tab Byte) (n q : Nat) : Nat :=
  let ns := max 1 (linkOf { img := m } n).nsub
  let p := periodNs (imgPeriod m)
  let edge := (q + 1) / ns * p + syncOffset p ns ((q + 1) % ns)
  ((edge + 2000) * 4 + 4) / 5

/-- Where the walk of 04 R167 has come to: the outputs of each stage computed so far and the next resampler output, by 8 * descriptor +
stage (4 for the resampler), and whether a step came too early. -/
abbrev DepWalk := Tab Int × Tab (Option Int) × Bool

/-- The newest input sample that a step depends on, counted on the link, and whether the stage before it has computed its input. -/
def stepNeeds (m : Tab Byte) (w : Nat) (n : Int) (t : Tab Int) : Int × Bool :=
  let i := w % 65536
  let k := w / 65536 % 8
  let d := chanDesc m i
  let from_ := if k = 4 then stageCount m d else k
  let need : Int := if k = 4 then
      let l := linkOf { img := m } (le m d 2 / 16)
      resampleX m d (periodNs (imgPeriod m)) l.nsub l.deltaMax (le m d 2) n / 2 ^ 32
    else n * (stageOf m d (k + 1)).dec
  (need * decTotal m d from_, from_ = 0 || need < Tab.get 0 t (8 * i + (from_ - 1)))

/-- One step of the walk, started in core cycle `start` from the manifest start, in crossing `c`. Log entry 130 (DEDUCED, unsafe). -/
def depStep (m : Tab Byte) (c start w : Nat) (a : DepWalk) : DepWalk :=
  let i := w % 65536
  let k := w / 65536 % 8
  let d := chanDesc m i
  let n : Int := if k = 4 then (Tab.get none a.2.1 i).getD (firstOut m d c) else Tab.get 0 a.1 (8 * i + k)
  let q := stepNeeds m w n a.1
  let late := !q.2 || (0 ≤ q.1 && start < sampleUsable m (le m d 2 / 16) q.1.toNat)
  if k = 4 then (a.1, Tab.set none a.2.1 i (some (n + 1)), a.2.2 || late)
  else (Tab.set 0 a.1 (8 * i + k) (n + 1), a.2.1, a.2.2 || late)

/-- A step list dispatched in core cycle `start`. -/
def depList (m : Tab Byte) (c : Nat) : List Nat → Nat → DepWalk → DepWalk
  | [], _, a => a
  | w :: l, start, a => depList m c l (start + (stepCost (w / 65536 % 8 = 4) (stepTaps m w)).1) (depStep m c start w a)

/-- The walk over one crossing. -/
def depCrossing (m : Tab Byte) (c : Nat) (a : DepWalk) : DepWalk :=
  (dispatches m (cyclePattern m (c % imgCycle m))).foldl (fun a e =>
    if e.unit = 3 then depList m c (stepList m e.job) (c * periodCycles (imgPeriod m) + e.cycle) a else a) a

/-- The crossings walked: from the start until every output in reach has its instant after the start, and two cycles more. -/
def depCrossings (m : Tab Byte) : Nat :=
  let most := (List.range (schCounts m).1).foldl (fun n i => max n (le m (chanDesc m i + 6) 2 + 64)) 0
  (most / max 1 (imgCycle m) + 3) * imgCycle m

/-- The link samples that the steps of a cycle go on by more than come in it: the need of each step would come earlier from cycle to
cycle (04 R167). -/
def depDrifts (m : Tab Byte) : Bool :=
  let steps := (List.range (imgCycle m)).flatMap (fun c => (dispatches m (cyclePattern m c)).flatMap (fun e =>
    if e.unit = 3 then stepList m e.job else []))
  let count := fun (i k : Nat) => (steps.filter (fun w => w % 65536 = i && w / 65536 % 8 = k)).length
  (List.range (schCounts m).1).any (fun i =>
    let d := chanDesc m i
    let p := periodNs (imgPeriod m)
    let come := (linkOf { img := m } (le m d 2 / 16)).nsub * imgCycle m
    (List.range (stageCount m d)).any (fun k => come < count i k * decTotal m d (k + 1))
      || p * imgCycle m < count i 4 * outPeriod p (expOf m d))

/-- Some step reads an input sample before it is usable, in the walk over the manifest's crossings from its start (04 R167).
Log entry 130 (DEDUCED, unsafe). -/
def schDepBad (m : Tab Byte) : Bool :=
  if (enginePart m 3).isNone then false
  else depDrifts m || ((List.range (depCrossings m)).foldl (fun a c => depCrossing m c a) (([], [], false) : DepWalk)).2.2

end Sys2Proof.Machine
end

