-- ==== Sys2Proof/Machine/SolverMath.lean ====
section
/-!
DEFINITION. The arithmetic of the solver engine (07 R274, R275, R279 to R281): ordered sums, the divide unit, sparse products,
preconditioners and the methods. Numbers are encodings of the job's format.
-/
namespace Sys2Proof.Machine

/-- What the arithmetic of a slice depends on: the format, the job, and the iteration index that a made NaN carries. -/
structure SlvCtx where
  wide : Bool := true
  job : Nat := 0
  iter : Nat := 0

/-- The format of a context; its lanes; the encodings of 0, 1 and −1. -/
def SlvCtx.fmt (c : SlvCtx) : Fmt := if c.wide then f64 else f32
def SlvCtx.lanes (c : SlvCtx) : Nat := if c.wide then 16 else 32
def SlvCtx.one (c : SlvCtx) : Nat := if c.wide then 0x3FF0000000000000 else 0x3F800000
def SlvCtx.negOne (c : SlvCtx) : Nat := if c.wide then 0xBFF0000000000000 else 0xBF800000

/-- Lane operations: FMA, product, sum, and the negation of an operand, which leaves a NaN as it is (07 R290). -/
def SlvCtx.fma (c : SlvCtx) (a b d : Nat) : Nat := (fFma c.fmt false a b d).1
def SlvCtx.mul (c : SlvCtx) (a b : Nat) : Nat := (fMul c.fmt a b).1
def SlvCtx.add (c : SlvCtx) (a b : Nat) : Nat := (fAdd c.fmt false a b).1
def SlvCtx.neg (c : SlvCtx) (a : Nat) : Nat := if isNan c.fmt a then a else (fNeg c.fmt a).1

/-- A NaN made by the engine (07 R290): code 1 is ZPIV, 2 is OVFL. -/
def SlvCtx.madeNan (c : SlvCtx) (code : Nat) : Nat :=
  if c.wide then 0x7FFA * 2 ^ 48 + c.iter % 65536 * 2 ^ 32 + c.job * 65536 + code else 0x7FD00000 + code

/-- The divide unit (07 R275). -/
def SlvCtx.div (c : SlvCtx) (a b : Nat) : Nat :=
  let F := c.fmt
  if isNan F a || isNan F b then (fDiv F a b).1
  else if b % F.signBit = 0 then c.madeNan 1
  else
    let q := (fDiv F a b).1
    if q % F.signBit = F.inf then c.madeNan 2 else q

/-- The square root. -/
def SlvCtx.sqrt (c : SlvCtx) (a : Nat) : Nat := (fSqrt c.fmt a).1

/-- The larger and the smaller of two values of the bounds of ADMM; a NaN value stays. Log entry 61 (DEDUCED, unsafe). -/
def SlvCtx.max (c : SlvCtx) (a b : Nat) : Nat := if isNan c.fmt a then a else (fMinMax c.fmt true a b).1
def SlvCtx.min (c : SlvCtx) (a b : Nat) : Nat := if isNan c.fmt a then a else (fMinMax c.fmt false a b).1

/-- Element-wise FMA a * x + y (07 R274). -/
def SlvCtx.axpy (c : SlvCtx) (a : Nat) (x y : List Nat) : List Nat :=
  (x.zip y).map (fun p => c.fma a p.1 p.2)

/-- x − y, one rounding. -/
def SlvCtx.sub (c : SlvCtx) (x y : List Nat) : List Nat := c.axpy c.negOne y x

/-- A vector scaled. -/
def SlvCtx.scale (c : SlvCtx) (a : Nat) (x : List Nat) : List Nat := x.map (c.mul a)

/-- Adjacent values added, then the sums, to one value (07 R274); `n` bounds the rounds. -/
def SlvCtx.tree (c : SlvCtx) : Nat → List Nat → Nat
  | 0, l => l.headD 0
  | n + 1, l =>
    let rec pairs : List Nat → List Nat
      | a :: b :: t => c.add a b :: pairs t
      | l => l
    c.tree n (pairs l)

/-- The dot product: lanes by FMA from +0, then pairwise (07 R274). -/
def SlvCtx.dot (c : SlvCtx) (x y : List Nat) : Nat :=
  let n := x.length
  let lane := fun (l : Nat) => (List.range ((n + c.lanes - 1) / c.lanes)).foldl (fun a k =>
    let i := l + k * c.lanes
    if i < n then c.fma (x.getD i 0) (y.getD i 0) a else a) 0
  c.tree 6 ((List.range c.lanes).map lane)

/-- A sparse matrix by rows of (column, value). -/
abbrev Csr := List (List (Nat × Nat))

/-- A sparse product: each row by FMA from +0 in ascending position (07 R274). -/
def SlvCtx.spmv (c : SlvCtx) (a : Csr) (x : List Nat) : List Nat :=
  a.map (fun row => row.foldl (fun s e => c.fma e.2 (x.getD e.1 0) s) 0)

/-- A preconditioner (07 R280): none, the reciprocal diagonal, or the blocks as (size, packed lower triangle with the pivot
reciprocals on the diagonal). -/
inductive Precond where
  | none
  | jacobi (d : List Nat)
  | block (bs : List (Nat × List Nat))
deriving DecidableEq, Repr

/-- Element (i, j), j ≤ i, of a packed lower triangle. -/
def packedAt (l : List Nat) (i j : Nat) : Nat := l.getD (i * (i + 1) / 2 + j) 0

/-- One block applied: forward sweep, scaling by the reciprocals, backward sweep. -/
def SlvCtx.solveBlock (c : SlvCtx) (b : Nat) (l r : List Nat) : List Nat :=
  let y := (List.range b).foldl (fun (y : List Nat) i =>
    y ++ [(List.range i).foldl (fun s j => c.fma (c.neg (packedAt l i j)) (y.getD j 0) s) (r.getD i 0)]) []
  let d := (List.range b).map (fun i => c.mul (y.getD i 0) (packedAt l i i))
  (List.range b).foldl (fun (z : List Nat) k =>
    let i := b - 1 - k
    z.set i ((List.range (b - 1 - i)).foldl (fun s q => c.fma (c.neg (packedAt l (i + 1 + q) i)) (z.getD (i + 1 + q) 0) s) (d.getD i 0))) d

/-- Blocks applied to their parts of a vector. -/
def SlvCtx.solveBlocks (c : SlvCtx) : List (Nat × List Nat) → List Nat → List Nat
  | [], _ => []
  | (b, l) :: t, r => c.solveBlock b l (r.take b) ++ c.solveBlocks t (r.drop b)

/-- M(r). -/
def SlvCtx.precond (c : SlvCtx) (p : Precond) (r : List Nat) : List Nat :=
  match p with
  | .none => r
  | .jacobi d => (r.zip d).map (fun e => c.mul e.1 e.2)
  | .block bs => c.solveBlocks bs r

/-! ### The methods. `vs` are the vectors of the work area in order, `x` the solution, `sc` the scalar registers. -/

/-- The vectors and scalars of an instance between primitives. -/
structure SlvWork where
  vs : List (List Nat) := []
  x : List Nat := []
  sc : List Nat := []

def SlvWork.v (w : SlvWork) (i : Nat) : List Nat := w.vs.getD i []
def SlvWork.s (w : SlvWork) (i : Nat) : Nat := w.sc.getD i 0

/-- CG (07 R280): vectors r, z, p, q; scalar rho. -/
def SlvCtx.cgStart (c : SlvCtx) (a : Csr) (m : Precond) (b x : List Nat) : SlvWork :=
  let r := c.sub b (c.spmv a x)
  let z := c.precond m r
  { vs := [r, z, z, r.map (fun _ => 0)], x := x, sc := [c.dot r z] }

def SlvCtx.cgIter (c : SlvCtx) (a : Csr) (m : Precond) (w : SlvWork) : SlvWork :=
  let p := w.v 2
  let q := c.spmv a p
  let alpha := c.div (w.s 0) (c.dot p q)
  let x := c.axpy alpha p w.x
  let r := c.axpy (c.neg alpha) q (w.v 0)
  let z := c.precond m r
  let rho := c.dot r z
  let beta := c.div rho (w.s 0)
  { vs := [r, z, c.axpy beta p z, q], x := x, sc := [rho] }

/-- `n` iterations of a method. -/
def iterate (f : SlvWork → SlvWork) : Nat → SlvWork → SlvWork
  | 0, w => w
  | n + 1, w => iterate f n (f w)

/-- MINRES (Paige and Saunders), in the chain of 07 R282: vectors v_old, v, q, d_older, d_old, d (the directions before their division
by the rotation's length); scalars beta, eta, c_old, c, s_old, s, and the reciprocals of the two latest lengths. Log entry 60
(DEDUCED, unsafe). -/
def SlvCtx.minresStart (c : SlvCtx) (a : Csr) (b x : List Nat) : SlvWork :=
  let r := c.sub b (c.spmv a x)
  let beta := c.sqrt (c.dot r r)
  let zero := r.map (fun _ => 0)
  { vs := [zero, c.scale (c.div c.one beta) r, zero, zero, zero, zero], x := x, sc := [0, beta, c.one, c.one, 0, 0, 0, 0] }

/-- One iteration of MINRES (07 R280). Log entry 60 (DEDUCED, unsafe). -/
def SlvCtx.minresIter (c : SlvCtx) (a : Csr) (w : SlvWork) : SlvWork :=
  let v := w.v 1
  let beta := w.s 0; let eta := w.s 1; let c0 := w.s 2; let c1 := w.s 3; let s0 := w.s 4; let s1 := w.s 5
  let q := c.spmv a v
  let alpha := c.dot v q
  let q := c.axpy (c.neg alpha) v q
  let q := c.axpy (c.neg beta) (w.v 0) q
  let beta2 := c.sqrt (c.dot q q)
  let delta := c.fma c1 alpha (c.neg (c.mul c0 (c.mul s1 beta)))
  let rho1 := c.sqrt (c.fma delta delta (c.mul beta2 beta2))
  let rho2 := c.fma s1 alpha (c.mul c0 (c.mul c1 beta))
  let rho3 := c.mul s0 beta
  -- one divide, then a pair
  let v' := c.scale (c.div c.one beta2) q
  let inv := c.div c.one rho1
  let c2 := c.div delta rho1
  let s2 := c.mul beta2 inv
  let d := c.axpy (c.neg (c.mul rho3 (w.s 7))) (w.v 4) v
  let d := c.axpy (c.neg (c.mul rho2 (w.s 6))) (w.v 5) d
  { vs := [v, v', q, w.v 4, w.v 5, d], x := c.axpy (c.mul (c.mul c2 eta) inv) d w.x,
    sc := [beta2, c.neg (c.mul s2 eta), c1, c2, s1, s2, inv, w.s 6] }

/-- BiCGSTAB (van der Vorst, right-preconditioned), in the chain of 07 R282: vectors r, r̂, p, v, s, t, M p, M s; scalar rho. Log entry
60 (DEDUCED, unsafe). -/
def SlvCtx.bicgStart (c : SlvCtx) (a : Csr) (b x : List Nat) : SlvWork :=
  let r := c.sub b (c.spmv a x)
  let zero := r.map (fun _ => 0)
  { vs := [r, r, r, zero, zero, zero, zero, zero], x := x, sc := [c.dot r r] }

def SlvCtx.bicgIter (c : SlvCtx) (a : Csr) (m : Precond) (w : SlvWork) : SlvWork :=
  let r := w.v 0; let rh := w.v 1; let p := w.v 2
  let ph := c.precond m p
  let v := c.spmv a ph
  let alpha := c.div (w.s 0) (c.dot rh v)
  let sv := c.axpy (c.neg alpha) v r
  let sh := c.precond m sv
  let t := c.spmv a sh
  let omega := c.div (c.dot t sv) (c.dot t t)
  let x := c.axpy omega sh (c.axpy alpha ph w.x)
  let r := c.axpy (c.neg omega) t sv
  let rho := c.dot rh r
  let beta := c.mul (c.div rho (w.s 0)) (c.div alpha omega)
  { vs := [r, rh, c.axpy beta (c.axpy (c.neg omega) v p) r, v, sv, t, ph, sh], x := x, sc := [rho] }

/-- What an ADMM job solves with (07 R281). -/
structure Admm where
  k : Csr := []
  cm : Csr := []
  ct : Csr := []
  pre : Precond := .none
  inner : Nat := 1
  sigma : Nat := 0
  rho : Nat := 0
  rhoInv : Nat := 0
  q : List Nat := []

/-- ADMM: vectors l, u, z, y, w, d (of m rows), v, r, z_p, p, q_p (of n). -/
def SlvCtx.admmStart (c : SlvCtx) (a : Admm) (w : SlvWork) : SlvWork :=
  let cx := c.spmv a.cm w.x
  let z := (cx.zip (w.v 0)).map (fun e => c.max e.1 e.2)
  let z := (z.zip (w.v 1)).map (fun e => c.min e.1 e.2)
  { w with vs := (w.vs.set 2 z).set 4 cx }

def SlvCtx.admmIter (c : SlvCtx) (a : Admm) (w : SlvWork) : SlvWork :=
  let y := w.v 3
  let t := c.axpy a.rho (w.v 2) (y.map c.neg)
  let v := c.spmv a.ct t
  let v := c.axpy a.sigma w.x v
  let v := c.sub v a.q
  let g := iterate (c.cgIter a.k a.pre) a.inner (c.cgStart a.k a.pre v w.x)
  let cx := c.spmv a.cm g.x
  let z := c.axpy a.rhoInv y cx
  let z := (z.zip (w.v 0)).map (fun e => c.max e.1 e.2)
  let z := (z.zip (w.v 1)).map (fun e => c.min e.1 e.2)
  let d := c.sub cx z
  { x := g.x, sc := g.sc, vs := [w.v 0, w.v 1, z, c.axpy a.rho d y, cx, d, v, g.v 0, g.v 1, g.v 2, g.v 3] }

/-- The residual norm of a Krylov job and of ADMM (07 R282). -/
def SlvCtx.krylovResidual (c : SlvCtx) (a : Csr) (b x : List Nat) : Nat :=
  let r := c.sub b (c.spmv a x)
  c.sqrt (c.dot r r)
def SlvCtx.admmResidual (c : SlvCtx) (cm : Csr) (x z : List Nat) : Nat :=
  let r := c.sub (c.spmv cm x) z
  c.sqrt (c.dot r r)

/-! ### Factorisations (07 R284, R289) -/

/-- An entry of a sparse matrix; 0 where it has none. -/
def csrAt (a : Csr) (i j : Nat) : Nat := ((a.getD i []).find? (fun e => e.1 = j)).elim 0 (fun e => e.2)

/-- The reciprocal of a diagonal entry. -/
def SlvCtx.diagInv (c : SlvCtx) (a : Csr) (i : Nat) : Nat := c.div c.one (csrAt a i i)

/-- The block LDLᵀ factor of the `b` rows from `o`, packed by rows with the pivot reciprocals on the diagonal. -/
def SlvCtx.factorBlock (c : SlvCtx) (a : Csr) (o b : Nat) : List Nat :=
  (List.range b).foldl (fun (l : List Nat) i =>
    -- u_j = L_ij d_j, found left to right; L_ij = u_j * (1 / d_j)
    let u := (List.range i).foldl (fun (u : List Nat) j =>
      u ++ [(List.range j).foldl (fun s k => c.fma (c.neg (u.getD k 0)) (packedAt l j k) s) (csrAt a (o + i) (o + j))]) []
    let row := (List.range i).map (fun j => c.mul (u.getD j 0) (packedAt l j j))
    let d := (List.range i).foldl (fun s k => c.fma (c.neg (u.getD k 0)) (row.getD k 0) s) (csrAt a (o + i) (o + i))
    l ++ row ++ [c.div c.one d]) []

end Sys2Proof.Machine
end

