-- ==== Sys2Proof/Machine/Solver.lean ====
section
/-!
DEFINITION. The solver engine (chapter 07): matrices and jobs in the solver store, slices, factor commits, publication, holds.
-/
namespace Sys2Proof.Machine

/-! ### Descriptors (07 R276, R284) -/

/-- A matrix descriptor. -/
structure SlvMat where
  id : Nat := 0
  prec : Nat := 0
  rows : Nat := 0
  cols : Nat := 0
  z : Nat := 0
  ptr : Nat := 0
  idx : Nat := 0
  val : Nat := 0
deriving DecidableEq, Repr

/-- The matrix descriptor at image offset `o`; the descriptor of matrix `n`. -/
def slvMatAt (m : Tab Byte) (o : Nat) : SlvMat :=
  { id := le m o 1, prec := le m (o + 1) 1, rows := le m (o + 4) 2, cols := le m (o + 6) 2, z := le m (o + 8) 4,
    ptr := le m (o + 0xC) 4, idx := le m (o + 0x10) 4, val := le m (o + 0x14) 4 }
def slvMatList (m : Tab Byte) : List SlvMat :=
  (List.range (slvMats m)).map (fun i => slvMatAt m (partOff m 6 + 16 + 32 * i))
def slvMat (m : Tab Byte) (n : Nat) : SlvMat := ((slvMatList m).find? (fun a => a.id = n)).getD {}

/-- A job descriptor; `off` is its image offset. -/
structure SlvDesc where
  off : Nat := 0
  id : Nat := 0
  kind : Nat := 0
  prec : Nat := 0
  a : Nat := 0
  c : Nat := 0xFF
  ct : Nat := 0xFF
  pre : Nat := 0
  factor : Nat := 0xFFFF
  k : Nat := 0
  flags : Nat := 0
  role : Nat := 0
  fallback : Nat := 0xFFFF
  voyage : Nat := 0
  slices : Nat := 1
  list : Nat := 0
  work : Nat := 1
  b : Nat := 0
  x : Nat := 0
  area : Nat := 0
  rec_ : Nat := 0
  tol : DWord := 0
  sigma : DWord := 0
  rho : DWord := 0
  rhoInv : DWord := 0
deriving DecidableEq, Repr

/-- The job descriptor at image offset `o`; the jobs; the descriptor of job `j`. -/
def slvDescAt (m : Tab Byte) (o : Nat) : SlvDesc :=
  let d := fun (k : Nat) => BitVec.ofNat 64 (le m (o + k) 8)
  { off := o, id := le m o 2, kind := le m (o + 2) 1, prec := le m (o + 3) 1, a := le m (o + 4) 1, c := le m (o + 5) 1,
    ct := le m (o + 6) 1, pre := le m (o + 7) 1, factor := le m (o + 8) 2, k := le m (o + 0xA) 1, flags := le m (o + 0xB) 1,
    role := le m (o + 0xC) 1, fallback := le m (o + 0xE) 2, voyage := le m (o + 0x10) 2, slices := le m (o + 0x12) 2,
    list := le m (o + 0x14) 4, work := le m (o + 0x18) 4, b := le m (o + 0x1C) 4, x := le m (o + 0x20) 4,
    area := le m (o + 0x24) 4, rec_ := le m (o + 0x28) 4, tol := d 0x30, sigma := d 0x38, rho := d 0x40, rhoInv := d 0x48 }
def slvDescs (m : Tab Byte) : List SlvDesc :=
  (List.range (slvJobs m)).map (fun i => slvDescAt m (partOff m 6 + 16 + 32 * slvMats m + 80 * i))
def slvDesc (m : Tab Byte) (j : Nat) : Option SlvDesc := (slvDescs m).find? (fun d => d.id = j)

def SlvDesc.critical (d : SlvDesc) : Bool := bitOf d.flags 0
def SlvDesc.isFallback (d : SlvDesc) : Bool := bitOf d.flags 1

/-- Entry `i` of a job's slice list (07 R285). -/
def slvEntry (m : Tab Byte) (d : SlvDesc) (i : Nat) : Nat := le m (partOff m 6 + d.list + 2 * i) 2

/-- The job's voyage (07 R286). -/
def slvVoyage (m : Tab Byte) (d : SlvDesc) : Voyage := (voyages m).getD d.voyage {}

/-- The lanes of a precision; the bytes of a vector of `n` elements; the bytes of one element. -/
def lanesOf (prec : Nat) : Nat := if prec = 0 then 16 else 32
def vecBytes (prec n : Nat) : Nat := (n + lanesOf prec - 1) / lanesOf prec * 128
def elemBytes (prec : Nat) : Nat := if prec = 0 then 8 else 4

/-- Block sizes of a BLOCK factor of `n` rows with blocks of `b`. -/
def blockSizes (n b : Nat) : List Nat :=
  (List.range ((n + b - 1) / max 1 b)).map (fun i => min b (n - i * b))

/-- Stored factor entries of blocks. -/
def packedLen (bs : List Nat) : Nat := bs.foldl (fun f b => f + b * (b + 1) / 2) 0

/-- The bytes of one factor buffer (07 R284). -/
def bufferBytes (m : Tab Byte) (d : SlvDesc) : Nat :=
  let a := slvMat m d.a
  if d.pre = 1 then vecBytes d.prec a.rows
  else (packedLen (blockSizes a.rows d.k) * elemBytes d.prec + 127) / 128 * 128

/-- The sizes, in elements, of the vectors of a work area in order (07 R284). -/
def workVecs (m : Tab Byte) (d : SlvDesc) : List Nat :=
  let n := (slvMat m d.a).rows
  let c := (slvMat m d.c).rows
  if d.kind = 1 then List.replicate 4 n
  else if d.kind = 2 then List.replicate 6 n
  else if d.kind = 3 then List.replicate 8 n
  else if d.kind = 4 then List.replicate 6 c ++ List.replicate 5 n
  else []

/-- The bytes of a work area. -/
def workBytes (m : Tab Byte) (d : SlvDesc) : Nat :=
  if d.kind = 5 then 2 * bufferBytes m d else (workVecs m d).foldl (fun s n => s + vecBytes d.prec n) 0

/-! ### The store (07 R273, R277) -/

/-- The solver store. -/
def slvBase : Nat := 0x28000000

/-- Words read from the store, with whether one is poisoned. -/
structure SlvRead where
  s : State
  poison : Bool := false

/-- `n` bytes at a store offset, read by whole words. -/
def SlvRead.bytes (r : SlvRead) (x : Side) (off n : Nat) : List Byte × SlvRead :=
  let w := memReadN x (slvBase + off) ((n + 7) / 8) r.s
  ((ofWords w.1).take n, { s := w.2, poison := r.poison || w.1.any (fun p => p.p) })

/-- A byte list cut into numbers of `k` bytes; `n` bounds them. -/
def numsOf (k : Nat) : Nat → List Byte → List Nat
  | 0, _ => []
  | n + 1, b => ofLe (b.take k) :: numsOf k n (b.drop k)

/-- A vector of `n` elements. -/
def SlvRead.vec (r : SlvRead) (x : Side) (prec off n : Nat) : List Nat × SlvRead :=
  let b := r.bytes x off (n * elemBytes prec)
  (numsOf (elemBytes prec) n b.1, b.2)

/-- Vectors that follow each other, each rounded up to a multiple of 128 bytes. -/
def SlvRead.vecs (x : Side) (prec : Nat) : List Nat → Nat → SlvRead → List (List Nat) × SlvRead
  | [], _, r => ([], r)
  | n :: t, off, r =>
    let v := r.vec x prec off n
    let u := SlvRead.vecs x prec t (off + vecBytes prec n) v.2
    (v.1 :: u.1, u.2)

/-- An FP64 value in the job's format, and a value of the job's format in FP64. -/
def toFmt (prec : Nat) (v : DWord) : Nat := if prec = 0 then v.toNat else (F64.narrow v).toNat
def ofFmt (prec : Nat) (v : Nat) : F64 := if prec = 0 then BitVec.ofNat 64 v else F32.widen (BitVec.ofNat 32 v)

/-- Values of one precision in another: widened, or rounded once. Log entry 61 (DEDUCED, unsafe). -/
def castVec (src dst : Nat) (v : List Nat) : List Nat := if src = dst then v else v.map (fun e => toFmt dst (ofFmt src e))

/-- A matrix read from the store, its values in the job's precision. -/
def SlvRead.csr (r : SlvRead) (x : Side) (prec : Nat) (a : SlvMat) : Csr × SlvRead :=
  let p := r.bytes x a.ptr (4 * (a.rows + 1))
  let c := p.2.bytes x a.idx (2 * a.z)
  let v := c.2.vec x a.prec a.val a.z
  let ptr := numsOf 4 (a.rows + 1) p.1
  let es := (numsOf 2 a.z c.1).zip (castVec a.prec prec v.1)
  ((List.range a.rows).map (fun i => (es.take (ptr.getD (i + 1) 0)).drop (ptr.getD i 0)), v.2)

/-- A vector written with its padding 0 (07 R284). -/
def writeVec (x : Side) (prec off : Nat) (v : List Nat) (s : State) : State :=
  let b := v.flatMap (leBytes (elemBytes prec))
  memPut x (slvBase + off) (b ++ List.replicate (vecBytes prec v.length - b.length) 0) s

/-- Vectors written one after another. -/
def writeVecs (x : Side) (prec : Nat) : List (List Nat) → Nat → State → State
  | [], _, s => s
  | v :: t, off, s => writeVecs x prec t (off + vecBytes prec v.length) (writeVec x prec off v s)

/-! ### Slices (07 R283 to R292) -/

/-- Job `j` of landing `x` changed. -/
def State.modJob (s : State) (x : Side) (j : Nat) (f : SlvJob → SlvJob) : State :=
  s.modLd x (fun l => { l with slv := { l.slv with jobs := Tab.upd {} l.slv.jobs j f } })

/-- The instance abandoned at a slice (07 R289, R297, R299): counted, named, and for a FACTOR job reported. -/
def slvAbandon (x : Side) (j slice : Nat) (s : State) : State :=
  let s := s.modLd x (fun l => { l with slv := { l.slv with stallAt := j + slice * 256 } })
  let s := s.modJob x j (fun t => { t with abandoned := true, missed := (t.missed + 1) % 256 })
  match slvDesc (s.ld x).fmn.img j with
  | some d => if d.kind = 5 then raise (.landing x) 0x0603 j s else s
  | none => s

/-- An instance begun at its slice 0 (07 R284, R288): the factor's committed buffer taken. -/
def slvBegin (x : Side) (d : SlvDesc) (s : State) : State :=
  let l := s.ld x
  let fac := l.slv.job d.factor
  s.modJob x d.id (fun t => { t with
    started := l.fmn.crossing, inst := (t.inst + 1) % 2 ^ 32, work := 0, scal := [], abandoned := false, finished := false,
    pivotBad := false, buffer := fac.committed.getD 0, bufCount := if d.pre = 0 || d.kind = 5 then 0 else fac.commits,
    noFactor := d.kind ≠ 5 && d.pre ≠ 0 && fac.committed.isNone })

/-- SLV_STALL (07 R297): the slice whose result is not available, if its instance still runs; `ran` that its `SLICE` was carried
out, without which its dispatch is passed over. -/
def slvStall (x : Side) (j : Nat) (ran : Bool) (s : State) : State :=
  match slvDesc (s.ld x).fmn.img j with
  | none => s
  | some d =>
    let n := ((s.ld x).slv.job j).slice
    let i := if ran then (if n = 0 then d.slices - 1 else n - 1) else n
    let s := if ran then s
      else (if i = 0 then slvBegin x d s else s).modJob x j (fun t => { t with slice := if i + 1 = d.slices then 0 else i + 1 })
    if ((s.ld x).slv.job j).abandoned then s
    else
      let s := slvAbandon x j i s
      let s := s.modLd x (fun l => { l with slv := { l.slv with
        stallLeg := some s.legCount
        stalls := (if l.slv.stallLeg = some s.legCount then l.slv.stalls else []) ++ [j + i * 256] } })
      raise (.landing x) 0x0601 (j + i * 256) s

/-- The first non-finite element of x as (index, raw value) (07 R291). Log entry 61 (DEDUCED, unsafe). -/
def firstBad (F : Fmt) (v : List Nat) : Option (Nat × Nat) :=
  ((List.range v.length).map (fun i => (i, v.getD i 0))).find? (fun e => F.inf ≤ e.2 % F.signBit)

/-- The code of an engine NaN; 0 for another value (07 R290). -/
def madeCode (wide : Bool) (v : Nat) : Nat :=
  let c := v % 65536
  if (if wide then v / 2 ^ 48 = 0x7FFA else v / 65536 = 0x7FD0) && (c = 1 || c = 2) then c else 0

/-- The status of an instance (07 R292). -/
def slvStatus (wide : Bool) (bad : Option (Nat × Nat)) (res tol : F64) : Nat :=
  match bad with
  | some b => let c := madeCode wide b.2; if c = 1 then 2 else if c = 2 then 3 else 4
  | none => if F64.finite res && F64.le res tol then 0 else 1

/-- The result record (07 R291). -/
def slvRecord (d : SlvDesc) (t : SlvJob) (status : Nat) (res : F64) (bad : Option (Nat × Nat)) (due : Nat) : List Byte :=
  leBytes 2 d.id ++ leBytes 1 status ++ leBytes 1 0 ++ leBytes 4 (t.inst % 2 ^ 32) ++ leBytes 4 t.work
    ++ leBytes 4 (t.bufCount % 2 ^ 32) ++ leBytes 8 res.toNat ++ leBytes 8 d.tol.toNat
    ++ leBytes 8 (bad.elim 0 (fun b => b.2)) ++ leBytes 4 (bad.elim 0xFFFFFFFF (fun b => b.1)) ++ leBytes 4 (due % 2 ^ 32)
    ++ leBytes 16 0

/-- FINISH (07 R282, R291, R292): the record written, the job's status kept for the due tick. -/
def slvFinish (x : Side) (d : SlvDesc) (v : List Nat) (res : F64) (s : State) : State :=
  let l := s.ld x
  let wide := d.prec = 0
  let bad := firstBad (if wide then f64 else f32) v
  let st := slvStatus wide bad res d.tol
  let t := l.slv.job d.id
  let due := t.started + (slvVoyage l.fmn.img d).d
  let s := s.modJob x d.id (fun t => { t with finished := true, status := st, bad := BitVec.ofNat 64 (bad.elim 0 (fun b => b.2)) })
  memPut x (slvBase + d.rec_) (slvRecord d t st res bad due) s

/-- The preconditioner a solve instance took at START (07 R287, R288). -/
def readPrecond (x : Side) (m : Tab Byte) (d : SlvDesc) (t : SlvJob) (r : SlvRead) : Precond × SlvRead :=
  match slvDesc m d.factor with
  | none => (.none, r)
  | some f =>
    if d.pre = 0 then (.none, r)
    else
      let n := (slvMat m f.a).rows
      let off := f.area + t.buffer * bufferBytes m f
      if d.pre = 1 then let v := r.vec x f.prec off n; (.jacobi (castVec f.prec d.prec v.1), v.2)
      else
        let bs := blockSizes n f.k
        let v := r.vec x f.prec off (packedLen bs)
        let cut := bs.foldl (fun (a : List (Nat × List Nat) × List Nat) b =>
          let k := b * (b + 1) / 2
          (a.1 ++ [(b, a.2.take k)], a.2.drop k)) ([], castVec f.prec d.prec v.1)
        (.block cut.1, v.2)

/-- A slice of a solve job: everything it reads, then, where no word is poisoned, its arithmetic and what it writes.
Log entry 62 (DEDUCED, unsafe). -/
def solveSlice (x : Side) (m : Tab Byte) (d : SlvDesc) (t : SlvJob) (entry : Nat) (first last : Bool) (s : State) : State :=
  let n := (slvMat m d.a).rows
  let mc := (slvMat m d.c).rows
  let rA := SlvRead.csr { s := s } x d.prec (slvMat m d.a)
  let rC := if d.kind = 4 then rA.2.csr x d.prec (slvMat m d.c) else ([], rA.2)
  let rT := if d.kind = 4 then rC.2.csr x d.prec (slvMat m d.ct) else ([], rC.2)
  let rP := readPrecond x m d t rT.2
  let rB := rP.2.vec x d.prec d.b n
  let rX := rB.2.vec x d.prec d.x n
  let rW := if !first then SlvRead.vecs x d.prec (workVecs m d) d.area rX.2
    else if d.kind = 4 then
      -- START takes l, u and y from the work area
      let a := SlvRead.vecs x d.prec [mc, mc] d.area rX.2
      let y := a.2.vec x d.prec (d.area + 3 * vecBytes d.prec mc) mc
      (a.1 ++ [List.replicate mc 0, y.1, List.replicate mc 0, List.replicate mc 0] ++ List.replicate 5 (List.replicate n 0), y.2)
    else ([], rX.2)
  let s := rW.2.s
  if rW.2.poison then
    raise (.landing x) 0x0602 (d.id + t.slice * 256) (slvAbandon x d.id t.slice s)
  else
    let c : SlvCtx := { wide := d.prec = 0, job := d.id, iter := 0 }
    let A := rA.1
    let ad : Admm := { k := A, cm := rC.1, ct := rT.1, pre := rP.1, inner := d.k, sigma := toFmt d.prec d.sigma,
                       rho := toFmt d.prec d.rho, rhoInv := toFmt d.prec d.rhoInv, q := rB.1 }
    let w0 : SlvWork := { vs := rW.1, x := rX.1, sc := (List.range 8).map (Tab.get 0 t.scal) }
    let w := if !first then w0
      else if d.kind = 1 then c.cgStart A rP.1 rB.1 rX.1
      else if d.kind = 2 then c.minresStart A rB.1 rX.1
      else if d.kind = 3 then c.bicgStart A rB.1 rX.1
      else c.admmStart ad w0
    let w := (List.range entry).foldl (fun (w : SlvWork) i =>
      let c := { c with iter := t.work + i }
      if d.kind = 1 then c.cgIter A rP.1 w
      else if d.kind = 2 then c.minresIter A w
      else if d.kind = 3 then c.bicgIter A rP.1 w
      else c.admmIter ad w) w
    let c := { c with iter := t.work + entry }
    let sc := (List.range 8).foldl (fun tb i => Tab.set 0 tb i (w.s i)) []
    let s := s.modJob x d.id (fun t => { t with work := t.work + entry, scal := sc })
    let s := writeVec x d.prec d.x w.x (writeVecs x d.prec w.vs d.area s)
    if last then
      let res := if d.kind = 4 then c.admmResidual rC.1 w.x (w.v 2) else c.krylovResidual A rB.1 w.x
      slvFinish x d w.x (ofFmt d.prec res) s
    else s

/-- A slice of a FACTOR job (07 R282, R288, R289): `entry` diagonal entries or blocks built into the back buffer. -/
def factorSlice (x : Side) (m : Tab Byte) (d : SlvDesc) (t : SlvJob) (entry : Nat) (last : Bool) (s : State) : State :=
  let a := slvMat m d.a
  let rA := SlvRead.csr { s := s } x d.prec a
  let s := rA.2.s
  if rA.2.poison then raise (.landing x) 0x0602 (d.id + t.slice * 256) (slvAbandon x d.id t.slice s)
  else
    let c : SlvCtx := { wide := d.prec = 0, job := d.id, iter := 0xFFFF }
    let back := t.committed.elim 0 (fun b => 1 - b)
    let base := d.area + back * bufferBytes m d
    let sizes := blockSizes a.rows d.k
    let put := fun (off : Nat) (v : List Nat) (s : State) => memPut x (slvBase + off) (v.flatMap (leBytes (elemBytes d.prec))) s
    let r := (List.range entry).foldl (fun (r : State × Bool) i =>
      let k := t.work + i
      let v := if d.pre = 1 then [c.diagInv rA.1 k] else c.factorBlock rA.1 (k * d.k) (sizes.getD k 0)
      let off := if d.pre = 1 then k else packedLen (sizes.take k)
      let bad := (List.range v.length).any (fun q => madeCode c.wide (v.getD q 0) ≠ 0)
      (put (base + off * elemBytes d.prec) v r.1, r.2 || bad)) (s, false)
    -- the padding of the n-vector after its last entry
    let pad := vecBytes d.prec a.rows - a.rows * elemBytes d.prec
    let s := if d.pre = 1 && t.work + entry = d.work then
        memPut x (slvBase + base + a.rows * elemBytes d.prec) (List.replicate pad 0) r.1 else r.1
    let s := s.modJob x d.id (fun t => { t with work := t.work + entry, pivotBad := t.pivotBad || r.2 })
    let s := if r.2 && !t.pivotBad then raise (.landing x) 0x0604 d.id s else s
    if last then slvFinish x d [] 0 s else s

/-- SLICE (07 R285 to R299): the next slice of the job; after an abandonment its dispatches do no work. Log entry 62 (DEDUCED, unsafe). -/
def sliceOp (x : Side) (j : Nat) (s : State) : State :=
  let l := s.ld x
  let m := l.fmn.img
  match slvDesc m j with
  | none => s
  | some d =>
    let t := l.slv.job j
    let i := t.slice
    let s := if i = 0 then slvBegin x d s else s
    let t := (s.ld x).slv.job j
    let entry := slvEntry m d i
    let last := i + 1 = d.slices
    let s := if t.abandoned then s
      else if t.noFactor then
        let s := s.modJob x j (fun t => { t with work := t.work + entry })
        if last then
          let c : SlvCtx := { wide := d.prec = 0, job := j, iter := 0 }
          let v := List.replicate (slvMat m d.a).rows (c.madeNan 1)
          slvFinish x d v (ofFmt d.prec (c.madeNan 1)) (writeVec x d.prec d.x v s)
        else s
      else if d.kind = 5 then factorSlice x m d t entry last s
      else solveSlice x m d t entry (i = 0) last s
    s.modJob x j (fun t => { t with slice := if last then 0 else i + 1 })

/-- SLICE (07 R285). -/
def execSlice (at_ : Nat) (x : Side) (j : Nat) (s : State) : Host.Outcome State Fault Refusal :=
  .next (runEntry x 0x06 1 (some j) none (fun _ => sliceOp x j) (advance at_ s))

/-! ### At the tick (07 R288, R289, R292 to R296) -/

/-- The tick of crossing `c` is a due tick of the job: a + d + kq after the manifest start. -/
def slvDue (m : Tab Byte) (start c : Nat) (d : SlvDesc) : Bool :=
  let v := slvVoyage m d
  let i := c - start
  start ≤ c && v.a + v.d ≤ i && (i - (v.a + v.d)) % max 1 v.q == 0

/-- The publication is suppressed by the mode or Adrift (07 R293). -/
def slvSuppressed (s : State) (d : SlvDesc) : Bool :=
  (d.role = 1 && (s.mode ≤ 2 || s.arb.adrift)) || (d.role = 2 && (s.mode ≤ 1 || s.arb.adrift))

/-- The primary a fallback job is named by. -/
def slvPrimary (m : Tab Byte) (j : Nat) : Option SlvDesc := (slvDescs m).find? (fun d => d.fallback = j)

/-- The berth of a job is unpublished at this tick by its declaration (02 R70, R718). -/
def slvUnpublished (l : Landing) (d : SlvDesc) : Bool :=
  match (berths l.fmn.img)[(slvVoyage l.fmn.img d).berth]? with
  | some b => !publishedAt l.fmn.img b l.fmn.index
  | none => false

/-- The status a job's berth takes at its due tick: 0 FRESH, 1 HELD, 2 MISSED, 0x80 NAN. -/
def slvBerth (s : State) (l : Landing) (d : SlvDesc) : Nat :=
  let t := l.slv.job d.id
  let wait := d.isFallback && !((slvPrimary l.fmn.img d.id).elim false (fun p => (l.slv.job p.id).leftBad))
  if slvSuppressed s d || wait then 1
  else if t.abandoned || !t.finished then 2
  else if slvUnpublished l d then 1
  else if 2 ≤ t.status then 0x80 else 0

/-- A job at its due tick in crossing `c`: a factor committed, the result published, its hold begun or ended. -/
def slvDueStep (x : Side) (c : Nat) (s : State) (d : SlvDesc) : State :=
  let l := s.ld x
  if !slvDue l.fmn.img l.slv.start c d then s
  else
    let t := l.slv.job d.id
    let st := slvBerth s l d
    let s := if d.kind = 5 && t.finished && !t.abandoned && !t.pivotBad then
        s.modJob x d.id (fun t => { t with committed := some (t.committed.elim 0 (fun b => 1 - b)), commits := t.commits + 1 })
      else s
    let s := if st = 0x80 then
        let s := s.modLd x (fun l => { l with slv := { l.slv with nan := t.bad } })
        raisePerSecond (.landing x) 0x0605 d.id d.id (s.modJob x d.id (fun t => { t with nans := (t.nans + 1) % 256 }))
      else s
    let s := if st = 0 && t.status = 1 then raisePerSecond (.landing x) 0x0606 d.id d.id s else s
    let s := if st = 0 && d.isFallback then raise (.landing x) 0x0608 d.id s else s
    -- holds: the job's own, and the primary's where this is its fallback
    let s := if d.critical then
        if slvSuppressed s d || st = 0 then s.modJob x d.id (fun t => { t with hold := none, holdOver := false })
        else if t.hold.isNone then
          raise (.landing x) 0x0607 d.id (s.modJob x d.id (fun t => { t with hold := some c, holdOver := false }))
        else s
      else s
    let s := match slvPrimary l.fmn.img d.id with
      | some p => if st = 0 then s.modJob x p.id (fun t => { t with hold := none, holdOver := false }) else s
      | none => s
    let bad := st = 0x80 || st = 2
    s.modJob x d.id (fun t => { t with
      leftBad := if slvSuppressed s d then t.leftBad else bad, finished := false, abandoned := false })

/-- The status that the solver gives a berth at the tick of crossing `c`; none where it gives none, HELD before the first instance is
due. -/
def slvOwn (s : State) (x : Side) (c n : Nat) : Option Nat :=
  let l := s.ld x
  match (slvDescs l.fmn.img).find? (fun d => (slvVoyage l.fmn.img d).berth = n) with
  | some d => if slvDue l.fmn.img l.slv.start c d then some (slvBerth s l d) else some 1
  | none => none

/-- The solver at the tick of crossing `c`, primaries before fallbacks; a start crossing begins an instance with slice 0. -/
def slvTick (x : Side) (c : Nat) (s : State) : State :=
  let l := s.ld x
  let ds := slvDescs l.fmn.img
  let s := (ds.filter (fun d => !d.isFallback) ++ ds.filter (fun d => d.isFallback)).foldl (slvDueStep x c) s
  ds.foldl (fun s d =>
    let v := slvVoyage l.fmn.img d
    if l.slv.start + v.a ≤ c && (c - l.slv.start - v.a) % max 1 v.q = 0 then s.modJob x d.id (fun t => { t with slice := 0 }) else s) s

/-- SLV_HOLD_EXPIRED (07 R294): every hold that still runs after 8 crossings, once, and the entry into Adrift. -/
def holdExpired (s : State) : State :=
  let one := fun (x : Side) (s : State) =>
    let l := s.ld x
    (l.slv.jobs.filter (fun e => !e.2.holdOver && (e.2.hold.elim false (fun c => c + 8 ≤ l.fmn.crossing)))).foldl (fun s e =>
      let s := s.modJob x e.1 (fun t => { t with holdOver := true })
      let s := s.modLd x (fun l => { l with slv := { l.slv with expired := true } })
      enterAdrift 0x0609 (raise (.landing x) 0x0609 e.1 s)) s
  one .B (one .A s)

/-- SLV_HOLD_EXPIRED (07 R294). -/
def execSlvHoldExpired (at_ : Nat) (s : State) : Host.Outcome State Fault Refusal := .next (holdExpired (advance at_ s))

/-! ### Start, registers and load checks -/

/-- The engine at a manifest start. -/
def startSlv (l : Landing) : Landing := { l with slv := { start := l.fmn.crossing } }

/-- The registers at a tick. -/
def showSlv (s : State) (x : Side) : State :=
  let l := s.ld x
  s.modLd x (fun l' => { l' with slv := { l'.slv with shown := slvOffsets.foldl (fun t o => Tab.set 0 t o (slvNow l o)) [] } })

/-- Divide latency and initiation interval, square-root latency of a precision (07 R275). -/
def divLat (prec : Nat) : Nat := if prec = 0 then 22 else 11
def divIi (prec : Nat) : Nat := if prec = 0 then 2 else 1
def sqrtLat (prec : Nat) : Nat := if prec = 0 then 26 else 13

/-- The latency of a slice (07 R282, R283): its START, its iterations or entries from the `done`-th, its FINISH. -/
def sliceCost (m : Tab Byte) (d : SlvDesc) (done entry : Nat) (first last : Bool) : Nat :=
  let lan := lanesOf d.prec
  let up := fun (n : Nat) => (n + lan - 1) / lan
  let a := slvMat m d.a
  let c := slvMat m d.c
  let s := up a.z; let sc := up c.z; let w := up a.rows; let wm := up c.rows
  let D := divLat d.prec; let D2 := D + divIi d.prec; let Q := sqrtLat d.prec
  let pa := match slvDesc m d.factor with
    | some f => if d.pre = 0 then 0 else if d.pre = 1 then w + 3
        else 2 * up (packedLen (blockSizes (slvMat m f.a).rows f.k)) + w + 99
    | none => 0
  let cg := s + pa + 5 * w + 126 + 2 * D
  let start := match d.kind with
    | 1 => s + pa + 3 * w + 90
    | 2 => s + 3 * w + 90 + D + Q
    | 3 => s + 3 * w + 90
    | 4 => sc + 2 * wm + 54
    | _ => 0
  let iter := match d.kind with
    | 1 => cg
    | 2 => s + 8 * w + 138 + 2 * Q + D + D2
    | 3 => 2 * s + 2 * pa + 10 * w + 220 + 2 * D + D2
    | 4 => d.k * cg + s + pa + 2 * sc + 5 * w + 6 * wm + 210
    | _ => 0
  let fin := match d.kind with
    | 4 => sc + 2 * wm + w + 90 + Q
    | 5 => 0
    | _ => s + 3 * w + 90 + Q
  let fac := if d.pre = 1 then (if entry = 0 then 0 else divIi d.prec * (entry - 1) + D)
    else (((blockSizes a.rows d.k).drop done).take entry).foldl (fun t b => t + b * (D + 5) + (b * b * b + 6 * lan - 1) / (6 * lan)) 0
  (if first then start else 0) + (if d.kind = 5 then fac else entry * iter) + (if last then fin else 0)

/-- The largest slice of a job: the latency the contract holds a dispatch of job `j` to is that of its own slice. -/
def sliceCostOf (m : Tab Byte) (j i : Nat) : Nat :=
  match slvDesc m j with
  | none => 0
  | some d =>
    let before := (List.range i).foldl (fun n k => n + slvEntry m d k) 0
    sliceCost m d before (slvEntry m d i) (i = 0) (i + 1 = d.slices)

/-- The slices in dispatch order over the cycle, as (crossing index, dispatch cycle, job), and the slice number of each: the
`SLICE` dispatches of a job counted from its latest start crossing, cyclically (07 R285). -/
def sliceNumber (m : Tab Byte) (d : SlvDesc) (i k : Nat) : Nat :=
  let v := slvVoyage m d
  let since := (i + max 1 v.q - v.a % max 1 v.q) % max 1 v.q
  let L := imgCycle m
  let count := fun (p : Nat) => ((dispatches m (cyclePattern m p)).filter (fun e => e.unit = 6 && e.job = d.id)).length
  (List.range since).foldl (fun n q => n + count ((i + L - since + q) % max 1 L)) 0 + k

/-- Latency and initiation interval of the `k`-th dispatch (from 0) of job `j` in crossing index `i`. -/
def slvCost (m : Tab Byte) (j i k : Nat) : Nat × Nat :=
  match slvDesc m j with
  | none => (0, 0)
  | some d => let c := sliceCostOf m j (sliceNumber m d i k); (c, c)

/-- A preconditioner that R279 allows. -/
def slvPreOk (d : SlvDesc) : Bool :=
  match d.kind with
  | 2 => d.pre = 0
  | 5 => d.pre = 1 || d.pre = 2
  | _ => d.pre ≤ 2

/-- A job descriptor in range (07 R279, R284). -/
def slvDescOk (m : Tab Byte) (d : SlvDesc) : Bool :=
  let has := fun (n : Nat) => (slvMatList m).any (fun a => a.id = n)
  let sq := (slvMat m d.a).rows = (slvMat m d.a).cols
  let r := fun (k n : Nat) => le m (d.off + k) n = 0
  d.id ≤ 31 && 1 ≤ d.kind && d.kind ≤ 5 && d.prec ≤ 1 && has d.a && sq && slvPreOk d
    && (if d.kind = 4 then has d.c && has d.ct && 1 ≤ d.k && d.k ≤ 32 else d.c = 0xFF && d.ct = 0xFF)
    && (if d.kind = 5 then d.factor = 0xFFFF && (if d.pre = 2 then 1 ≤ d.k && d.k ≤ 64 else d.k = 0)
        else (d.pre = 0 && d.factor = 0xFFFF) || (slvDesc m d.factor).elim false (fun f => f.kind = 5 && f.pre = d.pre && d.pre ≠ 0))
    && (d.fallback = 0xFFFF || (slvDesc m d.fallback).isSome)
    && (d.kind = 4 || d.kind = 5 || d.k = 0) && d.flags < 4 && d.role ≤ 2 && r 0xD 1 && r 0x2C 4
    && 1 ≤ d.slices && d.slices ≤ 4000 && 1 ≤ d.work && d.work ≤ 65535
    && (d.kind = 4 || (d.sigma = 0 && d.rho = 0 && d.rhoInv = 0))
    && d.list + 2 * d.slices ≤ 16 + 32 * slvMats m + 80 * slvJobs m + le m (partOff m 6 + 2) 4

/-- The store areas of the part as (offset, bytes): arrays, vectors, work areas and records (07 R276, R284). -/
def slvAreas (m : Tab Byte) : List (Nat × Nat) :=
  (slvMatList m).flatMap (fun a => [(a.ptr, 4 * (a.rows + 1)), (a.idx, 2 * a.z), (a.val, elemBytes a.prec * a.z)])
    ++ (slvDescs m).flatMap (fun d =>
      let v := vecBytes d.prec (slvMat m d.a).rows
      (if d.kind = 5 then [] else [(d.b, v), (d.x, v)]) ++ [(d.area, workBytes m d), (d.rec_, 64)])

/-- Two areas that overlap; the same vector named by two jobs is one area. -/
def clash (a b : Nat × Nat) : Bool := a ≠ b && a.1 < b.1 + b.2 && b.1 < a.1 + a.2

/-- The arrays of a matrix break R277 as `INIT_DATA` writes them. -/
def csrBad (m : Tab Byte) (a : SlvMat) (diag : Bool) : Bool :=
  let p := fun (i : Nat) => initLe m (slvBase + a.ptr + 4 * i) 4
  let c := fun (i : Nat) => initLe m (slvBase + a.idx + 2 * i) 2
  p 0 ≠ 0 || p a.rows ≠ a.z || (List.range a.rows).any (fun i =>
    let lo := p i; let hi := p (i + 1)
    hi < lo || a.z < hi || (List.range (hi - lo)).any (fun k =>
      a.cols ≤ c (lo + k) || (k + 1 < hi - lo && c (lo + k + 1) ≤ c (lo + k)))
      || (diag && !(List.range (hi - lo)).any (fun k => c (lo + k) = i)))

/-- The crossings of 100 ms. -/
def crossings100 (m : Tab Byte) : Nat := 100000000 / periodNs (imgPeriod m)

/-- The iteration ceilings of a role and a trim (01 R52). -/
def slvCeiling (trim role : Nat) : Nat :=
  match role with
  | 1 => if trim = 0 then 400 else if trim = 1 then 200 else 100
  | 2 => if trim = 0 then 60 else if trim = 1 then 40 else 25
  | _ => 65535

/-- The start crossings of a job's instances in one cycle. -/
def slvInstances (m : Tab Byte) (d : SlvDesc) : List Nat :=
  let v := slvVoyage m d
  (List.range (imgCycle m / max 1 v.q)).map (fun k => v.a + k * v.q)

/-- The dispatch cycles of the slices of the instance that starts in crossing `c0`, counted from the tick of index 0. -/
def slvStarts (m : Tab Byte) (d : SlvDesc) (c0 : Nat) : List Nat :=
  (List.range (slvVoyage m d).q).flatMap (fun i =>
    ((dispatches m (cyclePattern m ((c0 + i) % max 1 (imgCycle m)))).filter (fun e => e.unit = 6 && e.job = d.id)).map
      (fun e => (c0 + i) * periodCycles (imgPeriod m) + e.cycle))

/-- The crossing of that instance's FINISH slice, and the cycle at which it completes. -/
def slvFinishCrossing (m : Tab Byte) (d : SlvDesc) (c0 : Nat) : Nat :=
  (slvStarts m d c0).getD (d.slices - 1) 0 / max 1 (periodCycles (imgPeriod m))
def slvFinishCycle (m : Tab Byte) (d : SlvDesc) (c0 : Nat) : Nat :=
  (slvStarts m d c0).getD (d.slices - 1) 0 + sliceCostOf m d.id (d.slices - 1)

/-- The solver part refused with a code (07 R300): the image offset of the fault. -/
def slvBad (m : Tab Byte) (code : Nat) : Option Nat :=
  match enginePart m 6 with
  | none => none
  | some (o, len) =>
    let ds := slvDescs m
    let offOf := fun (d : SlvDesc) => some d.off
    if code = 0x0108 then
      (ds.find? (fun d => d.kind ≠ 5 && slvCeiling (imgTrim m) d.role < d.work)).bind offOf
    else if code = 0x010C then
      let mats := slvMatList m
      let head := slvMats m ≤ 8 && slvJobs m ≤ 32 && (List.range 10).all (fun i => le m (o + 6 + i) 1 = 0)
        && len = (16 + 32 * slvMats m + 80 * slvJobs m + le m (o + 2) 4 + 7) / 8 * 8
        && mats.all (fun a => a.id ≤ 7 && a.prec ≤ 1 && 1 ≤ a.rows && a.rows ≤ 16384 && 1 ≤ a.cols && a.cols ≤ 16384
          && 1 ≤ a.z && a.z ≤ 262144)
        && (List.range (slvMats m)).all (fun i => let q := o + 16 + 32 * i; le m (q + 2) 2 = 0 && le m (q + 0x18) 8 = 0)
        && (mats.map (fun a => a.id)).eraseDups.length = mats.length && (ds.map (fun d => d.id)).eraseDups.length = ds.length
      let ops := (List.range (imgCycle m)).all (fun i => (dispatches m (cyclePattern m i)).all (fun e =>
        e.unit ≠ 6 || (e.op = 1 && (slvDesc m e.job).isSome)))
      if !head || !ops then some o else (ds.find? (fun d => !slvDescOk m d)).bind offOf
    else if code = 0x010E then
      let as := slvAreas m
      let out := as.any (fun a => a.1 % 128 ≠ 0 || 0x400000 < a.1 + a.2) || as.any (fun a => as.any (clash a))
      let csr := (slvMatList m).any (fun a => csrBad m a (ds.any (fun d => d.a = a.id && (d.kind = 5 || d.pre ≠ 0))))
      let fixed := (slvMatList m).flatMap (fun a => [(a.ptr, 4 * (a.rows + 1)), (a.idx, 2 * a.z)])
      let write := (List.range (imgCycle m)).any (fun i => (claims m (cyclePattern m i)).any (fun k =>
        (k.dst = 0x1A || k.dst = 0x1B) && fixed.any (fun a =>
          k.to_ < slvBase + a.1 + a.2 && slvBase + a.1 < k.to_ + 8 * k.beats)))
      if out || csr || write then some o else none
    else if code = 0x0110 then
      let L := imgCycle m
      let bad := fun (d : SlvDesc) =>
        let v := slvVoyage m d
        let sum := (List.range d.slices).foldl (fun n i => n + slvEntry m d i) 0
        -- slice 0 in the start crossing, the last one before the due crossing (02 R84)
        let steady := (slvInstances m d).all (fun c =>
          let st := (slvStarts m d c).map (fun t => t / max 1 (periodCycles (imgPeriod m)))
          st.length = d.slices && st.head? = some c && st.all (fun i => i < c + v.d))
        let fb := if d.isFallback then
            match slvPrimary m d.id with
            | none => true
            | some p =>
              let pv := slvVoyage m p
              let gap := (v.a + v.d + max 1 v.q - (pv.a + pv.d) % max 1 v.q) % max 1 v.q
              ((ds.filter (fun e => e.fallback = d.id)).length ≠ 1) || p.role ≠ d.role || pv.q ≠ v.q || d.critical || gap < 1 || 8 < gap
          else (slvPrimary m d.id).isSome
        d.slices ≠ 0 && (sum ≠ d.work || !steady || v.unit ≠ 6 || (voyages m).length ≤ d.voyage || fb
          || (d.role = 1 && v.q ≠ crossings100 m) || (d.role = 2 && v.q ≠ epochCrossings (imgPeriod m))
          -- R288: no commit falls inside an instance that uses the factor
          || (match slvDesc m d.factor with
              | none => false
              | some f =>
                let fv := slvVoyage m f
                (slvInstances m d).any (fun c0 => (List.range (slvFinishCrossing m d c0 - c0)).any (fun i =>
                  fv.q ≠ 0 && (c0 + i + 1 + L * fv.q - (fv.a + fv.d)) % fv.q = 0))))
      (ds.find? bad).bind offOf
    else none

/-- A slot claim breaks R287: between the first slice of an instance and the completion of its FINISH it writes what the instance
uses, the factor's buffers among it, or reads x or the record. -/
def slvDepBad (m : Tab Byte) : Bool :=
  let L := imgCycle m
  let W := periodCycles (imgPeriod m)
  (slvDescs m).any (fun d =>
    let n := if d.kind = 5 then 0 else vecBytes d.prec (slvMat m d.a).rows
    let mats := [d.a] ++ (if d.kind = 4 then [d.c, d.ct] else [])
    let own := [(d.x, n), (d.rec_, 64)]
    let used := own ++ [(d.b, n), (d.area, workBytes m d)]
      ++ mats.map (fun a => ((slvMat m a).val, elemBytes (slvMat m a).prec * (slvMat m a).z))
      ++ ((slvDesc m d.factor).elim [] (fun f => [(f.area, workBytes m f)]))
    let hits := fun (a : Nat) (len : Nat) (r : Nat × Nat) => a < slvBase + r.1 + r.2 && slvBase + r.1 < a + len
    (slvInstances m d).any (fun c0 =>
      let first := (slvStarts m d c0).headD 0
      let done := slvFinishCycle m d c0
      (List.range (slvFinishCrossing m d c0 + 1 - c0)).any (fun i =>
        (claims m (cyclePattern m ((c0 + i) % max 1 L))).any (fun k =>
          let t := (c0 + i) * W + 32 * k.slot
          t < done && ((first < t + 48 && (k.dst = 0x1A || k.dst = 0x1B) && used.any (hits k.to_ (8 * k.beats)))
            || (first < t + 32 && (k.src = 0x1A || k.src = 0x1B) && own.any (hits k.from_ (8 * k.beats))))))))

end Sys2Proof.Machine
end

