-- ==== Sys2Proof/Machine/Transfers.lean ====
section
/-!
DEFINITION. The Linkspan at work (chapter 02): slot transfers, fare grants, completions of operations against the timing
contract, overruns.
-/
namespace Sys2Proof.Machine

/-! ### Slot transfers (02 R74, R75, 03 R137, R138, R140, 12 R451, R452) -/

/-- Claim `k` of the running pattern while it is outstanding (02 R72). -/
def runningClaim (f : Ferryman) (k : Nat) : Option Claim :=
  if f.running && f.open_.contains (claimItem k) then (claims f.img f.pattern)[k]? else none

/-- A cable-die register word read by a claim of landing `x` (01 R44): of two landings in step the one whose request comes first has the
register sampled, and the other's read of it gets the same value. Log entry 26 (DEDUCED, unsafe). -/
def cableWord (x : Side) (a : Nat) (s : State) : Word × State :=
  let q := Tab.get [] s.shared a
  match q with
  | (y, v) :: t =>
    if y ≠ x.num then (v, { s with shared := Tab.set [] s.shared a t })
    else let r := regRead (.engine x 0x28) x a 0 s; (r.1, { r.2 with shared := Tab.set [] r.2.shared a (q ++ [(x.num, r.1)]) })
  | [] =>
    let r := regRead (.engine x 0x28) x a 0 s
    (r.1, if s.inStep x && s.inStep x.other then { r.2 with shared := Tab.set [] r.2.shared a [(x.num, r.1)] } else r.2)

/-- A beat of a claim from the cable link at `a`: two register words, or an access error where one is unmapped (01 R42). -/
def cableBeat (x : Side) (a : Nat) (s : State) : Option Pw × State :=
  if (regKindAt a).isNone || (regKindAt (a + 4)).isNone then (none, accessError x 0x0201 a s)
  else
    let lo := cableWord x a s
    let hi := cableWord x (a + 4) lo.2
    (some ⟨BitVec.ofNat 64 (lo.1.toNat + hi.1.toNat * 2 ^ 32), false⟩, hi.2)

/-- A tile's or the sample chain's stores of cycle `t` or later to the word at `a`, in order. -/
def storesFrom (x : Side) (a t : Nat) (s : State) : List TileStore := (s.ld x).fmn.storeLog.filter (fun e => t ≤ e.cycle && e.addr = a)

/-- A word read by tile `n`'s dock in core cycle `t`: as it was before any store of that cycle or later (03 R137, R138). -/
def dockRead (x : Side) (n a t : Nat) (s : State) : Pw × State :=
  let s := runTile x n t s
  match storesFrom x a t s with
  | e :: _ => (e.old, s)
  | [] => memRead x a s

/-- A word written by tile `n`'s dock in core cycle `t`: a load of that cycle has the word before it, and the bytes of the tile's stores of
that cycle or later stand (03 R137, R138). -/
def dockWrite (x : Side) (n a t : Nat) (w : Pw) (s : State) : State :=
  let s := runTile x n t s
  memWrite x a ((storesFrom x a t s).foldl (fun v e => mergeStore v e.bytes e.poison) w) s

/-- A word read on landing `x` from a memory or a unit's window; the sample chain's block records are registers of the unit (04 R191). -/
def portWord (x : Side) (a : Nat) (s : State) : Pw × State :=
  if 0x30031000 ≤ a && a < 0x30032000 then
    let w := fun (a : Nat) => regValue s (.engine x 0x20) x a
    (⟨BitVec.ofNat 64 (w a + w (a + 4) * 2 ^ 32), false⟩, s)
  else memRead x a s

/-- A word of the sample chain or of the GNSS baseband read in core cycle `t`: of its output store, as it was before what is written there in
that cycle or later (04 R167, 05 R204). -/
def storeRead (x : Side) (a t : Nat) (s : State) : Pw × State :=
  match storesFrom x a t s with
  | e :: _ => (e.old, s)
  | [] => portWord x a s

/-- Source beat `b` of a claim. -/
def sourceBeat (x : Side) (c : Claim) (b : Nat) (s : State) : Option Pw × State :=
  let a := c.from_ + 8 * b
  if c.src = 0x28 then cableBeat x a s
  else
    let r := if c.src < 0x10 then dockRead x c.src a (32 * c.slot + b) s
      else if c.src = 0x20 || c.src = 0x21 then storeRead x a (32 * c.slot + b) s
      else portWord x a s
    (some r.1, r.2)

/-- A word with the data bits of a list of stored bits inverted. Log entry 27 (DEDUCED, safe). -/
def flipBits (v : DWord) : List Nat → DWord
  | [] => v
  | i :: t => flipBits (fixBit v i) t

/-- The syndrome that inverted stored bits leave: the XOR of their columns (12 R449, R451). -/
def flipSyn : List Nat → Nat
  | [] => 0
  | i :: t => columns.getD i 0 ^^^ flipSyn t

/-- A beat checked at its destination address `a` (12 R452): a corrected beat is delivered corrected, an uncorrectable one poisoned,
and the poison bit travels. Log entry 27 (DEDUCED, safe). -/
def checkBeat (x : Side) (a : Nat) (bits : List Nat) (w : Pw) (s : State) : Pw × State :=
  let v := flipBits w.v bits
  let y := BitVec.ofNat 8 (flipSyn bits)
  match classify y with
  | .clean => (⟨v, w.p⟩, s)
  | .corrected b => (⟨fixBit v b, w.p⟩, noteCorrected x 6 a y s)
  | .stored => (⟨v, true⟩, s)
  | .uncorrectable => (⟨v, true⟩, noteUncorrectable x 6 a y s)

/-- The stored bits inverted in beat `b`. -/
def beatFlips (flips : List (Nat × Nat)) (b : Nat) : List Nat := (flips.filter (fun e => e.1 = b)).map (fun e => e.2)

/-- The beats of a claim as they arrive, in ascending order; a beat whose source gives no data is none. -/
def arriveBeats (x : Side) (c : Claim) (flips : List (Nat × Nat)) : Nat → Nat → State → List (Option Pw) × State
  | 0, _, s => ([], s)
  | n + 1, b, s =>
    let r := sourceBeat x c b s
    let q : Option Pw × State := match r.1 with
      | none => (none, r.2)
      | some w => let d := checkBeat x (c.to_ + 8 * b) (beatFlips flips b) w r.2; (some d.1, d.2)
    let t := arriveBeats x c flips n (b + 1) q.2
    (q.1 :: t.1, t.2)

/-- Beat `b` of a claim written at its destination in core cycle 32s + 16 + b (03 R137). -/
def writeBeat (x : Side) (c : Claim) (b : Nat) (w : Pw) (s : State) : State :=
  let a := c.to_ + 8 * b
  if c.dst < 0x10 then dockWrite x c.dst a (32 * c.slot + 16 + b) w s else memWrite x a w s

/-- The beats of a claim from beat `b` on written at their destination; a missing beat leaves its word (01 R42). -/
def storeBeats (x : Side) (c : Claim) : Nat → List (Option Pw) → State → State
  | _, [], s => s
  | b, w :: t, s => storeBeats x c (b + 1) t (match w with
    | some v => writeBeat x c b v s
    | none => s)

/-- The output key (plus 1) of a claim kept with the transmit buffer it writes (10 R390). -/
def keepKey (x : Side) (c : Claim) (s : State) : State :=
  let key := c.flags % 1024 + 1
  if c.dst = 0x26 then
    let o := c.to_ - 0x300A0800
    s.modLd x (fun l => { l with can := { l.can with keys := Tab.set 0 l.can.keys (16 * (o / 0x600) + o % 0x600 / 0x60) key } })
  else if c.dst = 0x27 then
    s.modLd x (fun l => { l with eth := { l.eth with keys := Tab.set 0 l.eth.keys ((c.to_ - 0x300B1000) / 0x600) key } })
  else s

/-- A CAN transmit buffer holds zeros after the item that a claim has written from its first byte (14 R569). -/
def padBuffer (x : Side) (c : Claim) (s : State) : State :=
  let o := c.to_ - 0x300A0800
  if c.dst = 0x26 && o % 0x60 = 0 then
    (List.range (12 - c.beats)).foldl (fun s i => memWrite x (c.to_ + 8 * (c.beats + i)) ⟨0, false⟩ s) s
  else s

/-- The words of a cable-link item written to cable-die registers from address `a`, as the active landing's writes (01 R43). -/
def linkWrites : Nat → List Pw → State → State
  | _, [], s => s
  | a, w :: t, s =>
    let x := s.lead
    let s := regWrite (.engine x 0x28) x a (w.v.setWidth 32) s
    linkWrites (a + 8) t (regWrite (.engine x 0x28) x (a + 4) ((w.v >>> 32).setWidth 32) s)

/-- A cable-link item let through (05 R219, 10 R390): the pulse word of key 1008 is committed, any other item writes registers.
Log entry 25 (DEDUCED, unsafe). -/
def deliverLink (i : OutItem) (s : State) : State :=
  if i.key = 1008 then { s with tp := { s.tp with word := ofWords i.words } } else linkWrites i.sub i.words s

/-- An item let through to its port. -/
def deliver (i : OutItem) (s : State) : State :=
  if i.port = 0x26 then deliverCan i s
  else if i.port = 0x27 then deliverEth i s
  else if i.port = 0x28 then deliverLink i s
  else s

/-- Some word of `n` beats from a cable-die address is unmapped, or a Bollard register that refuses writes (13 R485).
Log entry 26 (DEDUCED, unsafe). -/
def linkUnmapped (a n : Nat) : Bool :=
  (List.range (2 * n)).any (fun i =>
    match regKindAt (a + 4 * i) with
    | none => true
    | some k => bolFixed (a + 4 * i) k)

/-- A claim into the cable link hands its beats over as one item, in the cycle in which they are visible there (02 R75, 10 R390).
Log entry 25 (DEDUCED, unsafe). -/
def handLink (x : Side) (c : Claim) (ws : List (Option Pw)) (s : State) : State :=
  let key := c.flags % 1024
  if key ≠ 1008 && linkUnmapped c.to_ c.beats then accessError x 0x0201 c.to_ s
  else handItem deliver x
    { key := key, cycle := 32 * c.slot + 48, port := 0x28, sub := c.to_, words := ws.map (fun w => w.getD {}) } s

/-- SLOT_TRANSFER (02 R72, R74). -/
def slotTransfer (x : Side) (k : Nat) (flips : List (Nat × Nat)) (s : State) : State :=
  match runningClaim (s.ld x).fmn k with
  | none => s
  | some c =>
    let r := arriveBeats x c flips c.beats 0 s
    let s := if c.dst = 0x28 then handLink x c r.1 r.2 else padBuffer x c (keepKey x c (storeBeats x c 0 r.1 r.2))
    closeItem x (claimItem k) s

/-- SLOT_TRANSFER (02 R74). -/
def execSlotTransfer (at_ : Nat) (x : Side) (k : Nat) (flips : List (Nat × Nat)) (s : State) :
    Host.Outcome State Fault Refusal :=
  .next (slotTransfer x k flips (advance at_ s))

/-! ### Fare slots (02 R81, R83, 01 R37) -/

/-- A port is used by a manifest transfer of the running pattern in a slot. -/
def portBusy (f : Ferryman) (slot port : Nat) : Bool :=
  f.running && (claims f.img f.pattern).any (fun c => c.slot = slot && (c.src = port || c.dst = port))

/-- A lane-slot is claimed by the running pattern. -/
def laneBusy (f : Ferryman) (slot lane : Nat) : Bool :=
  f.running && (claims f.img f.pattern).any (fun c => c.slot = slot && c.lane = lane)

/-- The endpoint ports that reach an address (02 R78); none for the flash and OTP windows, which have no port of their own. -/
def portsOf (a : Nat) : List Nat :=
  if a < 0x08000000 then [0x18, 0x19]
  else if 0x10000000 ≤ a && a < 0x10800000 then [0x10 + (a - 0x10000000) / 0x100000]
  else if 0x20000000 ≤ a && a < 0x20200000 then [(a - 0x20000000) / 0x20000]
  else if 0x28000000 ≤ a && a < 0x28400000 then [0x1A, 0x1B]
  else match regUnit a with
    | some u => if u ≤ 2 then [] else if u ≤ 8 then [0x1D + u] else if u = 0x0A then [0x26] else if u = 0x0B then [0x27]
        else if 0x0D ≤ u && u ≤ 0x11 then [0x28] else []
    | none => []

/-- A request of the Deckhand core that sends a block of the sync set (10 R408). -/
def sendsBlock (q : FareReq) : Bool := q.who = 8 && q.port = 0x28

/-- The endpoint ports of a request (02 R76, R81): the one it names, its requester's, and the memory's that a block is sent from. -/
def fareEnds (q : FareReq) : List Nat :=
  q.port :: ((if q.who = 8 then [0x29] else if q.who < 8 then [0x2A] else [])
    ++ (if sendsBlock q then [(portsOf q.addr).getLastD 0x19] else []))

/-- A port has a fare grant in a slot of this crossing. -/
def portGranted (f : Ferryman) (slot port : Nat) : Bool := f.granted.any (fun g => g.1 = slot && g.2.2.contains port)

/-- A request may be granted in a lane-slot: one that is neither claimed nor granted, or any slot of DRAM port D1, with every port of the
request free in the slot, and through a port that reaches its address (02 R76, R78, R81). -/
def fareFits (f : Ferryman) (slot lane : Nat) (q : FareReq) : Bool :=
  (q.port = 0x19 || (lane < 8 && !laneBusy f slot lane && !f.granted.any (fun g => g.1 = slot && g.2.1 = lane)))
    && (fareEnds q).all (fun p => !portBusy f slot p && !portGranted f slot p)
    && (q.who ≠ 10 || q.port = 0x19)
    && (8 < q.who || sendsBlock q || portsOf q.addr = [] || (portsOf q.addr).contains q.port)

/-- The place of a requester in the order of 02 R81; `turn` is the partition next in rotation. -/
def fareRank (turn who : Nat) : Nat :=
  if who = 10 then 0 else if who = 8 then 1 else if who < 8 then 2 + (who + 8 - turn % 8) % 8 else 10

/-- The request that is granted: the first in the order, the earliest among equals. -/
def farePick (f : Ferryman) (slot lane : Nat) : List FareReq → Option FareReq
  | [] => none
  | q :: t =>
    match farePick f slot lane t with
    | none => if fareFits f slot lane q then some q else none
    | some r => if fareFits f slot lane q && fareRank f.fareTurn q.who ≤ fareRank f.fareTurn r.who then some q else some r

/-- A word read through a fare slot: of a memory or a unit's window, or of the flash or OTP window (01 R40). -/
def fareWord (x : Side) (a : Nat) (s : State) : Pw × State :=
  if roWindow a then
    let lo := mapRead x a s
    (⟨BitVec.ofNat 64 (lo.1.toNat + (mapRead x (a + 4) s).1.toNat * 2 ^ 32), false⟩, s)
  else portWord x a (touchTile x a s)

/-- Words read in ascending order from `a` through fare slots. -/
def fareWords (x : Side) : Nat → Nat → State → List Pw × State
  | _, 0, s => ([], s)
  | a, n + 1, s => let r := fareWord x a s; let t := fareWords x (a + 8) n r.2; (r.1 :: t.1, t.2)

/-- A fare access to memory: whole words directly, parts of words through the merge buffer (12 R460); a read answers in `resp`. -/
def fareAccess (x : Side) (q : FareReq) (s : State) : State :=
  if q.data.isEmpty then
    let a := q.addr / 8 * 8
    let n := (q.addr + q.len + 7) / 8 - q.addr / 8
    let r := fareWords x a n s
    { r.2 with resp := { fare := ((List.range n).map (fun i => a + 8 * i)).zip r.1 } }
  else hostMemWrite x q.who (q.data.length / 8 + 2) q.addr q.data s

/-- Words of a block sent to the joining landing `y`; a poisoned word stays poisoned there (12 R457, 10 R408). -/
def sendWords (x y : Side) : Nat → Nat → State → State
  | _, 0, s => s
  | a, n + 1, s => let r := memRead x a s; sendWords x y (a + 8) n (memWrite y a r.1 r.2)

/-- One block of the sync set sent over the cable link, and no longer marked (10 R408, 12 R473). -/
def sendBlock (x : Side) (addr : Nat) (s : State) : State :=
  match s.arb.resync with
  | none => s
  | some r =>
    if r.side = x || r.copied then s
    else
      let b := addr / 256
      let s := s.modLd x (fun l => { l with memi := { l.memi with
        sent := if l.memi.sent.contains b then l.memi.sent else l.memi.sent ++ [b], marks := l.memi.marks.filter (· ≠ b) } })
      sendWords x r.side (256 * b) 32 s

/-- Every word of a range lies in a unit's memory window (01 R40). -/
def unitRange (a n : Nat) : Bool := (List.range ((a + n + 3) / 4 - a / 4)).all (fun i => regKindAt (a / 4 * 4 + 4 * i) = some .range)

/-- A fare access may be performed: a mapped range, for the Deckhand core inside its windows where 01 R37 binds it, for a partition as its
access table allows (01 R42, 16 R610, R724). -/
def fareMay (x : Side) (q : FareReq) (n : Nat) (s : State) : Bool :=
  let write := !q.data.isEmpty
  let mapped := memRange q.addr n || (!write && (unitRange q.addr n || (roWindow q.addr && roWindow (q.addr + n - 1))))
  mapped && (if q.who = 8 then deckhandMay s x write q.addr n
    else (hostRange s q.who write (q.addr / 4 * 4) ((q.addr + n + 3) / 4 - q.addr / 4)).elim false (fun k => k ≤ (s.part q.who).level))

/-- What a granted request does. Log entry 24 (DESIGN CHOICE, unsafe). -/
def fareDo (x : Side) (q : FareReq) (s : State) : State :=
  if q.who = 9 then scrubStep x [] [] s
  else if 8 < q.who then s
  else if sendsBlock q then sendBlock x q.addr s
  else if fareMay x q (if q.data.isEmpty then q.len else q.data.length) s then fareAccess x q s
  else if q.who = 8 then accessError x 0x0201 q.addr s
  else hostRefused q.who s

/-- The part of a request that one slot moves, to the next boundary of 256 bytes, and the rest of it (02 R74, R79). -/
def splitFare (q : FareReq) : FareReq × Option FareReq :=
  let k := 256 - q.addr % 256
  let n := if q.data.isEmpty then q.len else q.data.length
  if 8 < q.who || sendsBlock q || n ≤ k then (q, none)
  else
    (if q.data.isEmpty then { q with len := k } else { q with data := q.data.take k },
      some (if q.data.isEmpty then { q with addr := q.addr + k, len := q.len - k } else { q with addr := q.addr + k, data := q.data.drop k }))

/-- A landing whose start has not yet completed S6 takes no access (11 R430); in this model a start is one command. -/
def starting (s : State) (x : Side) : Bool := (s.ld x).slw.running && !(s.ld x).slw.s10

/-- FARE_GRANT (02 R81): the requests that get no slot wait, and so does what is left of the one that gets it. Log entry 24 (DESIGN CHOICE, unsafe). -/
def fareGrant (x : Side) (slot lane : Nat) (fresh : List FareReq) (s : State) : State :=
  let f := (s.ld x).fmn
  let all := f.fares ++ fresh
  match (if starting s x then none else farePick f slot lane all) with
  | none => s.modLd x (fun l => { l with fmn := { l.fmn with fares := all } })
  | some q =>
    let p := splitFare q
    let s := s.modLd x (fun l => { l with fmn := { l.fmn with
      fares := p.2.elim (all.erase q) (fun r => all.replace q r),
      fareTurn := if q.who < 8 then (q.who + 1) % 8 else l.fmn.fareTurn,
      granted := l.fmn.granted ++ [(slot, if q.port = 0x19 then 8 else lane, fareEnds q)] } })
    fareDo x p.1 s

/-- FARE_GRANT (02 R81). -/
def execFareGrant (at_ : Nat) (x : Side) (slot lane : Nat) (fresh : List FareReq) (s : State) :
    Host.Outcome State Fault Refusal :=
  .next (fareGrant x slot lane fresh (advance at_ s))

/-! ### Completions and overruns (02 R80, R86, R87) -/

/-- Latency and initiation interval of dispatch entry `k` of pattern `p` in crossing index `i` (02 R80). -/
def opCost (m : Tab Byte) (i p k : Nat) : Nat × Nat :=
  let ds := dispatches m p
  let d := ds.getD k {}
  if d.unit = 3 then runCost m d.job
  else if d.unit = 4 then gnsCost m d.op
  else if d.unit = 5 then fusCost m d.op
  else if d.unit = 6 then slvCost m d.job i ((ds.take k).filter (fun e => e.unit = 6 && e.job = d.job)).length
  else if d.unit = 7 then ctlCost m d.op d.job
  else if d.unit = 8 then axeCost
  else if d.unit = 0x0A then canCost
  else if d.unit = 0x0B then ethCost d.op (sendBytes m p d.job)
  else if 0x80 ≤ d.unit then let c := tileCycles m (d.unit - 0x80) d.job; (c, c)
  else (0, 0)

/-- The cycle at which the contract has the result of dispatch entry `k` of the running pattern (02 R80). -/
def contractCycle (f : Ferryman) (k : Nat) : Nat :=
  ((dispatches f.img f.pattern).getD k {}).cycle + (opCost f.img f.index f.pattern k).1

/-- An overrun of dispatch entry `k`, known in `cycle` (02 R87): a slice that overruns abandons its instance (07 R297), a tile's program is
stopped, its stores taken back. Log entry 119 (DEDUCED, unsafe). -/
def overrunOp (x : Side) (k cycle : Nat) (s : State) : State :=
  let f := (s.ld x).fmn
  let d := (dispatches f.img f.pattern).getD k {}
  let s := overrun x k cycle s
  if d.unit = 6 then slvStall x d.job (f.issued.contains k) s else if 0x80 ≤ d.unit then undoTile x (d.unit - 0x80) d.cycle s else s

/-- OPERATION_COMPLETION (02 R86): a completion later than the contract's cycle is an overrun. -/
def operationCompletion (x : Side) (k cycle : Nat) (s : State) : State :=
  let f := (s.ld x).fmn
  let d := (dispatches f.img f.pattern).getD k {}
  if !f.open_.contains k then s
  else if cycle ≤ contractCycle f k then closeItem x k (if 0x80 ≤ d.unit then finishTile x (d.unit - 0x80) s else s)
  else overrunOp x k cycle s

/-- OPERATION_COMPLETION (02 R86). -/
def execOperationCompletion (at_ : Nat) (x : Side) (k cycle : Nat) (s : State) : Host.Outcome State Fault Refusal :=
  .next (operationCompletion x k cycle (advance at_ s))

/-- FMN_OVERRUN (02 R87). Log entry 23 (DEDUCED, unsafe). -/
def execFmnOverrun (at_ : Nat) (x : Side) (k cycle : Nat) (s : State) : Host.Outcome State Fault Refusal :=
  .next (overrunOp x k cycle (advance at_ s))

end Sys2Proof.Machine
end

