-- ==== Sys2Proof/Machine/Verify.lean ====
section
/-!
DEFINITION. Verification of a manifest image (02 R95, R96) against contract version 1, and its installation.
-/
namespace Sys2Proof.Machine

/-! ### The image (11 R429) -/

/-- The cells of a flash list shifted to image offsets from `o` on, for `n` bytes: an erased byte is 0xFF. -/
def imageCells (base : Nat) : Nat → Nat → List Host.Cell → Tab Byte
  | 0, _, _ => []
  | n + 1, o, [] => (o, 0xFF) :: imageCells base n (o + 1) []
  | n + 1, o, c :: t =>
    if c.1 = base + o then
      if c.2 = 0 then imageCells base n (o + 1) t else (o, c.2) :: imageCells base n (o + 1) t
    else (o, 0xFF) :: imageCells base n (o + 1) (c :: t)

/-- The first `n` bytes of image bank `b` of a landing's flash. -/
def bankImage (l : Landing) (b n : Nat) : Tab Byte :=
  imageCells (bankBase b) n 0 (l.flash.filter (fun c => bankBase b ≤ c.1 && c.1 < bankBase b + n))

/-- The length that the header of a bank's image declares, at most that of a bank. -/
def bankLength (l : Landing) (b : Nat) : Nat := min (bankSize b) (ofLe (flashBytes l (bankBase b + 8) 4))

/-- A bank is empty when its first bytes are not the magic of a manifest (11 R429). -/
def bankEmpty (l : Landing) (b : Nat) : Bool := ofLe (flashBytes l (bankBase b) 4) ≠ 0x464D534F

/-- The image of a bank as it lies in flash: the length its header declares; of an empty bank, the bytes of the header, at which its verification ends. -/
def flashImage (l : Landing) (b : Nat) : Tab Byte :=
  bankImage l b (if bankEmpty l b then 64 else max 64 (bankLength l b))

/-! ### Framing (02 R714) -/

/-- `n` bytes from an offset are 0. -/
def zerosAt (m : Tab Byte) (o n : Nat) : Bool := (List.range n).all (fun i => le m (o + i) 1 = 0)

/-- The first failing item of a list. -/
def firstOff {α : Type} (bad : α → Bool) (off : α → Nat) (l : List α) : Option Nat := (l.find? bad).map off

/-- The number of the first range that overlaps one before it, of which `before` are given. -/
def firstOverlap (before : List (Nat × Nat)) : List (Nat × Nat) → Nat → Option Nat
  | [], _ => none
  | r :: t, i => if before.any (overlap r) then some i else firstOverlap (r :: before) t (i + 1)

/-- Some two of the ranges overlap. -/
def anyOverlap : List (Nat × Nat) → Bool
  | [] => false
  | r :: t => t.any (overlap r) || anyOverlap t

/-- The framing of a section of lists by pattern: a header, a table of `p` entries, lists of elements of `n` bytes (02 R714 to R716). -/
def listsBad (m : Tab Byte) (c : Section) (p n : Nat) : Option Nat :=
  if le m c.off 2 ≠ p || !zerosAt m (c.off + 2) 6 || c.len < 8 + 8 * p then some c.off
  else
    let ls := (List.range p).map (fun i => (le m (c.off + 8 + 8 * i) 4, n * le m (c.off + 12 + 8 * i) 4))
    match (List.range p).find? (fun i => let l := ls.getD i (0, 0)
        l.1 % 8 ≠ 0 || (l.2 ≠ 0 && l.1 < 8 + 8 * p) || c.len < l.1 + l.2) with
    | some i => some (c.off + 8 + 8 * i)
    | none => if anyOverlap ls then some (c.off + 8) else none

/-! ### Header, directory, signature (02 R91 to R93) -/

/-- `FMN_V_HEADER`. Log entry 34 (DEDUCED, unsafe). -/
def headerBad (m : Tab Byte) : Option Nat :=
  if le m 0 4 ≠ 0x464D534F then some 0
  else if le m 4 2 ≠ 1 then some 4
  else if le m 0x1E 2 ≠ 0 then some 0x1E
  else if le m 0x22 2 ≠ 0 then some 0x22
  else if !zerosAt m 0x28 24 then some 0x28 else none

/-- `FMN_V_LENGTH` for an image of which `received` bytes were received. -/
def lengthBad (m : Tab Byte) (received : Nat) : Option Nat :=
  let n := le m 8 4
  let k := le m 0x1C 2
  if 0x01800000 < n || n ≠ received then some 8
  else if n < 0x40 + 16 * k then some 0x1C
  else
    let ds := directory m
    match firstOff (fun (d : Section) => d.off % 8 ≠ 0 || d.off < 0x40 + 16 * k || n < d.off + d.len) (fun d => d.ent) ds with
    | some o => some o
    | none => firstOff (fun (d : Section) => ds.any (fun e => e.ent ≠ d.ent && overlap (d.off, d.len) (e.off, e.len))) (fun d => d.ent) ds

/-- The section types, with those that every image has (02 R94). -/
def sectionTypes : List Nat := [1, 2, 3, 4, 5, 6, 7, 8, 9, 0xA, 0xB, 0xC, 0xD, 0xFF]
def requiredTypes : List Nat := [1, 2, 3, 4, 5, 6, 8, 9, 0xA, 0xD, 0xFF]

/-- `FMN_V_SECTION`. Log entry 33 (DEDUCED, unsafe). -/
def sectionBad (m : Tab Byte) : Option Nat :=
  let ds := directory m
  if requiredTypes.any (fun t => !ds.any (fun d => d.typ = t)) then some 0x40
  else
    let last := ds.getLast?
    firstOff (fun (d : Section) =>
      !sectionTypes.contains d.typ || d.flags ≠ 0 || (ds.any (fun e => e.ent < d.ent && e.typ = d.typ))
        || (d.typ = 0xFF && (last ≠ some d || ds.any (fun e => d.off < e.off)))) (fun d => d.ent) ds

/-- `FMN_V_CRC`. -/
def crcBad (m : Tab Byte) : Option Nat :=
  firstOff (fun (d : Section) => crc32 (bytesAt m d.off d.len) ≠ d.crc) (fun d => d.off) (directory m)

/-- The bytes a signature covers: up to its section, with the CRC field of its own directory entry taken as 0 (02 R93, R94).
Log entry 34 (DEDUCED, unsafe). -/
def signedBytes (m : Tab Byte) (d : Section) : List Byte :=
  bytesAt m 0 (d.ent + 12) ++ [0, 0, 0, 0] ++ bytesAt m (d.ent + 16) (d.off - (d.ent + 16))

/-- `FMN_V_SIGNATURE`: only a slot with the manifest use, not revoked, of the header's algorithm (16 R627). -/
def signatureBad (s : State) (m : Tab Byte) : Option Nat :=
  match sectionOf m 0x00FF with
  | none => some 0x40
  | some d =>
    let alg := le m 0x20 1
    let k := le m 0x21 1
    let t := s.slot k
    if (alg ≠ 1 && alg ≠ 2) || 7 < k then some 0x20
    else if t.alg ≠ alg || !t.manifest || t.revoked then some 0x21
    else if d.len ≠ (if alg = 1 then 32 else 64) then some d.off
    else
      let sig := bytesAt m d.off d.len
      let b := signedBytes m d
      if (if alg = 1 then hmac256 t.key b = sig else ecdsaVerify t.key sig b) then none else some d.off

/-- The module's hardware revision, major and minor (00 R3). -/
def hwRev : Nat := 256 + Config.hwMinor.toNat

/-- `FMN_V_HWREV`. -/
def hwrevBad (m : Tab Byte) : Option Nat := if hwRev < le m 0x24 4 then some 0x24 else none

/-- `FMN_V_CONTRACT`. -/
def contractBad (m : Tab Byte) : Option Nat := if le m 6 2 ≠ 1 then some 6 else none

/-- `FMN_V_TRIM` (01 R52, 02 R90): period and trim, filter taps (04 R182), solver iterations (07 R300). -/
def trimBad (m : Tab Byte) : Option Nat :=
  if 2 < imgTrim m then some 0x0C
  else if imgPeriod m ≠ imgTrim m then some 0x0D
  else
    match (if (enginePart m 3).isNone then none else (List.range (schCounts m).1).find? (fun i =>
        (List.range (stageCount m (chanDesc m i))).any (fun j => tapCeiling (imgTrim m) < (stageOf m (chanDesc m i) (j + 1)).taps))) with
    | some i => some (chanDesc m i)
    | none => if tsolRateBad m then some ((enginePart m 4).elim 0 (fun p => p.1)) else slvBad m 0x0108

/-- `FMN_V_CYCLE` (02 R71, R714). -/
def cycleBad (m : Tab Byte) : Option Nat :=
  let L := imgCycle m
  if L < 1 || 4000 < L || L % epochCrossings (imgPeriod m) ≠ 0 then some 0x0E
  else match sectionOf m 0x0002 with
    | none => some 0x40
    | some c =>
      if c.len ≠ L then some c.ent
      else ((List.range L).find? (fun i => patternCount m ≤ le m (c.off + i) 1)).map (c.off + ·)

/-! ### Slot claims (02 R74 to R79, R82, 10 R390) -/

/-- The claimable ports (02 R78). -/
def claimablePort (p : Nat) : Bool := p ≤ 0x18 || p = 0x1A || p = 0x1B || (0x20 ≤ p && p ≤ 0x28)

/-- A transfer stays where R79 keeps it: inside one apron bank, inside one aligned 256-byte block of DRAM. -/
def keepsInside (port a n : Nat) : Bool :=
  if 0x10 ≤ port && port ≤ 0x17 then a / 0x100000 = (a + n - 1) / 0x100000
  else if port = 0x18 then a / 256 = (a + n - 1) / 256
  else true

/-- The leg of a core cycle of a crossing (02 R58). -/
def legAt (m : Tab Byte) (cycle : Nat) : Nat := min 7 (cycle * 8 / max 1 (periodCycles (imgPeriod m)))

/-- The items that the claims of pattern `p` make, as (key, port and buffer or address, leg of hand-over): a transmit item is handed over
by the dispatch of its buffer after the claim (10 R390). -/
def claimItems (m : Tab Byte) (p : Nat) : List (Nat × Nat × Nat) :=
  (claims m p).filterMap (fun c =>
    let key := c.flags % 1024
    let send := fun (unit job lat : Nat) =>
      ((dispatches m p).find? (fun e => e.unit = unit && e.op = 1 && e.job = job && 32 * c.slot + 48 ≤ e.cycle)).map
        (fun e => (key, unit * 65536 + job, legAt m (e.cycle + lat)))
    if c.dst = 0x26 then let o := c.to_ - 0x300A0800; send 0x0A (16 * (o / 0x600) + o % 0x600 / 0x60) canCost.1
    else if c.dst = 0x27 then
      let job := (c.to_ - 0x300B1000) / 0x600
      send 0x0B job (ethCost 1 (sendBytes m p job)).1
    else if c.dst = 0x28 then some (key, 0x28 * 2 ^ 32 + c.to_, legAt m (32 * c.slot + 48))
    else none)

/-- The flags field of a claim (10 R390, 02 R716). -/
def claimFlagsOk (c : Claim) : Bool :=
  if c.dst = 0x26 || c.dst = 0x27 then c.flags < 896
  else if c.dst = 0x28 then c.flags < 896 || (c.flags = 1008 && c.src = 0x21)
  else c.flags = 0

/-- A key is used by two items of one leg. -/
def keysClash (items : List (Nat × Nat × Nat)) : Bool :=
  items.any (fun a => items.any (fun b => a.1 = b.1 && a.2.2 = b.2.2 && a.2.1 ≠ b.2.1))

/-- A claim in range by itself. -/
def claimOk (m : Tab Byte) (c : Claim) : Bool :=
  50 ≤ c.slot && c.slot ≤ lastSlot (imgPeriod m) && c.lane ≤ 7 && 1 ≤ c.beats && c.beats ≤ 32
    && claimablePort c.src && claimablePort c.dst && c.from_ % 8 = 0 && c.to_ % 8 = 0
    && keepsInside c.src c.from_ (8 * c.beats) && keepsInside c.dst c.to_ (8 * c.beats) && claimFlagsOk c

/-- A claim against the one before it and the others of its slot (02 R74, R76, R716). -/
def claimAgainst (cs : List Claim) (i : Nat) : Bool :=
  let c := cs.getD i {}
  (List.range i).all (fun j =>
    let d := cs.getD j {}
    (d.slot < c.slot || (d.slot = c.slot && d.lane < c.lane))
      && (d.slot ≠ c.slot || (c.src ≠ d.src && c.src ≠ d.dst && c.dst ≠ d.src && c.dst ≠ d.dst)))

/-- The patterns' lists in a section, as (pattern, offset, count). -/
def patternLists (m : Tab Byte) (c : Section) : List (Nat × Nat × Nat) :=
  (List.range (patternCount m)).map (fun p => let l := patternList m c p; (p, l.1, l.2))

/-- `FMN_V_SLOT`. -/
def slotBad (m : Tab Byte) : Option Nat :=
  match sectionOf m 0x0003 with
  | none => some 0x40
  | some c =>
    match listsBad m c (patternCount m) 16 with
    | some o => some o
    | none =>
      (patternLists m c).findSome? (fun l =>
        let cs := claims m l.1
        match (List.range l.2.2).find? (fun i => !claimOk m (cs.getD i {}) || !claimAgainst cs i) with
        | some i => some (l.2.1 + 16 * i)
        | none => if keysClash (claimItems m l.1) then some l.2.1 else none)

/-- Claims of a leg satisfy 02 R82: a tenth of the lane-slots and 16 slots on each apron bank port are left. -/
def fareLegOk (m : Tab Byte) (cs : List Claim) (leg : Nat) : Bool :=
  let slots := ((List.range (lastSlot (imgPeriod m) + 1)).filter (fun s => 50 ≤ s && legAt m (32 * s) = leg)).length
  let here := cs.filter (fun c => legAt m (32 * c.slot) = leg)
  slots * 8 ≤ 10 * (slots * 8 - here.length) && here.length ≤ slots * 8
    && (List.range 8).all (fun b => (here.filter (fun c => c.src = 0x10 + b || c.dst = 0x10 + b)).length + 16 ≤ slots)

/-- `FMN_V_FARE`. -/
def fareBad (m : Tab Byte) : Option Nat :=
  match sectionOf m 0x0003 with
  | none => some 0x40
  | some c =>
    (patternLists m c).findSome? (fun l =>
      if (List.range 8).all (fareLegOk m (claims m l.1)) then none else some l.2.1)

/-! ### Dispatch (02 R80, R715, R717, 03 R108, R147) -/

/-- Engine units. -/
def engineUnits : List Nat := [3, 4, 5, 6, 7, 8, 0x0A, 0x0B]

/-- The parts' own checks that are refused with `FMN_V_DISPATCH`. -/
def partBad (m : Tab Byte) (unit : Nat) : Option Nat :=
  match unit with
  | 3 => (schPartBad m).map (fun e => e.2)
  | 4 => gnsPartBad m
  | 5 => fusPartBad m
  | 6 => slvBad m 0x010C
  | 7 => ctlPartBad m
  | 8 => axePartBad m
  | 0x0A => canPartBad m
  | _ => ethPartBad m

/-- The framing of `ENGINE_JOBS` (02 R717). -/
def jobsBad (m : Tab Byte) : Option Nat :=
  match sectionOf m 0x0005 with
  | none => some 0x40
  | some c =>
    let n := le m c.off 2
    if 8 < n || !zerosAt m (c.off + 2) 6 || c.len < 8 + 16 * n then some c.off
    else
      let es := (List.range n).map (fun i => c.off + 8 + 16 * i)
      let bad := fun (o : Nat) => !engineUnits.contains (le m o 1) || !zerosAt m (o + 1) 3 || !zerosAt m (o + 12) 4
        || le m (o + 4) 4 % 8 ≠ 0 || le m (o + 4) 4 < 8 + 16 * n || c.len < le m (o + 4) 4 + le m (o + 8) 4
        || es.any (fun q => q < o && le m o 1 ≤ le m q 1)
      match es.find? bad with
      | some o => some o
      | none => if anyOverlap (es.map (fun o => (le m (o + 4) 4, le m (o + 8) 4))) then some c.off else none

/-- A dispatch entry names a unit and an operation that exist (02 R715, R717, 03 R108, R147). -/
def dispatchOk (m : Tab Byte) (d : DispatchEnt) : Bool :=
  if 0x80 ≤ d.unit then
    d.unit < 0x90 && d.op = 1 && (tileRec m (d.unit - 0x80)).elim false (fun r => d.job < r.entries || !recordFine m (d.unit - 0x80))
  else engineUnits.contains d.unit && (enginePart m d.unit).isSome && 1 ≤ d.op
    && d.op ≤ (if d.unit = 4 then 3 else if d.unit = 5 || d.unit = 7 || d.unit = 0x0B then 2 else 1)

/-- The operations that share an initiation interval (02 R80, 05 R205, 14 R541, 15 R578): none where the interval depends on content. -/
def intervalKey (d : DispatchEnt) : Option Nat :=
  if d.unit = 4 then some (0x400 + b2n (d.op ≠ 1))
  else if d.unit = 0x0A then some (0xA00 + d.job / 16)
  else if d.unit = 0x0B then (if d.op = 2 then some 0xB02 else none)
  else some (256 * d.unit)

/-- Entry `k` of pattern `p` in crossing index `i` keeps the contract: inside the work window (01 R49), its order, its interval to the next
of its kind, its end before the guard time. -/
def entryTimed (m : Tab Byte) (i p k : Nat) : Bool :=
  let ds := dispatches m p
  let d := ds.getD k {}
  let c := opCost m i p k
  let guard := periodCycles (imgPeriod m) / 20 * 19
  let later := ds.drop (k + 1)
  1600 ≤ d.cycle && d.cycle + c.1 < guard && later.all (fun e => d.cycle < e.cycle || (d.cycle = e.cycle && d.unit ≠ e.unit))
    && (later.find? (fun e => (intervalKey d).isSome && intervalKey e = intervalKey d)).elim true (fun e => d.cycle + c.2 ≤ e.cycle)

/-- The crossing indices with their patterns, and the patterns that no index names, as if at index 0. -/
def timedPatterns (m : Tab Byte) : List (Nat × Nat) :=
  let used := (List.range (imgCycle m)).map (fun i => (i, cyclePattern m i))
  used ++ ((List.range (patternCount m)).filter (fun p => !used.any (fun e => e.2 = p))).map (fun p => (0, p))

/-- `FMN_V_DISPATCH`. -/
def dispatchBad (m : Tab Byte) : Option Nat :=
  match sectionOf m 0x0001 with
  | none => some 0x40
  | some c =>
    let p := patternCount m
    if p < 1 || 256 < p then some c.off
    else match listsBad m c p 8 with
      | some o => some o
      | none =>
        match jobsBad m with
        | some o => some o
        | none =>
          match (patternLists m c).findSome? (fun l =>
              firstOff (fun k => !dispatchOk m (dispatchAt m (l.2.1 + 8 * k))) (fun k => l.2.1 + 8 * k) (List.range l.2.2)) with
          | some o => some o
          | none =>
            match engineUnits.findSome? (partBad m) with
            | some o => some o
            | none =>
              (timedPatterns m).findSome? (fun e =>
                let l := patternList m c e.2
                firstOff (fun k => !entryTimed m e.1 e.2 k) (fun k => l.1 + 8 * k) (List.range l.2))

/-! ### Dependencies (02 R75, R80, R720) -/

/-- A reference names an entry or a claim that exists. -/
def refOk (m : Tab Byte) (r : Nat × Nat × Nat) : Bool :=
  r.2.1 < patternCount m && ((r.1 = 0 && r.2.2 < (dispatches m r.2.1).length) || (r.1 = 1 && r.2.2 < (claims m r.2.1).length))

/-- When a referenced entry starts, in its crossing. -/
def refStart (m : Tab Byte) (r : Nat × Nat × Nat) : Nat :=
  if r.1 = 0 then ((dispatches m r.2.1).getD r.2.2 {}).cycle else 32 * ((claims m r.2.1).getD r.2.2 {}).slot

/-- When its result is available, in crossing index `i` (02 R75, R80). -/
def refDone (m : Tab Byte) (i : Nat) (r : Nat × Nat × Nat) : Nat :=
  refStart m r + (if r.1 = 0 then (opCost m i r.2.1 r.2.2).1 else 48)

/-- The earliest time at or after `t`, up to `d` crossings on from index `i`, at which claim `r` starts. -/
def nextStart (m : Tab Byte) (i d t : Nat) (r : Nat × Nat × Nat) : Option Nat :=
  ((List.range (d + 1)).map (fun o => (o, o * periodCycles (imgPeriod m) + refStart m r))).findSome? (fun e =>
    if cyclePattern m ((i + e.1) % max 1 (imgCycle m)) = r.2.1 && t ≤ e.2 then some e.2 else none)

/-- The claims of a pair taken in turn: the time at which the last one's data is visible. -/
def chainDone (m : Tab Byte) (i d : Nat) : List (Nat × Nat × Nat) → Nat → Option Nat
  | [], t => some t
  | r :: rs, t =>
    match nextStart m i d t r with
    | some u => chainDone m i d rs (u + 48)
    | none => none

/-- A pair keeps the contract in every crossing in which both ends run. -/
def pairOk (m : Tab Byte) (q : DepPair) : Bool :=
  let L := max 1 (imgCycle m)
  (List.range L).all (fun i =>
    cyclePattern m i ≠ q.prod.2.1 || cyclePattern m ((i + q.dist) % L) ≠ q.cons.2.1
      || (chainDone m i q.dist q.refs (refDone m i q.prod)).elim false (fun t =>
        t ≤ q.dist * periodCycles (imgPeriod m) + refStart m q.cons))

/-- The entries of its engine's block that a dispatched operation reads, as (address, bytes) (05 R207, R216, 06 R234, R245, 08 R318, R324,
09 R344, R345, 14 R540, 15 R577). -/
def opInputs (d : DispatchEnt) : List (Nat × Nat) :=
  match d.unit, d.op with
  | 4, 2 => [(0x3004D000 + 32 * d.job, 32)]
  | 4, 3 => [(0x3004D800, 128)]
  | 5, 1 => [(0x30053000 + 64 * d.job, 64)]
  | 5, 2 => [(0x30054000, 32)]
  | 7, 1 => [(0x30071000 + 8 * d.job, 8)]
  | 7, 2 => [(0x30070800 + 16 * d.job, 16)]
  | 8, _ => [(0x30080800, 8), (0x30081000 + 8 * d.job, 8), (0x30081200 + 8 * d.job, 8)]
  | 0x0A, _ => [(canBuffer d.job, 96)]
  | 0x0B, 1 => [(ethBuffer d.job, 0x600)]
  | _, _ => []

/-- The entries that it writes by its result's cycle (05 R209, 06 R246, R247, 08 R318, 09 R345, R346). -/
def opOutputs (d : DispatchEnt) : List (Nat × Nat) :=
  match d.unit, d.op with
  | 4, 1 => [(0x30048000, 0x4000)]
  | 5, 2 => [(0x30054100, 160), (0x30054400, 3072), (0x30058000, 0x8000)]
  | 7, 1 => [(0x30071800 + 8 * d.job, 8)]
  | 8, _ => [(0x30082000 + 32 * d.job, 32), (0x30087000 + 32 * d.job, 32)]
  | _, _ => []

/-- A claim and an operation of one crossing break 02 R75 and R80 (08 R333, 09 R377): the operation reads an entry whose transfer has started
and is not yet visible, or the claim reads an entry of a running operation whose result is not final. -/
def ioClash (e : DispatchEnt) (done : Nat) (k : Claim) : Bool :=
  let t := 32 * k.slot
  (t ≤ e.cycle && e.cycle < t + 48 && (opInputs e).any (overlap (k.to_, 8 * k.beats)))
    || (t < done && (e.cycle ≤ t || done < t + 32) && (opOutputs e).any (overlap (k.from_, 8 * k.beats)))

/-- A claim of one slot reads what a claim of the slot before it writes, which is not yet visible (02 R75). -/
def claimClash (cs : List Claim) (k : Claim) : Bool :=
  cs.any (fun c => c.slot + 1 = k.slot && c.dst = k.src && overlap (c.to_, 8 * c.beats) (k.from_, 8 * k.beats))

/-- The first claim, in the order of the section, that breaks 02 R75 or R80 in a pattern. Log entry 32 (DEDUCED, unsafe). -/
def ioBad (m : Tab Byte) : Option Nat :=
  (sectionOf m 0x0003).bind (fun c => (timedPatterns m).findSome? (fun e =>
    let l := patternList m c e.2
    let ds := dispatches m e.2
    let cs := claims m e.2
    firstOff (fun k => let q := cs.getD k {}
        claimClash cs q || (List.range ds.length).any (fun j => let d := ds.getD j {}
          ioClash d (d.cycle + (opCost m e.1 e.2 j).1) q))
      (fun k => l.1 + 16 * k) (List.range l.2)))

/-- `FMN_V_DEP`: the framing, the pairs, and the pairs the unit chapters name. Log entry 32 (DEDUCED, unsafe). -/
def depBad (m : Tab Byte) : Option Nat :=
  match sectionOf m 0x0008 with
  | none => some 0x40
  | some c =>
    let n := le m c.off 4
    if !zerosAt m (c.off + 4) 4 || c.len < 8 + 16 * n then some c.off
    else
      let ps := depPairs m
      let bad := fun (q : DepPair) =>
        64 < q.n || c.off + c.len < q.off + 16 + (4 * q.n + 7) / 8 * 8 || !zerosAt m (q.off + 12) 4 || 4000 < q.dist
          || (q.n % 2 = 1 && !zerosAt m (q.off + 16 + 4 * q.n) 4)
          || !refOk m q.prod || !refOk m q.cons || q.refs.any (fun r => r.1 ≠ 1 || !refOk m r) || !pairOk m q
      match firstOff bad (fun q => q.off) ps with
      | some o => some o
      | none =>
        if schDepBad m then some (partOff m 3)
        else if slvDepBad m then some (partOff m 6)
        else if axeDepBad m then some (partOff m 8)
        else if canDepBad m then some (partOff m 0x0A) else ioBad m

/-! ### Memory (02 R79, R96, R718, R722) -/

/-- The stores that manifest slot claims may write in an engine's block (04 to 09, 14, 15), as (first, end). -/
def claimStores (port : Nat) : List (Nat × Nat) :=
  match port with
  | 0x21 => [(0x3004D000, 0x3004D880)]
  | 0x22 => [(0x30053000, 0x30054020)]
  | 0x24 => [(0x30070800, 0x30070C00), (0x30071000, 0x30071800)]
  | 0x25 => [(0x30080800, 0x30080808), (0x30081000, 0x30081400)]
  | 0x26 => [(0x300A0800, 0x300A3800)]
  | 0x27 => [(0x300B1000, 0x300BD000)]
  | _ => []

/-- The apron outside a purser area of `area` bytes. -/
def inApron (area a n : Nat) : Bool := 0x10000000 ≤ a && a + n ≤ 0x10800000 - area

/-- The memory behind a port: `n` bytes from `a` lie in it; a claim writes only the stores its unit lets it write, and reads its unit's
windows but the CAN mailboxes (14 R569). -/
def portHolds (port a n : Nat) (write : Bool) : Bool :=
  if port < 0x10 then 0x20000000 + 0x20000 * port ≤ a && a + n ≤ 0x20000000 + 0x20000 * (port + 1)
  else if port < 0x18 then 0x10000000 + 0x100000 * (port - 0x10) ≤ a && a + n ≤ 0x10000000 + 0x100000 * (port - 0x10 + 1)
  else if port = 0x18 then a + n ≤ 0x08000000
  else if port = 0x1A || port = 0x1B then 0x28000000 ≤ a && a + n ≤ 0x28400000
  else if port = 0x28 then 0x400D0000 ≤ a && a + n ≤ 0x40120000
  else if write then (claimStores port).any (fun r => r.1 ≤ a && a + n ≤ r.2)
  else
    let unit := if port ≤ 0x25 then port - 0x1D else port - 0x1C
    let b := 0x30000000 + 0x10000 * unit
    b ≤ a && a + n ≤ b + 0x10000 && (List.range ((n + 3) / 4)).all (fun i => regKindAt (a + 4 * i) = some .range)
      && !(port = 0x26 && 0x300A4000 ≤ a)

/-- A place where `INIT_DATA` may write (02 R722). -/
def initPlace (area a n : Nat) : Bool :=
  a + n ≤ 0x08000000 || inApron area a n || (0x28000000 ≤ a && a + n ≤ 0x28400000)
    || [0x21, 0x22, 0x24, 0x25, 0x26, 0x27].any (fun p => (claimStores p).any (fun r => r.1 ≤ a && a + n ≤ r.2))

/-- Berth `i` of the section at `c` in range (02 R718). -/
def berthOk (m : Tab Byte) (c : Section) (area i : Nat) : Bool :=
  let o := c.off + 8 + 32 * i
  let b := berthAt m o
  let L := imgCycle m
  let bits := if b.period = 0 then 0 else L / b.period
  let mapLen := (bits + 63) / 64 * 8
  b.addr % 8 = 0 && b.size % 8 = 0 && 16 ≤ b.size && (le m (o + 8) 1 = 1 || le m (o + 8) 1 = 2)
    && ((1 ≤ b.producer && b.producer ≤ 0x13) || (0x80 ≤ b.producer && b.producer < 0x90))
    && (b.voyage = 0xFFFF || b.voyage < (voyages m).length)
    && 1 ≤ b.period && b.period ≤ 4000 && L % b.period = 0 && b.phase < b.period && zerosAt m (o + 0x14) 12
    && (b.map = 0 || (b.map % 8 = 0 && 8 + 32 * le m c.off 2 ≤ b.map && b.map + mapLen ≤ c.len
      && (List.range (8 * mapLen - bits)).all (fun k => let j := bits + k; !bitOf (le m (c.off + b.map + j / 8) 1) (j % 8))))
    && inApron area b.addr (berthSpan b).2

/-- `BERTHS` refused with `FMN_V_MEMORY`. -/
def berthsBad (m : Tab Byte) (area : Nat) : Option Nat :=
  match sectionOf m 0x0006 with
  | none => some 0x40
  | some c =>
    let n := le m c.off 2
    if 4096 < n || !zerosAt m (c.off + 2) 6 || c.len < 8 + 32 * n then some c.off
    else match (List.range n).find? (fun i => !berthOk m c area i) with
      | some i => some (c.off + 8 + 32 * i)
      | none =>
        let a := admission m
        let maps := (berths m).map (fun b => (b.map, if b.map = 0 || b.period = 0 then 0 else (imgCycle m / b.period + 63) / 64 * 8))
        match firstOverlap [] maps 0 with
        | some i => some (c.off + 8 + 32 * i)
        | none => (firstOverlap [(a.1, 2 * a.2)] ((berths m).map berthSpan) 0).map (fun i => c.off + 8 + 32 * i)

/-- The records of `INIT_DATA` reach past the section, or are misplaced, misaligned or overlap (02 R722). -/
def initBad (m : Tab Byte) (area : Nat) : Option Nat :=
  match sectionOf m 0x000C with
  | none => none
  | some c =>
    let n := le m c.off 4
    if !zerosAt m (c.off + 4) 4 || c.len < 8 + 8 * n then some c.off
    else
      let rs := initRecords m
      match firstOff (fun (r : Nat × Nat × Nat) =>
          c.off + c.len < r.2.2 + (r.2.1 + 7) / 8 * 8 || r.1 % 8 ≠ 0 || r.2.1 % 8 ≠ 0 || !initPlace area r.1 r.2.1)
          (fun r => r.2.2 - 8) rs with
      | some o => some o
      | none => (firstOverlap [] (rs.map (fun r => (r.1, r.2.1))) 0).map (fun i => (rs.getD i (0, 0, 8)).2.2 - 8)

/-- `FMN_V_MEMORY`: claims, berths, initial data, the solver's store (07 R300). -/
def memoryBad (m : Tab Byte) (area : Nat) : Option Nat :=
  let bad := fun (c : Claim) =>
    !portHolds c.src c.from_ (8 * c.beats) false
      || !((c.dst = 0x28 && c.flags = 1008) || portHolds c.dst c.to_ (8 * c.beats) true)
      || (0x10 ≤ c.src && c.src < 0x18 && !inApron area c.from_ (8 * c.beats))
      || (0x10 ≤ c.dst && c.dst < 0x18 && !inApron area c.to_ (8 * c.beats))
  let inSlots := match sectionOf m 0x0003 with
    | none => some 0x40
    | some c => (patternLists m c).findSome? (fun l =>
        firstOff (fun k => bad (claimAt m (l.2.1 + 16 * k))) (fun k => l.2.1 + 16 * k) (List.range l.2.2))
  match inSlots with
  | some o => some o
  | none =>
    match berthsBad m area with
    | some o => some o
    | none =>
      match initBad m area with
      | some o => some o
      | none => slvBad m 0x010E

/-! ### Voyages (02 R84, R718, R719) -/

/-- A claim writes the back buffer of a voyage's result berth in a crossing at or after the due one and before the next start: a slice that
does not complete inside the crossing before the due one (02 R84). -/
def lateSlice (m : Tab Byte) (v : Voyage) : Bool :=
  let b := (berths m).getD v.berth {}
  (List.range (imgCycle m)).any (fun i =>
    v.unit ≠ 6 && v.d ≤ (i + v.q - v.a % max 1 v.q) % max 1 v.q
      && (claims m (cyclePattern m i)).any (fun c => overlap (c.to_, 8 * c.beats) (b.addr + b.size, b.size)))

/-- The first berth that names a voyage whose result berth is another (02 R718). -/
def voyageBerthBad (m : Tab Byte) : Option Nat :=
  match sectionOf m 0x0006 with
  | none => none
  | some c => ((List.range (berths m).length).find? (fun n =>
      let b := (berths m).getD n {}
      b.voyage ≠ 0xFFFF && ((voyages m).getD b.voyage {}).berth ≠ n)).map (fun n => c.off + 8 + 32 * n)

/-- `FMN_V_VOYAGE`. -/
def voyageBad (m : Tab Byte) : Option Nat :=
  match sectionOf m 0x0007 with
  | none => slvBad m 0x0110
  | some c =>
    let n := le m c.off 2
    if 64 < n || !zerosAt m (c.off + 2) 6 || c.len < 8 + 16 * n then some c.off
    else
      let bad := fun (i : Nat) =>
        let o := c.off + 8 + 16 * i
        let v := (voyages m).getD i {}
        let b := (berths m)[v.berth]?
        !(engineUnits.contains v.unit || (0x80 ≤ v.unit && v.unit < 0x90)) || le m (o + 1) 1 ≠ 0 || !zerosAt m (o + 10) 6
          || v.d < 1 || v.q < v.d || 4000 < v.q || imgCycle m % v.q ≠ 0 || v.q ≤ v.a
          || b.elim true (fun b => !b.double || b.period ≠ v.q || b.phase ≠ (v.a + v.d) % v.q || b.voyage ≠ i) || lateSlice m v
      match (List.range n).find? bad with
      | some i => some (c.off + 8 + 16 * i)
      | none =>
        match voyageBerthBad m with
        | some o => some o
        | none => slvBad m 0x0110

/-! ### Digest and safe values (10 R395, R404) -/

/-- The keys handed over in pattern `p`, with their legs (10 R390): by claims, by updates of axes, by sample links in every leg. -/
def handedKeys (m : Tab Byte) (p : Nat) : List (Nat × Nat) :=
  (claimItems m p).map (fun e => (e.1, e.2.2))
    ++ (dispatches m p).flatMap (fun e =>
      if e.unit = 8 then
        let leg := legAt m (e.cycle + axeCost.1)
        match axeDesc m e.job with
        | some d => (928 + e.job, leg) :: (if aStep m d then [(896 + le m d 1, leg)] else [])
        | none => []
      else [])
    ++ (if (enginePart m 3).isNone then [] else
      (List.range 16).flatMap (fun n => if (linkOf { img := m } n).nsub = 0 then [] else (List.range 8).map (fun l => (992 + n, l))))

/-- A compared-value entry in range (10 R395). Log entry 35 (DEDUCED, unsafe). -/
def comparedOk (m : Tab Byte) (o : Nat) : Bool :=
  let f := le m (o + 3) 1
  let finite := fun (k : Nat) => let v : F64 := BitVec.ofNat 64 (le m (o + k) 8); F64.le v v
  let order := if f ≤ 2 then F64.le (BitVec.ofNat 64 (le m (o + 0x10) 8)) (BitVec.ofNat 64 (le m (o + 0x18) 8))
    else decide (sval 64 (le m (o + 0x10) 8) ≤ sval 64 (le m (o + 0x18) 8))
  let step := if f ≤ 2 then F64.le 0 (BitVec.ofNat 64 (le m (o + 0x20) 8)) else decide ((0 : Int) ≤ sval 64 (le m (o + 0x20) 8))
  le m o 1 < patternCount m && le m (o + 1) 1 ≤ 7 && le m (o + 2) 1 ≤ 63 && 1 ≤ f && f ≤ 4 && le m (o + 8) 2 < 4
    && zerosAt m (o + 10) 6 && zerosAt m (o + 0x28) 8 && (2 < f || (finite 0x10 && finite 0x18)) && order && step
    && (handedKeys m (le m o 1)).contains (le m (o + 4) 2, le m (o + 1) 1)

/-- A carried range lies in a memory of 10 R395. -/
def carriedOk (area a n : Nat) : Bool :=
  a % 256 = 0 && n % 256 = 0
    && (a + n ≤ 0x08000000 || inApron area a n || (0x20000000 ≤ a && a + n ≤ 0x20200000) || (0x28000000 ≤ a && a + n ≤ 0x28400000))

/-- `FMN_V_DIGEST`. -/
def digestBad (m : Tab Byte) (area : Nat) : Option Nat :=
  match sectionOf m 0x0009 with
  | none => some 0x40
  | some c =>
    let k := le m c.off 2
    let r := le m (c.off + 2) 2
    if !zerosAt m (c.off + 4) 12 || c.len < 16 + 48 * k + 16 * r then some c.off
    else
      let es := (List.range k).map (fun i => c.off + 16 + 48 * i)
      let same := fun (a b : Nat) => le m a 1 = le m b 1 && le m (a + 1) 1 = le m (b + 1) 1
      let bad := fun (o : Nat) => !comparedOk m o || (es.filter (same o)).length > 64
        || es.any (fun q => q < o && same o q && le m (o + 2) 1 = le m (q + 2) 1)
      match es.find? bad with
      | some o => some o
      | none =>
        let rs := carried m
        match (List.range r).find? (fun i => let e := rs.getD i (0, 0)
            !carriedOk area e.1 e.2 || !zerosAt m (c.off + 16 + 48 * k + 16 * i + 8) 8) with
        | some i => some (c.off + 16 + 48 * k + 16 * i)
        | none =>
          if anyOverlap rs || 0x02000000 < rs.foldl (fun n e => n + e.2) 0 then some (c.off + 16 + 48 * k) else none

/-- The entries of `SAFE_VALUES` as (offset, key, length); `n` bounds the walk. -/
def safeEntries (m : Tab Byte) (last : Nat) : Nat → Nat → List (Nat × Nat × Nat)
  | 0, _ => []
  | n + 1, o =>
    if last < o + 8 then [(o, 1024, 0)]
    else let len := le m (o + 2) 2; (o, le m o 2, len) :: safeEntries m last n (o + 8 + (len + 7) / 8 * 8)

/-- `FMN_V_SAFE`: every key that reaches the CAN or the Ethernet has an entry. -/
def safeBad (m : Tab Byte) : Option Nat :=
  match sectionOf m 0x000A with
  | none => some 0x40
  | some c =>
    let n := le m c.off 2
    if !zerosAt m (c.off + 2) 6 || c.len < 8 + 8 * n then some c.off
    else
      let es := safeEntries m (c.off + c.len) n (c.off + 8)
      let bad := fun (e : Nat × Nat × Nat) => 1023 < e.2.1 || 1536 < e.2.2 || !zerosAt m (e.1 + 4) 4
        || c.off + c.len < e.1 + 8 + (e.2.2 + 7) / 8 * 8 || !zerosAt m (e.1 + 8 + e.2.2) ((8 - e.2.2 % 8) % 8)
        || es.any (fun q => q.1 < e.1 && q.2.1 = e.2.1)
      match firstOff bad (fun e => e.1) es with
      | some o => some o
      | none =>
        let miss := (List.range (patternCount m)).any (fun p => (claims m p).any (fun k =>
          (k.dst = 0x26 || k.dst = 0x27) && !es.any (fun e => e.2.1 = k.flags % 1024)))
        if miss then some c.off else none

/-! ### Windows and admission (02 R68, R713, R721) -/

/-- `FMN_V_WINDOW`. -/
def windowBad (m : Tab Byte) (area : Nat) : Option Nat :=
  match sectionOf m 0x000B with
  | none => none
  | some c =>
    let n := le m c.off 2
    if 64 < n || !zerosAt m (c.off + 2) 6 || c.len < 8 + 16 * n then some c.off
    else
      let ws := windows m
      let bad := fun (i : Nat) =>
        let o := c.off + 8 + 16 * i
        let w := ws.getD i (0, 0, false)
        let r := (w.1, w.2.1)
        w.1 % 8 ≠ 0 || w.2.1 % 8 ≠ 0 || 1 < le m (o + 8) 1 || !zerosAt m (o + 9) 7
          || !(w.1 + w.2.1 ≤ 0x08000000 || inApron area w.1 w.2.1 || (0x20000000 ≤ w.1 && w.1 + w.2.1 ≤ 0x20200000)
            || (0x28000000 ≤ w.1 && w.1 + w.2.1 ≤ 0x28400000))
          || (List.range i).any (fun j => let v := ws.getD j (0, 0, false); overlap r (v.1, v.2.1))
          || (w.2.2 && ((List.range (patternCount m)).any (fun p => (claims m p).any (fun k => overlap r (k.from_, 8 * k.beats)))
            || (berths m).any (fun b => overlap r (berthSpan b)) || overlap r ((admission m).1, 2 * (admission m).2)))
      ((List.range n).find? bad).map (fun i => c.off + 8 + 16 * i)

/-- `FMN_V_ADMISSION`. -/
def admissionBad (m : Tab Byte) (area : Nat) : Option Nat :=
  match sectionOf m 0x000D with
  | none => some 0x40
  | some c =>
    let a := admission m
    if c.len < 16 || !zerosAt m (c.off + 8) 8 || a.1 % 8 ≠ 0 || a.2 % 8 ≠ 0 || a.2 < 6160 + contentLimit (imgPeriod m)
        || !inApron area a.1 (2 * a.2) then some c.off
    else none

/-! ### The verdict on an image -/

/-- The checks in the order of 02 R95, R96, with their codes; each is made only when those before it passed. -/
def checksOf (s : State) (m : Tab Byte) (received : Nat) : List (Nat × (Unit → Option Nat)) :=
  let area := areaBytes s
  [(0x0101, fun _ => headerBad m), (0x0102, fun _ => lengthBad m received), (0x0103, fun _ => sectionBad m),
   (0x0104, fun _ => crcBad m), (0x0105, fun _ => signatureBad s m), (0x0106, fun _ => hwrevBad m),
   (0x0107, fun _ => contractBad m), (0x0108, fun _ => trimBad m), (0x0109, fun _ => cycleBad m),
   (0x010A, fun _ => slotBad m), (0x010B, fun _ => fareBad m), (0x010C, fun _ => dispatchBad m),
   (0x010D, fun _ => depBad m), (0x010E, fun _ => memoryBad m area), (0x010F, fun _ => tileBad m),
   (0x0110, fun _ => voyageBad m), (0x0111, fun _ => digestBad m area), (0x0112, fun _ => safeBad m),
   (0x0113, fun _ => windowBad m area), (0x0114, fun _ => admissionBad m area)]

/-- The first check that fails: its code and the byte offset of the failing item. Log entry 33 (DEDUCED, unsafe). -/
def firstRefusal : List (Nat × (Unit → Option Nat)) → Option (Nat × Nat)
  | [] => none
  | c :: t =>
    match c.2 () with
    | some o => some (c.1, o)
    | none => firstRefusal t

/-- Verification of an image (02 R95): none when it passes. Log entry 32 (DEDUCED, unsafe). -/
def verify (s : State) (m : Tab Byte) (received : Nat) : Option (Nat × Nat) := firstRefusal (checksOf s m received)

/-- The load status of a refusal (02 R96). -/
def loadStatus (code : Nat) : Status :=
  if code ≤ 0x0103 then .format else if code ≤ 0x0105 then .integrity else .range

/-- A refusal recorded and raised (02 R95, R100, R105). -/
def noteRefusal (x : Side) (code off : Nat) (s : State) : State :=
  raise (.landing x) code off (s.modLd x (fun l => { l with fmn := { l.fmn with lastVerify := code, verifyAt := off, verifying := false } }))

/-- A verification that passed recorded (02 R100). -/
def notePassed (x : Side) (s : State) : State :=
  s.modLd x (fun l => { l with fmn := { l.fmn with lastVerify := 0, verifying := false } })

/-! ### Installation (02 R722, 03 R146, R723) -/

/-- Bytes written to a landing's memories as clean words; a part of a word is padded with zeros. -/
def putClean : Nat → Nat → List Byte → Landing → Landing
  | 0, _, _, l => l
  | n + 1, a, b, l => if b.isEmpty then l else putClean n (a + 8) (b.drop 8) (ldWrite l a ⟨BitVec.ofNat 64 (ofLe (b.take 8)), false⟩)

/-- The records of `INIT_DATA` written (02 R722). -/
def putInit (m : Tab Byte) (l : Landing) : Landing :=
  (initRecords m).foldl (fun l r => putClean (r.2.1 / 8 + 1) r.1 (bytesAt m r.2.2 r.2.1) l) l

/-- A tile's record installed (03 R146, R723): its bundles, `NOP` bundles after them, its local images. -/
def putTile (m : Tab Byte) (l : Landing) (r : TileRec) : Landing :=
  let l := clearRange l (istoreBase r.tile) 0x8000
  let l := putClean (2 * r.bundles + 1) (istoreBase r.tile) (bytesAt m (r.code 0) (16 * r.bundles)) l
  (r.locals m).foldl (fun l i => putClean (i.2.2 / 8 + 1) (tileBase r.tile + i.2.1) (bytesAt m (i.1 + 8) i.2.2) l) l

/-- An image installed: the tiles' registers and local memories are zeros outside its local images (03 R110); the landing holds a manifest that is loaded and not yet running; its initial data are written before the
start (02 R722). Log entry 31 (DEDUCED, unsafe). -/
def install (m : Tab Byte) (l : Landing) : Landing :=
  let l := clearRange { l with tiles := [] } (tileBase 0) 0x200000
  let l := putInit m ((tileRecs m).foldl (putTile m) l)
  { l with fmn := { l.fmn with
    img := m, loaded := true, running := false, halted := false, verifying := false, lastVerify := 0, startAt := none, open_ := [], tickLost := false,
    overrun := [], next := none } }

end Sys2Proof.Machine
end

