-- ==== Sys2Proof/Machine/Arbiter.lean ====
section
/-!
DEFINITION. The cable arbiter (chapter 10): leg reports and verdicts, fail-over and fail-back, Adrift, resynchronisation, service on
the standby, the live manifest change.
-/
namespace Sys2Proof.Machine

/-! ### Leg reports (10 R391, R393, R395) -/

/-- An item put in its place: by core cycle, then by key. -/
def putItem (i : OutItem) : List OutItem → List OutItem
  | [] => [i]
  | q :: t => if i.cycle < q.cycle || (i.cycle = q.cycle && i.key < q.key) then i :: q :: t else q :: putItem i t

/-- Items in the order in which the digest takes them. -/
def sortItems : List OutItem → List OutItem → List OutItem
  | [], acc => acc
  | i :: t, acc => sortItems t (putItem i acc)

/-- The header word of an item (10 R391). -/
def itemHeader (i : OutItem) : Nat :=
  i.key % 1024 + b2n i.poisoned * 1024 + i.words.length % 65536 * 65536 + i.cycle % 2 ^ 19 * 2 ^ 32

/-- The digest of a leg (10 R391): the crossing and the leg, then each item. -/
def legDigest (crossing leg : Nat) (items : List OutItem) : DWord :=
  let first := leBytes 8 (crossing % 2 ^ 32 + leg * 2 ^ 32)
  let rest := (sortItems items []).flatMap (fun i => leBytes 8 (itemHeader i) ++ ofWords i.words)
  BitVec.ofNat 64 (crcRef 0xC96C5795D7870F42 (first ++ rest) 0xFFFFFFFFFFFFFFFF)

/-- The compared-value entries of a manifest (10 R395), as (number, offset). -/
def comparedEntries (m : Tab Byte) : List (Nat × Nat) :=
  match sectionOf m 0x0009 with
  | some c => (List.range (le m c.off 2)).map (fun i => (i, c.off + 16 + 48 * i))
  | none => []

/-- The compared values of a leg of pattern `p` (10 R395). -/
def comparedValues (m : Tab Byte) (p leg : Nat) (items : List OutItem) : List (Nat × Nat) :=
  (comparedEntries m).filterMap (fun e =>
    if le m e.2 1 ≠ p || le m (e.2 + 1) 1 ≠ leg then none
    else match items.find? (fun i => i.key = le m (e.2 + 4) 2) with
      | none => none
      | some i =>
        match i.words[le m (e.2 + 6) 2]? with
        | none => none
        | some w =>
          let f := le m (e.2 + 3) 1
          let v := w.v.toNat
          some (e.1, if f = 2 || f = 4 then v else if bitOf (le m (e.2 + 8) 2) 1 then v / 2 ^ 32 else v % 2 ^ 32))

/-- The first leg, counted over the module's time, in which landing `x` is in step. -/
def State.since (s : State) : Side → Nat
  | .A => s.arb.sinceA
  | .B => s.arb.sinceB

/-- Landing `x` in step from leg `g` on. -/
def setSince (x : Side) (g : Nat) (b : Arbiter) : Arbiter :=
  match x with
  | .A => { b with sinceA := g }
  | .B => { b with sinceB := g }

/-- A landing sends its report for leg `g` (10 R388, R393): in step in that leg, with power, out of reset, not halted before that leg. -/
def reports (s : State) (x : Side) (g : Nat) (halts : Bool) : Bool :=
  s.inStep x && decide (s.since x ≤ g) && s.powered x && (!(s.ld x).fmn.halted || halts) && !(s.ld x).slw.inReset
    && (s.ld x).slw.stage = 11

/-- The manifest of a landing whose HALT lies in a leg that is over stops (00 R28, 10 R398). -/
def haltDue (x : Side) (s : State) : State :=
  if (s.ld x).accused.any (fun e => e.2.2 && decide (e.1 < s.legCount)) then
    s.modLd x (fun l => { l with fmn := { l.fmn with halted := true, running := false } })
  else s

/-- The role changes that are due at the running leg's start take effect (10 R388); a role change resets the count of 10 R406.
Log entry 75 (DEDUCED, unsafe). -/
def applyDue (s : State) : State :=
  let now := s.arb.due.filter (fun d => d.leg ≤ s.legCount)
  if now.isEmpty then s
  else now.foldl (fun s d => s.setRole d.side d.role)
    (s.modArb (fun b => { b with due := b.due.filter (fun d => s.legCount < d.leg), agree := 0, agreedLegs := 0 }))

/-- The report of landing `x` for a leg counted over the module's time. -/
def reportOf (s : State) (x : Side) (g : Nat) : Report :=
  let l := s.ld x
  let leg := g % 8
  let items := l.items.filter (fun i => i.leg = g)
  let last := leg = 7
  let p := if last then l.fmn.lastPattern else l.fmn.pattern
  let acc := l.accused.find? (fun e => e.1 = g)
  { leg := g, digest := legDigest (if last then l.fmn.crossing - 1 else l.fmn.crossing) leg items,
    accuse := acc.isSome, code := acc.elim 0 (fun e => e.2.1), halt := acc.elim false (fun e => e.2.2),
    values := if l.fmn.loaded then comparedValues l.fmn.img p leg items else [] }

/-- A report stored. -/
def setReport (x : Side) (r : Option Report) (s : State) : State :=
  s.modArb (fun b => match x with
    | .A => { b with repA := r }
    | .B => { b with repB := r })

/-- The report of landing `x` for leg `g`, where it has arrived. -/
def State.report (s : State) (x : Side) (g : Nat) : Option Report :=
  (match x with
    | .A => s.arb.repA
    | .B => s.arb.repB).filter (fun r => r.leg = g)

/-- LEG_REPORT (10 R393): a halt stops the landing's manifest at the end of the leg it reports (00 R28, 10 R398); a report that does not
arrive within 3 µs of the boundary does not count (R397). -/
def legReport (x : Side) (s : State) : State :=
  let s := applyDue s
  let g := s.legCount - 1
  if s.legCount = 0 || !s.inWindow || g < s.arb.judged || (s.report x g).isSome then haltDue x s
  else
    let r := reportOf s x g
    let sends := reports s x g r.halt
    let s := (haltDue x s).modLd x (fun l => { l with
      items := l.items.filter (fun i => g < i.leg), accused := l.accused.filter (fun e => g < e.1) })
    if sends then setReport x (some r) s else s

/-- `n` ns into the leg that runs at instant `at_`, or `at_` where that is earlier (10 R393). -/
def windowNs (s : State) (n at_ : Nat) : Nat :=
  let t := advance at_ s
  if t.tick.period = 0 then at_ else min at_ (t.legStart + n)

/-- LEG_REPORT (10 R393): in the first 1.5 µs of the next leg. -/
def execLegReport (at_ : Nat) (x : Side) (s : State) : Host.Outcome State Fault Refusal :=
  .next (legReport x (advance (windowNs s 1500 at_) s))

/-! ### Envelopes (10 R396) -/

/-- A value outside the envelope of entry `e` = (number, offset), with its last agreed value. -/
def outsideEnvelope (m : Tab Byte) (o : Nat) (agreed : Option Nat) (v : Nat) : Bool :=
  let f := le m (o + 3) 1
  if f ≤ 2 then
    let wide := fun (n : Nat) => if f = 1 then F32.widen (BitVec.ofNat 32 n) else (BitVec.ofNat 64 n : F64)
    let at_ := fun (k : Nat) => (BitVec.ofNat 64 (le m (o + k) 8) : F64)
    let x := wide v
    if !F64.le x x then !bitOf (le m (o + 8) 2) 0
    else F64.lt x (at_ 0x10) || F64.lt (at_ 0x18) x
      || (F64.lt 0 (at_ 0x20) && agreed.elim false (fun a => F64.lt (at_ 0x20) (F64.abs (F64.sub x (wide a)))))
  else
    let n := if f = 3 then 32 else 64
    let x := sval n v
    let at_ := fun (k : Nat) => sval 64 (le m (o + k) 8)
    decide (x < at_ 0x10) || decide (at_ 0x18 < x)
      || (at_ 0x20 ≠ 0 && agreed.elim false (fun a => decide (at_ 0x20 < (x - sval n a).natAbs)))

/-- A landing is outside its envelope in a leg (10 R396). Log entry 35 (DEDUCED, unsafe). -/
def outside (s : State) (x : Side) (r : Report) : Bool :=
  let m := (s.ld x).fmn.img
  r.values.any (fun e => (comparedEntries m).any (fun c =>
    c.1 = e.1 && outsideEnvelope m c.2 (Tab.get none s.arb.agreed e.1) e.2))

/-! ### Adrift (10 R402, R405) -/

/-- Adrift entered now: the pulses up to this instant have left (10 R402, R403). -/
def adriftNow (code : Nat) (s : State) : State := enterAdrift code (runAxes .B (runAxes .A s))

/-- A condition that bars the release of Adrift (10 R405, 11 R424, R425). -/
def adriftBar (s : State) : Bool :=
  let l := s.ld s.lead
  s.activeSide.isNone || !s.sup.field || s.bol.adrift
    || l.slv.jobs.any (fun e => e.2.hold.elim false (fun c => c + 8 ≤ l.fmn.crossing))
    || l.axe.axes.any (fun e => e.2.nanOver)
    || ((s.mode = 3 || s.mode = 4) && s.dkh.fusion = 4)

/-! ### Roles after a verdict (10 R387, R397, R400) -/

/-- A role change at the next leg boundary (10 R388). Log entry 75 (DEDUCED, unsafe). -/
def dueRole (x : Side) (r : Role) (s : State) : State :=
  s.modArb (fun b => { b with due := b.due ++ [{ side := x, role := r, leg := s.legCount + 1 }], agree := 0, agreedLegs := 0 })

/-- The manifest change ends without its handover (10 R410). -/
def endChange (st : Status) (s : State) : State :=
  match s.arb.change with
  | none => s
  | some c =>
    let s := s.modArb (fun b => { b with change := none })
    let s := s.modLd c.side (fun l => { l with fmn := { l.fmn with next := none, verifying := false } })
    let s := { s with dkh := { s.dkh with loads := s.dkh.loads.filter (fun e => !(e.1 = c.side.num && e.2.elim false (fun q => q.kind = 3))) } }
    complete c.cmd st [] false (s.setHold 4 none)

/-- The change is abandoned: reported, and its command completed ABANDONED (10 R410). -/
def abandonChange (s : State) : State :=
  match s.arb.change with
  | none => s
  | some c => if c.stage = 3 then s else endChange .abandoned (raise .cable 0x0D22 c.stage s)

/-- The marking of a resynchronisation ends (12 R473). -/
def endMarking (s : State) : State :=
  eachSide (fun _ => true) (fun x s => s.modLd x (fun l => { l with memi := { l.memi with marking := false, marks := [], sent := [] } })) s

/-- A resynchronisation ends without its landing in step (10 R408): one that fails is reported, `CBL_RESYNC.FAILED` shows it (R417). Log entry 74 (DEDUCED, unsafe). -/
def endResync (failed : Bool) (s : State) : State :=
  match s.arb.resync with
  | none => s
  | some r =>
    let n := s.resyncCrossings
    let s := endMarking (s.modArb (fun b => { b with resync := none, resyncFailed := failed, resyncCount := n }))
    let s := if failed then raise .cable 0x0D11 r.side.num s else s
    match r.cmd with
    | some c => complete c .abandoned [] false s
    | none => s

/-- A resynchronisation fails (10 R408 step 2). -/
def failResync (s : State) : State := endResync true s

/-- A resynchronisation is abandoned (10 R408). -/
def abandonResync (s : State) : State := endResync false s

/-- A gap opens (10 R400): every output holds; the held items of both landings are discarded. -/
def openGap (x : Side) (s : State) : State :=
  (runAxes .B (runAxes .A s)).modArb (fun b =>
    { b with gap := some (x, s.legCount + 1), held := [], gapSteps := [], agree := 0, agreedLegs := 0 })

/-- The active landing fails while a manifest change runs, after its confirmation (10 R410): its role ends; the standby takes over when
its warm-up is complete, and until then the module is in Adrift. Log entry 72 (DEDUCED, unsafe). -/
def forceChange (x : Side) (c : Change) (s : State) : State :=
  let s := raise .cable 0x0D23 c.count s
  if c.warm ≤ c.count then openGap x (s.modArb (fun b => { b with change := some { c with forced := true } }))
  else adriftNow 0x0D23 (dueRole x .unsync (s.modArb (fun b => { b with change := some { c with forced := true }, held := [] })))

/-- The active landing `x` has failed while `y` stands by (10 R400, R410). Log entry 72 (DEDUCED, unsafe). -/
def failActive (x : Side) (s : State) : State :=
  match s.arb.change with
  | some c =>
    if c.stage = 1 || c.stage = 2 then forceChange x c s
    else openGap x (abandonChange s)
  | none => openGap x s

/-- The standby `y` has failed (10 R400, R410). -/
def failStandby (y : Side) (s : State) : State := dueRole y .unsync (abandonChange s)

/-- No landing is left (10 R397, R402); a resynchronisation is abandoned (R408). -/
def noLanding (s : State) : State :=
  let s := eachSide s.inStep (fun x s => dueRole x .unsync s) (abandonResync (abandonChange s))
  adriftNow 0x0D09 (raise .cable 0x0D09 0 (s.modArb (fun b => { b with held := [] })))

/-! ### The verdict (10 R397 to R399, R411) -/

/-- The rows of 10 R398, with `silence` for R397. -/
inductive Judged where
  | agree
  | common
  | failed (x : Side) (row : Nat)
  | bothAccuse
  | unresolved
deriving DecidableEq, Repr

/-- The first matching row of 10 R398; `cmp` is false while comparison is suspended (R410), when an accusation alone counts.
Log entry 69 (DEDUCED, unsafe). -/
def judge (same cmp accA accB outA outB : Bool) : Judged :=
  if same || !cmp then
    if accA && accB then .common
    else if accA then .failed .A 2
    else if accB then .failed .B 2
    else .agree
  else if accA && accB then .bothAccuse
  else if accA then .failed .A 4
  else if accB then .failed .B 4
  else if outA ≠ outB then .failed (if outA then .A else .B) 6
  else .unresolved

/-- The row number of a verdict (10 R415). -/
def Judged.row : Judged → Nat
  | .agree => 1
  | .common => 3
  | .failed _ r => r
  | .bothAccuse => 5
  | .unresolved => 7

/-- `CBL_VERDICT` and its companions written for the leg `g` (10 R415, R416). -/
def noteVerdict (g row failed : Nat) (outA outB : Bool) (s : State) : State :=
  let x := s.lead
  let c := (s.ld x).fmn.crossing
  let ra := s.arb.repA.getD {}
  let rb := s.arb.repB.getD {}
  s.modArb (fun b => { b with
    vLeg := g % 8, vRow := row, vXing := if g % 8 = 7 then c - 1 else c, vAccA := ra.accuse, vAccB := rb.accuse, vOutA := outA,
    vOutB := outB, vFailed := failed, digA := ra.digest, digB := rb.digest, codeA := ra.code, codeB := rb.code })

/-- An agreeing leg counted; eight in a crossing make it agree (10 R406). -/
def countAgree (leg : Nat) (b : Arbiter) : Arbiter :=
  let n := if leg = 0 then 1 else b.agreedLegs + 1
  if leg = 7 && n = 8 then { b with agreedLegs := 0, agree := satAdd 0xFFFFFFFF b.agree 1 } else { b with agreedLegs := n }

/-- The last agreed values after a leg whose digests agree (10 R396). -/
def keepAgreed (r : Report) (b : Arbiter) : Arbiter :=
  { b with agreed := r.values.foldl (fun t e => Tab.set none t e.1 (some e.2)) b.agreed }

/-- Both landings stalled in the same slice in leg `g` (07 R298): each reports every common miss. -/
def commonMiss (g : Nat) (s : State) : State :=
  if s.a.slv.stallLeg = some g && s.b.slv.stallLeg = some g then
    (s.a.slv.stalls.filter (fun k => s.b.slv.stalls.contains k)).foldl (fun s k =>
      raise (.landing .B) 0x060A k (raise (.landing .A) 0x060A k s)) s
  else s

/-- The number of a failed landing in `CBL_VERDICT` (10 R415). -/
def failNum (x : Side) : Nat := x.num + 1

/-- The verdict with both landings reporting (10 R398, R411). Log entry 71 (DEDUCED, unsafe). -/
def judgeBoth (x : Side) (g : Nat) (differ : Option Bool) (s : State) : State :=
  let ra := s.arb.repA.getD {}
  let rb := s.arb.repB.getD {}
  let cmp := s.comparing
  let same := ra.digest = rb.digest
  let outA := outside s .A ra
  let outB := outside s .B rb
  let bothBanks := s.bank1 && s.bank2
  let j := if bothBanks && differ = some true then Judged.bothAccuse
    else if bothBanks && differ = some false then Judged.unresolved
    else judge same cmp ra.accuse rb.accuse outA outB
  let s := if bothBanks && differ.isSome then raise .cable 0x0D41 g s else s
  let s := if cmp && !same then
      raise .cable 0x0D01 (g % 8) (s.modArb (fun b => { b with mismatches := satAdd 0xFFFFFFFF b.mismatches 1 }))
    else s
  let s := if cmp && same then s.modArb (keepAgreed ra) else s
  let failed := match j with
    | .failed y _ => failNum y
    | _ => 0
  let s := if j = .agree then s else noteVerdict g j.row failed outA outB s
  match j with
  | .agree => if cmp then s.modArb (countAgree (g % 8)) else s
  | .common =>
    if cmp then raise .cable 0x0D06 ra.code (commonMiss g (s.modArb (fun b => { b with agree := 0, agreedLegs := 0 })))
    else failStandby x.other (raise .cable 0x0D03 (if x = .A then rb.code else ra.code) s)
  | .failed y _ =>
    let code := if y = .A then ra.code else rb.code
    if y = x then failActive x (raise .cable 0x0D02 code s) else failStandby y (raise .cable 0x0D03 code s)
  | .bothAccuse => adriftNow 0x0D05 (raise .cable 0x0D05 ra.code (s.modArb (fun b => { b with agree := 0, agreedLegs := 0 })))
  | .unresolved =>
    let s := if differ.isSome && bothBanks then s else raise .cable 0x0D04 (g % 8) s
    failStandby x.other s

/-- A lone active landing that accuses itself (10 R399). Log entry 69 (DEDUCED, unsafe). -/
def judgeLone (x : Side) (g : Nat) (s : State) : State :=
  match s.report x g with
  | some r => if r.accuse then raisePerSecond .cable 0x0D07 r.code 0 s else s
  | none => s

/-- The banks' verdicts on a leg that needs no comparison differ (10 R411). -/
def noteDiffer (g : Nat) (differ : Option Bool) (s : State) : State :=
  if s.bank1 && s.bank2 && differ.isSome then raise .cable 0x0D41 g s else s

/-- Silence (10 R397): the landings in step that sent no report are failed; then the rules for what is left. Log entry 70 (DEDUCED, unsafe). -/
def judgeSilent (x : Side) (g : Nat) (silentX silentY : Bool) (s : State) : State :=
  let y := x.other
  let mask := (if silentX then failNum x else 0) + (if silentY then failNum y else 0)
  let s := noteVerdict g 0 mask false false s
  let s := if silentX then raise .cable 0x0D08 x.num s else s
  let s := if silentY then raise .cable 0x0D08 y.num s else s
  if silentX && (silentY || s.role y ≠ .standby) then noLanding s
  else if silentX then failActive x s
  else judgeLone x g (failStandby y s)

/-- The items held in the compare window released in hand-over order (10 R394), unless the verdict removed the active landing. -/
def releaseHeld (x : Side) (s : State) : State :=
  s.arb.held.foldl (fun s i => passItem deliver x i s) (s.modArb (fun b => { b with held := [] }))

/-- What a landing that is not in step has handed over is discarded. -/
def dropItems (s : State) : State :=
  eachSide (fun x => !s.inStep x) (fun x s => s.modLd x (fun l => { l with items := [] })) s

/-- A standby is left without an active landing (10 R410); one that is silent leaves no landing (R397). -/
def judgeRest (g : Nat) (s : State) : State :=
  let ys := [Side.A, .B].filter (fun y => s.inStep y && decide (s.since y ≤ g) && (s.report y g).isNone)
  if ys.isEmpty then s
  else noLanding (ys.foldl (fun s y => raise .cable 0x0D08 y.num s) (noteVerdict g 0 ((ys.map failNum).foldl (· + ·) 0) false false s))

/-- The verdict on leg `g`, once; before the first leg there is none. A landing counts from the first leg in which it is in step (10 R387,
R397 to R399, R411). -/
def legVerdict (differ : Option Bool) (s : State) : State :=
  let s := applyDue s
  let g := s.legCount - 1
  if s.legCount = 0 || g < s.arb.judged then s
  else
    let s := s.modArb (fun b => { b with judged := g + 1 })
    match s.activeSide with
    | none => dropItems (setReport .A none (setReport .B none (judgeRest g s)))
    | some x =>
      let y := x.other
      let pair := s.role y = .standby && decide (s.since y ≤ g)
      let silentX := decide (s.since x ≤ g) && (s.report x g).isNone
      let silentY := pair && (s.report y g).isNone
      let s := if silentX || silentY then judgeSilent x g silentX silentY (noteDiffer g differ s)
        else if pair && decide (s.since x ≤ g) then judgeBoth x g differ s
        else judgeLone x g (noteDiffer g differ s)
      dropItems (releaseHeld x (setReport .A none (setReport .B none s)))

/-- LEG_VERDICT (10 R393, R398): no later than 3 µs after the leg's end. Log entry 70 (DEDUCED, unsafe). Log entry 71 (DEDUCED, unsafe). -/
def execLegVerdict (at_ : Nat) (differ : Option Bool) (s : State) : Host.Outcome State Fault Refusal :=
  .next (legVerdict differ (advance (windowNs s 3000 at_) s))

/-! ### Fail-over and fail-back (10 R400, R406, R407) -/

/-- What every change of the active landing does: the networks' and buses' queues start anew (14 R553, 15 R582). -/
def newActive (s : State) : State := ethRoles (canRoles (s.modArb (fun b => { b with agree := 0, agreedLegs := 0 })))

/-- The gap's end (10 R400), at the boundary of leg j + 2: the standby becomes ACTIVE; the steps it generated in the gap go to its next segment
(09 R360). A standby that has left its role in the gap leaves no landing. -/
def takeover (s : State) : State :=
  match s.arb.gap with
  | none => s
  | some (x, leg) =>
    let s := if s.legCount < leg then advance (s.legStart + s.tick.period / 8) s else s
    let s := runAxes .B (runAxes .A s)
    if s.role x.other ≠ .standby then noLanding (s.modArb (fun b => { b with gap := none }))
    else
      let s := (s.setRole x .unsync).setRole x.other .active
      let s := s.modArb (fun b => { b with gap := none, failovers := (b.failovers + 1) % 65536 })
      newActive (takeGapSteps x.other s)

/-- A handover after a live manifest change (10 R410): DONE; the old active landing reloads the same bank. -/
def closeHandover (old : Side) (c : Change) (s : State) : State :=
  let s := s.modArb (fun b => { b with change := some { c with stage := 3, side := old }, agreed := [] })
  let s := { s with dkh := { s.dkh with loads := Tab.set none s.dkh.loads old.num (some { kind := 4, bank := c.bank }) } }
  let s := s.modLd old (fun l => { l with fmn := { l.fmn with verifying := true } })
  complete c.cmd .done [] false (raise .cable 0x0D21 c.bank (s.setHold 4 none))

/-- FAILOVER_TAKEOVER (10 R400); during a change whose warm-up is complete it is also the handover (R410). -/
def failoverTakeover (s : State) : State :=
  match s.arb.gap, s.arb.change with
  | some (x, _), some c => if c.forced && s.role x.other = .standby then closeHandover x c (takeover s) else takeover s
  | _, _ => takeover s

/-- FAILOVER_TAKEOVER (10 R400). -/
def execFailoverTakeover (at_ : Nat) (s : State) : Host.Outcome State Fault Refusal :=
  .next (failoverTakeover (advance at_ s))

/-- A fail-back is due but for a hold (10 R406, R407). Log entry 73 (DEDUCED, unsafe). -/
def failbackDue (s : State) : Bool :=
  s.role s.arb.preferred = .standby && s.activeSide = some s.arb.preferred.other && 4000 ≤ s.arb.agree && !s.windowOpen
    && s.arb.gap.isNone

/-- The return is held off (10 R407). Log entry 73 (DEDUCED, unsafe). -/
def returnIsHeld (s : State) : Bool := s.mode = 5 && s.arb.returnHeld

/-- FAILBACK (10 R406, R407): the roles swap at the next tick with no gap. Log entry 73 (DEDUCED, unsafe). -/
def failback (s : State) : State :=
  let s := applyDue s
  if !failbackDue s || returnIsHeld s then s
  else
    let p := s.arb.preferred
    let s := runAxes .B (runAxes .A s)
    let s := (s.setRole p .active).setRole p.other .standby
    raise .cable 0x0D12 p.num (newActive (s.modArb (fun b => { b with failbacks := (b.failbacks + 1) % 65536 })))

/-- FAILBACK (10 R406). -/
def execFailback (at_ : Nat) (s : State) : Host.Outcome State Fault Refusal :=
  let s := advance at_ s
  .next (failback (advance s.nextTickNs s))

/-! ### Resynchronisation (10 R408) -/

/-- The landing can be resynchronised: the manifest the active landing runs is loaded, it is not halted and not in a memory test. -/
def canResync (s : State) (y : Side) : Bool :=
  let l := s.ld y
  let m := s.ld y.other
  s.activeSide = some y.other && m.fmn.running && l.fmn.loaded && !l.fmn.halted && l.memi.memtest.isNone && !l.slw.inReset
    && s.powered y && le l.fmn.img 0x10 8 = le m.fmn.img 0x10 8 && s.arb.resync.isNone

/-- A resynchronisation starts (10 R408 step 1): blocks sent from now on are marked when written; the joining landing runs no manifest
work. Log entry 74 (DEDUCED, unsafe). -/
def startResync (y : Side) (cmd : Option Pend) (s : State) : State :=
  let x := y.other
  let s := s.modLd x (fun l => { l with memi := { l.memi with marking := true, marks := [], sent := [] } })
  let s := s.modLd y (fun l => { l with fmn := { l.fmn with running := false, startAt := none, open_ := [] } })
  s.modArb (fun b => { b with resync := some { side := y, start := (s.ld x).fmn.crossing, cmd := cmd }, resyncFailed := false,
                              resyncCount := 0 })

/-- The blocks of the carried ranges. -/
def carriedBlocks (m : Tab Byte) : List Nat :=
  (carried m).flatMap (fun r => (List.range (r.2 / 256)).map (fun i => r.1 / 256 + i))

/-- The blocks still due: never sent, or marked since (10 R408 step 2). Log entry 74 (DEDUCED, unsafe). -/
def dueBlocks (l : Landing) : List Nat :=
  (carriedBlocks l.fmn.img).filter (fun b => !l.memi.sent.contains b || l.memi.marks.contains b)

/-- The bytes that a final copy may send in a guard time (10 R408). -/
def finalLimit (code : Nat) : Nat := 80000 * 2 ^ code

/-- Internal stores of the engines, kept in their unit blocks. -/
def internalCell (k : Nat) (c : Host.Cell) : Bool := memKind (c.1 * k) = 5

/-- The register state of the tiles and engines and the engines' stores copied from one landing to another (10 R408). -/
def copyEngines (from_ dst : Landing) : Landing :=
  { dst with
    mem := dst.mem.filter (fun c => c.1 < 0x28400000) ++ from_.mem.filter (fun c => internalCell 1 c) ++ dst.mem.filter (fun c => 2 ^ 32 ≤ c.1)
    syn := dst.syn.filter (fun c => c.1 * 8 < 0x28400000) ++ from_.syn.filter (fun c => internalCell 8 c)
      ++ dst.syn.filter (fun c => 2 ^ 32 ≤ c.1 * 8)
    tiles := from_.tiles, sch := from_.sch, gns := from_.gns, fus := from_.fus, slv := from_.slv, ctl := from_.ctl, axe := from_.axe,
    can := from_.can,
    eth := { from_.eth with links := dst.eth.links, bypass := dst.eth.bypass, ports := dst.eth.ports } }

/-- RESYNC_FINAL_COPY (10 R408 step 2). -/
def resyncFinal (regBytes : Nat) (s : State) : State :=
  match s.arb.resync with
  | none => s
  | some r =>
    let x := r.side.other
    let l := s.ld x
    if r.copied || l.fmn.crossing ≠ r.start + 63 then s
    else
      let bs := dueBlocks l
      let due := 256 * bs.length + regBytes
      let s := s.modArb (fun b => { b with finalKb := (roundDiv (due : Int) 1024).toNat })
      if finalLimit (imgPeriod l.fmn.img) < due then failResync s
      else
        let s := bs.foldl (fun s b => sendBlock x (256 * b) s) s
        let s := s.modLd r.side (copyEngines (s.ld x))
        s.modArb (fun b => { b with resync := some { r with copied := true } })

/-- RESYNC_FINAL_COPY (10 R408): at the start of the guard time. -/
def execResyncFinalCopy (at_ regBytes : Nat) (s : State) : Host.Outcome State Fault Refusal :=
  .next (resyncFinal regBytes (advance (s.cutNs s.lead at_) s))

/-- The Ferryman of a joining landing: at the active landing's place in the same manifest (10 R408 step 3). -/
def joinFerryman (own act : Ferryman) : Ferryman :=
  { own with
    crossing := act.crossing, index := act.index, pattern := act.pattern, lastPattern := act.lastPattern, running := act.running,
    img := act.img, startAt := act.startAt, open_ := [], overrun := act.overrun, seqs := act.seqs, admitted := act.admitted,
    entries := act.entries, beats := act.beats, storeLog := [] }

/-- RESYNC_COMPLETE (10 R408 step 3): at the tick of crossing r + 64, before its work. -/
def resyncDone (s : State) : State :=
  match s.arb.resync with
  | none => s
  | some r =>
    let x := r.side.other
    let act := (s.ld x).fmn
    if !r.copied || act.crossing ≠ r.start + 63 then s
    else
      let s := endMarking (s.modLd r.side (fun l => { l with fmn := joinFerryman l.fmn act, items := [], accused := [], slw := { l.slw with joins := false } }))
      let s := s.setRole r.side .standby
      let s := s.modArb (fun b => { setSince r.side (8 * (s.tick.count + 1)) b with
        resync := none, resyncCount := 64, agree := 0, agreedLegs := 0,
        change := if b.change.elim false (fun c => c.stage = 3 && c.side = r.side) then none else b.change })
      let s := raise .cable 0x0D10 r.side.num s
      match r.cmd with
      | some c => complete c .done [] false s
      | none => s

/-- RESYNC_COMPLETE (10 R408). -/
def execResyncComplete (at_ : Nat) (s : State) : Host.Outcome State Fault Refusal :=
  let s := advance at_ s
  .next (resyncDone (advance s.nextTickNs s))

/-! ### Live manifest change (10 R410) -/

/-- The next ticks of the two landings are one (02 R60). -/
def commonTick (s : State) : Bool :=
  let end_ := fun (g : TickGrid) => g.last + g.period * nsUnit
  s.tick.gridA.period = 0 || s.tick.gridB.period = 0 || end_ s.tick.gridA = end_ s.tick.gridB

/-- MANIFEST_HANDOVER (10 R410 step 2): at the next common tick after W crossings of the new manifest, before its work. -/
def manifestHandover (s : State) : State :=
  let s := applyDue s
  match s.arb.change with
  | none => s
  | some c =>
    if c.stage ≠ 2 || c.count < c.warm || c.count = 0 || s.role c.side ≠ .standby || !commonTick s then s
    else
      let old := c.side.other
      let s := runAxes .B (runAxes .A s)
      let s := (s.setRole c.side .active)
      let s := if s.role old = .active then s.setRole old .unsync else s
      closeHandover old c (newActive (s.modArb (fun b => { b with gap := none, held := [] })))

/-- MANIFEST_HANDOVER (10 R410). -/
def execManifestHandover (at_ : Nat) (s : State) : Host.Outcome State Fault Refusal :=
  let s := advance at_ s
  .next (manifestHandover (advance s.nextTickNs s))

/-- CHANGE_CONFIRM_TIMEOUT (10 R410). -/
def confirmTimeout (s : State) : State :=
  match s.arb.change with
  | some c => if c.stage = 0 && c.deadline ≤ s.nowNs then abandonChange s else s
  | none => s

/-- CHANGE_CONFIRM_TIMEOUT (10 R410). -/
def execChangeConfirmTimeout (at_ : Nat) (s : State) : Host.Outcome State Fault Refusal :=
  .next (confirmTimeout (advance at_ s))

/-- The standby begins to load the named image (10 R410 step 1). -/
def startChange (c : Change) (s : State) : State :=
  let s := s.modArb (fun b => { b with change := some { c with stage := 1 } })
  let s := { s with dkh := { s.dkh with loads := Tab.set none s.dkh.loads c.side.num (some { kind := 3, bank := c.bank }) } }
  s.modLd c.side (fun l => { l with fmn := { l.fmn with verifying := true } })

/-- The landing in the STANDBY role. -/
def State.standbySide (s : State) : Option Side :=
  if s.roleA = .standby then some .A else if s.roleB = .standby then some .B else none

/-! ### Banks (10 R411) -/

/-- BANK_WITHDRAW (10 R411): `CBL_BANK_LOST`, or `CBL_BANK_DISAGREE` for a disagreement on the tick; the other bank goes on. -/
def bankWithdraw (bank : Nat) (s : State) : State :=
  if bank = 1 && s.bank1 then noteSingle (bankOff (raise .cable 0x0D40 1 { s with bank1 := false }))
  else if bank = 2 && s.bank2 then noteSingle (bankOff (raise .cable 0x0D40 2 { s with bank2 := false }))
  else if bank = 0 && s.bank1 && s.bank2 then raise .cable 0x0D41 0xFF s
  else s

/-- BANK_WITHDRAW (10 R411). -/
def execBankWithdraw (at_ bank : Nat) (s : State) : Host.Outcome State Fault Refusal :=
  .next (bankWithdraw bank (advance at_ s))

/-! ### Commands (10 R405, R407 to R410) -/

/-- The landing that a number names. -/
def sideOf (n : Nat) : Side := if n = 1 then .B else .A

/-- The role of the landing that a command names is one of a list. -/
def roleIn (s : State) (n : Nat) (rs : List Role) : Bool := rs.contains (s.role (sideOf n))

/-- A standby that leaves its role ends a change that needs it; a landing that is being resynchronised ends that (10 R408, R410). -/
def leaveService (y : Side) (s : State) : State :=
  let s := if s.arb.change.elim false (fun c => c.stage ≤ 2 && (c.side = y || c.stage = 0)) then abandonChange s else s
  if s.arb.resync.elim false (fun r => r.side = y) then abandonResync s else s

/-- A landing becomes OUT_OF_SERVICE (10 R387, R409). -/
def outOfService (y : Side) (s : State) : State :=
  let s := (leaveService y s).modLd y (fun l => { l with slw := { l.slw with joins := false } })
  let s := (s.setRole y .outOfService).modArb (fun b => { b with agree := 0, agreedLegs := 0 })
  raise .cable 0x0D30 y.num s

/-- CBL_OUT_OF_SERVICE (10 R409). -/
def execCblOutOfService (h : CmdHdr) (side : Nat) (s : State) : Host.Outcome State Fault Refusal :=
  .next (hostCommand h 0x0D01
    (fun s => { level := 2, range := side ≤ 1, state := roleIn s side [.standby, .unsync] })
    (fun s => done (outOfService (sideOf side) s)) s)

/-- CBL_MEMTEST (10 R409, 12 R474). -/
def execCblMemtest (h : CmdHdr) (side : Nat) (s : State) : Host.Outcome State Fault Refusal :=
  .next (hostCommand h 0x0D02
    (fun s => { level := 2, range := side ≤ 1,
                state := roleIn s side [.outOfService] && (s.ld (sideOf side)).memi.memtest.isNone })
    (fun s => { st := .accepted, s := s.modLd (sideOf side) (fun l =>
      { l with memi := { l.memi with memtest := some (cmdOf h 0x0D02) } }) }) s)

/-- A load that begins on a landing. -/
def beginLoad (y : Side) (q : Load) (s : State) : State :=
  let s := { s with dkh := { s.dkh with loads := Tab.set none s.dkh.loads y.num (some q) } }
  s.modLd y (fun l => { l with fmn := { l.fmn with verifying := true } })

/-- The load running on a landing. -/
def State.loadOf (s : State) (y : Side) : Option Load := Tab.get none s.dkh.loads y.num

/-- CBL_RELOAD (10 R409). -/
def execCblReload (h : CmdHdr) (side bank : Nat) (s : State) : Host.Outcome State Fault Refusal :=
  .next (hostCommand h 0x0D03
    (fun s => { level := 2, range := side ≤ 1 && bank ≤ 1,
                state := roleIn s side [.outOfService, .unsync] && (s.loadOf (sideOf side)).isNone
                  && (s.ld (sideOf side)).memi.memtest.isNone })
    (fun s => { st := .accepted, s := beginLoad (sideOf side) { kind := 2, bank := bank, cmd := some (cmdOf h 0x0D03) } s }) s)

/-- CBL_RESYNC (10 R408). -/
def execCblResync (h : CmdHdr) (side : Nat) (s : State) : Host.Outcome State Fault Refusal :=
  .next (hostCommand h 0x0D04
    (fun s => { level := 2, range := side ≤ 1,
                state := roleIn s side [.outOfService, .unsync] && canResync s (sideOf side) })
    (fun s => { st := .accepted, s := startResync (sideOf side) (some (cmdOf h 0x0D04)) s }) s)

/-- CBL_HOLD_RETURN (10 R407). -/
def execCblHoldReturn (h : CmdHdr) (hold : Nat) (s : State) : Host.Outcome State Fault Refusal :=
  .next (hostCommand h 0x0D05
    (fun _ => { level := 1, range := hold ≤ 1, modes := [5] })
    (fun s =>
      let s := s.modArb (fun b => { b with returnHeld := hold = 1 })
      done (if hold = 1 then raise .cable 0x0D13 0 s else s)) s)

/-- CBL_MANIFEST_CHANGE (10 R410): in HOLD it waits 60 s for its confirmation. -/
def execCblManifestChange (h : CmdHdr) (bank warm : Nat) (s : State) : Host.Outcome State Fault Refusal :=
  .next (hostCommand h 0x0D06
    (fun s => { level := 2, range := bank ≤ 1 && 1 ≤ warm && warm ≤ 4000, modes := [1, 2, 3],
                state := s.arb.change.elim true (fun c => c.stage = 3) || !freeTo 4 h.part s,
                free := freeTo 4 h.part s, peer := s.standbySide.isSome })
    (fun s =>
      let c : Change := { cmd := cmdOf h 0x0D06, bank := bank, warm := warm, side := s.standbySide.getD .B,
                          deadline := s.nowNs + 60 * secNs }
      let s := takeHold 4 h.part s
      { st := .accepted, s := if s.mode = 3 then s.modArb (fun b => { b with change := some c }) else startChange c s }) s)

/-- CBL_CONFIRM_CHANGE (10 R410). -/
def execCblConfirmChange (h : CmdHdr) (s : State) : Host.Outcome State Fault Refusal :=
  .next (hostCommand h 0x0D07
    (fun s => { level := 1, modes := [3], state := s.arb.change.elim false (fun c => c.stage = 0) })
    (fun s => done (match s.arb.change with
      | some c => startChange c s
      | none => s)) s)

/-- Adrift ends (10 R405); its cause stays. -/
def releaseAdrift (s : State) : State := (runAxes .B (runAxes .A s)).modArb (fun b => { b with adrift := false })

/-- CBL_ADRIFT_RELEASE (10 R405). -/
def execCblAdriftRelease (h : CmdHdr) (s : State) : Host.Outcome State Fault Refusal :=
  .next (hostCommand h 0x0D08 (fun s => { level := 1, modes := [2, 3, 4, 5], state := !adriftBar s })
    (fun s => done (releaseAdrift s)) s)

end Sys2Proof.Machine
end

