-- ==== Sys2Proof/Machine/Modes.lean ====
section
/-!
DEFINITION. The operating modes (11 R420 to R427): the mode record, a change of mode at a tick, `DKH_SET_MODE`, the reactions to the
published fusion level.
-/
namespace Sys2Proof.Machine

/-- The mode record (11 R422). -/
def modeRecord (new prev cause part flags target : Nat) (north east heading : DWord) : List Byte :=
  leBytes 1 1 ++ leBytes 1 new ++ leBytes 1 prev ++ leBytes 1 cause ++ leBytes 1 part ++ leBytes 1 flags ++ leBytes 2 target
    ++ leBytes 8 north.toNat ++ leBytes 8 east.toNat ++ leBytes 8 heading.toNat

/-- A mode record posted as a class 3 input by the Deckhand core that posts for the module (11 R421, 02 R68). Log entry 79 (DEDUCED, unsafe). -/
def postMode (bytes : List Byte) (s : State) : State := takeRecord (some s.lead) 3 0 s.nowNs bytes s

/-- A mode record posted that changes the mode when it is admitted. -/
def requestMode (r : ModeReq) (s : State) : State :=
  postMode r.bytes { s with dkh := { s.dkh with modeReqs := s.dkh.modeReqs ++ [r] } }

/-- A landing whose Deckhand core reports for the module: in step, or the leading one while none is. -/
def State.tells (s : State) (x : Side) : Bool := s.inStep x || (s.activeSide.isNone && s.lead = x)

/-- The mode changed at this tick (11 R421, R446): `DKH_MODE` on every landing in step; leaving SEA_TRIAL ends the hold of the return
(10 R407) and the Bollard's trial functions follow (13 R508); BERTH ends Adrift (R424). -/
def changeMode (mode cause part : Nat) (s : State) : State :=
  let s := { s with
    mode := mode,
    dkh := { s.dkh with previous := s.mode, cause := cause, part := part, xing := (s.ld s.lead).fmn.crossing } }
  let s := eachSide s.tells (fun x s => raise (.landing x) 0x1301 mode s) s
  let s := if mode = 5 then s else s.modArb (fun b => { b with returnHeld := false })
  let s := bolTrial (mode = 5) s
  if mode = 1 && s.arb.adrift then releaseAdrift s else s

/-- The mode records among the class 3 entries of a list take effect in list order (11 R421, R426); the command of each is completed.
Log entry 79 (DEDUCED, unsafe). Log entry 80 (DESIGN CHOICE, unsafe). -/
def applyModes : List AdmEntry → State → State
  | [], s => s
  | e :: t, s =>
    match if e.cls = 3 then s.dkh.modeReqs.find? (fun r => r.bytes = e.content) else none with
    | none => applyModes t s
    | some r =>
      let s := { s with dkh := { s.dkh with modeReqs := s.dkh.modeReqs.erase r } }
      let s := changeMode r.mode r.cause r.part s
      applyModes t (match r.cmd with
        | some c => complete c .done [] false s
        | none => s)

/-- `FUS_STATUS` of the landing whose word counts. -/
def fusStatus (s : State) : Nat := Tab.get 0 (s.ld s.lead).fus.shown 0

/-- A transition of 11 R423 whose own conditions hold; `flags` are those of the request. -/
def modeAllowed (s : State) (mode flags : Nat) : Bool :=
  let from_ := fun (l : List Nat) => l.contains s.mode
  let run := (s.ld s.lead).fmn.running
  let lev := s.dkh.fusion
  match mode with
  | 1 => from_ [2, 3, 4, 5]
  | 2 => from_ [1, 3, 4] && run && !s.arb.adrift
  | 3 => from_ [2, 4] && bitOf (fusStatus s) 5 && lev ≤ 2 && !bitOf (fusStatus s) 4 && !s.arb.adrift
  | 4 => from_ [3] && lev ≤ 1 && bitOf flags 1 && !s.windowOpen && !s.arb.adrift
  | 5 => from_ [1] && run && !s.windowOpen
  | _ => false

/-- A heading at the host interface, in degrees from 0 up to 360 (00 R20). -/
def headingOk (d : F64) : Bool := F64.le 0 d && F64.lt d (fN 360)

/-- What `DKH_SET_MODE` asks (11 R423, R424): the level of the mode requested, the range of its parameters, the transition's conditions and,
for modes 2 to 5, that nothing bars the release of Adrift. -/
def setModeAsks (mode flags target : Nat) (heading : DWord) (s : State) : Asks :=
  { level := if mode = 5 then 2 else 1,
    range := 1 ≤ mode && mode ≤ 5 && flags ≤ 3 && (!bitOf flags 1 || target ≤ 255) && (!bitOf flags 0 || headingOk heading),
    state := modeAllowed s mode flags && (mode = 1 || !adriftBar s) }

/-- What a passing request posts. -/
def setModeReq (h : CmdHdr) (mode flags target : Nat) (north east heading : DWord) (s : State) : ModeReq :=
  let set := bitOf flags 0
  let rad := normAngle (F64.div (F64.mul heading piF) (fN 180))
  { mode := mode, cause := 0, part := h.part, cmd := some (cmdOf h 0x1301),
    bytes := modeRecord mode s.mode 0 h.part flags (if bitOf flags 1 then target else 0) (if set then north else 0)
      (if set then east else 0) (if set then rad else 0) }

/-- DKH_SET_MODE (11 R423): a request that passes is answered when its record is admitted. -/
def setMode (h : CmdHdr) (mode flags target : Nat) (north east heading : DWord) (s : State) : State :=
  let s := advance h.at_ s
  let c := cmdOf h 0x1301
  match checkCommand h (setModeAsks mode flags target heading s) s with
  | some st => complete c st [] false (if st = .state then logState c s else s)
  | none => let s := accept h s; requestMode (setModeReq h mode flags target north east heading s) s

/-- DKH_SET_MODE (11 R423). -/
def execDkhSetMode (h : CmdHdr) (mode flags target : Nat) (north east heading : DWord) (s : State) :
    Host.Outcome State Fault Refusal :=
  .next (setMode h mode flags target north east heading s)

/-- The reactions at the tick at which `DKH_STATUS.FUSION` first takes a level (11 R425). Log entry 80 (DESIGN CHOICE, unsafe). -/
def fusionReact (level : Nat) (s : State) : State :=
  let all := fun (code : Nat) (s : State) => eachSide s.tells (fun x s => raise (.landing x) code level s) s
  if level = s.dkh.fusion then s
  else
    let s := { s with dkh := { s.dkh with fusion := level } }
    let drop := fun (s : State) =>
      requestMode { mode := 3, cause := 2, bytes := modeRecord 3 s.mode 2 0xFF 0 0 0 0 0 } (all 0x1302 s)
    if level = 2 then (if s.mode = 4 then drop s else s)
    else if level = 3 then
      let s := if s.mode = 4 then drop s else s
      if s.mode = 3 || s.mode = 4 then all 0x1303 s else s
    else if level = 4 && (s.mode = 3 || s.mode = 4) then adriftNow 0x1304 (all 0x1304 s)
    else s

end Sys2Proof.Machine
end

