-- ==== Sys2Proof/Machine/Loads.lean ====
section
/-!
DEFINITION. Loads of a manifest on a landing (02 R95, R96, 10 R409, R410, 11 R428, R438): the command `SLW_LOAD`, and what the end of a
verification does.
-/
namespace Sys2Proof.Machine

/-- The load on landing `y` ended. -/
def dropLoad (y : Side) (s : State) : State :=
  let s := { s with dkh := { s.dkh with loads := Tab.set none s.dkh.loads y.num none } }
  s.modLd y (fun l => { l with fmn := { l.fmn with verifying := false } })

/-- The image that a load of landing `y` has in its flash. -/
def loadImage (s : State) (y : Side) (bank : Nat) : Tab Byte := flashImage (s.ld y) bank

/-- The verdict on a load: none when it is accepted, else its status; a refusal is recorded and raised (02 R95, R96). -/
def loadVerdict (x : Side) (bank received : Nat) (ok : Bool) (s : State) : Option Status × State :=
  if !ok then (some .media, s)
  else
    match verify s (loadImage s x bank) received with
    | some (code, off) => (some (loadStatus code), noteRefusal x code off s)
    | none => (none, notePassed x s)

/-- The boot bank in a landing's slipway record (11 R428, R436). -/
def setBootBank (x : Side) (bank : Nat) (s : State) : State := bkpPut (slipwayAt x + 5) [BitVec.ofNat 8 bank] s

/-- The verified image waits for the next tick, at which it starts (02 R60, R73). -/
def startNext (x : Side) (s : State) : State :=
  s.modLd x (fun l => { l with fmn := { l.fmn with startAt := some (l.fmn.crossing + 1) } })

/-- The status of a code kept in a load. -/
def statusOf (n : Nat) : Status :=
  match n with
  | 3 => .range
  | 6 => .format
  | 8 => .integrity
  | 10 => .media
  | _ => .abandoned

/-- The kind 1 load of landing `y`. -/
def slwLoadOf (s : State) (y : Side) : Option Load := (s.loadOf y).bind (fun q => if q.kind = 1 then some q else none)

/-- `SLW_LOAD` is over on both landings. Log entry 81 (DEDUCED, unsafe). -/
def slwKnown (s : State) : Bool :=
  [Side.A, Side.B].all (fun y => (slwLoadOf s y).elim true (fun q => q.status.isSome))

/-- One landing's part in an accepted `SLW_LOAD` (11 R428): it starts the new manifest, or a standby that refused leaves its role. -/
def closeSlw (y : Side) (s : State) : State :=
  match slwLoadOf s y with
  | none => s
  | some q =>
    let s := dropLoad y s
    if q.status = some 0 then setBootBank y q.bank (startNext y s)
    else if s.role y = .standby then dueRole y .unsync s
    else s

/-- One landing's part in a refused `SLW_LOAD`: it keeps its manifest. -/
def keepSlw (y : Side) (s : State) : State :=
  if (slwLoadOf s y).isNone then s
  else (dropLoad y s).modLd y (fun l => { l with fmn := { l.fmn with next := none } })

/-- `SLW_LOAD` completes by the outcome on the active landing (11 R428); an accepted one ends a resynchronisation, whose manifest
no longer runs. -/
def finishSlw (s : State) : State :=
  let q := s.activeSide.bind (slwLoadOf s)
  let any := (slwLoadOf s .A).orElse (fun _ => slwLoadOf s .B)
  let cmd := any.bind (fun q => q.cmd)
  let answer := fun (st : Status) (s : State) => match cmd with
    | some c => complete c st [] false s
    | none => s
  match q.bind (fun q => q.status) with
  | some 0 => answer .done (closeSlw .B (closeSlw .A (abandonResync s)))
  | some n => answer (statusOf n) (keepSlw .B (keepSlw .A s))
  | none => answer .abandoned (keepSlw .B (keepSlw .A s))

/-- The link rates of two manifests differ (04 R178). -/
def rateChange (old new : Tab Byte) : Bool :=
  (List.range 16).any (fun n => (linkOf { img := old } n).nsub ≠ (linkOf { img := new } n).nsub)

/-- The verification of a load of landing `x` ends (02 R95, R96). -/
def verificationEnd (x : Side) (bank received : Nat) (ok : Bool) (s : State) : State :=
  match s.loadOf x with
  | none => s
  | some q =>
    if q.bank ≠ bank then s
    else
      let img := loadImage s x bank
      let r := loadVerdict x bank received ok s
      let s := r.2
      let hold := fun (s : State) => s.modLd x (fun l => { l with fmn := { l.fmn with next := some img } })
      let now := fun (s : State) =>
        let s := if s.arb.resync.elim false (fun c => c.side = x) then abandonResync s else s
        s.modLd x (install img)
      match q.kind, r.1 with
      | 1, st =>
        let s := if st.isNone then hold s else s
        let q' : Load := { q with status := some (st.elim 0 Status.code) }
        let s := { s with dkh := { s.dkh with loads := Tab.set none s.dkh.loads x.num (some q') } }
        let s := s.modLd x (fun l => { l with fmn := { l.fmn with verifying := false } })
        if slwKnown s then finishSlw s else s
      | 2, st =>
        let s := if st.isNone then now s else s
        let s := dropLoad x s
        match q.cmd with
        | some c => complete c (st.getD .done) [] false s
        | none => s
      | 3, none =>
        if rateChange (s.ld x.other).fmn.img img then endChange .state (dropLoad x s)
        else (startNext x (dropLoad x (hold s))).modArb (fun b => { b with change := b.change.map (fun c => { c with stage := 2, count := 0 }) })
      | 3, some st => endChange st (dropLoad x s)
      | _, none =>
        let s := dropLoad x (now s)
        if canResync s x then startResync x none s else s
      | _, some _ => dropLoad x s

/-- VERIFICATION_COMPLETE (02 R95). -/
def execVerificationComplete (at_ : Nat) (x : Side) (bank received : Nat) (ok : Bool) (s : State) :
    Host.Outcome State Fault Refusal :=
  .next (verificationEnd x bank received ok (advance at_ s))

/-- A landing that `SLW_LOAD` reaches (11 R428): in a role that serves, with power, out of reset. -/
def slwTarget (s : State) (y : Side) : Bool := s.serves y && s.powered y && !(s.ld y).slw.inReset && !(s.ld y).slw.running

/-- SLW_LOAD (11 R428): one load at a time, none beside a manifest change. Log entry 81 (DEDUCED, unsafe). -/
def execSlwLoad (h : CmdHdr) (bank : Nat) (s : State) : Host.Outcome State Fault Refusal :=
  .next (hostCommand h 0x1201
    (fun s => { level := 2, range := bank ≤ 1, modes := [1],
                state := s.activeSide.isSome && (s.loadOf .A).isNone && (s.loadOf .B).isNone && s.arb.change.isNone })
    (fun s =>
      let q : Load := { kind := 1, bank := bank, cmd := some (cmdOf h 0x1201) }
      { st := .accepted, s := eachSide (slwTarget s) (fun y s => beginLoad y q s) s }) s)

end Sys2Proof.Machine
end

