-- ==== Sys2Proof/Machine/Slipway.lean ====
section
/-!
DEFINITION. The slipway (11 R430 to R447): power-good, the stages of a landing, failed starts and quarantine, the assignment of roles,
restarts, and the halts of a Deckhand core.
-/
namespace Sys2Proof.Machine

/-! ### The slipway record (11 R433) -/

/-- A byte of a landing's slipway record. -/
def recByte (s : State) (x : Side) (o : Nat) : Nat := bkpByte s (slipwayAt x + o)

/-- Bytes of a landing's slipway record written. -/
def putRec (x : Side) (o : Nat) (b : List Byte) (s : State) : State := bkpPut (slipwayAt x + o) b s

/-- The record as four words. -/
def recWords (s : State) (x : Side) : List Nat := (List.range 4).map (fun n => le s.rtc.mem (slipwayAt x + 4 * n) 4)

/-- The bits of `m` taken out of `n`. -/
def dropBits (n m : Nat) : Nat := (List.range 8).foldl (fun a i => if bitOf n i && !bitOf m i then a + 2 ^ i else a) 0

/-- The bits of `m` added to `n`. -/
def addBits (n m : Nat) : Nat := (List.range 8).foldl (fun a i => if bitOf n i || bitOf m i then a + 2 ^ i else a) 0

/-- A landing at reset: its flash stays; the links of its ports and the bypass on the substrate have rows of their own.
Log entry 77 (DEDUCED, unsafe). -/
def resetLanding (l : Landing) : Landing := { flash := l.flash, fwErased := l.fwErased, eth := { links := l.eth.links, bypass := l.eth.bypass } }

/-- The slipway block of a landing changed by `f`. -/
def State.modSlw (s : State) (x : Side) (f : Slipway → Slipway) : State := s.modLd x (fun l => { l with slw := f l.slw })

/-- A landing enters S3 (11 R430, R433, R434): its record counts the start and shows stage 3; an interrupted start did not fail. -/
def beginStart (x : Side) (s : State) : State :=
  let w := (s.ld x).slw
  let old := recWords s x
  let f := recByte s x 4
  let starts := (le s.rtc.mem (slipwayAt x + 8) 4 + 1) % 2 ^ 32
  let s := putRec x 8 (leBytes 4 starts) (putRec x 4 [BitVec.ofNat 8 (dropBits f 16)] (putRec x 0 [3] s))
  let w' : Slipway := {
    stage := 3, running := true, failedBefore := min 2 (recByte s x 1), cold := w.cold, fallback := w.fallback, started := w.started,
    times := w.times.filter (fun e => e.1 < 3), record := old, restarted := w.restarted, cmd := w.cmd }
  s.modLd x (fun l => { resetLanding l with slw := w' })

/-- The work of a landing that stops: its load, its memory test, its resynchronisation and the command that restarted it are abandoned
(00 R24, 10 R408, R409, 11 R441). -/
def abandonWork (x : Side) (s : State) : State :=
  let s := if s.arb.resync.elim false (fun r => r.side = x) then abandonResync s else s
  let give := fun (c : Option Pend) (s : State) => match c with
    | some c => complete c .abandoned [] false s
    | none => s
  let s := match s.loadOf x with
    | some q =>
      let s := dropLoad x s
      if q.kind = 1 then (if (slwLoadOf s x.other).isNone then give q.cmd s else if slwKnown s then finishSlw s else s)
      else if q.kind = 3 then abandonChange s
      else give q.cmd s
    | none => s
  let m := (s.ld x).memi.memtest
  let c := (s.ld x).slw.cmd
  give c (give m (s.modLd x (fun l => { l with memi := { l.memi with memtest := none }, slw := { l.slw with cmd := none } })))

/-- A landing quarantined (11 R440): the flag, the role, held in reset. -/
def quarantine (x : Side) (s : State) : State :=
  let cmd := (s.ld x).slw.cmd
  let s := raise (.landing x) 0x1206 x.num (putRec x 4 [BitVec.ofNat 8 (addBits (recByte s x 4) 32)] s)
  let s := s.modLd x (fun l => { resetLanding l with
    events := l.events, slw := { l.slw with inReset := true, running := false, s10 := false, cmd := none } })
  let s := dueRole x .quarantined s
  match cmd with
  | some c => complete c .abandoned [] false s
  | none => s

/-- The path flag of a failing stage (11 R433). Log entry 82 (DEDUCED, unsafe). -/
def pathFlag (stage : Nat) : Nat :=
  match stage with
  | 4 => 1
  | 5 => 2
  | 6 => 4
  | _ => 0

/-- A start failed with `code` in a stage (11 R434, R440): recorded, counted, begun again or quarantined. -/
def failStart (x : Side) (code stage : Nat) (s : State) : State :=
  let n := min 3 (recByte s x 1 + 1)
  let f := addBits (recByte s x 4) (pathFlag stage)
  let s := putRec x 0 ([BitVec.ofNat 8 stage, BitVec.ofNat 8 n] ++ leBytes 2 code ++ [BitVec.ofNat 8 f]) s
  if n = 3 then quarantine x s else beginStart x s

/-! ### Power-good (11 R430, R432, R440) -/

/-- The record of the highest sequence. -/
def lastOf (f : List StoredRec) : Option StoredRec :=
  f.foldl (fun b r => if b.elim true (fun q => q.seq < r.seq) then some r else b) none

/-- The rate-limit table from sector 1, where its CRC holds (17 R669). -/
def limitTable (b : List Byte) : Option (Tab Nat) :=
  if b.length = 4100 && crc32 (b.take 4096) = ofLe (b.drop 4096) then
    some ((List.range 1024).foldl (fun t i =>
      let e := (b.drop (4 * i)).take 4
      let code := ofLe (e.take 2)
      if code = 0 then t else Tab.set 0 t code (ofLe ((e.drop 2).take 1) + 1)) [])
  else none

/-- Where the ring goes on after sector `n` (17 R663): the common end of the copies in use, or the next sector. Log entry 109 (DEDUCED, unsafe). -/
def ringEnd (l : Logbook) (c1 c2 : Bool) (n : Nat) : Nat :=
  let e := fun (f : Tab (List Byte)) => (scanSector n (Tab.get [] f n)).2.getD 65536
  match c1, c2 with
  | true, true => if e l.flash1 = e l.flash2 then e l.flash1 else 65536
  | true, false => e l.flash1
  | false, _ => e l.flash2

/-- The scan of S0 (17 R666, R669): the next sequence is one above the highest found, the ring goes on in its sector, and the rate-limit
table is that of the first copy whose CRC holds, else empty with `LOG_MEDIA`. Log entry 83 (DEDUCED, unsafe).
Log entry 143 (DESIGN CHOICE, unsafe). -/
def scanLog (c1 c2 : Bool) (s : State) : State :=
  let l := s.log
  let seen := logRecs l (c1, c2)
  let top := lastOf seen
  let n := top.elim 2 (·.sector)
  let table := ((if c1 then limitTable (Tab.get [] l.flash1 1) else none).or
    (if c2 then limitTable (Tab.get [] l.flash2 1) else none))
  let s := { s with log := { l with
    copy1 := c1, copy2 := c2, scanning := false, nextSeq := top.elim 0 (fun r => (r.seq + 1) % 2 ^ 48), started := false,
    sector := n, used := ringEnd l c1 c2 n, limits := table.getD [],
    starts := (lastOf (seen.filter (fun r => r.code = 0x1001))).elim 0 (fun r => ofLe ((r.bytes.drop 16).take 4)) } }
  if table.isNone then raise .cable 0x1003 0 s else s

/-- `LOG_START` put ahead of every record of the start (17 R662, R666). Log entry 83 (DEDUCED, unsafe). -/
def logStart (backup : Bool) (s : State) : State :=
  let n := (s.log.starts + 1) % 2 ^ 32
  let pay := leBytes 4 n ++ leBytes 4 (b2n backup + 2 * b2n s.rtc.valid)
  let r := faultRec .cable 0x1001 n (some pay) s
  react .cable 0x1001 n .note { s with log := { s.log with starts := n, buffer := r :: s.log.buffer } }

/-- Stage S2 (11 R432, 17 R650): the backup memory tested; when it is not valid it is cleared and the start takes the cold path. -/
def stageS2 (s : State) : State :=
  let c := s.rtc
  let ok := !c.lost && c.check = (bkpCheck c).check
  let s := logStart ok s
  if ok then { s with rtc := { s.rtc with bkpValid := true } }
  else
    let s := { s with rtc := bkpCheck { s.rtc with mem := [], lost := false, valid := false, bkpValid := true } }
    let s := raise .cable 0x0F01 0 s
    eachSide s.powered (fun x s => (raise (.landing x) 0x1201 0 s).modSlw x (fun w => { w with cold := true })) s

/-- Both records quarantined at S2: both landings try once more (11 R440). -/
def liftQuarantine (s : State) : State :=
  let q := fun x => bitOf (recByte s x 4) 5
  let again := fun (x : Side) (s : State) =>
    putRec x 4 [BitVec.ofNat 8 (addBits (dropBits (recByte s x 4) 32) 15)] (putRec x 1 [2] s)
  if q .A && q .B then again .B (again .A s) else s

/-- A landing after S2: it enters S3, or stays in reset under its quarantine (11 R440). -/
def launchLanding (x : Side) (s : State) : State :=
  if bitOf (recByte s x 4) 5 then
    (s.setRole x .quarantined).modSlw x (fun w => { w with inReset := true })
  else beginStart x s

/-- The supply inputs and domains at power-good (18 R683 to R685); the converters feed every domain. -/
def domainsOn (p : PowerOn) (s : State) : State :=
  { s with
    bank1 := true, bank2 := true,
    sup := { s.sup with aOk := p.goodA, bOk := p.goodB, field := true, landA := true, landB := true, bank1 := true, bank2 := true } }

/-- Stages S0 to S2 of a start that begins at `t` ns (11 R430); module time is 0 at the end of S0 (15 R584). -/
def powerStart (t : Nat) (p : PowerOn) (s : State) : State :=
  let s := { advance (t + 1000 * p.d0) (domainsOn p s) with now := 0, uptime := some 0 }
  let s := scanLog p.copy1 p.copy2 { s with dkh := { s.dkh with s0 := 1000 * p.d0 } }
  let s := advance (1000 * p.d1) s
  let r := bolS1 p.switches s
  let s := r.1
  if !r.2 || 50000 < p.d1 then s
  else
    let s := { s with dkh := { s.dkh with s1 := true },
                      arb := { s.arb with preferred := if bitOf s.bol.ssw 0 then .B else .A } }
    let s := advance (1000 * (p.d1 + p.d2)) s
    let s := eachSide (fun _ => true) (fun x s => s.modSlw x (fun w =>
      { w with times := Tab.set 0 (Tab.set 0 (Tab.set 0 [] 0 p.d0) 1 p.d1) 2 p.d2 })) s
    let s := liftQuarantine (stageS2 s)
    let s := if masterKey s then s else raise .cable 0x0C86 0 s
    let s := { s with aid := { s.aid with next := none } }
    let s := if bitOf (le s.rtc.mem 0x60 4) 0 then startReference true none true s else s
    launchLanding .B (launchLanding .A s)

/-- POWER_GOOD (11 R430): a module that runs, or a S0 that does not end well, changes nothing but the time. Log entry 6 (DEDUCED, safe). -/
def execPowerGood (at_ : Nat) (p : PowerOn) (s : State) : Host.Outcome State Fault Refusal :=
  let s := advance at_ s
  .next (if s.uptime.isSome || !(p.goodA || p.goodB) || !p.s0Ok || 500000 < p.d0 then s else powerStart at_ p s)

/-! ### The stages of a landing (11 R430 to R436) -/

/-- The path that a flag gives is taken: `SLW_ALT_PATH` once in a start (11 R435); `used` marks the flag. Log entry 82 (DEDUCED, unsafe). -/
def takePath (x : Side) (flag : Nat) (mark : Slipway → Slipway) (s : State) : State :=
  if bitOf (recByte s x 4) flag then
    let w := (s.ld x).slw
    let first := !w.slow && !w.remap1 && !w.short && !w.skip
    let s := s.modSlw x mark
    if first then raise (.landing x) 0x1205 flag s else s
  else s

/-- S3 (11 R431): the firmware copy. -/
def stageS3 (x : Side) (r : StartRun) (s : State) : State × Bool :=
  if r.fw = 0 then (s, true)
  else if r.fw = 1 then (raise (.landing x) 0x1307 1 (s.modSlw x (fun w => { w with fw1 := true })), true)
  else (s, false)

/-- S4 (11 R435): training, at reduced speed where its flag says so. -/
def stageS4 (x : Side) (s : State) : State × Bool := (takePath x 0 (fun w => { w with slow := true }) s, true)

/-- Entry `e` of a remap table copy whose bytes are `b` (12 R469). -/
def remapEntryAt (b : List Byte) (e : Nat) : RemapEntry :=
  let n := fun (o k : Nat) => ofLe ((b.drop (16 + 16 * e + o)).take k)
  { line := if n 0 4 = 0xFFFFFFFF then none else some (n 0 4), spare := n 4 1, cause := n 5 1, valid := true, seconds := n 8 4 }

/-- A remap table copy that passes its checks (12 R469, R470): the entries and the generation. -/
def remapCopy (b : List Byte) : Option (List RemapEntry × Nat) :=
  let n := fun (o k : Nat) => ofLe ((b.drop o).take k)
  let k := n 6 2
  let es := (List.range (min k 32)).map (remapEntryAt b)
  let fields := (List.range (min k 32)).all (fun e =>
    let o := 16 + 16 * e
    (n o 4 = 0xFFFFFFFF || (n o 4 % 64 = 0 && n o 4 < 0x08000000)) && n (o + 4) 1 < 32 && 1 ≤ n (o + 5) 1 && n (o + 5) 1 ≤ 5
      && n (o + 6) 2 = 0 && n (o + 12) 4 = 0)
  let rest := ((b.drop (16 + 16 * k)).take (512 - 16 * k)).all (· = 0)
  let lines := es.filterMap (fun e => e.line)
  let spares := es.map (fun e => e.spare)
  if n 0 4 = 0x50414D52 && n 4 2 = 1 && k ≤ 32 && n 0xC 4 = 0 && fields && rest && lines.eraseDups.length = lines.length
      && spares.eraseDups.length = spares.length && n 0x210 4 = crc32 (b.take 0x210) then some (es, n 8 4)
  else none

/-- S5 (12 R470): the remap table loaded from its flash copy. -/
def stageS5 (x : Side) (s : State) : State × Bool :=
  let s := takePath x 1 (fun w => { w with remap1 := true }) s
  let one := (s.ld x).slw.remap1
  let b := flashBytes (s.ld x) (if one then 0x63801000 else 0x63800000) 0x214
  let load := fun (es : List RemapEntry) (g : Nat) (lost : Bool) (s : State) => s.modLd x (fun l =>
    { l with memi := { l.memi with remap := es, generation := g, copy := one, tableLost := lost } })
  if ofLe (b.take 4) = 0xFFFFFFFF then (load [] 0 false s, true)
  else
    match remapCopy b with
    | some (es, g) => (load es g false s, true)
    | none => if one then (raise (.landing x) 0x0908 0 (load [] 0 true s), true) else (s, false)

/-- S6 (12 R458, R459): every memory filled; the lines that fail are remapped, or the stage fails. -/
def stageS6 (x : Side) (r : StartRun) (s : State) : State × Bool :=
  let s := takePath x 2 (fun w => { w with short := true }) s
  let s := s.modLd x fillLanding
  let m := (s.ld x).memi
  let spares := r.badSpares.filter (fun k => !m.remap.any (fun e => e.spare = k && e.line.isNone))
  let m' := spares.foldl (fun m k => { m with candidates := m.candidates ++ [(spareBase k, 5)] })
    (r.badLines.foldl (fun m a => addCandidate m a 3) m)
  let s := s.modLd x (fun l => { l with memi := m' })
  let n := m'.candidates.length - m.candidates.length
  let s := remapAll x m'.candidates.length s
  let mapped := (s.ld x).memi.remap.length - m.remap.length
  if r.otherBad || mapped < n then (raise (.landing x) 0x090A 0 s, false) else (s, true)

/-- A bank's image verified (11 R436, 02 R95). -/
def verifyBank (x : Side) (b : Nat) (s : State) : State × Bool :=
  let img := flashImage (s.ld x) b
  match verify s img (bankLength (s.ld x) b) with
  | none => ((s.modLd x (install img)).modSlw x (fun w => { w with bank := b }), true)
  | some (code, off) => (noteRefusal x code off s, false)

/-- S7 and S8 (11 R436): the boot bank, else the other one; without a manifest the start goes on. -/
def stageS7 (x : Side) (s : State) : State × Bool :=
  let boot := bootBank x s
  let other := 1 - boot
  let empty := fun (b : Nat) => bankEmpty (s.ld x) b
  let note := fun (s : State) => s.modSlw x (fun w => { w with otherBank := true })
  let none_ := fun (s : State) => (raise (.landing x) 0x1207 0 s, true)
  let keep := fun (b : Nat) (s : State) => (setBootBank x b s, true)
  if !empty boot then
    let r := verifyBank x boot s
    if r.2 then (r.1, true)
    else if empty other then none_ (note r.1)
    else
      let q := verifyBank x other (raise (.landing x) 0x1205 0x10 (note r.1))
      if q.2 then keep other q.1 else none_ q.1
  else if !empty other then
    let q := verifyBank x other (note s)
    if q.2 then keep other q.1 else none_ q.1
  else none_ (note s)

/-- S9 (11 R435): the extended known-answer tests, unless skipped. -/
def stageS9 (x : Side) (r : StartRun) (s : State) : State × Bool :=
  let s := takePath x 3 (fun w => { w with skip := true }) s
  if (s.ld x).slw.skip || r.kat then (s, true)
  else (raise (.landing x) 0x1204 0 (s.modSlw x (fun w => { w with newFlags := 8 })), true)

/-- The stages from S3 in order, with their numbers. Log entry 76 (DESIGN CHOICE, unsafe). -/
def landingStages (x : Side) (r : StartRun) : List (Nat × (State → State × Bool)) :=
  [(3, stageS3 x r), (4, stageS4 x), (5, stageS5 x), (6, stageS6 x r), (7, stageS7 x), (8, fun s => (s, true)),
   (9, stageS9 x r), (10, fun s => (s, true))]

/-- A stage entered: shown, and written to the record (11 R433). -/
def enterStage (x : Side) (n : Nat) (s : State) : State :=
  putRec x 0 [BitVec.ofNat 8 n] (s.modSlw x (fun w => { w with stage := n }))

/-- The limit of a stage in µs (11 R430): S4 has its own at reduced speed; S10 has none but the deadline of R437. -/
def stageLimit (slow : Bool) (n : Nat) : Option Nat :=
  match n with
  | 3 => some 200000
  | 4 => some (if slow then 1000000 else 400000)
  | 5 => some 20000
  | 6 => some 100000
  | 7 => some 600000
  | 8 => some 1500000
  | 9 => some 300000
  | _ => none

/-- A stage took longer than its limit. -/
def overLimit (x : Side) (times : List (Nat × Nat)) (n : Nat) (s : State) : Bool :=
  (stageLimit (s.ld x).slw.slow n).elim false (fun k => times.any (fun e => e.1 = n && k < e.2))

/-- The stages run up to the first that fails or overruns its limit (11 R434), which is answered with its code. -/
def runStages (x : Side) (r : StartRun) : List (Nat × (State → State × Bool)) → State → State × Option (Nat × Nat)
  | [], s => (s, none)
  | (n, f) :: t, s =>
    let q := f (enterStage x n s)
    if !q.2 || (r.fail = some n && n ≠ 7 && n ≠ 8) then (q.1, some (n, 0x1202))
    else if overLimit x r.times n q.1 then (q.1, some (n, 0x1203))
    else runStages x r t q.1

/-- Ticks issued since instant `e` in 2^-16 ns (02 R98). -/
def ticksSince (s : State) (e : Nat) : Nat :=
  let p := s.tick.period * nsUnit
  if p = 0 || s.tick.last ≤ e then 0 else min s.tick.count ((s.tick.last - e + p - 1) / p)

/-! ### Roles (11 R437 to R439) -/

/-- The landings hold the same manifest: equal `FMN_MANIFEST_ID`, or none on either (11 R437). -/
def sameManifest (s : State) : Bool :=
  let a := s.a.fmn
  let b := s.b.fmn
  a.loaded = b.loaded && (!a.loaded || le a.img 0x10 8 = le b.img 0x10 8)

/-- S11 ends on a landing (11 R435, R444): the record and the registers of the start. Log entry 78 (DEDUCED, unsafe). -/
def finishStart (x : Side) (s : State) : State :=
  let w := (s.ld x).slw
  let used := b2n w.slow + 2 * b2n w.remap1 + 4 * b2n w.short + 8 * b2n w.skip
  let f := addBits (dropBits (recByte s x 4) used) w.newFlags
  let s := putRec x 4 [BitVec.ofNat 8 f] (putRec x 0 [11, 0] s)
  s.modSlw x (fun w => { w with
    stage := 11, running := false, restarted := false, duration := (s.nowNs + (if w.restarted then 0 else s.dkh.s0) - w.started) / 1000 % 2 ^ 32,
    times := Tab.set 0 w.times 11 ((s.nowNs - w.entered) / 1000) })

/-- An UNSYNCHRONISED landing joins without a command (11 R438): it loads the active landing's boot bank, or resynchronises. -/
def rejoin (y : Side) (s : State) : State :=
  let x := y.other
  if s.activeSide ≠ some x || !(s.ld x).fmn.loaded || (s.loadOf y).isSome then s
  else if !sameManifest s then beginLoad y { kind := 5, bank := bootBank x s } s
  else if canResync s y then startResync y none s
  else s

/-- BERTH reached at the end of S11 (11 R421, R439, 16 R603, R631): the ports serve, P0 holds MASTER while no master key exists.
Log entry 77 (DEDUCED, unsafe). -/
def enterBerth (s : State) : State :=
  let s := changeMode 1 1 0xFF s
  let s := eachSide s.inStep (fun x s => let s := finishStart x s; raise (.landing x) 0x120B (s.ld x).slw.duration s) s
  let s := { s with pur := { s.pur with serving := true } }
  if masterKey s then s else setLevel 0 3 0 { s with pur := { s.pur with bootstrap := true } }

/-- A landing in its role enters S11; with a manifest it waits for the next tick (11 R430, R439). -/
def enterS11 (x : Side) (s : State) : State :=
  let s := (enterStage x 11 s).modSlw x (fun w => { w with entered := s.nowNs })
  if (s.ld x).fmn.loaded then startNext x s else s

/-- A landing that has completed S10 and stands ready for a role. Log entry 78 (DEDUCED, unsafe). -/
def ready (s : State) (x : Side) : Bool := (s.ld x).slw.s10 && s.powered x && !(s.ld x).slw.inReset

/-- Roles assigned with landing `a` ACTIVE (11 R437), at the first leg boundary from now on (10 R388). -/
def assignRoles (a : Side) (alone : Bool) (s : State) : State :=
  let o := a.other
  let b := s.nextLeg
  let s := advance b.1 s
  let s := (s.setRole a .active).modArb (fun r => { r with given := true, judged := b.2, sinceA := b.2, sinceB := b.2 })
  let s := if alone then raise (.landing a) 0x1209 a.num (s.modSlw a (fun w => { w with alone := true })) else s
  let there := ready s o && s.role o = .none
  let same := sameManifest s
  let s := if there && same then s.setRole o .standby else s
  let s := eachSide s.inStep enterS11 s
  let s := if there && !same then
      rejoin o (finishStart o ((raise (.landing o) 0x1208 0 (s.setRole o .unsync)).modSlw o (fun w => { w with entered := s.nowNs, joins := true })))
    else s
  if (s.ld a).fmn.loaded then s else enterBerth s

/-- A landing completes S10 (11 R437, R441): with the active role held it becomes UNSYNCHRONISED and joins; after a deadline that found
none it becomes ACTIVE alone; else it waits for the assignment. -/
def completeS10 (x : Side) (s : State) : State :=
  let cmd := (s.ld x).slw.cmd
  let s := s.modSlw x (fun w => { w with s10 := true, cmd := none, entered := s.nowNs })
  let s := if s.activeSide = some x.other then
      rejoin x (finishStart x ((dueRole x .unsync s).modSlw x (fun w => { w with joins := true })))
    else if s.dkh.deadline && s.activeSide.isNone && !s.pur.serving then assignRoles x true s
    else s
  match cmd with
  | some c => complete c .done [] false s
  | none => s

/-- LANDING_START (11 R430 to R437): every effect at the end of the start. -/
def landingStart (x : Side) (r : StartRun) (s : State) : State :=
  let w := (s.ld x).slw
  if !w.running || w.s10 || !s.powered x then s
  else
    let after := fun (n : Nat) => (r.times.filter (fun e => n < e.1)).foldl (fun a e => a + e.2) 0
    let t3 := s.nowNs - 1000 * after 2
    let s := s.modSlw x (fun w => { w with
      times := r.times.foldl (fun t e => if 3 ≤ e.1 then Tab.set 0 t e.1 e.2 else t) w.times,
      started := if w.restarted then t3 else w.started })
    match runStages x r (landingStages x r) s with
    | (s, some e) => failStart x e.2 e.1 (raise (.landing x) e.2 e.1 s)
    | (s, none) =>
      let c := ticksSince s ((s.nowNs - 1000 * after 3) * nsUnit)
      completeS10 x (s.modLd x (fun l => { l with fmn := { l.fmn with crossing := c } }))

/-- LANDING_START (11 R430). Log entry 76 (DESIGN CHOICE, unsafe). -/
def execLandingStart (at_ : Nat) (x : Side) (r : StartRun) (s : State) : Host.Outcome State Fault Refusal :=
  .next (landingStart x r (advance at_ s))

/-- ROLE_ASSIGNMENT (11 R437): the preferred landing has completed S10 and no role is held. -/
def roleAssignment (s : State) : State :=
  let p := s.arb.preferred
  if s.activeSide.isSome || s.pur.serving || !ready s p then s else assignRoles p false s

/-- ROLE_ASSIGNMENT (11 R437). -/
def execRoleAssignment (at_ : Nat) (s : State) : Host.Outcome State Fault Refusal := .next (roleAssignment (advance at_ s))

/-- ROLE_DEADLINE (11 R437): 2,450 ms after S0 began. -/
def roleDeadline (s : State) : State :=
  if !s.dkh.s1 || s.activeSide.isSome || s.pur.serving || s.nowNs + s.dkh.s0 < 2450000000 then s
  else
    let s := { s with dkh := { s.dkh with deadline := true } }
    let p := s.arb.preferred
    if ready s p then assignRoles p false s
    else if ready s p.other then assignRoles p.other true s
    else s

/-- ROLE_DEADLINE (11 R437). -/
def execRoleDeadline (at_ : Nat) (s : State) : Host.Outcome State Fault Refusal := .next (roleDeadline (advance at_ s))

/-! ### Failures outside the stages' own work (11 R434, R442) -/

/-- A landing is between S3 and S11. -/
def inSlipway (s : State) (x : Side) : Bool := (s.ld x).slw.running

/-- A start cut short; a landing that held a role before S11 ended sends no report and loses it under 10 R397. -/
def failBefore11 (x : Side) (code detail stage : Nat) (s : State) : State :=
  failStart x code stage (raise (.landing x) code detail s)

/-- SLW_STAGE_TIMEOUT (11 R434); an overrun of S7 or S8 is treated as every other stage's. -/
def execSlwStageTimeout (at_ : Nat) (x : Side) (stage : Nat) (s : State) : Host.Outcome State Fault Refusal :=
  let s := advance at_ s
  .next (if inSlipway s x && 3 ≤ stage && stage ≤ 11 then failBefore11 x 0x1203 stage stage s else s)

/-- A Deckhand core halts (11 R434, R442): before S11 the start fails; later the landing halts at the end of the leg (00 R28) and is silent from
then on. Log entry 84 (DEDUCED, unsafe). -/
def deckhandHalt (x : Side) (code : Nat) (s : State) : State :=
  let w := (s.ld x).slw
  if w.running && w.stage < 11 then failBefore11 x code w.stage w.stage s
  else if w.inReset || !s.powered x || !w.s10 then s
  else
    raise (.landing x) code x.num s

/-- DECKHAND_LOCKSTEP_CHECK (11 R442). -/
def execDeckhandLockstepCheck (at_ : Nat) (x : Side) (same : Bool) (s : State) : Host.Outcome State Fault Refusal :=
  let s := advance at_ s
  .next (if same then s else deckhandHalt x 0x1305 s)

/-- DKH_WATCHDOG (11 R442). -/
def execDkhWatchdog (at_ : Nat) (x : Side) (s : State) : Host.Outcome State Fault Refusal :=
  .next (deckhandHalt x 0x1306 (advance at_ s))

/-! ### Restart (11 R441) -/

/-- A landing restarted at S3. -/
def restartLanding (x : Side) (cmd : Pend) (s : State) : State :=
  let s := abandonWork x s
  let s := putRec x 4 [BitVec.ofNat 8 (dropBits (recByte s x 4) 32)] (putRec x 1 [0] s)
  let s := s.modSlw x (fun w => { w with restarted := true, cmd := some cmd, cold := false, fallback := false, started := s.nowNs })
  beginStart x s

/-- SLW_RESTART (11 R441). -/
def execSlwRestart (h : CmdHdr) (side : Nat) (s : State) : Host.Outcome State Fault Refusal :=
  .next (hostCommand h 0x1202
    (fun s => { level := 2, range := side ≤ 1,
                state := roleIn s side [.unsync, .outOfService, .quarantined] && s.activeSide = some (sideOf side).other
                  && s.powered (sideOf side) && !inSlipway s (sideOf side) })
    (fun s => { st := .accepted, s := restartLanding (sideOf side) (cmdOf h 0x1202) s }) s)

end Sys2Proof.Machine
end

