-- ==== Sys2Proof/Machine/Supply.lean ====
section
/-!
DEFINITION. Supplies, pins and temperatures (18 R683 to R711): the supervisor's findings and what they do to the module. Nothing is
found before a stage S0 has ended.
-/
namespace Sys2Proof.Machine

/-- A finding of a module that runs. Log entry 86 (DEDUCED, unsafe). -/
def found (f : State → State) (s : State) : State := if s.uptime.isSome then f s else s

/-- The supply state changed. -/
def State.modSup (s : State) (f : Supply → Supply) : State := { s with sup := f s.sup }

/-- Bit `i` of a mask set or cleared. -/
def putBit (n i : Nat) (b : Bool) : Nat := if bitOf n i = b then n else if b then n + 2 ^ i else n - 2 ^ i

/-- The pulses up to now have left. -/
def settlePins (s : State) : State := runAxes .B (runAxes .A s)

/-! ### Inputs (18 R683) -/

/-- The measured word of a supply input. Log entry 86 (DEDUCED, unsafe). -/
def measured (input : Nat) (v : Word) (u : Supply) : Supply := if input = 0 then { u with va := v } else { u with vb := v }

/-- SUP_V24A_LOW (18 R683). -/
def execSupV24aLow (at_ : Nat) (v : Word) (s : State) : Host.Outcome State Fault Refusal :=
  .next (found (fun s => raise .cable 0x1101 0 (s.modSup (fun u => { measured 0 v u with aOk := false }))) (advance at_ s))

/-- SUP_V24B_LOW (18 R683). -/
def execSupV24bLow (at_ : Nat) (v : Word) (s : State) : Host.Outcome State Fault Refusal :=
  .next (found (fun s => raise .cable 0x1102 1 (s.modSup (fun u => { measured 1 v u with bOk := false }))) (advance at_ s))

/-- SUP_V24_HIGH (18 R683): operation continues. -/
def execSupV24High (at_ input : Nat) (v : Word) (s : State) : Host.Outcome State Fault Refusal :=
  .next (found (fun s => raise .cable 0x1103 input (s.modSup (measured input v))) (advance at_ s))

/-- An input good or not, reversed or not. -/
def inputState (input : Nat) (ok rev : Bool) (u : Supply) : Supply :=
  if input = 0 then { u with aOk := ok, aRev := rev } else { u with bOk := ok, bRev := rev }

/-- SUP_REVERSED (18 R683): the input is blocked. -/
def execSupReversed (at_ input : Nat) (v : Word) (s : State) : Host.Outcome State Fault Refusal :=
  .next (found (fun s => raise .cable 0x1104 input (s.modSup (fun u => inputState input false true (measured input v u))))
    (advance at_ s))

/-- SUP_V24_RESTORED (18 R683). -/
def execSupV24Restored (at_ input : Nat) (v : Word) (s : State) : Host.Outcome State Fault Refusal :=
  .next (found (fun s => raise .cable 0x1105 input (s.modSup (fun u => inputState input true false (measured input v u))))
    (advance at_ s))

/-! ### The field domain and the other domains (18 R684, R685, 01 R55) -/

/-- The drivers of all step outputs. -/
def allSteps : Nat := 2 ^ 32 - 1

/-- The field domain without power: no step pulse leaves, the Bollard stops every function that names an output; Adrift at the next tick
(18 R684, 10 R402). -/
def fieldOff (code : Nat) (s : State) : State :=
  let s := settlePins s
  let s := { s.modSup (fun u => { u with field := false, fieldCause := code }) with pins := { s.pins with off := allSteps, skip := 0 } }
  bolFieldLost s

/-- SUP_FIELD_LOST (18 R684). -/
def execSupFieldLost (at_ : Nat) (s : State) : Host.Outcome State Fault Refusal :=
  .next (found (fun s => if s.sup.field then fieldOff 0x1106 (raise .cable 0x1106 0 s) else s) (advance at_ s))

/-- The field domain back (18 R684): step outputs resume with the segment that starts after it; one switched off for a short
stays off. -/
def fieldOn (s : State) : State :=
  let s := settlePins s
  let short := s.sup.stepShort
  { s.modSup (fun u => { u with field := true }) with pins := { s.pins with off := short, skip := allSteps - short } }

/-- SUP_FIELD_RESTORED (18 R684). -/
def execSupFieldRestored (at_ : Nat) (s : State) : Host.Outcome State Fault Refusal :=
  .next (found (fun s => if s.sup.field then s else raise .cable 0x1107 0 (fieldOn s)) (advance at_ s))

/-- A landing that stops at once (01 R55, 18 R702): it issues nothing and sends no report. Log entry 85 (DEDUCED, unsafe). -/
def stopLanding (x : Side) (s : State) : State :=
  let s := abandonWork x (settlePins s)
  s.modLd x (fun l => { l with
    items := [], fmn := { l.fmn with running := false, startAt := none, next := none, open_ := [] },
    slw := { l.slw with running := false } })

/-- A domain without power (01 R55). Log entry 85 (DEDUCED, unsafe). -/
def domainOff (domain : Nat) (s : State) : State :=
  match domain with
  | 0 => if s.sup.landA then (stopLanding .A s).modSup (fun u => { u with landA := false }) else s
  | 1 => if s.sup.landB then (stopLanding .B s).modSup (fun u => { u with landB := false }) else s
  | 2 => bankWithdraw 1 (s.modSup (fun u => { u with bank1 := false }))
  | 3 => bankWithdraw 2 (s.modSup (fun u => { u with bank2 := false }))
  | _ => if s.sup.field then fieldOff 0x1108 s else s

/-- A domain has power (18 R705). -/
def domainOn (s : State) (domain : Nat) : Bool :=
  match domain with
  | 0 => s.sup.landA
  | 1 => s.sup.landB
  | 2 => s.sup.bank1
  | 3 => s.sup.bank2
  | 4 => s.sup.field
  | _ => false

/-- SUP_DOMAIN_LOST (18 R685). -/
def execSupDomainLost (at_ domain : Nat) (s : State) : Host.Outcome State Fault Refusal :=
  .next (found (fun s => if domainOn s domain then domainOff domain (raise .cable 0x1108 domain s) else s) (advance at_ s))

/-- The module stopped (01 R55, 18 R684): what lasts is flash, the one-time-programmable keys, the logbook's copies, the Bollard's
parameter slots and the backup domain. -/
def stopped (s : State) : State :=
  { State.reset with
    now := s.now, free := s.free, pending := s.pending,
    a := { flash := s.a.flash, fwErased := s.a.fwErased }, b := { flash := s.b.flash, fwErased := s.b.fwErased }, bol := { slots := s.bol.slots },
    log := { flash1 := s.log.flash1, flash2 := s.log.flash2 },
    pur := { slots := s.pur.slots },
    rtc := { s.rtc with snaps := [], staged := [], was := none, vbat := 0, lowCount := 0, vbatLow := false, wakeBit := false, bkpValid := false } }

/-- MODULE_STOP (18 R684): the higher input falls through 14.0 V. -/
def execModuleStop (at_ : Nat) (s : State) : Host.Outcome State Fault Refusal :=
  let s := advance at_ s
  .next (stopped (settlePins s))

/-! ### Step outputs (18 R694) -/

/-- The descriptor of output `n`'s axis in the manifest of the landing whose steps reach the pins: none while the output is unused and
at high impedance. Log entry 145 (DEDUCED, unsafe). -/
def stepDesc (s : State) (n : Nat) : Option (Tab Byte × Nat) :=
  (s.activeSide.orElse (fun _ => [Side.A, Side.B].find? (fun x => (s.ld x).fmn.running))).bind (fun x =>
    let m := (s.ld x).fmn.img
    ((axeDesc m n).filter (aStep m)).map (fun o => (m, o)))

/-- The level of direction pin `n` (09 R358): high for positive steps, inverted by the axis flag; none while the pair is not driven. -/
def dirPin (s : State) (n : Nat) : Option Bool :=
  if bitOf s.pins.off n then none
  else (stepDesc s n).map (fun d => Tab.get false s.pins.neg n == aFlag d.1 d.2 4)

/-- The level of step pin `n` (09 R359, 18 R694): high for `w` timebase cycles from a carry or borrow, 80 ns later at the pin; none
while the pair is not driven. Log entry 145 (DEDUCED, unsafe). -/
def stepPin (s : State) (n : Nat) : Option Bool :=
  if bitOf s.pins.off n then none
  else (stepDesc s n).map (fun d =>
    let t := Tab.get 0 s.pins.last n
    t ≠ 0 && t + 80 ≤ s.nowNs && s.nowNs < t + 80 + 10 * le d.1 (d.2 + 0x94) 1)

/-- Output `n` is checked: its driver has power and an axis uses it (18 R694). -/
def stepChecked (s : State) (n : Nat) : Bool := n < 32 && s.sup.field && (stepDesc s n).isSome

/-- SUP_STEP_SHORT (18 R694): the driver pair is switched off. -/
def execSupStepShort (at_ n : Nat) (s : State) : Host.Outcome State Fault Refusal :=
  .next (found (fun s =>
    if stepChecked s n then
      let s := settlePins s
      let s := { s.modSup (fun u => { u with stepShort := putBit u.stepShort n true }) with
                 pins := { s.pins with off := putBit s.pins.off n true } }
      raise .cable 0x1109 n s
    else s) (advance at_ s))

/-- STEP_DRIVER_RETRY (18 R694): the pair stays on when the trial draws normal current. Log entry 87 (DESIGN CHOICE, unsafe). -/
def execStepDriverRetry (at_ n : Nat) (ok : Bool) (s : State) : Host.Outcome State Fault Refusal :=
  .next (found (fun s =>
    if ok && s.sup.field && bitOf s.sup.stepShort n then
      let s := settlePins s
      { s.modSup (fun u => { u with stepShort := putBit u.stepShort n false }) with
        pins := { s.pins with off := putBit s.pins.off n false, skip := putBit s.pins.skip n false } }
    else s) (advance at_ s))

/-- SUP_STEP_OPEN (18 R694). -/
def execSupStepOpen (at_ n now : Nat) (s : State) : Host.Outcome State Fault Refusal :=
  .next (found (fun s =>
    if stepChecked s n && !bitOf s.pins.off n then raise .cable 0x110A n (s.modSup (fun u => { u with stepOpen := putBit (now % 2 ^ 32) n true })) else s)
    (advance at_ s))

/-! ### Inputs and outputs at the pins (18 R690, R691, R695, R701) -/

/-- SUP_AXIN_RANGE (18 R690). -/
def execSupAxinRange (at_ i : Nat) (s : State) : Host.Outcome State Fault Refusal :=
  .next (found (fun s =>
    if i < 64 then raisePerSecond .cable 0x110B i i (s.modSup (fun u => { u with axin := putBit u.axin i true })) else s)
    (advance at_ s))

/-- AXIN_RANGE_RESTORED (18 R690). -/
def execAxinRangeRestored (at_ i : Nat) (s : State) : Host.Outcome State Fault Refusal :=
  .next (found (fun s => s.modSup (fun u => { u with axin := putBit u.axin i false })) (advance at_ s))

/-- SUP_ENC_RANGE (18 R691). -/
def execSupEncRange (at_ line : Nat) (s : State) : Host.Outcome State Fault Refusal :=
  .next (found (fun s =>
    if line < 16 then raise .cable 0x110C line (s.modSup (fun u => { u with enc := putBit u.enc line true })) else s)
    (advance at_ s))

/-- ENCODER_LINE_RESTORED (18 R691). -/
def execEncoderLineRestored (at_ line : Nat) (s : State) : Host.Outcome State Fault Refusal :=
  .next (found (fun s => s.modSup (fun u => { u with enc := putBit u.enc line false })) (advance at_ s))

/-- SUP_CAN_BUS (18 R695): the controllers go on, and the port is not isolated. -/
def execSupCanBus (at_ p now : Nat) (s : State) : Host.Outcome State Fault Refusal :=
  .next (found (fun s =>
    if p < 8 then raisePerSecond .cable 0x110D p p (s.modSup (fun u => { u with can := putBit (now % 256) p true })) else s)
    (advance at_ s))

/-- SUP_TP_FAULT (18 R701). -/
def execSupTpFault (at_ n now : Nat) (s : State) : Host.Outcome State Fault Refusal :=
  .next (found (fun s =>
    if n < 2 then raise .cable 0x110E n (s.modSup (fun u => { u with tp0 := n = 0 || bitOf now 0, tp1 := n = 1 || bitOf now 1 }))
    else s) (advance at_ s))

/-- TP_IN_EDGE (18 R701, R710). -/
def execTpInEdge (at_ time : Nat) (s : State) : Host.Outcome State Fault Refusal :=
  .next (found (fun s => s.modSup (fun u => { u with tpIn := some time })) (advance at_ s))

/-! ### Temperatures (18 R702) -/

/-- The signed value of a temperature byte in °C. -/
def celsius (b : Byte) : Int := sval 8 b.toNat

/-- A landing above 120 °C is held in reset until `SLW_RESTART`. -/
def tempLimit (x : Side) (t : Int) (s : State) : State :=
  if 120 < t && s.powered x && !(s.ld x).slw.inReset then
    (stopLanding x (raise .cable 0x1110 x.num s)).modSlw x (fun w => { w with inReset := true })
  else s

/-- A landing hot above 105 °C and until it is below 100 °C. -/
def tempHigh (x : Side) (t : Int) (was : Bool) (s : State) : State :=
  let now := 105 < t || (was && 100 ≤ t)
  let s := s.modSup (fun u => match x with
    | .A => { u with hotA := now }
    | .B => { u with hotB := now })
  if now && !was then raise .cable 0x110F x.num s else s

/-- One second's readings (18 R702, R707, R708). -/
def readTemps (a b c base : Byte) (va vb : Word) (s : State) : State :=
  let s := s.modSup (fun u => { u with tempA := a, tempB := b, tempC := c, tempBase := base, va := va, vb := vb })
  let s := tempHigh .B (celsius b) s.sup.hotB (tempHigh .A (celsius a) s.sup.hotA s)
  let s := tempLimit .B (celsius b) (tempLimit .A (celsius a) s)
  if 125 < celsius c then stopped (settlePins (raise .cable 0x1110 2 s)) else s

/-- TEMPERATURE_READ (18 R702). -/
def execTemperatureRead (at_ : Nat) (a b c base : Byte) (va vb : Word) (s : State) : Host.Outcome State Fault Refusal :=
  .next (found (readTemps a b c base va vb) (advance at_ s))

end Sys2Proof.Machine
end

