-- ==== Sys2Proof/Machine/Tick.lean ====
section
/-!
DEFINITION. The crossing tick and the cut-off (02 R57, R60, R65 to R73, 11 R426): what every unit does at them, in order.
-/
namespace Sys2Proof.Machine

/-! ### The cut-off (02 R63, R65) -/

/-- The axis snapshot: the inputs, those out of range reading 0 (18 R690). -/
def axisSnapshot (s : State) (inputs : Nat) : List Byte :=
  leBytes 8 ((List.range 64).foldl (fun n i => if bitOf inputs i && !bitOf s.sup.axin i then n + 2 ^ i else n) 0)

/-- The list of a cut-off that comes at module time `cut` ns. -/
def cutoffAt (dst : TickTo) (cut inputs : Nat) (s : State) : State :=
  let s := advance cut s
  if s.uptime.isNone then s else cutoff dst cut (axisSnapshot s inputs) (bollardCopy s) s

/-- Both landings run manifests, of different periods (02 R60). -/
def periodsDiffer (s : State) : Bool :=
  s.a.fmn.running && s.b.fmn.running && imgPeriod s.a.fmn.img ≠ imgPeriod s.b.fmn.img

/-- The landings a tick or a cut-off is for: both while their periods are the same or their instants, which `due` gives, are one; else
the landing named, or the one whose instant comes first (02 R60, R61). -/
def reached (dst : TickTo) (due : Side → Nat) (s : State) : TickTo :=
  if !periodsDiffer s || due .A = due .B then .both
  else match dst with
    | .one x => .one x
    | .both => if due .A < due .B then .one .A else .one .B

/-- ADMISSION_CUTOFF (02 R59, R61, R65): at 95 % of the crossing of the landing that the list is for. -/
def execAdmissionCutoff (at_ : Nat) (dst : TickTo) (inputs : Nat) (s : State) : Host.Outcome State Fault Refusal :=
  let d := reached dst (fun x => s.cutNs x at_) s
  .next (cutoffAt d (s.cutNs (listSide s d) at_) inputs s)

/-! ### The start of a manifest (02 R73, R722) -/

/-- The units of a landing at the start tick of its manifest. -/
def startUnits (t : Nat) (l : Landing) : Landing :=
  startEth (startCan t (startAxe t (startCtl (startSlv (startFus (startGns t (startSch (holdBerths l))))))))

/-- The verified image of a running landing installed at its start tick (02 R722); one from the slipway is installed already.
Log entry 31 (DEDUCED, unsafe). -/
def installNext (l : Landing) : Landing :=
  match l.fmn.next with
  | some img =>
    let at_ := l.fmn.startAt
    let l := install img l
    { l with fmn := { l.fmn with startAt := at_ } }
  | none => l

/-- The Ferryman of a landing at a tick, with a start where one is named for it. Log entry 28 (DEDUCED, unsafe). -/
def enterCrossing (t : Nat) (l : Landing) : Landing :=
  let start := startsNow l.fmn
  let l := if start then installNext l else l
  let l := { l with fmn := stepFerryman l.fmn }
  if start then startUnits t l else l

/-- A landing's manifest starts at this tick: its crossing is the first. -/
def startedNow (s : State) (x : Side) : Bool :=
  let l := s.ld x
  l.fmn.running && l.sch.start = l.fmn.crossing && l.fmn.index = 0

/-- What the cable die and the Deckhand core do at the start of the leading landing's manifest: time bases (15 R590), port records
(14 R556), the aiding to be posted (05 R213), no value agreed yet (10 R396). Log entry 88 (DEDUCED, unsafe). -/
def startModule (s : State) : State :=
  let s := startTbs (startCanRec s)
  { s with aid := { s.aid with next := some 0, time := rtcGps s }, arb := { s.arb with agreed := [] } }

/-- BERTH reached at the manifest start tick; its record is admitted in the crossing after it (11 R421, R439). -/
def berthStart (s : State) : State :=
  if s.mode = 0 then postMode (modeRecord 1 0 1 0xFF 0 0 0 0 0) (enterBerth s) else s

/-- The start of the active landing's manifest: every direction pin at its level for positive steps (09 R358); the other landing joins if
it waits to (11 R438). -/
def afterStart (x : Side) (s : State) : State :=
  let s := berthStart (startModule { s with pins := { s.pins with neg := [] } })
  let y := x.other
  if (s.ld y).slw.joins && s.role y = .unsync && ready s y then rejoin y s else s

/-- A manifest change at a tick of the standby's new manifest (10 R410): its crossings are counted from the start tick. -/
def changeTick (x : Side) (s : State) : State :=
  match s.arb.change with
  | some c =>
    if c.stage = 2 && c.side = x && (s.ld x).fmn.running && (startedNow s x || 0 < c.count) then
      let s := s.modArb (fun b => { b with change := some { c with count := c.count + 1 } })
      if c.count = 0 then raise .cable 0x0D20 c.bank s else s
    else s
  | none => s

/-! ### The command path (16 R618, R634) -/

/-- The opcodes of the command catalogue, as (first, last) (16 R634). -/
def opcodeRanges : List (Nat × Nat) :=
  [(0x0301, 0x0304), (0x0401, 0x0404), (0x0501, 0x0506), (0x0701, 0x0702), (0x0801, 0x0807), (0x0A01, 0x0A04), (0x0B01, 0x0B02),
   (0x0C01, 0x0C07), (0x0C80, 0x0C85), (0x0D01, 0x0D08), (0x0E01, 0x0E02), (0x0F01, 0x0F03), (0x1001, 0x1003), (0x1201, 0x1202),
   (0x1301, 0x1304)]

/-- An opcode of the catalogue. Log entry 105 (DEDUCED, unsafe). -/
def opcodeKnown (op : Nat) : Bool := opcodeRanges.any (fun r => r.1 ≤ op && op ≤ r.2)

/-- The pending fields of an admitted purser command (16 R614). -/
def descPend (e : AdmEntry) : Pend :=
  let n := fun (o k : Nat) => ofLe ((e.content.drop o).take k)
  { part := e.port, queue := n 1 1 % 4, seq := BitVec.ofNat 32 (n 4 4), op := n 2 2 }

/-- The commands of this tick whose opcode no table defines are answered UNKNOWN (00 R23, 16 R634). Log entry 105 (DEDUCED, unsafe). -/
def answerUnknown (x : Side) (s : State) : State :=
  let l := s.ld x
  let cs := (l.fmn.admitted.filter (fun e => e.cls = 4)).map descPend ++ l.eth.accepted.map CmdCopy.pend
  (cs.filter (fun c => !opcodeKnown c.op)).foldl (fun s c => complete c .unknown [] false s) s

/-- The levels granted take effect at the tick after their verification; P0's bootstrap level ends (16 R626, R631). -/
def applyLevels (s : State) : State :=
  (List.range 8).foldl (fun s p =>
    match (s.part p).nextLevel with
    | none => s
    | some n =>
      let s := if p = 0 && masterKey s then { s with pur := { s.pur with bootstrap := false } } else s
      setLevel p n (s.part p).nextSlot s) s

/-! ### The tick -/

/-- The landings that a tick reaches: those that have completed S10 with power, out of reset, without a lost tick (02 R89, 11 R430). -/
def tickSides (dst : TickTo) (s : State) : List Side := (listSides dst).filter (fun x => ready s x && !(s.ld x).fmn.tickLost)

/-- The crossing period of the leading landing's manifest, of the tick before where it runs none, or of the first tick (02 R57).
Log entry 29 (DESIGN CHOICE, safe). Log entry 30 (DEDUCED, unsafe). -/
def tickPeriod (s : State) : Nat :=
  let f := (s.ld s.lead).fmn
  if f.running then periodNs (imgPeriod f.img) else if s.tick.period ≠ 0 then s.tick.period else periodNs Config.startPeriod.val

/-- The crossing period of landing `x`: its running manifest's, or the leading landing's (02 R60). -/
def ownPeriod (s : State) (x : Side) : Nat :=
  let f := (s.ld x).fmn
  if f.running then periodNs (imgPeriod f.img) else tickPeriod s

/-- The instant of the next tick on landing `x`'s grid, in 2^-16 ns: one period after its last (02 R57); the first comes when it is
commanded. -/
def nextTick (s : State) (x : Side) (at_ : Nat) : Nat :=
  let g := s.grid x
  if g.period = 0 then max s.now (at_ * nsUnit) else g.last + g.period * nsUnit

/-- A tick at instant `t` counted and noted on the grids of the landings it is for; the tick of a standby with a period of its own does not
move the legs (02 R57, R60). -/
def stepTick (dst : TickTo) (t : Nat) (s : State) : State :=
  let on := fun (x : Side) (g : TickGrid) => if (listSides dst).contains x then { g with last := t } else g
  let k := { s.tick with gridA := on .A s.tick.gridA, gridB := on .B s.tick.gridB }
  { s with tick := if (listSides dst).contains s.lead then { k with last := t, count := k.count + 1 } else k }

/-- The periods after a tick: of the manifests that now run (02 R57, R60). -/
def setPeriods (dst : TickTo) (s : State) : State :=
  let on := fun (x : Side) (g : TickGrid) => if (listSides dst).contains x then { g with period := ownPeriod s x } else g
  { s with tick := { s.tick with period := tickPeriod s, gridA := on .A s.tick.gridA, gridB := on .B s.tick.gridB } }

/-- The Bollard's condition and a loss of the field domain make Adrift at a tick (10 R402, 13, 18 R684). -/
def adriftCauses (s : State) : State :=
  let s := if s.bol.adrift then adriftNow s.bol.cause s else s
  if s.sup.fieldCause = 0 then s
  else (adriftNow s.sup.fieldCause s).modSup (fun u => { u with fieldCause := 0 })

/-- The leading landing's part of a tick (11 R426): mode records in list order, levels, unknown opcodes, the start of its manifest, the
published fusion level, Adrift for causes that last into the mode that results. Log entry 30 (DEDUCED, unsafe). -/
def leadTick (s : State) : State :=
  let x := s.lead
  let was := s.mode
  let s := applyModes (s.ld x).fmn.admitted s
  let s := answerUnknown x (applyLevels s)
  let s := if startedNow s x && s.role x = .active then afterStart x s else s
  let level := if (s.ld x).fmn.running then (s.ld x).fus.level else 4
  let seen := s.dkh.fusion
  let s := fusionReact level s
  let s := if seen = 4 && level = 4 && (s.mode = 3 || s.mode = 4) && was ≠ s.mode then
      adriftNow 0x1304 (eachSide s.tells (fun x s => raise (.landing x) 0x1304 4 s) s)
    else s
  adriftCauses s

/-- The berths, the solver, the pass's settings and the axes of a landing at a tick. -/
def unitTick (x : Side) (s : State) : State :=
  if (s.ld x).fmn.running then
    let s := settlePins s
    let c := (s.ld x).fmn.crossing
    let own := slvOwn s x c
    let s := slvTick x c (s.modLd x (swapBerths own))
    axesTick x (magSecond x (s.modLd x armHalves))
  else s

/-- The registers that change at the tick only. -/
def showUnits (x : Side) (s : State) : State :=
  showEth (showCan (showAxe (showCtl (showSlv (showFus (showGns (showSch s x) x) x) x) x) x) x) x

/-- The code of a crossing period in ns: 3 for no tick (01 R46). -/
def periodCode (ns : Nat) : Nat := ((List.range 3).find? (fun c => periodNs c = ns)).getD 3

/-- The fields of `DKH_STATUS` that landing `x` takes at a tick of its own (01 R46, R48). -/
def showDkh (x : Side) (s : State) : State :=
  let p := (s.grid x).period
  s.modLd x (fun l => { l with shownTrim := if l.fmn.loaded then imgTrim l.fmn.img else 3, shownPeriod := periodCode p })

/-- The scrubber's lines of the crossing (12 R471), from the end of S11. -/
def scrubTick (l : Landing) : Landing :=
  if l.slw.stage = 11 && !l.slw.running then { l with memi := { l.memi with scrubCarry := l.memi.scrubCarry + l.memi.rate } } else l

/-- CROSSING_TICK (02 R71) at instant `t` on the landings of `dst`. -/
def crossingTick (dst : TickTo) (t : Nat) (marks : List SampleMark) (s : State) : State :=
  let s := advance (t / nsUnit) s
  if s.uptime.isNone then s
  else
    let s := (tickSides dst s).foldl (fun s x => finishTiles x s) s
    let s := applyDue { stepTick dst t s with shared := [] }
    let s := haltDue .B (haltDue .A s)
    let xs := tickSides dst s
    let s := xs.foldl (fun s x => s.modLd x (enterCrossing (t / nsUnit))) s
    let s := setPeriods dst s
    let s := xs.foldl (fun s x => marks.foldl (fun s k => takeMark x (startedNow s x) k s) s) s
    let s := xs.foldl (fun s x => admitList x x.num s) s
    let s := xs.foldl (fun s x => changeTick x s) s
    let s := if xs.contains s.lead then leadTick s else s
    let s := xs.foldl (fun s x => unitTick x s) s
    let s := xs.foldl (fun s x => (showUnits x s).modLd x scrubTick) s
    let s := ((listSides dst).filter s.powered).foldl (fun s x => showDkh x s) s
    let s := if (listSides dst).contains s.lead then showPur s else s
    drainOutbox s

/-- CROSSING_TICK (02 R57, R60, R71): exactly one period after the tick before it. Log entry 3 (DESIGN CHOICE, unsafe). -/
def execCrossingTick (at_ : Nat) (dst : TickTo) (marks : List SampleMark) (s : State) : Host.Outcome State Fault Refusal :=
  let d := reached dst (fun x => nextTick s x at_) s
  .next (crossingTick d (nextTick s (listSide s d) at_) marks s)

/-! ### An empty queue -/

/-- What a step does while no command waits: one cycle of the 100 MHz timebase passes (02 R57). Log entry 2 (DESIGN CHOICE, unsafe). -/
def idle (s : State) : State := advance (s.nowNs + 10) s

/-- A command put at the front of the queue. -/
def State.push (c : Instr) (s : State) : State := { s with pending := c :: s.pending }

end Sys2Proof.Machine
end

