-- ==== Sys2Proof/Machine/Dispatch.lean ====
section
/-!
DEFINITION. The meaning of each command: one arm for each constructor.
-/
namespace Sys2Proof.Machine

def exec (i : Instr) (s : State) : Host.Outcome State Fault Refusal :=
  match i with
  | .registerWrite at_ r q v again => Sys2Proof.Machine.execRegisterWrite at_ r q v again s
  | .rcRead at_ r q again => Sys2Proof.Machine.execRcRead at_ r q again s
  | .pairLowRead at_ r q => Sys2Proof.Machine.execPairLowRead at_ r q s
  | .pairLowWrite at_ r q v => Sys2Proof.Machine.execPairLowWrite at_ r q v s
  | .pairHighWrite at_ r q v => Sys2Proof.Machine.execPairHighWrite at_ r q v s
  | .crossingTick at_ dst marks => Sys2Proof.Machine.execCrossingTick at_ dst marks s
  | .fmnTickLost at_ x early => Sys2Proof.Machine.execFmnTickLost at_ x early s
  | .arrivalRecord at_ x cls port stamp content => Sys2Proof.Machine.execArrivalRecord at_ x cls port stamp content s
  | .admissionCutoff at_ dst inputs => Sys2Proof.Machine.execAdmissionCutoff at_ dst inputs s
  | .guardTimeStart at_ x => Sys2Proof.Machine.execGuardTimeStart at_ x s
  | .slotTransfer at_ x k flips => Sys2Proof.Machine.execSlotTransfer at_ x k flips s
  | .lspSlotMiss at_ x k => Sys2Proof.Machine.execLspSlotMiss at_ x k s
  | .fareGrant at_ x slot lane fresh => Sys2Proof.Machine.execFareGrant at_ x slot lane fresh s
  | .lspFareWait at_ x who => Sys2Proof.Machine.execLspFareWait at_ x who s
  | .operationCompletion at_ x k cycle => Sys2Proof.Machine.execOperationCompletion at_ x k cycle s
  | .fmnOverrun at_ x k cycle => Sys2Proof.Machine.execFmnOverrun at_ x k cycle s
  | .verificationComplete at_ x bank received ok => Sys2Proof.Machine.execVerificationComplete at_ x bank received ok s
  | .tileStart x n job cyc => Sys2Proof.Machine.execTileStart x n job cyc s
  | .nop x n cyc w => Sys2Proof.Machine.execNop x n cyc w s
  | .add x n cyc w => Sys2Proof.Machine.execAdd x n cyc w s
  | .sub x n cyc w => Sys2Proof.Machine.execSub x n cyc w s
  | .and x n cyc w => Sys2Proof.Machine.execAnd x n cyc w s
  | .or x n cyc w => Sys2Proof.Machine.execOr x n cyc w s
  | .xor x n cyc w => Sys2Proof.Machine.execXor x n cyc w s
  | .shl x n cyc w => Sys2Proof.Machine.execShl x n cyc w s
  | .shr x n cyc w => Sys2Proof.Machine.execShr x n cyc w s
  | .sar x n cyc w => Sys2Proof.Machine.execSar x n cyc w s
  | .min x n cyc w => Sys2Proof.Machine.execMin x n cyc w s
  | .max x n cyc w => Sys2Proof.Machine.execMax x n cyc w s
  | .minu x n cyc w => Sys2Proof.Machine.execMinu x n cyc w s
  | .maxu x n cyc w => Sys2Proof.Machine.execMaxu x n cyc w s
  | .mov x n cyc w => Sys2Proof.Machine.execMov x n cyc w s
  | .movi x n cyc w => Sys2Proof.Machine.execMovi x n cyc w s
  | .sel x n cyc w => Sys2Proof.Machine.execSel x n cyc w s
  | .cmpeq x n cyc w => Sys2Proof.Machine.execCmpeq x n cyc w s
  | .cmpne x n cyc w => Sys2Proof.Machine.execCmpne x n cyc w s
  | .cmplt x n cyc w => Sys2Proof.Machine.execCmplt x n cyc w s
  | .cmple x n cyc w => Sys2Proof.Machine.execCmple x n cyc w s
  | .cmpltu x n cyc w => Sys2Proof.Machine.execCmpltu x n cyc w s
  | .cmpleu x n cyc w => Sys2Proof.Machine.execCmpleu x n cyc w s
  | .pand x n cyc w => Sys2Proof.Machine.execPand x n cyc w s
  | .por x n cyc w => Sys2Proof.Machine.execPor x n cyc w s
  | .pxor x n cyc w => Sys2Proof.Machine.execPxor x n cyc w s
  | .pnot x n cyc w => Sys2Proof.Machine.execPnot x n cyc w s
  | .ptst x n cyc w => Sys2Proof.Machine.execPtst x n cyc w s
  | .exts x n cyc w => Sys2Proof.Machine.execExts x n cyc w s
  | .extu x n cyc w => Sys2Proof.Machine.execExtu x n cyc w s
  | .qadd x n cyc w => Sys2Proof.Machine.execQadd x n cyc w s
  | .qsub x n cyc w => Sys2Proof.Machine.execQsub x n cyc w s
  | .clz x n cyc w => Sys2Proof.Machine.execClz x n cyc w s
  | .mul x n cyc w => Sys2Proof.Machine.execMul x n cyc w s
  | .mulh x n cyc w => Sys2Proof.Machine.execMulh x n cyc w s
  | .mulhu x n cyc w => Sys2Proof.Machine.execMulhu x n cyc w s
  | .qmul x n cyc w => Sys2Proof.Machine.execQmul x n cyc w s
  | .sats x n cyc w => Sys2Proof.Machine.execSats x n cyc w s
  | .fadd x n cyc w => Sys2Proof.Machine.execFadd x n cyc w s
  | .fsub x n cyc w => Sys2Proof.Machine.execFsub x n cyc w s
  | .fmul x n cyc w => Sys2Proof.Machine.execFmul x n cyc w s
  | .fma x n cyc w => Sys2Proof.Machine.execFma x n cyc w s
  | .fms x n cyc w => Sys2Proof.Machine.execFms x n cyc w s
  | .fmin x n cyc w => Sys2Proof.Machine.execFmin x n cyc w s
  | .fmax x n cyc w => Sys2Proof.Machine.execFmax x n cyc w s
  | .fabs x n cyc w => Sys2Proof.Machine.execFabs x n cyc w s
  | .fneg x n cyc w => Sys2Proof.Machine.execFneg x n cyc w s
  | .fdiv x n cyc w => Sys2Proof.Machine.execFdiv x n cyc w s
  | .fsqrt x n cyc w => Sys2Proof.Machine.execFsqrt x n cyc w s
  | .fcmpeq x n cyc w => Sys2Proof.Machine.execFcmpeq x n cyc w s
  | .fcmplt x n cyc w => Sys2Proof.Machine.execFcmplt x n cyc w s
  | .fcmple x n cyc w => Sys2Proof.Machine.execFcmple x n cyc w s
  | .fcmpun x n cyc w => Sys2Proof.Machine.execFcmpun x n cyc w s
  | .fcvtif x n cyc w => Sys2Proof.Machine.execFcvtif x n cyc w s
  | .fcvtfi x n cyc w => Sys2Proof.Machine.execFcvtfi x n cyc w s
  | .fcvtff x n cyc w => Sys2Proof.Machine.execFcvtff x n cyc w s
  | .fcvtqf x n cyc w => Sys2Proof.Machine.execFcvtqf x n cyc w s
  | .fcvtfq x n cyc w => Sys2Proof.Machine.execFcvtfq x n cyc w s
  | .vbcast x n cyc w => Sys2Proof.Machine.execVbcast x n cyc w s
  | .vext x n cyc w => Sys2Proof.Machine.execVext x n cyc w s
  | .vins x n cyc w => Sys2Proof.Machine.execVins x n cyc w s
  | .vsum x n cyc w => Sys2Proof.Machine.execVsum x n cyc w s
  | .vmov x n cyc w => Sys2Proof.Machine.execVmov x n cyc w s
  | .ldb x n cyc w => Sys2Proof.Machine.execLdb x n cyc w s
  | .ldbu x n cyc w => Sys2Proof.Machine.execLdbu x n cyc w s
  | .ldh x n cyc w => Sys2Proof.Machine.execLdh x n cyc w s
  | .ldhu x n cyc w => Sys2Proof.Machine.execLdhu x n cyc w s
  | .ldw x n cyc w => Sys2Proof.Machine.execLdw x n cyc w s
  | .ldwu x n cyc w => Sys2Proof.Machine.execLdwu x n cyc w s
  | .ldd x n cyc w => Sys2Proof.Machine.execLdd x n cyc w s
  | .ldv x n cyc w => Sys2Proof.Machine.execLdv x n cyc w s
  | .stb x n cyc w => Sys2Proof.Machine.execStb x n cyc w s
  | .sth x n cyc w => Sys2Proof.Machine.execSth x n cyc w s
  | .stw x n cyc w => Sys2Proof.Machine.execStw x n cyc w s
  | .std x n cyc w => Sys2Proof.Machine.execStd x n cyc w s
  | .stv x n cyc w => Sys2Proof.Machine.execStv x n cyc w s
  | .mfs x n cyc w => Sys2Proof.Machine.execMfs x n cyc w s
  | .mts x n cyc w => Sys2Proof.Machine.execMts x n cyc w s
  | .loop x n cyc w => Sys2Proof.Machine.execLoop x n cyc w s
  | .endProg x n cyc w => Sys2Proof.Machine.execEndProg x n cyc w s
  | .uplinkFrame at_ link fa fb => Sys2Proof.Machine.execUplinkFrame at_ link fa fb s
  | .frameVerdict at_ link => Sys2Proof.Machine.execFrameVerdict at_ link s
  | .downlinkWord at_ link m => Sys2Proof.Machine.execDownlinkWord at_ link m s
  | .schRun at_ x job => Sys2Proof.Machine.execSchRun at_ x job s
  | .calRunStart at_ link => Sys2Proof.Machine.execCalRunStart at_ link s
  | .calResult at_ link => Sys2Proof.Machine.execCalResult at_ link s
  | .schBypassLink h link => Sys2Proof.Machine.execSchBypassLink h link s
  | .schRestoreLink h link => Sys2Proof.Machine.execSchRestoreLink h link s
  | .schSetUserCal h chan a b sub => Sys2Proof.Machine.execSchSetUserCal h chan a b sub s
  | .schDcFreeze h mask freeze => Sys2Proof.Machine.execSchDcFreeze h mask freeze s
  | .pass at_ x a b => Sys2Proof.Machine.execPass at_ x a b s
  | .gnsWrite at_ x e => Sys2Proof.Machine.execGnsWrite at_ x e s
  | .tsol at_ x => Sys2Proof.Machine.execTsol at_ x s
  | .pulseCommit at_ => Sys2Proof.Machine.execPulseCommit at_ s
  | .timePulseOutput at_ n => Sys2Proof.Machine.execTimePulseOutput at_ n s
  | .aidingPost at_ => Sys2Proof.Machine.execAidingPost at_ s
  | .aidingSave at_ okA okB => Sys2Proof.Machine.execAidingSave at_ okA okB s
  | .positionSave at_ => Sys2Proof.Machine.execPositionSave at_ s
  | .gnsAntennaOff h ant => Sys2Proof.Machine.execGnsAntennaOff h ant s
  | .gnsAntennaOn h ant => Sys2Proof.Machine.execGnsAntennaOn h ant s
  | .gnsSaveAiding h => Sys2Proof.Machine.execGnsSaveAiding h s
  | .gnsClearAiding h => Sys2Proof.Machine.execGnsClearAiding h s
  | .gnsMag at_ ant band => Sys2Proof.Machine.execGnsMag at_ ant band s
  | .gnsHoldover at_ => Sys2Proof.Machine.execGnsHoldover at_ s
  | .gnsHoldLimit at_ => Sys2Proof.Machine.execGnsHoldLimit at_ s
  | .align at_ x q => Sys2Proof.Machine.execAlign at_ x q s
  | .close at_ x => Sys2Proof.Machine.execClose at_ x s
  | .fusExclude h stream => Sys2Proof.Machine.execFusExclude h stream s
  | .fusReadmit h stream => Sys2Proof.Machine.execFusReadmit h stream s
  | .fusPinTrack h track typ source n e sigma stream => Sys2Proof.Machine.execFusPinTrack h track typ source n e sigma stream s
  | .fusReleaseTrack h track => Sys2Proof.Machine.execFusReleaseTrack h track s
  | .fusSetTransform h entry data => Sys2Proof.Machine.execFusSetTransform h entry data s
  | .fusSetOrigin h lat lon height => Sys2Proof.Machine.execFusSetOrigin h lat lon height s
  | .slice at_ x j => Sys2Proof.Machine.execSlice at_ x j s
  | .slvHoldExpired at_ => Sys2Proof.Machine.execSlvHoldExpired at_ s
  | .ctlLoop at_ x n => Sys2Proof.Machine.execCtlLoop at_ x n s
  | .apply at_ x q => Sys2Proof.Machine.execApply at_ x q s
  | .ctlWrite h data => Sys2Proof.Machine.execCtlWrite h data s
  | .ctlSwap h loop bank fade => Sys2Proof.Machine.execCtlSwap h loop bank fade s
  | .update at_ x a => Sys2Proof.Machine.execUpdate at_ x a s
  | .startDurationEnd at_ a => Sys2Proof.Machine.execStartDurationEnd at_ a s
  | .axeStop h mask => Sys2Proof.Machine.execAxeStop h mask s
  | .axeResume h mask => Sys2Proof.Machine.execAxeResume h mask s
  | .axeHome h a => Sys2Proof.Machine.execAxeHome h a s
  | .axeClearLimit h input => Sys2Proof.Machine.execAxeClearLimit h input s
  | .axeStart h a => Sys2Proof.Machine.execAxeStart h a s
  | .axeOff h a => Sys2Proof.Machine.execAxeOff h a s
  | .axePower h bus l a r => Sys2Proof.Machine.execAxePower h bus l a r s
  | .axeNanExpired at_ => Sys2Proof.Machine.execAxeNanExpired at_ s
  | .axeStartTimeout at_ a => Sys2Proof.Machine.execAxeStartTimeout at_ a s
  | .axePmsStale at_ b => Sys2Proof.Machine.execAxePmsStale at_ b s
  | .legReport at_ x => Sys2Proof.Machine.execLegReport at_ x s
  | .legVerdict at_ differ => Sys2Proof.Machine.execLegVerdict at_ differ s
  | .failoverTakeover at_ => Sys2Proof.Machine.execFailoverTakeover at_ s
  | .failback at_ => Sys2Proof.Machine.execFailback at_ s
  | .resyncFinalCopy at_ regBytes => Sys2Proof.Machine.execResyncFinalCopy at_ regBytes s
  | .resyncComplete at_ => Sys2Proof.Machine.execResyncComplete at_ s
  | .manifestHandover at_ => Sys2Proof.Machine.execManifestHandover at_ s
  | .changeConfirmTimeout at_ => Sys2Proof.Machine.execChangeConfirmTimeout at_ s
  | .bankWithdraw at_ bank => Sys2Proof.Machine.execBankWithdraw at_ bank s
  | .cblOutOfService h side => Sys2Proof.Machine.execCblOutOfService h side s
  | .cblMemtest h side => Sys2Proof.Machine.execCblMemtest h side s
  | .cblReload h side bank => Sys2Proof.Machine.execCblReload h side bank s
  | .cblResync h side => Sys2Proof.Machine.execCblResync h side s
  | .cblHoldReturn h hold => Sys2Proof.Machine.execCblHoldReturn h hold s
  | .cblManifestChange h bank warm => Sys2Proof.Machine.execCblManifestChange h bank warm s
  | .cblConfirmChange h => Sys2Proof.Machine.execCblConfirmChange h s
  | .cblAdriftRelease h => Sys2Proof.Machine.execCblAdriftRelease h s
  | .dkhSetMode h mode flags target north east heading => Sys2Proof.Machine.execDkhSetMode h mode flags target north east heading s
  | .slwLoad h bank => Sys2Proof.Machine.execSlwLoad h bank s
  | .slwRestart h side => Sys2Proof.Machine.execSlwRestart h side s
  | .powerGood at_ p => Sys2Proof.Machine.execPowerGood at_ p s
  | .landingStart at_ x r => Sys2Proof.Machine.execLandingStart at_ x r s
  | .roleAssignment at_ => Sys2Proof.Machine.execRoleAssignment at_ s
  | .roleDeadline at_ => Sys2Proof.Machine.execRoleDeadline at_ s
  | .deckhandLockstepCheck at_ x same => Sys2Proof.Machine.execDeckhandLockstepCheck at_ x same s
  | .slwStageTimeout at_ x stage => Sys2Proof.Machine.execSlwStageTimeout at_ x stage s
  | .dkhWatchdog at_ x => Sys2Proof.Machine.execDkhWatchdog at_ x s
  | .mergeWriteback at_ x => Sys2Proof.Machine.execMergeWriteback at_ x s
  | .bucketLeak at_ x => Sys2Proof.Machine.execBucketLeak at_ x s
  | .memBucketCfg at_ r x v => Sys2Proof.Machine.execMemBucketCfg at_ r x v s
  | .memScrubCfg at_ r x v => Sys2Proof.Machine.execMemScrubCfg at_ r x v s
  | .remap at_ x raced ok0 ok1 => Sys2Proof.Machine.execRemap at_ x raced ok0 ok1 s
  | .scrubLine at_ x hard raced => Sys2Proof.Machine.execScrubLine at_ x hard raced s
  | .memtestComplete at_ x badLines badSpares other => Sys2Proof.Machine.execMemtestComplete at_ x badLines badSpares other s
  | .evaluationCycle at_ pins => Sys2Proof.Machine.execEvaluationCycle at_ pins s
  | .stopDelayEnd at_ k => Sys2Proof.Machine.execStopDelayEnd at_ k s
  | .safeTelegram at_ net pdu => Sys2Proof.Machine.execSafeTelegram at_ net pdu s
  | .telegramTransmit at_ c same => Sys2Proof.Machine.execTelegramTransmit at_ c same s
  | .bolWriteParams h block => Sys2Proof.Machine.execBolWriteParams h block s
  | .bolAck h mask => Sys2Proof.Machine.execBolAck h mask s
  | .bolTelegramTimeout at_ c => Sys2Proof.Machine.execBolTelegramTimeout at_ c s
  | .canSend at_ x job cycle inTx => Sys2Proof.Machine.execCanSend at_ x job cycle inTx s
  | .canFrameReceived at_ x p f => Sys2Proof.Machine.execCanFrameReceived at_ x p f s
  | .canFrameSent at_ x p f => Sys2Proof.Machine.execCanFrameSent at_ x p f s
  | .canBusError at_ x p e => Sys2Proof.Machine.execCanBusError at_ x p e s
  | .busOffRecovery at_ p => Sys2Proof.Machine.execBusOffRecovery at_ p s
  | .referenceMessage at_ p sof => Sys2Proof.Machine.execReferenceMessage at_ p sof s
  | .canIsolate h p => Sys2Proof.Machine.execCanIsolate h p s
  | .canRestore h p => Sys2Proof.Machine.execCanRestore h p s
  | .canBusOn h p => Sys2Proof.Machine.execCanBusOn h p s
  | .canReleaseId h p id ext => Sys2Proof.Machine.execCanReleaseId h p id ext s
  | .canRefLate at_ p => Sys2Proof.Machine.execCanRefLate at_ p s
  | .ethSend at_ x job cycle => Sys2Proof.Machine.execEthSend at_ x job cycle s
  | .match_ at_ x => Sys2Proof.Machine.execMatch at_ x s
  | .ethFrameReceived at_ x p f => Sys2Proof.Machine.execEthFrameReceived at_ x p f s
  | .launch at_ x p sfd => Sys2Proof.Machine.execLaunch at_ x p sfd s
  | .linkChange at_ x p up => Sys2Proof.Machine.execLinkChange at_ x p up s
  | .laneBypass at_ x closed => Sys2Proof.Machine.execLaneBypass at_ x closed s
  | .syncReceived at_ b p rx tm ident => Sys2Proof.Machine.execSyncReceived at_ b p rx tm ident s
  | .pdelayRequest at_ x p => Sys2Proof.Machine.execPdelayRequest at_ x p s
  | .masterMessageTransmit at_ b announce => Sys2Proof.Machine.execMasterMessageTransmit at_ b announce s
  | .ethSetReference h ext => Sys2Proof.Machine.execEthSetReference h ext s
  | .ethStepTime h step => Sys2Proof.Machine.execEthStepTime h step s
  | .referenceMeasured at_ ok => Sys2Proof.Machine.execReferenceMeasured at_ ok s
  | .referenceLock at_ => Sys2Proof.Machine.execReferenceLock at_ s
  | .referenceHoldEnd at_ => Sys2Proof.Machine.execReferenceHoldEnd at_ s
  | .ethRefLost at_ => Sys2Proof.Machine.execEthRefLost at_ s
  | .ethTbLost at_ b => Sys2Proof.Machine.execEthTbLost at_ b s
  | .write at_ port addr data whole => Sys2Proof.Machine.execWrite at_ port addr data whole s
  | .writePerformed at_ port => Sys2Proof.Machine.execWritePerformed at_ port s
  | .readReq at_ port addr len whole => Sys2Proof.Machine.execReadReq at_ port addr len whole s
  | .readComplete at_ port => Sys2Proof.Machine.execReadComplete at_ port s
  | .readBuf at_ port off len whole => Sys2Proof.Machine.execReadBuf at_ port off len whole s
  | .status at_ port => Sys2Proof.Machine.execStatus at_ port s
  | .doorbell at_ p q tail => Sys2Proof.Machine.execDoorbell at_ p q tail s
  | .eventHeadWrite at_ p q head => Sys2Proof.Machine.execEventHeadWrite at_ p q head s
  | .eventEntryWrite at_ p q => Sys2Proof.Machine.execEventEntryWrite at_ p q s
  | .queueMoveComplete at_ => Sys2Proof.Machine.execQueueMoveComplete at_ s
  | .flashOperationComplete at_ bank okA okB => Sys2Proof.Machine.execFlashOperationComplete at_ bank okA okB s
  | .levelTimeout at_ p => Sys2Proof.Machine.execLevelTimeout at_ p s
  | .lockoutEnd at_ p => Sys2Proof.Machine.execLockoutEnd at_ p s
  | .jtagAccess at_ x => Sys2Proof.Machine.execJtagAccess at_ x s
  | .purSubscribe h mask q => Sys2Proof.Machine.execPurSubscribe h mask q s
  | .purAckAlarm h code => Sys2Proof.Machine.execPurAckAlarm h code s
  | .purRead h addr len => Sys2Proof.Machine.execPurRead h addr len s
  | .purSetQueue h kind q k => Sys2Proof.Machine.execPurSetQueue h kind q k s
  | .purResend h q seq => Sys2Proof.Machine.execPurResend h q seq s
  | .purRelease h q seq => Sys2Proof.Machine.execPurRelease h q seq s
  | .purPing h => Sys2Proof.Machine.execPurPing h s
  | .tolChallenge h slot level => Sys2Proof.Machine.execTolChallenge h slot level s
  | .tolResponse h resp => Sys2Proof.Machine.execTolResponse h resp s
  | .tolLogout h => Sys2Proof.Machine.execTolLogout h s
  | .tolKeyWrite h block => Sys2Proof.Machine.execTolKeyWrite h block s
  | .tolKeyRevoke h slot => Sys2Proof.Machine.execTolKeyRevoke h slot s
  | .tolJtagUnlock h => Sys2Proof.Machine.execTolJtagUnlock h s
  | .dkhImageErase h bank => Sys2Proof.Machine.execDkhImageErase h bank s
  | .dkhImageWrite h bank off data => Sys2Proof.Machine.execDkhImageWrite h bank off data s
  | .dkhImageClose h bank => Sys2Proof.Machine.execDkhImageClose h bank s
  | .purHoldExpired at_ res => Sys2Proof.Machine.execPurHoldExpired at_ res s
  | .supplySwitchover at_ toVbat => Sys2Proof.Machine.execSupplySwitchover at_ toVbat s
  | .backupReset at_ => Sys2Proof.Machine.execBackupReset at_ s
  | .backupWrite at_ r off v => Sys2Proof.Machine.execBackupWrite at_ r off v s
  | .rtcSnapshot at_ r => Sys2Proof.Machine.execRtcSnapshot at_ r s
  | .rtcCommit at_ r seconds => Sys2Proof.Machine.execRtcCommit at_ r seconds s
  | .rtcStageSubsec at_ r v => Sys2Proof.Machine.execRtcStageSubsec at_ r v s
  | .rtcWake at_ r v => Sys2Proof.Machine.execRtcWake at_ r v s
  | .wakeInstant at_ => Sys2Proof.Machine.execWakeInstant at_ s
  | .logbookWrite at_ ok1 ok2 => Sys2Proof.Machine.execLogbookWrite at_ ok1 ok2 s
  | .rtcSet h seconds subsec => Sys2Proof.Machine.execRtcSet h seconds subsec s
  | .rtcSetWake h period => Sys2Proof.Machine.execRtcSetWake h period s
  | .rtcBkpWrite h off data => Sys2Proof.Machine.execRtcBkpWrite h off data s
  | .logRead h first len => Sys2Proof.Machine.execLogRead h first len s
  | .logSetLimit h code limit => Sys2Proof.Machine.execLogSetLimit h code limit s
  | .logClear h => Sys2Proof.Machine.execLogClear h s
  | .rtcVbatLow at_ v => Sys2Proof.Machine.execRtcVbatLow at_ v s
  | .rtcOscStop at_ => Sys2Proof.Machine.execRtcOscStop at_ s
  | .moduleStop at_ => Sys2Proof.Machine.execModuleStop at_ s
  | .stepDriverRetry at_ n ok => Sys2Proof.Machine.execStepDriverRetry at_ n ok s
  | .temperatureRead at_ a b c base va vb => Sys2Proof.Machine.execTemperatureRead at_ a b c base va vb s
  | .tpInEdge at_ time => Sys2Proof.Machine.execTpInEdge at_ time s
  | .supV24aLow at_ v => Sys2Proof.Machine.execSupV24aLow at_ v s
  | .supV24bLow at_ v => Sys2Proof.Machine.execSupV24bLow at_ v s
  | .supV24High at_ input v => Sys2Proof.Machine.execSupV24High at_ input v s
  | .supReversed at_ input v => Sys2Proof.Machine.execSupReversed at_ input v s
  | .supV24Restored at_ input v => Sys2Proof.Machine.execSupV24Restored at_ input v s
  | .supFieldLost at_ => Sys2Proof.Machine.execSupFieldLost at_ s
  | .supFieldRestored at_ => Sys2Proof.Machine.execSupFieldRestored at_ s
  | .supDomainLost at_ domain => Sys2Proof.Machine.execSupDomainLost at_ domain s
  | .supStepShort at_ n => Sys2Proof.Machine.execSupStepShort at_ n s
  | .supStepOpen at_ n now => Sys2Proof.Machine.execSupStepOpen at_ n now s
  | .supAxinRange at_ n => Sys2Proof.Machine.execSupAxinRange at_ n s
  | .supEncRange at_ line => Sys2Proof.Machine.execSupEncRange at_ line s
  | .supCanBus at_ p now => Sys2Proof.Machine.execSupCanBus at_ p now s
  | .supTpFault at_ n now => Sys2Proof.Machine.execSupTpFault at_ n now s
  | .delayReqTransmit at_ b trip => Sys2Proof.Machine.execDelayReqTransmit at_ b trip s
  | .safetyOutputOvercurrent at_ o c => Sys2Proof.Machine.execSafetyOutputOvercurrent at_ o c s
  | .axinRangeRestored at_ n => Sys2Proof.Machine.execAxinRangeRestored at_ n s
  | .encoderLineRestored at_ line => Sys2Proof.Machine.execEncoderLineRestored at_ line s
  | .logClearComplete at_ ok1 ok2 => Sys2Proof.Machine.execLogClearComplete at_ ok1 ok2 s
  | .limitTableWritten at_ ok1 ok2 => Sys2Proof.Machine.execLimitTableWritten at_ ok1 ok2 s
  | .paramsStageComplete at_ ok1 ok2 => Sys2Proof.Machine.execParamsStageComplete at_ ok1 ok2 s
  | .keyWriteComplete at_ ok => Sys2Proof.Machine.execKeyWriteComplete at_ ok s

end Sys2Proof.Machine
end

