-- ==== Sys2Proof/Machine/Step.lean ====
section
/-!
DEFINITION. One step: the command at the front of the queue runs with the rest of the queue; on an empty queue the block idles.
-/
namespace Sys2Proof.Machine

/-- One step of the block. Log entry 2 (DESIGN CHOICE, unsafe). Log entry 3 (DESIGN CHOICE, unsafe). Log entry 112 (DESIGN CHOICE, unsafe). -/
def step (s : State) : Host.Outcome State Fault Refusal :=
  match s.pending with
  | [] => .next (idle s)
  | c :: t => exec c { s with pending := t }

/-- The state with the command that a table word spells at the front of its queue; unchanged where the word spells none.
Log entry 8 (DEDUCED, safe). -/
def State.withFetchWord (s : State) (nbits w : Nat) : State :=
  match decodeTableWord nbits w with
  | some c => s.push c
  | none => s

end Sys2Proof.Machine
end

