-- ==== Sys2Proof/Safety.lean ====
section
/-!
DEFINITION. What counts as a safe step of this block: it answers a next state.
-/
namespace Sys2Proof.Machine

/-- An outcome is a next state. -/
def completes (o : Host.Outcome State Fault Refusal) : Prop := ∃ t, o = .next t

/-- A state is safe when its next step completes. -/
def State.safe (s : State) : Prop := completes (step s)

/-- At most one landing is ACTIVE, and no change of role that waits makes a landing ACTIVE (01 R35). -/
def State.rolesFit (s : State) : Prop :=
  ¬(s.roleA = .active ∧ s.roleB = .active) ∧ ∀ d ∈ s.arb.due, d.role ≠ .active

/-- The vessel's mode, and every mode that a waiting mode record asks for, is one of the six modes (01, Modes and trims). -/
def State.modeFit (s : State) : Prop := s.mode ≤ 5 ∧ ∀ r ∈ s.dkh.modeReqs, r.mode ≤ 5

end Sys2Proof.Machine

namespace Sys2Proof

/-- A command whose header passes the checks that do not depend on its opcode (00 R23, 16 R614, R617): it is formed, it stands in the
queue it names, its cross-network comparison did not fail, and its sequence number is new. Log entry 4 (DESIGN CHOICE, safe). -/
abbrev CmdHdr.sound (h : CmdHdr) (s : Machine.State) : Prop :=
  h.formed = true ∧ h.descPart = h.part ∧ h.descQueue = h.queue ∧ h.part ≤ 7 ∧ h.queue ≤ 3 ∧ h.check ≠ some false ∧ Machine.fresh h s = true

/-- The command's partition holds at least the level `n` (16 R626). -/
abbrev CmdHdr.holds (h : CmdHdr) (n : Nat) (s : Machine.State) : Prop := n ≤ (s.part h.part).level

/-- A command that passes the checks every command has: its header is sound, its partition holds the level `n` that the command needs, and
the vessel's mode is one of the modes the command is allowed in (00 R23). -/
abbrev CmdHdr.may (h : CmdHdr) (n : Nat) (modes : List Nat) (s : Machine.State) : Prop := h.sound s ∧ h.holds n s ∧ s.mode ∈ modes

end Sys2Proof

namespace Sys2Proof.Machine

/-- The state in which a command that passed its checks is carried out: its tick has come and its sequence number is taken. -/
def State.begun (s : State) (h : CmdHdr) : State := accept h (advance h.at_ s)

/-- The state with the command's completion entry posted (16 R619, R620). -/
def State.answered (s : State) (h : CmdHdr) (op : Nat) (st : Status) (data : List Byte) : State :=
  complete (cmdOf h op) st data false s

/-- The header and the opcode of a host command (16 R634, R635); none of a command of another kind. -/
def hostOf : Instr → Option (CmdHdr × Nat)
  | .schBypassLink h _ => some (h, 0x0301)
  | .schRestoreLink h _ => some (h, 0x0302)
  | .schSetUserCal h _ _ _ _ => some (h, 0x0303)
  | .schDcFreeze h _ _ => some (h, 0x0304)
  | .gnsAntennaOff h _ => some (h, 0x0401)
  | .gnsAntennaOn h _ => some (h, 0x0402)
  | .gnsSaveAiding h => some (h, 0x0403)
  | .gnsClearAiding h => some (h, 0x0404)
  | .fusExclude h _ => some (h, 0x0501)
  | .fusReadmit h _ => some (h, 0x0502)
  | .fusPinTrack h _ _ _ _ _ _ _ => some (h, 0x0503)
  | .fusReleaseTrack h _ => some (h, 0x0504)
  | .fusSetTransform h _ _ => some (h, 0x0505)
  | .fusSetOrigin h _ _ _ => some (h, 0x0506)
  | .ctlWrite h _ => some (h, 0x0701)
  | .ctlSwap h _ _ _ => some (h, 0x0702)
  | .axeStop h _ => some (h, 0x0801)
  | .axeResume h _ => some (h, 0x0802)
  | .axeHome h _ => some (h, 0x0803)
  | .axeClearLimit h _ => some (h, 0x0804)
  | .axeStart h _ => some (h, 0x0805)
  | .axeOff h _ => some (h, 0x0806)
  | .axePower h _ _ _ _ => some (h, 0x0807)
  | .cblOutOfService h _ => some (h, 0x0D01)
  | .cblMemtest h _ => some (h, 0x0D02)
  | .cblReload h _ _ => some (h, 0x0D03)
  | .cblResync h _ => some (h, 0x0D04)
  | .cblHoldReturn h _ => some (h, 0x0D05)
  | .cblManifestChange h _ _ => some (h, 0x0D06)
  | .cblConfirmChange h => some (h, 0x0D07)
  | .cblAdriftRelease h => some (h, 0x0D08)
  | .dkhSetMode h _ _ _ _ _ _ => some (h, 0x1301)
  | .slwLoad h _ => some (h, 0x1201)
  | .slwRestart h _ => some (h, 0x1202)
  | .bolWriteParams h _ => some (h, 0x0E01)
  | .bolAck h _ => some (h, 0x0E02)
  | .canIsolate h _ => some (h, 0x0A01)
  | .canRestore h _ => some (h, 0x0A02)
  | .canBusOn h _ => some (h, 0x0A03)
  | .canReleaseId h _ _ _ => some (h, 0x0A04)
  | .ethSetReference h _ => some (h, 0x0B01)
  | .ethStepTime h _ => some (h, 0x0B02)
  | .purSubscribe h _ _ => some (h, 0x0C01)
  | .purAckAlarm h _ => some (h, 0x0C02)
  | .purRead h _ _ => some (h, 0x0C03)
  | .purSetQueue h _ _ _ => some (h, 0x0C04)
  | .purResend h _ _ => some (h, 0x0C05)
  | .purRelease h _ _ => some (h, 0x0C06)
  | .purPing h => some (h, 0x0C07)
  | .tolChallenge h _ _ => some (h, 0x0C80)
  | .tolResponse h _ => some (h, 0x0C81)
  | .tolLogout h => some (h, 0x0C82)
  | .tolKeyWrite h _ => some (h, 0x0C83)
  | .tolKeyRevoke h _ => some (h, 0x0C84)
  | .tolJtagUnlock h => some (h, 0x0C85)
  | .dkhImageErase h _ => some (h, 0x1302)
  | .dkhImageWrite h _ _ _ => some (h, 0x1303)
  | .dkhImageClose h _ => some (h, 0x1304)
  | .rtcSet h _ _ => some (h, 0x0F01)
  | .rtcSetWake h _ => some (h, 0x0F02)
  | .rtcBkpWrite h _ _ => some (h, 0x0F03)
  | .logRead h _ _ => some (h, 0x1001)
  | .logSetLimit h _ _ => some (h, 0x1002)
  | .logClear h => some (h, 0x1003)
  | _ => none

/-- The entries that wait for the event queue of a command's partition (16 R620), oldest first. -/
def State.waitingFor (s : State) (h : CmdHdr) : List EvEntry := (Tab.get {} (s.part h.part).eq h.queue).waiting

end Sys2Proof.Machine

namespace Sys2Proof.Machine

/-- A requester of landing `x` itself: its Deckhand core, a tile or an engine. -/
def onLanding (r : Requester) (x : Side) : Prop :=
  match r with
  | .deckhand y => y = x
  | .tile y _ => y = x
  | .engine y _ => y = x
  | .host _ => False

end Sys2Proof.Machine
end

