-- ==== Sys2Proof/Certificates/Slice0/Obligations.lean ====
section
/-!
DEFINITION. What is claimed of the model: one proposition each, for the provers. Rules of the spec are cited as (chapter R<n>).
-/
open Sys2Proof Sys2Proof.Machine

/-! ### The queue and the whole machine -/

/-- A step runs the command at the front of the queue, with the rest of the queue. -/
def Obligations.StepRunsFront : Prop :=
  ∀ (c : Instr) (q : List Instr) (s : State), s.pending = c :: q → step s = exec c { s with pending := q }

/-- The queue is first in, first out, and no command stops the block: a step with a command waiting answers a next state whose queue is
what stood behind that command. -/
def Obligations.QueueInOrder : Prop :=
  ∀ (c : Instr) (q : List Instr) (s : State), s.pending = c :: q → ∃ t, step s = .next t ∧ t.pending = q

/-- A step with no command waiting lets 10 ns of module time pass and changes nothing but the clocks (the model's choice: log entry 2). -/
def Obligations.IdleStep : Prop :=
  ∀ s : State, s.pending = [] → ∃ t, step s = .next t ∧ t.nowNs = s.nowNs + 10 ∧ t.pending = []
    ∧ t = { s with now := t.now, uptime := t.uptime, rtc := t.rtc }

/-- After power-on reset the module is in SLIPWAY, no landing has a role, no command waits, and the state has every invariant
below. -/
def Obligations.ResetState : Prop :=
  State.reset.mode = 0 ∧ State.reset.roleA = .none ∧ State.reset.roleB = .none ∧ State.reset.pending = []
    ∧ State.reset.rolesFit ∧ State.reset.modeFit ∧ ∀ x, (State.reset.ld x).memWf = true

/-- At most one landing holds the active role (01 R35), whatever command comes: every step keeps it. -/
def Obligations.OneActiveLanding : Prop :=
  ∀ s t : State, s.rolesFit → step s = .next t → t.rolesFit

/-- The mode is one of the six modes (01, Modes and trims), whatever command comes: every step keeps it. -/
def Obligations.ModeIsLegal : Prop :=
  ∀ s t : State, s.modeFit → step s = .next t → t.modeFit

/-! ### Host commands (chapters 00 and 16) -/

/-- A command whose sequence number is not new has no effect of its own, whichever of the 64 host commands it is: its completion entry carries
the status of a failed check, no accepted sequence number moves, and nothing changes beside what a refusal may report. -/
def Obligations.ReplayHasNoEffect : Prop :=
  ∀ (i : Instr) (h : CmdHdr) (op : Nat) (s : State), hostOf i = some (h, op) → fresh h s = false →
    ∃ t, exec i s = .next t
      ∧ t = { advance h.at_ s with pur := t.pur, log := t.log, events := t.events, lastRaised := t.lastRaised, resp := t.resp }
      ∧ (∃ st ∈ [Status.format, .auth, .integrity, .stale], (t.waitingFor h).getLast?.map (fun e => (e.typ, e.stat, e.op, e.word))
          = some (1, st.code, op, h.seq.toNat))
      ∧ ∀ p q, (t.cq p q).lastSeq = (s.cq p q).lastSeq

/-- A malformed descriptor, or one that names another queue than its own, is answered FORMAT and does nothing else (00 R23, 16 R614).

A command that passes takes its sequence number: the same number, and every number up to 2^31 − 1 before it, is stale from then on
(16 R617). -/
def Obligations.WrongCommandsAreRefused : Prop :=
  (∀ (i : Instr) (h : CmdHdr) (op : Nat) (s : State), hostOf i = some (h, op) →
     (h.formed = false ∨ h.descPart ≠ h.part ∨ h.descQueue ≠ h.queue ∨ 7 < h.part ∨ 3 < h.queue) →
     exec i s = .next ((advance h.at_ s).answered h op .format []))
  ∧ (∀ (h k : CmdHdr) (s : State), k.part = h.part → k.queue = h.queue → (h.seq - k.seq).toNat < 2 ^ 31 →
       fresh k (s.begun h) = false)

/-- A completion entry goes to the end of the entries that wait for the queue the command came from, with the command's opcode, sequence
number and status; every other queue of every partition keeps its entries (16 R619, R620). -/
def Obligations.CompletionEntry : Prop :=
  ∀ (h : CmdHdr) (op : Nat) (st : Status) (d : List Byte) (s : State),
    ((s.answered h op st d).waitingFor h) = s.waitingFor h
        ++ [{ typ := 1, stat := st.code, op := op, source := 2, word := h.seq.toNat, time := s.nowNs, data := d }]
      ∧ (∀ p q, (p, q) ≠ (h.part, h.queue) → (Tab.get {} ((s.answered h op st d).part p).eq q) = Tab.get {} (s.part p).eq q)
      ∧ s.answered h op st d = { s with pur := (s.answered h op st d).pur }

/-! ### Faults (00 R28) -/

/-- Raising a fault of severity `sev`: its event bit is set; from CAUTION up, one event entry is added to the queue of every subscribed
partition and to no other; from ALARM up, the code is an active alarm; a SELF-ACCUSE or HALT code of a landing accuses that landing in the
running leg; nothing changes but the landings, the event registers, the purser and the log. -/
def Obligations.FaultRaised : Prop :=
  ∀ (src : Source) (code detail : Nat) (sev : Sev) (s : State), severityOf code = some sev →
    let t := raise src code detail s
    t = { s with a := t.a, b := t.b, events := t.events, pur := t.pur, log := t.log }
      ∧ (∀ u b x, eventBit code = some (u, b) → src = .landing x → u ≠ 0x0C → bitOf (Tab.get 0 (t.ld x).events u) b = true)
      ∧ (∀ u b, eventBit code = some (u, b) → src = .cable → bitOf (Tab.get 0 t.events u) b = true)
      ∧ (∀ p < 8, ∀ q, (Tab.get {} (t.part p).eq q).waiting =
          if sev ≠ .note ∧ bitOf (s.part p).subMask (unitOf code - 1) = true ∧ q = (s.part p).subQ then
            (Tab.get {} (s.part p).eq q).waiting ++ [{ typ := 2, stat := sevNum sev, op := code, source := srcNum src code,
                                                       word := detail % 2 ^ 32, time := s.nowNs }]
          else (Tab.get {} (s.part p).eq q).waiting)
      ∧ (sev = .alarm ∨ sev = .accuse ∨ sev = .halt → code ∈ t.pur.alarms)
      ∧ (∀ x, src = .landing x → sev = .accuse ∨ sev = .halt → ∃ e ∈ (t.ld x).accused, e.1 = s.legCount)

/-! ### Register accesses (chapters 00 and 01) -/

/-- REGISTER_WRITE to an event register of a landing clears the bits written 1 but those that the hardware sets in the same cycle, and no other
bit of it (00 R11, R12), and changes nothing else; the Ethernet block's event register shows the cable die's bits of its unit too, and clears those
as well. -/
def Obligations.EventWriteOneClears : Prop :=
  ∀ (at_ : Nat) (r : Requester) (x : Side) (addr u : Nat) (v again : Word) (s : State), onLanding r x → regKindAt addr = some .w1c →
    regUnit addr = some u → addr < 0x40000000 → u ≠ 0x0C → addr % 4 = 0 →
    let stays := fun (b : Nat) => !bitOf v.toNat b || bitOf again.toNat b
    ∃ t, exec (.registerWrite at_ r { addr := addr } v again) s = .next t
      ∧ (∀ b < 32, bitOf (Tab.get 0 (t.ld x).events u) b = (bitOf (Tab.get 0 (s.ld x).events u) b && stays b))
      ∧ (u = 0x0B → ∀ b < 32, bitOf (Tab.get 0 t.events u) b = (bitOf (Tab.get 0 s.events u) b && stays b))
      ∧ t = { ({ advance at_ s with resp := {} }).modLd x (fun l => { l with events := Tab.set 0 l.events u (Tab.get 0 (t.ld x).events u) }) with
              events := if u = 0x0B then Tab.set 0 s.events u (Tab.get 0 t.events u) else s.events }

/-- An access that is not performed (00 R9, 01 R42, R45): one at an address where nothing is mapped, and one of a register that is not a whole
aligned 32-bit word, answer an access error, raise `LSP_UNMAPPED` or `LSP_ALIGN` on the requester's landing, and change nothing else, whichever of
the five accesses it is. -/
def Obligations.AccessErrors : Prop :=
  ∀ (at_ : Nat) (r : Requester) (x : Side) (addr size : Nat) (v again : Word) (s : State), onLanding r x →
    let all := fun (code : Nat) =>
      let q : Access := { addr := addr, size := size }
      let o := Host.Outcome.next (raise (.landing x) code (addr % 2 ^ 32) { advance at_ s with resp := { err := true } })
      exec (.registerWrite at_ r q v again) s = o ∧ exec (.rcRead at_ r q again) s = o
        ∧ exec (.pairLowRead at_ r q) s = o ∧ exec (.pairLowWrite at_ r q v) s = o ∧ exec (.pairHighWrite at_ r q v) s = o
    (regKindAt addr = none → memMapped addr = false → roWindow addr = false → all 0x0201)
    ∧ (regKindAt addr ≠ none → (size ≠ 4 ∨ addr % 4 ≠ 0) → all 0x0202)

/-- RC_READ of `FMN_DEFERRED` by a requester of a landing answers the count and leaves the events that came in the same cycle (00 R11, R12,
02 R104).

PAIR_LOW_READ of the crossing count latches its high word: whatever has become of the count since, the next read of the high word by the
same requester answers the high word that belongs to the low word read, and frees the latch (00 R13, 02 R98). -/
def Obligations.ReadsTakeAndLatch : Prop :=
  (∀ (at_ : Nat) (r : Requester) (x : Side) (again : Word) (s : State), onLanding r x →
     Tab.get none s.latch (latchKey r 0x30010020) = none →
     exec (.rcRead at_ r { addr := 0x30010020 } again) s = .next { ((advance at_ s).modLd x (fun l => { l with fmn := { l.fmn with deferred := again.toNat } }))
       with resp := { data := BitVec.ofNat 32 (s.ld x).fmn.deferred } })
  ∧ (∀ (at_ t2 : Nat) (r : Requester) (x : Side) (s u : State), onLanding r x →
       Tab.get none s.latch (latchKey r 0x30010000) = none →
       ∃ t, exec (.pairLowRead at_ r { addr := 0x30010000 }) s = .next t
         ∧ t.resp = { data := BitVec.ofNat 32 ((s.ld x).fmn.crossing % 2 ^ 32) }
         ∧ t = { advance at_ s with resp := t.resp, latch := t.latch }
         ∧ (u.latch = t.latch → ∃ w, exec (.pairLowRead t2 r { addr := 0x30010004 }) u = .next w
             ∧ w.resp = { data := BitVec.ofNat 32 ((s.ld x).fmn.crossing / 2 ^ 32 % 2 ^ 32) }
             ∧ Tab.get none w.latch (latchKey r 0x30010004) = none))

/-- PAIR_LOW_WRITE of a register that takes writes only holds the low word, for its requester alone; PAIR_HIGH_WRITE commits the held word and the
high word together and uses the hold up, or changes nothing where its requester holds no low word (00 R14). -/
def Obligations.PairWrites : Prop :=
  ∀ (at_ : Nat) (r : Requester) (x : Side) (addr : Nat) (k : RegKind) (v : Word) (s : State), onLanding r x → regKindAt addr = some k →
    k ≠ .range → bolFixed addr k = false → addr % 4 = 0 →
    (∃ t, exec (.pairLowWrite at_ r { addr := addr } v) s = .next t ∧ t = { advance at_ s with resp := {}, pendLow := t.pendLow }
      ∧ ∀ k, Tab.get none t.pendLow k = if k = latchKey r addr then some v else Tab.get none s.pendLow k)
    ∧ (Tab.get none s.pendLow (latchKey r (addr - 4)) = none →
      exec (.pairHighWrite at_ r { addr := addr } v) s = .next { advance at_ s with resp := {} })
    ∧ (∀ w, Tab.get none s.pendLow (latchKey r (addr - 4)) = some w →
      exec (.pairHighWrite at_ r { addr := addr } v) s = .next (registerWrite r addr 4 v 0 (registerWrite r (addr - 4) 4 w 0
        { advance at_ s with resp := {}, pendLow := Tab.set none s.pendLow (latchKey r (addr - 4)) none })))

/-! ### Purser ports (chapter 16) -/

/-- WRITE and WRITE_PERFORMED of one aligned 64-bit word of memory (16 R606): a WRITE that the access table allows, with a free buffer, is
buffered and performs nothing yet; one that the table refuses at every level performs nothing and is recorded; performing the oldest write
puts the word into that memory of every serving landing and leaves a landing that does not serve as it was.

READ_REQ, READ_COMPLETE, READ_BUF and STATUS (16 R605, R607, R608): an allowed request starts a read and changes nothing else; its
completion fills the buffer with the bytes read and sets `READ_DONE`; READ_BUF answers the buffer's bytes and 0 beyond them; STATUS answers
the status word and clears the first failure. -/
def Obligations.PortAccesses : Prop :=
  (∀ (at_ port addr : Nat) (data : List Byte) (s : State), s.pur.serving = true → addr % 8 = 0 → data.length = 8 → memMapped addr = true →
     (∀ n, hostRange (advance at_ s) port true addr 2 = some n → n ≤ (s.part port).level → (s.port port).wbuf.length < 2 →
       s.pur.move = none →
       exec (.write at_ port addr data true) s
         = .next (({ advance at_ s with resp := {} }).modPort port (fun p => { p with wbuf := p.wbuf ++ [(addr, data)] })))
     ∧ (hostRange (advance at_ s) port true addr 2 = none →
       exec (.write at_ port addr data true) s = .next (hostRefused port (portError port errUnmapped { advance at_ s with resp := {} })))
     ∧ (∀ rest, (s.port port).wbuf = (addr, data) :: rest →
       ∃ t, exec (.writePerformed at_ port) s = .next t ∧ (t.port port).wbuf = rest
         ∧ ∀ x, (s.serves x = true → peekWord (t.ld x) addr = ⟨BitVec.ofNat 64 (ofLe data), false⟩)
             ∧ (s.serves x = false → t.ld x = s.ld x)))
  ∧ (∀ (at_ port addr len off n : Nat) (s : State), s.pur.serving = true →
       (∀ k, portRange addr len = true → hostRange (advance at_ s) port false addr (len / 4) = some k → k ≤ (s.part port).level →
         (s.port port).reading = none →
         exec (.readReq at_ port addr len true) s
           = .next (({ advance at_ s with resp := {} }).modPort port (fun p => { p with reading := some (addr, len), readDone := false })))
       ∧ ((s.port port).reading = some (addr, len) →
         ∃ t, exec (.readComplete at_ port) s = .next t ∧ (t.port port).reading = none ∧ (t.port port).readDone = true
           ∧ (t.port port).rbuf = (hostRead port addr (len / 4) 0 (advance at_ s)).1)
       ∧ (off % 4 = 0 →
         ∃ t, exec (.readBuf at_ port off n true) s = .next t ∧ t = { advance at_ s with resp := t.resp } ∧ t.resp.bytes.length = n
           ∧ ∀ i < n, t.resp.bytes.getD i 0 = (s.port port).rbuf.getD (off + i) 0)
       ∧ (∃ t, exec (.status at_ port) s = .next t ∧ t.resp = { data := BitVec.ofNat 32 (portStatus s port) }
           ∧ t = ({ advance at_ s with resp := t.resp }).modPort port (fun p => { p with error := 0 })))

/-! ### Crossings, slots and the timing contract (chapter 02) -/

/-- ARRIVAL_RECORD of a class from 4 to 7, or of class 3 from the leading landing, waits for the cut-off behind the records before it, stamped
as it arrived; another class 3 record, or one of classes 1 and 2, is not taken (02 R62, R63, R68).

ADMISSION_CUTOFF with no record waiting, none agreed and none deferred, while the two landings' crossings have one period: the list of each landing
that is closed holds the axis snapshot (class 1, an input out of range reading 0) and the Bollard copy (class 2), in this order, stamped with the
cut-off at 95 % of the crossing, nothing is deferred, and nothing else changes (02 R59, R61, R63, R65, R66). -/
def Obligations.InputsAdmitted : Prop :=
  (∀ (at_ cls port stamp : Nat) (x : Option Side) (content : List Byte) (s : State),
     (4 ≤ cls ∧ cls ≤ 7 ∨ cls = 3 ∧ x = some s.lead →
       ∃ t, exec (.arrivalRecord at_ x cls port stamp content) s = .next t ∧ t = { advance at_ s with agree := t.agree }
         ∧ t.agree = { s.agree with
             waiting := s.agree.waiting ++ [{ cls := cls, port := port, stamp := stamp, from_ := x.elim 2 Side.num, content := content,
                                              order := s.agree.nextOrder }],
             nextOrder := s.agree.nextOrder + 1 })
     ∧ (cls = 1 ∨ cls = 2 ∨ cls = 3 ∧ x ≠ some s.lead → exec (.arrivalRecord at_ x cls port stamp content) s = .next (advance at_ s)))
  ∧ (∀ (at_ inputs : Nat) (s : State), s.uptime.isSome = true → s.agree.waiting = [] → s.agree.inputs = [] →
       Tab.get [] s.agree.ready s.lead.num = [] → (∀ x, (s.ld x).fmn.deferred ≤ 0xFFFFFFFF) → 0 < (s.grid s.lead).period →
       (s.a.fmn.running = true → s.b.fmn.running = true → imgPeriod s.a.fmn.img = imgPeriod s.b.fmn.img) →
       let cut := (s.grid s.lead).last / nsUnit + (s.grid s.lead).period / 20 * 19
       ∃ t, exec (.admissionCutoff at_ .both inputs) s = .next t
         ∧ (∀ k < 2, (Tab.get [] t.agree.closed k).map (fun r => (r.cls, r.stamp)) = [(1, cut), (2, cut)]
             ∧ (Tab.get [] t.agree.closed k).map (·.content) = [axisSnapshot s inputs, bollardCopy s]
             ∧ Tab.get [] t.agree.ready k = [])
         ∧ t.agree.waiting = [] ∧ t.agree.inputs = [] ∧ t.nowNs = max s.nowNs cut
         ∧ t.ld .A = s.ld .A ∧ t.ld .B = s.ld .B ∧ t.mode = s.mode ∧ t.pur = s.pur)

/-- CROSSING_TICK (02 R57, R89, R98, 11 R430), while the two landings' crossings have one period, comes exactly one period after the tick before it,
is counted by the tick generator and adds 1 to the crossing count of each landing that it reaches: one that has completed S10, with power, out of
reset, without a lost tick; any other landing keeps its count.

The Ferryman's own step at a tick (02 R71, R73): the crossing count rises by 1; a manifest named for this crossing starts at index 0 with no
overrun outstanding; a running one goes to the next index modulo its cycle; with none running, nothing is dispatched.

An operation or program that no outstanding dispatch entry of the running pattern names starts nothing (02 R71, R72). -/
def Obligations.TicksAndCrossings : Prop :=
  (∀ (at_ : Nat) (marks : List SampleMark) (s : State), s.uptime.isSome = true →
     (s.a.fmn.running = true → s.b.fmn.running = true → imgPeriod s.a.fmn.img = imgPeriod s.b.fmn.img) →
     ∃ t : State, exec (.crossingTick at_ .both marks) s = .next t ∧ t.tick.count = s.tick.count + 1
       ∧ (0 < (s.grid s.lead).period → t.tick.last = (s.grid s.lead).last + (s.grid s.lead).period * nsUnit)
       ∧ ∀ x, (t.ld x).fmn.crossing = (s.ld x).fmn.crossing
           + if (s.ld x).slw.s10 = true ∧ s.powered x = true ∧ (s.ld x).slw.inReset = false ∧ (s.ld x).fmn.tickLost = false then 1 else 0)
  ∧ (∀ f : Ferryman, (stepFerryman f).crossing = f.crossing + 1
       ∧ (f.startAt = some (f.crossing + 1) → (stepFerryman f).running = true ∧ (stepFerryman f).index = 0 ∧ (stepFerryman f).startAt = none
           ∧ (stepFerryman f).overrun = [])
       ∧ (f.startAt ≠ some (f.crossing + 1) → f.running = true → 0 < imgCycle f.img →
           (stepFerryman f).index = (f.index + 1) % imgCycle f.img ∧ (stepFerryman f).running = true)
       ∧ (f.startAt ≠ some (f.crossing + 1) → f.running = false → (stepFerryman f).running = false ∧ (stepFerryman f).open_ = []))
  ∧ (∀ (at_ n job cyc : Nat) (x : Side) (inTx : Bool) (a b : List Byte) (s : State),
       let none_ := fun (i : Instr) (unit op : Nat) (j c : Option Nat) =>
         entryFor (s.ld x).fmn unit op j c = none → exec i s = .next (advance at_ s)
       none_ (.schRun at_ x job) 3 1 (some job) none ∧ none_ (.pass at_ x a b) 4 1 none none ∧ none_ (.gnsWrite at_ x job) 4 2 (some job) none
       ∧ none_ (.tsol at_ x) 4 3 none none ∧ none_ (.align at_ x job) 5 1 (some job) none ∧ none_ (.close at_ x) 5 2 none none
       ∧ none_ (.slice at_ x job) 6 1 (some job) none ∧ none_ (.ctlLoop at_ x job) 7 1 (some job) none ∧ none_ (.apply at_ x job) 7 2 (some job) none
       ∧ none_ (.update at_ x job) 8 1 (some job) none ∧ none_ (.canSend at_ x job cyc inTx) 10 1 (some job) (some cyc)
       ∧ none_ (.ethSend at_ x job cyc) 11 1 (some job) (some cyc) ∧ none_ (.match_ at_ x) 11 2 none none
       ∧ (entryFor (s.ld x).fmn (0x80 + n) 1 (some job) (some cyc) = none → exec (.tileStart x n job cyc) s = .next s))

/-- The Ferryman's checks report and hold nothing up (02 R86 to R89, R97): a lost tick stops further crossings and an early one does not, each
with `FMN_TICK_LOST`; outstanding work when the guard time starts, 95 % of the crossing after its tick, is a guard breach and finished work is none; a missed slot closes its claim with
`LSP_SLOT_MISS`; a waiting requester is reported with `LSP_FARE_WAIT`. -/
def Obligations.FerrymanChecks : Prop :=
  ∀ (at_ k who : Nat) (x : Side) (s : State),
    exec (.lspFareWait at_ x who) s = .next (raise (.landing x) 0x0204 who (advance at_ s))
    ∧ (∃ t, exec (.fmnTickLost at_ x true) s = .next t ∧ t = raise (.landing x) 0x0142 1 (advance at_ s) ∧ (t.ld x).fmn = (s.ld x).fmn)
    ∧ (∃ t, exec (.fmnTickLost at_ x false) s = .next t ∧ (t.ld x).fmn = { (s.ld x).fmn with tickLost := true }
        ∧ t = raise (.landing x) 0x0142 0 ((advance at_ s).modLd x (fun l => { l with fmn := { l.fmn with tickLost := true } })))
    ∧ ((s.ld x).fmn.open_ = [] → exec (.guardTimeStart at_ x) s = .next (advance (s.cutNs x at_) s))
    ∧ (∀ n r, (s.ld x).fmn.open_ = n :: r → exec (.guardTimeStart at_ x) s
        = .next (raise (.landing x) 0x0141 (openUnit (s.ld x).fmn n) ((advance (s.cutNs x at_) s).modLd x (fun l => { l with fmn := { l.fmn with
            overrunCycle := periodCycles (imgPeriod (s.ld x).fmn.img) / 20 * 19 % 2 ^ 19, overrunUnit := openUnit (s.ld x).fmn n } }))))
    ∧ (let slot := ((claims (s.ld x).fmn.img (s.ld x).fmn.pattern).getD k {}).slot
       exec (.lspSlotMiss at_ x k) s = .next (raise (.landing x) 0x0203 slot ((advance at_ s).modLd x (fun l => { l with fmn := { l.fmn with
         open_ := l.fmn.open_.filter (· ≠ 2 ^ 32 + k), overrunCycle := (32 * slot + 31) % 2 ^ 19, overrunUnit := 2 } }))))

/-- OPERATION_COMPLETION (02 R80, R86, R87) of an engine: a completion by its contract cycle only closes its dispatch entry; a later one, like
FMN_OVERRUN, closes it with `FMN_OVERRUN`, holds back every berth that the entry's results reach and leaves the memories as they were before the
operation; whatever an operation has written is taken back so. -/
def Obligations.ContractKept : Prop :=
  (∀ (at_ k cycle : Nat) (x : Side) (s : State), k ∈ (s.ld x).fmn.open_ →
     ((dispatches (s.ld x).fmn.img (s.ld x).fmn.pattern).getD k {}).unit ≠ 6 →
     ((dispatches (s.ld x).fmn.img (s.ld x).fmn.pattern).getD k {}).unit < 0x80 →
     (cycle ≤ contractCycle (s.ld x).fmn k →
       exec (.operationCompletion at_ x k cycle) s = .next ((advance at_ s).modLd x (fun l =>
         { l with fmn := { l.fmn with open_ := l.fmn.open_.filter (· ≠ k) } })))
     ∧ (contractCycle (s.ld x).fmn k < cycle → exec (.operationCompletion at_ x k cycle) s = exec (.fmnOverrun at_ x k cycle) s)
     ∧ (∃ t, exec (.fmnOverrun at_ x k cycle) s = .next t ∧ k ∉ (t.ld x).fmn.open_
         ∧ (∀ n, n ∈ berthsOf (s.ld x).fmn k → n ∈ (t.ld x).fmn.overrun)
         ∧ (∃ e ∈ (t.ld x).accused, e.1 = (advance at_ s).legCount)
         ∧ (Tab.get ([], []) (s.ld x).fmn.undo k = ([], []) → (t.ld x).mem = (s.ld x).mem ∧ (t.ld x).syn = (s.ld x).syn)
         ∧ (t.ld x).tiles = (s.ld x).tiles))
  ∧ (∀ (at_ k cycle : Nat) (x : Side) (l : Landing) (s : State), ((dispatches (s.ld x).fmn.img (s.ld x).fmn.pattern).getD k {}).unit < 0x80 →
       ((dispatches (s.ld x).fmn.img (s.ld x).fmn.pattern).getD k {}).unit ≠ 6 → l.memWf = true → (s.ld x).memWf = true →
       ∃ t, exec (.fmnOverrun at_ x k cycle) (keepUndo x k l s) = .next t ∧ (t.ld x).mem = l.mem ∧ (t.ld x).syn = l.syn)

/-- SLOT_TRANSFER of one clean beat between memories (02 R72, R74, 12 R452): the destination word reads as the source word read, with its poison,
every word apart from the destination reads as before, and the claim is closed.

FARE_GRANT (02 R76, R81): with no request that fits the lane-slot, every request waits and nothing else changes; the one request of a host
partition that fits, a read of a word of memory outside the tiles that its access table allows, is answered with that word of the landing's memory
and waits no more, and its ports and its lane take no second grant in the slot. -/
def Obligations.SlotsAndFares : Prop :=
  (∀ (at_ k : Nat) (x : Side) (c : Claim) (s : State), runningClaim (s.ld x).fmn k = some c → c.beats = 1 → 0x10 ≤ c.src → c.src < 0x20 →
     0x10 ≤ c.dst → c.dst < 0x20 → memKind c.from_ ≠ 5 → c.from_ < 0x30000000 →
     ∃ t, exec (.slotTransfer at_ x k []) s = .next t ∧ peekWord (t.ld x) c.to_ = peekWord (s.ld x) c.from_
       ∧ (∀ b, physical (s.ld x).memi b + 8 ≤ physical (s.ld x).memi c.to_ ∨ physical (s.ld x).memi c.to_ + 8 ≤ physical (s.ld x).memi b →
           peekWord (t.ld x) b = peekWord (s.ld x) b)
       ∧ (t.ld x).fmn.open_ = (s.ld x).fmn.open_.filter (· ≠ 2 ^ 32 + k) ∧ t.ld x.other = s.ld x.other ∧ t.mode = s.mode)
  ∧ (∀ (at_ slot lane : Nat) (x : Side) (fresh : List FareReq) (q : FareReq) (s : State),
       (farePick (s.ld x).fmn slot lane ((s.ld x).fmn.fares ++ fresh) = none →
         exec (.fareGrant at_ x slot lane fresh) s
           = .next ((advance at_ s).modLd x (fun l => { l with fmn := { l.fmn with fares := l.fmn.fares ++ fresh } })))
       ∧ ((s.ld x).fmn.fares = [] → fresh = [q] → starting s x = false → fareFits (s.ld x).fmn slot lane q = true → q.who < 8 → q.port ≠ 0x28 →
         q.data = [] → memMapped q.addr = true → q.addr < 0x20000000 ∨ 0x28000000 ≤ q.addr → q.addr % 8 = 0 → q.len = 8 →
         (∃ k, hostRange s q.who false q.addr 2 = some k ∧ k ≤ (s.part q.who).level) →
         ∃ t, exec (.fareGrant at_ x slot lane fresh) s = .next t ∧ t.resp.fare = [(q.addr, peekWord (s.ld x) q.addr)]
           ∧ (t.ld x).fmn.fares = [] ∧ (t.ld x).fmn.fareTurn = (q.who + 1) % 8
           ∧ ∀ r, r.port = q.port ∨ (r.port ≠ 0x19 ∧ q.port ≠ 0x19) → fareFits (t.ld x).fmn slot lane r = false))

/-! ### The pontoon tiles (chapter 03)

In these statements `u` is the state in which every result due by the issue cycle has landed, `t` the tile as the syllable reads it, and
`launch x n r u` is `u` with the one result `r` in flight on that tile and nothing else changed. -/

/-- Slots 0 and 1, results in a g register (03 R120, R135): the value, the poison of the operands and the flags land in `g d` after 1 cycle, 3
for a product; the Q1.31 forms and `SATS` saturate and set QS; `SEL` always executes and takes one operand by its guard. -/
def Obligations.TileIntegers : Prop :=
  ∀ (x : Side) (n cyc : Nat) (w : Word) (s : State),
    let u := settle x n cyc s
    let t := u.tile x n
    let a := readG t (sylA w)
    let b := srcB t w
    let d := sylD w
    let qa := (a.v.truncate 32).toInt
    let qb := (b.v.truncate 32).toInt
    let wide := 8 * 2 ^ sylFn w
    let two := fun (i : Side → Nat → Nat → Word → Instr) (lat : Nat) (v : DWord) (fl : Nat) =>
      exec (i x n cyc w) s = .next (launch x n (resG (cyc + lat) d ⟨v, a.p || b.p⟩ fl) u)
    let one := fun (i : Side → Nat → Nat → Word → Instr) (v : DWord) (fl : Nat) =>
      exec (i x n cyc w) s = .next (launch x n (resG (cyc + 1) d ⟨v, a.p⟩ fl) u)
    let sat := fun (k : Nat) (i : Int) => BitVec.ofInt 64 (max (-2 ^ (k - 1)) (min (2 ^ (k - 1) - 1) i))
    let qs := fun (k : Nat) (i : Int) => if -2 ^ (k - 1) ≤ i ∧ i < 2 ^ (k - 1) then 0 else flQS
    exec (.nop x n cyc w) s = .next u
    ∧ exec (.sel x n cyc w) s = .next (launch x n (
        let c := if ((readP t (sylP w)).1 ^^ sylN w) = true then a else readG t (sylB w)
        resG (cyc + 1) d ⟨c.v, c.p || (readP t (sylP w)).2⟩ 0) u)
    ∧ (guardOf t w = .yes →
      two .add 1 (a.v + b.v) 0 ∧ two .sub 1 (a.v - b.v) 0 ∧ two .and 1 (a.v &&& b.v) 0 ∧ two .or 1 (a.v ||| b.v) 0
      ∧ two .xor 1 (a.v ^^^ b.v) 0 ∧ two .shl 1 (a.v <<< (b.v.toNat % 64)) 0 ∧ two .shr 1 (a.v >>> (b.v.toNat % 64)) 0
      ∧ two .sar 1 (a.v.sshiftRight (b.v.toNat % 64)) 0
      ∧ two .min 1 (BitVec.ofInt 64 (min a.v.toInt b.v.toInt)) 0 ∧ two .max 1 (BitVec.ofInt 64 (max a.v.toInt b.v.toInt)) 0
      ∧ two .minu 1 (BitVec.ofNat 64 (min a.v.toNat b.v.toNat)) 0 ∧ two .maxu 1 (BitVec.ofNat 64 (max a.v.toNat b.v.toNat)) 0
      ∧ two .qadd 1 (sat 32 (qa + qb)) (qs 32 (qa + qb)) ∧ two .qsub 1 (sat 32 (qa - qb)) (qs 32 (qa - qb))
      ∧ two .mul 3 (a.v * b.v) 0 ∧ two .mulh 3 (BitVec.ofInt 64 (a.v.toInt * b.v.toInt / 2 ^ 64)) 0
      ∧ two .mulhu 3 (BitVec.ofNat 64 (a.v.toNat * b.v.toNat / 2 ^ 64)) 0
      ∧ (∃ r : Int, 2 * (qa * qb - r * 2 ^ 31).natAbs ≤ 2 ^ 31 ∧ (2 * (qa * qb - r * 2 ^ 31).natAbs = 2 ^ 31 → r % 2 = 0)
          ∧ two .qmul 3 (sat 32 r) (qs 32 r))
      ∧ one .mov a.v 0 ∧ exec (.movi x n cyc w) s = .next (launch x n (resG (cyc + 1) d ⟨BitVec.ofInt 64 (sylImm15 w), false⟩ 0) u)
      ∧ (sylFn w < 3 → one .exts ((a.v.truncate wide).signExtend 64) 0 ∧ one .extu ((a.v.truncate wide).zeroExtend 64) 0
          ∧ one .sats (sat wide a.v.toInt) (qs wide a.v.toInt))
      ∧ ∃ z : Nat, z ≤ 64 ∧ a.v.toNat < 2 ^ (64 - z) ∧ (z < 64 → 2 ^ (63 - z) ≤ a.v.toNat) ∧ one .clz (BitVec.ofNat 64 z) 0)

/-- Slots 0 and 1, results in a p register (03 R120, R135): the compares, the predicate operations and `PTST` land after 1 cycle; `PTST` reads
the poison of its source and its own result is never poisoned. -/
def Obligations.TilePredicates : Prop :=
  ∀ (x : Side) (n cyc : Nat) (w : Word) (s : State),
    let u := settle x n cyc s
    let t := u.tile x n
    let a := readG t (sylA w)
    let b := srcB t w
    let pa := readP t (sylA w)
    let pb := readP t (sylB w)
    let gives := fun (i : Side → Nat → Nat → Word → Instr) (v p : Bool) =>
      exec (i x n cyc w) s = .next (launch x n (resP (cyc + 1) (sylD w) v p 0) u)
    guardOf t w = .yes →
      gives .cmpeq (decide (a.v = b.v)) (a.p || b.p) ∧ gives .cmpne (decide (a.v ≠ b.v)) (a.p || b.p)
      ∧ gives .cmplt (a.v.slt b.v) (a.p || b.p) ∧ gives .cmple (a.v.sle b.v) (a.p || b.p)
      ∧ gives .cmpltu (a.v.ult b.v) (a.p || b.p) ∧ gives .cmpleu (a.v.ule b.v) (a.p || b.p)
      ∧ gives .pand (pa.1 && pb.1) (pa.2 || pb.2) ∧ gives .por (pa.1 || pb.1) (pa.2 || pb.2)
      ∧ gives .pxor (pa.1 != pb.1) (pa.2 || pb.2) ∧ gives .pnot (!pa.1) pa.2
      ∧ (sylFn w = 0 → gives .ptst a.p false) ∧ (sylFn w = 2 → gives .ptst pa.2 false)
      ∧ (sylFn w = 1 → gives .ptst ((readV t (sylA w) 0).p || (readV t (sylA w) 1).p || (readV t (sylA w) 2).p || (readV t (sylA w) 3).p)
          false)

/-- Slot 2, the arithmetic, compare and conversion syllables (03 R121 to R124, R135): the scalar form lands its result, the poison of the
sources it reads and its flags in `g d` (a compare in `p d`) after its latency; the vector form does the same in each of the four lane groups
of `v d`.

Slot 2, the vector syllables (03 R121, R125, R135): `VBCAST` fills every lane, `VEXT` takes one lane, `VINS` replaces one lane and keeps the
others with their poison, `VMOV` copies four groups bit for bit, and `VSUM` adds the lanes in the fixed order, the pairs first. -/
def Obligations.TileFloatsAndVectors : Prop :=
  (∀ (x : Side) (n cyc : Nat) (w : Word) (s : State),
     let u := settle x n cyc s
     let t := u.tile x n
     let F := fmtOf w
     let d := sylD w
     let single := bitOf w.toNat 0
     let a := readG t (sylA w)
     let b := readG t (sylB w)
     let c := readG t d
     let fa := scalarIn F a.v
     let fb := scalarIn F b.v
     let fc := scalarIn F c.v
     let scalar := fun (i : Side → Nat → Nat → Word → Instr) (lat : Nat) (r : Nat × Nat) (p : Bool) =>
       exec (i x n cyc w) s = .next (launch x n (resG (cyc + lat) d ⟨BitVec.ofNat 64 r.1, p⟩ r.2) u)
     let lanes := fun (i : Side → Nat → Nat → Word → Instr) (lat : Nat) (f : Nat → Nat → Nat → Nat × Nat) (ub uc : Bool) =>
       exec (i x n cyc w) s = .next (launch x n (resV (cyc + lat) d ([0, 1, 2, 3].map (fun k =>
         let r := laneOp F f (readV t (sylA w) k).v (readV t (sylB w) k).v (readV t d k).v
         (⟨r.1, (readV t (sylA w) k).p || (ub && (readV t (sylB w) k).p) || (uc && (readV t d k).p)⟩, r.2)))) u)
     let pred := fun (i : Side → Nat → Nat → Word → Instr) (r : Bool × Nat) =>
       exec (i x n cyc w) s = .next (launch x n (resP (cyc + 2) d r.1 (a.p || b.p) r.2) u)
     guardOf t w = .yes →
       (sylV w = false →
         scalar .fadd 4 (fAdd F false fa fb) (a.p || b.p) ∧ scalar .fsub 4 (fAdd F true fa fb) (a.p || b.p)
         ∧ scalar .fmul 4 (fMul F fa fb) (a.p || b.p) ∧ scalar .fma 4 (fFma F false fa fb fc) (a.p || b.p || c.p)
         ∧ scalar .fms 4 (fFma F true fa fb fc) (a.p || b.p || c.p) ∧ scalar .fmin 2 (fMinMax F false fa fb) (a.p || b.p)
         ∧ scalar .fmax 2 (fMinMax F true fa fb) (a.p || b.p) ∧ scalar .fabs 1 (fAbs F fa) a.p ∧ scalar .fneg 1 (fNeg F fa) a.p
         ∧ scalar .fdiv (if single then 12 else 24) (fDiv F fa fb) (a.p || b.p)
         ∧ scalar .fsqrt (if single then 14 else 28) (fSqrt F fa) a.p)
       ∧ (sylV w = true →
         lanes .fadd 4 (fun a b _ => fAdd F false a b) true false ∧ lanes .fsub 4 (fun a b _ => fAdd F true a b) true false
         ∧ lanes .fmul 4 (fun a b _ => fMul F a b) true false ∧ lanes .fma 4 (fun a b c => fFma F false a b c) true true
         ∧ lanes .fms 4 (fun a b c => fFma F true a b c) true true ∧ lanes .fmin 2 (fun a b _ => fMinMax F false a b) true false
         ∧ lanes .fmax 2 (fun a b _ => fMinMax F true a b) true false ∧ lanes .fabs 1 (fun a _ _ => fAbs F a) false false
         ∧ lanes .fneg 1 (fun a _ _ => fNeg F a) false false)
       ∧ pred .fcmpeq (fEq F fa fb) ∧ pred .fcmplt (fLt F fa fb) ∧ pred .fcmple (fLe F fa fb) ∧ pred .fcmpun (fUn F fa fb)
       ∧ scalar .fcvtif 3 (fOfInt F a.v.toInt 0) a.p ∧ scalar .fcvtfi 3 (fToI64 F fa) a.p
       ∧ scalar .fcvtff 3 (if single then fNarrow a.v.toNat else fWiden (a.v.toNat % 2 ^ 32)) a.p
       ∧ scalar .fcvtqf 3 (fOfInt F (a.v.truncate 32).toInt (-31)) a.p ∧ scalar .fcvtfq 3 (fToQ F fa) a.p)
  ∧ (∀ (x : Side) (n cyc : Nat) (w : Word) (s : State),
       let u := settle x n cyc s
       let t := u.tile x n
       let F := fmtOf w
       let d := sylD w
       let a := readG t (sylA w)
       let v := readV t (sylA w)
       let o := readV t d
       let lane := bits w.toNat 2 0
       let dbl := bitOf w.toNat 0 = false
       let goes := fun (i : Side → Nat → Nat → Word → Instr) (r : PendRes) => exec (i x n cyc w) s = .next (launch x n r u)
       let add := fun p q : Nat × Nat => ((fAdd F false p.1 q.1).1, p.2 ||| q.2 ||| (fAdd F false p.1 q.1).2)
       let half := fun k => ((v k).v.toNat % 2 ^ 32, (v k).v.toNat / 2 ^ 32)
       let pair := fun k => add ((half k).1, 0) ((half k).2, 0)
       guardOf t w = .yes →
         goes .vbcast (resV (cyc + 2) d (List.replicate 4
           (⟨if dbl then a.v else a.v.truncate 32 ++ a.v.truncate 32, a.p⟩, 0)))
         ∧ (bitOf w.toNat 3 = false → goes .vext (resG (cyc + 2) d (v (lane % 4)) 0)
             ∧ goes .vins (resV (cyc + 2) d ([0, 1, 2, 3].map (fun k => (if k = lane % 4 then a else o k, 0)))))
         ∧ (bitOf w.toNat 3 = true →
             goes .vext (resG (cyc + 2) d ⟨BitVec.ofNat 64 ((v (lane / 2)).v.toNat / 2 ^ (32 * (lane % 2)) % 2 ^ 32), (v (lane / 2)).p⟩ 0)
             ∧ goes .vins (resV (cyc + 2) d ([0, 1, 2, 3].map (fun k =>
                 (if k = lane / 2 then ⟨insertHalf (o k).v (lane % 2) a.v, a.p || (o k).p⟩ else o k, 0)))))
         ∧ (let p := (v 0).p || (v 1).p || (v 2).p || (v 3).p
            (dbl → goes .vsum (let r := add (add ((v 0).v.toNat, 0) ((v 1).v.toNat, 0)) (add ((v 2).v.toNat, 0) ((v 3).v.toNat, 0))
               resG (cyc + 8) d ⟨BitVec.ofNat 64 r.1, p⟩ r.2))
            ∧ (¬dbl → goes .vsum (let r := add (add (pair 0) (pair 1)) (add (pair 2) (pair 3))
               resG (cyc + 12) d ⟨BitVec.ofNat 64 r.1, p⟩ r.2)))
         ∧ goes .vmov (resV (cyc + 1) d ([0, 1, 2, 3].map (fun k => (v k, 0)))))

/-- The loads (03 R126 to R128, R135, R140): at an address in the local memory and a multiple of the size, the bytes of the tile's memory at
that address, least significant first, are extended into `g d` (four words into `v d`) after 3 cycles, poisoned where a word read is; with a
poisoned address register the destination is poisoned; outside the rule it is poisoned and `XIL_ADDR` is raised. -/
def Obligations.TileLoads : Prop :=
  ∀ (x : Side) (n cyc : Nat) (w : Word) (s : State),
    let u := settle x n cyc s
    let t := u.tile x n
    let d := sylD w
    let addr := sylAddr t w
    let at8 := fun k => peekWord (u.ld x) ((tileBase n + (addr k).v.toNat) / 8 * 8)
    let read := fun (k : Nat) => (at8 k).v.toNat / 2 ^ (8 * ((addr k).v.toNat % 8)) % 2 ^ (8 * k)
    let ok := fun (k : Nat) => (addr k).p = false ∧ (addr k).v.toNat < 0x20000 ∧ (addr k).v.toNat % k = 0
    let gives := fun (i : Side → Nat → Nat → Word → Instr) (k : Nat) (v : DWord) => ok k →
      exec (i x n cyc w) s
        = .next (launch x n (resG (cyc + 3) d ⟨v, (at8 k).p⟩ 0) (memRead x ((tileBase n + (addr k).v.toNat) / 8 * 8) u).2)
    guardOf t w = .yes →
      gives .ldb 1 ((BitVec.ofNat 8 (read 1)).signExtend 64) ∧ gives .ldbu 1 (BitVec.ofNat 64 (read 1))
      ∧ gives .ldh 2 ((BitVec.ofNat 16 (read 2)).signExtend 64) ∧ gives .ldhu 2 (BitVec.ofNat 64 (read 2))
      ∧ gives .ldw 4 ((BitVec.ofNat 32 (read 4)).signExtend 64) ∧ gives .ldwu 4 (BitVec.ofNat 64 (read 4))
      ∧ gives .ldd 8 (at8 8).v
      ∧ (ok 32 → let r := memReadN x (tileBase n + (addr 32).v.toNat) 4 u
          exec (.ldv x n cyc w) s = .next (launch x n (resV (cyc + 3) d (r.1.map (fun p => (p, 0)))) r.2))
      ∧ ∀ e ∈ [(Instr.ldb, 1), (.ldbu, 1), (.ldh, 2), (.ldhu, 2), (.ldw, 4), (.ldwu, 4), (.ldd, 8)],
          ((addr e.2).p = true → exec (e.1 x n cyc w) s = .next (launch x n (resG (cyc + 3) d ⟨0, true⟩ 0) u))
          ∧ ((addr e.2).p = false → ¬(addr e.2).v.toNat < 0x20000 ∨ (addr e.2).v.toNat % e.2 ≠ 0 →
            exec (e.1 x n cyc w) s = .next (tileFault x n 0x0160 (addr e.2).v.toNat (cyc + 3)
              (launch x n (resG (cyc + 3) d ⟨0, true⟩ 0) u)))

/-- The stores (03 R126 to R128, R137): with no result in flight on the tile and the address in its local memory and aligned, the store takes effect
in the cycle after its issue: the word or words stored read as the source register with its poison, a narrow store replaces its bytes of
the word only, and every word of memory elsewhere, of this landing and of the other, reads as before. -/
def Obligations.TileStores : Prop :=
  ∀ (x : Side) (n cyc : Nat) (w : Word) (s : State), n < 16 → (s.tile x n).flight = [] → guardOf (s.tile x n) w = .yes →
    let addr := sylAddr (s.tile x n) w
    let ga := fun k => tileBase n + (addr k).v.toNat
    let ok := fun (k : Nat) => (addr k).p = false ∧ (addr k).v.toNat < 0x20000 ∧ (addr k).v.toNat % k = 0
    let src := readG (s.tile x n) (sylD w)
    (∀ e ∈ [(Instr.stb, 1), (.sth, 2), (.stw, 4), (.std, 8)], ok e.2 →
      ∃ t, exec (e.1 x n cyc w) s = .next t ∧ t.ld x.other = s.ld x.other ∧ (∀ a, peekWord (t.ld x) a = peekWord (s.ld x) a)
        ∧ let z := settle x n (cyc + 1) t
          (∀ i < 8, (peekWord (z.ld x) (ga e.2 / 8 * 8)).v.extractLsb' (8 * i) 8 =
            if ga e.2 % 8 ≤ i ∧ i < ga e.2 % 8 + e.2 then src.v.extractLsb' (8 * (i - ga e.2 % 8)) 8
            else (peekWord (s.ld x) (ga e.2 / 8 * 8)).v.extractLsb' (8 * i) 8)
          ∧ (e.2 = 8 → (peekWord (z.ld x) (ga e.2)) = src)
          ∧ (∀ a, a % 8 = 0 → a < 2 ^ 32 → a ≠ ga e.2 / 8 * 8 → peekWord (z.ld x) a = peekWord (s.ld x) a)
          ∧ z.ld x.other = s.ld x.other)
    ∧ (ok 32 → ∃ t, exec (.stv x n cyc w) s = .next t
        ∧ let z := settle x n (cyc + 1) t
          (∀ k < 4, peekWord (z.ld x) (ga 32 + 8 * k) = readV (s.tile x n) (sylD w) k)
          ∧ (∀ a, a % 8 = 0 → a < 2 ^ 32 → a < ga 32 ∨ ga 32 + 32 ≤ a → peekWord (z.ld x) a = peekWord (s.ld x) a)
          ∧ z.ld x.other = s.ld x.other)

/-- Special registers, loops and the end (03 R113, R118, R126, R131, R132, R136): `MFS` reads a special register, never poisoned; `MTS` writes the
low 32 bits of its operand after 1 cycle; `LOOP` opens a body with the index of its level at 0; `END` ends the program.

TILE_START (03 R108, R109, R136, R723), by its dispatch entry in cycle `cyc`, on a tile whose last program has ended: the job's bundles issue from
its entry from cycle `cyc` + 2 on, as many as its issue count, `JOB` reads the job, and nothing else changes. OPERATION_COMPLETION of a tile's entry
in time leaves no bundle to issue and no result in flight on the tile, closes the entry, and leaves the other landing, the roles and the mode
as they were. -/
def Obligations.TilePrograms : Prop :=
  (∀ (x : Side) (n cyc : Nat) (w : Word) (s : State),
     let u := settle x n cyc s
     let t := u.tile x n
     let f := (u.ld x).fmn
     (guardOf t w = .yes →
       (sylA w < 9 → exec (.mfs x n cyc w) s = .next (launch x n (resG (cyc + 1) (sylD w) ⟨BitVec.ofNat 64
           ([n, f.crossing % 2 ^ 32, f.index, cyc, t.job, t.lix0, t.lix1, t.flags, t.pseen].getD (sylA w) 0), false⟩ 0) u))
       ∧ exec (.mts x n cyc w) s
           = .next (launch x n { land := cyc + 1, sp := some (sylD w, (readG t (sylA w)).v.toNat % 2 ^ 32) } u))
     ∧ (t.loops.length < 2 → exec (.loop x n cyc w) s = .next (u.modTile x n (fun t =>
         { t with loops := (t.bundle + 1, t.bundle + 1 + sylLen w, sylCount w) :: t.loops,
                  lix0 := if t.loops = [] then 0 else t.lix0, lix1 := if t.loops = [] then t.lix1 else 0 })))
     ∧ exec (.endProg x n cyc w) s = .next (u.modTile x n (fun t => { t with running := false, loops := [] })))
  ∧ (∀ (x : Side) (n job cyc k : Nat) (r : TileRec) (s : State),
       let m := (s.ld x).fmn.img
       entryFor (s.ld x).fmn (0x80 + n) 1 (some job) (some cyc) = some k → tileRec m n = some r → job < r.entries →
       (s.tile x n).left = 0 → (s.tile x n).flight = [] →
       exec (.tileStart x n job cyc) s = .next (keepUndo x k (s.ld x) ((markIssued x k s).modTile x n (fun t =>
         { t with job := job, running := decide (0 < r.issueCount m job), bundle := r.entry m job, loops := [], left := r.issueCount m job,
                  next := cyc + 2, lost := false }))))
  ∧ (∀ (at_ k cycle n : Nat) (x : Side) (s : State), k ∈ (s.ld x).fmn.open_ → n < 16 →
       ((dispatches (s.ld x).fmn.img (s.ld x).fmn.pattern).getD k {}).unit = 0x80 + n → cycle ≤ contractCycle (s.ld x).fmn k →
       ∃ t, exec (.operationCompletion at_ x k cycle) s = .next t ∧ (t.tile x n).left = 0 ∧ (t.tile x n).flight = []
         ∧ (t.ld x).fmn.open_ = (s.ld x).fmn.open_.filter (· ≠ k) ∧ t.ld x.other = s.ld x.other ∧ t.mode = s.mode
         ∧ t.roleA = s.roleA ∧ t.roleB = s.roleB)

/-- Guards (03 R129, R142): under a false guard a syllable does nothing beside letting earlier results land; under a poisoned guard it puts the
poisoned 0 into its destination after its latency (`PTST` an unpoisoned 0, `MTS` a 0) with no flag; a store within the address rule writes 0 with
the poison pattern into the word or words addressed, and any other store writes nothing, raises `FMN_TILE_POISON_STORE` and sets `AF`. -/
def Obligations.TileGuards : Prop :=
  ∀ (x : Side) (n cyc : Nat) (w : Word) (s : State),
    let u := settle x n cyc s
    let t := u.tile x n
    let ints := [(Instr.add, 1), (.sub, 1), (.and, 1), (.or, 1), (.xor, 1), (.shl, 1), (.shr, 1), (.sar, 1), (.min, 1), (.max, 1), (.minu, 1),
      (.maxu, 1), (.mov, 1), (.movi, 1), (.exts, 1), (.extu, 1), (.qadd, 1), (.qsub, 1), (.clz, 1), (.sats, 1), (.mul, 3), (.mulh, 3),
      (.mulhu, 3), (.qmul, 3), (.fcvtif, 3), (.fcvtfi, 3), (.fcvtff, 3), (.fcvtqf, 3), (.fcvtfq, 3), (.vext, 2), (.ldb, 3), (.ldbu, 3),
      (.ldh, 3), (.ldhu, 3), (.ldw, 3), (.ldwu, 3), (.ldd, 3), (.mfs, 1)]
    let preds := [(Instr.cmpeq, 1), (.cmpne, 1), (.cmplt, 1), (.cmple, 1), (.cmpltu, 1), (.cmpleu, 1), (.pand, 1), (.por, 1), (.pxor, 1),
      (.pnot, 1), (.fcmpeq, 2), (.fcmplt, 2), (.fcmple, 2), (.fcmpun, 2)]
    let floats := [(Instr.fadd, 4), (.fsub, 4), (.fmul, 4), (.fma, 4), (.fms, 4), (.fmin, 2), (.fmax, 2), (.fabs, 1), (.fneg, 1)]
    let stores := [(Instr.stb, 1), (.sth, 2), (.stw, 4), (.std, 8), (.stv, 32)]
    let single := bitOf w.toNat 0
    (guardOf t w = .no → ∀ i ∈ ints.map (·.1) ++ preds.map (·.1) ++ floats.map (·.1) ++ stores.map (·.1)
        ++ [.fdiv, .fsqrt, .vbcast, .vins, .vsum, .vmov, .ldv, .ptst, .mts], exec (i x n cyc w) s = .next u)
    ∧ (guardOf t w = .poison →
      (∀ e ∈ ints, exec (e.1 x n cyc w) s = .next (launch x n (resG (cyc + e.2) (sylD w) ⟨0, true⟩ 0) u))
      ∧ (∀ e ∈ preds, exec (e.1 x n cyc w) s = .next (launch x n (resP (cyc + e.2) (sylD w) false true 0) u))
      ∧ (∀ e ∈ floats ++ [(.fdiv, if single then 12 else 24), (.fsqrt, if single then 14 else 28)], exec (e.1 x n cyc w) s = .next (launch x n (if sylV w then resV (cyc + e.2) (sylD w) (List.replicate 4 (⟨0, true⟩, 0))
          else resG (cyc + e.2) (sylD w) ⟨0, true⟩ 0) u))
      ∧ (∀ e ∈ [(Instr.vbcast, 2), (.vins, 2), (.vmov, 1), (.ldv, 3)],
          exec (e.1 x n cyc w) s = .next (launch x n (resV (cyc + e.2) (sylD w) (List.replicate 4 (⟨0, true⟩, 0))) u))
      ∧ exec (.vsum x n cyc w) s = .next (launch x n (resG (cyc + if single then 12 else 8) (sylD w) ⟨0, true⟩ 0) u)
      ∧ exec (.ptst x n cyc w) s = .next (launch x n (resP (cyc + 1) (sylD w) false false 0) u)
      ∧ exec (.mts x n cyc w) s = .next (launch x n { land := cyc + 1, sp := some (sylD w, 0) } u)
      ∧ ∀ e ∈ stores, let a := sylAddr t w e.2
          let ok := a.p = false ∧ a.v.toNat < 0x20000 ∧ a.v.toNat % e.2 = 0
          (ok → exec (e.1 x n cyc w) s
            = .next (launch x n { land := cyc + 1, mem := poisonWords (tileBase n + a.v.toNat) ((e.2 + 7) / 8), seen := true } u))
          ∧ (¬ok → exec (e.1 x n cyc w) s = .next (launch x n { land := cyc + 1, flags := 0x40 }
              (raisePerCrossing x 0x0161 (n * 2 ^ 20 + a.v.toNat % 2 ^ 20) n u))))

/-- A result lands in its own cycle (03 R111, R115, R135): until then the tile reads as before; from then on `g d` reads the result, every other
register what it read before, the flags are the ones before with the result's set, and `g 0` and `p 0` keep their constants whatever is
written to them. -/
def Obligations.ResultsLand : Prop :=
  ∀ (x : Side) (n land d fl : Nat) (w : Pw) (s : State), (s.tile x n).flight = [] → d < 64 →
    let t := launch x n (resG land d w fl) s
    (∀ c < land, settle x n c t = t)
    ∧ ∀ c, land ≤ c → let z := (settle x n c t).tile x n
        (∀ k < 64, readG z k = if k = d ∧ k ≠ 0 then w else readG (s.tile x n) k) ∧ z.v = (s.tile x n).v ∧ z.p = (s.tile x n).p
        ∧ z.flags = (if w.p then (s.tile x n).flags else (s.tile x n).flags ||| fl) ∧ z.flight = []
        ∧ readG z 0 = {} ∧ readP z 0 = (true, false)
        ∧ z.pseen = (if w.p = true ∧ d ≠ 0 then min 0xFFFFFFFF ((s.tile x n).pseen + 1) else (s.tile x n).pseen)

/-! ### The sample chain (chapter 04) -/

/-- UPLINK_FRAME (04 R153): each landing judges its own copy: a frame that is sound, follows the sequence and keeps the window of its sample (it starts
0.5 µs or more after its sync edge, its 464 bits end 0.2 µs or more before the next) is kept for the verdict, any other copy is none; a sound frame
in its window sets the sequence number expected next, and after a bad one the count runs on.

FRAME_VERDICT (04 R154, R158): on a landing that uses the link, one sample is taken: the landing's own good frame, or the other's where only
that is good, counts as a good frame in a row, a frame bad at both as a bad one; a copy taken from the other landing is counted as
repaired; a landing that does not use the link is left as it was. -/
def Obligations.FramesJudgedAndAgreed : Prop :=
  (∀ (at_ link : Nat) (fa fb : Option (List Byte)) (s : State),
     ∃ t : State, exec (.uplinkFrame at_ link fa fb) s = .next t ∧ t = { advance at_ s with a := t.a, b := t.b }
       ∧ ∀ x, let f := if x = Side.A then fa else fb
         let k := (s.ld x).link link
         let edge := fun (m : Nat) => (advance at_ s).syncEdge x link m
         let now : Int := (advance at_ s).nowNs
         let good := fun (b : List Byte) => frameSound b = true ∧ edge k.m + 500 + 4640 ≤ now ∧ now + 200 ≤ edge (k.m + 1)
         t.ld x = { s.ld x with sch := { (s.ld x).sch with links := (t.ld x).sch.links } }
         ∧ (∀ n, n ≠ link → (t.ld x).link n = (s.ld x).link n)
         ∧ (t.ld x).link link = { k with rx := ((t.ld x).link link).rx, expect := ((t.ld x).link link).expect }
         ∧ (∀ b, f = some b → good b → ((t.ld x).link link).expect = some ((frByte b 1 + 1) % 256)
             ∧ ((t.ld x).link link).rx = if k.expect = none ∨ k.expect = some (frByte b 1) then some b else none)
         ∧ ((∀ b, f = some b → ¬good b) → ((t.ld x).link link).rx = none
             ∧ ((t.ld x).link link).expect = k.expect.map (fun n => (n + 1) % 256)))
  ∧ (∀ (at_ link : Nat) (s : State),
       ∃ t : State, exec (.frameVerdict at_ link) s = .next t ∧ t.mode = s.mode ∧ t.roleA = s.roleA ∧ t.roleB = s.roleB
         ∧ ∀ x, let k := (s.ld x).link link
           let own := k.rx
           let other := ((s.ld x.other).link link).rx
           let z := (t.ld x).link link
           ((linkOf (s.ld x).fmn link).nsub ≠ 0 → (s.ld x).fmn.running = true →
             z.m = k.m + 1 ∧ z.rx = none
             ∧ ((own ≠ none ∨ other ≠ none) → z.goods = k.goods + 1 ∧ z.bads = 0)
             ∧ (own = none → other = none → z.goods = 0 ∧ z.bads = k.bads + 1 ∧ z.bad = min 0xFFFF (k.bad + 1))
             ∧ z.repaired = (if own = none ∧ other ≠ none then min 0xFF (k.repaired + 1) else k.repaired)
             ∧ (∀ n, n ≠ link → (t.ld x).link n = (s.ld x).link n) ∧ (t.ld x).mem = (s.ld x).mem)
           ∧ ((linkOf (s.ld x).fmn link).nsub = 0 ∨ (s.ld x).fmn.running = false → t.ld x = s.ld x))

/-- SCH_RUN by its dispatch entry (04 R162, R166, R168 to R171, R181): a job with no step only marks the entry. A filter step of a channel computes the stage's next output from its
taps, rounded once and saturated, and changes no other channel. An output step of a channel whose link is not UP and not bypassed writes a
word whose value is the channel's substitute value and whose `LOST` flag is set to the output's slot of the output store.

Live calibration (04 R172, R173): CAL_RUN_START at the crossings of the interval starts a run on the next channel of the mask on a link that is
UP, not bypassed, without a reference fault and with no run filling; CAL_RESULT at the end of a run's windows counts its live result once as
accepted or rejected, and an accepted one waits to apply from the end of the run's fills.

DOWNLINK_WORD (04 R155, R172, R174): after the first 3 µs of a leg, outside a gap and Adrift, the word of an active landing that no verdict has
removed goes out on the link: the word that
keeps the selection while no run fills, the one that selects the signal input while the reference is held off, and in a run's first sample
the one that selects the zero reference of its channel; every other link keeps its word. -/
def Obligations.ChainAndCalibration : Prop :=
  (∀ (at_ : Nat) (x : Side) (job w : Nat) (s : State),
     let m := (s.ld x).fmn.img
     let d := chanDesc m (w % 65536)
     let k := le m d 2
     let ch := (s.ld x).chan k
     let kind := w / 65536 % 8
     let u := fun (e : Nat) => markIssued x e (advance at_ s)
     ∀ e, entryFor (s.ld x).fmn 3 1 (some job) none = some e →
     (stepList m job = [] → exec (.schRun at_ x job) s = .next (keepUndo x e (s.ld x) (u e)))
     ∧ (stepList m job = [w] → w % 65536 < (schCounts m).1 →
       (kind ≠ 4 → kind < stageCount m d →
         let st := stageOf m d (kind + 1)
         let src := Tab.get {} ch.streams kind
         let dst := Tab.get {} ch.streams (kind + 1)
         let sum := sumInt ((List.range st.taps).map (fun j =>
           (coefSet m st.set).getD j 0 * (src.at_ ((dst.count * st.dec : Nat) - (j : Int))).1))
         let v := satInt 32 (roundDiv (sum * 2 ^ st.shift) (2 ^ 23))
         ∃ t fl, exec (.schRun at_ x job) s = .next (keepUndo x e (s.ld x) t)
           ∧ Tab.get {} ((t.ld x).chan k).streams (kind + 1) = dst.push v fl
           ∧ (∀ j, j ≠ k → (t.ld x).chan j = (s.ld x).chan j)
           ∧ t = (u e).modLd x (fun l => { l with sch := { l.sch with chans := (t.ld x).sch.chans } }))
       ∧ (kind = 4 → ((s.ld x).link (k / 16)).state ≠ 1 → ((s.ld x).link (k / 16)).bypassed = false →
         le m (d + 0x3C) 4 + 64 ≤ 0x4000 → le m (d + 0x3C) 4 % 8 = 0 →
         let i := ch.outN.getD (firstOut m d ((s.ld x).fmn.crossing - (s.ld x).sch.start))
         ∃ t : State, exec (.schRun at_ x job) s = .next t ∧ ((t.ld x).chan k).outN = some (i + 1)
           ∧ let o := (peekWord (t.ld x) (0x30038000 + le m (d + 0x3C) 4 + 8 * (i % 8).toNat)).v.toNat
             (∀ a b v, ch.user = some (a, b, v) → v < 2 ^ 32 → ch.nextLive = none → o % 2 ^ 32 = v)
             ∧ bitOf o 34 = true ∧ bitOf o 33 = false)))
  ∧ (∀ (at_ link : Nat) (s : State),
       (∃ t : State, exec (.calRunStart at_ link) s = .next t ∧ t = { advance at_ s with a := t.a, b := t.b }
         ∧ ∀ x, let k := (s.ld x).link link
           let d := linkOf (s.ld x).fmn link
           let since := (s.ld x).fmn.crossing - (s.ld x).sch.start
           ∀ c, (s.ld x).fmn.running = true → d.interval ≠ 0 → since % d.interval = 0 → blockRefs k.block = true → nextInMask d.mask k.nextChan = some c →
             k.state = 1 → k.bypassed = false → bitOf k.health 1 = false → k.filling = false →
             (t.ld x).link link = { k with chan := c, nextChan := (c + 1) % 16, runAt := since * d.nsub, filling := true, void := false,
                                           done := false, zSum := 0, spanSum := 0 }
             ∧ bitOf d.mask c = true)
       ∧ (∃ t : State, exec (.calResult at_ link) s = .next t ∧ t.mode = s.mode
         ∧ ∀ x, let k := (s.ld x).link link
           let z := (t.ld x).link link
           let d := linkOf (s.ld x).fmn link
           (k.filling = true → k.void = false → k.done = false → k.runAt + d.sa + d.nz + d.sb + d.nr < k.m →
             z = { k with done := true, accepted := z.accepted, rejected := z.rejected }
             ∧ (z.accepted = k.accepted + 1 ∧ z.rejected = k.rejected
                   ∧ ((t.ld x).chan (16 * link + k.chan)).nextLive.map (·.2.2) = some (k.runAt + (d.sa + d.nz + d.sb + d.nr + d.sc))
                 ∨ z.accepted = k.accepted ∧ z.rejected = k.rejected + 1 ∧ (t.ld x).sch.chans = (s.ld x).sch.chans))
           ∧ (k.filling = false ∨ k.done = true → t.ld x = s.ld x)))
  ∧ (∀ (at_ link m : Nat) (x : Side) (s : State), s.activeSide = some x → (s.ld x).fmn.running = true →
       (linkOf (s.ld x).fmn link).nsub ≠ 0 → 2400 ≤ (advance at_ s).cycleNow % max 1 (s.tick.period / 10) → s.passes x = true →
       s.arb.adrift = false →
       ∃ t : State, exec (.downlinkWord at_ link m) s = .next t
         ∧ t = { advance at_ s with a := t.a, b := t.b, slDown := t.slDown }
         ∧ (∀ n, n ≠ link → Tab.get 0 t.slDown n = Tab.get 0 s.slDown n)
         ∧ ((t.ld x).link link).refOff = false
         ∧ let k := (s.ld x).link link
           (k.refHold = true ∨ k.refOff = true → Tab.get 0 t.slDown link = downWord 1 0)
           ∧ (k.refHold = false → k.refOff = false → k.filling = false → Tab.get 0 t.slDown link = downWord 0 0)
           ∧ (k.refHold = false → k.refOff = false → k.filling = true → m = k.runAt → k.chan < 16 →
               Tab.get 0 t.slDown link = downWord 1 (16 + k.chan)))

/-- The sample chain's host commands (04 R175 to R177): SCH_BYPASS_LINK bypasses a link that is not DOWN and not bypassed, where no other is, and voids
its run; SCH_RESTORE_LINK ends a bypass; SCH_SET_USER_CAL sets a channel's user gain, offset and substitute value; SCH_DC_FREEZE freezes or
releases the DC blockers of the channels named. Each acts on both landings and is answered DONE. -/
def Obligations.ChainCommands : Prop :=
  ∀ (h : CmdHdr) (link chan mask : Nat) (a b sub : Word) (freeze : Bool) (s : State),
    (h.may 2 [1, 2, 3, 4, 5] s → link < 16 → ((s.ld s.lead).link link).state ≠ 0 → ((s.ld s.lead).link link).bypassed = false →
      (∀ m < 16, m ≠ link → ((s.ld s.lead).link m).bypassed = false) →
      ∃ u : State, exec (.schBypassLink h link) s = .next (u.answered h 0x0301 .done [])
        ∧ u = { s.begun h with a := u.a, b := u.b, events := u.events, pur := u.pur, log := u.log }
        ∧ ∀ x, (u.ld x).link link = { (s.ld x).link link with
            bypassed := true, void := ((u.ld x).link link).void, voided := ((u.ld x).link link).voided }
          ∧ (((s.ld x).link link).filling = true → ((u.ld x).link link).void = true ∨ ((s.ld x).link link).done = true)
          ∧ ∀ m, m ≠ link → (u.ld x).link m = (s.ld x).link m)
    ∧ (h.may 2 [1, 2, 3, 4, 5] s → link < 16 → ((s.ld s.lead).link link).bypassed = true →
      ∃ u : State, exec (.schRestoreLink h link) s = .next (u.answered h 0x0302 .done [])
        ∧ u = { s.begun h with a := u.a, b := u.b, events := u.events, pur := u.pur, log := u.log }
        ∧ ∀ x, (u.ld x).link link = { (s.ld x).link link with bypassed := false }
          ∧ ∀ m, m ≠ link → (u.ld x).link m = (s.ld x).link m)
    ∧ (h.may 2 [1, 2, 5] s → chan < 256 →
      ∃ u : State, exec (.schSetUserCal h chan a b sub) s = .next (u.answered h 0x0303 .done []) ∧ u = { s.begun h with a := u.a, b := u.b }
        ∧ ∀ x, (u.ld x).chan chan = { (s.ld x).chan chan with
            user := some (a.toNat, b.toNat, sub.toNat), changes := ((s.ld x).chan chan).changes + 1 }
          ∧ ∀ k, k ≠ chan → (u.ld x).chan k = (s.ld x).chan k)
    ∧ (h.may 1 [1, 2, 3, 4, 5] s → mask < 2 ^ 256 →
      ∃ u : State, exec (.schDcFreeze h mask freeze) s = .next (u.answered h 0x0304 .done []) ∧ u = { s.begun h with a := u.a, b := u.b }
        ∧ ∀ x, ∀ k < 256, Tab.get false (u.ld x).sch.frozen k = if bitOf mask k then freeze else Tab.get false (s.ld x).sch.frozen k)

/-! ### The GNSS baseband (chapter 05) -/

/-- PASS and GNS_WRITE, each by its dispatch entry (05 R199, R201, R204, R206, R227): a pass counts the magnitude bits of both antennas and leaves the
other landing as it was; a half that is off with no write waiting stays as it is; the carrier NCO of a running half with no write waiting
advances by its rate for each sample of the crossing, modulo 2^32. GNS_WRITE of a sound descriptor in range queues it on its half for the next
pass; a poisoned one is refused with `GNS_WRITE_POISON`, one out of range is reported and ignored. -/
def Obligations.GnssCorrelates : Prop :=
  ∀ (at_ e : Nat) (x : Side) (a b : List Byte) (s : State),
    (∀ k, entryFor (s.ld x).fmn 4 1 none none = some k →
      ∃ t : State, exec (.pass at_ x a b) s = .next (keepUndo x k (s.ld x) t) ∧ t.ld x.other = s.ld x.other ∧ t.mode = s.mode
      ∧ ((t.ld x).gns.ant 0).total = ((s.ld x).gns.ant 0).total + 2 * a.length
      ∧ ((t.ld x).gns.ant 1).total = ((s.ld x).gns.ant 1).total + 2 * b.length
      ∧ ∀ i < 256, let h := Tab.get {} (s.ld x).gns.halves i
        let z := Tab.get {} (t.ld x).gns.halves i
        let n := ((s.ld x).gns.ant (i / 128)).mark - ((s.ld x).gns.ant (i / 128)).prev
        h.armed = [] → (h.mode = 0 → z = h)
          ∧ (h.mode ≠ 0 → h.waiting = [] → z.carPhase = (if n = 0 then h.carPhase else (h.carPhase + n * h.carRate) % 2 ^ 32)
              ∧ z.carRate = h.carRate ∧ z.codeRate = h.codeRate ∧ z.signal = h.signal ∧ z.prn = h.prn ∧ z.mode = h.mode))
    ∧ (∀ k, entryFor (s.ld x).fmn 4 2 (some e) none = some k →
      let r := memReadN x (0x3004D000 + 32 * (e % 64)) 4 (markIssued x k (advance at_ s))
      let d := ofWords r.1
      let i := 128 * (dFld d 1 1 / 2 % 2) + 2 * (dFld d 0 1 % 64) + dFld d 1 1 % 2
      let h := Tab.get {} (s.ld x).gns.halves i
      (r.1.any (fun w => w.p) = true → exec (.gnsWrite at_ x e) s = .next (keepUndo x k (s.ld x) (raise (.landing x) 0x0406 e r.2)))
      ∧ (r.1.any (fun w => w.p) = false → gnsWriteOk (s.ld x).fmn.img d h.eff = false →
          exec (.gnsWrite at_ x e) s = .next (keepUndo x k (s.ld x) (raisePerCrossing x 0x0405 e 0 r.2)))
      ∧ (r.1.any (fun w => w.p) = false → gnsWriteOk (s.ld x).fmn.img d h.eff = true →
          ∃ t : State, exec (.gnsWrite at_ x e) s = .next (keepUndo x k (s.ld x) t)
            ∧ Tab.get {} (t.ld x).gns.halves i = { h with queued := h.queued ++ [d], eff := if dMask d 0 then dFld d 4 1 else h.eff }
            ∧ (∀ j, j ≠ i → Tab.get {} (t.ld x).gns.halves j = Tab.get {} (s.ld x).gns.halves j)
            ∧ t = r.2.modLd x (fun l => { l with gns := { l.gns with halves := (t.ld x).gns.halves } })))

/-- Time-pulse steering (05 R216 to R219, R227). TSOL: in FREE the first usable record starts the candidate, a record that is not usable breaks
the run, and in LOCKED a record outside the gate is not used and is reported. PULSE_COMMIT in LOCKED commits the next second at its edge plus the
offset, at the landing's first tick from 200 ms before it on and not earlier. TIME_PULSE_OUTPUT drives an enabled output once per label, at the edge plus its offset, for its
width. GNS_HOLDOVER leaves LOCKED 2 s after the last accepted record; GNS_HOLD_LIMIT and GNS_MAG report a bound exceeded; a magnitude fraction
is formed over one second, and reported once it has stood outside its range for one (the model's reading: log entry 132).

Aiding (05 R213 to R215, R221). AIDING_POST posts the header and the first 64 orbit entries, then 64 more each time, in order, as class 3
records. AIDING_SAVE rewrites the orbit store of each running landing whose write succeeds, leaves it where the write fails, and completes the
waiting commands, in every mode but SLIPWAY. POSITION_SAVE saves the latest valid position to its place in backup memory and no byte elsewhere. The commands turn an antenna
off and on, ask for a save (accepted, completed later), and clear the flags of the saved aiding and the orbit stores. -/
def Obligations.GnssTimeAndAiding : Prop :=
  (∀ (at_ : Nat) (x : Side) (s : State),
     let now := (advance at_ s).nowNs
     let m := (s.ld x).fmn.img
     let k := (s.ld x).gns.steer
     (∀ e, entryFor (s.ld x).fmn 4 3 none none = some e →
       let r := memReadN x 0x3004D800 16 (markIssued x e (advance at_ s))
       let d := ofWords r.1
       let y := sval 64 (dFld d 0x40 8) * 2 ^ 32 + toOff (F32.widen (BitVec.ofNat 32 (dFld d 0x48 4)))
       let usable := r.1.any (fun w => w.p) = false ∧ bitOf (dFld d 0x64 2) 0 = true ∧ bitOf (dFld d 0x64 2) 2 = false
         ∧ F32.le (BitVec.ofNat 32 (dFld d 0x5C 4)) (cfg32 m 0x3C) = true
       ∃ t : State, exec (.tsol at_ x) s = .next (keepUndo x e (s.ld x) t) ∧ t.ld x.other = (r.2).ld x.other
         ∧ (usable → k.state = 0 → k.run = 0 → (t.ld x).gns.steer = { k with
             co := y, cr := 0, ct := dFld d 0 8, run := 1, sigma := BitVec.ofNat 32 (dFld d 0x5C 4), lastAcc := now })
         ∧ (¬usable → (t.ld x).gns.steer = if k.state = 0 ∨ k.state = 2 then { k with run := 0 } else k)
         ∧ (usable → k.state = 1 → inGate m (y - carryOff k.o k.r k.t (dFld d 0 8)) = false → (t.ld x).gns.steer = k))
     ∧ (∀ n, (enginePart m 4).isSome = true → (s.ld x).fmn.running = true → k.state = 1 → k.stepNext = false → k.label = some n →
       let now := (s.grid x).last / nsUnit
       ∃ t : State, exec (.pulseCommit at_) s = .next t
         ∧ ((now : Int) * 2 ^ 32 < (n + 1) * secOff + k.o - secOff / 5 → t.ld x = s.ld x)
         ∧ ((n + 1) * secOff + k.o - secOff / 5 ≤ (now : Int) * 2 ^ 32 → (t.ld x).gns.steer = { k with
             edge := roundDiv ((n + 1) * secOff + k.o) (2 ^ 32), label := some (n + 1), flags := 0, oe := k.o,
             pulses := (k.pulses + 1) % 65536 }))
     ∧ (∀ i < 2, let g := gnsCfg (s.ld s.lead).fmn.img
       let w := s.tp.word
       let e := sval 64 (dFld w 0 8) + sval 32 (g (0x20 + 4 * i) 4)
       w ≠ [] → bitOf (g (0x14 + i) 1) 0 = true → bitOf (dFld w 0x15 1) 3 = false →
       ((now : Int) < e ∨ Tab.get 0 s.tp.driven i = dFld w 8 8 + 1 → exec (.timePulseOutput at_ i) s = .next (advance at_ s))
       ∧ (e ≤ (now : Int) → 0 ≤ e → Tab.get 0 s.tp.driven i ≠ dFld w 8 8 + 1 →
         ∃ t : State, exec (.timePulseOutput at_ i) s = .next t ∧ t = { advance at_ s with tp := t.tp } ∧ t.tp.word = w
           ∧ Tab.get 0 t.tp.rise i = e.toNat ∧ Tab.get 0 t.tp.fall i = e.toNat + 1000 * g (0x18 + 4 * i) 4
           ∧ Tab.get 0 t.tp.driven i = dFld w 8 8 + 1 ∧ Tab.get false t.tp.low i = bitOf (g (0x14 + i) 1) 1))
     ∧ (∃ t : State, exec (.gnsHoldover at_) s = .next t
         ∧ (k.state = 1 → k.lastAcc + 2000000000 ≤ now → (t.ld x).gns.steer = { k with state := 2, run := 0, limitHit := false })
         ∧ (now < k.lastAcc + 2000000000 ∨ k.state = 0 ∨ k.state = 2 → t.ld x = s.ld x))
     ∧ (∃ t : State, exec (.gnsHoldLimit at_) s = .next t
         ∧ (k.state = 2 → k.limitHit = false → F64.lt (F32.widen (cfg32 m 0x48)) (holdEstimate m k now) = true →
             (t.ld x).gns.steer = { k with limitHit := true })
         ∧ (k.state ≠ 2 ∨ k.limitHit = true ∨ F64.lt (F32.widen (cfg32 m 0x48)) (holdEstimate m k now) = false → t.ld x = s.ld x))
     ∧ (∀ ant band, let since := fun y => if band = 0 then ((s.ld y).gns.ant ant).outU else ((s.ld y).gns.ant ant).outL
       let due := fun y => (s.ld y).fmn.running = true ∧ gnsAntBit (s.ld y).fmn.img ant (1 + band) = true ∧ since y ≠ 0
         ∧ since y - 1 + 1000000000 ≤ now
       ((∀ y, now < (s.ld y).gns.magStart + 1000000000) →
         (¬due .A → ¬due .B → exec (.gnsMag at_ ant band) s = .next (advance at_ s))
         ∧ (due x → ¬due x.other → exec (.gnsMag at_ ant band) s = .next (raise (.landing x) 0x0403 (ant + 256 * band) (advance at_ s))))
       ∧ ((s.ld x).fmn.running = true → (s.ld x).gns.magStart + 1000000000 ≤ now →
         ∃ t : State, exec (.gnsMag at_ ant band) s = .next t ∧ (t.ld x).gns.magStart = now
           ∧ ∀ a < 2, let k := (s.ld x).gns.ant a
             let z := (t.ld x).gns.ant a
             z.fracU = (if k.total = 0 then 0 else min 255 (roundDiv (k.onesU * 256 : Nat) k.total).toNat)
             ∧ z.fracL = (if k.total = 0 then 0 else min 255 (roundDiv (k.onesL * 256 : Nat) k.total).toNat)
             ∧ z.onesU = 0 ∧ z.onesL = 0 ∧ z.total = 0)))
  ∧ (∀ (at_ ant : Nat) (okA okB : Bool) (h : CmdHdr) (s : State),
       (s.aid.next = none → exec (.aidingPost at_) s = .next (advance at_ s))
       ∧ (∀ n, s.aid.next = some n → let es := orbitEntries (s.ld s.lead)
         ∃ t : State, exec (.aidingPost at_) s = .next t ∧ t = { advance at_ s with agree := t.agree, aid := t.aid }
           ∧ t.aid = { s.aid with next := if n + 64 < es.length then some (n + 64) else none }
           ∧ ∃ new : List Arrival, t.agree.waiting = s.agree.waiting ++ new ∧ (∀ r ∈ new, r.cls = 3 ∧ r.port = 0)
             ∧ new.map (·.content) = (if n = 0 then [aidHeader (advance at_ s) es.length] else []) ++ (es.drop n).take 64)
       ∧ (s.mode ≠ 0 → ∃ u : State, exec (.aidingSave at_ okA okB) s = .next (completeAll
             (if ((s.ld .A).fmn.running && !okA) || ((s.ld .B).fmn.running && !okB) then .media else .done) s.aid.saves u)
           ∧ u.aid = { s.aid with saves := [] }
           ∧ ∀ x, let ok := if x = Side.A then okA else okB
             (u.ld x).flash = if (s.ld x).fmn.running = true ∧ ok = true then
               flashPut (flashErase (s.ld x).flash 0x63FF0000 65536) 0x63FF0000 (berthOrbits (s.ld x)).flatten else (s.ld x).flash)
       ∧ (let g := (s.ld s.lead).gns
         let p := if Tab.get [] g.pos 0 = [] then Tab.get [] g.pos 1 else Tab.get [] g.pos 0
         (p = [] → exec (.positionSave at_) s = .next (advance at_ s))
         ∧ (p.length = 128 → ∃ t : State, exec (.positionSave at_) s = .next t ∧ t = { advance at_ s with rtc := t.rtc }
             ∧ bytesAt t.rtc.mem 0x28 24 = (p.drop 0x10).take 24 ∧ bytesAt t.rtc.mem 0x40 8 = (p.drop 8).take 8
             ∧ le t.rtc.mem 0x20 2 % 2 = 1
             ∧ ∀ o, o < 0x20 ∨ 0x60 ≤ o → Tab.get 0 t.rtc.mem o = Tab.get 0 s.rtc.mem o))
       ∧ (h.may 2 [1, 2, 3, 4, 5] s → ant ≤ 1 →
         ((2 ≤ s.mode ∧ s.mode ≤ 4 → ((s.ld s.lead).gns.ant (1 - ant)).off = false) →
           ∃ u : State, exec (.gnsAntennaOff h ant) s = .next (u.answered h 0x0401 .done [])
             ∧ ∀ x, (u.ld x).gns.ant ant = { (s.ld x).gns.ant ant with off := true }
               ∧ (u.ld x).gns.ant (1 - ant) = (s.ld x).gns.ant (1 - ant))
         ∧ ∃ u : State, exec (.gnsAntennaOn h ant) s = .next (u.answered h 0x0402 .done [])
             ∧ ∀ x, (u.ld x).gns.ant ant = { (s.ld x).gns.ant ant with off := false }
               ∧ (u.ld x).gns.ant (1 - ant) = (s.ld x).gns.ant (1 - ant))
       ∧ (h.may 1 [1, 2, 3, 4, 5] s → exec (.gnsSaveAiding h) s = .next (State.answered { s.begun h with
             aid := { s.aid with saves := s.aid.saves ++ [{ part := h.part, queue := h.queue, seq := h.seq, op := 0x0403 }] } } h 0x0403 .accepted []))
       ∧ (h.may 2 [1, 5] s → ∃ u : State, exec (.gnsClearAiding h) s = .next (u.answered h 0x0404 .done [])
           ∧ u = { s.begun h with a := u.a, b := u.b, rtc := u.rtc }
           ∧ (∀ x, (u.ld x).flash = flashErase (s.ld x).flash 0x63FF0000 65536) ∧ le u.rtc.mem 0x20 2 = 0))

/-! ### The reference fusion (chapter 06) -/

/-- ALIGN (06 R233 to R235, R239), run as its dispatch entry: the queue entry is acted on and its stream field then reads 0xFF. An empty entry and a poisoned one store no
sample (the poisoned one raises `FUS_POISON_INPUT` first); a sound sample of a stream in vessel time that is later than the instant of the
epoch before and not after its arrival is stored in its stream's history at its own instant, and no other stream changes.

CLOSE (06 R255, R258, R262): the epoch of the running crossing is closed and the commands that waited are carried out; the level becomes
the worst of the levels of the last 20 epochs, epochs before the start counting as F4; a stream that an operator excludes is excluded from this
epoch on; the tiles, the other landing and the vessel's mode are untouched. -/
def Obligations.FusionEpochs : Prop :=
  (∀ (at_ q : Nat) (x : Side) (s : State),
     ∀ e, entryFor (s.ld x).fmn 5 1 (some q) none = some e →
     let a := 0x30053000 + 64 * (q % 64)
     let r := memReadN x a 8 (markIssued x e (advance at_ s))
     let b := ofWords r.1
     let fld := fun (o n : Nat) => ofLe ((b.drop o).take n)
     let n := fld 0 1
     let m := (s.ld x).fmn.img
     ∃ t : State, exec (.align at_ x q) s = .next (keepUndo x e (s.ld x) t) ∧ peekByte (t.ld x) a = 0xFF ∧ t.ld x.other = s.ld x.other ∧ t.mode = s.mode
       ∧ (n = 0xFF → (t.ld x).fus = (s.ld x).fus)
       ∧ (n ≠ 0xFF → r.1.any (fun w => w.p) = true → (t.ld x).fus = (s.ld x).fus)
       ∧ (∀ d, n ≠ 0xFF → r.1.any (fun w => w.p) = false → fusDesc m n = some d → dBase m d = 0 → dKind m d = 5 → fld 1 1 = 0 → fld 2 2 < 2 →
           fld 4 4 = 0 → fld 0x3C 4 = 0 → sigmaOk (BitVec.ofNat 32 (fld 0x30 4)) = true → ((s.ld x).fus.stream n).adrift = false →
           fld 8 8 ≤ fld 0x10 8 → fusTau (advance at_ s) x (((s.ld x).fus.window : Int) - 1) < (fld 8 8 : Int) →
           (∃ p : FusSample, p.t = (fld 8 8 : Int) ∧ p.a = (fld 0x10 8 : Int)
             ∧ p.objs.map (fun o => o.2.1) = [[BitVec.ofNat 64 (fld 0x18 8), BitVec.ofNat 64 (fld 0x20 8), BitVec.ofNat 64 (fld 0x28 8)]]
             ∧ ((t.ld x).fus.stream n).hist = joinSample p ((s.ld x).fus.stream n).hist)
           ∧ ((t.ld x).fus.stream n).late = ((s.ld x).fus.stream n).late
           ∧ ∀ k, k ≠ n → (t.ld x).fus.stream k = (s.ld x).fus.stream k))
  ∧ (∀ (at_ : Nat) (x : Side) (s : State),
       let l := s.ld x
       ∀ e, entryFor l.fmn 5 2 none none = some e →
       ∃ t : State, exec (.close at_ x) s = .next (keepUndo x e l t)
         ∧ (t.ld x).fus.closed = some ((l.fmn.crossing - l.fus.start) / max 1 (epochCrossings (imgPeriod l.fmn.img)))
         ∧ (t.ld x).fus.cmds = []
         ∧ (∃ c : Nat, (t.ld x).fus.levels = (c :: l.fus.levels).take 20)
         ∧ (t.ld x).fus.level = ((t.ld x).fus.levels ++ List.replicate (20 - (t.ld x).fus.levels.length) 4).foldl max 0
         ∧ (∀ n, l.fus.cmds = [.exclude n] → ((t.ld x).fus.stream n).excl = 3)
         ∧ t.ld x.other = s.ld x.other ∧ (t.ld x).tiles = l.tiles ∧ t.mode = s.mode ∧ t.roleA = s.roleA ∧ t.roleB = s.roleB)

/-- The fusion's host commands (06 R262, R263): each that passes is answered DONE and waits on both landings, behind those before it, for the next
CLOSE; nothing else changes. -/
def Obligations.FusionCommands : Prop :=
  ∀ (h : CmdHdr) (stream track typ source entry : Nat) (n e sigma lat lon height : DWord) (data : List Byte) (s : State),
    let f := (s.ld s.lead).fus.stream stream
    let waits := fun (i : Instr) (op : Nat) (c : FusCmd) => ∃ u : State, exec i s = .next (u.answered h op .done [])
      ∧ u = { s.begun h with a := u.a, b := u.b }
      ∧ ∀ x, u.ld x = { s.ld x with fus := { (s.ld x).fus with cmds := (s.ld x).fus.cmds ++ [c] } }
    (h.may 1 [1, 2, 3, 4, 5] s → streamKnown s stream = true → waits (.fusExclude h stream) 0x0501 (.exclude stream)
      ∧ (f.excl ≠ 0 → f.adrift = false → waits (.fusReadmit h stream) 0x0502 (.readmit stream)))
    ∧ (h.may 1 [1, 2, 3, 4, 5] s → trackKnown s track = true → waits (.fusReleaseTrack h track) 0x0504 (.release track)
      ∧ ((typ = 1 ∨ typ = 2) → (source = 0 ∨ source = 1 ∧ streamKnown s stream = true) →
          waits (.fusPinTrack h track typ source n e sigma stream) 0x0503 (.pin track typ source n e sigma stream)))
    ∧ (h.may 2 [1, 2, 5] s → data.length = 64 → entry ≤ 63 → ofLe (data.take 1) = entry →
        waits (.fusSetTransform h entry data) 0x0505 (.transform entry data))
    ∧ (h.may 2 [1] s → waits (.fusSetOrigin h lat lon height) 0x0506 (.origin (hostAngle lat) (hostAngle lon) height))

/-! ### The solver and the control engine (chapters 07 and 08) -/

/-- SLICE and SLV_HOLD_EXPIRED (07 R285, R288, R289, R294, R297). The dispatch entry of a job runs its next slice: the slice number moves on, back to 0
after the last; slice 0 begins an instance, which takes the factor buffer last committed; the work counted grows by the slice's entry unless
the instance is abandoned, and the last slice of one that is not leaves it finished; a slice of an abandoned instance only moves the number
on. Every hold that has lasted 8 crossings is marked as expired once, and the first one brings the vessel from mode 2 to 5 into Adrift. -/
def Obligations.SolverSlices : Prop :=
  ∀ (at_ j : Nat) (x : Side) (s : State),
    let m := (s.ld x).fmn.img
    let t := (s.ld x).slv.job j
    (∀ e, entryFor (s.ld x).fmn 6 1 (some j) none = some e →
    let s0 := markIssued x e (advance at_ s)
    (slvDesc m j = none → exec (.slice at_ x j) s = .next (keepUndo x e (s.ld x) s0))
    ∧ (∀ d, slvDesc m j = some d → ∃ u : State, exec (.slice at_ x j) s = .next (keepUndo x e (s.ld x) u)
        ∧ (let z := (u.ld x).slv.job j
          z.slice = (if t.slice + 1 = d.slices then 0 else t.slice + 1)
          ∧ (t.slice = 0 → z.started = (s.ld x).fmn.crossing ∧ z.inst = (t.inst + 1) % 2 ^ 32
              ∧ z.buffer = ((s.ld x).slv.job d.factor).committed.getD 0)
          ∧ (z.abandoned = true ∨ z.work = (if t.slice = 0 then 0 else t.work) + slvEntry m d t.slice)
          ∧ (t.slice + 1 = d.slices → z.abandoned = true ∨ z.finished = true))
        ∧ (t.slice ≠ 0 → t.abandoned = true → u = s0.modJob x j (fun t =>
            { t with slice := if t.slice + 1 = d.slices then 0 else t.slice + 1 }))
        ∧ (∀ k, k ≠ j → (u.ld x).slv.job k = (s.ld x).slv.job k) ∧ u.ld x.other = s.ld x.other ∧ u.mode = s.mode
        ∧ (u.ld x).tiles = (s.ld x).tiles ∧ (u.ld x).fmn = (s0.ld x).fmn))
    ∧ (let due := fun y => (s.ld y).slv.jobs.filter (fun e => !e.2.holdOver && (match e.2.hold with
          | some c => decide (c + 8 ≤ (s.ld y).fmn.crossing)
          | none => false))
      (due .A = [] → due .B = [] → exec (.slvHoldExpired at_) s = .next (advance at_ s))
      ∧ ∃ u : State, exec (.slvHoldExpired at_) s = .next u ∧ u.mode = s.mode
        ∧ (∀ y, ∀ e ∈ due y, ((u.ld y).slv.job e.1).holdOver = true ∧ ((u.ld y).slv.job e.1).hold = ((s.ld y).slv.job e.1).hold)
        ∧ (due .A ≠ [] ∨ due .B ≠ [] → 2 ≤ s.mode → u.arb.adrift = true))

/-- CTL_LOOP (08 R308 to R313, R318 to R320). A sample of a configured loop that neither fades nor swaps, outside its safe state and with sound
inputs, runs its bank's path once: the loop keeps the path, the output value and flags and counts the sample, and its output word holds them.
With a poisoned input the sample is held: the word repeats the last value with `HELD`, `CTL_POISON` is raised, and the path is as before. -/
def Obligations.ControlSamples : Prop :=
  ∀ (at_ n : Nat) (x : Side) (o : Nat) (s : State), ctlDesc (s.ld x).fmn.img n = some o → ((s.ld x).ctl.loop n).fade = none →
    ((s.ld x).ctl.loop n).pend = none → (cFlag (s.ld x).fmn.img o 1 = true → 2 ≤ s.mode ∧ s.arb.adrift = false) →
    let m := (s.ld x).fmn.img
    let t := (s.ld x).ctl.loop n
    ∀ e, entryFor (s.ld x).fmn 7 1 (some n) none = some e →
    let inp := memRead x (0x30071000 + 8 * n) (markIssued x e (advance at_ s))
    let k := readBank x m o n t.bank inp.2
    let meas : F32 := inp.1.v.extractLsb' 0 32
    let ref : F32 := inp.1.v.extractLsb' 32 32
    let u := if cFlag m o 3 then F32.sub ref meas else meas
    ∃ z : State, exec (.ctlLoop at_ x n) s = .next (keepUndo x e (s.ld x) z) ∧ z.mode = s.mode ∧ z.ld x.other = k.2.2.ld x.other
      ∧ (∀ j, j ≠ n → (z.ld x).ctl.loop j = (s.ld x).ctl.loop j)
      ∧ ((z.ld x).ctl.loop n).count = (t.count + 1) % 65536 ∧ ((z.ld x).ctl.loop n).bank = t.bank
      ∧ (inp.1.p = true ∨ k.2.1 = true →
          ((z.ld x).ctl.loop n).path = t.path ∧ ((z.ld x).ctl.loop n).out = t.out
          ∧ (peekWord (z.ld x) (0x30071800 + 8 * n)).v.toNat % 2 ^ 32 = t.out.toNat
          ∧ (t.bank ≤ 1 → bitOf (peekWord (z.ld x) (0x30071800 + 8 * n)).v.toNat 41 = true))
      ∧ (inp.1.p = false → k.2.1 = false → F32.finite u = true →
          let r := samplePath (cFlag m o 2) k.1 u t.path
          let v := F32.ofDyadic r.1.prev (k.1.eY - 23)
          let w := peekWord (z.ld x) (0x30071800 + 8 * n)
          ((z.ld x).ctl.loop n).path = r.1 ∧ ((z.ld x).ctl.loop n).out = v
          ∧ w.v.toNat % 2 ^ 32 = v.toNat ∧ w.p = false ∧ bitOf w.v.toNat 32 = bitOf r.2 0
          ∧ bitOf w.v.toNat 33 = bitOf r.2 1)

/-- APPLY, CTL_WRITE and CTL_SWAP (08 R324 to R326, R330, R334). APPLY takes an entry and then clears its kind; an empty, a poisoned or an
out-of-range entry changes no loop and no count of writes; a swap entry in range makes its swap pending. CTL_WRITE stores the value of its item
in the bank named, on both landings, and counts the write; CTL_SWAP makes a swap pending on both. -/
def Obligations.ControlWrites : Prop :=
  ∀ (at_ q loop bank fade : Nat) (x : Side) (h : CmdHdr) (data : List Byte) (s : State),
    (∀ e, entryFor (s.ld x).fmn 7 2 (some q) none = some e →
      let a := 0x30070800 + 16 * (q % 64)
      let r := memReadN x a 2 (markIssued x e (advance at_ s))
      let d := ofWords r.1
      ∃ t : State, exec (.apply at_ x q) s = .next (keepUndo x e (s.ld x) t) ∧ peekByte (t.ld x) (a + 2) = 0 ∧ t.ld x.other = s.ld x.other ∧ t.mode = s.mode
        ∧ (r.1.any (fun w => w.p) = true ∨ d.getD 2 0 = 0 ∨ ctlWriteOk (s.ld x).fmn.img d = false → (t.ld x).ctl = (s.ld x).ctl)
        ∧ (r.1.any (fun w => w.p) = false → d.getD 2 0 = 3 → ctlWriteOk (s.ld x).fmn.img d = true →
            ((t.ld x).ctl.loop (ofLe (d.take 2))).pend = some (ofLe ((d.drop 3).take 1), ofLe ((d.drop 6).take 2))
            ∧ ∀ k, k ≠ ofLe (d.take 2) → (t.ld x).ctl.loop k = (s.ld x).ctl.loop k))
    ∧ (h.may 2 [1, 2, 5] s → data.length = 16 → (data.getD 2 0 = 1 ∨ data.getD 2 0 = 2) → ctlWriteOk (s.ld s.lead).fmn.img data = true →
      ∃ u : State, exec (.ctlWrite h data) s = .next (u.answered h 0x0701 .done [])
        ∧ ∀ y, let w := writeTarget data
          peekBytes (u.ld y) w.1 w.2.length = w.2 ∧ (u.ld y).ctl.writes = min 0xFFFF ((s.ld y).ctl.writes + 1)
          ∧ (u.ld y).ctl.swaps = (s.ld y).ctl.swaps ∧ ∀ k, ((u.ld y).ctl.loop k).path = ((s.ld y).ctl.loop k).path)
    ∧ (h.may 1 [1, 2, 3, 4, 5] s → bank ≤ 1 → fade ≤ 1024 → (∃ o, ctlDesc (s.ld s.lead).fmn.img loop = some o
          ∧ (fade = 0 ∨ cFlag (s.ld s.lead).fmn.img o 0 = true)) →
      ∃ u : State, exec (.ctlSwap h loop bank fade) s = .next (u.answered h 0x0702 .done [])
        ∧ ∀ y, (u.ld y).ctl.loop loop = { (s.ld y).ctl.loop loop with pend := some (bank, fade) }
          ∧ ∀ k, k ≠ loop → (u.ld y).ctl.loop k = (s.ld y).ctl.loop k)

/-! ### Thrusters and axes (chapter 09) -/

/-- UPDATE (09 R343 to R345, R355, R356). With sound inputs the axis counts the update, and its record in the store then holds the flags, the count
and the next crossing's number; in modes 0 and 1 and in Adrift the axis keeps its state and its plan. With a poisoned input the record is
repeated with `HELD`, its count stands, the axis keeps its state, and `AXE_POISON` is raised. No other axis changes its state code. -/
def Obligations.AxisUpdates : Prop :=
  ∀ (at_ a o : Nat) (x : Side) (s : State), axeDesc (s.ld x).fmn.img a = some o →
    let ax := (s.ld x).axe.axis a
    ∀ k, entryFor (s.ld x).fmn 8 1 (some a) none = some k →
    let r1 := memRead x 0x30080800 (runAxes x (markIssued x k (advance at_ s)))
    let r2 := memRead x (0x30081000 + 8 * a) r1.2
    let r3 := memRead x (0x30081200 + 8 * a) r2.2
    let bad := r1.1.p || r2.1.p || r3.1.p
    let old := peekBytes (r3.2.ld x) (0x30082000 + 32 * a) 32
    ∃ t : State, exec (.update at_ x a) s = .next (keepUndo x k (s.ld x) t) ∧ t.mode = s.mode ∧ (∀ b, b ≠ a → ((t.ld x).axe.axis b).st = ((s.ld x).axe.axis b).st)
      ∧ let z := (t.ld x).axe.axis a
        let rec_ := peekBytes (t.ld x) (0x30082000 + 32 * a) 32
        (bad = false → z.updates = (ax.updates + 1) % 65536 ∧ ofLe ((rec_.drop 0x16).take 2) = z.updates
          ∧ ofLe ((rec_.drop 0x14).take 2) = z.flags % 65536 ∧ ofLe ((rec_.drop 0x1C).take 4) = ((s.ld x).fmn.crossing + 1) % 2 ^ 32
          ∧ (s.mode ≤ 1 ∨ s.arb.adrift = true → z.st = ax.st ∧ z.plan = ax.plan ∧ z.target = ax.target))
        ∧ (bad = true → z.st = ax.st ∧ z.updates = ax.updates ∧ z.plan = ax.plan ∧ rec_.take 0x14 = old.take 0x14
          ∧ rec_.drop 0x16 = old.drop 0x16 ∧ bitOf (ofLe ((rec_.drop 0x14).take 2)) 10 = true)

/-- The axes' timers (09 R352, R369, R371, R372). START_DURATION_END away from a tick ends the reservations that have run out and makes their
started axis STOPPED; AXE_START_TIMEOUT takes a start that has waited too long out of the queue and makes its axis OFF, and leaves any other
axis as it is; AXE_NAN_EXPIRED brings the vessel into Adrift once for a critical axis that has held 8 targets; AXE_PMS_STALE sets a bus whose
power word is overdue to its fallback values, once. -/
def Obligations.AxisTimers : Prop :=
  ∀ (at_ a b : Nat) (s : State),
    let now := (advance at_ s).nowNs
    (∃ t : State, exec (.startDurationEnd at_ a) s = .next t ∧ ∀ x,
      let due := (s.ld x).axe.reserved.filter (fun h => h.axis = a && decide (h.ends ≤ now))
      (due = [] → t.ld x = s.ld x)
      ∧ (due ≠ [] → now ≠ s.tickNs x →
        (t.ld x).axe.reserved = (s.ld x).axe.reserved.filter (fun h => !(h.axis = a && decide (h.ends ≤ now)))
        ∧ ((t.ld x).axe.axis a).st = (if ((s.ld x).axe.axis a).st = 1 ∧ ((s.ld x).axe.axis a).queued = none then 4
            else ((s.ld x).axe.axis a).st)))
    ∧ (∃ t : State, exec (.axeStartTimeout at_ a) s = .next t ∧ t.mode = s.mode ∧ ∀ x,
      let m := (s.ld x).fmn.img
      let ax := (s.ld x).axe.axis a
      (∀ o q, axeDesc m a = some o → ax.queued = some q → q.2 + le m (o + 0xA4) 4 * 1000000 ≤ now →
        (t.ld x).axe.axis a = { ax with st := 0, queued := none } ∧ ∀ c, c ≠ a → (t.ld x).axe.axis c = (s.ld x).axe.axis c)
      ∧ (ax.queued = none → t.ld x = s.ld x))
    ∧ (let due := fun x => (s.ld x).axe.axes.filter (fun e => decide (8 ≤ e.2.nanCount) && !e.2.nanOver)
      ((∀ x, s.inStep x = true → due x = []) → exec (.axeNanExpired at_) s = .next (advance at_ s))
      ∧ ∃ t : State, exec (.axeNanExpired at_) s = .next t ∧ t.mode = s.mode
        ∧ (∀ x, s.inStep x = true → ∀ e ∈ due x, ((t.ld x).axe.axis e.1).nanOver = true)
        ∧ ((∃ x, s.inStep x = true ∧ due x ≠ []) → 2 ≤ s.mode → t.arb.adrift = true))
    ∧ (∃ t : State, exec (.axePmsStale at_ b) s = .next t ∧ ∀ x,
      let m := (s.ld x).fmn.img
      let k := (s.ld x).axe.bus b
      (∀ n, k.last = some n → axeDescs m ≠ [] → k.warned = false → n + busFld m b 0x10 * 1000000 ≤ now →
        let z := (t.ld x).axe.bus b
        z.l = busFld m b 0 ∧ z.a = busFld m b 4 ∧ z.r = busFld m b 8 ∧ z.stale = true ∧ z.warned = true)
      ∧ (k.last = none ∨ k.warned = true → t.ld x = s.ld x))

/-- The axes' host commands (09 R354, R362, R364, R369, R371, R372, R378, R379), each on both landings and answered DONE: AXE_STOP stops the READY and
the HOMING axes of its mask, AXE_RESUME makes the STOPPING and STOPPED ones READY again, AXE_HOME starts homing, AXE_CLEAR_LIMIT clears a latch
whose input has been clear for 50 ms, AXE_START queues a start, AXE_OFF turns an axis off, AXE_POWER takes a bus's power word. -/
def Obligations.AxisCommands : Prop :=
  ∀ (h : CmdHdr) (mask a input bus l pa r : Nat) (s : State),
    let e := (s.ld s.lead).axe
    let m := (s.ld s.lead).fmn.img
    let now := (advance h.at_ s).nowNs
    (h.may 1 [2, 3, 4, 5] s → (∀ k < 64, bitOf mask k = true → (axeDesc m k).isSome = true) →
      ∃ u : State, exec (.axeStop h mask) s = .next (u.answered h 0x0801 .done []) ∧ u = { s.begun h with a := u.a, b := u.b }
        ∧ ∀ x k, (u.ld x).axe.axis k = if k < 64 ∧ bitOf mask k = true ∧ (((s.ld x).axe.axis k).st = 2 ∨ ((s.ld x).axe.axis k).st = 5) then
            { (s.ld x).axe.axis k with st := 3, stop := 1, phase := 0, replan := false } else (s.ld x).axe.axis k)
    ∧ (h.may 1 [2, 3, 4, 5] s → (∀ k < 64, bitOf mask k = true → ∃ o, axeDesc m k = some o ∧ 2 ≤ (e.axis k).st ∧ (e.axis k).st ≤ 4
          ∧ beyondLimit m e o now (e.axis k) = false ∧ ¬(aFlag m o 1 = true ∧ (e.axis k).stall = true ∧ (e.axis k).referenced = false)) →
      ∃ u : State, exec (.axeResume h mask) s = .next (u.answered h 0x0802 .done []) ∧ u = { s.begun h with a := u.a, b := u.b }
        ∧ ∀ x k, (u.ld x).axe.axis k = if k < 64 ∧ bitOf mask k = true ∧ (((s.ld x).axe.axis k).st = 3 ∨ ((s.ld x).axe.axis k).st = 4) then
            { (s.ld x).axe.axis k with st := 2, stop := 0, replan := true, stall := false } else (s.ld x).axe.axis k)
    ∧ (∀ o, h.may 2 [2, 3, 4, 5] s → axeDesc m a = some o → aStep m o = true → (e.axis a).st = 4 →
        (∀ k ∈ [0x58, 0x59], limitAt m e o k = false ∨ aIn m o k = aRef m o) →
      ∃ u : State, exec (.axeHome h a) s = .next (u.answered h 0x0803 .done []) ∧ u = { s.begun h with a := u.a, b := u.b }
        ∧ ∀ x, (u.ld x).axe.axis a = { (s.ld x).axe.axis a with
            st := 5, phase := 1, replan := true, referenced := false, homeFrom := (((s.ld x).axe.axis a).at_ now).p })
    ∧ (h.may 1 [1, 2, 3, 4, 5] s → input ≤ 63 → Tab.get false e.latched input = true → 50000000 ≤ Tab.get 0 e.clear input * s.tick.period →
      ∃ u : State, exec (.axeClearLimit h input) s = .next (u.answered h 0x0804 .done []) ∧ u = { s.begun h with a := u.a, b := u.b }
        ∧ ∀ x k, Tab.get false (u.ld x).axe.latched k = (Tab.get false (s.ld x).axe.latched k && decide (k ≠ input)))
    ∧ (h.may 1 [2, 3, 4, 5] s → ((axeDesc m a).bind (aBus m)).isSome = true →
      ((e.axis a).st = 0 → ∃ u : State, exec (.axeStart h a) s = .next (u.answered h 0x0805 .done [])
        ∧ ∀ x, ((axeDesc (s.ld x).fmn.img a).bind (aBus (s.ld x).fmn.img)).isSome = true → ((u.ld x).axe.axis a).st = 1
          ∧ (now ≠ s.tickNs x → ((u.ld x).axe.axis a).queued = some ((s.ld x).axe.order, now) ∧ ((u.ld x).axe.axis a).startOk = false
              ∧ (u.ld x).axe.order = (s.ld x).axe.order + 1))
      ∧ ((e.axis a).st ≠ 0 → ∃ u : State, exec (.axeOff h a) s = .next (u.answered h 0x0806 .done [])
        ∧ ∀ x, ((axeDesc (s.ld x).fmn.img a).bind (aBus (s.ld x).fmn.img)).isSome = true → ((u.ld x).axe.axis a).st = 0
          ∧ ((u.ld x).axe.axis a).queued = none ∧ ((u.ld x).axe.axis a).target = none))
    ∧ (h.may 1 [1, 2, 3, 4, 5] s → bus ≤ 3 → l < 2 ^ 32 → pa < 2 ^ 32 → r < 2 ^ 32 →
      ∃ u : State, exec (.axePower h bus l pa r) s = .next (u.answered h 0x0807 .done [])
        ∧ ∀ x, let k := (u.ld x).axe.bus bus
          k.l = l ∧ k.a = pa ∧ k.r = r ∧ k.last = some now ∧ k.stale = false ∧ k.warned = false)

/-! ### The two landings (chapter 10) -/

/-- LEG_REPORT and LEG_VERDICT (10 R393, R397 to R400), with no role change waiting and no manifest change. In the first 3 µs of a leg a landing in
step since the leg before, powered, in the running state, neither halted nor in reset, reports that leg once, with its digest and its
accusation; a report after them does not count. The verdict judges the leg once. With the reports of the active and the standby landing: the
active one fails, and a gap opens until the next leg, when it alone accuses itself, or when the digests differ, neither accuses itself and it
alone is outside its envelope; the standby fails, and leaves its role at the next leg, when it alone accuses itself, or when the digests
differ, neither accuses itself and the active one is not alone outside; differing digests with both accusing bring Adrift from mode 2 on. A
silent active landing fails, and where both are silent no landing is left, which is Adrift from mode 2 on. No role changes at once. -/
def Obligations.LegVerdicts : Prop :=
  ∀ (at_ : Nat) (x : Side) (s : State), s.arb.due = [] →
    let s1 := advance (windowNs s 1500 at_) s
    let s2 := advance (windowNs s 3000 at_) s
    let rep := fun (b : Arbiter) (z : Side) => if z = Side.A then b.repA else b.repB
    (∀ g, s1.legCount = g + 1 → s1.inWindow = true → s.arb.judged ≤ g → s.report x g = none → s.inStep x = true → s.since x ≤ g →
      s.powered x = true → (s.ld x).fmn.halted = false → (s.ld x).slw.inReset = false → (s.ld x).slw.stage = 11 →
      ∃ t : State, exec (.legReport at_ x) s = .next t ∧ t = { s1 with a := t.a, b := t.b, arb := t.arb } ∧ rep t.arb x.other = rep s.arb x.other
        ∧ ∃ r, rep t.arb x = some r ∧ r.leg = g
          ∧ r.digest = legDigest (if g % 8 = 7 then (s.ld x).fmn.crossing - 1 else (s.ld x).fmn.crossing) (g % 8)
              ((s.ld x).items.filter (fun i => i.leg = g))
          ∧ (r.accuse = true ↔ ∃ e ∈ (s.ld x).accused, e.1 = g)
          ∧ (r.halt = true → (t.ld x).fmn.running = false ∧ (t.ld x).fmn.halted = true))
    ∧ (s1.inWindow = false → exec (.legReport at_ x) s = .next (haltDue x s1))
    ∧ (∀ g, s2.legCount = g + 1 → s.arb.judged ≤ g → s.activeSide = some x → s.role x.other = .standby → s.arb.change = none →
      s.since x ≤ g → s.since x.other ≤ g →
      ∃ t : State, exec (.legVerdict at_ none) s = .next t ∧ t.mode = s.mode ∧ t.roleA = s.roleA ∧ t.roleB = s.roleB
        ∧ t.arb.repA = none ∧ t.arb.repB = none ∧ t.arb.judged = g + 1
        ∧ (∀ p q, s.report x g = some p → s.report x.other g = some q → s2.comparing = true →
          let only := outside s2 x p = true ∧ outside s2 x.other q = false
          let quiet := p.accuse = false ∧ q.accuse = false
          (p.digest = q.digest → p.accuse = q.accuse → t.arb.due = [])
          ∧ (p.accuse = true ∧ q.accuse = false ∨ p.digest ≠ q.digest ∧ quiet ∧ only → t.arb.gap = some (x, g + 2))
          ∧ (q.accuse = true ∧ p.accuse = false ∨ p.digest ≠ q.digest ∧ quiet ∧ ¬only →
              t.arb.due = [{ side := x.other, role := .unsync, leg := g + 2 }])
          ∧ (p.digest ≠ q.digest → p.accuse = true → q.accuse = true → t.arb.due = [] ∧ (2 ≤ s.mode → t.arb.adrift = true)))
        ∧ (∀ q, s.report x g = none → s.report x.other g = some q → t.arb.gap = some (x, g + 2))
        ∧ (s.report x g = none → s.report x.other g = none → 2 ≤ s.mode → t.arb.adrift = true))

/-- The arbiter's own moves (10 R400, R405 to R408, R410, R411, 02 R60). FAILOVER_TAKEOVER, at the gap's leg boundary, makes the standby ACTIVE and
the failed landing UNSYNCHRONISED; with no standby left no landing is left. FAILBACK, at the next tick, swaps the roles when it is due and not
held off. RESYNC_FINAL_COPY gives the joining landing the tile and engine registers of the active one, or fails where the copy is too long;
RESYNC_COMPLETE, at the next tick, makes it STANDBY at the active one's crossing. MANIFEST_HANDOVER, at a common tick after the warm-up, makes
the changed landing ACTIVE. CHANGE_CONFIRM_TIMEOUT ends a change not confirmed in time. BANK_WITHDRAW takes one bank out. Each does nothing
when it is not its time. -/
def Obligations.ArbiterMoves : Prop :=
  ∀ (at_ bytes bank : Nat) (s : State),
    let s1 := advance at_ s
    let tick := advance s1.nextTickNs s1
    let guard := advance (s.cutNs s.lead at_) s
    (∀ x leg, s.arb.gap = some (x, leg) → s.arb.change = none →
      ∃ t : State, exec (.failoverTakeover at_) s = .next t ∧ t.arb.gap = none ∧ t.mode = s.mode
        ∧ t.now = (if s1.legCount < leg then advance (s1.legStart + s1.tick.period / 8) s1 else s1).now
        ∧ (s.role x.other = .standby → t.role x = .unsync ∧ t.role x.other = .active ∧ t.arb.failovers = (s.arb.failovers + 1) % 65536)
        ∧ (s.role x.other ≠ .standby → t.roleA = s.roleA ∧ t.roleB = s.roleB ∧ (2 ≤ s.mode → t.arb.adrift = true)))
    ∧ (s.arb.due = [] →
      (failbackDue tick = false ∨ s.mode = 5 ∧ s.arb.returnHeld = true → exec (.failback at_) s = .next tick)
      ∧ (failbackDue tick = true → s.mode ≠ 5 ∨ s.arb.returnHeld = false → ∃ t : State, exec (.failback at_) s = .next t
          ∧ t.role s.arb.preferred = .active ∧ t.role s.arb.preferred.other = .standby ∧ t.mode = s.mode ∧ t.now = tick.now))
    ∧ (∀ r, s.arb.resync = some r →
      let x := r.side.other
      let crossing := (s.ld x).fmn.crossing
      let due := 256 * (dueBlocks (s.ld x)).length + bytes
      (r.copied = false → crossing = r.start + 63 →
        ∃ t : State, exec (.resyncFinalCopy at_ bytes) s = .next t ∧ t.arb.finalKb = (roundDiv (due : Int) 1024).toNat
          ∧ (finalLimit (imgPeriod (s.ld x).fmn.img) < due → t.arb.resync = none ∧ t.arb.resyncFailed = true)
          ∧ (due ≤ finalLimit (imgPeriod (s.ld x).fmn.img) → t.arb.resync = some { r with copied := true }
              ∧ (t.ld r.side).tiles = (s.ld x).tiles ∧ (t.ld r.side).ctl = (s.ld x).ctl ∧ (t.ld r.side).axe = (s.ld x).axe
              ∧ (t.ld r.side).slv = (s.ld x).slv ∧ (t.ld r.side).fus = (s.ld x).fus))
      ∧ (r.copied = true → crossing = r.start + 63 →
        ∃ t : State, exec (.resyncComplete at_) s = .next t ∧ t.role r.side = .standby ∧ t.role x = s.role x ∧ t.arb.resync = none
          ∧ (t.ld r.side).fmn.crossing = crossing ∧ (t.ld r.side).fmn.running = (s.ld x).fmn.running
          ∧ (t.ld r.side).fmn.index = (s.ld x).fmn.index ∧ t.now = tick.now)
      ∧ (crossing ≠ r.start + 63 → exec (.resyncFinalCopy at_ bytes) s = .next guard ∧ exec (.resyncComplete at_) s = .next tick))
    ∧ (∀ c, s.arb.change = some c → s.arb.due = [] →
      (c.stage = 2 → c.warm ≤ c.count → c.count ≠ 0 → s.role c.side = .standby → commonTick tick = true →
        ∃ t : State, exec (.manifestHandover at_) s = .next t ∧ t.role c.side = .active ∧ t.role c.side.other ≠ .active
          ∧ t.arb.change = some { c with stage := 3, side := c.side.other } ∧ t.arb.gap = none ∧ t.mode = s.mode ∧ t.now = tick.now)
      ∧ (c.stage ≠ 2 ∨ c.count < c.warm ∨ commonTick tick = false → exec (.manifestHandover at_) s = .next tick)
      ∧ (c.stage = 0 → c.deadline ≤ s1.nowNs → ∃ t : State, exec (.changeConfirmTimeout at_) s = .next t ∧ t.arb.change = none
          ∧ t.roleA = s.roleA ∧ t.roleB = s.roleB)
      ∧ (c.stage ≠ 0 ∨ s1.nowNs < c.deadline → exec (.changeConfirmTimeout at_) s = .next s1))
    ∧ (∃ t : State, exec (.bankWithdraw at_ bank) s = .next t ∧ t.bank1 = (s.bank1 && decide (bank ≠ 1)) ∧ t.bank2 = (s.bank2 && decide (bank ≠ 2))
        ∧ t.roleA = s.roleA ∧ t.roleB = s.roleB ∧ t.mode = s.mode)

/-- The arbiter's host commands (10 R405, R407 to R410, 12 R474): CBL_OUT_OF_SERVICE takes a STANDBY or UNSYNCHRONISED landing out of service;
CBL_MEMTEST, CBL_RELOAD and CBL_RESYNC start their work on such a landing and are answered later; CBL_HOLD_RETURN holds the return off or lets it
go; CBL_MANIFEST_CHANGE starts a change, which in HOLD waits 60 s for CBL_CONFIRM_CHANGE; CBL_ADRIFT_RELEASE ends Adrift. -/
def Obligations.ArbiterCommands : Prop :=
  ∀ (h : CmdHdr) (side bank warm hold : Nat) (s : State),
    let y := sideOf side
    let cmd := fun op => ({ part := h.part, queue := h.queue, seq := h.seq, op := op } : Pend)
    (h.may 2 [1, 2, 3, 4, 5] s → side ≤ 1 →
      (s.role y = .standby ∨ s.role y = .unsync → ∃ u : State, exec (.cblOutOfService h side) s = .next (u.answered h 0x0D01 .done [])
          ∧ u.role y = .outOfService ∧ u.role y.other = s.role y.other ∧ u.mode = s.mode)
      ∧ (s.role y = .outOfService → (s.ld y).memi.memtest = none →
          exec (.cblMemtest h side) s = .next (((s.begun h).modLd y (fun l =>
            { l with memi := { l.memi with memtest := some (cmd 0x0D02) } })).answered h 0x0D02 .accepted []))
      ∧ (s.role y = .outOfService ∨ s.role y = .unsync → bank ≤ 1 → s.loadOf y = none → (s.ld y).memi.memtest = none →
          ∃ u : State, exec (.cblReload h side bank) s = .next (u.answered h 0x0D03 .accepted [])
            ∧ u.loadOf y = some { kind := 2, bank := bank, cmd := some (cmd 0x0D03) } ∧ (u.ld y).fmn = { (s.ld y).fmn with verifying := true }
            ∧ u.ld y.other = s.ld y.other)
      ∧ (s.role y = .outOfService ∨ s.role y = .unsync → canResync (advance h.at_ s) y = true →
          ∃ u : State, exec (.cblResync h side) s = .next (u.answered h 0x0D04 .accepted [])
            ∧ u.arb.resync = some { side := y, start := (s.ld y.other).fmn.crossing, cmd := some (cmd 0x0D04) }
            ∧ (u.ld y.other).memi.marking = true ∧ (u.ld y).fmn.running = false))
    ∧ (h.may 1 [5] s → hold ≤ 1 → ∃ u : State, exec (.cblHoldReturn h hold) s = .next (u.answered h 0x0D05 .done [])
        ∧ u.arb = { s.arb with returnHeld := decide (hold = 1) })
    ∧ (h.may 2 [1, 2, 3] s → bank ≤ 1 → 1 ≤ warm → warm ≤ 4000 → (s.arb.change = none ∨ ∃ c, s.arb.change = some c ∧ c.stage = 3) →
        freeTo 4 h.part s = true → (s.roleA = .standby ∨ s.roleB = .standby) →
        ∃ u : State, exec (.cblManifestChange h bank warm) s = .next (u.answered h 0x0D06 .accepted [])
          ∧ (∃ c, u.arb.change = some c ∧ c.bank = bank ∧ c.warm = warm ∧ c.stage = (if s.mode = 3 then 0 else 1) ∧ s.role c.side = .standby
              ∧ c.cmd = cmd 0x0D06 ∧ c.deadline = (advance h.at_ s).nowNs + 60000000000)
          ∧ u.hold 4 = some { part := h.part, last := (advance h.at_ s).nowNs } ∧ u.roleA = s.roleA ∧ u.roleB = s.roleB)
    ∧ (∀ c, h.may 1 [3] s → s.arb.change = some c → c.stage = 0 →
        ∃ u : State, exec (.cblConfirmChange h) s = .next (u.answered h 0x0D07 .done []) ∧ u.arb.change = some { c with stage := 1 }
          ∧ u.loadOf c.side = some { kind := 3, bank := c.bank } ∧ (u.ld c.side).fmn.verifying = true)
    ∧ (h.may 1 [2, 3, 4, 5] s → adriftBar (advance h.at_ s) = false →
        ∃ u : State, exec (.cblAdriftRelease h) s = .next (u.answered h 0x0D08 .done []) ∧ u.arb.adrift = false ∧ u.arb.cause = s.arb.cause
          ∧ u.roleA = s.roleA ∧ u.roleB = s.roleB ∧ u.mode = s.mode)

/-! ### Modes, loads and the slipway (chapter 11) -/

/-- DKH_SET_MODE, SLW_LOAD and VERIFICATION_COMPLETE (11 R421 to R424, R428, 02 R95, 04 R178, 10 R409, R410). A request for a mode that its transition allows posts
its mode record, which changes the mode only when it is admitted. SLW_LOAD in BERTH starts a load of the bank on every landing that it reaches.
The end of a verification that belongs to no load does nothing; a reload whose image failed on its way in is answered MEDIA and installs
nothing; one whose image verifies is installed and answered DONE. An image verified for a manifest change starts at the next tick of its landing,
unless its link rates differ from those of the running manifest, which ends the change with STATE. -/
def Obligations.ModesAndLoads : Prop :=
  ∀ (at_ bank received mode flags target : Nat) (north east heading : DWord) (ok : Bool) (x : Side) (h : CmdHdr) (s : State),
    let s1 := advance at_ s
    let sh := advance h.at_ s
    (h.may (if mode = 5 then 2 else 1) [1, 2, 3, 4, 5] s → 1 ≤ mode → mode ≤ 5 → flags ≤ 3 → (bitOf flags 1 = true → target ≤ 255) →
      (bitOf flags 0 = true → headingOk heading = true) → modeAllowed sh mode flags = true → (mode = 1 ∨ adriftBar sh = false) →
      ∃ u : State, exec (.dkhSetMode h mode flags target north east heading) s = .next u ∧ u = { s.begun h with dkh := u.dkh, agree := u.agree }
        ∧ ∃ r : ModeReq, u.dkh.modeReqs = s.dkh.modeReqs ++ [r] ∧ r.mode = mode ∧ r.cause = 0 ∧ r.part = h.part
          ∧ r.bytes.take 6 = [1, BitVec.ofNat 8 mode, BitVec.ofNat 8 s.mode, 0, BitVec.ofNat 8 h.part, BitVec.ofNat 8 flags]
          ∧ u.agree.waiting.map (·.content) = s.agree.waiting.map (·.content) ++ [r.bytes])
    ∧ (h.may 2 [1] s → bank ≤ 1 → s.activeSide ≠ none → s.loadOf .A = none → s.loadOf .B = none → s.arb.change = none →
      ∃ u : State, exec (.slwLoad h bank) s = .next (u.answered h 0x1201 .accepted []) ∧ u = { s.begun h with a := u.a, b := u.b, dkh := u.dkh }
        ∧ ∀ y, u.loadOf y = (if slwTarget s y = true then
              some { kind := 1, bank := bank, cmd := some { part := h.part, queue := h.queue, seq := h.seq, op := 0x1201 } } else none)
          ∧ (u.ld y).fmn = { (s.ld y).fmn with verifying := (s.ld y).fmn.verifying || slwTarget s y })
    ∧ ((∀ q, s.loadOf x = some q → q.bank ≠ bank) → exec (.verificationComplete at_ x bank received ok) s = .next s1)
    ∧ (∀ q c, s.loadOf x = some q → q.bank = bank → q.kind = 2 → q.cmd = some c →
      (ok = false → ∃ u : State, exec (.verificationComplete at_ x bank received ok) s = .next (complete c .media [] false u)
          ∧ u.loadOf x = none ∧ (u.ld x).fmn = { (s.ld x).fmn with verifying := false } ∧ u.ld x.other = s.ld x.other)
      ∧ (ok = true → verify s1 (flashImage (s.ld x) bank) received = none →
          ∃ u : State, exec (.verificationComplete at_ x bank received ok) s = .next (complete c .done [] false u)
            ∧ u.loadOf x = none ∧ (u.ld x).fmn.img = flashImage (s.ld x) bank ∧ (u.ld x).fmn.loaded = true ∧ u.mode = s.mode))
    ∧ (∀ q c, s.loadOf x = some q → q.bank = bank → q.kind = 3 → s.arb.change = some c → c.side = x → ok = true →
      let img := flashImage (s.ld x) bank
      verify s1 img received = none →
      let rest := fun (u : State) => u.loadOf x = none ∧ (u.ld x).fmn.verifying = false ∧ u.mode = s.mode
      (rateChange (s.ld x.other).fmn.img img = true →
        ∃ u : State, exec (.verificationComplete at_ x bank received ok) s = .next (complete c.cmd .state [] false u) ∧ rest u
          ∧ u.arb.change = none ∧ (u.ld x).fmn.next = none)
      ∧ (rateChange (s.ld x.other).fmn.img img = false →
        ∃ u : State, exec (.verificationComplete at_ x bank received ok) s = .next u ∧ rest u
          ∧ u.arb.change = some { c with stage := 2, count := 0 } ∧ (u.ld x).fmn.next = some img
          ∧ (u.ld x).fmn.startAt = some ((s.ld x).fmn.crossing + 1)))

/-- Power-good, starts and roles (11 R430, R431, R434, R437, R440 to R442). POWER_GOOD on a module that runs, or without a good input, does nothing;
with a good one, sound switches and S0 and S1 in their times the module starts, and each landing enters S3 or stays quarantined. LANDING_START whose stages all pass
completes S10; one without a sound firmware copy is a failed start, counted, begun again, and the third in a row is a quarantine. At the
next leg boundary the roles go to the preferred landing and to the other where it holds the same manifest. A stage that overruns fails the
start; a Deckhand core that disagrees or stalls fails a start before S11 and later reports its halt. SLW_RESTART starts a landing outside service again from S3 with its failures forgotten. -/
def Obligations.SlipwayStarts : Prop :=
  ∀ (at_ stage side : Nat) (x : Side) (p : PowerOn) (r : StartRun) (h : CmdHdr) (s : State),
    let s1 := advance at_ s
    let w := (s.ld x).slw
    let fails := fun (t : State) (n : Nat) => (n < 2 → (t.ld x).slw.running = true ∧ (t.ld x).slw.stage = 3 ∧ recByte t x 1 = n + 1)
      ∧ (2 ≤ n → (t.ld x).slw.running = false ∧ (t.ld x).slw.inReset = true ∧ bitOf (recByte t x 4) 5 = true)
    ((s.uptime.isSome = true ∨ (p.goodA = false ∧ p.goodB = false) ∨ p.s0Ok = false ∨ 500000 < p.d0 → exec (.powerGood at_ p) s = .next s1)
      ∧ (s.uptime = none → (p.goodA = true ∨ p.goodB = true) → p.s0Ok = true → p.d0 ≤ 500000 →
        ∃ t : State, exec (.powerGood at_ p) s = .next t ∧ t.uptime.isSome = true ∧ t.log.scanning = false
          ∧ (switchesOk p.switches = false ∨ 50000 < p.d1 → t.dkh.s1 = s.dkh.s1 ∧ ∀ y, (t.ld y).slw = (s.ld y).slw)
          ∧ (switchesOk p.switches = true → p.d1 ≤ 50000 → (p.switches.headD (0, 0)).1 / 256 = 0 → t.dkh.s1 = true
              ∧ t.arb.preferred = (if bitOf (p.switches.headD (0, 0)).1 0 then .B else .A)
              ∧ ∀ y, (t.ld y).slw.running = true ∧ (t.ld y).slw.stage = 3 ∨ t.role y = .quarantined ∧ (t.ld y).slw.inReset = true)))
    ∧ ((w.running = false ∨ w.s10 = true ∨ s.powered x = false → exec (.landingStart at_ x r) s = .next s1)
      ∧ (w.running = true → w.s10 = false → s.powered x = true →
        ∃ t : State, exec (.landingStart at_ x r) s = .next t
          ∧ (2 ≤ r.fw ∨ (∃ e ∈ r.times, e.1 = 3 ∧ 200000 < e.2) → fails t (recByte s x 1))
          ∧ (r.fw ≤ 1 → (∀ e ∈ r.times, ∀ k, stageLimit false e.1 = some k → e.2 ≤ k) → r.fail = none → r.badLines = [] → r.badSpares = [] → r.otherBad = false →
              ofLe (flashBytes (s.ld x) 0x63800000 4) = 0xFFFFFFFF → ofLe (flashBytes (s.ld x) 0x63801000 4) = 0xFFFFFFFF →
              (t.ld x).slw.s10 = true)))
    ∧ (let y := s.arb.preferred
      let there := ready s y.other = true ∧ s.role y.other = .none
      (s.activeSide ≠ none ∨ s.pur.serving = true ∨ ready s y = false → exec (.roleAssignment at_) s = .next s1)
      ∧ (s.activeSide = none → s.pur.serving = false → ready s y = true →
        (∃ t : State, exec (.roleAssignment at_) s = .next t ∧ t.role y = .active ∧ t.now = (advance s1.nextLeg.1 s1).now
          ∧ (there → sameManifest s = true → t.role y.other = .standby) ∧ (there → sameManifest s = false → t.role y.other = .unsync)
          ∧ (¬there → t.role y.other = s.role y.other)))
      ∧ (s.dkh.s1 = false ∨ s.activeSide ≠ none ∨ s.pur.serving = true ∨ s1.nowNs + s.dkh.s0 < 2450000000 →
          exec (.roleDeadline at_) s = .next s1)
      ∧ (s.dkh.s1 = true → s.activeSide = none → s.pur.serving = false → 2450000000 ≤ s1.nowNs + s.dkh.s0 →
        ∃ t : State, exec (.roleDeadline at_) s = .next t ∧ t.dkh.deadline = true
          ∧ (ready s y = true → t.role y = .active) ∧ (ready s y = false → ready s y.other = true → t.role y.other = .active)
          ∧ (ready s y = false → ready s y.other = false → t.roleA = s.roleA ∧ t.roleB = s.roleB)))
    ∧ ((w.running = false ∨ stage < 3 ∨ 11 < stage → exec (.slwStageTimeout at_ x stage) s = .next s1)
      ∧ (w.running = true → 3 ≤ stage → stage ≤ 11 → ∃ t : State, exec (.slwStageTimeout at_ x stage) s = .next t ∧ fails t (recByte s x 1)))
    ∧ (exec (.deckhandLockstepCheck at_ x true) s = .next s1
      ∧ (w.running = true → w.stage < 11 → ∃ t : State, exec (.dkhWatchdog at_ x) s = .next t ∧ fails t (recByte s x 1))
      ∧ (w.running = false ∨ 11 ≤ w.stage → w.inReset = false → s.powered x = true → w.s10 = true →
        exec (.deckhandLockstepCheck at_ x false) s = .next (raise (.landing x) 0x1305 x.num s1)
        ∧ exec (.dkhWatchdog at_ x) s = .next (raise (.landing x) 0x1306 x.num s1)))
    ∧ (let y := sideOf side
      h.may 2 [1, 2, 3, 4, 5] s → side ≤ 1 → (s.role y = .unsync ∨ s.role y = .outOfService ∨ s.role y = .quarantined) →
      s.activeSide = some y.other → s.powered y = true → (s.ld y).slw.running = false →
      ∃ u : State, exec (.slwRestart h side) s = .next (u.answered h 0x1202 .accepted []) ∧ (u.ld y).slw.running = true
        ∧ (u.ld y).slw.stage = 3 ∧ (u.ld y).slw.restarted = true ∧ recByte u y 1 = 0 ∧ (u.ld y).flash = (s.ld y).flash ∧ u.mode = s.mode)

/-! ### Memory integrity (chapter 12) -/

/-- The memory's own work changes no word that a program can read (12 R461, R462, R465 to R467, R471, R472, R474, R477, R479). MERGE_WRITEBACK puts
the bytes of the oldest entry into its word, with that word's poison, and leaves every other word. REMAP gives the oldest candidate line
the lowest free spare, records it, saves the table twice, and every word of the landing reads as before; with no spare free, `MEM_REMAP_FULL`.
SCRUB_LINE goes on to the next line, round again after the last, and every word reads as before. BUCKET_LEAK takes 1 from the level, no
earlier than one leak interval after the leak before. The two
configuration registers take a legal value from the landing's core or an ENGINEER and keep their value otherwise. MEMTEST_COMPLETE of a test
that found nothing leaves every word zero and answers DONE. -/
def Obligations.MemoryIsKept : Prop :=
  ∀ (at_ : Nat) (x : Side) (r : Requester) (v : Word) (s : State),
    let s1 := advance at_ s
    let m := (s.ld x).memi
    let kept := fun (t : State) => t = { s1 with a := t.a, b := t.b, pur := t.pur, log := t.log, lastRaised := t.lastRaised }
      ∧ t.ld x.other = s.ld x.other
    let writes := r = .deckhand x ∨ ∃ p, r = .host p ∧ 2 ≤ (s.part p).level
    (m.merge = [] → exec (.mergeWriteback at_ x) s = .next s1)
    ∧ (∀ e rest, m.merge = e :: rest → e.word % 8 = 0 → memKind e.word ≠ 5 →
      ∃ t : State, exec (.mergeWriteback at_ x) s = .next t ∧ kept t
        ∧ peekWord (t.ld x) e.word = ⟨mergeBytes (peekWord (s.ld x) e.word).v e.data, (peekWord (s.ld x) e.word).p⟩
        ∧ (∀ b, b % 8 = 0 → physical m b ≠ physical m e.word → peekWord (t.ld x) b = peekWord (s.ld x) b)
        ∧ (m.mergeWait = [] → (t.ld x).memi.merge = rest))
    ∧ (let s2 := advance (max at_ (m.leakAt + m.leak * 100000000)) s
      exec (.bucketLeak at_ x) s = .next (s2.modLd x (fun l =>
        { l with memi := { m with level := m.level - 1, armed := m.armed || decide (m.level - 1 < m.threshold / 2), leakAt := s2.nowNs } })))
    ∧ (writes → bits v.toNat 7 0 ≠ 0 → bits v.toNat 23 8 ≠ 0 →
        exec (.memBucketCfg at_ r x v) s = .next (s1.modLd x (fun l =>
          { l with memi := { m with threshold := bits v.toNat 7 0, leak := bits v.toNat 23 8 } })))
    ∧ (bits v.toNat 7 0 = 0 ∨ bits v.toNat 23 8 = 0 → writes → exec (.memBucketCfg at_ r x v) s = .next s1)
    ∧ (writes → bits v.toNat 6 0 ≤ 64 →
        exec (.memScrubCfg at_ r x v) s = .next (s1.modLd x (fun l => { l with memi := { m with rate := bits v.toNat 6 0 } })))
    ∧ (writes → 64 < bits v.toNat 6 0 → exec (.memScrubCfg at_ r x v) s = .next s1)
    ∧ (∀ p, r = .host p → (s.part p).level < 2 → exec (.memBucketCfg at_ r x v) s = .next (hostRefused p s1)
        ∧ exec (.memScrubCfg at_ r x v) s = .next (hostRefused p s1))
    ∧ (m.candidates = [] → ∀ raced ok0 ok1, exec (.remap at_ x raced ok0 ok1) s = .next s1)
    ∧ (∀ line cause rest, m.candidates = (line, cause) :: rest → cause ≠ 5 →
      (freeSpare m = none → ∀ raced ok0 ok1, exec (.remap at_ x raced ok0 ok1) s
        = .next (raise (.landing x) 0x0907 (line % 2 ^ 32) (s1.modLd x (fun l => { l with memi := { m with candidates := rest } }))))
      ∧ (∀ k, freeSpare m = some k → line % 64 = 0 → line < 0x08000000 → remapOf m line = none → m.remap.length < 32 →
        ∃ t : State, exec (.remap at_ x [] true true) s = .next t ∧ kept t ∧ (t.ld x).memi.candidates = rest
          ∧ (t.ld x).memi.remap = m.remap ++ [{ line := some line, spare := k, cause := cause, valid := true, seconds := s1.rtc.seconds }]
          ∧ (∀ b, b % 8 = 0 → b < 2 ^ 33 → peekWord (t.ld x) b = peekWord (s.ld x) b)
          ∧ flashBytes (t.ld x) 0x63800000 0x214 = remapBytes (t.ld x).memi ∧ flashBytes (t.ld x) 0x63801000 0x214 = remapBytes (t.ld x).memi))
    ∧ (m.scrubCarry = 0 → ∀ hard raced, exec (.scrubLine at_ x hard raced) s = .next s1)
    ∧ (0 < m.scrubCarry → ∃ t : State, exec (.scrubLine at_ x [] []) s = .next t ∧ kept t
        ∧ (∀ b, b % 8 = 0 → peekWord (t.ld x) b = peekWord (s.ld x) b)
        ∧ (t.ld x).memi.scrubPos = (if m.scrubPos + 1 < patrolLines then m.scrubPos + 1 else 0)
        ∧ (t.ld x).memi.scrubCarry = m.scrubCarry - 1)
    ∧ (m.memtest = none → ∀ lines spares n, exec (.memtestComplete at_ x lines spares n) s = .next s1)
    ∧ (∀ c, m.memtest = some c → m.candidates = [] →
      ∃ u : State, exec (.memtestComplete at_ x [] [] 0) s = .next (complete c .done (List.replicate 12 0) false u)
        ∧ u = { s1 with a := u.a, b := u.b } ∧ u.ld x.other = s.ld x.other ∧ (u.ld x).memi = { m with memtest := none }
        ∧ ∀ b, b % 8 = 0 → memMapped b = true → peekWord (u.ld x) b = ⟨0, false⟩)

/-! ### The Bollard (chapter 13) -/

/-- EVALUATION_CYCLE, at the end of the running cycle, is safe from every state (13 R486, R487, R488, R504, R505, R510, R511, R522): no cycle runs without a block in force or without a
bank; a cycle leaves no function of types 1 to 5 in RUN whose condition does not hold, drives no channel of a function that is neither in
RUN nor STOPPING nor INACTIVE, of a disabled output, of a bank that is down, or without the field domain, and asks for Adrift exactly while
a flagged function is stopping, stopped or in FAULT, or the switches have changed. Its block and its generation stay. -/
def Obligations.BollardIsSafe : Prop :=
  ∀ (at_ : Nat) (p : BolPins) (s : State),
    (s.bol.live = false ∨ s.bank1 = false ∧ s.bank2 = false → exec (.evaluationCycle at_ p) s = .next (cycleEnd (advance at_ s)))
    ∧ (s.bol.live = true → s.bank1 = true ∨ s.bank2 = true →
      ∃ t : State, exec (.evaluationCycle at_ p) s = .next t
        ∧ t = { cycleEnd (advance at_ s) with bol := t.bol, events := t.events, pur := t.pur, log := t.log }
        ∧ t.bol.cycle = s.bol.cycle + 1 ∧ t.bol.block = s.bol.block ∧ t.bol.gen = s.bol.gen ∧ t.bol.adrift = adriftWanted t.bol
        ∧ (∀ k < 16, 1 ≤ fnType t.bol.block k → fnType t.bol.block k ≤ 5 → (t.bol.fn k).st = 1 → runCond s t.bol k = true)
        ∧ (∀ i < 16, (t.bol.och i).on = true → outEnabled t.bol.block (i / 2) = true ∧ s.sup.field = true ∧ bankUp s (i % 2) = true
            ∧ ∀ k ∈ outNamed t.bol.block (i / 2), (t.bol.fn k).st = 1 ∨ (t.bol.fn k).st = 2 ∨ (t.bol.fn k).st = 4))

/-- The Bollard's other commands (13 R505, R507, R514, R516 to R521, R523, R524). STOP_DELAY_END, when due, stops the function and switches off
every channel of it. An overcurrent latches its channel off. A SAFE_TELEGRAM of a receiving connection with the right check
value and the next sequence numbers is taken and makes the connection HEALTHY; with a wrong check value it is only counted. A timeout
that is due makes a HEALTHY connection FAILED and its data 0. TELEGRAM_TRANSMIT counts one telegram sent, none where the banks disagree.
BOL_WRITE_PARAMS starts the writing of a block that passes its checks; PARAMS_STAGE_COMPLETE puts it into both banks' slots and leaves the
block in force. BOL_ACK turns FAULT into STOPPED for the functions named and for no other. -/
def Obligations.BollardCommands : Prop :=
  ∀ (at_ k o c net seq data status echo r mask : Nat) (block : List Byte) (h : CmdHdr) (s : State),
    let s1 := advance at_ s
    let b := s.bol
    let own := fun (t : State) => t = { s1 with bol := t.bol, events := t.events, pur := t.pur, log := t.log, lastRaised := t.lastRaised }
    let up := b.live = true ∧ (s.bank1 = true ∨ s.bank2 = true)
    ((¬((b.fn k).st = 2 ∧ (b.fn k).stopAt ≤ b.cycle) → exec (.stopDelayEnd at_ k) s = .next s1)
      ∧ ((b.fn k).st = 2 → (b.fn k).stopAt ≤ b.cycle →
        ∃ t : State, exec (.stopDelayEnd at_ k) s = .next t ∧ own t ∧ t.bol.fn k = { b.fn k with st := 0 }
          ∧ (∀ n, n ≠ k → t.bol.fn n = b.fn n) ∧ ∀ i < 16, k ∈ outNamed b.block (i / 2) → (t.bol.och i).on = false))
    ∧ (1 ≤ c → c ≤ 2 →
      (b.live = true → (b.och (2 * o + (c - 1))).on = true →
        ∃ t : State, exec (.safetyOutputOvercurrent at_ o c) s = .next t ∧ own t ∧ t.bol.fns = b.fns
          ∧ (t.bol.och (2 * o + (c - 1))).on = false ∧ (t.bol.och (2 * o + (c - 1))).excess = true
          ∧ (∀ i, i ≠ 2 * o + (c - 1) → t.bol.och i = b.och i) ∧ 0x0E05 ∈ t.pur.alarms)
      ∧ (b.live = false ∨ (b.och (2 * o + (c - 1))).on = false → exec (.safetyOutputOvercurrent at_ o c) s = .next s1))
    ∧ (let d := leBytes 1 1 ++ leBytes 1 1 ++ leBytes 2 (bolNum b.block (bConn c + 2) 2) ++ leBytes 4 seq ++ leBytes 2 data ++ leBytes 1 status
        ++ leBytes 1 0 ++ leBytes 4 echo
      let good := telCrc (telSig b.block c) d
      let q := b.conn c
      let ahead := (seq + 2 ^ 32 - q.seq) % 2 ^ 32
      up → c < 8 → connRx b.block c = true → bitOf (bolNum b.block (bConn c + 1) 1) net = true →
      (∀ n < 8, connRx b.block n = true → bolNum b.block (bConn n + 2) 2 = bolNum b.block (bConn c + 2) 2 → n = c) →
      seq < 2 ^ 32 → data < 65536 → status < 4 → echo < 2 ^ 32 → r < 2 ^ 32 →
      (r ≠ good → ∃ t : State, exec (.safeTelegram at_ net (d ++ leBytes 4 r)) s = .next t ∧ own t
          ∧ (t.bol.conn c).data = q.data ∧ (t.bol.conn c).st = q.st ∧ (t.bol.conn c).crc = satAdd 0xFF q.crc 1)
      ∧ (r = good → (q.got = true → 1 ≤ ahead ∧ ahead ≤ 15) → connTx b.block c = false →
        ∃ t : State, exec (.safeTelegram at_ net (d ++ leBytes 4 r)) s = .next t ∧ own t
          ∧ t.bol.conn c = { q with seq := seq, got := true, last := s1.upNs, data := if status = 0 then data else 0,
                                    st := if q.st ≠ 2 ∧ q.got = true then 2 else q.st })
      ∧ (r = good → q.got = true → ahead = 0 → exec (.safeTelegram at_ net (d ++ leBytes 4 r)) s = .next s1))
    ∧ (let due := b.live = true ∧ connRx b.block c = true ∧ (b.conn c).st = 2
          ∧ (b.conn c).last + bolNum b.block (bConn c + 8) 2 * 1000000 ≤ s1.upNs
      (¬due → exec (.bolTelegramTimeout at_ c) s = .next s1)
      ∧ (due → ∃ t : State, exec (.bolTelegramTimeout at_ c) s = .next t ∧ own t ∧ t.bol.fns = b.fns
          ∧ t.bol.conn c = { b.conn c with st := 3, got := false, data := 0 }))
    ∧ ((¬up ∨ connTx b.block c = false → ∀ same, exec (.telegramTransmit at_ c same) s = .next s1)
      ∧ (up → connTx b.block c = true → s.bank1 = true → s.bank2 = true →
          exec (.telegramTransmit at_ c false) s = .next (raise .cable 0x0E12 (256 + c) s1))
      ∧ (up → connTx b.block c = true → s.activeSide ≠ none →
        ∃ t : State, exec (.telegramTransmit at_ c true) s = .next t
          ∧ t = { s1 with a := t.a, b := t.b, free := s.free + 1, bol := t.bol } ∧ t.bol.fns = b.fns
          ∧ t.bol.conn c = { b.conn c with sent := ((b.conn c).sent + 1) % 2 ^ 32 }))
    ∧ (h.may 3 [1] s → blkFormat block = true → blkCrc block = true → blkRange block = true → bolNum block 6 1 ≠ b.gen → b.writing = none →
      ∃ u : State, exec (.bolWriteParams h block) s = .next (u.answered h 0x0E01 .accepted [])
        ∧ ∃ w, u = { s.begun h with bol := { b with writing := some w } } ∧ w.block = block
          ∧ w.cmd = { part := h.part, queue := h.queue, seq := h.seq, op := 0x0E01 })
    ∧ ((b.writing = none → ∀ p q, exec (.paramsStageComplete at_ p q) s = .next s1)
      ∧ (∀ w, b.writing = some w →
        (s.bank1 = true → s.bank2 = true →
          ∃ u : State, exec (.paramsStageComplete at_ true true) s = .next (complete w.cmd .done [] false u) ∧ u.bol.writing = none
            ∧ u.bol.slot 0 w.slot1 = w.block ∧ u.bol.slot 1 w.slot2 = w.block
            ∧ u.bol.block = b.block ∧ u.bol.gen = b.gen ∧ u.bol.fns = b.fns)
        ∧ (∃ u : State, exec (.paramsStageComplete at_ false true) s = .next (complete w.cmd .media [] false u)
            ∧ u.bol.block = b.block ∧ u.bol.gen = b.gen ∧ u.bol.writing = none)))
    ∧ (h.may 2 [1, 2, 3, 4, 5] s → mask < 65536 →
      (∀ n < 16, bitOf mask n = true → (b.fn n).st = 3 ∧ causeRemains s b n = false) →
      ∃ u : State, exec (.bolAck h mask) s = .next (u.answered h 0x0E02 .done [])
        ∧ u = { s.begun h with bol := u.bol, events := u.events, pur := u.pur, log := u.log }
        ∧ (∀ n < 16, bitOf mask n = true → (u.bol.fn n).st = 0) ∧ (∀ n < 16, bitOf mask n = false → u.bol.fn n = b.fn n))

/-! ### CAN (chapter 14) -/

/-- Frames on the CAN ports (14 R541 to R548, 10 R394). CAN_SEND, as its dispatch entry, from clean memory: a malformed item is reported and sent
nowhere; an item of a landing whose outputs do not pass only enters its digest; an item of the other one, outside the compare window, waits in
its empty buffer on both landings. CAN_FRAME_RECEIVED off the bus does nothing; a frame that a mailbox takes lies in it, stamped; one that none
takes is counted as dropped. CAN_FRAME_SENT of a pending frame counts it as sent and frees its buffer for the frame that waits behind it. -/
def Obligations.CanFrames : Prop :=
  ∀ (at_ p job cyc b : Nat) (inTx : Bool) (x : Side) (f : CanFrame) (s : State),
    let s1 := advance at_ s
    let m := (s.ld x).fmn.img
    let q := (s.ld x).can.port p
    let freed := fun (z : CanCtl) => ∀ n < 16, Tab.get none z.pend n = (Tab.get none q.next n).orElse (fun _ => Tab.get none q.pend n)
    (∀ e, entryFor (s.ld x).fmn 10 1 (some job) (some cyc) = some e →
      let s0 := markIssued x e s1
      let cycle := cyc + 24
      let w := (peekWord (s.ld x) (canBuffer job)).v.toNat
      let ws := (memReadN x (canBuffer job) (1 + (if bitOf w 19 then 0 else (min 64 (bits w 31 24) + 7) / 8)) s0).1
      let ok := canHeadOk m (bits w 7 0) (bits w 15 8) (bits w 23 16) (bits w 31 24) (bits w 63 32) && bits w 7 0 == job / 16
        && padZero (bitOf w 19) (bits w 31 24) (ws.drop 1)
      let c := frameOf (ofWords ws)
      (s.ld x).syn = [] → job < 128 →
      (ok = false → exec (.canSend at_ x job cyc inTx) s
        = .next (keepUndo x e (s.ld x) (raisePerSecond (.landing x) 0x0A07 (job / 16) (job / 16) s0)))
      ∧ (ok = true → s.passes x = false →
        ∃ t i, exec (.canSend at_ x job cyc inTx) s = .next (keepUndo x e (s.ld x) t)
          ∧ t = s0.modLd x (fun l => { l with items := l.items ++ [i] })
          ∧ i.port = 0x26 ∧ i.words = ws ∧ i.cycle = cycle ∧ i.leg = s1.legOf cycle)
      ∧ (ok = true → s.passes x = true → s.arb.adrift = false → 2400 ≤ cycle % max 1 (s.tick.period / 10) →
        (s.canPort (job / 16)).isolated = false → (s.canPort (job / 16)).off = 0 → idKey c.frame ∉ (s.canPort (job / 16)).supp →
        Tab.get none ((s.ld x).can.port (job / 16)).pend (job % 16) = none →
        ∃ t : State, exec (.canSend at_ x job cyc inTx) s = .next (keepUndo x e (s.ld x) t) ∧ t = { s0 with a := t.a, b := t.b }
          ∧ ∀ y, Tab.get none ((t.ld y).can.port (job / 16)).pend (job % 16) = some c ∧ (t.ld y).mem = (s.ld y).mem))
    ∧ (canOnBus s x p = false → exec (.canFrameReceived at_ x p f) s = .next s1 ∧ exec (.canFrameSent at_ x p f) s = .next s1)
    ∧ (canOnBus s x p = true → canSends s x p = false → ownBuffer q f = none →
      (∀ k, (List.range 64).find? (fun n => mailboxTakes m p n f false) = some k →
        ∃ t : State, exec (.canFrameReceived at_ x p f) s = .next t
          ∧ peekBytes (t.ld x) (canMailbox p k) 16 = leBytes 8 s1.nowNs ++ (canContent f k none).take 8
          ∧ freed ((t.ld x).can.port p) ∧ ((t.ld x).can.port p).dropped = q.dropped ∧ t.ld x.other = s.ld x.other)
      ∧ ((List.range 64).find? (fun n => mailboxTakes m p n f false) = none →
        ∃ t : State, exec (.canFrameReceived at_ x p f) s = .next t ∧ freed ((t.ld x).can.port p)
          ∧ t = s1.modCan x p (fun c => { c with pend := ((t.ld x).can.port p).pend, next := [], dropped := satAdd 0xFFFF q.dropped 1 })))
    ∧ (∀ c, canOnBus s x p = true → ownBuffer q f = some (b, c) →
      ∃ t : State, exec (.canFrameSent at_ x p f) s = .next t ∧ ((t.ld x).can.port p).sent = satAdd 0xFFFF q.sent 1
        ∧ Tab.get none ((t.ld x).can.port p).pend b = Tab.get none q.next b ∧ (canSends s x p = false → t.ld x.other = s.ld x.other)
        ∧ t.canRec = s.canRec)

/-- Errors, the time master and the commands of the CAN ports (14 R549 to R558). CAN_BUS_ERROR counts the error by its type; a transmit error
that lifts the transmit counter above 255 makes the port bus-off and clears its pending frames. BUS_OFF_RECOVERY ends it with counters at
0. REFERENCE_MESSAGE of a port that can send the message due counts it, once, and records its bytes; one not sent when the next is due is given
up with `CAN_REF_LATE`. CAN_ISOLATE,
CAN_RESTORE, CAN_BUS_ON and CAN_RELEASE_ID change their port record, each answered DONE. -/
def Obligations.CanControl : Prop :=
  ∀ (at_ p sof id : Nat) (ext : Bool) (x : Side) (e : CanErr) (h : CmdHdr) (s : State),
    let s1 := advance at_ s
    let q := (s.ld x).can.port p
    let r := s.canPort p
    (canOnBus s x p = false → exec (.canBusError at_ x p e) s = .next s1)
    ∧ (canOnBus s x p = true → ∃ t : State, exec (.canBusError at_ x p e) s = .next t
        ∧ (let z := (t.ld x).can.port p
          z.bit = satAdd 0xFF q.bit (b2n (e.typ = 1)) ∧ z.stuff = satAdd 0xFF q.stuff (b2n (e.typ = 2))
            ∧ z.crc = satAdd 0xFF q.crc (b2n (e.typ = 3 || e.typ = 4)) ∧ z.ack = satAdd 0xFF q.ack (b2n (e.typ = 5)) ∧ z.last = e.typ % 8
            ∧ (canSends s x p = false → z.tec = q.tec ∧ z.rec_ = q.rec_ ∧ z.pend = q.pend ∧ t.canRec = s.canRec))
        ∧ (∀ n, canSends s x p = true → e.tx = some n → e.exempt = false → e.typ ≠ 5 ∨ e.dominant = true ∨ q.passive = false →
            247 < q.tec → ((t.canPort p).off = 2 ∨ (t.canPort p).off = 3) ∧ 0x0A03 ∈ t.pur.alarms
              ∧ ∀ y, ((t.ld y).can.port p).pend = [] ∧ ((t.ld y).can.port p).next = []))
    ∧ ((r.off ≠ 2 ∨ s.activeSide = none → exec (.busOffRecovery at_ p) s = .next s1)
      ∧ (∀ y, s.activeSide = some y → canOnBus s y p = false → exec (.busOffRecovery at_ p) s = .next s1)
      ∧ (∀ y, r.off = 2 → s.activeSide = some y → canOnBus s y p = true →
        ∃ t : State, exec (.busOffRecovery at_ p) s = .next t ∧ t.canPort p = { r with off := 0, disc := true }
          ∧ ∀ y, ((t.ld y).can.port p).tec = 0 ∧ ((t.ld y).can.port p).rec_ = 0 ∧ ((t.ld y).can.port p).passive = false))
    ∧ ((refDue s1 p = none → exec (.referenceMessage at_ p sof) s = .next s1 ∧ exec (.canRefLate at_ p) s = .next s1)
      ∧ (∀ y d k, refDue s1 p = some (y, d, k) →
        (k < r.refDone ∨ canSends s y p = false ∨ canOnBus s y p = false ∨ s.passes y = false →
          exec (.referenceMessage at_ p sof) s = .next s1)
        ∧ (r.refDone ≤ k → canSends s y p = true → canOnBus s y p = true → s.passes y = true →
          ∃ t : State, exec (.referenceMessage at_ p sof) s = .next t
            ∧ t.canPort p = { r with disc := false, cycle := k % 64, refDisc := r.disc, refSent := (r.refSent + 1) % 65536,
                                     ref := refBytes k r.disc sof, refDone := k + 1 }
            ∧ t.mode = s.mode ∧ ∀ n, n ≠ p → t.canPort n = s.canPort n)
        ∧ (r.refDone < k → exec (.canRefLate at_ p) s
            = .next (raise (.landing y) 0x0A0B p (s1.modCanPort p (fun c => { c with refDone := k }))))
        ∧ (k ≤ r.refDone → exec (.canRefLate at_ p) s = .next s1)))
    ∧ (canConfigured s p = true →
      (h.may 2 [1, 2, 3, 4, 5] s → r.isolated = false →
        ∃ u : State, exec (.canIsolate h p) s = .next (u.answered h 0x0A01 .done []) ∧ u.canPort p = { r with isolated := true }
          ∧ (∀ n, n ≠ p → u.canPort n = s.canPort n) ∧ ∀ y, ((u.ld y).can.port p).pend = [] ∧ ((u.ld y).can.port p).next = [])
      ∧ (h.may 2 [1, 2, 3, 4, 5] s → r.isolated = true →
        ∃ u : State, exec (.canRestore h p) s = .next (u.answered h 0x0A02 .done [])
          ∧ u.canPort p = { r with isolated := false, off := 0, disc := true } ∧ (∀ n, n ≠ p → u.canPort n = s.canPort n)
          ∧ ∀ y, ((u.ld y).can.port p).tec = 0 ∧ ((u.ld y).can.port p).rec_ = 0)
      ∧ (h.may 1 [1, 2, 3, 4, 5] s → r.off = 3 → canFlag (s.ld s.lead).fmn.img p 1 = true →
        exec (.canBusOn h p) s = .next (((s.begun h).modCanPort p (fun k => { k with off := 2 })).answered h 0x0A03 .done []))
      ∧ (h.may 1 [1, 2, 3, 4, 5] s → id < 2 ^ 29 → id + b2n ext * 2 ^ 29 ∈ r.supp →
        exec (.canReleaseId h p id ext) s = .next (((s.begun h).modCanPort p (fun k =>
          { k with supp := k.supp.filter (fun n => n ≠ id + b2n ext * 2 ^ 29) })).answered h 0x0A04 .done [])))

/-! ### Ship networks and network time (chapter 15) -/

/-- Frames on the networks (15 R572 to R583, 10 R394). ETH_SEND, as its dispatch entry, from clean memory: a malformed item is reported and sent
nowhere; an item of a landing whose outputs do not pass only enters its digest; the other's immediate frame, outside the compare window, joins
the queue of every port that it names. LINK_CHANGE changes the link bit; LANE_BYPASS follows the landing's condition; both report it. A frame that fails its check is counted and goes no further; a sound one that is
neither for the module, nor link-local, nor a pause frame is forwarded to the other port of its network. LAUNCH takes a due launch frame,
then a transit frame, then an immediate one, on a port that is free. MATCH, as its dispatch entry, accepts the one new copy of a command of an unpaired partition, keeps that of a paired one,
and accepts a pair of equal copies once. -/
def Obligations.NetworkFrames : Prop :=
  ∀ (at_ p job cyc sfd : Nat) (up closed : Bool) (x : Side) (f : EthRx) (s : State),
    let s1 := advance at_ s
    let m := (s.ld x).fmn.img
    let e := (s.ld x).eth
    let k := e.port p
    let on := ethOn s x = true ∧ p < 4
    (∀ n0, entryFor (s.ld x).fmn 11 1 (some job) (some cyc) = some n0 →
      let s0 := markIssued x n0 s1
      let cycle := cyc + 64 + (sendBytes m (s.ld x).fmn.pattern job + 7) / 8
      let hd := ofWords (memReadN x (ethBuffer job) 2 s0).1
      let ws := (memReadN x (ethBuffer job) (2 + (min 1520 (ofLe ((hd.drop 4).take 2)) + 7) / 8) s0).1
      let d := ofWords ws
      let num := fun (o n : Nat) => ofLe ((d.drop o).take n)
      let ok := ethItemOk m job (s.tickNs x + cycle * 5 / 4) d
      (s.ld x).syn = [] →
      (ok = false → exec (.ethSend at_ x job cyc) s = .next (keepUndo x n0 (s.ld x) (raisePerCrossing x 0x0B06 job 0 s0)))
      ∧ (ok = true → s.passes x = false →
        ∃ t i, exec (.ethSend at_ x job cyc) s = .next (keepUndo x n0 (s.ld x) t) ∧ t = s0.modLd x (fun l => { l with items := l.items ++ [i] })
          ∧ i.port = 0x27 ∧ i.words = ws ∧ i.cycle = cycle ∧ i.leg = s1.legOf cycle)
      ∧ (ok = true → s.passes x = true → s.arb.adrift = false → 2400 ≤ cycle % max 1 (s.tick.period / 10) → bitOf (num 3 1) 0 = false →
        ∃ t : State, exec (.ethSend at_ x job cyc) s = .next (keepUndo x n0 (s.ld x) t) ∧ t = { s0 with a := t.a, b := t.b } ∧ t.ld x.other = s.ld x.other
          ∧ (t.ld x).mem = (s.ld x).mem
          ∧ (∀ n ∈ egressPorts (num 1 1) (num 2 1), (e.port n).imm.length < 32 →
              ((t.ld x).eth.port n).imm = (e.port n).imm ++ [{ bytes := padFrame (fPut ((d.drop 0x10).take (num 4 2)) 6 (ownAddr m)),
                                                               tb := if bitOf (num 3 1) 1 then some (num 3 1 / 4 % 4) else none }])
          ∧ (∀ n, n ∉ egressPorts (num 1 1) (num 2 1) → (t.ld x).eth.port n = e.port n)))
    ∧ ((bitOf e.links p = up ∨ 4 ≤ p → exec (.linkChange at_ x p up) s = .next s1)
      ∧ (bitOf e.links p ≠ up → p < 4 → ∃ t n, exec (.linkChange at_ x p up) s = .next t
          ∧ t = raise (.landing x) (if up then 0x0B02 else 0x0B01) p (s1.modEth x (fun g => { g with links := n }))
          ∧ ∀ i, bitOf n i = if i = p then up else bitOf e.links i))
    ∧ ((e.bypass = closed ∨ lanesJoin s x ≠ closed → exec (.laneBypass at_ x closed) s = .next s1)
      ∧ (e.bypass ≠ closed → lanesJoin s x = closed → exec (.laneBypass at_ x closed) s
          = .next (raise (.landing x.other) 0x0B03 (b2n closed) (s1.modEth x (fun g => { g with bypass := closed })))))
    ∧ ((¬on → exec (.ethFrameReceived at_ x p f) s = .next s1)
      ∧ (on → f.ok = false ∨ f.bytes.length < 60 ∨ 1518 < f.bytes.length →
        ∃ t : State, exec (.ethFrameReceived at_ x p f) s = .next t ∧ t.agree = s.agree
          ∧ (t.ld x).eth = { e with ports := (t.ld x).eth.ports } ∧ (∀ n, n ≠ p → (t.ld x).eth.port n = e.port n)
          ∧ (t.ld x).eth.port p = { k with rx := satAdd 0xFFFF k.rx 1, rxErr := satAdd 0xFFFF k.rxErr 1 })
      ∧ (on → f.ok = true → 60 ≤ f.bytes.length → f.bytes.length ≤ 1518 → etherType f.bytes ≠ 0x8808 → f.bytes.take 6 ≠ peerAddr →
        f.bytes.take 6 ≠ ownAddr m →
        let out := if p % 2 = 0 then p + 1 else p - 1
        (e.port out).transit.foldl (fun n g => n + g.bytes.length) 0 + f.bytes.length ≤ 32768 →
        ∃ t : State, exec (.ethFrameReceived at_ x p f) s = .next t
          ∧ (∃ g, ((t.ld x).eth.port out).transit = (e.port out).transit ++ [g] ∧ g.bytes = f.bytes)
          ∧ (fBytes f.bytes 6 6 = ownAddr m → t.agree = s.agree) ∧ t.ld x.other = s.ld x.other))
    ∧ (s.pur.outbox = [] →
      (ethOn s x = false ∨ bitOf e.links p = false ∨ s1.nowNs < k.busy ∨ k.launch = [] ∧ k.transit = [] ∧ k.imm = [] → exec (.launch at_ x p sfd) s = .next s1)
      ∧ (∀ g rest, ethOn s x = true → bitOf e.links p = true → k.busy ≤ s1.nowNs →
        let sent := fun (z : EthPort) => z.tx = satAdd 0xFFFF k.tx 1 ∧ z.wire = wireBytes s1 x p sfd g
        (k.launch = g :: rest → g.launch.getD 0 ≤ s1.nowNs → s1.nowNs ≤ g.launch.getD 0 + lateNs m →
          ∃ t : State, exec (.launch at_ x p sfd) s = .next t ∧ sent ((t.ld x).eth.port p) ∧ ((t.ld x).eth.port p).launch = rest
            ∧ ((t.ld x).eth.port p).transit = k.transit ∧ ((t.ld x).eth.port p).imm = k.imm)
        ∧ (k.launch = [] → k.transit = g :: rest →
          ∃ t : State, exec (.launch at_ x p sfd) s = .next t ∧ sent ((t.ld x).eth.port p) ∧ ((t.ld x).eth.port p).transit = rest
            ∧ ((t.ld x).eth.port p).imm = k.imm)
        ∧ (k.launch = [] → k.transit = [] → k.imm = g :: rest →
          ∃ t : State, exec (.launch at_ x p sfd) s = .next t ∧ sent ((t.ld x).eth.port p) ∧ ((t.ld x).eth.port p).imm = rest)))
    ∧ (∀ n0, entryFor (s.ld x).fmn 11 2 none none = some n0 →
      let s0 := markIssued x n0 s1
      let old := e.decided.filter (fun d => s.tickNs x ≤ d.2.2 + secNs)
      let cs := (s.ld x).fmn.admitted.filterMap (copyOf m)
      (cs = [] → e.copies = [] → exec (.match_ at_ x) s
        = .next (keepUndo x n0 (s.ld x) (s0.modEth x (fun g => { g with accepted := [], decided := old }))))
      ∧ (∀ c, cs = [c] → x = s.lead → (∀ z, (s.part c.part).bound = some z → z = c.src) →
        (∀ d ∈ old, ¬(d.1 = c.part ∧ d.2.1 = c.seq)) → (s.cq c.part c.pend.queue).outstanding < 16 →
        (e.copies = [] → netPaired m c.part = false →
          ∃ t : State, exec (.match_ at_ x) s = .next (keepUndo x n0 (s.ld x) t) ∧ (t.ld x).eth.accepted = [c] ∧ (t.ld x).eth.copies = []
            ∧ (t.cq c.part c.pend.queue).outstanding = (s.cq c.part c.pend.queue).outstanding + 1)
        ∧ (e.copies = [] → netPaired m c.part = true → s.tickNs x ≤ c.stamp + 20000000 + 2 * (s.grid x).period →
          exec (.match_ at_ x) s
            = .next (keepUndo x n0 (s.ld x) (s0.modEth x (fun g => { g with accepted := [], decided := old, copies := [c] }))))
        ∧ (∀ d, e.copies = [d] → d.part = c.part → d.seq = c.seq → d.net ≠ c.net → d.bytes = c.bytes → c.stamp ≤ d.stamp + 20000000 →
          d.stamp ≤ c.stamp + 20000000 →
          ∃ t : State, exec (.match_ at_ x) s = .next (keepUndo x n0 (s.ld x) t) ∧ (t.ld x).eth.accepted = [c] ∧ (t.ld x).eth.copies = []
            ∧ (t.ld x).eth.paired = satAdd 0xFF e.paired 1
            ∧ (t.cq c.part c.pend.queue).outstanding = (s.cq c.part c.pend.queue).outstanding + 1)))

/-- The messages of network time (15 R589 to R592). PDELAY_REQUEST on a peer-to-peer port asks with the next sequence number; SYNC_RECEIVED that a
slave time base takes restarts its timeout and its lock; a time base without a Sync for its timeout goes from LOCKED to HOLDOVER; a master
time base counts its messages; a slave's delay request takes the last round trip. Each leaves a port or a time base of another kind as it is.

The reference and steps of module time (15 R585 to R587, R594). A reference measured good is slewed to, a bad one ends its command with RANGE;
at lock the change is DONE; a lost external reference is held, and then the crystal is taken. ETH_SET_REFERENCE starts a change.
ETH_STEP_TIME moves module time and the tick by the step alike, leaves the uptime and every memory but the fusion record, which is at
level F4, and leaves the fusion engines without a position. -/
def Obligations.NetworkAndReferenceTime : Prop :=
  (∀ (at_ p b rx ident : Nat) (x : Side) (tm : Int) (trip : Option Int) (s : State),
     let s1 := advance at_ s
     let m := (s.ld s.lead).fmn.img
     let k := (s.ld x).eth.port p
     let t0 := s.tb b
     let others := fun (t : State) => ∀ n, n ≠ b → t.tb n = s.tb n
     let on := ethOn s x = true ∧ p < 4 ∧ netP2p (s.ld x).fmn.img (p / 2) = true
     ((¬on → exec (.pdelayRequest at_ x p) s = .next s1)
       ∧ (on → ∃ t : State, exec (.pdelayRequest at_ x p) s = .next t ∧ t.ld x.other = s.ld x.other ∧ t.mode = s.mode
           ∧ let z := (t.ld x).eth.port p
             z.seq = (k.seq + 1) % 65536 ∧ z.asked = true ∧ z.t1 = none ∧ z.miss = (if k.asked then k.miss + 1 else 0)
               ∧ z.delay = k.delay ∧ z.transit = k.transit ∧ z.launch = k.launch ∧ (k.imm.length < 32 → z.imm.length = k.imm.length + 1)))
     ∧ ((syncTaken s1 b p ident = false → exec (.syncReceived at_ b p rx tm ident) s = .next s1)
       ∧ (syncTaken s1 b p ident = true → ∃ t : State, exec (.syncReceived at_ b p rx tm ident) s = .next t ∧ others t
           ∧ (t.tb b).lastSync = s1.nowNs ∧ (t.tb b).master = ident + 1
           ∧ (t0.state = 1 → (t.tb b).state = 1 ∨ (t.tb b).state = 2 ∧ 7 ≤ t0.run)
           ∧ (t0.state = 2 → (t.tb b).state = 2 ∧ (t.tb b).t = rx) ∧ (t0.state = 3 → (t.tb b).state = 2 ∧ (t.tb b).r = 0 ∧ (t.tb b).t = rx)))
     ∧ (let due := t0.state = 2 ∧ t0.lastSync + le m (tbDesc m b + 6) 2 * 1000000 ≤ s1.nowNs
       (due → exec (.ethTbLost at_ b) s
         = .next (raise .cable 0x0B0F b (s1.modTb b (fun t => { t with state := 3, master := 0, run := 0 }))))
       ∧ (¬due → exec (.ethTbLost at_ b) s = .next s1))
     ∧ (tbRole m b ≠ 2 ∨ 4 ≤ b → ∀ ann, exec (.masterMessageTransmit at_ b ann) s = .next s1)
     ∧ (tbRole m b = 2 → b < 4 →
       (∃ t : State, exec (.masterMessageTransmit at_ b true) s = .next t ∧ others t ∧ t.tb b = { t0 with seqa := (t0.seqa + 1) % 65536 }
         ∧ (s.activeSide = none ∨ s.arb.gap ≠ none → t = { s1 with tbs := t.tbs }))
       ∧ (∃ t : State, exec (.masterMessageTransmit at_ b false) s = .next t ∧ others t ∧ t.tb b = { t0 with seqs := (t0.seqs + 1) % 65536 }
         ∧ (s.activeSide = none ∨ s.arb.gap ≠ none → t = { s1 with tbs := t.tbs })))
     ∧ (tbRole m b ≠ 1 ∨ 4 ≤ b → exec (.delayReqTransmit at_ b trip) s = .next s1)
     ∧ (tbRole m b = 1 → b < 4 →
       ∃ t : State, exec (.delayReqTransmit at_ b trip) s = .next t ∧ others t
         ∧ t.tb b = { t0 with seqd := (t0.seqd + 1) % 65536, trips := trip.elim t0.trips (fun d => (d :: t0.trips).take 8) }))
  ∧ (∀ (at_ step : Nat) (ext : Bool) (h : CmdHdr) (s : State),
       let s1 := advance at_ s
       let r := s.ref
       (exec (.referenceMeasured at_ true) s
           = .next { s1 with sup := { s.sup with refPresent := true }, ref := { r with state := if r.state = 1 then 2 else r.state } })
       ∧ (r.state ≠ 1 → exec (.referenceMeasured at_ false) s = .next s1)
       ∧ (∀ c, r.state = 1 → r.boot = false → r.cmd = some c →
           exec (.referenceMeasured at_ false) s
             = .next (complete c .range [] false { s1 with ref := { r with state := 0, target := r.ext, cmd := none } }))
       ∧ (r.state ≠ 2 → exec (.referenceLock at_) s = .next s1)
       ∧ (∀ c, r.state = 2 → r.cmd = some c →
         ∃ u : State, exec (.referenceLock at_) s = .next (complete c .done [] false u)
           ∧ u.ref = { ext := r.target, state := 0, target := r.target, cmd := none, boot := false }
           ∧ le u.rtc.mem 0x60 4 = b2n r.target ∧ u.now = s1.now)
       ∧ (exec (.referenceHoldEnd at_) s = .next { s1 with
           ref := { r with state := if r.state = 3 then 2 else r.state, target := if r.state = 3 then false else r.target } })
       ∧ (∀ c, r.state = 1 → r.boot = false → r.cmd = some c → exec (.ethRefLost at_) s = .next (complete c .range [] false
           { s1 with sup := { s.sup with refPresent := false }, ref := { r with state := 0, target := r.ext, cmd := none } }))
       ∧ (r.ext = false → r.state ≠ 1 → exec (.ethRefLost at_) s = .next { s1 with sup := { s.sup with refPresent := false } })
       ∧ (r.ext = true → r.state ≠ 1 → exec (.ethRefLost at_) s
           = .next (raise .cable 0x0B0C 0 { s1 with sup := { s.sup with refPresent := false }, ref := { r with state := 3 } }))
       ∧ (h.may 2 [1, 2, 3, 4, 5] s → r.ext ≠ ext → r.state = 0 →
         ∃ u : State, exec (.ethSetReference h ext) s = .next (u.answered h 0x0B01 .accepted [])
           ∧ u = { s.begun h with ref := u.ref } ∧ u.ref.ext = r.ext ∧ u.ref.target = ext ∧ u.ref.state = (if ext then 1 else 2))
       ∧ (h.may 2 [1] s → 1 ≤ step → step ≤ 2 ^ 62 →
         ∃ u : State, exec (.ethStepTime h step) s = .next (u.answered h 0x0B02 .done [])
           ∧ u.now = (s.begun h).now + step * nsUnit ∧ u.tick.last = s.tick.last + step * nsUnit ∧ u.uptime = (s.begun h).uptime
           ∧ u.rtc = (s.begun h).rtc ∧ u.mode = s.mode
           ∧ ∀ x, (∀ a, a < 0x30054100 ∨ 0x300541A0 ≤ a → peekByte (u.ld x) a = peekByte (s.ld x) a) ∧ peekByte (u.ld x) 0x3005410C = 4
             ∧ (u.ld x).fus.posInit = false ∧ (u.ld x).fus.headInit = false ∧ (u.ld x).fmn = (s.ld x).fmn))

/-! ### Host partitions, the Tollhouse and flash (chapter 16) -/

/-- Queues of the host partitions (16 R612 to R616, R619, R620, R625, R644). A doorbell of a port partition posts one arrival record for each descriptor
up to the new tail, is refused whole where the tail is no entry boundary, and does nothing for a network partition. A legal head write frees
the entries before it, another is refused. EVENT_ENTRY_WRITE puts the oldest waiting entry, with the next sequence number, at the tail of the
ring of every landing in step. QUEUE_MOVE_COMPLETE copies every moved ring to its new base and answers DONE. A hold unused for 60 s is
released. -/
def Obligations.PartitionQueues : Prop :=
  ∀ (at_ p q n res : Nat) (s : State),
    let s1 := advance at_ s
    let idx := n % 2 ^ 20
    let c := s.cq p q
    let e := s.eq p q
    (4 ≤ p → exec (.doorbell at_ p q n) s = .next s1 ∧ exec (.eventHeadWrite at_ p q n) s = .next s1)
    ∧ (p < 4 → queueMoving s p false q = false →
      (idx % 8 ≠ 0 ∨ ringSize c.k ≤ idx → exec (.doorbell at_ p q n) s = .next (portFormat p s1))
      ∧ (∀ ds, idx % 8 = 0 → idx < ringSize c.k → walkRing (s.ld s.lead) (queueBase s p false q) (ringSize c.k) idx 19 c.tail = .ok ds →
        (16 < c.outstanding + ds.length → exec (.doorbell at_ p q n) s = .next (portError p errQueueFull s1))
        ∧ (c.outstanding + ds.length ≤ 16 →
          ∃ t : State, exec (.doorbell at_ p q n) s = .next t ∧ t = { s1 with agree := t.agree, pur := t.pur }
            ∧ t.cq p q = { c with tail := idx, head := idx, outstanding := c.outstanding + ds.length }
            ∧ t.agree.waiting.map (·.content) = s.agree.waiting.map (·.content)
                ++ ds.map (fun d => peekBytes (s.ld s.lead) (queueBase s p false q + d.1) d.2))))
    ∧ (p < 4 → queueMoving s p false q = true →
        exec (.doorbell at_ p q n) s = .next (s1.modCq p q (fun k => { k with heldTail := some n })))
    ∧ (p < 4 →
      (∀ k, boundaryIn idx e.tail (unreadOf e) 0 = some k →
        exec (.eventHeadWrite at_ p q n) s = .next (s1.modEq p q (fun w => { w with head := idx, unread := w.unread - k })))
      ∧ (boundaryIn idx e.tail (unreadOf e) 0 = none → exec (.eventHeadWrite at_ p q n) s = .next (portFormat p s1)))
    ∧ (queueMoving s p true q = true ∨ e.waiting = [] → exec (.eventEntryWrite at_ p q) s = .next s1)
    ∧ (∀ v rest, p < 4 → q < 4 → s.pur.move = none → areaBytes s ≤ 0x200000 → e.waiting = v :: rest → e.lost = 0 → e.tail % 8 = 0 →
      let b := entryBytes v e.nextSeq
      b.length ≤ ringFree e → e.tail + b.length ≤ ringSize e.k →
      ∃ t : State, exec (.eventEntryWrite at_ p q) s = .next t ∧ (t.eq p q).waiting = rest ∧ (t.eq p q).nextSeq = (e.nextSeq + 1) % 2 ^ 32
        ∧ (t.eq p q).tail = (e.tail + b.length) % ringSize e.k ∧ (t.eq p q).unread = e.unread + 1 ∧ (t.eq p q).head = e.head
        ∧ ∀ x, (s.inStep x = true → peekBytes (t.ld x) (queueBase s p true q + e.tail) b.length = b) ∧ (s.inStep x = false → t.ld x = s.ld x))
    ∧ (s.pur.move = none → exec (.queueMoveComplete at_) s = .next s1)
    ∧ (∀ m, s.pur.move = some m → areaBytes s ≤ 0x200000 → (m.fromB.map (·.1)).Nodup → (∀ r ∈ m.fromB, r.1 < 48) →
      ∃ u : State, exec (.queueMoveComplete at_) s = .next (complete m.cmd .done [] false u) ∧ u.pur.move = none
        ∧ ∀ x, (s.serves x = true → ∀ r ∈ m.fromB, peekBytes (u.ld x) (layoutBase s r.1) (ringSize (ringExp s r.1))
              = peekBytes (s.ld x) r.2 (ringSize (ringExp s r.1)))
            ∧ (s.serves x = false → u.ld x = s.ld x))
    ∧ ((s.hold res = none → exec (.purHoldExpired at_ res) s = .next s1)
      ∧ (∀ k, s.hold res = some k →
        (60 * secNs ≤ s1.nowNs - k.last →
          exec (.purHoldExpired at_ res) s = .next (raise .cable 0x0C04 (k.part + 256 * res) (s1.setHold res none)))
        ∧ (s1.nowNs - k.last < 60 * secNs → exec (.purHoldExpired at_ res) s = .next s1)))

/-- The purser's own commands, each answered DONE but the last (16 R611, R613, R621, R623, R635): PUR_SUBSCRIBE sets the mask and the queue;
PUR_ACK_ALARM clears the alarm named, or all of them; PUR_READ answers the bytes of a range that the partition may read; PUR_RESEND sends the
entries from a sequence number on once more; PUR_RELEASE frees the entries up to one; PUR_PING does nothing; PUR_SET_QUEUE, answered
ACCEPTED, changes the ring's size, empties its indices and starts the move of the rings behind it. -/
def Obligations.PurserCommands : Prop :=
  ∀ (h : CmdHdr) (mask : Word) (q code addr len kind k seq : Nat) (s : State),
    let p := h.part
    let all := [1, 2, 3, 4, 5]
    (h.may 0 all s → q ≤ 3 → mask.toNat < 2 ^ 19 →
      exec (.purSubscribe h mask q) s
        = .next (((s.begun h).modPart p (fun t => { t with subMask := mask.toNat, subQ := q })).answered h 0x0C01 .done []))
    ∧ (h.may 1 all s → code < 65536 → code = 0 ∨ code ∈ s.pur.alarms →
      ∃ u : State, exec (.purAckAlarm h code) s = .next (u.answered h 0x0C02 .done []) ∧ u = { s.begun h with pur := u.pur }
        ∧ (code = 0 → u.pur.alarms = []) ∧ (code ≠ 0 → u.pur.alarms = s.pur.alarms.filter (· ≠ code)))
    ∧ (∀ n, h.may n [0, 1, 2, 3, 4, 5] s → purReadOk addr len = true → hostRange (advance h.at_ s) p false addr (len / 4) = some n →
      ∃ u : State, ∃ poison, exec (.purRead h addr len) s
          = .next (complete { part := p, queue := h.queue, seq := h.seq, op := 0x0C03 } .done
              (hostRead p addr (len / 4) 0 (s.begun h)).1 poison u)
        ∧ u.mode = s.mode ∧ u.roleA = s.roleA ∧ u.roleB = s.roleB)
    ∧ (h.may 0 all s → 4 ≤ p → q ≤ 3 →
      ((s.eq p q).held.any (fun e => e.1 == some seq) = true →
        ∃ u : State, exec (.purResend h q seq) s = .next (u.answered h 0x0C05 .done []) ∧ u = { s.begun h with pur := u.pur }
          ∧ u.pur.outbox = s.pur.outbox ++ (((s.eq p q).held.dropWhile (fun e => e.1 ≠ some seq)).filter (fun e => e.1.isSome)).flatMap
              (fun e => (s.part p).lastNets.map (fun n => (p, n, (s.part p).lastAddr, e.2.2))))
      ∧ ((unreadOf (s.eq p q)).any (fun e => e.1 == some seq) = true →
        exec (.purRelease h q seq) s = .next (((s.begun h).modEq p q (releaseTo seq)).answered h 0x0C06 .done [])))
    ∧ (h.may 0 [0, 1, 2, 3, 4, 5] s → exec (.purPing h) s = .next ((s.begun h).answered h 0x0C07 .done []))
    ∧ (h.may 0 [1] s → kind ≤ 1 → q ≤ 3 → k ≤ 8 → (kind = 1 ∨ p < 4) → areaTooLarge (resizeRing p (kind == 1) q k s) = false →
      s.pur.move = none → (kind = 1 → (s.eq p q).head = (s.eq p q).tail) →
      (kind = 0 → (s.cq p q).head = (s.cq p q).tail ∧ (s.cq p q).outstanding = 0) →
      ∃ u : State, exec (.purSetQueue h kind q k) s = .next (u.answered h 0x0C04 .accepted []) ∧ u = { s.begun h with pur := u.pur }
        ∧ (kind = 1 → (u.eq p q).k = k ∧ (u.eq p q).head = 0 ∧ (u.eq p q).tail = 0)
        ∧ (kind = 0 → (u.cq p q).k = k ∧ (u.cq p q).head = 0 ∧ (u.cq p q).tail = 0)
        ∧ ∃ m, u.pur.move = some m ∧ m.cmd = { part := p, queue := h.queue, seq := h.seq, op := 0x0C04 }
          ∧ ∀ r < 48, ringBase u r = layoutBase s r)

/-- Levels and keys (16 R626 to R633). TOL_CHALLENGE answers a fresh nonce and the serial; the right response grants the level at the next tick, a
wrong one uses the challenge up and is counted, and the third in a row locks the partition out and takes its level. TOL_LOGOUT, and 30 minutes without a
command, end a level, but P0's while no master key exists, which returns when its lockout ends. A key write fills the empty slot named and no other; a revocation marks the one slot. JTAG is served only while
unlocked, and a landing only out of service or quarantined. -/
def Obligations.TollhouseKeeps : Prop :=
  ∀ (at_ slot level p : Nat) (x : Option Side) (resp block : List Byte) (h : CmdHdr) (s : State),
    let s1 := advance at_ s
    let own := s.part h.part
    let all := [1, 2, 3, 4, 5]
    let least := fun (n : Nat) => if n = 0 ∧ s.pur.bootstrap = true ∧ (s.part 0).lockoutEnd = none then 3 else 0
    (h.may 0 all s → slot ≤ 7 → (s.slot slot).alg ≠ 0 → (s.slot slot).credential = true → (s.slot slot).revoked = false →
      level ≤ (s.slot slot).maxLevel → own.lockoutEnd = none →
      let nonce := (List.range 16).map (Config.nonceByte s.free)
      exec (.tolChallenge h slot level) s
        = .next ((({ s.begun h with free := s.free + 1 } : State).modPart h.part (fun t => { t with
            challenge := some { nonce := nonce, slot := slot, level := level, time := (s.begun h).nowNs } })).answered h 0x0C80 .done
              (nonce ++ leBytes 8 Config.serial.toNat)))
    ∧ (∀ c, h.may 0 all s → resp.length = 64 → own.challenge = some c → responseOk (s.slot c.slot) c h.part resp = true →
      challengeOld c (advance h.at_ s) = false →
      exec (.tolResponse h resp) s = .next (((s.begun h).modPart h.part (fun t => { t with
        challenge := none, fails := 0, nextLevel := some c.level, nextSlot := c.slot, nextAddr := sourceOf h (s.begun h) })).answered h 0x0C81
          .done []))
    ∧ (∀ c, h.may 0 all s → resp.length = 64 → own.challenge = some c → responseOk (s.slot c.slot) c h.part resp = false →
      ∃ u : State, exec (.tolResponse h resp) s = .next (u.answered h 0x0C81 .integrity []) ∧ (u.part h.part).challenge = none
        ∧ (u.part h.part).fails = min 3 (own.fails + 1)
        ∧ (own.fails < 2 → (u.part h.part).level = own.level ∧ (u.part h.part).lockoutEnd = own.lockoutEnd)
        ∧ (2 ≤ own.fails → (u.part h.part).level = 0 ∧ (u.part h.part).lockoutEnd = some ((advance h.at_ s).nowNs + 60 * secNs)))
    ∧ (h.may 0 all s → ∃ u : State, exec (.tolLogout h) s = .next (u.answered h 0x0C82 .done []) ∧ (u.part h.part).level = least h.part
        ∧ (u.part h.part).nextLevel = none ∧ (u.part h.part).bound = none ∧ ∀ n, n ≠ h.part → (u.part n).level = (s.part n).level)
    ∧ ((s1.nowNs - (s.part p).lastPass < 1800 * secNs → exec (.levelTimeout at_ p) s = .next s1)
      ∧ (1800 * secNs ≤ s1.nowNs - (s.part p).lastPass → ∃ t : State, exec (.levelTimeout at_ p) s = .next t ∧ (t.part p).level = least p
          ∧ (t.part p).nextLevel = none ∧ (t.part p).bound = none ∧ t.a = s.a ∧ t.b = s.b ∧ t.mode = s.mode))
    ∧ ((∀ n, (s.part p).lockoutEnd = some n → s1.nowNs < n) → exec (.lockoutEnd at_ p) s = .next s1)
    ∧ (∀ n, (s.part p).lockoutEnd = some n → n ≤ s1.nowNs →
        (p ≠ 0 ∨ s.pur.bootstrap = false →
          exec (.lockoutEnd at_ p) s = .next ((keepPart p s1).modPart p (fun t => { t with lockoutEnd := none, fails := 0 })))
        ∧ (p = 0 → s.pur.bootstrap = true → ∃ t : State, exec (.lockoutEnd at_ p) s = .next t ∧ (t.part 0).level = 3
            ∧ (t.part 0).lockoutEnd = none ∧ (t.part 0).fails = 0 ∧ t.a = s.a ∧ t.b = s.b ∧ t.mode = s.mode))
    ∧ (exec (.jtagAccess at_ x) s = .next { s1 with resp := { err := !(s.pur.jtagOpen && match x with
        | none => true
        | some y => s.role y == .outOfService || s.role y == .quarantined) } })
    ∧ (let key := keyOf block
      let n := ofLe (block.take 1)
      h.may 3 [1] s → keyFormed block = true → n ≤ 7 → 1 ≤ key.alg → key.alg ≤ 2 → key.maxLevel ≤ 3 → (s.slot n).alg = 0 → s.hold 5 = none →
      ∃ u : State, exec (.tolKeyWrite h block) s = .next (u.answered h 0x0C83 .accepted []) ∧ u = { s.begun h with pur := u.pur }
        ∧ u.pur.slots = s.pur.slots ∧ (u.hold 5).map (·.part) = some h.part
        ∧ u.pur.keyWrite = some ({ part := h.part, queue := h.queue, seq := h.seq, op := 0x0C83 }, key, n))
    ∧ (s.pur.keyWrite = none → ∀ ok, exec (.keyWriteComplete at_ ok) s = .next s1)
    ∧ (∀ c key n, s.pur.keyWrite = some (c, key, n) →
      (∃ u : State, exec (.keyWriteComplete at_ true) s = .next (complete c .done [] false u) ∧ u.slot n = key
        ∧ (∀ i, i ≠ n → u.slot i = s.slot i) ∧ u.hold 5 = none ∧ u.pur.keyWrite = none)
      ∧ (∃ u : State, exec (.keyWriteComplete at_ false) s = .next (complete c .media [] false u) ∧ u.pur.slots = s.pur.slots
        ∧ u.hold 5 = none ∧ u.pur.keyWrite = none))
    ∧ (h.may 3 [1] s →
      (slot ≤ 7 → (s.slot slot).alg ≠ 0 → (s.slot slot).revoked = false →
        ∃ u : State, exec (.tolKeyRevoke h slot) s = .next (u.answered h 0x0C84 .done []) ∧ u.slot slot = { s.slot slot with revoked := true }
          ∧ ∀ i, i ≠ slot → u.slot i = s.slot i)
      ∧ (∃ u : State, exec (.tolJtagUnlock h) s = .next (u.answered h 0x0C85 .done []) ∧ u.pur.jtagOpen = true ∧ u.pur.slots = s.pur.slots))

/-- The flash commands (16 R636). DKH_IMAGE_ERASE and DKH_IMAGE_WRITE wait behind the operations of their bank, take its hold and touch no flash
yet; DKH_IMAGE_CLOSE gives the hold back. FLASH_OPERATION_COMPLETE ends the oldest: an erased bank reads 0xFF, a written range reads the data,
on every serving landing, every other byte and every other landing reads as before, and a failure on a serving landing is answered MEDIA. -/
def Obligations.FlashIsWritten : Prop :=
  ∀ (at_ b off : Nat) (okA okB : Bool) (data : List Byte) (h : CmdHdr) (s : State),
    let s1 := advance at_ s
    let me := fun (op : Nat) => ({ part := h.part, queue := h.queue, seq := h.seq, op := op } : Pend)
    (h.may (bankLevel b) [1, 2, 3, 4, 5] s → b ≤ 3 → freeTo b h.part s = true →
      (s.mode ≤ 1 ∨ 2 ≤ b ∨ bootBank .A s ≠ b ∧ bootBank .B s ≠ b →
        ∃ u : State, exec (.dkhImageErase h b) s = .next (u.answered h 0x1302 .accepted []) ∧ u = { s.begun h with pur := u.pur }
          ∧ u.flashOps b = s.flashOps b ++ [{ cmd := me 0x1302 }] ∧ (u.hold b).map (·.part) = some h.part)
      ∧ (off % 256 = 0 → data.length % 256 = 0 → 256 ≤ data.length → data.length ≤ 2048 → off + data.length ≤ bankSize b →
        (s.hold b).map (·.part) = some h.part → overlapsWritten b off data.length s = false →
        ∃ u : State, exec (.dkhImageWrite h b off data) s = .next (u.answered h 0x1303 .accepted []) ∧ u = { s.begun h with pur := u.pur }
          ∧ u.flashOps b = s.flashOps b ++ [{ cmd := me 0x1303, off := off, data := some data }] ∧ (u.hold b).map (·.part) = some h.part
          ∧ overlapsWritten b off data.length u = true)
      ∧ exec (.dkhImageClose h b) s = .next (((s.begun h).setHold b none).answered h 0x1304 .done []))
    ∧ (s.flashOps b = [] → exec (.flashOperationComplete at_ b okA okB) s = .next s1)
    ∧ (∀ o rest, s.flashOps b = o :: rest →
      (s.serves .A = true ∧ okA = false ∨ s.serves .B = true ∧ okB = false →
        ∃ u : State, exec (.flashOperationComplete at_ b okA okB) s = .next (complete o.cmd .media [] false u) ∧ u.flashOps b = rest)
      ∧ (∃ u : State, exec (.flashOperationComplete at_ b true true) s = .next (complete o.cmd .done [] false u) ∧ u.flashOps b = rest
        ∧ ∀ x, (s.serves x = false → u.ld x = s.ld x)
          ∧ (s.serves x = true → (u.ld x).mem = (s.ld x).mem
            ∧ (o.data = none → ∀ a, flashByte (u.ld x) a
                = if bankBase b ≤ a ∧ a < bankBase b + bankSize b then 0xFF else flashByte (s.ld x) a)
            ∧ ∀ d, o.data = some d → flashBytes (u.ld x) (bankBase b + o.off) d.length = d
              ∧ ∀ a, a < bankBase b + o.off ∨ bankBase b + o.off + d.length ≤ a →
                flashByte (u.ld x) a = flashByte (s.ld x) a)))

/-! ### The backup domain, the clock and the logbook (chapter 17) -/

/-- The backup domain and the clock (17 R647 to R659, R672). A switch to VBAT marks the starts that it interrupts; the domain's reset clears it and
marks it lost. A BACKUP_WRITE in its writer's range writes one word with a new check word; another host write is refused, any other discarded.
A snapshot latches the time for its requester. A commit, from a register or by RTC_SET, sets time and subseconds together, restarts
the prescaler at the next crystal edge and makes the clock valid. The wake period keeps to its limit, a wake instant that is reached counts, a
low VBAT counts up to ten, an oscillator stop with main power makes the clock invalid and takes back its millisecond. -/
def Obligations.ClockAndBackup : Prop :=
  ∀ (at_ o sub period v : Nat) (r : Requester) (w : Word) (data : List Byte) (h : CmdHdr) (s : State),
    let s1 := advance at_ s
    let own := fun (t : State) => t = { s1 with rtc := t.rtc }
    let recorded := fun (t u : State) => t = { u with rtc := t.rtc, events := t.events, pur := t.pur, log := t.log }
    let host := ∃ p, r = .host p
    (s.rtc.onVbat = true → exec (.supplySwitchover at_ true) s = .next s1)
    ∧ (s.rtc.onVbat = false → ∃ t : State, exec (.supplySwitchover at_ true) s = .next t ∧ own t ∧ t.rtc.onVbat = true ∧ t.rtc.switches = (s.rtc.switches + 1) % 65536
      ∧ t.rtc.seconds = s1.rtc.seconds
      ∧ ∀ x, (bkpByte s (slipwayAt x) < 11 → bitOf (bkpByte t (slipwayAt x + 4)) 4 = true)
        ∧ (11 ≤ bkpByte s (slipwayAt x) → bkpByte t (slipwayAt x + 4) = bkpByte s (slipwayAt x + 4)))
    ∧ exec (.supplySwitchover at_ false) s = .next { s1 with rtc := { s1.rtc with onVbat := false } }
    ∧ (∃ t : State, exec (.backupReset at_) s = .next t ∧ own t ∧ t.rtc.seconds = 0 ∧ t.rtc.subsec = 0 ∧ t.rtc.phase = 0 ∧ t.rtc.valid = false
      ∧ t.rtc.lost = true ∧ t.rtc.period = 0 ∧ t.rtc.wakeCount = 0 ∧ ∀ n, bkpByte t n = 0)
    ∧ (o < 256 → o % 4 = 0 → bkpWriter r o s = true →
      ∃ t : State, exec (.backupWrite at_ r o w) s = .next t ∧ own t ∧ le t.rtc.mem o 4 = w.toNat
        ∧ (∀ n, n < o ∨ o + 4 ≤ n → bkpByte t n = bkpByte s n) ∧ t.rtc.check = BitVec.ofNat 32 (crc32 (bytesAt t.rtc.mem 0 256)))
    ∧ (256 ≤ o ∨ o % 4 ≠ 0 ∨ bkpWriter r o s = false → (¬host → exec (.backupWrite at_ r o w) s = .next s1)
      ∧ ∀ p, r = .host p → exec (.backupWrite at_ r o w) s = .next (hostRefused p s1))
    ∧ (∃ t : State, exec (.rtcSnapshot at_ r) s = .next t ∧ t.resp = { data := BitVec.ofNat 32 (rtcShown s1).1 }
      ∧ t = { s1 with resp := t.resp, rtc := { s1.rtc with snaps := t.rtc.snaps } }
      ∧ Tab.get none t.rtc.snaps (reqKey r) = some (rtcShown s1))
    ∧ (rtcWriter r s = true →
      exec (.rtcStageSubsec at_ r w) s
        = .next { s1 with rtc := { s1.rtc with staged := Tab.set 0 s.rtc.staged (reqKey r) (w.toNat % 32768) } }
      ∧ (∃ t : State, exec (.rtcCommit at_ r w) s = .next t ∧ recorded t s1
          ∧ t.rtc = { s1.rtc with seconds := w.toNat, subsec := Tab.get 0 s.rtc.staged (reqKey r), phase := 0, valid := true,
                                  hold := untilEdge s1.rtc, was := some (cycleNow s1, rtcShown s1),
                                  wakeSeen := (w.toNat * 32768 + Tab.get 0 s.rtc.staged (reqKey r)) / 128, staged := Tab.set 0 s.rtc.staged (reqKey r) 0 }))
    ∧ (rtcWriter r s = false → (¬host → exec (.rtcStageSubsec at_ r w) s = .next s1 ∧ exec (.rtcCommit at_ r w) s = .next s1)
      ∧ ∀ p, r = .host p → exec (.rtcStageSubsec at_ r w) s = .next (hostRefused p s1)
          ∧ exec (.rtcCommit at_ r w) s = .next (hostRefused p s1))
    ∧ ((∀ p, r = .host p → exec (.rtcWake at_ r w) s = .next (hostRefused p s1))
      ∧ (¬host → rtcWriter r s = true → w.toNat % 2 ^ 25 ≤ wakeMax →
        exec (.rtcWake at_ r w) s
          = .next (raise .cable 0x0F06 (w.toNat % 2 ^ 25) { s1 with rtc := { s1.rtc with
              period := w.toNat % 2 ^ 25, wakeSeen := wakeTime s1.rtc } }))
      ∧ (¬host → rtcWriter r s = false ∨ wakeMax < w.toNat % 2 ^ 25 → exec (.rtcWake at_ r w) s = .next s1))
    ∧ ((wakeDue s1.rtc = false → exec (.wakeInstant at_) s = .next s1)
      ∧ (wakeDue s1.rtc = true → exec (.wakeInstant at_) s = .next { s1 with rtc := { s1.rtc with
          wakeCount := s.rtc.wakeCount + 1, wakeBit := true, wakeSeen := wakeNext s1.rtc } }))
    ∧ ((s.rtc.onVbat = true → exec (.rtcVbatLow at_ v) s = .next { s1 with rtc := { s1.rtc with vbat := v % 512 } })
      ∧ (s.rtc.onVbat = false → 220 ≤ v →
        exec (.rtcVbatLow at_ v) s = .next { s1 with rtc := { s1.rtc with vbat := v % 512, lowCount := 0, vbatLow := false } })
      ∧ (s.rtc.onVbat = false → v < 220 →
        let c : Rtc := { s1.rtc with vbat := v % 512, lowCount := min 10 (s.rtc.lowCount + 1), vbatLow := decide (9 ≤ s.rtc.lowCount) }
        (s.rtc.lowCount < 9 ∨ s.rtc.vbatLow = true → exec (.rtcVbatLow at_ v) s = .next { s1 with rtc := c })
        ∧ (9 ≤ s.rtc.lowCount → s.rtc.vbatLow = false → exec (.rtcVbatLow at_ v) s = .next (raise .cable 0x0F04 v { s1 with rtc := c }))))
    ∧ (s.rtc.onVbat = true ∨ s.uptime = none → exec (.rtcOscStop at_) s = .next s1)
    ∧ (s.rtc.onVbat = false → s.uptime ≠ none → exec (.rtcOscStop at_) s
        = .next (raise .cable 0x0F05 0 { s1 with rtc := { rtcBack (1000000 * nsUnit) s1.rtc with valid := false } }))
    ∧ (h.may 2 [1, 2, 3, 4, 5] s →
      (sub ≤ 32767 → ∃ u : State, exec (.rtcSet h w sub) s = .next (u.answered h 0x0F01 .done []) ∧ recorded u (s.begun h)
          ∧ u.rtc = { (s.begun h).rtc with
            seconds := w.toNat, subsec := sub, phase := 0, valid := true, hold := untilEdge (s.begun h).rtc,
            was := some (cycleNow (s.begun h), rtcShown (s.begun h)), wakeSeen := (w.toNat * 32768 + sub) / 128 })
      ∧ (period ≤ wakeMax → ∃ u : State, exec (.rtcSetWake h period) s = .next (u.answered h 0x0F02 .done []) ∧ recorded u (s.begun h)
          ∧ u.rtc = { (s.begun h).rtc with period := period, wakeSeen := wakeTime (s.begun h).rtc })
      ∧ (data.length % 4 = 0 → 4 ≤ data.length → data.length ≤ 128 → 0x80 ≤ o → o % 4 = 0 → o + data.length ≤ 0x100 →
        ∃ u : State, exec (.rtcBkpWrite h o data) s = .next (u.answered h 0x0F03 .done []) ∧ u = { s.begun h with rtc := u.rtc }
          ∧ bytesAt u.rtc.mem o data.length = data ∧ (∀ n, n < o ∨ o + data.length ≤ n → bkpByte u n = bkpByte s n)
          ∧ u.rtc.check = BitVec.ofNat 32 (crc32 (bytesAt u.rtc.mem 0 256))))

/-- The logbook (17 R661 to R673). While a scan or a clear runs, nothing waits, or the oldest record's leg runs still, nothing is written. The oldest
record, below its limit, goes with the next sequence number to both copies in use, behind a header where it is the first of its sector; a copy
that fails goes out of use; at its limit a record is suppressed, counted, and takes no number. LOG_READ answers whole records in ascending
sequence; LOG_SET_LIMIT changes the limit of its code alone; LIMIT_TABLE_WRITTEN puts the table into sector 1 of both copies; LOG_CLEAR erases
every sector of the ring but the one in use, and its end writes one record into the next sector and erases that one. -/
def Obligations.LogbookKeeps : Prop :=
  ∀ (at_ first len code limit : Nat) (ok1 ok2 : Bool) (h : CmdHdr) (s : State),
    let s1 := advance at_ s
    let l := s.log
    let both := l.copy1 = true ∧ l.copy2 = true ∧ s.bank1 = true ∧ s.bank2 = true
    (l.scanning = true ∨ l.clearing ≠ none ∨ l.buffer = [] ∨ (∃ q ∈ l.buffer.head?, legOpen q s1 = true) → exec (.logbookWrite at_ ok1 ok2) s = .next s1)
    ∧ (∀ q rest, l.scanning = false → l.clearing = none → l.buffer = q :: rest → l.lostPending = 0 → legOpen q s1 = false →
      let n := limitOf l q.code
      let new := uptimeMs s1 / 1000 ≠ l.second
      let b := (if l.used = 0 then sectorHead l.nextSeq else []) ++ recStored q l.nextSeq (Tab.get 0 l.supp q.code)
      (neverSuppressed q.code = true ∨ n = 255 ∨ (if new then 0 else Tab.get 0 l.wrote q.code) < n → both →
        max 16 l.used + recBytes q ≤ 65536 →
        (∃ t : State, exec (.logbookWrite at_ true true) s = .next t ∧ t = { s1 with free := t.free, log := t.log } ∧ t.log.buffer = rest
          ∧ t.log.flash1 = program l.sector b l.flash1 ∧ t.log.flash2 = program l.sector b l.flash2 ∧ t.log.sector = l.sector
          ∧ t.log.used = max 16 l.used + recBytes q ∧ t.log.nextSeq = (l.nextSeq + 1) % 2 ^ 48)
        ∧ ∃ t : State, exec (.logbookWrite at_ true false) s = .next t ∧ t.log.copy1 = true ∧ t.log.copy2 = false
          ∧ t.log.flash1 = program l.sector b l.flash1 ∧ bitOf (Tab.get 0 t.events 0x10) 2 = true)
      ∧ (neverSuppressed q.code = false → n ≠ 255 → n ≤ (if new then 0 else Tab.get 0 l.wrote q.code) →
        ∃ t : State, exec (.logbookWrite at_ ok1 ok2) s = .next t ∧ t = { s1 with log := t.log } ∧ t.log.buffer = rest
          ∧ t.log.flash1 = l.flash1 ∧ t.log.flash2 = l.flash2 ∧ t.log.nextSeq = l.nextSeq
          ∧ t.log.suppressed = satAdd 0xFFFFFFFF l.suppressed 1))
    ∧ (l.limitCmds = [] → exec (.limitTableWritten at_ ok1 ok2) s = .next s1)
    ∧ (∀ c rest, l.limitCmds = c :: rest → both →
      ∃ u : State, exec (.limitTableWritten at_ true true) s = .next (complete c .done [] false u)
        ∧ u = { s1 with free := u.free, log := { l with
            limitCmds := rest, flash1 := Tab.set [] l.flash1 1 (limitImage l.limits), flash2 := Tab.set [] l.flash2 1 (limitImage l.limits) } })
    ∧ (l.clearing = none → exec (.logClearComplete at_ ok1 ok2) s = .next s1)
    ∧ (∀ c, l.clearing = some c → both →
      ∃ u b, exec (.logClearComplete at_ true true) s = .next (complete c .done [] false u) ∧ u.log.clearing = none ∧ u.hold 6 = none
        ∧ b.take 10 = [0x3C, 5, 0x02, 0x10] ++ leBytes 6 l.nextSeq ∧ u.log.nextSeq = (l.nextSeq + 1) % 2 ^ 48 ∧ u.log.sector = nextSector l.sector
        ∧ u.log.buffer = l.buffer
        ∧ (∀ n, let z := if n = l.sector then [] else if n = nextSector l.sector then Tab.get [] l.flash1 n ++ sectorHead l.nextSeq ++ b
              else Tab.get [] l.flash1 n
            Tab.get [] u.log.flash1 n = z)
        ∧ ∀ n, let z := if n = l.sector then [] else if n = nextSector l.sector then Tab.get [] l.flash2 n ++ sectorHead l.nextSeq ++ b
              else Tab.get [] l.flash2 n
            Tab.get [] u.log.flash2 n = z)
    ∧ (h.may 1 [1, 2, 3, 4, 5] s → 16 ≤ len → len ≤ 1024 →
      exec (.logRead h first len) s
        = .next ((s.begun h).answered h 0x1001 .done (fitRecs ((heldRecs s).filter (fun q => first ≤ q.seq)) len)))
    ∧ (h.may 2 [1, 2, 3, 4, 5] s → limit ≤ 255 → severityOf code ≠ none →
      l.limits.length < 1024 ∨ Tab.get 0 l.limits code ≠ 0 ∨ limit = defaultLimit code →
      ∃ u : State, exec (.logSetLimit h code limit) s = .next (u.answered h 0x1002 .accepted []) ∧ u = { s.begun h with log := u.log }
        ∧ limitOf u.log code = limit ∧ (∀ c, c ≠ code → limitOf u.log c = limitOf l c)
        ∧ u.log.limitCmds = l.limitCmds ++ [{ part := h.part, queue := h.queue, seq := h.seq, op := 0x1002 }])
    ∧ (h.may 3 [1] s → l.clearing = none → freeTo 6 h.part s = true →
      ∃ u : State, exec (.logClear h) s = .next (u.answered h 0x1003 .accepted []) ∧ u = { s.begun h with log := u.log, pur := u.pur }
        ∧ u.log.clearing = some { part := h.part, queue := h.queue, seq := h.seq, op := 0x1003 } ∧ (u.hold 6).map (·.part) = some h.part
        ∧ u.log.nextSeq = l.nextSeq ∧ u.log.buffer = l.buffer
        ∧ (both → ∀ n, let gone := 2 ≤ n ∧ n ≠ l.sector
            (gone → Tab.get [] u.log.flash1 n = [] ∧ Tab.get [] u.log.flash2 n = [])
            ∧ (¬gone → Tab.get [] u.log.flash1 n = Tab.get [] l.flash1 n ∧ Tab.get [] u.log.flash2 n = Tab.get [] l.flash2 n)))

/-! ### Supplies and pins (chapter 18) -/

/-- Supplies, domains, pins and temperatures (18 R683 to R702, R710). Nothing is found before a stage S0 has ended. Then each finding sets or clears its
condition and is reported. A lost field domain switches every step driver and every safety output off and keeps its cause for the next tick; a
landing without power stops; a bank without power withdraws. A landing above 120 °C is held in reset; with the cable die above 125 °C, and at
MODULE_STOP, the module stops and keeps its flash, its keys, its parameter slots, its logbook copies and its backup domain. -/
def Obligations.SupplyActs : Prop :=
  ∀ (at_ input i n now time domain : Nat) (ok : Bool) (v va vb : Word) (a b c base : Byte) (s : State),
    let s1 := advance at_ s
    let sup := fun (t : State) (f : Supply → Supply) => t.modSup f
    let ends := fun (t : State) => t.uptime = none ∧ t.roleA = .none ∧ t.roleB = .none ∧ (∀ x, (t.ld x).flash = (s.ld x).flash)
      ∧ t.pur.slots = s.pur.slots ∧ t.bol.slots = s.bol.slots ∧ t.log.flash1 = s.log.flash1 ∧ t.log.flash2 = s.log.flash2
      ∧ t.rtc.mem = s.rtc.mem ∧ t.rtc.seconds = s1.rtc.seconds ∧ ∀ x, (t.ld x).mem = []
    let field := fun (t : State) (c : Nat) => t.sup = { s.sup with field := false, fieldCause := c } ∧ t.pins.off = 2 ^ 32 - 1 ∧ t.mode = s.mode
      ∧ t.roleA = s.roleA ∧ t.roleB = s.roleB ∧ (∀ k < 16, (t.bol.och k).on = false) ∧ t.arb.adrift = s.arb.adrift
    (s.uptime = none →
      exec (.supV24aLow at_ v) s = .next s1 ∧ exec (.supV24bLow at_ v) s = .next s1 ∧ exec (.supV24High at_ input v) s = .next s1
        ∧ exec (.supReversed at_ input v) s = .next s1 ∧ exec (.supV24Restored at_ input v) s = .next s1
        ∧ exec (.supFieldLost at_) s = .next s1 ∧ exec (.supFieldRestored at_) s = .next s1 ∧ exec (.supDomainLost at_ domain) s = .next s1
        ∧ exec (.supStepShort at_ n) s = .next s1 ∧ exec (.stepDriverRetry at_ n ok) s = .next s1
        ∧ exec (.supStepOpen at_ n now) s = .next s1 ∧ exec (.supAxinRange at_ i) s = .next s1
        ∧ exec (.axinRangeRestored at_ i) s = .next s1 ∧ exec (.supEncRange at_ i) s = .next s1
        ∧ exec (.encoderLineRestored at_ i) s = .next s1 ∧ exec (.supCanBus at_ n now) s = .next s1
        ∧ exec (.supTpFault at_ n now) s = .next s1 ∧ exec (.tpInEdge at_ time) s = .next s1
        ∧ exec (.temperatureRead at_ a b c base va vb) s = .next s1)
    ∧ (∃ t : State, exec (.moduleStop at_) s = .next t ∧ ends t)
    ∧ (s.uptime ≠ none →
      (exec (.supV24aLow at_ v) s = .next (raise .cable 0x1101 0 (sup s1 (fun u => { u with va := v, aOk := false })))
        ∧ exec (.supV24bLow at_ v) s = .next (raise .cable 0x1102 1 (sup s1 (fun u => { u with vb := v, bOk := false })))
        ∧ exec (.supV24High at_ 0 v) s = .next (raise .cable 0x1103 0 (sup s1 (fun u => { u with va := v })))
        ∧ exec (.supV24High at_ 1 v) s = .next (raise .cable 0x1103 1 (sup s1 (fun u => { u with vb := v })))
        ∧ exec (.supReversed at_ 0 v) s = .next (raise .cable 0x1104 0 (sup s1 (fun u => { u with va := v, aOk := false, aRev := true })))
        ∧ exec (.supReversed at_ 1 v) s = .next (raise .cable 0x1104 1 (sup s1 (fun u => { u with vb := v, bOk := false, bRev := true })))
        ∧ exec (.supV24Restored at_ 0 v) s = .next (raise .cable 0x1105 0 (sup s1 (fun u => { u with va := v, aOk := true, aRev := false })))
        ∧ exec (.supV24Restored at_ 1 v) s = .next (raise .cable 0x1105 1 (sup s1 (fun u => { u with vb := v, bOk := true, bRev := false }))))
      ∧ (s.sup.field = false → exec (.supFieldLost at_) s = .next s1)
      ∧ (s.sup.field = true → ∃ t : State, exec (.supFieldLost at_) s = .next t ∧ field t 0x1106)
      ∧ (s.sup.field = true → exec (.supFieldRestored at_) s = .next s1)
      ∧ (s.sup.field = false → ∃ t : State, exec (.supFieldRestored at_) s = .next t ∧ t.sup = { s.sup with field := true }
          ∧ t.pins.off = s.sup.stepShort ∧ t.pins.skip = 2 ^ 32 - 1 - s.sup.stepShort ∧ t.arb.adrift = s.arb.adrift ∧ t.mode = s.mode)
      ∧ (domainOn s domain = false → exec (.supDomainLost at_ domain) s = .next s1)
      ∧ (s.sup.landA = true → ∃ t : State, exec (.supDomainLost at_ 0) s = .next t ∧ t.sup = { s.sup with landA := false }
          ∧ (t.ld .A).fmn.running = false ∧ t.roleA = s.roleA ∧ t.roleB = s.roleB)
      ∧ (s.sup.landB = true → ∃ t : State, exec (.supDomainLost at_ 1) s = .next t ∧ t.sup = { s.sup with landB := false }
          ∧ (t.ld .B).fmn.running = false ∧ t.roleA = s.roleA ∧ t.roleB = s.roleB)
      ∧ (s.sup.bank1 = true → ∃ t : State, exec (.supDomainLost at_ 2) s = .next t ∧ t.bank1 = false ∧ t.bank2 = s.bank2 ∧ t.sup.bank1 = false)
      ∧ (s.sup.bank2 = true → ∃ t : State, exec (.supDomainLost at_ 3) s = .next t ∧ t.bank2 = false ∧ t.bank1 = s.bank1 ∧ t.sup.bank2 = false)
      ∧ (s.sup.field = true → ∃ t : State, exec (.supDomainLost at_ 4) s = .next t ∧ field t 0x1108)
      ∧ (stepChecked s n = false → exec (.supStepShort at_ n) s = .next s1 ∧ exec (.supStepOpen at_ n now) s = .next s1)
      ∧ (stepChecked s n = true → ∃ t : State, exec (.supStepShort at_ n) s = .next t
          ∧ bitOf t.sup.stepShort n = true ∧ bitOf t.pins.off n = true ∧ t.mode = s.mode ∧ t.arb.adrift = s.arb.adrift)
      ∧ (ok = true → s.sup.field = true → bitOf s.sup.stepShort n = true → ∃ t : State, exec (.stepDriverRetry at_ n ok) s = .next t
          ∧ bitOf t.sup.stepShort n = false ∧ bitOf t.pins.off n = false ∧ t.mode = s.mode)
      ∧ (ok = false → exec (.stepDriverRetry at_ n ok) s = .next s1)
      ∧ (stepChecked s n = true → bitOf s.pins.off n = false → exec (.supStepOpen at_ n now) s
          = .next (raise .cable 0x110A n (sup s1 (fun u => { u with stepOpen := putBit (now % 2 ^ 32) n true }))))
      ∧ (i < 64 → exec (.supAxinRange at_ i) s = .next (raisePerSecond .cable 0x110B i i (sup s1 (fun u => { u with axin := putBit u.axin i true }))))
      ∧ exec (.axinRangeRestored at_ i) s = .next (sup s1 (fun u => { u with axin := putBit u.axin i false }))
      ∧ (i < 16 → exec (.supEncRange at_ i) s = .next (raise .cable 0x110C i (sup s1 (fun u => { u with enc := putBit u.enc i true }))))
      ∧ exec (.encoderLineRestored at_ i) s = .next (sup s1 (fun u => { u with enc := putBit u.enc i false }))
      ∧ (n < 8 → exec (.supCanBus at_ n now) s
          = .next (raisePerSecond .cable 0x110D n n (sup s1 (fun u => { u with can := putBit (now % 256) n true }))))
      ∧ (n < 2 → ∃ t : State, exec (.supTpFault at_ n now) s = .next t ∧ t = raise .cable 0x110E n (sup s1 (fun u =>
          { u with tp0 := t.sup.tp0, tp1 := t.sup.tp1 })) ∧ (if n = 0 then t.sup.tp0 else t.sup.tp1) = true)
      ∧ exec (.tpInEdge at_ time) s = .next (sup s1 (fun u => { u with tpIn := some time }))
      ∧ (celsius c ≤ 125 → ∃ t : State, exec (.temperatureRead at_ a b c base va vb) s = .next t
          ∧ t.sup = { s.sup with tempA := a, tempB := b, tempC := c, tempBase := base, va := va, vb := vb,
                                 hotA := decide (105 < celsius a) || (s.sup.hotA && decide (100 ≤ celsius a)),
                                 hotB := decide (105 < celsius b) || (s.sup.hotB && decide (100 ≤ celsius b)) }
          ∧ (120 < celsius a → s.sup.landA = true → (t.ld .A).slw.inReset = true)
          ∧ (120 < celsius b → s.sup.landB = true → (t.ld .B).slw.inReset = true) ∧ t.mode = s.mode ∧ t.roleA = s.roleA ∧ t.roleB = s.roleB)
      ∧ (125 < celsius c → celsius a ≤ 120 → celsius b ≤ 120 → ∃ t : State, exec (.temperatureRead at_ a b c base va vb) s = .next t ∧ ends t))
end

