-- ==== Sys2Proof/Laws/State.lean ====
section
/-!
SUPPORT. Each field of the state after each update the shared operations make: one lemma per field an update leaves, so that no proof
unfolds a record update.
-/
namespace Sys2Proof.Machine

/-! ### A landing replaced -/

@[simp] theorem setLd_now (s : State) (x : Side) (l : Landing) : (s.setLd x l).now = s.now := by cases x <;> rfl
@[simp] theorem setLd_uptime (s : State) (x : Side) (l : Landing) : (s.setLd x l).uptime = s.uptime := by cases x <;> rfl
@[simp] theorem setLd_tick (s : State) (x : Side) (l : Landing) : (s.setLd x l).tick = s.tick := by cases x <;> rfl
@[simp] theorem setLd_mode (s : State) (x : Side) (l : Landing) : (s.setLd x l).mode = s.mode := by cases x <;> rfl
@[simp] theorem setLd_roleA (s : State) (x : Side) (l : Landing) : (s.setLd x l).roleA = s.roleA := by cases x <;> rfl
@[simp] theorem setLd_roleB (s : State) (x : Side) (l : Landing) : (s.setLd x l).roleB = s.roleB := by cases x <;> rfl
@[simp] theorem setLd_bank1 (s : State) (x : Side) (l : Landing) : (s.setLd x l).bank1 = s.bank1 := by cases x <;> rfl
@[simp] theorem setLd_bank2 (s : State) (x : Side) (l : Landing) : (s.setLd x l).bank2 = s.bank2 := by cases x <;> rfl
@[simp] theorem setLd_events (s : State) (x : Side) (l : Landing) : (s.setLd x l).events = s.events := by cases x <;> rfl
@[simp] theorem setLd_agree (s : State) (x : Side) (l : Landing) : (s.setLd x l).agree = s.agree := by cases x <;> rfl
@[simp] theorem setLd_arb (s : State) (x : Side) (l : Landing) : (s.setLd x l).arb = s.arb := by cases x <;> rfl
@[simp] theorem setLd_dkh (s : State) (x : Side) (l : Landing) : (s.setLd x l).dkh = s.dkh := by cases x <;> rfl
@[simp] theorem setLd_slDown (s : State) (x : Side) (l : Landing) : (s.setLd x l).slDown = s.slDown := by cases x <;> rfl
@[simp] theorem setLd_tp (s : State) (x : Side) (l : Landing) : (s.setLd x l).tp = s.tp := by cases x <;> rfl
@[simp] theorem setLd_pins (s : State) (x : Side) (l : Landing) : (s.setLd x l).pins = s.pins := by cases x <;> rfl
@[simp] theorem setLd_canRec (s : State) (x : Side) (l : Landing) : (s.setLd x l).canRec = s.canRec := by cases x <;> rfl
@[simp] theorem setLd_sup (s : State) (x : Side) (l : Landing) : (s.setLd x l).sup = s.sup := by cases x <;> rfl
@[simp] theorem setLd_bol (s : State) (x : Side) (l : Landing) : (s.setLd x l).bol = s.bol := by cases x <;> rfl
@[simp] theorem setLd_tbs (s : State) (x : Side) (l : Landing) : (s.setLd x l).tbs = s.tbs := by cases x <;> rfl
@[simp] theorem setLd_ref (s : State) (x : Side) (l : Landing) : (s.setLd x l).ref = s.ref := by cases x <;> rfl
@[simp] theorem setLd_aid (s : State) (x : Side) (l : Landing) : (s.setLd x l).aid = s.aid := by cases x <;> rfl
@[simp] theorem setLd_latch (s : State) (x : Side) (l : Landing) : (s.setLd x l).latch = s.latch := by cases x <;> rfl
@[simp] theorem setLd_pendLow (s : State) (x : Side) (l : Landing) : (s.setLd x l).pendLow = s.pendLow := by cases x <;> rfl
@[simp] theorem setLd_shared (s : State) (x : Side) (l : Landing) : (s.setLd x l).shared = s.shared := by cases x <;> rfl
@[simp] theorem setLd_pur (s : State) (x : Side) (l : Landing) : (s.setLd x l).pur = s.pur := by cases x <;> rfl
@[simp] theorem setLd_rtc (s : State) (x : Side) (l : Landing) : (s.setLd x l).rtc = s.rtc := by cases x <;> rfl
@[simp] theorem setLd_log (s : State) (x : Side) (l : Landing) : (s.setLd x l).log = s.log := by cases x <;> rfl
@[simp] theorem setLd_lastRaised (s : State) (x : Side) (l : Landing) : (s.setLd x l).lastRaised = s.lastRaised := by cases x <;> rfl
@[simp] theorem setLd_resp (s : State) (x : Side) (l : Landing) : (s.setLd x l).resp = s.resp := by cases x <;> rfl
@[simp] theorem setLd_free (s : State) (x : Side) (l : Landing) : (s.setLd x l).free = s.free := by cases x <;> rfl
@[simp] theorem setLd_pending (s : State) (x : Side) (l : Landing) : (s.setLd x l).pending = s.pending := by cases x <;> rfl
@[simp] theorem setLd_tie (s : State) (x : Side) (l : Landing) : (s.setLd x l).tie = s.tie := by cases x <;> rfl

@[simp] theorem setLd_ld (s : State) (x : Side) (l : Landing) : (s.setLd x l).ld x = l := by cases x <;> rfl
@[simp] theorem setLd_other (s : State) (x : Side) (l : Landing) : (s.setLd x l).ld x.other = s.ld x.other := by cases x <;> rfl
theorem setLd_ne (s : State) (x y : Side) (l : Landing) (h : y ≠ x) : (s.setLd x l).ld y = s.ld y := by
  cases x <;> cases y <;> first | rfl | exact absurd rfl h

/-! ### A landing changed -/

@[simp] theorem modLd_now (s : State) (x : Side) (f : Landing → Landing) : (s.modLd x f).now = s.now := by cases x <;> rfl
@[simp] theorem modLd_uptime (s : State) (x : Side) (f : Landing → Landing) : (s.modLd x f).uptime = s.uptime := by cases x <;> rfl
@[simp] theorem modLd_tick (s : State) (x : Side) (f : Landing → Landing) : (s.modLd x f).tick = s.tick := by cases x <;> rfl
@[simp] theorem modLd_mode (s : State) (x : Side) (f : Landing → Landing) : (s.modLd x f).mode = s.mode := by cases x <;> rfl
@[simp] theorem modLd_roleA (s : State) (x : Side) (f : Landing → Landing) : (s.modLd x f).roleA = s.roleA := by cases x <;> rfl
@[simp] theorem modLd_roleB (s : State) (x : Side) (f : Landing → Landing) : (s.modLd x f).roleB = s.roleB := by cases x <;> rfl
@[simp] theorem modLd_bank1 (s : State) (x : Side) (f : Landing → Landing) : (s.modLd x f).bank1 = s.bank1 := by cases x <;> rfl
@[simp] theorem modLd_bank2 (s : State) (x : Side) (f : Landing → Landing) : (s.modLd x f).bank2 = s.bank2 := by cases x <;> rfl
@[simp] theorem modLd_events (s : State) (x : Side) (f : Landing → Landing) : (s.modLd x f).events = s.events := by cases x <;> rfl
@[simp] theorem modLd_agree (s : State) (x : Side) (f : Landing → Landing) : (s.modLd x f).agree = s.agree := by cases x <;> rfl
@[simp] theorem modLd_arb (s : State) (x : Side) (f : Landing → Landing) : (s.modLd x f).arb = s.arb := by cases x <;> rfl
@[simp] theorem modLd_dkh (s : State) (x : Side) (f : Landing → Landing) : (s.modLd x f).dkh = s.dkh := by cases x <;> rfl
@[simp] theorem modLd_slDown (s : State) (x : Side) (f : Landing → Landing) : (s.modLd x f).slDown = s.slDown := by cases x <;> rfl
@[simp] theorem modLd_tp (s : State) (x : Side) (f : Landing → Landing) : (s.modLd x f).tp = s.tp := by cases x <;> rfl
@[simp] theorem modLd_pins (s : State) (x : Side) (f : Landing → Landing) : (s.modLd x f).pins = s.pins := by cases x <;> rfl
@[simp] theorem modLd_canRec (s : State) (x : Side) (f : Landing → Landing) : (s.modLd x f).canRec = s.canRec := by cases x <;> rfl
@[simp] theorem modLd_sup (s : State) (x : Side) (f : Landing → Landing) : (s.modLd x f).sup = s.sup := by cases x <;> rfl
@[simp] theorem modLd_bol (s : State) (x : Side) (f : Landing → Landing) : (s.modLd x f).bol = s.bol := by cases x <;> rfl
@[simp] theorem modLd_tbs (s : State) (x : Side) (f : Landing → Landing) : (s.modLd x f).tbs = s.tbs := by cases x <;> rfl
@[simp] theorem modLd_ref (s : State) (x : Side) (f : Landing → Landing) : (s.modLd x f).ref = s.ref := by cases x <;> rfl
@[simp] theorem modLd_aid (s : State) (x : Side) (f : Landing → Landing) : (s.modLd x f).aid = s.aid := by cases x <;> rfl
@[simp] theorem modLd_latch (s : State) (x : Side) (f : Landing → Landing) : (s.modLd x f).latch = s.latch := by cases x <;> rfl
@[simp] theorem modLd_pendLow (s : State) (x : Side) (f : Landing → Landing) : (s.modLd x f).pendLow = s.pendLow := by cases x <;> rfl
@[simp] theorem modLd_shared (s : State) (x : Side) (f : Landing → Landing) : (s.modLd x f).shared = s.shared := by cases x <;> rfl
@[simp] theorem modLd_pur (s : State) (x : Side) (f : Landing → Landing) : (s.modLd x f).pur = s.pur := by cases x <;> rfl
@[simp] theorem modLd_rtc (s : State) (x : Side) (f : Landing → Landing) : (s.modLd x f).rtc = s.rtc := by cases x <;> rfl
@[simp] theorem modLd_log (s : State) (x : Side) (f : Landing → Landing) : (s.modLd x f).log = s.log := by cases x <;> rfl
@[simp] theorem modLd_lastRaised (s : State) (x : Side) (f : Landing → Landing) : (s.modLd x f).lastRaised = s.lastRaised := by cases x <;> rfl
@[simp] theorem modLd_resp (s : State) (x : Side) (f : Landing → Landing) : (s.modLd x f).resp = s.resp := by cases x <;> rfl
@[simp] theorem modLd_free (s : State) (x : Side) (f : Landing → Landing) : (s.modLd x f).free = s.free := by cases x <;> rfl
@[simp] theorem modLd_pending (s : State) (x : Side) (f : Landing → Landing) : (s.modLd x f).pending = s.pending := by cases x <;> rfl
@[simp] theorem modLd_tie (s : State) (x : Side) (f : Landing → Landing) : (s.modLd x f).tie = s.tie := by cases x <;> rfl

@[simp] theorem modLd_ld (s : State) (x : Side) (f : Landing → Landing) : (s.modLd x f).ld x = f (s.ld x) := by cases x <;> rfl
@[simp] theorem modLd_other (s : State) (x : Side) (f : Landing → Landing) : (s.modLd x f).ld x.other = s.ld x.other := by cases x <;> rfl
theorem modLd_ne (s : State) (x y : Side) (f : Landing → Landing) (h : y ≠ x) : (s.modLd x f).ld y = s.ld y := by
  cases x <;> cases y <;> first | rfl | exact absurd rfl h

/-! ### A role given -/

@[simp] theorem setRole_now (s : State) (x : Side) (r : Role) : (s.setRole x r).now = s.now := by cases x <;> rfl
@[simp] theorem setRole_uptime (s : State) (x : Side) (r : Role) : (s.setRole x r).uptime = s.uptime := by cases x <;> rfl
@[simp] theorem setRole_tick (s : State) (x : Side) (r : Role) : (s.setRole x r).tick = s.tick := by cases x <;> rfl
@[simp] theorem setRole_mode (s : State) (x : Side) (r : Role) : (s.setRole x r).mode = s.mode := by cases x <;> rfl
@[simp] theorem setRole_a (s : State) (x : Side) (r : Role) : (s.setRole x r).a = s.a := by cases x <;> rfl
@[simp] theorem setRole_b (s : State) (x : Side) (r : Role) : (s.setRole x r).b = s.b := by cases x <;> rfl
@[simp] theorem setRole_bank1 (s : State) (x : Side) (r : Role) : (s.setRole x r).bank1 = s.bank1 := by cases x <;> rfl
@[simp] theorem setRole_bank2 (s : State) (x : Side) (r : Role) : (s.setRole x r).bank2 = s.bank2 := by cases x <;> rfl
@[simp] theorem setRole_events (s : State) (x : Side) (r : Role) : (s.setRole x r).events = s.events := by cases x <;> rfl
@[simp] theorem setRole_agree (s : State) (x : Side) (r : Role) : (s.setRole x r).agree = s.agree := by cases x <;> rfl
@[simp] theorem setRole_arb (s : State) (x : Side) (r : Role) : (s.setRole x r).arb = s.arb := by cases x <;> rfl
@[simp] theorem setRole_dkh (s : State) (x : Side) (r : Role) : (s.setRole x r).dkh = s.dkh := by cases x <;> rfl
@[simp] theorem setRole_slDown (s : State) (x : Side) (r : Role) : (s.setRole x r).slDown = s.slDown := by cases x <;> rfl
@[simp] theorem setRole_tp (s : State) (x : Side) (r : Role) : (s.setRole x r).tp = s.tp := by cases x <;> rfl
@[simp] theorem setRole_pins (s : State) (x : Side) (r : Role) : (s.setRole x r).pins = s.pins := by cases x <;> rfl
@[simp] theorem setRole_canRec (s : State) (x : Side) (r : Role) : (s.setRole x r).canRec = s.canRec := by cases x <;> rfl
@[simp] theorem setRole_sup (s : State) (x : Side) (r : Role) : (s.setRole x r).sup = s.sup := by cases x <;> rfl
@[simp] theorem setRole_bol (s : State) (x : Side) (r : Role) : (s.setRole x r).bol = s.bol := by cases x <;> rfl
@[simp] theorem setRole_tbs (s : State) (x : Side) (r : Role) : (s.setRole x r).tbs = s.tbs := by cases x <;> rfl
@[simp] theorem setRole_ref (s : State) (x : Side) (r : Role) : (s.setRole x r).ref = s.ref := by cases x <;> rfl
@[simp] theorem setRole_aid (s : State) (x : Side) (r : Role) : (s.setRole x r).aid = s.aid := by cases x <;> rfl
@[simp] theorem setRole_latch (s : State) (x : Side) (r : Role) : (s.setRole x r).latch = s.latch := by cases x <;> rfl
@[simp] theorem setRole_pendLow (s : State) (x : Side) (r : Role) : (s.setRole x r).pendLow = s.pendLow := by cases x <;> rfl
@[simp] theorem setRole_shared (s : State) (x : Side) (r : Role) : (s.setRole x r).shared = s.shared := by cases x <;> rfl
@[simp] theorem setRole_pur (s : State) (x : Side) (r : Role) : (s.setRole x r).pur = s.pur := by cases x <;> rfl
@[simp] theorem setRole_rtc (s : State) (x : Side) (r : Role) : (s.setRole x r).rtc = s.rtc := by cases x <;> rfl
@[simp] theorem setRole_log (s : State) (x : Side) (r : Role) : (s.setRole x r).log = s.log := by cases x <;> rfl
@[simp] theorem setRole_lastRaised (s : State) (x : Side) (r : Role) : (s.setRole x r).lastRaised = s.lastRaised := by cases x <;> rfl
@[simp] theorem setRole_resp (s : State) (x : Side) (r : Role) : (s.setRole x r).resp = s.resp := by cases x <;> rfl
@[simp] theorem setRole_free (s : State) (x : Side) (r : Role) : (s.setRole x r).free = s.free := by cases x <;> rfl
@[simp] theorem setRole_pending (s : State) (x : Side) (r : Role) : (s.setRole x r).pending = s.pending := by cases x <;> rfl
@[simp] theorem setRole_tie (s : State) (x : Side) (r : Role) : (s.setRole x r).tie = s.tie := by cases x <;> rfl

@[simp] theorem setRole_role (s : State) (x : Side) (r : Role) : (s.setRole x r).role x = r := by cases x <;> rfl
@[simp] theorem setRole_ld (s : State) (x y : Side) (r : Role) : (s.setRole x r).ld y = s.ld y := by cases x <;> cases y <;> rfl
@[simp] theorem modLd_role (s : State) (x y : Side) (f : Landing → Landing) : (s.modLd x f).role y = s.role y := by cases x <;> cases y <;> rfl

/-! ### Partitions, ports and holds -/

@[simp] theorem modPart_now (s : State) (p : Nat) (f : Partition → Partition) : (s.modPart p f).now = s.now := rfl
@[simp] theorem modPart_uptime (s : State) (p : Nat) (f : Partition → Partition) : (s.modPart p f).uptime = s.uptime := rfl
@[simp] theorem modPart_tick (s : State) (p : Nat) (f : Partition → Partition) : (s.modPart p f).tick = s.tick := rfl
@[simp] theorem modPart_mode (s : State) (p : Nat) (f : Partition → Partition) : (s.modPart p f).mode = s.mode := rfl
@[simp] theorem modPart_a (s : State) (p : Nat) (f : Partition → Partition) : (s.modPart p f).a = s.a := rfl
@[simp] theorem modPart_b (s : State) (p : Nat) (f : Partition → Partition) : (s.modPart p f).b = s.b := rfl
@[simp] theorem modPart_roleA (s : State) (p : Nat) (f : Partition → Partition) : (s.modPart p f).roleA = s.roleA := rfl
@[simp] theorem modPart_roleB (s : State) (p : Nat) (f : Partition → Partition) : (s.modPart p f).roleB = s.roleB := rfl
@[simp] theorem modPart_bank1 (s : State) (p : Nat) (f : Partition → Partition) : (s.modPart p f).bank1 = s.bank1 := rfl
@[simp] theorem modPart_bank2 (s : State) (p : Nat) (f : Partition → Partition) : (s.modPart p f).bank2 = s.bank2 := rfl
@[simp] theorem modPart_events (s : State) (p : Nat) (f : Partition → Partition) : (s.modPart p f).events = s.events := rfl
@[simp] theorem modPart_agree (s : State) (p : Nat) (f : Partition → Partition) : (s.modPart p f).agree = s.agree := rfl
@[simp] theorem modPart_arb (s : State) (p : Nat) (f : Partition → Partition) : (s.modPart p f).arb = s.arb := rfl
@[simp] theorem modPart_dkh (s : State) (p : Nat) (f : Partition → Partition) : (s.modPart p f).dkh = s.dkh := rfl
@[simp] theorem modPart_slDown (s : State) (p : Nat) (f : Partition → Partition) : (s.modPart p f).slDown = s.slDown := rfl
@[simp] theorem modPart_tp (s : State) (p : Nat) (f : Partition → Partition) : (s.modPart p f).tp = s.tp := rfl
@[simp] theorem modPart_pins (s : State) (p : Nat) (f : Partition → Partition) : (s.modPart p f).pins = s.pins := rfl
@[simp] theorem modPart_canRec (s : State) (p : Nat) (f : Partition → Partition) : (s.modPart p f).canRec = s.canRec := rfl
@[simp] theorem modPart_sup (s : State) (p : Nat) (f : Partition → Partition) : (s.modPart p f).sup = s.sup := rfl
@[simp] theorem modPart_bol (s : State) (p : Nat) (f : Partition → Partition) : (s.modPart p f).bol = s.bol := rfl
@[simp] theorem modPart_tbs (s : State) (p : Nat) (f : Partition → Partition) : (s.modPart p f).tbs = s.tbs := rfl
@[simp] theorem modPart_ref (s : State) (p : Nat) (f : Partition → Partition) : (s.modPart p f).ref = s.ref := rfl
@[simp] theorem modPart_aid (s : State) (p : Nat) (f : Partition → Partition) : (s.modPart p f).aid = s.aid := rfl
@[simp] theorem modPart_latch (s : State) (p : Nat) (f : Partition → Partition) : (s.modPart p f).latch = s.latch := rfl
@[simp] theorem modPart_pendLow (s : State) (p : Nat) (f : Partition → Partition) : (s.modPart p f).pendLow = s.pendLow := rfl
@[simp] theorem modPart_shared (s : State) (p : Nat) (f : Partition → Partition) : (s.modPart p f).shared = s.shared := rfl
@[simp] theorem modPart_rtc (s : State) (p : Nat) (f : Partition → Partition) : (s.modPart p f).rtc = s.rtc := rfl
@[simp] theorem modPart_log (s : State) (p : Nat) (f : Partition → Partition) : (s.modPart p f).log = s.log := rfl
@[simp] theorem modPart_lastRaised (s : State) (p : Nat) (f : Partition → Partition) : (s.modPart p f).lastRaised = s.lastRaised := rfl
@[simp] theorem modPart_resp (s : State) (p : Nat) (f : Partition → Partition) : (s.modPart p f).resp = s.resp := rfl
@[simp] theorem modPart_free (s : State) (p : Nat) (f : Partition → Partition) : (s.modPart p f).free = s.free := rfl
@[simp] theorem modPart_pending (s : State) (p : Nat) (f : Partition → Partition) : (s.modPart p f).pending = s.pending := rfl
@[simp] theorem modPart_tie (s : State) (p : Nat) (f : Partition → Partition) : (s.modPart p f).tie = s.tie := rfl

@[simp] theorem modPart_ld (s : State) (p : Nat) (f : Partition → Partition) (x : Side) : (s.modPart p f).ld x = s.ld x := by cases x <;> rfl


@[simp] theorem modPort_now (s : State) (n : Nat) (f : PurPort → PurPort) : (s.modPort n f).now = s.now := rfl
@[simp] theorem modPort_uptime (s : State) (n : Nat) (f : PurPort → PurPort) : (s.modPort n f).uptime = s.uptime := rfl
@[simp] theorem modPort_tick (s : State) (n : Nat) (f : PurPort → PurPort) : (s.modPort n f).tick = s.tick := rfl
@[simp] theorem modPort_mode (s : State) (n : Nat) (f : PurPort → PurPort) : (s.modPort n f).mode = s.mode := rfl
@[simp] theorem modPort_a (s : State) (n : Nat) (f : PurPort → PurPort) : (s.modPort n f).a = s.a := rfl
@[simp] theorem modPort_b (s : State) (n : Nat) (f : PurPort → PurPort) : (s.modPort n f).b = s.b := rfl
@[simp] theorem modPort_roleA (s : State) (n : Nat) (f : PurPort → PurPort) : (s.modPort n f).roleA = s.roleA := rfl
@[simp] theorem modPort_roleB (s : State) (n : Nat) (f : PurPort → PurPort) : (s.modPort n f).roleB = s.roleB := rfl
@[simp] theorem modPort_bank1 (s : State) (n : Nat) (f : PurPort → PurPort) : (s.modPort n f).bank1 = s.bank1 := rfl
@[simp] theorem modPort_bank2 (s : State) (n : Nat) (f : PurPort → PurPort) : (s.modPort n f).bank2 = s.bank2 := rfl
@[simp] theorem modPort_events (s : State) (n : Nat) (f : PurPort → PurPort) : (s.modPort n f).events = s.events := rfl
@[simp] theorem modPort_agree (s : State) (n : Nat) (f : PurPort → PurPort) : (s.modPort n f).agree = s.agree := rfl
@[simp] theorem modPort_arb (s : State) (n : Nat) (f : PurPort → PurPort) : (s.modPort n f).arb = s.arb := rfl
@[simp] theorem modPort_dkh (s : State) (n : Nat) (f : PurPort → PurPort) : (s.modPort n f).dkh = s.dkh := rfl
@[simp] theorem modPort_slDown (s : State) (n : Nat) (f : PurPort → PurPort) : (s.modPort n f).slDown = s.slDown := rfl
@[simp] theorem modPort_tp (s : State) (n : Nat) (f : PurPort → PurPort) : (s.modPort n f).tp = s.tp := rfl
@[simp] theorem modPort_pins (s : State) (n : Nat) (f : PurPort → PurPort) : (s.modPort n f).pins = s.pins := rfl
@[simp] theorem modPort_canRec (s : State) (n : Nat) (f : PurPort → PurPort) : (s.modPort n f).canRec = s.canRec := rfl
@[simp] theorem modPort_sup (s : State) (n : Nat) (f : PurPort → PurPort) : (s.modPort n f).sup = s.sup := rfl
@[simp] theorem modPort_bol (s : State) (n : Nat) (f : PurPort → PurPort) : (s.modPort n f).bol = s.bol := rfl
@[simp] theorem modPort_tbs (s : State) (n : Nat) (f : PurPort → PurPort) : (s.modPort n f).tbs = s.tbs := rfl
@[simp] theorem modPort_ref (s : State) (n : Nat) (f : PurPort → PurPort) : (s.modPort n f).ref = s.ref := rfl
@[simp] theorem modPort_aid (s : State) (n : Nat) (f : PurPort → PurPort) : (s.modPort n f).aid = s.aid := rfl
@[simp] theorem modPort_latch (s : State) (n : Nat) (f : PurPort → PurPort) : (s.modPort n f).latch = s.latch := rfl
@[simp] theorem modPort_pendLow (s : State) (n : Nat) (f : PurPort → PurPort) : (s.modPort n f).pendLow = s.pendLow := rfl
@[simp] theorem modPort_shared (s : State) (n : Nat) (f : PurPort → PurPort) : (s.modPort n f).shared = s.shared := rfl
@[simp] theorem modPort_rtc (s : State) (n : Nat) (f : PurPort → PurPort) : (s.modPort n f).rtc = s.rtc := rfl
@[simp] theorem modPort_log (s : State) (n : Nat) (f : PurPort → PurPort) : (s.modPort n f).log = s.log := rfl
@[simp] theorem modPort_lastRaised (s : State) (n : Nat) (f : PurPort → PurPort) : (s.modPort n f).lastRaised = s.lastRaised := rfl
@[simp] theorem modPort_resp (s : State) (n : Nat) (f : PurPort → PurPort) : (s.modPort n f).resp = s.resp := rfl
@[simp] theorem modPort_free (s : State) (n : Nat) (f : PurPort → PurPort) : (s.modPort n f).free = s.free := rfl
@[simp] theorem modPort_pending (s : State) (n : Nat) (f : PurPort → PurPort) : (s.modPort n f).pending = s.pending := rfl
@[simp] theorem modPort_tie (s : State) (n : Nat) (f : PurPort → PurPort) : (s.modPort n f).tie = s.tie := rfl


@[simp] theorem setHold_now (s : State) (r : Nat) (h : Option Hold) : (s.setHold r h).now = s.now := rfl
@[simp] theorem setHold_uptime (s : State) (r : Nat) (h : Option Hold) : (s.setHold r h).uptime = s.uptime := rfl
@[simp] theorem setHold_tick (s : State) (r : Nat) (h : Option Hold) : (s.setHold r h).tick = s.tick := rfl
@[simp] theorem setHold_mode (s : State) (r : Nat) (h : Option Hold) : (s.setHold r h).mode = s.mode := rfl
@[simp] theorem setHold_a (s : State) (r : Nat) (h : Option Hold) : (s.setHold r h).a = s.a := rfl
@[simp] theorem setHold_b (s : State) (r : Nat) (h : Option Hold) : (s.setHold r h).b = s.b := rfl
@[simp] theorem setHold_roleA (s : State) (r : Nat) (h : Option Hold) : (s.setHold r h).roleA = s.roleA := rfl
@[simp] theorem setHold_roleB (s : State) (r : Nat) (h : Option Hold) : (s.setHold r h).roleB = s.roleB := rfl
@[simp] theorem setHold_bank1 (s : State) (r : Nat) (h : Option Hold) : (s.setHold r h).bank1 = s.bank1 := rfl
@[simp] theorem setHold_bank2 (s : State) (r : Nat) (h : Option Hold) : (s.setHold r h).bank2 = s.bank2 := rfl
@[simp] theorem setHold_events (s : State) (r : Nat) (h : Option Hold) : (s.setHold r h).events = s.events := rfl
@[simp] theorem setHold_agree (s : State) (r : Nat) (h : Option Hold) : (s.setHold r h).agree = s.agree := rfl
@[simp] theorem setHold_arb (s : State) (r : Nat) (h : Option Hold) : (s.setHold r h).arb = s.arb := rfl
@[simp] theorem setHold_dkh (s : State) (r : Nat) (h : Option Hold) : (s.setHold r h).dkh = s.dkh := rfl
@[simp] theorem setHold_slDown (s : State) (r : Nat) (h : Option Hold) : (s.setHold r h).slDown = s.slDown := rfl
@[simp] theorem setHold_tp (s : State) (r : Nat) (h : Option Hold) : (s.setHold r h).tp = s.tp := rfl
@[simp] theorem setHold_pins (s : State) (r : Nat) (h : Option Hold) : (s.setHold r h).pins = s.pins := rfl
@[simp] theorem setHold_canRec (s : State) (r : Nat) (h : Option Hold) : (s.setHold r h).canRec = s.canRec := rfl
@[simp] theorem setHold_sup (s : State) (r : Nat) (h : Option Hold) : (s.setHold r h).sup = s.sup := rfl
@[simp] theorem setHold_bol (s : State) (r : Nat) (h : Option Hold) : (s.setHold r h).bol = s.bol := rfl
@[simp] theorem setHold_tbs (s : State) (r : Nat) (h : Option Hold) : (s.setHold r h).tbs = s.tbs := rfl
@[simp] theorem setHold_ref (s : State) (r : Nat) (h : Option Hold) : (s.setHold r h).ref = s.ref := rfl
@[simp] theorem setHold_aid (s : State) (r : Nat) (h : Option Hold) : (s.setHold r h).aid = s.aid := rfl
@[simp] theorem setHold_latch (s : State) (r : Nat) (h : Option Hold) : (s.setHold r h).latch = s.latch := rfl
@[simp] theorem setHold_pendLow (s : State) (r : Nat) (h : Option Hold) : (s.setHold r h).pendLow = s.pendLow := rfl
@[simp] theorem setHold_shared (s : State) (r : Nat) (h : Option Hold) : (s.setHold r h).shared = s.shared := rfl
@[simp] theorem setHold_rtc (s : State) (r : Nat) (h : Option Hold) : (s.setHold r h).rtc = s.rtc := rfl
@[simp] theorem setHold_log (s : State) (r : Nat) (h : Option Hold) : (s.setHold r h).log = s.log := rfl
@[simp] theorem setHold_lastRaised (s : State) (r : Nat) (h : Option Hold) : (s.setHold r h).lastRaised = s.lastRaised := rfl
@[simp] theorem setHold_resp (s : State) (r : Nat) (h : Option Hold) : (s.setHold r h).resp = s.resp := rfl
@[simp] theorem setHold_free (s : State) (r : Nat) (h : Option Hold) : (s.setHold r h).free = s.free := rfl
@[simp] theorem setHold_pending (s : State) (r : Nat) (h : Option Hold) : (s.setHold r h).pending = s.pending := rfl
@[simp] theorem setHold_tie (s : State) (r : Nat) (h : Option Hold) : (s.setHold r h).tie = s.tie := rfl

/-! ### Entries, completions and the log -/

@[simp] theorem postEntry_now (p q : Nat) (e : EvEntry) (s : State) : (postEntry p q e s).now = s.now := rfl
@[simp] theorem postEntry_uptime (p q : Nat) (e : EvEntry) (s : State) : (postEntry p q e s).uptime = s.uptime := rfl
@[simp] theorem postEntry_tick (p q : Nat) (e : EvEntry) (s : State) : (postEntry p q e s).tick = s.tick := rfl
@[simp] theorem postEntry_mode (p q : Nat) (e : EvEntry) (s : State) : (postEntry p q e s).mode = s.mode := rfl
@[simp] theorem postEntry_a (p q : Nat) (e : EvEntry) (s : State) : (postEntry p q e s).a = s.a := rfl
@[simp] theorem postEntry_b (p q : Nat) (e : EvEntry) (s : State) : (postEntry p q e s).b = s.b := rfl
@[simp] theorem postEntry_roleA (p q : Nat) (e : EvEntry) (s : State) : (postEntry p q e s).roleA = s.roleA := rfl
@[simp] theorem postEntry_roleB (p q : Nat) (e : EvEntry) (s : State) : (postEntry p q e s).roleB = s.roleB := rfl
@[simp] theorem postEntry_bank1 (p q : Nat) (e : EvEntry) (s : State) : (postEntry p q e s).bank1 = s.bank1 := rfl
@[simp] theorem postEntry_bank2 (p q : Nat) (e : EvEntry) (s : State) : (postEntry p q e s).bank2 = s.bank2 := rfl
@[simp] theorem postEntry_events (p q : Nat) (e : EvEntry) (s : State) : (postEntry p q e s).events = s.events := rfl
@[simp] theorem postEntry_agree (p q : Nat) (e : EvEntry) (s : State) : (postEntry p q e s).agree = s.agree := rfl
@[simp] theorem postEntry_arb (p q : Nat) (e : EvEntry) (s : State) : (postEntry p q e s).arb = s.arb := rfl
@[simp] theorem postEntry_dkh (p q : Nat) (e : EvEntry) (s : State) : (postEntry p q e s).dkh = s.dkh := rfl
@[simp] theorem postEntry_slDown (p q : Nat) (e : EvEntry) (s : State) : (postEntry p q e s).slDown = s.slDown := rfl
@[simp] theorem postEntry_tp (p q : Nat) (e : EvEntry) (s : State) : (postEntry p q e s).tp = s.tp := rfl
@[simp] theorem postEntry_pins (p q : Nat) (e : EvEntry) (s : State) : (postEntry p q e s).pins = s.pins := rfl
@[simp] theorem postEntry_canRec (p q : Nat) (e : EvEntry) (s : State) : (postEntry p q e s).canRec = s.canRec := rfl
@[simp] theorem postEntry_sup (p q : Nat) (e : EvEntry) (s : State) : (postEntry p q e s).sup = s.sup := rfl
@[simp] theorem postEntry_bol (p q : Nat) (e : EvEntry) (s : State) : (postEntry p q e s).bol = s.bol := rfl
@[simp] theorem postEntry_tbs (p q : Nat) (e : EvEntry) (s : State) : (postEntry p q e s).tbs = s.tbs := rfl
@[simp] theorem postEntry_ref (p q : Nat) (e : EvEntry) (s : State) : (postEntry p q e s).ref = s.ref := rfl
@[simp] theorem postEntry_aid (p q : Nat) (e : EvEntry) (s : State) : (postEntry p q e s).aid = s.aid := rfl
@[simp] theorem postEntry_latch (p q : Nat) (e : EvEntry) (s : State) : (postEntry p q e s).latch = s.latch := rfl
@[simp] theorem postEntry_pendLow (p q : Nat) (e : EvEntry) (s : State) : (postEntry p q e s).pendLow = s.pendLow := rfl
@[simp] theorem postEntry_shared (p q : Nat) (e : EvEntry) (s : State) : (postEntry p q e s).shared = s.shared := rfl
@[simp] theorem postEntry_rtc (p q : Nat) (e : EvEntry) (s : State) : (postEntry p q e s).rtc = s.rtc := rfl
@[simp] theorem postEntry_log (p q : Nat) (e : EvEntry) (s : State) : (postEntry p q e s).log = s.log := rfl
@[simp] theorem postEntry_lastRaised (p q : Nat) (e : EvEntry) (s : State) : (postEntry p q e s).lastRaised = s.lastRaised := rfl
@[simp] theorem postEntry_resp (p q : Nat) (e : EvEntry) (s : State) : (postEntry p q e s).resp = s.resp := rfl
@[simp] theorem postEntry_free (p q : Nat) (e : EvEntry) (s : State) : (postEntry p q e s).free = s.free := rfl
@[simp] theorem postEntry_pending (p q : Nat) (e : EvEntry) (s : State) : (postEntry p q e s).pending = s.pending := rfl
@[simp] theorem postEntry_tie (p q : Nat) (e : EvEntry) (s : State) : (postEntry p q e s).tie = s.tie := rfl


theorem complete_shape (c : Pend) (st : Status) (d : List Byte) (p : Bool) (s : State) : complete c st d p s = { s with pur := (complete c st d p s).pur } := by
  unfold complete; dsimp only; split <;> rfl
@[simp] theorem complete_now (c : Pend) (st : Status) (d : List Byte) (p : Bool) (s : State) : (complete c st d p s).now = s.now := (congrArg State.now (complete_shape c st d p s)).trans rfl
@[simp] theorem complete_uptime (c : Pend) (st : Status) (d : List Byte) (p : Bool) (s : State) : (complete c st d p s).uptime = s.uptime := (congrArg State.uptime (complete_shape c st d p s)).trans rfl
@[simp] theorem complete_tick (c : Pend) (st : Status) (d : List Byte) (p : Bool) (s : State) : (complete c st d p s).tick = s.tick := (congrArg State.tick (complete_shape c st d p s)).trans rfl
@[simp] theorem complete_mode (c : Pend) (st : Status) (d : List Byte) (p : Bool) (s : State) : (complete c st d p s).mode = s.mode := (congrArg State.mode (complete_shape c st d p s)).trans rfl
@[simp] theorem complete_a (c : Pend) (st : Status) (d : List Byte) (p : Bool) (s : State) : (complete c st d p s).a = s.a := (congrArg State.a (complete_shape c st d p s)).trans rfl
@[simp] theorem complete_b (c : Pend) (st : Status) (d : List Byte) (p : Bool) (s : State) : (complete c st d p s).b = s.b := (congrArg State.b (complete_shape c st d p s)).trans rfl
@[simp] theorem complete_roleA (c : Pend) (st : Status) (d : List Byte) (p : Bool) (s : State) : (complete c st d p s).roleA = s.roleA := (congrArg State.roleA (complete_shape c st d p s)).trans rfl
@[simp] theorem complete_roleB (c : Pend) (st : Status) (d : List Byte) (p : Bool) (s : State) : (complete c st d p s).roleB = s.roleB := (congrArg State.roleB (complete_shape c st d p s)).trans rfl
@[simp] theorem complete_bank1 (c : Pend) (st : Status) (d : List Byte) (p : Bool) (s : State) : (complete c st d p s).bank1 = s.bank1 := (congrArg State.bank1 (complete_shape c st d p s)).trans rfl
@[simp] theorem complete_bank2 (c : Pend) (st : Status) (d : List Byte) (p : Bool) (s : State) : (complete c st d p s).bank2 = s.bank2 := (congrArg State.bank2 (complete_shape c st d p s)).trans rfl
@[simp] theorem complete_events (c : Pend) (st : Status) (d : List Byte) (p : Bool) (s : State) : (complete c st d p s).events = s.events := (congrArg State.events (complete_shape c st d p s)).trans rfl
@[simp] theorem complete_agree (c : Pend) (st : Status) (d : List Byte) (p : Bool) (s : State) : (complete c st d p s).agree = s.agree := (congrArg State.agree (complete_shape c st d p s)).trans rfl
@[simp] theorem complete_arb (c : Pend) (st : Status) (d : List Byte) (p : Bool) (s : State) : (complete c st d p s).arb = s.arb := (congrArg State.arb (complete_shape c st d p s)).trans rfl
@[simp] theorem complete_dkh (c : Pend) (st : Status) (d : List Byte) (p : Bool) (s : State) : (complete c st d p s).dkh = s.dkh := (congrArg State.dkh (complete_shape c st d p s)).trans rfl
@[simp] theorem complete_slDown (c : Pend) (st : Status) (d : List Byte) (p : Bool) (s : State) : (complete c st d p s).slDown = s.slDown := (congrArg State.slDown (complete_shape c st d p s)).trans rfl
@[simp] theorem complete_tp (c : Pend) (st : Status) (d : List Byte) (p : Bool) (s : State) : (complete c st d p s).tp = s.tp := (congrArg State.tp (complete_shape c st d p s)).trans rfl
@[simp] theorem complete_pins (c : Pend) (st : Status) (d : List Byte) (p : Bool) (s : State) : (complete c st d p s).pins = s.pins := (congrArg State.pins (complete_shape c st d p s)).trans rfl
@[simp] theorem complete_canRec (c : Pend) (st : Status) (d : List Byte) (p : Bool) (s : State) : (complete c st d p s).canRec = s.canRec := (congrArg State.canRec (complete_shape c st d p s)).trans rfl
@[simp] theorem complete_sup (c : Pend) (st : Status) (d : List Byte) (p : Bool) (s : State) : (complete c st d p s).sup = s.sup := (congrArg State.sup (complete_shape c st d p s)).trans rfl
@[simp] theorem complete_bol (c : Pend) (st : Status) (d : List Byte) (p : Bool) (s : State) : (complete c st d p s).bol = s.bol := (congrArg State.bol (complete_shape c st d p s)).trans rfl
@[simp] theorem complete_tbs (c : Pend) (st : Status) (d : List Byte) (p : Bool) (s : State) : (complete c st d p s).tbs = s.tbs := (congrArg State.tbs (complete_shape c st d p s)).trans rfl
@[simp] theorem complete_ref (c : Pend) (st : Status) (d : List Byte) (p : Bool) (s : State) : (complete c st d p s).ref = s.ref := (congrArg State.ref (complete_shape c st d p s)).trans rfl
@[simp] theorem complete_aid (c : Pend) (st : Status) (d : List Byte) (p : Bool) (s : State) : (complete c st d p s).aid = s.aid := (congrArg State.aid (complete_shape c st d p s)).trans rfl
@[simp] theorem complete_latch (c : Pend) (st : Status) (d : List Byte) (p : Bool) (s : State) : (complete c st d p s).latch = s.latch := (congrArg State.latch (complete_shape c st d p s)).trans rfl
@[simp] theorem complete_pendLow (c : Pend) (st : Status) (d : List Byte) (p : Bool) (s : State) : (complete c st d p s).pendLow = s.pendLow := (congrArg State.pendLow (complete_shape c st d p s)).trans rfl
@[simp] theorem complete_shared (c : Pend) (st : Status) (d : List Byte) (p : Bool) (s : State) : (complete c st d p s).shared = s.shared := (congrArg State.shared (complete_shape c st d p s)).trans rfl
@[simp] theorem complete_rtc (c : Pend) (st : Status) (d : List Byte) (p : Bool) (s : State) : (complete c st d p s).rtc = s.rtc := (congrArg State.rtc (complete_shape c st d p s)).trans rfl
@[simp] theorem complete_log (c : Pend) (st : Status) (d : List Byte) (p : Bool) (s : State) : (complete c st d p s).log = s.log := (congrArg State.log (complete_shape c st d p s)).trans rfl
@[simp] theorem complete_lastRaised (c : Pend) (st : Status) (d : List Byte) (p : Bool) (s : State) : (complete c st d p s).lastRaised = s.lastRaised := (congrArg State.lastRaised (complete_shape c st d p s)).trans rfl
@[simp] theorem complete_resp (c : Pend) (st : Status) (d : List Byte) (p : Bool) (s : State) : (complete c st d p s).resp = s.resp := (congrArg State.resp (complete_shape c st d p s)).trans rfl
@[simp] theorem complete_free (c : Pend) (st : Status) (d : List Byte) (p : Bool) (s : State) : (complete c st d p s).free = s.free := (congrArg State.free (complete_shape c st d p s)).trans rfl
@[simp] theorem complete_pending (c : Pend) (st : Status) (d : List Byte) (p : Bool) (s : State) : (complete c st d p s).pending = s.pending := (congrArg State.pending (complete_shape c st d p s)).trans rfl
@[simp] theorem complete_tie (c : Pend) (st : Status) (d : List Byte) (p : Bool) (s : State) : (complete c st d p s).tie = s.tie := (congrArg State.tie (complete_shape c st d p s)).trans rfl

@[simp] theorem complete_ld (c : Pend) (st : Status) (d : List Byte) (p : Bool) (s : State) (x : Side) :
    (complete c st d p s).ld x = s.ld x := by cases x <;> simp [State.ld]


@[simp] theorem accept_now (h : CmdHdr) (s : State) : (accept h s).now = s.now := rfl
@[simp] theorem accept_uptime (h : CmdHdr) (s : State) : (accept h s).uptime = s.uptime := rfl
@[simp] theorem accept_tick (h : CmdHdr) (s : State) : (accept h s).tick = s.tick := rfl
@[simp] theorem accept_mode (h : CmdHdr) (s : State) : (accept h s).mode = s.mode := rfl
@[simp] theorem accept_a (h : CmdHdr) (s : State) : (accept h s).a = s.a := rfl
@[simp] theorem accept_b (h : CmdHdr) (s : State) : (accept h s).b = s.b := rfl
@[simp] theorem accept_roleA (h : CmdHdr) (s : State) : (accept h s).roleA = s.roleA := rfl
@[simp] theorem accept_roleB (h : CmdHdr) (s : State) : (accept h s).roleB = s.roleB := rfl
@[simp] theorem accept_bank1 (h : CmdHdr) (s : State) : (accept h s).bank1 = s.bank1 := rfl
@[simp] theorem accept_bank2 (h : CmdHdr) (s : State) : (accept h s).bank2 = s.bank2 := rfl
@[simp] theorem accept_events (h : CmdHdr) (s : State) : (accept h s).events = s.events := rfl
@[simp] theorem accept_agree (h : CmdHdr) (s : State) : (accept h s).agree = s.agree := rfl
@[simp] theorem accept_arb (h : CmdHdr) (s : State) : (accept h s).arb = s.arb := rfl
@[simp] theorem accept_dkh (h : CmdHdr) (s : State) : (accept h s).dkh = s.dkh := rfl
@[simp] theorem accept_slDown (h : CmdHdr) (s : State) : (accept h s).slDown = s.slDown := rfl
@[simp] theorem accept_tp (h : CmdHdr) (s : State) : (accept h s).tp = s.tp := rfl
@[simp] theorem accept_pins (h : CmdHdr) (s : State) : (accept h s).pins = s.pins := rfl
@[simp] theorem accept_canRec (h : CmdHdr) (s : State) : (accept h s).canRec = s.canRec := rfl
@[simp] theorem accept_sup (h : CmdHdr) (s : State) : (accept h s).sup = s.sup := rfl
@[simp] theorem accept_bol (h : CmdHdr) (s : State) : (accept h s).bol = s.bol := rfl
@[simp] theorem accept_tbs (h : CmdHdr) (s : State) : (accept h s).tbs = s.tbs := rfl
@[simp] theorem accept_ref (h : CmdHdr) (s : State) : (accept h s).ref = s.ref := rfl
@[simp] theorem accept_aid (h : CmdHdr) (s : State) : (accept h s).aid = s.aid := rfl
@[simp] theorem accept_latch (h : CmdHdr) (s : State) : (accept h s).latch = s.latch := rfl
@[simp] theorem accept_pendLow (h : CmdHdr) (s : State) : (accept h s).pendLow = s.pendLow := rfl
@[simp] theorem accept_shared (h : CmdHdr) (s : State) : (accept h s).shared = s.shared := rfl
@[simp] theorem accept_rtc (h : CmdHdr) (s : State) : (accept h s).rtc = s.rtc := rfl
@[simp] theorem accept_log (h : CmdHdr) (s : State) : (accept h s).log = s.log := rfl
@[simp] theorem accept_lastRaised (h : CmdHdr) (s : State) : (accept h s).lastRaised = s.lastRaised := rfl
@[simp] theorem accept_resp (h : CmdHdr) (s : State) : (accept h s).resp = s.resp := rfl
@[simp] theorem accept_free (h : CmdHdr) (s : State) : (accept h s).free = s.free := rfl
@[simp] theorem accept_pending (h : CmdHdr) (s : State) : (accept h s).pending = s.pending := rfl
@[simp] theorem accept_tie (h : CmdHdr) (s : State) : (accept h s).tie = s.tie := rfl

@[simp] theorem accept_ld (h : CmdHdr) (s : State) (x : Side) : (accept h s).ld x = s.ld x := by cases x <;> rfl


theorem logPut_shape (r : LogRec) (s : State) : logPut r s = { s with log := (logPut r s).log } := by
  unfold logPut; (repeat' split) <;> rfl
@[simp] theorem logPut_now (r : LogRec) (s : State) : (logPut r s).now = s.now := (congrArg State.now (logPut_shape r s)).trans rfl
@[simp] theorem logPut_uptime (r : LogRec) (s : State) : (logPut r s).uptime = s.uptime := (congrArg State.uptime (logPut_shape r s)).trans rfl
@[simp] theorem logPut_tick (r : LogRec) (s : State) : (logPut r s).tick = s.tick := (congrArg State.tick (logPut_shape r s)).trans rfl
@[simp] theorem logPut_mode (r : LogRec) (s : State) : (logPut r s).mode = s.mode := (congrArg State.mode (logPut_shape r s)).trans rfl
@[simp] theorem logPut_a (r : LogRec) (s : State) : (logPut r s).a = s.a := (congrArg State.a (logPut_shape r s)).trans rfl
@[simp] theorem logPut_b (r : LogRec) (s : State) : (logPut r s).b = s.b := (congrArg State.b (logPut_shape r s)).trans rfl
@[simp] theorem logPut_roleA (r : LogRec) (s : State) : (logPut r s).roleA = s.roleA := (congrArg State.roleA (logPut_shape r s)).trans rfl
@[simp] theorem logPut_roleB (r : LogRec) (s : State) : (logPut r s).roleB = s.roleB := (congrArg State.roleB (logPut_shape r s)).trans rfl
@[simp] theorem logPut_bank1 (r : LogRec) (s : State) : (logPut r s).bank1 = s.bank1 := (congrArg State.bank1 (logPut_shape r s)).trans rfl
@[simp] theorem logPut_bank2 (r : LogRec) (s : State) : (logPut r s).bank2 = s.bank2 := (congrArg State.bank2 (logPut_shape r s)).trans rfl
@[simp] theorem logPut_events (r : LogRec) (s : State) : (logPut r s).events = s.events := (congrArg State.events (logPut_shape r s)).trans rfl
@[simp] theorem logPut_agree (r : LogRec) (s : State) : (logPut r s).agree = s.agree := (congrArg State.agree (logPut_shape r s)).trans rfl
@[simp] theorem logPut_arb (r : LogRec) (s : State) : (logPut r s).arb = s.arb := (congrArg State.arb (logPut_shape r s)).trans rfl
@[simp] theorem logPut_dkh (r : LogRec) (s : State) : (logPut r s).dkh = s.dkh := (congrArg State.dkh (logPut_shape r s)).trans rfl
@[simp] theorem logPut_slDown (r : LogRec) (s : State) : (logPut r s).slDown = s.slDown := (congrArg State.slDown (logPut_shape r s)).trans rfl
@[simp] theorem logPut_tp (r : LogRec) (s : State) : (logPut r s).tp = s.tp := (congrArg State.tp (logPut_shape r s)).trans rfl
@[simp] theorem logPut_pins (r : LogRec) (s : State) : (logPut r s).pins = s.pins := (congrArg State.pins (logPut_shape r s)).trans rfl
@[simp] theorem logPut_canRec (r : LogRec) (s : State) : (logPut r s).canRec = s.canRec := (congrArg State.canRec (logPut_shape r s)).trans rfl
@[simp] theorem logPut_sup (r : LogRec) (s : State) : (logPut r s).sup = s.sup := (congrArg State.sup (logPut_shape r s)).trans rfl
@[simp] theorem logPut_bol (r : LogRec) (s : State) : (logPut r s).bol = s.bol := (congrArg State.bol (logPut_shape r s)).trans rfl
@[simp] theorem logPut_tbs (r : LogRec) (s : State) : (logPut r s).tbs = s.tbs := (congrArg State.tbs (logPut_shape r s)).trans rfl
@[simp] theorem logPut_ref (r : LogRec) (s : State) : (logPut r s).ref = s.ref := (congrArg State.ref (logPut_shape r s)).trans rfl
@[simp] theorem logPut_aid (r : LogRec) (s : State) : (logPut r s).aid = s.aid := (congrArg State.aid (logPut_shape r s)).trans rfl
@[simp] theorem logPut_latch (r : LogRec) (s : State) : (logPut r s).latch = s.latch := (congrArg State.latch (logPut_shape r s)).trans rfl
@[simp] theorem logPut_pendLow (r : LogRec) (s : State) : (logPut r s).pendLow = s.pendLow := (congrArg State.pendLow (logPut_shape r s)).trans rfl
@[simp] theorem logPut_shared (r : LogRec) (s : State) : (logPut r s).shared = s.shared := (congrArg State.shared (logPut_shape r s)).trans rfl
@[simp] theorem logPut_pur (r : LogRec) (s : State) : (logPut r s).pur = s.pur := (congrArg State.pur (logPut_shape r s)).trans rfl
@[simp] theorem logPut_rtc (r : LogRec) (s : State) : (logPut r s).rtc = s.rtc := (congrArg State.rtc (logPut_shape r s)).trans rfl
@[simp] theorem logPut_lastRaised (r : LogRec) (s : State) : (logPut r s).lastRaised = s.lastRaised := (congrArg State.lastRaised (logPut_shape r s)).trans rfl
@[simp] theorem logPut_resp (r : LogRec) (s : State) : (logPut r s).resp = s.resp := (congrArg State.resp (logPut_shape r s)).trans rfl
@[simp] theorem logPut_free (r : LogRec) (s : State) : (logPut r s).free = s.free := (congrArg State.free (logPut_shape r s)).trans rfl
@[simp] theorem logPut_pending (r : LogRec) (s : State) : (logPut r s).pending = s.pending := (congrArg State.pending (logPut_shape r s)).trans rfl
@[simp] theorem logPut_tie (r : LogRec) (s : State) : (logPut r s).tie = s.tie := (congrArg State.tie (logPut_shape r s)).trans rfl


@[simp] theorem logState_now (c : Pend) (s : State) : (logState c s).now = s.now := logPut_now ..
@[simp] theorem logState_uptime (c : Pend) (s : State) : (logState c s).uptime = s.uptime := logPut_uptime ..
@[simp] theorem logState_tick (c : Pend) (s : State) : (logState c s).tick = s.tick := logPut_tick ..
@[simp] theorem logState_mode (c : Pend) (s : State) : (logState c s).mode = s.mode := logPut_mode ..
@[simp] theorem logState_a (c : Pend) (s : State) : (logState c s).a = s.a := logPut_a ..
@[simp] theorem logState_b (c : Pend) (s : State) : (logState c s).b = s.b := logPut_b ..
@[simp] theorem logState_roleA (c : Pend) (s : State) : (logState c s).roleA = s.roleA := logPut_roleA ..
@[simp] theorem logState_roleB (c : Pend) (s : State) : (logState c s).roleB = s.roleB := logPut_roleB ..
@[simp] theorem logState_bank1 (c : Pend) (s : State) : (logState c s).bank1 = s.bank1 := logPut_bank1 ..
@[simp] theorem logState_bank2 (c : Pend) (s : State) : (logState c s).bank2 = s.bank2 := logPut_bank2 ..
@[simp] theorem logState_events (c : Pend) (s : State) : (logState c s).events = s.events := logPut_events ..
@[simp] theorem logState_agree (c : Pend) (s : State) : (logState c s).agree = s.agree := logPut_agree ..
@[simp] theorem logState_arb (c : Pend) (s : State) : (logState c s).arb = s.arb := logPut_arb ..
@[simp] theorem logState_dkh (c : Pend) (s : State) : (logState c s).dkh = s.dkh := logPut_dkh ..
@[simp] theorem logState_slDown (c : Pend) (s : State) : (logState c s).slDown = s.slDown := logPut_slDown ..
@[simp] theorem logState_tp (c : Pend) (s : State) : (logState c s).tp = s.tp := logPut_tp ..
@[simp] theorem logState_pins (c : Pend) (s : State) : (logState c s).pins = s.pins := logPut_pins ..
@[simp] theorem logState_canRec (c : Pend) (s : State) : (logState c s).canRec = s.canRec := logPut_canRec ..
@[simp] theorem logState_sup (c : Pend) (s : State) : (logState c s).sup = s.sup := logPut_sup ..
@[simp] theorem logState_bol (c : Pend) (s : State) : (logState c s).bol = s.bol := logPut_bol ..
@[simp] theorem logState_tbs (c : Pend) (s : State) : (logState c s).tbs = s.tbs := logPut_tbs ..
@[simp] theorem logState_ref (c : Pend) (s : State) : (logState c s).ref = s.ref := logPut_ref ..
@[simp] theorem logState_aid (c : Pend) (s : State) : (logState c s).aid = s.aid := logPut_aid ..
@[simp] theorem logState_latch (c : Pend) (s : State) : (logState c s).latch = s.latch := logPut_latch ..
@[simp] theorem logState_pendLow (c : Pend) (s : State) : (logState c s).pendLow = s.pendLow := logPut_pendLow ..
@[simp] theorem logState_shared (c : Pend) (s : State) : (logState c s).shared = s.shared := logPut_shared ..
@[simp] theorem logState_pur (c : Pend) (s : State) : (logState c s).pur = s.pur := logPut_pur ..
@[simp] theorem logState_rtc (c : Pend) (s : State) : (logState c s).rtc = s.rtc := logPut_rtc ..
@[simp] theorem logState_lastRaised (c : Pend) (s : State) : (logState c s).lastRaised = s.lastRaised := logPut_lastRaised ..
@[simp] theorem logState_resp (c : Pend) (s : State) : (logState c s).resp = s.resp := logPut_resp ..
@[simp] theorem logState_free (c : Pend) (s : State) : (logState c s).free = s.free := logPut_free ..
@[simp] theorem logState_pending (c : Pend) (s : State) : (logState c s).pending = s.pending := logPut_pending ..
@[simp] theorem logState_tie (c : Pend) (s : State) : (logState c s).tie = s.tie := logPut_tie ..

/-! ### Time -/

theorem advance_shape (t : Nat) (s : State) : advance t s = { s with now := (advance t s).now, uptime := (advance t s).uptime, rtc := (advance t s).rtc } := by
  unfold advance; dsimp only; split <;> rfl
@[simp] theorem advance_tick (t : Nat) (s : State) : (advance t s).tick = s.tick := (congrArg State.tick (advance_shape t s)).trans rfl
@[simp] theorem advance_mode (t : Nat) (s : State) : (advance t s).mode = s.mode := (congrArg State.mode (advance_shape t s)).trans rfl
@[simp] theorem advance_a (t : Nat) (s : State) : (advance t s).a = s.a := (congrArg State.a (advance_shape t s)).trans rfl
@[simp] theorem advance_b (t : Nat) (s : State) : (advance t s).b = s.b := (congrArg State.b (advance_shape t s)).trans rfl
@[simp] theorem advance_roleA (t : Nat) (s : State) : (advance t s).roleA = s.roleA := (congrArg State.roleA (advance_shape t s)).trans rfl
@[simp] theorem advance_roleB (t : Nat) (s : State) : (advance t s).roleB = s.roleB := (congrArg State.roleB (advance_shape t s)).trans rfl
@[simp] theorem advance_bank1 (t : Nat) (s : State) : (advance t s).bank1 = s.bank1 := (congrArg State.bank1 (advance_shape t s)).trans rfl
@[simp] theorem advance_bank2 (t : Nat) (s : State) : (advance t s).bank2 = s.bank2 := (congrArg State.bank2 (advance_shape t s)).trans rfl
@[simp] theorem advance_events (t : Nat) (s : State) : (advance t s).events = s.events := (congrArg State.events (advance_shape t s)).trans rfl
@[simp] theorem advance_agree (t : Nat) (s : State) : (advance t s).agree = s.agree := (congrArg State.agree (advance_shape t s)).trans rfl
@[simp] theorem advance_arb (t : Nat) (s : State) : (advance t s).arb = s.arb := (congrArg State.arb (advance_shape t s)).trans rfl
@[simp] theorem advance_dkh (t : Nat) (s : State) : (advance t s).dkh = s.dkh := (congrArg State.dkh (advance_shape t s)).trans rfl
@[simp] theorem advance_slDown (t : Nat) (s : State) : (advance t s).slDown = s.slDown := (congrArg State.slDown (advance_shape t s)).trans rfl
@[simp] theorem advance_tp (t : Nat) (s : State) : (advance t s).tp = s.tp := (congrArg State.tp (advance_shape t s)).trans rfl
@[simp] theorem advance_pins (t : Nat) (s : State) : (advance t s).pins = s.pins := (congrArg State.pins (advance_shape t s)).trans rfl
@[simp] theorem advance_canRec (t : Nat) (s : State) : (advance t s).canRec = s.canRec := (congrArg State.canRec (advance_shape t s)).trans rfl
@[simp] theorem advance_sup (t : Nat) (s : State) : (advance t s).sup = s.sup := (congrArg State.sup (advance_shape t s)).trans rfl
@[simp] theorem advance_bol (t : Nat) (s : State) : (advance t s).bol = s.bol := (congrArg State.bol (advance_shape t s)).trans rfl
@[simp] theorem advance_tbs (t : Nat) (s : State) : (advance t s).tbs = s.tbs := (congrArg State.tbs (advance_shape t s)).trans rfl
@[simp] theorem advance_ref (t : Nat) (s : State) : (advance t s).ref = s.ref := (congrArg State.ref (advance_shape t s)).trans rfl
@[simp] theorem advance_aid (t : Nat) (s : State) : (advance t s).aid = s.aid := (congrArg State.aid (advance_shape t s)).trans rfl
@[simp] theorem advance_latch (t : Nat) (s : State) : (advance t s).latch = s.latch := (congrArg State.latch (advance_shape t s)).trans rfl
@[simp] theorem advance_pendLow (t : Nat) (s : State) : (advance t s).pendLow = s.pendLow := (congrArg State.pendLow (advance_shape t s)).trans rfl
@[simp] theorem advance_shared (t : Nat) (s : State) : (advance t s).shared = s.shared := (congrArg State.shared (advance_shape t s)).trans rfl
@[simp] theorem advance_pur (t : Nat) (s : State) : (advance t s).pur = s.pur := (congrArg State.pur (advance_shape t s)).trans rfl
@[simp] theorem advance_log (t : Nat) (s : State) : (advance t s).log = s.log := (congrArg State.log (advance_shape t s)).trans rfl
@[simp] theorem advance_lastRaised (t : Nat) (s : State) : (advance t s).lastRaised = s.lastRaised := (congrArg State.lastRaised (advance_shape t s)).trans rfl
@[simp] theorem advance_resp (t : Nat) (s : State) : (advance t s).resp = s.resp := (congrArg State.resp (advance_shape t s)).trans rfl
@[simp] theorem advance_free (t : Nat) (s : State) : (advance t s).free = s.free := (congrArg State.free (advance_shape t s)).trans rfl
@[simp] theorem advance_pending (t : Nat) (s : State) : (advance t s).pending = s.pending := (congrArg State.pending (advance_shape t s)).trans rfl
@[simp] theorem advance_tie (t : Nat) (s : State) : (advance t s).tie = s.tie := (congrArg State.tie (advance_shape t s)).trans rfl

@[simp] theorem advance_ld (t : Nat) (s : State) (x : Side) : (advance t s).ld x = s.ld x := by cases x <;> simp [State.ld]

/-- Time never runs back (00 R21). -/
theorem advance_now (t : Nat) (s : State) : (advance t s).now = max s.now (t * nsUnit) := by
  unfold advance; dsimp only; split <;> simp_all; omega

/-! ### Raising a fault -/

theorem setEvent_shape (src : Source) (code : Nat) (s : State) : setEvent src code s = { s with a := (setEvent src code s).a, b := (setEvent src code s).b, events := (setEvent src code s).events } := by
  unfold setEvent
  split
  · rfl
  · split
    · rename_i x _; cases x <;> rfl
    · rfl
@[simp] theorem setEvent_now (src : Source) (code : Nat) (s : State) : (setEvent src code s).now = s.now := (congrArg State.now (setEvent_shape src code s)).trans rfl
@[simp] theorem setEvent_uptime (src : Source) (code : Nat) (s : State) : (setEvent src code s).uptime = s.uptime := (congrArg State.uptime (setEvent_shape src code s)).trans rfl
@[simp] theorem setEvent_tick (src : Source) (code : Nat) (s : State) : (setEvent src code s).tick = s.tick := (congrArg State.tick (setEvent_shape src code s)).trans rfl
@[simp] theorem setEvent_mode (src : Source) (code : Nat) (s : State) : (setEvent src code s).mode = s.mode := (congrArg State.mode (setEvent_shape src code s)).trans rfl
@[simp] theorem setEvent_roleA (src : Source) (code : Nat) (s : State) : (setEvent src code s).roleA = s.roleA := (congrArg State.roleA (setEvent_shape src code s)).trans rfl
@[simp] theorem setEvent_roleB (src : Source) (code : Nat) (s : State) : (setEvent src code s).roleB = s.roleB := (congrArg State.roleB (setEvent_shape src code s)).trans rfl
@[simp] theorem setEvent_bank1 (src : Source) (code : Nat) (s : State) : (setEvent src code s).bank1 = s.bank1 := (congrArg State.bank1 (setEvent_shape src code s)).trans rfl
@[simp] theorem setEvent_bank2 (src : Source) (code : Nat) (s : State) : (setEvent src code s).bank2 = s.bank2 := (congrArg State.bank2 (setEvent_shape src code s)).trans rfl
@[simp] theorem setEvent_agree (src : Source) (code : Nat) (s : State) : (setEvent src code s).agree = s.agree := (congrArg State.agree (setEvent_shape src code s)).trans rfl
@[simp] theorem setEvent_arb (src : Source) (code : Nat) (s : State) : (setEvent src code s).arb = s.arb := (congrArg State.arb (setEvent_shape src code s)).trans rfl
@[simp] theorem setEvent_dkh (src : Source) (code : Nat) (s : State) : (setEvent src code s).dkh = s.dkh := (congrArg State.dkh (setEvent_shape src code s)).trans rfl
@[simp] theorem setEvent_slDown (src : Source) (code : Nat) (s : State) : (setEvent src code s).slDown = s.slDown := (congrArg State.slDown (setEvent_shape src code s)).trans rfl
@[simp] theorem setEvent_tp (src : Source) (code : Nat) (s : State) : (setEvent src code s).tp = s.tp := (congrArg State.tp (setEvent_shape src code s)).trans rfl
@[simp] theorem setEvent_pins (src : Source) (code : Nat) (s : State) : (setEvent src code s).pins = s.pins := (congrArg State.pins (setEvent_shape src code s)).trans rfl
@[simp] theorem setEvent_canRec (src : Source) (code : Nat) (s : State) : (setEvent src code s).canRec = s.canRec := (congrArg State.canRec (setEvent_shape src code s)).trans rfl
@[simp] theorem setEvent_sup (src : Source) (code : Nat) (s : State) : (setEvent src code s).sup = s.sup := (congrArg State.sup (setEvent_shape src code s)).trans rfl
@[simp] theorem setEvent_bol (src : Source) (code : Nat) (s : State) : (setEvent src code s).bol = s.bol := (congrArg State.bol (setEvent_shape src code s)).trans rfl
@[simp] theorem setEvent_tbs (src : Source) (code : Nat) (s : State) : (setEvent src code s).tbs = s.tbs := (congrArg State.tbs (setEvent_shape src code s)).trans rfl
@[simp] theorem setEvent_ref (src : Source) (code : Nat) (s : State) : (setEvent src code s).ref = s.ref := (congrArg State.ref (setEvent_shape src code s)).trans rfl
@[simp] theorem setEvent_aid (src : Source) (code : Nat) (s : State) : (setEvent src code s).aid = s.aid := (congrArg State.aid (setEvent_shape src code s)).trans rfl
@[simp] theorem setEvent_latch (src : Source) (code : Nat) (s : State) : (setEvent src code s).latch = s.latch := (congrArg State.latch (setEvent_shape src code s)).trans rfl
@[simp] theorem setEvent_pendLow (src : Source) (code : Nat) (s : State) : (setEvent src code s).pendLow = s.pendLow := (congrArg State.pendLow (setEvent_shape src code s)).trans rfl
@[simp] theorem setEvent_shared (src : Source) (code : Nat) (s : State) : (setEvent src code s).shared = s.shared := (congrArg State.shared (setEvent_shape src code s)).trans rfl
@[simp] theorem setEvent_pur (src : Source) (code : Nat) (s : State) : (setEvent src code s).pur = s.pur := (congrArg State.pur (setEvent_shape src code s)).trans rfl
@[simp] theorem setEvent_rtc (src : Source) (code : Nat) (s : State) : (setEvent src code s).rtc = s.rtc := (congrArg State.rtc (setEvent_shape src code s)).trans rfl
@[simp] theorem setEvent_log (src : Source) (code : Nat) (s : State) : (setEvent src code s).log = s.log := (congrArg State.log (setEvent_shape src code s)).trans rfl
@[simp] theorem setEvent_lastRaised (src : Source) (code : Nat) (s : State) : (setEvent src code s).lastRaised = s.lastRaised := (congrArg State.lastRaised (setEvent_shape src code s)).trans rfl
@[simp] theorem setEvent_resp (src : Source) (code : Nat) (s : State) : (setEvent src code s).resp = s.resp := (congrArg State.resp (setEvent_shape src code s)).trans rfl
@[simp] theorem setEvent_free (src : Source) (code : Nat) (s : State) : (setEvent src code s).free = s.free := (congrArg State.free (setEvent_shape src code s)).trans rfl
@[simp] theorem setEvent_pending (src : Source) (code : Nat) (s : State) : (setEvent src code s).pending = s.pending := (congrArg State.pending (setEvent_shape src code s)).trans rfl
@[simp] theorem setEvent_tie (src : Source) (code : Nat) (s : State) : (setEvent src code s).tie = s.tie := (congrArg State.tie (setEvent_shape src code s)).trans rfl


theorem postSubscribed_shape (u : Nat) (e : EvEntry) (n p : Nat) (s : State) : postSubscribed u e n p s = { s with pur := (postSubscribed u e n p s).pur } := by
  induction n generalizing p s with
  | zero => rfl
  | succ n ih => unfold postSubscribed; dsimp only; rw [ih]; split <;> rfl
@[simp] theorem postSubscribed_now (u : Nat) (e : EvEntry) (n p : Nat) (s : State) : (postSubscribed u e n p s).now = s.now := (congrArg State.now (postSubscribed_shape u e n p s)).trans rfl
@[simp] theorem postSubscribed_uptime (u : Nat) (e : EvEntry) (n p : Nat) (s : State) : (postSubscribed u e n p s).uptime = s.uptime := (congrArg State.uptime (postSubscribed_shape u e n p s)).trans rfl
@[simp] theorem postSubscribed_tick (u : Nat) (e : EvEntry) (n p : Nat) (s : State) : (postSubscribed u e n p s).tick = s.tick := (congrArg State.tick (postSubscribed_shape u e n p s)).trans rfl
@[simp] theorem postSubscribed_mode (u : Nat) (e : EvEntry) (n p : Nat) (s : State) : (postSubscribed u e n p s).mode = s.mode := (congrArg State.mode (postSubscribed_shape u e n p s)).trans rfl
@[simp] theorem postSubscribed_a (u : Nat) (e : EvEntry) (n p : Nat) (s : State) : (postSubscribed u e n p s).a = s.a := (congrArg State.a (postSubscribed_shape u e n p s)).trans rfl
@[simp] theorem postSubscribed_b (u : Nat) (e : EvEntry) (n p : Nat) (s : State) : (postSubscribed u e n p s).b = s.b := (congrArg State.b (postSubscribed_shape u e n p s)).trans rfl
@[simp] theorem postSubscribed_roleA (u : Nat) (e : EvEntry) (n p : Nat) (s : State) : (postSubscribed u e n p s).roleA = s.roleA := (congrArg State.roleA (postSubscribed_shape u e n p s)).trans rfl
@[simp] theorem postSubscribed_roleB (u : Nat) (e : EvEntry) (n p : Nat) (s : State) : (postSubscribed u e n p s).roleB = s.roleB := (congrArg State.roleB (postSubscribed_shape u e n p s)).trans rfl
@[simp] theorem postSubscribed_bank1 (u : Nat) (e : EvEntry) (n p : Nat) (s : State) : (postSubscribed u e n p s).bank1 = s.bank1 := (congrArg State.bank1 (postSubscribed_shape u e n p s)).trans rfl
@[simp] theorem postSubscribed_bank2 (u : Nat) (e : EvEntry) (n p : Nat) (s : State) : (postSubscribed u e n p s).bank2 = s.bank2 := (congrArg State.bank2 (postSubscribed_shape u e n p s)).trans rfl
@[simp] theorem postSubscribed_events (u : Nat) (e : EvEntry) (n p : Nat) (s : State) : (postSubscribed u e n p s).events = s.events := (congrArg State.events (postSubscribed_shape u e n p s)).trans rfl
@[simp] theorem postSubscribed_agree (u : Nat) (e : EvEntry) (n p : Nat) (s : State) : (postSubscribed u e n p s).agree = s.agree := (congrArg State.agree (postSubscribed_shape u e n p s)).trans rfl
@[simp] theorem postSubscribed_arb (u : Nat) (e : EvEntry) (n p : Nat) (s : State) : (postSubscribed u e n p s).arb = s.arb := (congrArg State.arb (postSubscribed_shape u e n p s)).trans rfl
@[simp] theorem postSubscribed_dkh (u : Nat) (e : EvEntry) (n p : Nat) (s : State) : (postSubscribed u e n p s).dkh = s.dkh := (congrArg State.dkh (postSubscribed_shape u e n p s)).trans rfl
@[simp] theorem postSubscribed_slDown (u : Nat) (e : EvEntry) (n p : Nat) (s : State) : (postSubscribed u e n p s).slDown = s.slDown := (congrArg State.slDown (postSubscribed_shape u e n p s)).trans rfl
@[simp] theorem postSubscribed_tp (u : Nat) (e : EvEntry) (n p : Nat) (s : State) : (postSubscribed u e n p s).tp = s.tp := (congrArg State.tp (postSubscribed_shape u e n p s)).trans rfl
@[simp] theorem postSubscribed_pins (u : Nat) (e : EvEntry) (n p : Nat) (s : State) : (postSubscribed u e n p s).pins = s.pins := (congrArg State.pins (postSubscribed_shape u e n p s)).trans rfl
@[simp] theorem postSubscribed_canRec (u : Nat) (e : EvEntry) (n p : Nat) (s : State) : (postSubscribed u e n p s).canRec = s.canRec := (congrArg State.canRec (postSubscribed_shape u e n p s)).trans rfl
@[simp] theorem postSubscribed_sup (u : Nat) (e : EvEntry) (n p : Nat) (s : State) : (postSubscribed u e n p s).sup = s.sup := (congrArg State.sup (postSubscribed_shape u e n p s)).trans rfl
@[simp] theorem postSubscribed_bol (u : Nat) (e : EvEntry) (n p : Nat) (s : State) : (postSubscribed u e n p s).bol = s.bol := (congrArg State.bol (postSubscribed_shape u e n p s)).trans rfl
@[simp] theorem postSubscribed_tbs (u : Nat) (e : EvEntry) (n p : Nat) (s : State) : (postSubscribed u e n p s).tbs = s.tbs := (congrArg State.tbs (postSubscribed_shape u e n p s)).trans rfl
@[simp] theorem postSubscribed_ref (u : Nat) (e : EvEntry) (n p : Nat) (s : State) : (postSubscribed u e n p s).ref = s.ref := (congrArg State.ref (postSubscribed_shape u e n p s)).trans rfl
@[simp] theorem postSubscribed_aid (u : Nat) (e : EvEntry) (n p : Nat) (s : State) : (postSubscribed u e n p s).aid = s.aid := (congrArg State.aid (postSubscribed_shape u e n p s)).trans rfl
@[simp] theorem postSubscribed_latch (u : Nat) (e : EvEntry) (n p : Nat) (s : State) : (postSubscribed u e n p s).latch = s.latch := (congrArg State.latch (postSubscribed_shape u e n p s)).trans rfl
@[simp] theorem postSubscribed_pendLow (u : Nat) (e : EvEntry) (n p : Nat) (s : State) : (postSubscribed u e n p s).pendLow = s.pendLow := (congrArg State.pendLow (postSubscribed_shape u e n p s)).trans rfl
@[simp] theorem postSubscribed_shared (u : Nat) (e : EvEntry) (n p : Nat) (s : State) : (postSubscribed u e n p s).shared = s.shared := (congrArg State.shared (postSubscribed_shape u e n p s)).trans rfl
@[simp] theorem postSubscribed_rtc (u : Nat) (e : EvEntry) (n p : Nat) (s : State) : (postSubscribed u e n p s).rtc = s.rtc := (congrArg State.rtc (postSubscribed_shape u e n p s)).trans rfl
@[simp] theorem postSubscribed_log (u : Nat) (e : EvEntry) (n p : Nat) (s : State) : (postSubscribed u e n p s).log = s.log := (congrArg State.log (postSubscribed_shape u e n p s)).trans rfl
@[simp] theorem postSubscribed_lastRaised (u : Nat) (e : EvEntry) (n p : Nat) (s : State) : (postSubscribed u e n p s).lastRaised = s.lastRaised := (congrArg State.lastRaised (postSubscribed_shape u e n p s)).trans rfl
@[simp] theorem postSubscribed_resp (u : Nat) (e : EvEntry) (n p : Nat) (s : State) : (postSubscribed u e n p s).resp = s.resp := (congrArg State.resp (postSubscribed_shape u e n p s)).trans rfl
@[simp] theorem postSubscribed_free (u : Nat) (e : EvEntry) (n p : Nat) (s : State) : (postSubscribed u e n p s).free = s.free := (congrArg State.free (postSubscribed_shape u e n p s)).trans rfl
@[simp] theorem postSubscribed_pending (u : Nat) (e : EvEntry) (n p : Nat) (s : State) : (postSubscribed u e n p s).pending = s.pending := (congrArg State.pending (postSubscribed_shape u e n p s)).trans rfl
@[simp] theorem postSubscribed_tie (u : Nat) (e : EvEntry) (n p : Nat) (s : State) : (postSubscribed u e n p s).tie = s.tie := (congrArg State.tie (postSubscribed_shape u e n p s)).trans rfl

@[simp] theorem postSubscribed_ld (u : Nat) (e : EvEntry) (n p : Nat) (s : State) (x : Side) :
    (postSubscribed u e n p s).ld x = s.ld x := by cases x <;> simp [State.ld]


@[simp] theorem accuse_now (x : Side) (code : Nat) (sev : Sev) (s : State) : (accuse x code sev s).now = s.now := modLd_now ..
@[simp] theorem accuse_uptime (x : Side) (code : Nat) (sev : Sev) (s : State) : (accuse x code sev s).uptime = s.uptime := modLd_uptime ..
@[simp] theorem accuse_tick (x : Side) (code : Nat) (sev : Sev) (s : State) : (accuse x code sev s).tick = s.tick := modLd_tick ..
@[simp] theorem accuse_mode (x : Side) (code : Nat) (sev : Sev) (s : State) : (accuse x code sev s).mode = s.mode := modLd_mode ..
@[simp] theorem accuse_roleA (x : Side) (code : Nat) (sev : Sev) (s : State) : (accuse x code sev s).roleA = s.roleA := modLd_roleA ..
@[simp] theorem accuse_roleB (x : Side) (code : Nat) (sev : Sev) (s : State) : (accuse x code sev s).roleB = s.roleB := modLd_roleB ..
@[simp] theorem accuse_bank1 (x : Side) (code : Nat) (sev : Sev) (s : State) : (accuse x code sev s).bank1 = s.bank1 := modLd_bank1 ..
@[simp] theorem accuse_bank2 (x : Side) (code : Nat) (sev : Sev) (s : State) : (accuse x code sev s).bank2 = s.bank2 := modLd_bank2 ..
@[simp] theorem accuse_events (x : Side) (code : Nat) (sev : Sev) (s : State) : (accuse x code sev s).events = s.events := modLd_events ..
@[simp] theorem accuse_agree (x : Side) (code : Nat) (sev : Sev) (s : State) : (accuse x code sev s).agree = s.agree := modLd_agree ..
@[simp] theorem accuse_arb (x : Side) (code : Nat) (sev : Sev) (s : State) : (accuse x code sev s).arb = s.arb := modLd_arb ..
@[simp] theorem accuse_dkh (x : Side) (code : Nat) (sev : Sev) (s : State) : (accuse x code sev s).dkh = s.dkh := modLd_dkh ..
@[simp] theorem accuse_slDown (x : Side) (code : Nat) (sev : Sev) (s : State) : (accuse x code sev s).slDown = s.slDown := modLd_slDown ..
@[simp] theorem accuse_tp (x : Side) (code : Nat) (sev : Sev) (s : State) : (accuse x code sev s).tp = s.tp := modLd_tp ..
@[simp] theorem accuse_pins (x : Side) (code : Nat) (sev : Sev) (s : State) : (accuse x code sev s).pins = s.pins := modLd_pins ..
@[simp] theorem accuse_canRec (x : Side) (code : Nat) (sev : Sev) (s : State) : (accuse x code sev s).canRec = s.canRec := modLd_canRec ..
@[simp] theorem accuse_sup (x : Side) (code : Nat) (sev : Sev) (s : State) : (accuse x code sev s).sup = s.sup := modLd_sup ..
@[simp] theorem accuse_bol (x : Side) (code : Nat) (sev : Sev) (s : State) : (accuse x code sev s).bol = s.bol := modLd_bol ..
@[simp] theorem accuse_tbs (x : Side) (code : Nat) (sev : Sev) (s : State) : (accuse x code sev s).tbs = s.tbs := modLd_tbs ..
@[simp] theorem accuse_ref (x : Side) (code : Nat) (sev : Sev) (s : State) : (accuse x code sev s).ref = s.ref := modLd_ref ..
@[simp] theorem accuse_aid (x : Side) (code : Nat) (sev : Sev) (s : State) : (accuse x code sev s).aid = s.aid := modLd_aid ..
@[simp] theorem accuse_latch (x : Side) (code : Nat) (sev : Sev) (s : State) : (accuse x code sev s).latch = s.latch := modLd_latch ..
@[simp] theorem accuse_pendLow (x : Side) (code : Nat) (sev : Sev) (s : State) : (accuse x code sev s).pendLow = s.pendLow := modLd_pendLow ..
@[simp] theorem accuse_shared (x : Side) (code : Nat) (sev : Sev) (s : State) : (accuse x code sev s).shared = s.shared := modLd_shared ..
@[simp] theorem accuse_pur (x : Side) (code : Nat) (sev : Sev) (s : State) : (accuse x code sev s).pur = s.pur := modLd_pur ..
@[simp] theorem accuse_rtc (x : Side) (code : Nat) (sev : Sev) (s : State) : (accuse x code sev s).rtc = s.rtc := modLd_rtc ..
@[simp] theorem accuse_log (x : Side) (code : Nat) (sev : Sev) (s : State) : (accuse x code sev s).log = s.log := modLd_log ..
@[simp] theorem accuse_lastRaised (x : Side) (code : Nat) (sev : Sev) (s : State) : (accuse x code sev s).lastRaised = s.lastRaised := modLd_lastRaised ..
@[simp] theorem accuse_resp (x : Side) (code : Nat) (sev : Sev) (s : State) : (accuse x code sev s).resp = s.resp := modLd_resp ..
@[simp] theorem accuse_free (x : Side) (code : Nat) (sev : Sev) (s : State) : (accuse x code sev s).free = s.free := modLd_free ..
@[simp] theorem accuse_pending (x : Side) (code : Nat) (sev : Sev) (s : State) : (accuse x code sev s).pending = s.pending := modLd_pending ..
@[simp] theorem accuse_tie (x : Side) (code : Nat) (sev : Sev) (s : State) : (accuse x code sev s).tie = s.tie := modLd_tie ..

/-- `t` differs from `s` in the landings, the event registers, the purser and the log only: what raising a fault may change. -/
def Told (t s : State) : Prop := t = { s with a := t.a, b := t.b, events := t.events, pur := t.pur, log := t.log }

theorem told_refl (s : State) : Told s s := rfl
theorem told_trans {t u s : State} (h : Told t u) (k : Told u s) : Told t s := h.trans (by rw [k])
theorem told_ite {c : Prop} [Decidable c] {t u s : State} (h : Told t s) (k : Told u s) : Told (if c then t else u) s := by
  split <;> assumption
theorem told_setEvent (src : Source) (code : Nat) (s : State) : Told (setEvent src code s) s := by
  unfold setEvent
  split
  · rfl
  · split
    · rename_i x _; cases x <;> rfl
    · rfl
theorem told_postSubscribed (u : Nat) (e : EvEntry) (n p : Nat) (s : State) : Told (postSubscribed u e n p s) s := by
  induction n generalizing p s with
  | zero => rfl
  | succ n ih => unfold postSubscribed; dsimp only; exact told_trans (ih ..) (told_ite rfl rfl)
theorem told_logPut (r : LogRec) (s : State) : Told (logPut r s) s := by
  unfold logPut; (repeat' split) <;> rfl
theorem told_accuse (x : Side) (code : Nat) (sev : Sev) (s : State) : Told (accuse x code sev s) s := by cases x <;> rfl
theorem told_postEvent (src : Source) (code detail : Nat) (sev : Sev) (s : State) : Told (postEvent src code detail sev s) s :=
  told_ite (told_postSubscribed ..) rfl
theorem told_setAlarm (src : Source) (code : Nat) (sev : Sev) (s : State) : Told (setAlarm src code sev s) s := told_ite rfl rfl
theorem told_accuseFor (src : Source) (code : Nat) (sev : Sev) (s : State) : Told (accuseFor src code sev s) s := by
  unfold accuseFor; split
  · exact told_accuse ..
  · rfl
theorem told_react (src : Source) (code detail : Nat) (sev : Sev) (s : State) : Told (react src code detail sev s) s :=
  told_trans (told_accuseFor ..) (told_trans (told_setAlarm ..) (told_trans (told_postEvent ..) (told_setEvent ..)))

/-- All that raising a fault can do (00 R28): one lemma, which the field lemmas below read off. -/
theorem told_raise (src : Source) (code detail : Nat) (s : State) : Told (raise src code detail s) s := by
  unfold raise raiseOwn
  split
  · rfl
  · exact told_trans (told_react ..) (told_logPut ..)

@[simp] theorem raise_now (src : Source) (code detail : Nat) (s : State) : (raise src code detail s).now = s.now :=
  (congrArg State.now (told_raise src code detail s)).trans rfl
@[simp] theorem raise_uptime (src : Source) (code detail : Nat) (s : State) : (raise src code detail s).uptime = s.uptime :=
  (congrArg State.uptime (told_raise src code detail s)).trans rfl
@[simp] theorem raise_tick (src : Source) (code detail : Nat) (s : State) : (raise src code detail s).tick = s.tick :=
  (congrArg State.tick (told_raise src code detail s)).trans rfl
@[simp] theorem raise_mode (src : Source) (code detail : Nat) (s : State) : (raise src code detail s).mode = s.mode :=
  (congrArg State.mode (told_raise src code detail s)).trans rfl
@[simp] theorem raise_roleA (src : Source) (code detail : Nat) (s : State) : (raise src code detail s).roleA = s.roleA :=
  (congrArg State.roleA (told_raise src code detail s)).trans rfl
@[simp] theorem raise_roleB (src : Source) (code detail : Nat) (s : State) : (raise src code detail s).roleB = s.roleB :=
  (congrArg State.roleB (told_raise src code detail s)).trans rfl
@[simp] theorem raise_bank1 (src : Source) (code detail : Nat) (s : State) : (raise src code detail s).bank1 = s.bank1 :=
  (congrArg State.bank1 (told_raise src code detail s)).trans rfl
@[simp] theorem raise_bank2 (src : Source) (code detail : Nat) (s : State) : (raise src code detail s).bank2 = s.bank2 :=
  (congrArg State.bank2 (told_raise src code detail s)).trans rfl
@[simp] theorem raise_agree (src : Source) (code detail : Nat) (s : State) : (raise src code detail s).agree = s.agree :=
  (congrArg State.agree (told_raise src code detail s)).trans rfl
@[simp] theorem raise_arb (src : Source) (code detail : Nat) (s : State) : (raise src code detail s).arb = s.arb :=
  (congrArg State.arb (told_raise src code detail s)).trans rfl
@[simp] theorem raise_dkh (src : Source) (code detail : Nat) (s : State) : (raise src code detail s).dkh = s.dkh :=
  (congrArg State.dkh (told_raise src code detail s)).trans rfl
@[simp] theorem raise_slDown (src : Source) (code detail : Nat) (s : State) : (raise src code detail s).slDown = s.slDown :=
  (congrArg State.slDown (told_raise src code detail s)).trans rfl
@[simp] theorem raise_tp (src : Source) (code detail : Nat) (s : State) : (raise src code detail s).tp = s.tp :=
  (congrArg State.tp (told_raise src code detail s)).trans rfl
@[simp] theorem raise_pins (src : Source) (code detail : Nat) (s : State) : (raise src code detail s).pins = s.pins :=
  (congrArg State.pins (told_raise src code detail s)).trans rfl
@[simp] theorem raise_canRec (src : Source) (code detail : Nat) (s : State) : (raise src code detail s).canRec = s.canRec :=
  (congrArg State.canRec (told_raise src code detail s)).trans rfl
@[simp] theorem raise_sup (src : Source) (code detail : Nat) (s : State) : (raise src code detail s).sup = s.sup :=
  (congrArg State.sup (told_raise src code detail s)).trans rfl
@[simp] theorem raise_bol (src : Source) (code detail : Nat) (s : State) : (raise src code detail s).bol = s.bol :=
  (congrArg State.bol (told_raise src code detail s)).trans rfl
@[simp] theorem raise_tbs (src : Source) (code detail : Nat) (s : State) : (raise src code detail s).tbs = s.tbs :=
  (congrArg State.tbs (told_raise src code detail s)).trans rfl
@[simp] theorem raise_ref (src : Source) (code detail : Nat) (s : State) : (raise src code detail s).ref = s.ref :=
  (congrArg State.ref (told_raise src code detail s)).trans rfl
@[simp] theorem raise_aid (src : Source) (code detail : Nat) (s : State) : (raise src code detail s).aid = s.aid :=
  (congrArg State.aid (told_raise src code detail s)).trans rfl
@[simp] theorem raise_latch (src : Source) (code detail : Nat) (s : State) : (raise src code detail s).latch = s.latch :=
  (congrArg State.latch (told_raise src code detail s)).trans rfl
@[simp] theorem raise_pendLow (src : Source) (code detail : Nat) (s : State) : (raise src code detail s).pendLow = s.pendLow :=
  (congrArg State.pendLow (told_raise src code detail s)).trans rfl
@[simp] theorem raise_shared (src : Source) (code detail : Nat) (s : State) : (raise src code detail s).shared = s.shared :=
  (congrArg State.shared (told_raise src code detail s)).trans rfl
@[simp] theorem raise_rtc (src : Source) (code detail : Nat) (s : State) : (raise src code detail s).rtc = s.rtc :=
  (congrArg State.rtc (told_raise src code detail s)).trans rfl
@[simp] theorem raise_lastRaised (src : Source) (code detail : Nat) (s : State) : (raise src code detail s).lastRaised = s.lastRaised :=
  (congrArg State.lastRaised (told_raise src code detail s)).trans rfl
@[simp] theorem raise_resp (src : Source) (code detail : Nat) (s : State) : (raise src code detail s).resp = s.resp :=
  (congrArg State.resp (told_raise src code detail s)).trans rfl
@[simp] theorem raise_free (src : Source) (code detail : Nat) (s : State) : (raise src code detail s).free = s.free :=
  (congrArg State.free (told_raise src code detail s)).trans rfl
@[simp] theorem raise_pending (src : Source) (code detail : Nat) (s : State) : (raise src code detail s).pending = s.pending :=
  (congrArg State.pending (told_raise src code detail s)).trans rfl
@[simp] theorem raise_tie (src : Source) (code detail : Nat) (s : State) : (raise src code detail s).tie = s.tie :=
  (congrArg State.tie (told_raise src code detail s)).trans rfl
end Sys2Proof.Machine
end

