-- ==== Sys2Proof/Laws/Table.lean ====
section
/-!
SUPPORT. Tables: a read after a write, and that every table operation keeps the canonical form (`Tab.wf`).
-/
namespace Sys2Proof

variable {α : Type}

@[simp] theorem Tab.get_nil (d : α) (i : Nat) : Tab.get d [] i = d := rfl

theorem Tab.get_erase (d : α) (t : Tab α) (i j : Nat) : Tab.get d (Tab.erase t i) j = if j = i then d else Tab.get d t j := by
  induction t with
  | nil => simp [Tab.erase, Tab.get]
  | cons e t ih =>
    obtain ⟨k, v⟩ := e
    by_cases h : k = i
    · subst h
      by_cases hj : j = k
      · subst hj; simpa [Tab.erase] using ih
      · simp [Tab.erase, Tab.get, ih, hj, Ne.symm hj]
    · by_cases hk : k = j
      · subst hk; simp [Tab.erase, Tab.get, h]
      · simp [Tab.erase, Tab.get, h, hk, ih]

theorem Tab.get_ins (d : α) (t : Tab α) (i : Nat) (v : α) (j : Nat) (h : ∀ e ∈ t, e.1 ≠ i) :
    Tab.get d (Tab.ins i v t) j = if j = i then v else Tab.get d t j := by
  induction t with
  | nil => by_cases hj : i = j <;> simp [Tab.ins, Tab.get, hj, eq_comm]
  | cons e t ih =>
    obtain ⟨k, w⟩ := e
    have hk : k ≠ i := h (k, w) (by simp)
    have ht := ih (fun e he => h e (by simp [he]))
    by_cases hl : i < k
    · by_cases hj : i = j
      · subst hj; simp [Tab.ins, Tab.get, hl]
      · simp [Tab.ins, Tab.get, hl, hj, Ne.symm hj]
    · by_cases hj : k = j
      · subst hj; simp [Tab.ins, Tab.get, hl, hk]
      · simp [Tab.ins, Tab.get, hl, hj, ht]

theorem Tab.erase_ne (t : Tab α) (i : Nat) : ∀ e ∈ Tab.erase t i, e.1 ≠ i := by
  induction t with
  | nil => simp [Tab.erase]
  | cons e t ih =>
    obtain ⟨k, v⟩ := e
    by_cases h : k = i
    · simpa [Tab.erase, h] using ih
    · intro e he
      simp only [Tab.erase, h, ↓reduceIte, List.mem_cons] at he
      rcases he with rfl | he
      · exact h
      · exact ih e he

/-- A read after a write (of any entry). -/
theorem Tab.get_set [DecidableEq α] (d : α) (t : Tab α) (i : Nat) (v : α) (j : Nat) :
    Tab.get d (Tab.set d t i v) j = if j = i then v else Tab.get d t j := by
  unfold Tab.set
  split
  · rename_i h; subst h; exact Tab.get_erase ..
  · rw [Tab.get_ins _ _ _ _ _ (Tab.erase_ne t i), Tab.get_erase]; split <;> rfl

@[simp] theorem Tab.get_set_self [DecidableEq α] (d : α) (t : Tab α) (i : Nat) (v : α) : Tab.get d (Tab.set d t i v) i = v := by
  simp [Tab.get_set]

theorem Tab.get_set_ne [DecidableEq α] (d : α) (t : Tab α) (i : Nat) (v : α) (j : Nat) (h : j ≠ i) :
    Tab.get d (Tab.set d t i v) j = Tab.get d t j := by simp [Tab.get_set, h]

@[simp] theorem Tab.get_upd_self [DecidableEq α] (d : α) (t : Tab α) (i : Nat) (f : α → α) :
    Tab.get d (Tab.upd d t i f) i = f (Tab.get d t i) := by simp [Tab.upd]

theorem Tab.get_upd [DecidableEq α] (d : α) (t : Tab α) (i : Nat) (f : α → α) (j : Nat) :
    Tab.get d (Tab.upd d t i f) j = if j = i then f (Tab.get d t i) else Tab.get d t j := by simp [Tab.upd, Tab.get_set]

/-! ### The canonical form -/

/-- The canonical form, said by membership. -/
theorem Tab.wf_cons [DecidableEq α] (d : α) (k : Nat) (v : α) (t : Tab α) :
    Tab.wf d ((k, v) :: t) = true ↔ v ≠ d ∧ (∀ e ∈ t, k < e.1) ∧ Tab.wf d t = true := by
  induction t generalizing k v with
  | nil => simp [Tab.wf]
  | cons e t ih =>
    obtain ⟨k', v'⟩ := e
    have h := ih k' v'
    simp only [Tab.wf, Bool.and_eq_true, decide_eq_true_eq, List.mem_cons, forall_eq_or_imp]
    constructor
    · rintro ⟨⟨hv, hk⟩, hw⟩
      exact ⟨hv, ⟨hk, fun e he => lt_trans hk ((h.mp hw).2.1 e he)⟩, hw⟩
    · rintro ⟨hv, ⟨hk, -⟩, hw⟩
      exact ⟨⟨hv, hk⟩, hw⟩

theorem Tab.erase_mem (t : Tab α) (i : Nat) : ∀ e ∈ Tab.erase t i, e ∈ t := by
  induction t with
  | nil => simp [Tab.erase]
  | cons e t ih =>
    obtain ⟨k, v⟩ := e
    intro e he
    by_cases h : k = i
    · simp only [Tab.erase, h, ↓reduceIte] at he; exact List.mem_cons_of_mem _ (ih e he)
    · simp only [Tab.erase, h, ↓reduceIte, List.mem_cons] at he ⊢
      exact he.imp id (ih e)

theorem Tab.erase_wf [DecidableEq α] (d : α) (t : Tab α) (i : Nat) (h : Tab.wf d t = true) : Tab.wf d (Tab.erase t i) = true := by
  induction t with
  | nil => rfl
  | cons e t ih =>
    obtain ⟨k, v⟩ := e
    obtain ⟨hv, hk, ht⟩ := (Tab.wf_cons ..).mp h
    by_cases hi : k = i
    · simpa [Tab.erase, hi] using ih ht
    · simp only [Tab.erase, hi, ↓reduceIte]
      exact (Tab.wf_cons ..).mpr ⟨hv, fun e he => hk e (Tab.erase_mem t i e he), ih ht⟩

theorem Tab.ins_mem (t : Tab α) (i : Nat) (v : α) : ∀ e ∈ Tab.ins i v t, e = (i, v) ∨ e ∈ t := by
  induction t with
  | nil => simp [Tab.ins]
  | cons e t ih =>
    obtain ⟨k, w⟩ := e
    intro e he
    by_cases h : i < k
    · simpa [Tab.ins, h] using he
    · simp only [Tab.ins, h, ↓reduceIte, List.mem_cons] at he ⊢
      rcases he with rfl | he
      · exact .inr (.inl rfl)
      · exact (ih e he).imp id .inr

theorem Tab.ins_wf [DecidableEq α] (d : α) (t : Tab α) (i : Nat) (v : α) (hv : v ≠ d) (hi : ∀ e ∈ t, e.1 ≠ i)
    (h : Tab.wf d t = true) : Tab.wf d (Tab.ins i v t) = true := by
  induction t with
  | nil => simp [Tab.ins, Tab.wf, hv]
  | cons e t ih =>
    obtain ⟨k, w⟩ := e
    obtain ⟨hw, hk, ht⟩ := (Tab.wf_cons ..).mp h
    by_cases hl : i < k
    · simp only [Tab.ins, hl, ↓reduceIte]
      refine (Tab.wf_cons ..).mpr ⟨hv, ?_, h⟩
      intro e he
      rcases List.mem_cons.mp he with rfl | he
      · exact hl
      · exact lt_trans hl (hk e he)
    · simp only [Tab.ins, hl, ↓reduceIte]
      have hki : k < i := by have := hi (k, w) (by simp); simp only at this; omega
      refine (Tab.wf_cons ..).mpr ⟨hw, ?_, ih (fun e he => hi e (by simp [he])) ht⟩
      intro e he
      rcases Tab.ins_mem t i v e he with rfl | he
      · exact hki
      · exact hk e he

/-- A write keeps the canonical form. -/
theorem Tab.set_wf [DecidableEq α] (d : α) (t : Tab α) (i : Nat) (v : α) (h : Tab.wf d t = true) :
    Tab.wf d (Tab.set d t i v) = true := by
  unfold Tab.set
  split
  · exact Tab.erase_wf d t i h
  · rename_i hv; exact Tab.ins_wf d _ i v hv (Tab.erase_ne t i) (Tab.erase_wf d t i h)

theorem Tab.upd_wf [DecidableEq α] (d : α) (t : Tab α) (i : Nat) (f : α → α) (h : Tab.wf d t = true) :
    Tab.wf d (Tab.upd d t i f) = true := Tab.set_wf d t i _ h

/-- Leaving out entries keeps the canonical form. -/
theorem Tab.filter_wf [DecidableEq α] (d : α) (t : Tab α) (p : Nat × α → Bool) (h : Tab.wf d t = true) :
    Tab.wf d (t.filter p) = true := by
  induction t with
  | nil => rfl
  | cons e t ih =>
    obtain ⟨k, v⟩ := e
    obtain ⟨hv, hk, ht⟩ := (Tab.wf_cons ..).mp h
    by_cases hp : p (k, v) = true
    · simp only [List.filter_cons, hp, ↓reduceIte]
      exact (Tab.wf_cons ..).mpr ⟨hv, fun e he => hk e (List.mem_filter.mp he).1, ih ht⟩
    · simpa [List.filter_cons, hp] using ih ht

/-- Two canonical tables one after the other are canonical when the first's numbers lie below the second's. -/
theorem Tab.append_wf [DecidableEq α] (d : α) (t u : Tab α) (ht : Tab.wf d t = true) (hu : Tab.wf d u = true)
    (h : ∀ e ∈ t, ∀ f ∈ u, e.1 < f.1) : Tab.wf d (t ++ u) = true := by
  induction t with
  | nil => exact hu
  | cons e t ih =>
    obtain ⟨k, v⟩ := e
    obtain ⟨hv, hk, hw⟩ := (Tab.wf_cons ..).mp ht
    refine (Tab.wf_cons ..).mpr ⟨hv, ?_, ih hw (fun e he => h e (by simp [he]))⟩
    intro f hf
    rcases List.mem_append.mp hf with hf | hf
    · exact hk f hf
    · exact h (k, v) (by simp) f hf

/-- Tables that read alike are equal. -/
theorem Tab.ext [DecidableEq α] (d : α) (t u : Tab α) (ht : Tab.wf d t = true) (hu : Tab.wf d u = true)
    (h : ∀ i, Tab.get d t i = Tab.get d u i) : t = u := by
  have low : ∀ (w : Tab α) (i : Nat), (∀ e ∈ w, i < e.1) → Tab.get d w i = d := by
    intro w i hw
    induction w with
    | nil => rfl
    | cons e w ih =>
      obtain ⟨k, v⟩ := e
      have := hw (k, v) (by simp)
      simp only [Tab.get, if_neg (show ¬k = i by simp only at this; omega)]
      exact ih (fun e he => hw e (by simp [he]))
  induction t generalizing u with
  | nil =>
    cases u with
    | nil => rfl
    | cons e u =>
      obtain ⟨k, v⟩ := e
      have := h k
      simp [Tab.get] at this
      exact absurd this.symm ((Tab.wf_cons ..).mp hu).1
  | cons e t ih =>
    obtain ⟨k, v⟩ := e
    obtain ⟨hv, hk, hw⟩ := (Tab.wf_cons ..).mp ht
    cases u with
    | nil => have := h k; simp [Tab.get] at this; exact absurd this hv
    | cons e u =>
      obtain ⟨k', v'⟩ := e
      obtain ⟨hv', hk', hw'⟩ := (Tab.wf_cons ..).mp hu
      have hkk : k = k' := by
        rcases lt_trichotomy k k' with hl | hl | hl
        · have := h k
          simp only [Tab.get, if_neg (show ¬k' = k by omega), ↓reduceIte] at this
          rw [low u k (fun e he => lt_trans hl (hk' e he))] at this
          exact absurd this hv
        · exact hl
        · have := h k'
          simp only [Tab.get, if_neg (show ¬k = k' by omega), ↓reduceIte] at this
          rw [low t k' (fun e he => lt_trans hl (hk e he))] at this
          exact absurd this.symm hv'
      subst hkk
      have hvv : v = v' := by simpa [Tab.get] using h k
      subst hvv
      congr 1
      refine ih u hw hw' (fun i => ?_)
      by_cases hi : k = i
      · subst hi; rw [low t k hk, low u k hk']
      · simpa [Tab.get, hi] using h i

end Sys2Proof
end

