-- ==== Sys2Proof/Laws/Memory.lean ====
section
/-!
SUPPORT. A landing's memories: a read after a write, and that every operation that writes memory or flash keeps the canonical
form (`Landing.memWf`). Reset has it.
-/
namespace Sys2Proof.Machine

/-! ### Bytes -/

/-- The bytes after `putBytes`: those written, and every other as before. -/
theorem putBytes_get (t : Tab Byte) (o : Nat) (bs : List Byte) (j : Nat) :
    Tab.get 0 (putBytes t o bs) j = if o ≤ j ∧ j < o + bs.length then bs.getD (j - o) 0 else Tab.get 0 t j := by
  induction bs generalizing t o with
  | nil => simp [putBytes]
  | cons b r ih =>
    rw [putBytes, ih, Tab.get_set]
    by_cases h1 : j = o
    · subst h1
      rw [if_neg (by omega), if_pos rfl, if_pos (by simp)]; simp
    · by_cases h2 : o + 1 ≤ j ∧ j < o + 1 + r.length
      · rw [if_pos h2, if_pos (by simp; omega)]
        obtain ⟨k, rfl⟩ : ∃ k, j = o + 1 + k := ⟨j - (o + 1), by omega⟩
        rw [show o + 1 + k - (o + 1) = k by omega, show o + 1 + k - o = k + 1 by omega]; simp
      · rw [if_neg h2, if_neg h1, if_neg (by simp; omega)]

theorem putBytes_wf (t : Tab Byte) (o : Nat) (bs : List Byte) (h : Memory.wf t = true) : Memory.wf (putBytes t o bs) = true := by
  induction bs generalizing t o with
  | nil => exact h
  | cons b r ih => exact ih _ _ (Tab.set_wf 0 t o b h)

/-- Tables that agree on a range spell the same number there. -/
theorem le_congr (t u : Tab Byte) (o n : Nat) (h : ∀ j, o ≤ j → j < o + n → Tab.get 0 t j = Tab.get 0 u j) : le t o n = le u o n := by
  induction n generalizing o with
  | zero => rfl
  | succ n ih => rw [le, le, h o (by omega) (by omega), ih (o + 1) (fun j a b => h j (by omega) (by omega))]

@[simp] theorem leBytes_length (n v : Nat) : (leBytes n v).length = n := by
  induction n generalizing v with
  | zero => rfl
  | succ n ih => simp [leBytes, ih]

/-- The number that `n` bytes just written spell. -/
theorem le_leBytes (t : Tab Byte) (o n v : Nat) : le (putBytes t o (leBytes n v)) o n = v % 2 ^ (8 * n) := by
  induction n generalizing t o v with
  | zero => simp [le, Nat.mod_one]
  | succ n ih =>
    rw [leBytes, putBytes, le, ih, putBytes_get, if_neg (by omega), Tab.get_set_self]
    rw [show 8 * (n + 1) = 8 * n + 8 by omega, Nat.pow_add, Nat.mul_comm (2 ^ (8 * n)), Nat.mod_mul]
    simp [BitVec.toNat_ofNat]

/-! ### Words -/

/-- A 64-bit word written reads back. -/
theorem rawWord_put (l : Landing) (a : Nat) (v : DWord) (y : Byte) : rawWord (rawPut l a v y).mem a = v := by
  unfold rawWord rawPut
  simp only [le_leBytes]
  apply BitVec.eq_of_toNat_eq
  have := v.isLt
  simp; omega

/-- A word written leaves every word that does not overlap it. -/
theorem rawWord_put_ne (l : Landing) (a b : Nat) (v : DWord) (y : Byte) (h : b + 8 ≤ a ∨ a + 8 ≤ b) :
    rawWord (rawPut l a v y).mem b = rawWord l.mem b := by
  unfold rawWord rawPut
  simp only
  rw [le_congr _ l.mem b 8]
  intro j h1 h2
  rw [putBytes_get, if_neg (by simp; omega)]

@[simp] theorem markBlock_remap (m : MemInt) (a : Nat) : (markBlock m a).remap = m.remap := by
  unfold markBlock; dsimp only; split <;> rfl

@[simp] theorem physical_markBlock (m : MemInt) (a b : Nat) : physical (markBlock m a) b = physical m b := by
  simp [physical, remapOf]

theorem classify_clean : classify 0 = .clean := by decide
theorem classify_poison : classify poisonSyn = .stored := by decide

/-- What a read of a word gives after it is written: the value, poisoned as it was written (12 R450, R451). -/
theorem peekWord_ldWrite (l : Landing) (a : Nat) (w : Pw) : peekWord (ldWrite l a w) a = w := by
  obtain ⟨v, p⟩ := w
  have hp : physical (ldWrite l a ⟨v, p⟩).memi a = physical l.memi a := by simp [ldWrite, rawPut]
  have hy : Tab.get 0 (ldWrite l a ⟨v, p⟩).syn (physical l.memi a / 8) = if p then poisonSyn else 0 := by simp [ldWrite, rawPut]
  have hv : rawWord (ldWrite l a ⟨v, p⟩).mem (physical l.memi a) = v := by
    have := rawWord_put { l with memi := markBlock l.memi a } (physical l.memi a) v (if p then poisonSyn else 0)
    simpa [ldWrite] using this
  unfold peekWord
  simp only [hp, hy, hv]
  cases p
  · rw [if_neg (by simp), classify_clean]
  · rw [if_pos rfl, classify_poison]

/-- What a read of another word gives after a word is written: what it gave before. -/
theorem peekWord_ldWrite_ne (l : Landing) (a b : Nat) (w : Pw)
    (h : physical l.memi b + 8 ≤ physical l.memi a ∨ physical l.memi a + 8 ≤ physical l.memi b) :
    peekWord (ldWrite l a w) b = peekWord l b := by
  have hp : physical (ldWrite l a w).memi b = physical l.memi b := by simp [ldWrite, rawPut]
  have hy : Tab.get 0 (ldWrite l a w).syn (physical l.memi b / 8) = Tab.get 0 l.syn (physical l.memi b / 8) := by
    simp only [ldWrite, rawPut, physical_markBlock]
    rw [Tab.get_set_ne]; omega
  have hv : rawWord (ldWrite l a w).mem (physical l.memi b) = rawWord l.mem (physical l.memi b) := by
    have := rawWord_put_ne { l with memi := markBlock l.memi a } (physical l.memi a) (physical l.memi b) w.v
      (if w.p then poisonSyn else 0) h
    simpa [ldWrite] using this
  unfold peekWord
  simp only [hp, hy, hv]

/-! ### The canonical form -/

theorem memWf_iff (l : Landing) : l.memWf = true ↔ Memory.wf l.mem = true ∧ Memory.wf l.syn = true ∧ flashWf l.flash = true := by
  simp [Landing.memWf, and_assoc]

theorem reset_memWf (x : Side) : (State.reset.ld x).memWf = true := by cases x <;> rfl

theorem rawPut_memWf (l : Landing) (a : Nat) (v : DWord) (y : Byte) (h : l.memWf = true) : (rawPut l a v y).memWf = true := by
  rw [memWf_iff] at *
  exact ⟨putBytes_wf _ _ _ h.1, Tab.set_wf 0 _ _ _ h.2.1, h.2.2⟩

theorem ldWrite_memWf (l : Landing) (a : Nat) (w : Pw) (h : l.memWf = true) : (ldWrite l a w).memWf = true :=
  rawPut_memWf _ _ _ _ h

theorem memWrite_memWf (x y : Side) (a : Nat) (w : Pw) (s : State) (h : (s.ld y).memWf = true) :
    ((memWrite x a w s).ld y).memWf = true := by
  by_cases hy : y = x
  · subst hy; rw [memWrite, modLd_ld]; exact ldWrite_memWf _ _ _ h
  · rw [memWrite, modLd_ne _ _ _ _ hy]; exact h

theorem clearRange_memWf (l : Landing) (a n : Nat) (h : l.memWf = true) : (clearRange l a n).memWf = true := by
  rw [memWf_iff] at *
  exact ⟨Tab.filter_wf 0 _ _ h.1, Tab.filter_wf 0 _ _ h.2.1, h.2.2⟩

theorem putAll_memWf (l : Landing) (ps : List (Nat × List Byte)) (h : l.memWf = true) : (putAll l ps).memWf = true := by
  induction ps generalizing l with
  | nil => exact h
  | cons p t ih =>
    refine ih _ ?_
    rw [memWf_iff] at *
    exact ⟨putBytes_wf _ _ _ h.1, Tab.filter_wf 0 _ _ h.2.1, h.2.2⟩

/-- Moving entries by a strictly rising renumbering keeps the canonical form. -/
theorem map_wf (t : List Host.Cell) (f : Nat → Nat) (hf : ∀ e ∈ t, ∀ g ∈ t, e.1 < g.1 → f e.1 < f g.1) (h : Memory.wf t = true) :
    Memory.wf (t.map (fun c => (f c.1, c.2))) = true := by
  induction t with
  | nil => rfl
  | cons e t ih =>
    obtain ⟨k, v⟩ := e
    obtain ⟨hv, hk, ht⟩ := (Tab.wf_cons ..).mp h
    refine (Tab.wf_cons ..).mpr ⟨hv, ?_, ih (fun e he g hg => hf e (by simp [he]) g (by simp [hg])) ht⟩
    intro e he
    obtain ⟨c, hc, rfl⟩ := List.mem_map.mp he
    exact hf (k, v) (by simp) c (by simp [hc]) (hk c hc)

theorem swapCells_wf (m : List Host.Cell) (a n : Nat) (h : Memory.wf m = true) : Memory.wf (swapCells m a n) = true := by
  unfold swapCells Memory.wf
  refine Tab.append_wf 0 _ _ (Tab.append_wf 0 _ _ (Tab.append_wf 0 _ _ (Tab.filter_wf 0 _ _ h) ?_ ?_) ?_ ?_) (Tab.filter_wf 0 _ _ h) ?_
  · refine map_wf _ (fun k => k - n) ?_ (Tab.filter_wf 0 _ _ h)
    intro e he g hg hl
    have h1 := (List.mem_filter.mp he).2
    have h2 := (List.mem_filter.mp hg).2
    simp at h1 h2 ⊢
    omega
  · intro e he f hf
    obtain ⟨c, hc, rfl⟩ := List.mem_map.mp hf
    have h1 := (List.mem_filter.mp he).2
    have h2 := (List.mem_filter.mp hc).2
    simp at h1 h2 ⊢
    omega
  · exact map_wf _ (fun k => k + n) (fun e _ g _ hl => by omega) (Tab.filter_wf 0 _ _ h)
  · intro e he f hf
    obtain ⟨c, hc, rfl⟩ := List.mem_map.mp hf
    have h2 := (List.mem_filter.mp hc).2
    rcases List.mem_append.mp he with he | he
    · have h1 := (List.mem_filter.mp he).2
      simp at h1 h2 ⊢; omega
    · obtain ⟨d, hd, rfl⟩ := List.mem_map.mp he
      have h1 := (List.mem_filter.mp hd).2
      simp at h1 h2 ⊢; omega
  · intro e he f hf
    have h2 := (List.mem_filter.mp hf).2
    rcases List.mem_append.mp he with he | he
    · rcases List.mem_append.mp he with he | he
      · have h1 := (List.mem_filter.mp he).2
        simp at h1 h2 ⊢; omega
      · obtain ⟨d, hd, rfl⟩ := List.mem_map.mp he
        have h1 := (List.mem_filter.mp hd).2
        simp at h1 h2 ⊢; omega
    · obtain ⟨d, hd, rfl⟩ := List.mem_map.mp he
      have h1 := (List.mem_filter.mp hd).2
      simp at h1 h2 ⊢; omega

theorem swapBuffers_memWf (l : Landing) (a n : Nat) (h : l.memWf = true) : (swapBuffers l a n).memWf = true := by
  rw [memWf_iff] at *
  exact ⟨swapCells_wf _ _ _ h.1, swapCells_wf _ _ _ h.2.1, h.2.2⟩

theorem flashPut_wf (f : List Host.Cell) (a : Nat) (bs : List Byte) (h : flashWf f = true) : flashWf (flashPut f a bs) = true := by
  induction bs generalizing f a with
  | nil => exact h
  | cons b t ih => exact ih _ _ (Tab.set_wf 0xFF f a b h)

theorem flashErase_wf (f : List Host.Cell) (a n : Nat) (h : flashWf f = true) : flashWf (flashErase f a n) = true :=
  Tab.filter_wf 0xFF f _ h

theorem flashApply_memWf (b : Nat) (o : FlashOp) (l : Landing) (h : l.memWf = true) : (flashApply b o l).memWf = true := by
  rw [memWf_iff] at *
  unfold flashApply
  split
  · exact ⟨h.1, h.2.1, flashErase_wf _ _ _ h.2.2⟩
  · exact ⟨h.1, h.2.1, flashPut_wf _ _ _ h.2.2⟩

theorem copyEngines_memWf (l k : Landing) (h : l.memWf = true) (hk : k.memWf = true) : (copyEngines l k).memWf = true := by
  rw [memWf_iff] at *
  have kind : ∀ n, memKind n = 5 → 0x28400000 ≤ n ∧ n < 2 ^ 32 := by
    intro n hn
    unfold memKind at hn
    (repeat' split at hn) <;> omega
  refine ⟨?_, ?_, hk.2.2⟩ <;> refine Tab.append_wf 0 _ _ (Tab.append_wf 0 _ _ (Tab.filter_wf 0 _ _ ?_) (Tab.filter_wf 0 _ _ ?_) ?_)
    (Tab.filter_wf 0 _ _ ?_) ?_
  any_goals first | exact h.1 | exact hk.1 | exact h.2.1 | exact hk.2.1
  all_goals
    intro e he f hf
    have h2 := (List.mem_filter.mp hf).2
    simp only [internalCell, decide_eq_true_eq] at h2
  · have h1 := (List.mem_filter.mp he).2
    have := kind _ h2
    simp at h1; omega
  · rcases List.mem_append.mp he with he | he
    · have h1 := (List.mem_filter.mp he).2
      simp at h1; omega
    · have h1 := (List.mem_filter.mp he).2
      simp only [internalCell, decide_eq_true_eq] at h1
      have := kind _ h1; omega
  · have h1 := (List.mem_filter.mp he).2
    have := kind _ h2
    simp at h1; omega
  · rcases List.mem_append.mp he with he | he
    · have h1 := (List.mem_filter.mp he).2
      simp at h1; omega
    · have h1 := (List.mem_filter.mp he).2
      simp only [internalCell, decide_eq_true_eq] at h1
      have := kind _ h1; omega

end Sys2Proof.Machine
end

