-- ==== Sys2Proof/Laws/Commands.lean ====
section
/-!
SUPPORT. Host commands (00 R22 to R24): when the checks pass, what a command that passes and one that fails leave.
-/
namespace Sys2Proof.Machine

@[simp] theorem done_s (s : State) : (done s).s = s := rfl
@[simp] theorem done_st (s : State) : (done s).st = .done := rfl
@[simp] theorem done_data (s : State) : (done s).data = [] := rfl
@[simp] theorem done_poison (s : State) : (done s).poison = false := rfl

@[simp] theorem advance_part (t : Nat) (s : State) (p : Nat) : (advance t s).part p = s.part p := by simp [State.part]
@[simp] theorem advance_fresh (h : CmdHdr) (t : Nat) (s : State) : fresh h (advance t s) = fresh h s := by simp [fresh]
@[simp] theorem advance_hold (t : Nat) (s : State) (r : Nat) : (advance t s).hold r = s.hold r := by simp [State.hold]

/-- All the checks of 00 R23, at once. -/
theorem check_none (h : CmdHdr) (k : Asks) (s : State) (hs : h.sound s) (hf : k.format = true) (hl : h.holds k.level s)
    (hi : k.integrity = true) (ht : k.timely = true) (hr : k.range = true) (hm : s.mode ∈ k.modes) (hst : k.state = true)
    (hb : k.free = true) (hp : k.peer = true) : checkCommand h k s = none := by
  obtain ⟨h1, h2, h3, h4, h5, h6, h7⟩ := hs
  unfold CmdHdr.holds at hl
  unfold checkCommand
  simp_all [Nat.not_lt.mpr h4, Nat.not_lt.mpr h5, Nat.not_lt.mpr hl]

/-- The command that passes. -/
theorem hostCommandF_pass (h : CmdHdr) (op : Nat) (asks : State → Asks) (eff : State → Answer) (f : Status → State → State)
    (s : State) (hc : checkCommand h (asks (advance h.at_ s)) (advance h.at_ s) = none) :
    hostCommandF h op asks eff f s
      = complete (cmdOf h op) (eff (s.begun h)).st (eff (s.begun h)).data (eff (s.begun h)).poison (eff (s.begun h)).s := by
  unfold hostCommandF; simp only [hc]; rfl

theorem hostCommand_pass (h : CmdHdr) (op : Nat) (asks : State → Asks) (eff : State → Answer) (s : State)
    (hc : checkCommand h (asks (advance h.at_ s)) (advance h.at_ s) = none) :
    hostCommand h op asks eff s
      = complete (cmdOf h op) (eff (s.begun h)).st (eff (s.begun h)).data (eff (s.begun h)).poison (eff (s.begun h)).s :=
  hostCommandF_pass h op asks eff _ s hc

/-- The command that fails a check: the status of the first check it fails, and no effect of its own (00 R23). -/
theorem hostCommand_fail (h : CmdHdr) (op : Nat) (asks : State → Asks) (eff : State → Answer) (s : State) (st : Status)
    (hc : checkCommand h (asks (advance h.at_ s)) (advance h.at_ s) = some st) :
    hostCommand h op asks eff s = (if st = .state then logState (cmdOf h op) (advance h.at_ s) else advance h.at_ s).answered h op st [] := by
  unfold hostCommand hostCommandF; simp only [hc]; rfl

/-- A header that is sound stays so while only time passes. -/
theorem sound_advance (h : CmdHdr) (t : Nat) (s : State) : h.sound (advance t s) ↔ h.sound s := by simp [CmdHdr.sound]
theorem holds_advance (h : CmdHdr) (n t : Nat) (s : State) : h.holds n (advance t s) ↔ h.holds n s := by simp [CmdHdr.holds]

end Sys2Proof.Machine
end

