-- ==== Sys2Proof/Laws/Duty.lean ====
section
/-!
SUPPORT. What almost every operation leaves: the queue of commands, the roles of the landings and the changes of role that
wait, the vessel's mode and the mode records that wait. `Same t s` says it of an operation that turns `s` into `t`;
the files after this one hold it of each operation. Only the operations of Laws/Roles.lean change one of them.
-/
namespace Sys2Proof.Machine

@[simp] abbrev Same (t s : State) : Prop :=
  t.pending = s.pending ∧ t.roleA = s.roleA ∧ t.roleB = s.roleB ∧ t.arb.due = s.arb.due ∧ t.mode = s.mode
    ∧ t.dkh.modeReqs = s.dkh.modeReqs
@[simp] theorem ite_pending (c : Prop) [Decidable c] (a b : State) : (if c then a else b).pending = if c then a.pending else b.pending := by split <;> rfl
@[simp] theorem ite_roleA (c : Prop) [Decidable c] (a b : State) : (if c then a else b).roleA = if c then a.roleA else b.roleA := by split <;> rfl
@[simp] theorem ite_roleB (c : Prop) [Decidable c] (a b : State) : (if c then a else b).roleB = if c then a.roleB else b.roleB := by split <;> rfl
@[simp] theorem ite_due (c : Prop) [Decidable c] (a b : State) : (if c then a else b).arb.due = if c then a.arb.due else b.arb.due := by split <;> rfl
@[simp] theorem ite_mode (c : Prop) [Decidable c] (a b : State) : (if c then a else b).mode = if c then a.mode else b.mode := by split <;> rfl
@[simp] theorem ite_modeReqs (c : Prop) [Decidable c] (a b : State) : (if c then a else b).dkh.modeReqs = if c then a.dkh.modeReqs else b.dkh.modeReqs := by split <;> rfl
@[simp] theorem foldl_same {α : Type} (f : State → α → State) (l : List α) (s : State) (h : ∀ s b, Same (f s b) s) :
    Same (l.foldl f s) s := by
  induction l generalizing s with
  | nil => simp
  | cons b t ih => have h1 := h s b; have h2 := ih (f s b); simp_all
@[simp] theorem elim_same {α : Type} (o : Option α) (a : State) (f : α → State) (s : State) (h0 : Same a s) (h : ∀ x, Same (f x) s) :
    Same (o.elim a f) s := by cases o <;> simp_all
theorem foldl_trans {α : Type} (f : State → α → State) (l : List α) (t s : State) (h0 : Same t s) (h : ∀ s b, Same (f s b) s) :
    Same (l.foldl f t) s := by
  have h1 := foldl_same f l t h
  simp_all
theorem foldl_pair_same {α β : Type} (f : β × State → α → β × State) (l : List α) (b : β) (t s : State) (h0 : Same t s)
    (h : ∀ b s a, Same (f (b, s) a).2 s) : Same (l.foldl f (b, t)).2 s := by
  induction l generalizing b t with
  | nil => simpa using h0
  | cons a l ih =>
    have h1 := h b t a
    have h2 := ih (f (b, t) a).1 (f (b, t) a).2 (by simp_all)
    simpa using h2
theorem foldl_pair_same' {α β : Type} (f : State × β → α → State × β) (l : List α) (b : β) (t s : State) (h0 : Same t s)
    (h : ∀ b s a, Same (f (s, b) a).1 s) : Same (l.foldl f (t, b)).1 s := by
  induction l generalizing b t with
  | nil => simpa using h0
  | cons a l ih =>
    have h1 := h b t a
    have h2 := ih (f (t, b) a).2 (f (t, b) a).1 (by simp_all)
    simpa using h2
theorem same_trans {a b c : State} (h : Same a b) (k : Same b c) : Same a c := by simp_all
theorem ite_same {c : Prop} [Decidable c] {a b s : State} (h : Same a s) (k : Same b s) : Same (if c then a else b) s := by
  split <;> assumption

end Sys2Proof.Machine
end

