-- ==== Sys2Proof/Laws/DutyOps.lean ====
section
/-!
SUPPORT. `Same` (Laws/Duty.lean) of the operations of Machine/Ops.lean, Machine/Memory.lean, Machine/Outputs.lean, Machine/RegMap.lean, Machine/Clock.lean, Machine/Ferryman.lean.
-/
namespace Sys2Proof.Machine

@[simp] theorem setLd_same (s : State) (x : Side) (l : Landing) : Same (State.setLd s x l) s := by
  unfold State.setLd; repeat' split
  all_goals simp

@[simp] theorem modLd_same (s : State) (x : Side) (f : Landing → Landing) : Same (State.modLd s x f) s := by simp [State.modLd]

@[simp] theorem eachSide_same (c : Side → Bool) (f : Side → State → State) (s : State) (h : ∀ x s, Same (f x s) s) :
    Same (eachSide c f s) s := by
  unfold eachSide
  dsimp only
  split <;> split <;> simp_all

@[simp] theorem advance_same (t : Nat) (s : State) : Same (advance t s) s := by simp [advance]

@[simp] theorem setEvent_same (src : Source) (code : Nat) (s : State) : Same (setEvent src code s) s := by
  unfold setEvent; repeat' split
  all_goals simp

@[simp] theorem logPut_same (r : LogRec) (s : State) : Same (logPut r s) s := by
  unfold logPut; repeat' split
  all_goals simp

@[simp] theorem modPart_same (s : State) (p : Nat) (f : Partition → Partition) : Same (State.modPart s p f) s := by simp [State.modPart]

@[simp] theorem postEntry_same (p q : Nat) (e : EvEntry) (s : State) : Same (postEntry p q e s) s := by simp [postEntry]

@[simp] theorem postSubscribed_same (u : Nat) (e : EvEntry) (z0 : Nat) (z1 : Nat) (s : State) : Same (postSubscribed u e z0 z1 s) s := by
  revert z1 s; induction z0 <;> intros <;> simp [postSubscribed, *]

@[simp] theorem accuse_same (x : Side) (code : Nat) (sev : Sev) (s : State) : Same (accuse x code sev s) s := by simp [accuse]

@[simp] theorem postEvent_same (src : Source) (code detail : Nat) (sev : Sev) (s : State) : Same (postEvent src code detail sev s) s := by simp [postEvent]

@[simp] theorem setAlarm_same (src : Source) (code : Nat) (sev : Sev) (s : State) : Same (setAlarm src code sev s) s := by simp [setAlarm]

@[simp] theorem accuseFor_same (src : Source) (code : Nat) (sev : Sev) (s : State) : Same (accuseFor src code sev s) s := by
  unfold accuseFor; repeat' split
  all_goals simp

@[simp] theorem react_same (src : Source) (code detail : Nat) (sev : Sev) (s : State) : Same (react src code detail sev s) s := by
  unfold react; repeat' split
  all_goals simp

@[simp] theorem raiseOwn_same (src : Source) (code detail : Nat) (own : Option (List Byte)) (s : State) : Same (raiseOwn src code detail own s) s := by
  unfold raiseOwn; repeat' split
  all_goals simp

@[simp] theorem raise_same (src : Source) (code detail : Nat) (s : State) : Same (raise src code detail s) s := by simp [raise]

@[simp] theorem raiseWithin_same (src : Source) (code detail key t window : Nat) (s : State) : Same (raiseWithin src code detail key t window s) s := by simp [raiseWithin]

@[simp] theorem raisePerSecond_same (src : Source) (code detail key : Nat) (s : State) : Same (raisePerSecond src code detail key s) s := by simp [raisePerSecond]

@[simp] theorem raisePerCrossing_same (x : Side) (code detail key : Nat) (s : State) : Same (raisePerCrossing x code detail key s) s := by simp [raisePerCrossing]

@[simp] theorem complete_same (c : Pend) (st : Status) (data : List Byte) (poison : Bool) (s : State) : Same (complete c st data poison s) s := by simp [complete]

@[simp] theorem accept_same (h : CmdHdr) (s : State) : Same (accept h s) s := by simp [accept]

@[simp] theorem logState_same (c : Pend) (s : State) : Same (logState c s) s := by simp [logState]

@[simp] theorem hostCommandF_same (h : CmdHdr) (op : Nat) (asks : State → Asks) (eff : State → Answer)
    (onFail : Status → State → State) (s : State) (he : ∀ s, Same (eff s).s s) (hf : ∀ st s, Same (onFail st s) s) :
    Same (hostCommandF h op asks eff onFail s) s := by
  unfold hostCommandF
  dsimp only
  split
  · split <;> simp_all
  · simp_all

@[simp] theorem hostCommand_same (h : CmdHdr) (op : Nat) (asks : State → Asks) (eff : State → Answer) (s : State)
    (he : ∀ s, Same (eff s).s s) : Same (hostCommand h op asks eff s) s :=
  hostCommandF_same h op asks eff _ s he (fun _ _ => by simp)

@[simp] theorem setHold_same (s : State) (r : Nat) (h : Option Hold) : Same (State.setHold s r h) s := by simp [State.setHold]

@[simp] theorem takeHold_same (r p : Nat) (s : State) : Same (takeHold r p s) s := by simp [takeHold]

@[simp] theorem hostRefused_same (p : Nat) (s : State) : Same (hostRefused p s) s := by simp [hostRefused]

@[simp] theorem drawFree_same (s : State) : Same (drawFree s).2 s := by simp [drawFree]

@[simp] theorem memWrite_same (x : Side) (a : Nat) (w : Pw) (s : State) : Same (memWrite x a w s) s := by simp [memWrite]

@[simp] theorem bucketAdd_same (x : Side) (s : State) : Same (bucketAdd x s) s := by simp [bucketAdd]

@[simp] theorem noteCorrected_same (x : Side) (kind a : Nat) (y : Byte) (s : State) : Same (noteCorrected x kind a y s) s := by simp [noteCorrected]

@[simp] theorem noteUncorrectable_same (x : Side) (kind a : Nat) (y : Byte) (s : State) : Same (noteUncorrectable x kind a y s) s := by simp [noteUncorrectable]

@[simp] theorem readEffects_same (x : Side) (a : Nat) (s : State) : Same (readEffects x a s) s := by
  unfold readEffects; dsimp only; repeat' split
  all_goals simp

@[simp] theorem memRead_same (x : Side) (a : Nat) (s : State) : Same (memRead x a s).2 s := by simp [memRead]

@[simp] theorem memReadN_same (x : Side) (a n : Nat) (s : State) : Same (memReadN x a n s).2 s := by
  induction n generalizing a s with
  | zero => simp [memReadN]
  | succ n ih => have h1 := ih (a + 8) (memRead x a s).2; simp_all [memReadN]

@[simp] theorem memWriteN_same (x : Side) (a : Nat) (ws : List Pw) (s : State) : Same (memWriteN x a ws s) s := by
  induction ws generalizing a s with
  | nil => simp [memWriteN]
  | cons w t ih => have h1 := ih (a + 8) (memWrite x a w s); simp_all [memWriteN]

@[simp] theorem memMerge_same (x : Side) (a : Nat) (data : List (Nat × Byte)) (s : State) : Same (memMerge x a data s) s := by simp [memMerge]

@[simp] theorem memBytes_same (x : Side) (z0 : Nat) (z1 : Nat) (z2 : List Byte) (s : State) : Same (memBytes x z0 z1 z2 s) s := by
  revert z1 z2 s; induction z0 <;> intros <;> simp [memBytes, *]

@[simp] theorem memPut_same (x : Side) (a : Nat) (data : List Byte) (s : State) : Same (memPut x a data s) s := by simp [memPut]

@[simp] theorem modArb_roles (s : State) (f : Arbiter → Arbiter) :
    (s.modArb f).pending = s.pending ∧ (s.modArb f).roleA = s.roleA ∧ (s.modArb f).roleB = s.roleB ∧ (s.modArb f).mode = s.mode
      ∧ (s.modArb f).dkh.modeReqs = s.dkh.modeReqs ∧ (s.modArb f).arb = f s.arb := by simp [State.modArb]

@[simp] theorem enterAdrift_same (code : Nat) (s : State) : Same (enterAdrift code s) s := by simp [enterAdrift]

@[simp] theorem passItem_same (deliver : OutItem → State → State) (x : Side) (i : OutItem) (s : State)
    (h : ∀ i s, Same (deliver i s) s) : Same (passItem deliver x i s) s := by
  unfold passItem
  split
  · simp
  · split <;> simp_all

@[simp] theorem noteItem_same (x : Side) (i : OutItem) (s : State) : Same (noteItem x i s) s := by simp [noteItem]

@[simp] theorem handItem_same (deliver : OutItem → State → State) (x : Side) (i : OutItem) (s : State)
    (h : ∀ i s, Same (deliver i s) s) : Same (handItem deliver x i s) s := by
  have hp := fun i s => passItem_same deliver x i s h
  unfold handItem
  simp only [Same] at hp ⊢
  repeat' split
  all_goals simp_all

@[simp] theorem clearBol_same (o v : Nat) (s : State) : Same (clearBol o v s) s := by simp [clearBol]

@[simp] theorem bkpPut_same (o : Nat) (b : List Byte) (s : State) : Same (bkpPut o b s) s := by simp [bkpPut]

@[simp] theorem markInterrupted_same (x : Side) (s : State) : Same (markInterrupted x s) s := by simp [markInterrupted]

@[simp] theorem switchSupply_same (toVbat : Bool) (s : State) : Same (switchSupply toVbat s) s := by simp [switchSupply]

@[simp] theorem backupWrite_same (r : Requester) (o : Nat) (v : Word) (s : State) : Same (backupWrite r o v s) s := by
  unfold backupWrite; repeat' split
  all_goals simp

@[simp] theorem rtcWrite_same (r : Requester) (f : State → State) (s : State) (h : ∀ s, Same (f s) s) :
    Same (rtcWrite r f s) s := by
  unfold rtcWrite
  split
  · simp_all
  · split <;> simp

@[simp] theorem takeSnapshot_same (r : Requester) (s : State) : Same (takeSnapshot r s) s := by simp [takeSnapshot]

@[simp] theorem postLost_same (s : State) : Same (postLost s) s := by simp [postLost]

@[simp] theorem commitTime_same (secs sub writer : Nat) (s : State) : Same (commitTime secs sub writer s) s := by simp [commitTime]

@[simp] theorem commitStaged_same (r : Requester) (secs : Word) (s : State) : Same (commitStaged r secs s) s := by simp [commitStaged]

@[simp] theorem stageSubsec_same (r : Requester) (v : Word) (s : State) : Same (stageSubsec r v s) s := by simp [stageSubsec]

@[simp] theorem setWake_same (w : Nat) (s : State) : Same (setWake w s) s := by simp [setWake]

@[simp] theorem wakeWrite_same (r : Requester) (v : Word) (s : State) : Same (wakeWrite r v s) s := by
  unfold wakeWrite; repeat' split
  all_goals simp

@[simp] theorem measureVbat_same (v : Nat) (s : State) : Same (measureVbat v s) s := by simp [measureVbat]

@[simp] theorem oscStop_same (s : State) : Same (oscStop s) s := by simp [oscStop]

@[simp] theorem dropCopies_same (ok1 ok2 : Bool) (s : State) : Same (dropCopies ok1 ok2 s) s := by simp [dropCopies]

@[simp] theorem storeRec_same (ok1 ok2 : Bool) (head rec : List Byte) (s : State) : Same (storeRec ok1 ok2 head rec s) s := by simp [storeRec]

@[simp] theorem eraseSectors_same (p : Nat → Bool) (s : State) : Same (eraseSectors p s) s := by simp [eraseSectors]

@[simp] theorem moveSector_same (s : State) : Same (moveSector s) s := by simp [moveSector]

@[simp] theorem writeRec_same (r : LogRec) (ok1 ok2 : Bool) (s : State) : Same (writeRec r ok1 ok2 s) s := by simp [writeRec]

@[simp] theorem suppressRec_same (r : LogRec) (s : State) : Same (suppressRec r s) s := by simp [suppressRec]

@[simp] theorem limitSecond_same (s : State) : Same (limitSecond s) s := by simp [limitSecond]

@[simp] theorem logbookStep_same (ok1 ok2 : Bool) (s : State) : Same (logbookStep ok1 ok2 s) s := by
  unfold logbookStep; repeat' split
  all_goals simp

@[simp] theorem storeLimits_same (ok1 ok2 : Bool) (s : State) : Same (storeLimits ok1 ok2 s) s := by simp [storeLimits]

@[simp] theorem limitWritten_same (ok1 ok2 : Bool) (s : State) : Same (limitWritten ok1 ok2 s) s := by
  unfold limitWritten; repeat' split
  all_goals simp

@[simp] theorem clearEnd_same (ok1 ok2 : Bool) (s : State) : Same (clearEnd ok1 ok2 s) s := by
  unfold clearEnd; repeat' split
  all_goals simp

@[simp] theorem takeRecord_same (x : Option Side) (cls port stamp : Nat) (content : List Byte) (s : State) : Same (takeRecord x cls port stamp content s) s := by simp [takeRecord]

@[simp] theorem settleInput_same (orders : List Nat) (r : Ready) (s : State) : Same (settleInput orders r s) s := by simp [settleInput]

@[simp] theorem takePairs_same (cut cls port n : Nat) (s : State) : Same (takePairs cut cls port n s) s := by
  induction n generalizing s with
  | zero => simp [takePairs]
  | succ n ih =>
    unfold takePairs
    split
    · split
      · dsimp only
        split <;> simp [ih]
      · simp
    · simp

@[simp] theorem takeRest_same (k : Nat) (ks : List Nat) (cut : Nat) (l : List Arrival) (s : State) : Same (takeRest k ks cut l s) s := by
  induction l generalizing s with
  | nil => simp [takeRest]
  | cons r t ih =>
    unfold takeRest
    dsimp only
    (repeat' split) <;> simp [ih]

@[simp] theorem pairAll_same (cut : Nat) (z0 : List (Nat × Nat)) (s : State) : Same (pairAll cut z0 s) s := by
  revert s; induction z0 <;> intros <;> simp [pairAll, *]

@[simp] theorem noteDeferred_same (x : Side) (fresh all : Nat) (s : State) : Same (noteDeferred x fresh all s) s := by simp [noteDeferred]

@[simp] theorem cutoff_same (dst : TickTo) (cut : Nat) (snapshot bollard : List Byte) (s : State) : Same (cutoff dst cut snapshot bollard s) s := by simp [cutoff]

@[simp] theorem admitList_same (x : Side) (k : Nat) (s : State) : Same (admitList x k s) s := by simp [admitList]

@[simp] theorem markIssued_same (x : Side) (k : Nat) (s : State) : Same (markIssued x k s) s := by simp [markIssued]

@[simp] theorem keepUndo_same (x : Side) (k : Nat) (l : Landing) (s : State) : Same (keepUndo x k l s) s := by simp [keepUndo]

@[simp] theorem runEntry_same (x : Side) (unit op : Nat) (job cycle : Option Nat) (act : Nat → State → State) (s : State)
    (h : ∀ k s, Same (act k s) s) : Same (runEntry x unit op job cycle act s) s := by
  unfold runEntry
  split
  · simp
  · rename_i k _
    have := h k (markIssued x k s)
    simp_all

@[simp] theorem noteOverrunAt_same (x : Side) (cycle unit : Nat) (s : State) : Same (noteOverrunAt x cycle unit s) s := by simp [noteOverrunAt]

@[simp] theorem guardCheck_same (x : Side) (s : State) : Same (guardCheck x s) s := by
  unfold guardCheck; dsimp only; repeat' split
  all_goals simp

@[simp] theorem closeItem_same (x : Side) (n : Nat) (s : State) : Same (closeItem x n s) s := by simp [closeItem]

@[simp] theorem undoEntry_same (x : Side) (k : Nat) (s : State) : Same (undoEntry x k s) s := by simp [undoEntry]

@[simp] theorem overrun_same (x : Side) (k cycle : Nat) (s : State) : Same (overrun x k cycle s) s := by simp [overrun]

@[simp] theorem slotMiss_same (x : Side) (k : Nat) (s : State) : Same (slotMiss x k s) s := by simp [slotMiss]

@[simp] theorem tickLost_same (x : Side) (early : Bool) (s : State) : Same (tickLost x early s) s := by simp [tickLost]

end Sys2Proof.Machine
end

