-- ==== Sys2Proof/Laws/DutyGnss.lean ====
section
/-!
SUPPORT. `Same` (Laws/Duty.lean) of the operations of Machine/Gnss.lean, Machine/Fusion.lean, Machine/Purser.lean, Machine/Axes.lean.
-/
namespace Sys2Proof.Machine

@[simp] theorem modAnt_same (s : State) (x : Side) (a : Nat) (f : GnsAnt → GnsAnt) : Same (State.modAnt s x a f) s := by simp [State.modAnt]

@[simp] theorem modHalf_same (s : State) (x : Side) (i : Nat) (f : GnsHalf → GnsHalf) : Same (State.modHalf s x i f) s := by simp [State.modHalf]

@[simp] theorem modSteer_same (s : State) (x : Side) (f : Steer → Steer) : Same (State.modSteer s x f) s := by simp [State.modSteer]

@[simp] theorem putAt_same (x : Side) (t a : Nat) (ws : List Pw) (s : State) : Same (putAt x t a ws s) s := by
  induction ws generalizing a s with
  | nil => simp [putAt]
  | cons w ws ih =>
    unfold putAt
    dsimp only
    have := ih (a + 8) (memWrite x a w (s.modLd x fun l => { l with fmn := { l.fmn with
      storeLog := l.fmn.storeLog ++ [{ cycle := t, addr := a, old := peekWord l a }] } }))
    simp_all

@[simp] theorem clearNew_same (x : Side) (i t : Nat) (s : State) : Same (clearNew x i t s) s := by simp [clearNew]

@[simp] theorem passHalf_same (x : Side) (c : Nat) (bs : List Byte) (i : Nat) (s : State) : Same (passHalf x c bs i s) s := by
  unfold passHalf; dsimp only; repeat' split
  all_goals simp

@[simp] theorem countMag_same (x : Side) (a : Nat) (bs : List Byte) (s : State) : Same (countMag x a bs s) s := by simp [countMag]

@[simp] theorem gnsPass_same (x : Side) (c : Nat) (a b : List Byte) (s : State) : Same (gnsPass x c a b s) s := by simp [gnsPass]

@[simp] theorem gnsWriteOp_same (x : Side) (e : Nat) (s : State) : Same (gnsWriteOp x e s) s := by simp [gnsWriteOp]

@[simp] theorem takeMark_same (x : Side) (start : Bool) (k : SampleMark) (s : State) : Same (takeMark x start k s) s := by simp [takeMark]

@[simp] theorem magSecond_same (x : Side) (s : State) : Same (magSecond x s) s := by simp [magSecond]

@[simp] theorem gnsMagStep_same (ant band : Nat) (x : Side) (s : State) : Same (gnsMagStep ant band x s) s := by simp [gnsMagStep]

@[simp] theorem lockSteer_same (x : Side) (step : Bool) (s : State) : Same (lockSteer x step s) s := by simp [lockSteer]

@[simp] theorem steerRecord_same (x : Side) (y : Int) (tm : Nat) (sigma : F32) (s : State) : Same (steerRecord x y tm sigma s) s := by
  unfold steerRecord; dsimp only; repeat' split
  all_goals simp

@[simp] theorem tsolOp_same (x : Side) (s : State) : Same (tsolOp x s) s := by simp [tsolOp]

@[simp] theorem holdoverStep_same (x : Side) (s : State) : Same (holdoverStep x s) s := by simp [holdoverStep]

@[simp] theorem holdLimitStep_same (x : Side) (s : State) : Same (holdLimitStep x s) s := by simp [holdLimitStep]

@[simp] theorem commitStep_same (x : Side) (s : State) : Same (commitStep x s) s := by simp [commitStep]

@[simp] theorem pulseOut_same (i : Nat) (s : State) : Same (pulseOut i s) s := by simp [pulseOut]

@[simp] theorem aidPost_same (s : State) : Same (aidPost s) s := by
  unfold aidPost; repeat' split
  all_goals simp

@[simp] theorem completeAll_same (st : Status) (z0 : List Pend) (s : State) : Same (completeAll st z0 s) s := by
  revert s; induction z0 <;> intros <;> simp [completeAll, *]

@[simp] theorem aidSave_same (okA okB : Bool) (s : State) : Same (aidSave okA okB s) s := by simp [aidSave]

@[simp] theorem setAntenna_same (a : Nat) (off : Bool) (x : Side) (s : State) : Same (setAntenna a off x s) s := by simp [setAntenna]

@[simp] theorem showGns_same (s : State) (x : Side) : Same (showGns s x) s := by simp [showGns]

@[simp] theorem modStream_same (s : State) (x : Side) (n : Nat) (f : FusStream → FusStream) : Same (State.modStream s x n f) s := by simp [State.modStream]

@[simp] theorem storeSample_same (x : Side) (n : Nat) (p : FusSample) (s : State) : Same (storeSample x n p s) s := by simp [storeSample]

@[simp] theorem alignEntry_same (x : Side) (ws : List Pw) (s : State) : Same (alignEntry x ws s) s := by
  unfold alignEntry; dsimp only; repeat' split
  all_goals simp

@[simp] theorem alignOp_same (x : Side) (q : Nat) (s : State) : Same (alignOp x q s) s := by simp [alignOp]

@[simp] theorem readTransforms_same (x : Side) (m : Tab Byte) (s : State) : Same (readTransforms x m s).2 s :=
  foldl_pair_same _ _ _ _ _ (by simp) (fun _ _ _ => by simp)

@[simp] theorem readTracks_same (x : Side) (n j : Nat) (s : State) : Same (readTracks x n j s).2.2 s := by
  induction n generalizing j s with
  | zero => simp [readTracks]
  | succ n ih => simp [readTracks, ih]

@[simp] theorem writeTracks_same (x : Side) (dirty : List Nat) (z0 : List FusTrack) (z1 : Nat) (s : State) : Same (writeTracks x dirty z0 z1 s) s := by
  revert z1 s; induction z0 <;> intros <;> simp [writeTracks, *]

@[simp] theorem closeOut_same (x : Side) (m : Tab Byte) (cmds : List FusCmd) (w : FusWork) (dirt : FusDirt) (poisoned : Bool) (s : State) :
    Same (closeOut x m cmds w dirt poisoned s) s := by
  unfold closeOut
  extract_lets s1 s2 s3 s4 s5 s6
  have h1 : Same s1 s := foldl_same _ _ _ (fun s c => by cases c <;> simp)
  have h2 : Same s2 s1 := modLd_same ..
  have h3 : Same s3 s2 := foldl_same _ _ _ (fun s r => by split <;> simp)
  have h4 : Same s4 s3 := by simp only [s4]; split <;> simp
  have h5 : Same s5 s4 := memWriteN_same ..
  have h6 : Same s6 s5 := foldl_same _ _ _ (fun s n => by simp)
  exact same_trans (writeTracks_same ..) (same_trans h6 (same_trans h5 (same_trans h4 (same_trans h3 (same_trans h2 h1)))))

@[simp] theorem closeOp_same (x : Side) (s : State) : Same (closeOp x s) s := by
  unfold closeOp
  exact same_trans (closeOut_same ..) (same_trans (memReadN_same ..) (same_trans (readTracks_same ..) (readTransforms_same ..)))

@[simp] theorem queueFus_same (c : FusCmd) (s : State) : Same (queueFus c s) s := by simp [queueFus]

@[simp] theorem showFus_same (s : State) (x : Side) : Same (showFus s x) s := by simp [showFus]

@[simp] theorem modCq_same (s : State) (p q : Nat) (f : CmdQ → CmdQ) : Same (State.modCq s p q f) s := by simp [State.modCq]

@[simp] theorem modEq_same (s : State) (p q : Nat) (f : EventQ → EventQ) : Same (State.modEq s p q f) s := by simp [State.modEq]

@[simp] theorem modPort_same (s : State) (n : Nat) (f : PurPort → PurPort) : Same (State.modPort s n f) s := by simp [State.modPort]

@[simp] theorem portError_same (n e : Nat) (s : State) : Same (portError n e s) s := by simp [portError]

@[simp] theorem portFormat_same (n : Nat) (s : State) : Same (portFormat n s) s := by simp [portFormat]

@[simp] theorem setLevel_same (p n slot : Nat) (s : State) : Same (setLevel p n slot s) s := by simp [setLevel]

@[simp] theorem keepShown_same (os : List Nat) (s : State) : Same (keepShown os s) s := by simp [keepShown]

@[simp] theorem keepPart_same (p : Nat) (s : State) : Same (keepPart p s) s := by simp [keepPart]

@[simp] theorem showPur_same (s : State) : Same (showPur s) s := by simp [showPur]

@[simp] theorem dropLevel_same (p : Nat) (s : State) : Same (dropLevel p s) s := by simp [dropLevel]

@[simp] theorem postArrival_same (cls port : Nat) (content : List Byte) (s : State) : Same (postArrival cls port content s) s := by simp [postArrival]

@[simp] theorem postDescriptors_same (p base : Nat) (l : Landing) (z0 : List (Nat × Nat)) (s : State) : Same (postDescriptors p base l z0 s) s := by
  revert s; induction z0 <;> intros <;> simp [postDescriptors, *]

@[simp] theorem ringDoorbell_same (p q tail : Nat) (s : State) : Same (ringDoorbell p q tail s) s := by
  unfold ringDoorbell; dsimp only; repeat' split
  all_goals simp

@[simp] theorem doorbellWrite_same (p q tail : Nat) (s : State) : Same (doorbellWrite p q tail s) s := by simp [doorbellWrite]

@[simp] theorem eventHeadStep_same (p q head : Nat) (s : State) : Same (eventHeadStep p q head s) s := by
  unfold eventHeadStep; dsimp only; repeat' split
  all_goals simp

@[simp] theorem writeNew_same (base : Nat) (z0 : List (Option Nat × Nat × List Byte)) (s : State) : Same (writeNew base z0 s) s := by
  revert s; induction z0 <;> intros <;> simp [writeNew, *]

@[simp] theorem netEntry_same (p : Nat) (b : List Byte) (s : State) : Same (netEntry p b s) s := by simp [netEntry]

@[simp] theorem netEntries_same (p : Nat) (z0 : List (Option Nat × Nat × List Byte)) (s : State) : Same (netEntries p z0 s) s := by
  revert s; induction z0 <;> intros <;> simp [netEntries, *]

@[simp] theorem entryStep_same (p q : Nat) (s : State) : Same (entryStep p q s) s := by
  unfold entryStep; dsimp only; repeat' split
  all_goals simp

@[simp] theorem resizeRing_same (p : Nat) (event : Bool) (q k : Nat) (s : State) : Same (resizeRing p event q k s) s := by simp [resizeRing]

@[simp] theorem putImages_same (x : Side) (z0 : List (Nat × List Byte)) (s : State) : Same (putImages x z0 s) s := by
  revert s; induction z0 <;> intros <;> simp [putImages, *]

@[simp] theorem heldDoorbells_same (z0 : Nat) (s : State) : Same (heldDoorbells z0 s) s := by
  induction z0 generalizing s with
  | zero => unfold heldDoorbells; simp
  | succ n ih => unfold heldDoorbells; dsimp only; split <;> simp [ih]

@[simp] theorem moveEnd_same (s : State) : Same (moveEnd s) s := by
  unfold moveEnd; repeat' split
  all_goals simp

@[simp] theorem clearAlarm_same (code : Nat) (s : State) : Same (clearAlarm code s) s := by simp [clearAlarm]

@[simp] theorem clearAlarms_same (z0 : List Nat) (s : State) : Same (clearAlarms z0 s) s := by
  revert s; induction z0 <;> intros <;> simp [clearAlarms, *]

@[simp] theorem resendFrom_same (p seq : Nat) (h : List (Option Nat × Nat × List Byte)) (s : State) : Same (resendFrom p seq h s) s := by simp [resendFrom]

@[simp] theorem drawNonce_same (s : State) : Same (drawNonce s).2 s := by simp [drawNonce]

@[simp] theorem responseFailed_same (p : Nat) (s : State) : Same (responseFailed p s) s := by simp [responseFailed]

@[simp] theorem consume_same (p : Nat) (s : State) : Same (consume p s) s := by simp [consume]

@[simp] theorem keyWriteEnd_same (ok : Bool) (s : State) : Same (keyWriteEnd ok s) s := by
  unfold keyWriteEnd; repeat' split
  all_goals simp

@[simp] theorem addFlashOp_same (b : Nat) (o : FlashOp) (s : State) : Same (addFlashOp b o s) s := by simp [addFlashOp]

@[simp] theorem flashEnd_same (b : Nat) (okA okB : Bool) (s : State) : Same (flashEnd b okA okB s) s := by
  unfold flashEnd; repeat' split
  all_goals simp

@[simp] theorem modAxis_same (s : State) (x : Side) (a : Nat) (f : Axis → Axis) : Same (State.modAxis s x a f) s := by simp [State.modAxis]

@[simp] theorem runAxes_same (x : Side) (s : State) : Same (runAxes x s) s := by
  unfold runAxes
  apply foldl_same
  intro s q
  dsimp only
  split
  · split <;> simp
  · split <;> simp

@[simp] theorem takeGapSteps_same (x : Side) (s : State) : Same (takeGapSteps x s) s := by simp [takeGapSteps]

@[simp] theorem latchInput_same (x : Side) (m : Tab Byte) (snap i : Nat) (s : State) : Same (latchInput x m snap i s) s := by simp [latchInput]

@[simp] theorem axeSnapshot_same (x : Side) (snap : Nat) (s : State) : Same (axeSnapshot x snap s) s := by simp [axeSnapshot]

@[simp] theorem takeTarget_same (x : Side) (m : Tab Byte) (o a : Nat) (t : F64) (s : State) : Same (takeTarget x m o a t s).1 s := by
  unfold takeTarget; repeat' split
  all_goals simp

@[simp] theorem stallStep_same (x : Side) (m : Tab Byte) (o a t : Nat) (fb : DWord) (s : State) : Same (stallStep x m o a t fb s) s := by
  unfold stallStep; dsimp only; repeat' split
  all_goals simp

@[simp] theorem limitStep_same (x : Side) (m : Tab Byte) (o a t snap : Nat) (s : State) : Same (limitStep x m o a t snap s) s := by simp [limitStep]

@[simp] theorem homeStep_same (x : Side) (m : Tab Byte) (o a t ts seg snap : Nat) (s : State) : Same (homeStep x m o a t ts seg snap s) s := by simp [homeStep]

@[simp] theorem putRecord_same (x : Side) (m : Tab Byte) (o a c : Nat) (rec_ : List Byte) (s : State) : Same (putRecord x m o a c rec_ s) s := by simp [putRecord]

@[simp] theorem putSegment_same (x : Side) (m : Tab Byte) (o a c t1 seg : Nat) (delta : Int) (s : State) : Same (putSegment x m o a c t1 seg delta s) s := by simp [putSegment]

@[simp] theorem heldUpdate_same (x : Side) (m : Tab Byte) (o a c t1 seg : Nat) (s : State) : Same (heldUpdate x m o a c t1 seg s) s := by simp [heldUpdate]

@[simp] theorem moveUpdate_same (x : Side) (m : Tab Byte) (o a t1 seg snap : Nat) (demand feedback : DWord) (s : State) : Same (moveUpdate x m o a t1 seg snap demand feedback s).1 s := by
  unfold moveUpdate; dsimp only; repeat' split
  all_goals simp

@[simp] theorem updateOp_same (x : Side) (a c : Nat) (s : State) : Same (updateOp x a c s) s := by
  unfold updateOp; dsimp only; repeat' split
  all_goals simp

@[simp] theorem modBus_same (s : State) (x : Side) (b : Nat) (f : AxeBus → AxeBus) : Same (State.modBus s x b f) s := by simp [State.modBus]

@[simp] theorem admitStarts_same (x : Side) (b : Nat) (told : List Nat) (z0 : Nat) (s : State) : Same (admitStarts x b told z0 s) s := by
  induction z0 generalizing s with
  | zero => unfold admitStarts; simp
  | succ n ih =>
    unfold admitStarts; dsimp only
    split
    · simp
    · split <;> simp [ih]

@[simp] theorem unadmit_same (x : Side) (b : Nat) (s : State) : Same (unadmit x b s) s := by simp [unadmit]

@[simp] theorem ledgerBus_same (x : Side) (told : List Nat) (b : Nat) (s : State) : Same (ledgerBus x told b s) s := by simp [ledgerBus]

@[simp] theorem withLedger_same (x : Side) (b : Nat) (f : State → State) (s : State) (h : ∀ s, Same (f s) s) :
    Same (withLedger x b f s) s := by
  unfold withLedger
  dsimp only
  split <;> simp_all

@[simp] theorem safeAxis_same (x : Side) (m : Tab Byte) (safe : Bool) (o : Nat) (s : State) : Same (safeAxis x m safe o s) s := by simp [safeAxis]

@[simp] theorem axesTick_same (x : Side) (s : State) : Same (axesTick x s) s := by simp [axesTick]

@[simp] theorem showAxe_same (s : State) (x : Side) : Same (showAxe s x) s := by simp [showAxe]

@[simp] theorem queueStart_same (x : Side) (a : Nat) (s : State) : Same (queueStart x a s) s := by
  unfold queueStart; repeat' split
  all_goals simp

@[simp] theorem offAxis_same (x : Side) (a : Nat) (s : State) : Same (offAxis x a s) s := by
  unfold offAxis; dsimp only; repeat' split
  all_goals simp

@[simp] theorem nanExpired_same (x : Side) (s : State) : Same (nanExpired x s) s := by simp [nanExpired]

@[simp] theorem durationEnd_same (a : Nat) (x : Side) (s : State) : Same (durationEnd a x s) s := by
  unfold durationEnd; dsimp only; repeat' split
  all_goals simp

@[simp] theorem startTimeout_same (a : Nat) (x : Side) (s : State) : Same (startTimeout a x s) s := by
  unfold startTimeout; dsimp only; repeat' split
  all_goals simp

@[simp] theorem pmsStale_same (b : Nat) (x : Side) (s : State) : Same (pmsStale b x s) s := by
  unfold pmsStale; dsimp only; repeat' split
  all_goals simp

end Sys2Proof.Machine
end

