-- ==== Sys2Proof/Laws/DutyCan.lean ====
section
/-!
SUPPORT. `Same` (Laws/Duty.lean) of the operations of Machine/Can.lean, Machine/Ethernet.lean, Machine/Bollard.lean, Machine/MemInt.lean.
-/
namespace Sys2Proof.Machine

@[simp] theorem modCan_same (s : State) (x : Side) (p : Nat) (f : CanCtl → CanCtl) : Same (State.modCan s x p f) s := by simp [State.modCan]

@[simp] theorem modCanPort_same (s : State) (p : Nat) (f : CanPort → CanPort) : Same (State.modCanPort s p f) s := by simp [State.modCanPort]

@[simp] theorem bothCan_same (p : Nat) (f : CanCtl → CanCtl) (s : State) : Same (bothCan p f s) s := by simp [bothCan]

@[simp] theorem deliverCan_same (i : OutItem) (s : State) : Same (deliverCan i s) s := by simp [deliverCan]

@[simp] theorem canSendOp_same (x : Side) (job cycle : Nat) (inTx : Bool) (s : State) : Same (canSendOp x job cycle inTx s) s := by simp [canSendOp]

@[simp] theorem postCan_same (x : Side) (p : Nat) (content : List Byte) (s : State) : Same (postCan x p content s) s := by simp [postCan]

@[simp] theorem offerFrame_same (x : Side) (p : Nat) (f : CanFrame) (own : Option Nat) (s : State) : Same (offerFrame x p f own s) s := by
  unfold offerFrame; dsimp only; repeat' split
  all_goals simp

@[simp] theorem takeCanFrame_same (x : Side) (p : Nat) (f : CanFrame) (s : State) : Same (takeCanFrame x p f s) s := by
  unfold takeCanFrame; dsimp only; repeat' split
  all_goals simp

@[simp] theorem errorActive_same (x : Side) (p : Nat) (s : State) : Same (errorActive x p s) s := by simp [errorActive]

@[simp] theorem receivedOk_same (x : Side) (p : Nat) (s : State) : Same (receivedOk x p s) s := by simp [receivedOk]

@[simp] theorem sentOk_same (x : Side) (p : Nat) (s : State) : Same (sentOk x p s) s := by simp [sentOk]

@[simp] theorem clearPending_same (p : Nat) (s : State) : Same (clearPending p s) s := by simp [clearPending]

@[simp] theorem goBusOff_same (x : Side) (p : Nat) (s : State) : Same (goBusOff x p s) s := by simp [goBusOff]

@[simp] theorem confine_same (x : Side) (p : Nat) (s : State) : Same (confine x p s) s := by simp [confine]

@[simp] theorem collision_same (x : Side) (p key : Nat) (s : State) : Same (collision x p key s) s := by simp [collision]

@[simp] theorem countError_same (x : Side) (p : Nat) (e : CanErr) (s : State) : Same (countError x p e s) s := by
  unfold countError; repeat' split
  all_goals simp

@[simp] theorem busError_same (x : Side) (p : Nat) (e : CanErr) (s : State) : Same (busError x p e s) s := by simp [busError]

@[simp] theorem resetCounters_same (p : Nat) (s : State) : Same (resetCounters p s) s := by simp [resetCounters]

@[simp] theorem busOffRecovery_same (p : Nat) (s : State) : Same (busOffRecovery p s) s := by simp [busOffRecovery]

@[simp] theorem keepStart_same (s : State) : Same (keepStart s) s := by simp [keepStart]

@[simp] theorem canRoles_same (s : State) : Same (canRoles s) s := by simp [canRoles]

@[simp] theorem sendReference_same (p sof : Nat) (s : State) : Same (sendReference p sof s) s := by
  unfold sendReference; dsimp only; repeat' split
  all_goals simp

@[simp] theorem refLate_same (p : Nat) (s : State) : Same (refLate p s) s := by
  unfold refLate; repeat' split
  all_goals simp

@[simp] theorem raiseIsolated_same (p : Nat) (s : State) : Same (raiseIsolated p s) s := by simp [raiseIsolated]

@[simp] theorem startCanRec_same (s : State) : Same (startCanRec s) s := by simp [startCanRec]

@[simp] theorem showCan_same (s : State) (x : Side) : Same (showCan s x) s := by simp [showCan]

@[simp] theorem modEth_same (s : State) (x : Side) (f : Eth → Eth) : Same (State.modEth s x f) s := by simp [State.modEth]

@[simp] theorem modEthPort_same (s : State) (x : Side) (p : Nat) (f : EthPort → EthPort) : Same (State.modEthPort s x p f) s := by simp [State.modEthPort]

@[simp] theorem modTb_same (s : State) (b : Nat) (f : TimeBase → TimeBase) : Same (State.modTb s b f) s := by simp [State.modTb]

@[simp] theorem queueFrame_same (x : Side) (p : Nat) (f : EthFrame) (s : State) : Same (queueFrame x p f s) s := by simp [queueFrame]

@[simp] theorem deliverEth_same (i : OutItem) (s : State) : Same (deliverEth i s) s := by simp [deliverEth]

@[simp] theorem ethSendOp_same (x : Side) (job cycle : Nat) (s : State) : Same (ethSendOp x job cycle s) s := by simp [ethSendOp]

@[simp] theorem drainOutbox_same (s : State) : Same (drainOutbox s) s := by
  unfold drainOutbox; repeat' split
  all_goals simp

@[simp] theorem dropLate_same (x : Side) (p tol n : Nat) (s : State) : Same (dropLate x p tol n s) s := by
  induction n generalizing s with
  | zero => simp [dropLate]
  | succ n ih =>
    unfold dropLate
    split
    · simp
    · split <;> simp [ih]

@[simp] theorem launchStep_same (x : Side) (p sfd : Nat) (s : State) : Same (launchStep x p sfd s) s := by
  unfold launchStep; dsimp only; repeat' split
  all_goals simp

@[simp] theorem copyFrame_same (x : Side) (p stamp : Nat) (b : List Byte) (s : State) : Same (copyFrame x p stamp b s) s := by
  unfold copyFrame; dsimp only; repeat' split
  all_goals simp

@[simp] theorem forwardFrame_same (x : Side) (p sfd : Nat) (b : List Byte) (s : State) : Same (forwardFrame x p sfd b s) s := by simp [forwardFrame]

@[simp] theorem peerDelay_same (x : Side) (p : Nat) (f : EthRx) (s : State) : Same (peerDelay x p f s) s := by
  unfold peerDelay; dsimp only; repeat' split
  all_goals simp

@[simp] theorem delayResp_same (x : Side) (p : Nat) (f : EthRx) (s : State) : Same (delayResp x p f s) s := by
  unfold delayResp; dsimp only; repeat' split
  all_goals simp

@[simp] theorem frameReceived_same (x : Side) (p : Nat) (f : EthRx) (s : State) : Same (frameReceived x p f s) s := by simp [frameReceived]

@[simp] theorem linkChange_same (x : Side) (p : Nat) (up : Bool) (s : State) : Same (linkChange x p up s) s := by simp [linkChange]

@[simp] theorem laneBypass_same (x : Side) (closed : Bool) (s : State) : Same (laneBypass x closed s) s := by simp [laneBypass]

@[simp] theorem ethRoles_same (s : State) : Same (ethRoles s) s := by simp [ethRoles]

@[simp] theorem completeNew_same (x : Side) (c : CmdCopy) (st : Status) (s : State) : Same (completeNew x c st s) s := by simp [completeNew]

@[simp] theorem acceptCopy_same (x : Side) (c : CmdCopy) (nets : List Nat) (s : State) : Same (acceptCopy x c nets s) s := by simp [acceptCopy]

@[simp] theorem countLate_same (x : Side) (s : State) : Same (countLate x s) s := by simp [countLate]

@[simp] theorem dropCopy_same (x : Side) (c : CmdCopy) (s : State) : Same (dropCopy x c s) s := by simp [dropCopy]

@[simp] theorem acceptSingle_same (x : Side) (c : CmdCopy) (s : State) : Same (acceptSingle x c s) s := by simp [acceptSingle]

@[simp] theorem matchCopy_same (x : Side) (c : CmdCopy) (s : State) : Same (matchCopy x c s) s := by
  unfold matchCopy; dsimp only; repeat' split
  all_goals simp

@[simp] theorem matchOp_same (x : Side) (s : State) : Same (matchOp x s) s := by simp [matchOp]

@[simp] theorem modRef_same (s : State) (f : Reference → Reference) : Same (State.modRef s f) s := by simp [State.modRef]

@[simp] theorem startReference_same (ext : Bool) (cmd : Option Pend) (boot : Bool) (s : State) : Same (startReference ext cmd boot s) s := by simp [startReference]

@[simp] theorem finishReference_same (st : Status) (s : State) : Same (finishReference st s) s := by
  unfold finishReference; repeat' split
  all_goals simp

@[simp] theorem referenceMeasured_same (ok : Bool) (s : State) : Same (referenceMeasured ok s) s := by simp [referenceMeasured]

@[simp] theorem referenceLock_same (s : State) : Same (referenceLock s) s := by simp [referenceLock]

@[simp] theorem refLost_same (s : State) : Same (refLost s) s := by simp [refLost]

@[simp] theorem holdEnd_same (s : State) : Same (holdEnd s) s := by simp [holdEnd]

@[simp] theorem shiftTimers_same (d : Nat) (s : State) : Same (shiftTimers d s) s := by simp [shiftTimers]

@[simp] theorem stepTime_same (d : Nat) (s : State) : Same (stepTime d s) s := by simp [stepTime]

@[simp] theorem pdelayStep_same (x : Side) (p : Nat) (s : State) : Same (pdelayStep x p s) s := by simp [pdelayStep]

@[simp] theorem syncStep_same (b p rx : Nat) (tm : Int) (ident : Nat) (s : State) : Same (syncStep b p rx tm ident s) s := by
  unfold syncStep; dsimp only; repeat' split
  all_goals simp

@[simp] theorem tbLost_same (b : Nat) (s : State) : Same (tbLost b s) s := by simp [tbLost]

@[simp] theorem sendTb_same (b : Nat) (f : Nat → EthFrame) (s : State) : Same (sendTb b f s) s := by
  unfold sendTb; repeat' split
  all_goals simp

@[simp] theorem delayReq_same (b : Nat) (trip : Option Int) (s : State) : Same (delayReq b trip s) s := by
  unfold delayReq; dsimp only; repeat' split
  all_goals simp

@[simp] theorem masterMessage_same (b : Nat) (announce : Bool) (s : State) : Same (masterMessage b announce s) s := by simp [masterMessage]

@[simp] theorem startTbs_same (s : State) : Same (startTbs s) s := by simp [startTbs]

@[simp] theorem showEth_same (s : State) (x : Side) : Same (showEth s x) s := by simp [showEth]

@[simp] theorem bolS1_same (samples : List (Nat × Nat)) (s : State) : Same (bolS1 samples s).1 s := by
  unfold bolS1; dsimp only; repeat' split
  all_goals simp

@[simp] theorem finish_same (s : State) (w : BolWork) : Same (finish s w) s := by simp [finish]

@[simp] theorem bankOff_same (s : State) : Same (bankOff s) s := by simp [bankOff]

@[simp] theorem noteSingle_same (s : State) : Same (noteSingle s) s := by simp [noteSingle]

@[simp] theorem evaluationStep_same (p : BolPins) (s : State) : Same (evaluationStep p s) s := by simp [evaluationStep]

@[simp] theorem cycleEnd_same (s : State) : Same (cycleEnd s) s := by simp [cycleEnd]

@[simp] theorem stopDelayEndStep_same (k : Nat) (s : State) : Same (stopDelayEndStep k s) s := by simp [stopDelayEndStep]

@[simp] theorem overcurrent_same (o c : Nat) (s : State) : Same (overcurrent o c s) s := by simp [overcurrent]

@[simp] theorem bolFieldLost_same (s : State) : Same (bolFieldLost s) s := by simp [bolFieldLost]

@[simp] theorem bolTrial_same (on : Bool) (s : State) : Same (bolTrial on s) s := by simp [bolTrial]

@[simp] theorem modConn_same (s : State) (c : Nat) (f : BolConn → BolConn) : Same (State.modConn s c f) s := by simp [State.modConn]

@[simp] theorem telFail_same (c code : Nat) (f : BolConn → BolConn) (s : State) : Same (telFail c code f s) s := by simp [telFail]

@[simp] theorem telAccept_same (c seq data status : Nat) (s : State) : Same (telAccept c seq data status s) s := by simp [telAccept]

@[simp] theorem telegramStep_same (net : Nat) (pdu : List Byte) (s : State) : Same (telegramStep net pdu s) s := by
  unfold telegramStep; dsimp only; repeat' split
  all_goals simp

@[simp] theorem telTimeout_same (c : Nat) (s : State) : Same (telTimeout c s) s := by simp [telTimeout]

@[simp] theorem telegramSend_same (c : Nat) (same : Bool) (s : State) : Same (telegramSend c same s) s := by
  unfold telegramSend; repeat' split
  all_goals simp

@[simp] theorem stageComplete_same (ok1 ok2 : Bool) (s : State) : Same (stageComplete ok1 ok2 s) s := by
  unfold stageComplete; repeat' split
  all_goals simp

@[simp] theorem mergeStep_same (x : Side) (s : State) : Same (mergeStep x s) s := by
  unfold mergeStep; repeat' split
  all_goals simp

@[simp] theorem mergeFlush_same (x : Side) (w : Nat) (s : State) : Same (mergeFlush x w s) s := by
  unfold mergeFlush; repeat' split
  all_goals simp

@[simp] theorem memConfig_same (r : Requester) (x : Side) (f : MemInt → MemInt) (s : State) : Same (memConfig r x f s) s := by
  unfold memConfig; repeat' split
  all_goals simp

@[simp] theorem saveCopy_same (x : Side) (addr : Nat) (ok : Bool) (s : State) : Same (saveCopy x addr ok s) s := by simp [saveCopy]

@[simp] theorem saveRemap_same (x : Side) (ok0 ok1 : Bool) (s : State) : Same (saveRemap x ok0 ok1 s) s := by simp [saveRemap]

@[simp] theorem remapStep_same (x : Side) (raced : List (Nat × DWord)) (ok0 ok1 : Bool) (s : State) : Same (remapStep x raced ok0 ok1 s) s := by
  unfold remapStep; dsimp only; repeat' split
  all_goals simp

@[simp] theorem scrubWord_same (x : Side) (a : Nat) (hard raced : Bool) (s : State) : Same (scrubWord x a hard raced s) s := by
  unfold scrubWord; dsimp only; repeat' split
  all_goals simp

@[simp] theorem scrubStep_same (x : Side) (hard raced : List Nat) (s : State) : Same (scrubStep x hard raced s) s := by simp [scrubStep]

@[simp] theorem remapAll_same (x : Side) (z0 : Nat) (s : State) : Same (remapAll x z0 s) s := by
  revert s; induction z0 <;> intros <;> simp [remapAll, *]

@[simp] theorem memtestEnd_same (x : Side) (badLines badSpares : List Nat) (other : Nat) (s : State) : Same (memtestEnd x badLines badSpares other s) s := by
  unfold memtestEnd; repeat' split
  all_goals simp

end Sys2Proof.Machine
end

