-- ==== Sys2Proof/Laws/DutyTile.lean ====
section
/-!
SUPPORT. `Same` (Laws/Duty.lean) of the operations of Machine/Tile.lean, Machine/TileInt.lean, Machine/TileFloat.lean, Machine/TileMem.lean.
-/
namespace Sys2Proof.Machine

@[simp] theorem modTile_same (s : State) (x : Side) (n : Nat) (f : Tile → Tile) : Same (State.modTile s x n f) s := by simp [State.modTile]

@[simp] theorem landWord_same (x : Side) (cyc : Nat) (e : Nat × List (Nat × Byte) × Bool) (s : State) : Same (landWord x cyc e s) s := by simp [landWord]

@[simp] theorem landCycle_same (x : Side) (n cyc : Nat) (rs : List PendRes) (s : State) : Same (landCycle x n cyc rs s) s := by simp [landCycle]

@[simp] theorem settleN_same (x : Side) (n t : Nat) (z0 : Nat) (s : State) : Same (settleN x n t z0 s) s := by
  induction z0 generalizing s with
  | zero => unfold settleN; simp
  | succ n ih =>
    unfold settleN; dsimp only
    split
    · simp
    · split <;> simp [ih]

@[simp] theorem settle_same (x : Side) (n t : Nat) (s : State) : Same (settle x n t s) s := by simp [settle]

@[simp] theorem launch_same (x : Side) (n : Nat) (r : PendRes) (s : State) : Same (launch x n r s) s := by simp [launch]

@[simp] theorem issue_same (x : Side) (n cyc : Nat) (w : Word) (bad : PendRes) (run : Tile → PendRes) (s : State) : Same (issue x n cyc w bad run s) s := by
  unfold issue; dsimp only; repeat' split
  all_goals simp

@[simp] theorem intOp_same (lat : Nat) (f : DWord → DWord → DWord × Nat) (x : Side) (n cyc : Nat) (w : Word) (s : State) : Same (intOp lat f x n cyc w s) s := by simp [intOp]

@[simp] theorem intOp1_same (f : DWord → DWord × Nat) (x : Side) (n cyc : Nat) (w : Word) (s : State) : Same (intOp1 f x n cyc w s) s := by simp [intOp1]

@[simp] theorem cmpOp_same (f : DWord → DWord → Bool) (x : Side) (n cyc : Nat) (w : Word) (s : State) : Same (cmpOp f x n cyc w s) s := by simp [cmpOp]

@[simp] theorem predOp_same (f : Bool → Bool → Bool) (x : Side) (n cyc : Nat) (w : Word) (s : State) : Same (predOp f x n cyc w s) s := by simp [predOp]

@[simp] theorem floatOp_same (lat : Nat) (useB useC : Bool) (f : Fmt → Nat → Nat → Nat → Nat × Nat) (x : Side) (n cyc : Nat) (w : Word) (s : State) : Same (floatOp lat useB useC f x n cyc w s) s := by simp [floatOp]

@[simp] theorem fcmpOp_same (f : Fmt → Nat → Nat → Bool × Nat) (x : Side) (n cyc : Nat) (w : Word) (s : State) : Same (fcmpOp f x n cyc w s) s := by simp [fcmpOp]

@[simp] theorem convOp_same (f : Fmt → DWord → Nat × Nat) (x : Side) (n cyc : Nat) (w : Word) (s : State) : Same (convOp f x n cyc w s) s := by simp [convOp]

@[simp] theorem tileFault_same (x : Side) (n code detail land : Nat) (s : State) : Same (tileFault x n code detail land s) s := by simp [tileFault]

@[simp] theorem loadOp_same (size : Nat) (f : Nat → DWord) (x : Side) (n cyc : Nat) (w : Word) (s : State) : Same (loadOp size f x n cyc w s) s := by
  unfold loadOp; dsimp only; repeat' split
  all_goals simp

@[simp] theorem loadVec_same (x : Side) (n cyc : Nat) (w : Word) (s : State) : Same (loadVec x n cyc w s) s := by
  unfold loadVec; dsimp only; repeat' split
  all_goals simp

@[simp] theorem storeOp_same (size : Nat) (src : Tile → List Pw) (x : Side) (n cyc : Nat) (w : Word) (s : State) : Same (storeOp size src x n cyc w s) s := by simp [storeOp]

@[simp] theorem runNop_same (x : Side) (n cyc : Nat) (_w : Word) (s : State) : Same (runNop x n cyc _w s) s := by simp [runNop]

@[simp] theorem runAdd_same (x : Side) (n cyc : Nat) (w : Word) (s : State) : Same (runAdd x n cyc w s) s := by simp [runAdd]

@[simp] theorem runSub_same (x : Side) (n cyc : Nat) (w : Word) (s : State) : Same (runSub x n cyc w s) s := by simp [runSub]

@[simp] theorem runAnd_same (x : Side) (n cyc : Nat) (w : Word) (s : State) : Same (runAnd x n cyc w s) s := by simp [runAnd]

@[simp] theorem runOr_same (x : Side) (n cyc : Nat) (w : Word) (s : State) : Same (runOr x n cyc w s) s := by simp [runOr]

@[simp] theorem runXor_same (x : Side) (n cyc : Nat) (w : Word) (s : State) : Same (runXor x n cyc w s) s := by simp [runXor]

@[simp] theorem runShl_same (x : Side) (n cyc : Nat) (w : Word) (s : State) : Same (runShl x n cyc w s) s := by simp [runShl]

@[simp] theorem runShr_same (x : Side) (n cyc : Nat) (w : Word) (s : State) : Same (runShr x n cyc w s) s := by simp [runShr]

@[simp] theorem runSar_same (x : Side) (n cyc : Nat) (w : Word) (s : State) : Same (runSar x n cyc w s) s := by simp [runSar]

@[simp] theorem runMin_same (x : Side) (n cyc : Nat) (w : Word) (s : State) : Same (runMin x n cyc w s) s := by simp [runMin]

@[simp] theorem runMax_same (x : Side) (n cyc : Nat) (w : Word) (s : State) : Same (runMax x n cyc w s) s := by simp [runMax]

@[simp] theorem runMinu_same (x : Side) (n cyc : Nat) (w : Word) (s : State) : Same (runMinu x n cyc w s) s := by simp [runMinu]

@[simp] theorem runMaxu_same (x : Side) (n cyc : Nat) (w : Word) (s : State) : Same (runMaxu x n cyc w s) s := by simp [runMaxu]

@[simp] theorem runMov_same (x : Side) (n cyc : Nat) (w : Word) (s : State) : Same (runMov x n cyc w s) s := by simp [runMov]

@[simp] theorem runMovi_same (x : Side) (n cyc : Nat) (w : Word) (s : State) : Same (runMovi x n cyc w s) s := by simp [runMovi]

@[simp] theorem runSel_same (x : Side) (n cyc : Nat) (w : Word) (s : State) : Same (runSel x n cyc w s) s := by simp [runSel]

@[simp] theorem runCmpeq_same (x : Side) (n cyc : Nat) (w : Word) (s : State) : Same (runCmpeq x n cyc w s) s := by simp [runCmpeq]

@[simp] theorem runCmpne_same (x : Side) (n cyc : Nat) (w : Word) (s : State) : Same (runCmpne x n cyc w s) s := by simp [runCmpne]

@[simp] theorem runCmplt_same (x : Side) (n cyc : Nat) (w : Word) (s : State) : Same (runCmplt x n cyc w s) s := by simp [runCmplt]

@[simp] theorem runCmple_same (x : Side) (n cyc : Nat) (w : Word) (s : State) : Same (runCmple x n cyc w s) s := by simp [runCmple]

@[simp] theorem runCmpltu_same (x : Side) (n cyc : Nat) (w : Word) (s : State) : Same (runCmpltu x n cyc w s) s := by simp [runCmpltu]

@[simp] theorem runCmpleu_same (x : Side) (n cyc : Nat) (w : Word) (s : State) : Same (runCmpleu x n cyc w s) s := by simp [runCmpleu]

@[simp] theorem runPand_same (x : Side) (n cyc : Nat) (w : Word) (s : State) : Same (runPand x n cyc w s) s := by simp [runPand]

@[simp] theorem runPor_same (x : Side) (n cyc : Nat) (w : Word) (s : State) : Same (runPor x n cyc w s) s := by simp [runPor]

@[simp] theorem runPxor_same (x : Side) (n cyc : Nat) (w : Word) (s : State) : Same (runPxor x n cyc w s) s := by simp [runPxor]

@[simp] theorem runPnot_same (x : Side) (n cyc : Nat) (w : Word) (s : State) : Same (runPnot x n cyc w s) s := by simp [runPnot]

@[simp] theorem runPtst_same (x : Side) (n cyc : Nat) (w : Word) (s : State) : Same (runPtst x n cyc w s) s := by simp [runPtst]

@[simp] theorem runExts_same (x : Side) (n cyc : Nat) (w : Word) (s : State) : Same (runExts x n cyc w s) s := by simp [runExts]

@[simp] theorem runExtu_same (x : Side) (n cyc : Nat) (w : Word) (s : State) : Same (runExtu x n cyc w s) s := by simp [runExtu]

@[simp] theorem runQadd_same (x : Side) (n cyc : Nat) (w : Word) (s : State) : Same (runQadd x n cyc w s) s := by simp [runQadd]

@[simp] theorem runQsub_same (x : Side) (n cyc : Nat) (w : Word) (s : State) : Same (runQsub x n cyc w s) s := by simp [runQsub]

@[simp] theorem runClz_same (x : Side) (n cyc : Nat) (w : Word) (s : State) : Same (runClz x n cyc w s) s := by simp [runClz]

@[simp] theorem runMul_same (x : Side) (n cyc : Nat) (w : Word) (s : State) : Same (runMul x n cyc w s) s := by simp [runMul]

@[simp] theorem runMulh_same (x : Side) (n cyc : Nat) (w : Word) (s : State) : Same (runMulh x n cyc w s) s := by simp [runMulh]

@[simp] theorem runMulhu_same (x : Side) (n cyc : Nat) (w : Word) (s : State) : Same (runMulhu x n cyc w s) s := by simp [runMulhu]

@[simp] theorem runQmul_same (x : Side) (n cyc : Nat) (w : Word) (s : State) : Same (runQmul x n cyc w s) s := by simp [runQmul]

@[simp] theorem runSats_same (x : Side) (n cyc : Nat) (w : Word) (s : State) : Same (runSats x n cyc w s) s := by simp [runSats]

@[simp] theorem runFadd_same (x : Side) (n cyc : Nat) (w : Word) (s : State) : Same (runFadd x n cyc w s) s := by simp [runFadd]

@[simp] theorem runFsub_same (x : Side) (n cyc : Nat) (w : Word) (s : State) : Same (runFsub x n cyc w s) s := by simp [runFsub]

@[simp] theorem runFmul_same (x : Side) (n cyc : Nat) (w : Word) (s : State) : Same (runFmul x n cyc w s) s := by simp [runFmul]

@[simp] theorem runFma_same (x : Side) (n cyc : Nat) (w : Word) (s : State) : Same (runFma x n cyc w s) s := by simp [runFma]

@[simp] theorem runFms_same (x : Side) (n cyc : Nat) (w : Word) (s : State) : Same (runFms x n cyc w s) s := by simp [runFms]

@[simp] theorem runFmin_same (x : Side) (n cyc : Nat) (w : Word) (s : State) : Same (runFmin x n cyc w s) s := by simp [runFmin]

@[simp] theorem runFmax_same (x : Side) (n cyc : Nat) (w : Word) (s : State) : Same (runFmax x n cyc w s) s := by simp [runFmax]

@[simp] theorem runFabs_same (x : Side) (n cyc : Nat) (w : Word) (s : State) : Same (runFabs x n cyc w s) s := by simp [runFabs]

@[simp] theorem runFneg_same (x : Side) (n cyc : Nat) (w : Word) (s : State) : Same (runFneg x n cyc w s) s := by simp [runFneg]

@[simp] theorem runFdiv_same (x : Side) (n cyc : Nat) (w : Word) (s : State) : Same (runFdiv x n cyc w s) s := by simp [runFdiv]

@[simp] theorem runFsqrt_same (x : Side) (n cyc : Nat) (w : Word) (s : State) : Same (runFsqrt x n cyc w s) s := by simp [runFsqrt]

@[simp] theorem runFcmpeq_same (x : Side) (n cyc : Nat) (w : Word) (s : State) : Same (runFcmpeq x n cyc w s) s := by simp [runFcmpeq]

@[simp] theorem runFcmplt_same (x : Side) (n cyc : Nat) (w : Word) (s : State) : Same (runFcmplt x n cyc w s) s := by simp [runFcmplt]

@[simp] theorem runFcmple_same (x : Side) (n cyc : Nat) (w : Word) (s : State) : Same (runFcmple x n cyc w s) s := by simp [runFcmple]

@[simp] theorem runFcmpun_same (x : Side) (n cyc : Nat) (w : Word) (s : State) : Same (runFcmpun x n cyc w s) s := by simp [runFcmpun]

@[simp] theorem runFcvtif_same (x : Side) (n cyc : Nat) (w : Word) (s : State) : Same (runFcvtif x n cyc w s) s := by simp [runFcvtif]

@[simp] theorem runFcvtfi_same (x : Side) (n cyc : Nat) (w : Word) (s : State) : Same (runFcvtfi x n cyc w s) s := by simp [runFcvtfi]

@[simp] theorem runFcvtff_same (x : Side) (n cyc : Nat) (w : Word) (s : State) : Same (runFcvtff x n cyc w s) s := by simp [runFcvtff]

@[simp] theorem runFcvtqf_same (x : Side) (n cyc : Nat) (w : Word) (s : State) : Same (runFcvtqf x n cyc w s) s := by simp [runFcvtqf]

@[simp] theorem runFcvtfq_same (x : Side) (n cyc : Nat) (w : Word) (s : State) : Same (runFcvtfq x n cyc w s) s := by simp [runFcvtfq]

@[simp] theorem runVbcast_same (x : Side) (n cyc : Nat) (w : Word) (s : State) : Same (runVbcast x n cyc w s) s := by simp [runVbcast]

@[simp] theorem runVext_same (x : Side) (n cyc : Nat) (w : Word) (s : State) : Same (runVext x n cyc w s) s := by simp [runVext]

@[simp] theorem runVins_same (x : Side) (n cyc : Nat) (w : Word) (s : State) : Same (runVins x n cyc w s) s := by simp [runVins]

@[simp] theorem runVsum_same (x : Side) (n cyc : Nat) (w : Word) (s : State) : Same (runVsum x n cyc w s) s := by simp [runVsum]

@[simp] theorem runVmov_same (x : Side) (n cyc : Nat) (w : Word) (s : State) : Same (runVmov x n cyc w s) s := by simp [runVmov]

@[simp] theorem runLdb_same (x : Side) (n cyc : Nat) (w : Word) (s : State) : Same (runLdb x n cyc w s) s := by simp [runLdb]

@[simp] theorem runLdbu_same (x : Side) (n cyc : Nat) (w : Word) (s : State) : Same (runLdbu x n cyc w s) s := by simp [runLdbu]

@[simp] theorem runLdh_same (x : Side) (n cyc : Nat) (w : Word) (s : State) : Same (runLdh x n cyc w s) s := by simp [runLdh]

@[simp] theorem runLdhu_same (x : Side) (n cyc : Nat) (w : Word) (s : State) : Same (runLdhu x n cyc w s) s := by simp [runLdhu]

@[simp] theorem runLdw_same (x : Side) (n cyc : Nat) (w : Word) (s : State) : Same (runLdw x n cyc w s) s := by simp [runLdw]

@[simp] theorem runLdwu_same (x : Side) (n cyc : Nat) (w : Word) (s : State) : Same (runLdwu x n cyc w s) s := by simp [runLdwu]

@[simp] theorem runLdd_same (x : Side) (n cyc : Nat) (w : Word) (s : State) : Same (runLdd x n cyc w s) s := by simp [runLdd]

@[simp] theorem runLdv_same (x : Side) (n cyc : Nat) (w : Word) (s : State) : Same (runLdv x n cyc w s) s := by simp [runLdv]

@[simp] theorem runStb_same (x : Side) (n cyc : Nat) (w : Word) (s : State) : Same (runStb x n cyc w s) s := by simp [runStb]

@[simp] theorem runSth_same (x : Side) (n cyc : Nat) (w : Word) (s : State) : Same (runSth x n cyc w s) s := by simp [runSth]

@[simp] theorem runStw_same (x : Side) (n cyc : Nat) (w : Word) (s : State) : Same (runStw x n cyc w s) s := by simp [runStw]

@[simp] theorem runStd_same (x : Side) (n cyc : Nat) (w : Word) (s : State) : Same (runStd x n cyc w s) s := by simp [runStd]

@[simp] theorem runStv_same (x : Side) (n cyc : Nat) (w : Word) (s : State) : Same (runStv x n cyc w s) s := by simp [runStv]

@[simp] theorem runMfs_same (x : Side) (n cyc : Nat) (w : Word) (s : State) : Same (runMfs x n cyc w s) s := by simp [runMfs]

@[simp] theorem runMts_same (x : Side) (n cyc : Nat) (w : Word) (s : State) : Same (runMts x n cyc w s) s := by simp [runMts]

@[simp] theorem runLoop_same (x : Side) (n cyc : Nat) (w : Word) (s : State) : Same (runLoop x n cyc w s) s := by simp [runLoop]

@[simp] theorem runEndProg_same (x : Side) (n cyc : Nat) (_w : Word) (s : State) : Same (runEndProg x n cyc _w s) s := by simp [runEndProg]

end Sys2Proof.Machine
end

