-- ==== Sys2Proof/Laws/DutyTileRun.lean ====
section
/-!
SUPPORT. `Same` (Laws/Duty.lean) of the operations of Machine/TileRun.lean, Machine/Registers.lean, Machine/SampleChain.lean, Machine/Solver.lean.
-/
namespace Sys2Proof.Machine

@[simp] theorem sylInt_same (op : Nat) (w : Word) (x : Side) (n cyc : Nat) (s : State) : Same (sylInt op x n cyc w s) s := by
  unfold sylInt
  split <;> simp
@[simp] theorem sylFloat_same (op : Nat) (w : Word) (x : Side) (n cyc : Nat) (s : State) : Same (sylFloat op x n cyc w s) s := by
  unfold sylFloat
  split <;> simp
@[simp] theorem sylMem_same (op : Nat) (w : Word) (x : Side) (n cyc : Nat) (s : State) : Same (sylMem op x n cyc w s) s := by
  unfold sylMem
  split <;> simp
@[simp] theorem sylOf_same (k : Nat) (w : Word) (x : Side) (n cyc : Nat) (s : State) : Same (sylOf k w x n cyc w s) s := by
  unfold sylOf
  split
  · simp
  · split <;> simp
@[simp] theorem issueBundle_same (x : Side) (n cyc : Nat) (s : State) : Same (issueBundle x n cyc s) s := by
  unfold issueBundle
  dsimp only
  split
  · simp
  · split
    · simp
    · exact foldl_trans _ _ _ _ (by simp) (fun s b => by simp)

@[simp] theorem issueN_same (x : Side) (n : Nat) (z0 : Nat) (s : State) : Same (issueN x n z0 s) s := by
  revert s; induction z0 <;> intros <;> simp [issueN, *]

@[simp] theorem runTile_same (x : Side) (n t : Nat) (s : State) : Same (runTile x n t s) s := by simp [runTile]

@[simp] theorem finishTile_same (x : Side) (n : Nat) (s : State) : Same (finishTile x n s) s := by simp [finishTile]

@[simp] theorem finishTiles_same (x : Side) (s : State) : Same (finishTiles x s) s := by simp [finishTiles]

@[simp] theorem touchTile_same (x : Side) (a : Nat) (s : State) : Same (touchTile x a s) s := by simp [touchTile]

@[simp] theorem tileStart_same (x : Side) (n job cyc : Nat) (s : State) : Same (tileStart x n job cyc s) s := by
  unfold tileStart; dsimp only; repeat' split
  all_goals simp

@[simp] theorem undoTile_same (x : Side) (n cyc : Nat) (s : State) : Same (undoTile x n cyc s) s := by
  have back : ∀ (l : List TileStore) (s : State), Same (l.foldr (fun e s => memWrite x e.addr e.old s) s) s := by
    intro l
    induction l with
    | nil => intro s; simp
    | cons e t ih => intro s; simp [ih s]
  unfold undoTile
  simp [back]

@[simp] theorem rcPut_same (x : Side) (a v : Nat) (s : State) : Same (rcPut x a v s) s := by
  unfold rcPut; repeat' split
  all_goals simp

@[simp] theorem regRead_same (r : Requester) (x : Side) (a again : Nat) (s : State) : Same (regRead r x a again s).2 s := by
  unfold regRead; repeat' split
  all_goals simp

@[simp] theorem clearEvents_same (x : Side) (u v : Nat) (s : State) : Same (clearEvents x u v s) s := by simp [clearEvents]

@[simp] theorem ownWrite_same (p o : Nat) (v : Word) (s : State) : Same (ownWrite p o v s) s := by simp [ownWrite]

@[simp] theorem regWrite_same (r : Requester) (x : Side) (a : Nat) (v : Word) (s : State) : Same (regWrite r x a v s) s := by
  unfold regWrite; repeat' split
  all_goals simp

@[simp] theorem accessError_same (x : Side) (code a : Nat) (s : State) : Same (accessError x code a s) s := by simp [accessError]

@[simp] theorem hostWord_same (p a : Nat) (s : State) : Same (hostWord p a s).2.2 s := by
  unfold hostWord; repeat' split
  all_goals simp

@[simp] theorem hostRead_same (p a n i : Nat) (s : State) : Same (hostRead p a n i s).2.2 s := by
  induction n generalizing a i s with
  | zero => simp [hostRead]
  | succ n ih =>
    simp only [hostRead]
    split <;> simp [ih]

@[simp] theorem hostMemWrite_same (x : Side) (p : Nat) (z0 : Nat) (z1 : Nat) (z2 : List Byte) (s : State) : Same (hostMemWrite x p z0 z1 z2 s) s := by
  revert z1 z2 s; induction z0 <;> intros <;> simp [hostMemWrite, *]

@[simp] theorem hostRegWrite_same (p : Nat) (z0 : Nat) (z1 : Nat) (z2 : List Byte) (s : State) : Same (hostRegWrite p z0 z1 z2 s) s := by
  revert z1 z2 s; induction z0 <;> intros <;> simp [hostRegWrite, *]

@[simp] theorem cableTie_same (x : Side) (a : Nat) (f : State → State) (s : State) (h : ∀ s, Same (f s) s) :
    Same (cableTie x a f s) s := by
  have h0 := h s
  have h1 := h { s with tie := some (s.now / (10 * nsUnit), a) }
  unfold cableTie
  dsimp only
  (repeat' split) <;> simp_all

@[simp] theorem performWrite_same (r : Requester) (a size : Nat) (v again : Word) (s : State) : Same (performWrite r a size v again s) s := by
  unfold performWrite; repeat' split
  all_goals simp

theorem writeRefused_same (r : Requester) (a size : Nat) (s t u : State) (h : writeRefused r a size s = some t) (k : Same s u) :
    Same t u := by
  unfold writeRefused at h
  dsimp only at h
  (repeat' split at h) <;> simp_all <;> subst h <;> simp_all
theorem readRefused_same (r : Requester) (a size : Nat) (s t u : State) (h : readRefused r a size s = some t) (k : Same s u) :
    Same t u := by
  unfold readRefused at h
  dsimp only at h
  (repeat' split at h) <;> simp_all <;> subst h <;> simp_all
theorem getD_same (o : Option State) (d s : State) (h : ∀ t, o = some t → Same t s) (k : Same d s) : Same (o.getD d) s := by
  cases o with
  | none => exact k
  | some t => exact h t rfl
@[simp] theorem registerWrite_same (r : Requester) (a size : Nat) (v again : Word) (s : State) : Same (registerWrite r a size v again s) s := by
  unfold registerWrite
  exact getD_same _ _ _ (fun t h => writeRefused_same _ _ _ _ _ _ h (by simp)) (by simp)

@[simp] theorem mapRead_same (x : Side) (a : Nat) (s : State) : Same (mapRead x a s).2 s := by
  unfold mapRead; repeat' split
  all_goals simp

@[simp] theorem registerRead_same (r : Requester) (a size again : Nat) (s : State) : Same (registerRead r a size again s) s := by
  unfold registerRead
  refine getD_same _ _ _ (fun t h => readRefused_same _ _ _ _ _ _ h (by simp)) ?_
  dsimp only
  split <;> simp

@[simp] theorem holdLow_same (r : Requester) (a size : Nat) (v : Word) (s : State) : Same (holdLow r a size v s) s := by
  unfold holdLow
  exact getD_same _ _ _ (fun t h => writeRefused_same _ _ _ _ _ _ h (by simp)) (by simp)

@[simp] theorem commitPair_same (r : Requester) (a size : Nat) (v : Word) (s : State) : Same (commitPair r a size v s) s := by
  unfold commitPair
  refine getD_same _ _ _ (fun t h => writeRefused_same _ _ _ _ _ _ h (by simp)) ?_
  split <;> simp

@[simp] theorem portRefused_same (port : Nat) (need : Option Nat) (s : State) : Same (portRefused port need s) s := by simp [portRefused]

@[simp] theorem portWrite_same (port a : Nat) (data : List Byte) (whole : Bool) (s : State) : Same (portWrite port a data whole s) s := by simp [portWrite]

@[simp] theorem writePerformed_same (port : Nat) (s : State) : Same (writePerformed port s) s := by
  unfold writePerformed; repeat' split
  all_goals simp

@[simp] theorem portReadReq_same (port a n : Nat) (whole : Bool) (s : State) : Same (portReadReq port a n whole s) s := by simp [portReadReq]

@[simp] theorem portReadComplete_same (port : Nat) (s : State) : Same (portReadComplete port s) s := by
  unfold portReadComplete; repeat' split
  all_goals simp

@[simp] theorem portReadBuf_same (port off len : Nat) (whole : Bool) (s : State) : Same (portReadBuf port off len whole s) s := by simp [portReadBuf]

@[simp] theorem modLink_same (s : State) (x : Side) (n : Nat) (f : SchLink → SchLink) : Same (State.modLink s x n f) s := by simp [State.modLink]

@[simp] theorem modChan_same (s : State) (x : Side) (k : Nat) (f : SchChan → SchChan) : Same (State.modChan s x k f) s := by simp [State.modChan]

@[simp] theorem voidRun_same (x : Side) (n : Nat) (s : State) : Same (voidRun x n s) s := by simp [voidRun]

@[simp] theorem loseLink_same (x : Side) (n : Nat) (s : State) : Same (loseLink x n s) s := by simp [loseLink]

@[simp] theorem judgePass_same (x : Side) (n : Nat) (s : State) : Same (judgePass x n s) s := by simp [judgePass]

@[simp] theorem linkUp_same (x : Side) (n : Nat) (s : State) : Same (linkUp x n s) s := by simp [linkUp]

@[simp] theorem linkMoves_same (x : Side) (n : Nat) (s : State) : Same (linkMoves x n s) s := by simp [linkMoves]

@[simp] theorem takeHealth_same (x : Side) (n : Nat) (f : List Byte) (s : State) : Same (takeHealth x n f s) s := by simp [takeHealth]

@[simp] theorem runSample_same (x : Side) (n : Nat) (f : Option (List Byte)) (s : State) : Same (runSample x n f s) s := by
  unfold runSample; repeat' split
  all_goals simp

@[simp] theorem captureOne_same (x : Side) (n : Nat) (f : Option (List Byte)) (k : SchLink) (lost : Bool) (c : Nat) (s : State) : Same (captureOne x n f k lost c s) s := by
  unfold captureOne; dsimp only; repeat' split
  all_goals simp

@[simp] theorem takeFrame_same (x : Side) (n : Nat) (f : Option (List Byte)) (s : State) : Same (takeFrame x n f s) s := by
  unfold takeFrame; repeat' split
  all_goals simp

@[simp] theorem noteRepair_same (x : Side) (n : Nat) (s : State) : Same (noteRepair x n s) s := by simp [noteRepair]

@[simp] theorem frameVerdict_same (n : Nat) (s : State) : Same (frameVerdict n s) s := by simp [frameVerdict]

@[simp] theorem deliverDown_same (i : OutItem) (s : State) : Same (deliverDown i s) s := by simp [deliverDown]

@[simp] theorem downlink_same (n m : Nat) (s : State) : Same (downlink n m s) s := by simp [downlink]

@[simp] theorem runOutput_same (x : Side) (i cyc : Nat) (s : State) : Same (runOutput x i cyc s) s := by simp [runOutput]

@[simp] theorem runStep_same (x : Side) (w cyc : Nat) (s : State) : Same (runStep x w cyc s) s := by simp [runStep]

@[simp] theorem runSteps_same (x : Side) (z0 : List Nat) (z1 : Nat) (s : State) : Same (runSteps x z0 z1 s) s := by
  revert z1 s; induction z0 <;> intros <;> simp [runSteps, *]

@[simp] theorem calStart_same (x : Side) (n : Nat) (s : State) : Same (calStart x n s) s := by
  unfold calStart; dsimp only; repeat' split
  all_goals simp

@[simp] theorem calEnd_same (x : Side) (n : Nat) (s : State) : Same (calEnd x n s) s := by simp [calEnd]

@[simp] theorem showSch_same (s : State) (x : Side) : Same (showSch s x) s := by simp [showSch]

@[simp] theorem writeVec_same (x : Side) (prec off : Nat) (v : List Nat) (s : State) : Same (writeVec x prec off v s) s := by simp [writeVec]

@[simp] theorem writeVecs_same (x : Side) (prec : Nat) (z0 : List (List Nat)) (z1 : Nat) (s : State) : Same (writeVecs x prec z0 z1 s) s := by
  revert z1 s; induction z0 <;> intros <;> simp [writeVecs, *]

@[simp] theorem modJob_same (s : State) (x : Side) (j : Nat) (f : SlvJob → SlvJob) : Same (State.modJob s x j f) s := by simp [State.modJob]

@[simp] theorem slvAbandon_same (x : Side) (j slice : Nat) (s : State) : Same (slvAbandon x j slice s) s := by
  unfold slvAbandon; dsimp only; repeat' split
  all_goals simp

@[simp] theorem slvBegin_same (x : Side) (d : SlvDesc) (s : State) : Same (slvBegin x d s) s := by simp [slvBegin]

@[simp] theorem slvStall_same (x : Side) (j : Nat) (ran : Bool) (s : State) : Same (slvStall x j ran s) s := by
  unfold slvStall; repeat' split
  all_goals simp

@[simp] theorem slvFinish_same (x : Side) (d : SlvDesc) (v : List Nat) (res : F64) (s : State) : Same (slvFinish x d v res s) s := by simp [slvFinish]

@[simp] theorem slvBytes_same (r : SlvRead) (x : Side) (off n : Nat) : Same (r.bytes x off n).2.s r.s := by
  simp [SlvRead.bytes]
@[simp] theorem slvVec_same (r : SlvRead) (x : Side) (prec off n : Nat) : Same (r.vec x prec off n).2.s r.s := by
  simp [SlvRead.vec]
@[simp] theorem slvVecs_same (x : Side) (prec : Nat) (ns : List Nat) (off : Nat) (r : SlvRead) :
    Same (SlvRead.vecs x prec ns off r).2.s r.s := by
  induction ns generalizing off r with
  | nil => simp [SlvRead.vecs]
  | cons n t ih => simp [SlvRead.vecs, ih]
@[simp] theorem slvCsr_same (r : SlvRead) (x : Side) (p : Nat) (a : SlvMat) : Same (r.csr x p a).2.s r.s := by simp [SlvRead.csr]
@[simp] theorem readPrecond_same (x : Side) (m : Tab Byte) (d : SlvDesc) (t : SlvJob) (r : SlvRead) :
    Same (readPrecond x m d t r).2.s r.s := by
  unfold readPrecond
  split
  · simp
  · split
    · simp
    · dsimp only
      split <;> simp
@[simp] theorem solveSlice_same (x : Side) (m : Tab Byte) (d : SlvDesc) (t : SlvJob) (entry : Nat) (first last : Bool) (s : State) :
    Same (solveSlice x m d t entry first last s) s := by
  unfold solveSlice
  extract_lets n mc rA rC rT rP rB rX a y rW s1 c A ad w0 w1 w2 c2 sc s2 s3 res
  have hA : Same rA.2.s s := slvCsr_same _ _ _ _
  have hC : Same rC.2.s s := by simp only [rC]; split <;> simp_all
  have hT : Same rT.2.s s := by simp only [rT]; split <;> simp_all
  have hP : Same rP.2.s s := by simp only [rP]; simp_all
  have hB : Same rB.2.s s := by simp only [rB]; simp_all
  have hX : Same rX.2.s s := by simp only [rX]; simp_all
  have hW : Same s1 s := by
    simp only [s1, rW, y, a]
    split
    · simp_all
    · split <;> simp_all
  split
  · simp_all
  · have h2 : Same s2 s1 := by simp [s2]
    have h3 : Same s3 s2 := by simp [s3]
    split <;> simp_all

@[simp] theorem factorSlice_same (x : Side) (m : Tab Byte) (d : SlvDesc) (t : SlvJob) (entry : Nat) (last : Bool) (s : State) :
    Same (factorSlice x m d t entry last s) s := by
  unfold factorSlice
  extract_lets a rA s1 c back base sizes put r pad s2 s3 s4
  have hA : Same s1 s := slvCsr_same _ _ _ _
  split
  · simp_all
  · have hr : Same r.1 s1 := foldl_pair_same' _ _ _ _ _ (by simp) (fun _ _ _ => by simp [put])
    have h2 : Same s2 r.1 := by simp only [s2]; split <;> simp
    have h3 : Same s3 s2 := by simp [s3]
    have h4 : Same s4 s3 := by simp only [s4]; split <;> simp
    split <;> simp_all

@[simp] theorem sliceOp_same (x : Side) (j : Nat) (s : State) : Same (sliceOp x j s) s := by
  unfold sliceOp; dsimp only; repeat' split
  all_goals simp

@[simp] theorem slvDueStep_same (x : Side) (c : Nat) (s : State) (d : SlvDesc) : Same (slvDueStep x c s d) s := by
  unfold slvDueStep; dsimp only
  refine ite_same (by simp) ?_
  refine same_trans (modJob_same ..) ?_
  have hp : ∀ t : State, Same (match slvPrimary (s.ld x).fmn.img d.id with
      | some p => if slvBerth s (s.ld x) d = 0 then t.modJob x p.id (fun t => { t with hold := none, holdOver := false }) else t
      | none => t) t := by intro t; split; exact ite_same (by simp) (by simp); simp
  refine same_trans (hp _) ?_
  refine ite_same (ite_same (same_trans (modJob_same ..) ?_) (ite_same (same_trans (raise_same ..) (same_trans (modJob_same ..) ?_)) ?_)) ?_
  all_goals
    refine ite_same (same_trans (raise_same ..) ?_) ?_
    all_goals
      refine ite_same (same_trans (raisePerSecond_same ..) ?_) ?_
      all_goals
        refine ite_same (same_trans (raisePerSecond_same ..) (same_trans (modJob_same ..) (same_trans (modLd_same _ _ _) ?_))) ?_
        all_goals exact ite_same (modJob_same ..) (by simp)

@[simp] theorem slvTick_same (x : Side) (c : Nat) (s : State) : Same (slvTick x c s) s := by simp [slvTick]

@[simp] theorem holdExpired_same (s : State) : Same (holdExpired s) s := by simp [holdExpired]

@[simp] theorem showSlv_same (s : State) (x : Side) : Same (showSlv s x) s := by simp [showSlv]

end Sys2Proof.Machine
end

