-- ==== Sys2Proof/Laws/DutyControl.lean ====
section
/-!
SUPPORT. `Same` (Laws/Duty.lean) of the operations of Machine/Control.lean, Machine/Transfers.lean, Machine/Verify.lean, Machine/Arbiter.lean, Machine/Modes.lean, Machine/Loads.lean, Machine/Slipway.lean.
-/
namespace Sys2Proof.Machine

@[simp] theorem modLoop_same (s : State) (x : Side) (n : Nat) (f : CtlLoop → CtlLoop) : Same (State.modLoop s x n f) s := by simp [State.modLoop]

@[simp] theorem readBank_same (x : Side) (m : Tab Byte) (o n bank : Nat) (s : State) : Same (readBank x m o n bank s).2.2 s := by simp [readBank]

@[simp] theorem heldSample_same (x : Side) (n flag : Nat) (disabled : Bool) (hold : F32) (s : State) : Same (heldSample x n flag disabled hold s) s := by simp [heldSample]

@[simp] theorem loopOp_same (x : Side) (n : Nat) (s : State) : Same (loopOp x n s) s := by
  unfold loopOp
  extract_lets m t due null swap bank two inp meas ref fade oldP pend next was
  have hi : Same inp.2 s := memRead_same x _ s
  split
  · simp
  · extract_lets disabled kn ko s1 u s2 s3 s4 cond tk rn ro y safe v fl s5 s6
    have hk : Same kn.2.2 inp.2 := readBank_same x m _ n bank inp.2
    have ho : Same s1 kn.2.2 := by simp only [s1, ko]; split <;> simp
    split
    · simp_all
    · split
      · simp_all
      · have h2 : Same s2 s1 := by simp only [s2]; split <;> simp
        have h4 : Same s4 s2 := by simp only [s4, s3]; split <;> simp
        have h5 : Same s5 s4 := by simp [s5]
        have h6 : Same s6 s5 := memWrite_same _ _ _ _
        split <;> simp_all

@[simp] theorem swapRequest_same (x : Side) (n bank f : Nat) (s : State) : Same (swapRequest x n bank f s) s := by simp [swapRequest]

@[simp] theorem ctlApply_same (x : Side) (host : Bool) (d : List Byte) (s : State) : Same (ctlApply x host d s) s := by
  unfold ctlApply; dsimp only; repeat' split
  all_goals simp

@[simp] theorem applyOp_same (x : Side) (q : Nat) (s : State) : Same (applyOp x q s) s := by simp [applyOp]

@[simp] theorem showCtl_same (s : State) (x : Side) : Same (showCtl s x) s := by simp [showCtl]

@[simp] theorem cableWord_same (x : Side) (a : Nat) (s : State) : Same (cableWord x a s).2 s := by
  unfold cableWord; dsimp only; repeat' split
  all_goals simp

@[simp] theorem cableBeat_same (x : Side) (a : Nat) (s : State) : Same (cableBeat x a s).2 s := by
  unfold cableBeat; repeat' split
  all_goals simp

@[simp] theorem dockRead_same (x : Side) (n a t : Nat) (s : State) : Same (dockRead x n a t s).2 s := by
  unfold dockRead; dsimp only; repeat' split
  all_goals simp

@[simp] theorem dockWrite_same (x : Side) (n a t : Nat) (w : Pw) (s : State) : Same (dockWrite x n a t w s) s := by simp [dockWrite]

@[simp] theorem portWord_same (x : Side) (a : Nat) (s : State) : Same (portWord x a s).2 s := by
  unfold portWord; repeat' split
  all_goals simp

@[simp] theorem storeRead_same (x : Side) (a t : Nat) (s : State) : Same (storeRead x a t s).2 s := by
  unfold storeRead; repeat' split
  all_goals simp

@[simp] theorem sourceBeat_same (x : Side) (c : Claim) (b : Nat) (s : State) : Same (sourceBeat x c b s).2 s := by
  unfold sourceBeat; repeat' split
  all_goals simp

@[simp] theorem checkBeat_same (x : Side) (a : Nat) (bits : List Nat) (w : Pw) (s : State) : Same (checkBeat x a bits w s).2 s := by
  unfold checkBeat; dsimp only; repeat' split
  all_goals simp

@[simp] theorem arriveBeats_same (x : Side) (c : Claim) (flips : List (Nat × Nat)) (z0 : Nat) (z1 : Nat) (s : State) : Same (arriveBeats x c flips z0 z1 s).2 s := by
  revert z1 s; induction z0 <;> intros <;> (unfold arriveBeats; dsimp only; (repeat' split) <;> simp_all)

@[simp] theorem writeBeat_same (x : Side) (c : Claim) (b : Nat) (w : Pw) (s : State) : Same (writeBeat x c b w s) s := by simp [writeBeat]

@[simp] theorem storeBeats_same (x : Side) (c : Claim) (b : Nat) (ws : List (Option Pw)) (s : State) : Same (storeBeats x c b ws s) s := by
  induction ws generalizing b s with
  | nil => simp [storeBeats]
  | cons w t ih => cases w <;> simp [storeBeats, ih]

@[simp] theorem keepKey_same (x : Side) (c : Claim) (s : State) : Same (keepKey x c s) s := by simp [keepKey]

@[simp] theorem padBuffer_same (x : Side) (c : Claim) (s : State) : Same (padBuffer x c s) s := by simp [padBuffer]

@[simp] theorem linkWrites_same (a : Nat) (ws : List Pw) (s : State) : Same (linkWrites a ws s) s := by
  induction ws generalizing a s with
  | nil => simp [linkWrites]
  | cons w t ih => simp [linkWrites, ih]

@[simp] theorem deliverLink_same (i : OutItem) (s : State) : Same (deliverLink i s) s := by simp [deliverLink]

@[simp] theorem deliver_same (i : OutItem) (s : State) : Same (deliver i s) s := by simp [deliver]

@[simp] theorem handLink_same (x : Side) (c : Claim) (ws : List (Option Pw)) (s : State) : Same (handLink x c ws s) s := by simp [handLink]

@[simp] theorem slotTransfer_same (x : Side) (k : Nat) (flips : List (Nat × Nat)) (s : State) : Same (slotTransfer x k flips s) s := by
  unfold slotTransfer; dsimp only; (repeat' split) <;> (simp_all; repeat' split) <;> simp_all

@[simp] theorem fareWord_same (x : Side) (a : Nat) (s : State) : Same (fareWord x a s).2 s := by
  unfold fareWord; repeat' split
  all_goals simp

@[simp] theorem fareWords_same (x : Side) (a n : Nat) (s : State) : Same (fareWords x a n s).2 s := by
  induction n generalizing a s with
  | zero => simp [fareWords]
  | succ n ih => simp [fareWords, ih]

@[simp] theorem fareAccess_same (x : Side) (q : FareReq) (s : State) : Same (fareAccess x q s) s := by simp [fareAccess]

@[simp] theorem sendWords_same (x y : Side) (a n : Nat) (s : State) : Same (sendWords x y a n s) s := by
  induction n generalizing a s with
  | zero => simp [sendWords]
  | succ n ih => simp [sendWords, ih]

@[simp] theorem sendBlock_same (x : Side) (addr : Nat) (s : State) : Same (sendBlock x addr s) s := by
  unfold sendBlock; repeat' split
  all_goals simp

@[simp] theorem fareDo_same (x : Side) (q : FareReq) (s : State) : Same (fareDo x q s) s := by simp [fareDo]

@[simp] theorem fareGrant_same (x : Side) (slot lane : Nat) (fresh : List FareReq) (s : State) : Same (fareGrant x slot lane fresh s) s := by
  unfold fareGrant; dsimp only; repeat' split
  all_goals simp

@[simp] theorem overrunOp_same (x : Side) (k cycle : Nat) (s : State) : Same (overrunOp x k cycle s) s := by simp [overrunOp]

@[simp] theorem operationCompletion_same (x : Side) (k cycle : Nat) (s : State) : Same (operationCompletion x k cycle s) s := by simp [operationCompletion]

@[simp] theorem noteRefusal_same (x : Side) (code off : Nat) (s : State) : Same (noteRefusal x code off s) s := by simp [noteRefusal]

@[simp] theorem notePassed_same (x : Side) (s : State) : Same (notePassed x s) s := by simp [notePassed]

@[simp] theorem haltDue_same (x : Side) (s : State) : Same (haltDue x s) s := by simp [haltDue]

@[simp] theorem setReport_same (x : Side) (r : Option Report) (s : State) : Same (setReport x r s) s := by
  unfold setReport; repeat' split
  all_goals simp

@[simp] theorem adriftNow_same (code : Nat) (s : State) : Same (adriftNow code s) s := by simp [adriftNow]

@[simp] theorem endChange_same (st : Status) (s : State) : Same (endChange st s) s := by
  unfold endChange; repeat' split
  all_goals simp

@[simp] theorem abandonChange_same (s : State) : Same (abandonChange s) s := by
  unfold abandonChange; repeat' split
  all_goals simp

@[simp] theorem endMarking_same (s : State) : Same (endMarking s) s := by simp [endMarking]

@[simp] theorem endResync_same (failed : Bool) (s : State) : Same (endResync failed s) s := by
  unfold endResync; repeat' split
  all_goals simp

@[simp] theorem failResync_same (s : State) : Same (failResync s) s := by
  unfold failResync; repeat' split
  all_goals simp

@[simp] theorem abandonResync_same (s : State) : Same (abandonResync s) s := by simp [abandonResync]

@[simp] theorem openGap_same (x : Side) (s : State) : Same (openGap x s) s := by simp [openGap]

@[simp] theorem noteVerdict_same (g row failed : Nat) (outA outB : Bool) (s : State) : Same (noteVerdict g row failed outA outB s) s := by simp [noteVerdict]

@[simp] theorem commonMiss_same (g : Nat) (s : State) : Same (commonMiss g s) s := by simp [commonMiss]

@[simp] theorem judgeLone_same (x : Side) (g : Nat) (s : State) : Same (judgeLone x g s) s := by
  unfold judgeLone; repeat' split
  all_goals simp

@[simp] theorem noteDiffer_same (g : Nat) (differ : Option Bool) (s : State) : Same (noteDiffer g differ s) s := by simp [noteDiffer]

@[simp] theorem releaseHeld_same (x : Side) (s : State) : Same (releaseHeld x s) s := by simp [releaseHeld]

@[simp] theorem dropItems_same (s : State) : Same (dropItems s) s := by simp [dropItems]

@[simp] theorem newActive_same (s : State) : Same (newActive s) s := by simp [newActive]

@[simp] theorem closeHandover_same (old : Side) (c : Change) (s : State) : Same (closeHandover old c s) s := by simp [closeHandover]

@[simp] theorem startResync_same (y : Side) (cmd : Option Pend) (s : State) : Same (startResync y cmd s) s := by simp [startResync]

@[simp] theorem resyncFinal_same (regBytes : Nat) (s : State) : Same (resyncFinal regBytes s) s := by
  unfold resyncFinal; repeat' split
  all_goals simp

@[simp] theorem confirmTimeout_same (s : State) : Same (confirmTimeout s) s := by
  unfold confirmTimeout; repeat' split
  all_goals simp

@[simp] theorem startChange_same (c : Change) (s : State) : Same (startChange c s) s := by simp [startChange]

@[simp] theorem bankWithdraw_same (bank : Nat) (s : State) : Same (bankWithdraw bank s) s := by simp [bankWithdraw]

@[simp] theorem leaveService_same (y : Side) (s : State) : Same (leaveService y s) s := by simp [leaveService]

@[simp] theorem beginLoad_same (y : Side) (q : Load) (s : State) : Same (beginLoad y q s) s := by simp [beginLoad]

@[simp] theorem releaseAdrift_same (s : State) : Same (releaseAdrift s) s := by simp [releaseAdrift]

@[simp] theorem postMode_same (bytes : List Byte) (s : State) : Same (postMode bytes s) s := by simp [postMode]

@[simp] theorem dropLoad_same (y : Side) (s : State) : Same (dropLoad y s) s := by simp [dropLoad]

@[simp] theorem loadVerdict_same (x : Side) (bank received : Nat) (ok : Bool) (s : State) : Same (loadVerdict x bank received ok s).2 s := by
  unfold loadVerdict; repeat' split
  all_goals simp

@[simp] theorem setBootBank_same (x : Side) (bank : Nat) (s : State) : Same (setBootBank x bank s) s := by simp [setBootBank]

@[simp] theorem startNext_same (x : Side) (s : State) : Same (startNext x s) s := by simp [startNext]

@[simp] theorem keepSlw_same (y : Side) (s : State) : Same (keepSlw y s) s := by simp [keepSlw]

@[simp] theorem putRec_same (x : Side) (o : Nat) (b : List Byte) (s : State) : Same (putRec x o b s) s := by simp [putRec]

@[simp] theorem modSlw_same (s : State) (x : Side) (f : Slipway → Slipway) : Same (State.modSlw s x f) s := by simp [State.modSlw]

@[simp] theorem beginStart_same (x : Side) (s : State) : Same (beginStart x s) s := by simp [beginStart]

@[simp] theorem scanLog_same (c1 c2 : Bool) (s : State) : Same (scanLog c1 c2 s) s := by simp [scanLog]

@[simp] theorem logStart_same (backup : Bool) (s : State) : Same (logStart backup s) s := by simp [logStart]

@[simp] theorem stageS2_same (s : State) : Same (stageS2 s) s := by simp [stageS2]

@[simp] theorem liftQuarantine_same (s : State) : Same (liftQuarantine s) s := by simp [liftQuarantine]

@[simp] theorem domainsOn_same (p : PowerOn) (s : State) : Same (domainsOn p s) s := by simp [domainsOn]

@[simp] theorem takePath_same (x : Side) (flag : Nat) (mark : Slipway → Slipway) (s : State) : Same (takePath x flag mark s) s := by simp [takePath]

@[simp] theorem stageS3_same (x : Side) (r : StartRun) (s : State) : Same (stageS3 x r s).1 s := by
  unfold stageS3; repeat' split
  all_goals simp

@[simp] theorem stageS4_same (x : Side) (s : State) : Same (stageS4 x s).1 s := by simp [stageS4]

@[simp] theorem stageS5_same (x : Side) (s : State) : Same (stageS5 x s).1 s := by
  unfold stageS5; dsimp only; repeat' split
  all_goals simp

@[simp] theorem stageS6_same (x : Side) (r : StartRun) (s : State) : Same (stageS6 x r s).1 s := by
  unfold stageS6; dsimp only; repeat' split
  all_goals simp

@[simp] theorem verifyBank_same (x : Side) (b : Nat) (s : State) : Same (verifyBank x b s).1 s := by
  unfold verifyBank; dsimp only; repeat' split
  all_goals simp

@[simp] theorem stageS7_same (x : Side) (s : State) : Same (stageS7 x s).1 s := by
  unfold stageS7; dsimp only; repeat' split
  all_goals simp

@[simp] theorem stageS9_same (x : Side) (r : StartRun) (s : State) : Same (stageS9 x r s).1 s := by
  unfold stageS9; dsimp only; repeat' split
  all_goals simp

@[simp] theorem enterStage_same (x : Side) (n : Nat) (s : State) : Same (enterStage x n s) s := by simp [enterStage]

@[simp] theorem finishStart_same (x : Side) (s : State) : Same (finishStart x s) s := by simp [finishStart]

@[simp] theorem rejoin_same (y : Side) (s : State) : Same (rejoin y s) s := by simp [rejoin]

@[simp] theorem enterS11_same (x : Side) (s : State) : Same (enterS11 x s) s := by simp [enterS11]

end Sys2Proof.Machine
end

