-- ==== Sys2Proof/Laws/DutySupply.lean ====
section
/-!
SUPPORT. `Same` (Laws/Duty.lean) of the operations of Machine/Supply.lean, Machine/Tick.lean.
-/
namespace Sys2Proof.Machine

@[simp] theorem found_same (f : State → State) (s : State) (h : ∀ s, Same (f s) s) : Same (found f s) s := by
  unfold found
  split <;> simp_all

@[simp] theorem modSup_same (s : State) (f : Supply → Supply) : Same (State.modSup s f) s := by simp [State.modSup]

@[simp] theorem settlePins_same (s : State) : Same (settlePins s) s := by simp [settlePins]

@[simp] theorem fieldOff_same (code : Nat) (s : State) : Same (fieldOff code s) s := by simp [fieldOff]

@[simp] theorem fieldOn_same (s : State) : Same (fieldOn s) s := by simp [fieldOn]

@[simp] theorem tempHigh_same (x : Side) (t : Int) (was : Bool) (s : State) : Same (tempHigh x t was s) s := by simp [tempHigh]

@[simp] theorem cutoffAt_same (dst : TickTo) (cut inputs : Nat) (s : State) : Same (cutoffAt dst cut inputs s) s := by simp [cutoffAt]

@[simp] theorem startModule_same (s : State) : Same (startModule s) s := by simp [startModule]

@[simp] theorem changeTick_same (x : Side) (s : State) : Same (changeTick x s) s := by
  unfold changeTick; repeat' split
  all_goals simp

@[simp] theorem answerUnknown_same (x : Side) (s : State) : Same (answerUnknown x s) s := by simp [answerUnknown]

@[simp] theorem applyLevels_same (s : State) : Same (applyLevels s) s := by
  unfold applyLevels
  apply foldl_same
  intro s p
  split <;> simp

@[simp] theorem stepTick_same (dst : TickTo) (t : Nat) (s : State) : Same (stepTick dst t s) s := by simp [stepTick]

@[simp] theorem setPeriods_same (dst : TickTo) (s : State) : Same (setPeriods dst s) s := by simp [setPeriods]

@[simp] theorem adriftCauses_same (s : State) : Same (adriftCauses s) s := by simp [adriftCauses]

@[simp] theorem unitTick_same (x : Side) (s : State) : Same (unitTick x s) s := by simp [unitTick]

@[simp] theorem showUnits_same (x : Side) (s : State) : Same (showUnits x s) s := by simp [showUnits]

@[simp] theorem showDkh_same (x : Side) (s : State) : Same (showDkh x s) s := by simp [showDkh]

@[simp] theorem idle_same (s : State) : Same (idle s) s := by simp [idle]

end Sys2Proof.Machine
end

