-- ==== Sys2Proof/WellFormed.lean ====
section
/-!
DEFINITION. Which commands are well formed: numbers within the ranges that the spec gives the objects they name. A host command
that its own table refuses is well formed; the module answers it.
-/
namespace Sys2Proof

/-- A requester that exists: one of 16 tiles (01 R34), one of 8 partitions (16 R603), a unit code. -/
def okReq : Requester → Bool
  | .deckhand _ => true
  | .tile _ n => n < 16
  | .engine _ u => 3 ≤ u && u ≤ 0x0B
  | .host p => p < 8

/-- An access width (00 R11): 1, 2, 4 or 8 bytes. -/
def okSize (n : Nat) : Bool := n = 1 || n = 2 || n = 4 || n = 8

/-- A command header from a queue that exists (16 R603, R614). -/
def okHdr (h : CmdHdr) : Bool := h.part < 8 && h.queue < 4 && h.descPart < 256 && h.descQueue < 256

/-- A command is well formed. -/
def wellFormed : Instr → Bool
  | .registerWrite _ r q _ _ => okReq r && okSize q.size
  | .rcRead _ r q _ => okReq r && okSize q.size
  | .pairLowRead _ r q => okReq r && okSize q.size
  | .pairLowWrite _ r q _ => okReq r && okSize q.size
  | .pairHighWrite _ r q _ => okReq r && okSize q.size
  | .crossingTick _ _ marks => marks.all (fun k => decide (k.ant < 2))
  | .fmnTickLost _ _ _ => true
  | .arrivalRecord _ _ cls port _ _ => 3 ≤ cls && cls ≤ 7 && port < 8
  | .admissionCutoff _ _ _ => true
  | .guardTimeStart _ _ => true
  | .slotTransfer _ _ _ flips => flips.all (fun f => decide (f.1 < 32 ∧ f.2 < 72))
  | .lspSlotMiss _ _ _ => true
  | .fareGrant _ _ _ lane fresh => lane < 8 && fresh.all (fun q => decide (q.who ≤ 10))
  | .lspFareWait _ _ who => who ≤ 9
  | .operationCompletion _ _ _ _ => true
  | .fmnOverrun _ _ _ _ => true
  | .verificationComplete _ _ bank _ _ => bank < 2
  | .tileStart _ n _ _ => n < 16
  | .nop _ n _ _ => n < 16
  | .add _ n _ _ => n < 16
  | .sub _ n _ _ => n < 16
  | .and _ n _ _ => n < 16
  | .or _ n _ _ => n < 16
  | .xor _ n _ _ => n < 16
  | .shl _ n _ _ => n < 16
  | .shr _ n _ _ => n < 16
  | .sar _ n _ _ => n < 16
  | .min _ n _ _ => n < 16
  | .max _ n _ _ => n < 16
  | .minu _ n _ _ => n < 16
  | .maxu _ n _ _ => n < 16
  | .mov _ n _ _ => n < 16
  | .movi _ n _ _ => n < 16
  | .sel _ n _ _ => n < 16
  | .cmpeq _ n _ _ => n < 16
  | .cmpne _ n _ _ => n < 16
  | .cmplt _ n _ _ => n < 16
  | .cmple _ n _ _ => n < 16
  | .cmpltu _ n _ _ => n < 16
  | .cmpleu _ n _ _ => n < 16
  | .pand _ n _ _ => n < 16
  | .por _ n _ _ => n < 16
  | .pxor _ n _ _ => n < 16
  | .pnot _ n _ _ => n < 16
  | .ptst _ n _ _ => n < 16
  | .exts _ n _ _ => n < 16
  | .extu _ n _ _ => n < 16
  | .qadd _ n _ _ => n < 16
  | .qsub _ n _ _ => n < 16
  | .clz _ n _ _ => n < 16
  | .mul _ n _ _ => n < 16
  | .mulh _ n _ _ => n < 16
  | .mulhu _ n _ _ => n < 16
  | .qmul _ n _ _ => n < 16
  | .sats _ n _ _ => n < 16
  | .fadd _ n _ _ => n < 16
  | .fsub _ n _ _ => n < 16
  | .fmul _ n _ _ => n < 16
  | .fma _ n _ _ => n < 16
  | .fms _ n _ _ => n < 16
  | .fmin _ n _ _ => n < 16
  | .fmax _ n _ _ => n < 16
  | .fabs _ n _ _ => n < 16
  | .fneg _ n _ _ => n < 16
  | .fdiv _ n _ _ => n < 16
  | .fsqrt _ n _ _ => n < 16
  | .fcmpeq _ n _ _ => n < 16
  | .fcmplt _ n _ _ => n < 16
  | .fcmple _ n _ _ => n < 16
  | .fcmpun _ n _ _ => n < 16
  | .fcvtif _ n _ _ => n < 16
  | .fcvtfi _ n _ _ => n < 16
  | .fcvtff _ n _ _ => n < 16
  | .fcvtqf _ n _ _ => n < 16
  | .fcvtfq _ n _ _ => n < 16
  | .vbcast _ n _ _ => n < 16
  | .vext _ n _ _ => n < 16
  | .vins _ n _ _ => n < 16
  | .vsum _ n _ _ => n < 16
  | .vmov _ n _ _ => n < 16
  | .ldb _ n _ _ => n < 16
  | .ldbu _ n _ _ => n < 16
  | .ldh _ n _ _ => n < 16
  | .ldhu _ n _ _ => n < 16
  | .ldw _ n _ _ => n < 16
  | .ldwu _ n _ _ => n < 16
  | .ldd _ n _ _ => n < 16
  | .ldv _ n _ _ => n < 16
  | .stb _ n _ _ => n < 16
  | .sth _ n _ _ => n < 16
  | .stw _ n _ _ => n < 16
  | .std _ n _ _ => n < 16
  | .stv _ n _ _ => n < 16
  | .mfs _ n _ _ => n < 16
  | .mts _ n _ _ => n < 16
  | .loop _ n _ _ => n < 16
  | .endProg _ n _ _ => n < 16
  | .uplinkFrame _ link _ _ => link < 16
  | .frameVerdict _ link => link < 16
  | .downlinkWord _ link _ => link < 16
  | .schRun _ _ _ => true
  | .calRunStart _ link => link < 16
  | .calResult _ link => link < 16
  | .schBypassLink h _ => okHdr h
  | .schRestoreLink h _ => okHdr h
  | .schSetUserCal h _ _ _ _ => okHdr h
  | .schDcFreeze h _ _ => okHdr h
  | .pass _ _ _ _ => true
  | .gnsWrite _ _ _ => true
  | .tsol _ _ => true
  | .pulseCommit _ => true
  | .timePulseOutput _ i => i < 2
  | .aidingPost _ => true
  | .aidingSave _ _ _ => true
  | .positionSave _ => true
  | .gnsAntennaOff h _ => okHdr h
  | .gnsAntennaOn h _ => okHdr h
  | .gnsSaveAiding h => okHdr h
  | .gnsClearAiding h => okHdr h
  | .gnsMag _ ant band => ant < 2 && band < 2
  | .gnsHoldover _ => true
  | .gnsHoldLimit _ => true
  | .align _ _ _ => true
  | .close _ _ => true
  | .fusExclude h _ => okHdr h
  | .fusReadmit h _ => okHdr h
  | .fusPinTrack h _ _ _ _ _ _ _ => okHdr h
  | .fusReleaseTrack h _ => okHdr h
  | .fusSetTransform h _ data => okHdr h && data.length ≤ 4080
  | .fusSetOrigin h _ _ _ => okHdr h
  | .slice _ _ _ => true
  | .slvHoldExpired _ => true
  | .ctlLoop _ _ _ => true
  | .apply _ _ q => q < 64
  | .ctlWrite h data => okHdr h && data.length ≤ 4080
  | .ctlSwap h _ _ _ => okHdr h
  | .update _ _ _ => true
  | .startDurationEnd _ a => a < 64
  | .axeStop h _ => okHdr h
  | .axeResume h _ => okHdr h
  | .axeHome h _ => okHdr h
  | .axeClearLimit h _ => okHdr h
  | .axeStart h _ => okHdr h
  | .axeOff h _ => okHdr h
  | .axePower h _ _ _ _ => okHdr h
  | .axeNanExpired _ => true
  | .axeStartTimeout _ a => a < 64
  | .axePmsStale _ b => b < 4
  | .legReport _ _ => true
  | .legVerdict _ _ => true
  | .failoverTakeover _ => true
  | .failback _ => true
  | .resyncFinalCopy _ _ => true
  | .resyncComplete _ => true
  | .manifestHandover _ => true
  | .changeConfirmTimeout _ => true
  | .bankWithdraw _ bank => bank ≤ 2
  | .cblOutOfService h _ => okHdr h
  | .cblMemtest h _ => okHdr h
  | .cblReload h _ _ => okHdr h
  | .cblResync h _ => okHdr h
  | .cblHoldReturn h _ => okHdr h
  | .cblManifestChange h _ _ => okHdr h
  | .cblConfirmChange h => okHdr h
  | .cblAdriftRelease h => okHdr h
  | .dkhSetMode h _ _ _ _ _ _ => okHdr h
  | .slwLoad h _ => okHdr h
  | .slwRestart h _ => okHdr h
  | .powerGood _ _ => true
  | .landingStart _ _ _ => true
  | .roleAssignment _ => true
  | .roleDeadline _ => true
  | .deckhandLockstepCheck _ _ _ => true
  | .slwStageTimeout _ _ stage => 3 ≤ stage && stage ≤ 11
  | .dkhWatchdog _ _ => true
  | .mergeWriteback _ _ => true
  | .bucketLeak _ _ => true
  | .memBucketCfg _ r _ _ => okReq r
  | .memScrubCfg _ r _ _ => okReq r
  | .remap _ _ raced _ _ => raced.all (fun e => decide (e.1 < 8))
  | .scrubLine _ _ hard raced => hard.all (fun i => decide (i < 8)) && raced.all (fun i => decide (i < 8))
  | .memtestComplete _ _ _ badSpares _ => badSpares.all (fun k => decide (k < 32))
  | .evaluationCycle _ _ => true
  | .stopDelayEnd _ k => k < 16
  | .safeTelegram _ net _ => net < 2
  | .telegramTransmit _ c _ => c < 8
  | .bolWriteParams h block => okHdr h && block.length ≤ 4080
  | .bolAck h _ => okHdr h
  | .bolTelegramTimeout _ c => c < 8
  | .canSend _ _ _ _ _ => true
  | .canFrameReceived _ _ p f => p < 8 && f.dlen ≤ 64
  | .canFrameSent _ _ p f => p < 8 && f.dlen ≤ 64
  | .canBusError _ _ p e => p < 8 && 1 ≤ e.typ && e.typ ≤ 5
  | .busOffRecovery _ p => p < 8
  | .referenceMessage _ p _ => p < 8
  | .canIsolate h _ => okHdr h
  | .canRestore h _ => okHdr h
  | .canBusOn h _ => okHdr h
  | .canReleaseId h _ _ _ => okHdr h
  | .canRefLate _ p => p < 8
  | .ethSend _ _ _ _ => true
  | .match_ _ _ => true
  | .ethFrameReceived _ _ p _ => p < 4
  | .launch _ _ p _ => p < 4
  | .linkChange _ _ p _ => p < 4
  | .laneBypass _ _ _ => true
  | .syncReceived _ b p _ _ _ => b < 4 && p < 4
  | .pdelayRequest _ _ p => p < 4
  | .masterMessageTransmit _ b _ => b < 4
  | .ethSetReference h _ => okHdr h
  | .ethStepTime h _ => okHdr h
  | .referenceMeasured _ _ => true
  | .referenceLock _ => true
  | .referenceHoldEnd _ => true
  | .ethRefLost _ => true
  | .ethTbLost _ b => b < 4
  | .write _ port _ _ _ => port < 4
  | .writePerformed _ port => port < 4
  | .readReq _ port _ _ _ => port < 4
  | .readComplete _ port => port < 4
  | .readBuf _ port _ _ _ => port < 4
  | .status _ port => port < 4
  | .doorbell _ p q _ => p < 4 && q < 4
  | .eventHeadWrite _ p q _ => p < 8 && q < 4
  | .eventEntryWrite _ p q => p < 8 && q < 4
  | .queueMoveComplete _ => true
  | .flashOperationComplete _ bank _ _ => bank < 4
  | .levelTimeout _ p => p < 8
  | .lockoutEnd _ p => p < 8
  | .jtagAccess _ _ => true
  | .purSubscribe h _ _ => okHdr h
  | .purAckAlarm h _ => okHdr h
  | .purRead h _ _ => okHdr h
  | .purSetQueue h _ _ _ => okHdr h
  | .purResend h _ _ => okHdr h
  | .purRelease h _ _ => okHdr h
  | .purPing h => okHdr h
  | .tolChallenge h _ _ => okHdr h
  | .tolResponse h resp => okHdr h && resp.length ≤ 4080
  | .tolLogout h => okHdr h
  | .tolKeyWrite h block => okHdr h && block.length ≤ 4080
  | .tolKeyRevoke h _ => okHdr h
  | .tolJtagUnlock h => okHdr h
  | .dkhImageErase h _ => okHdr h
  | .dkhImageWrite h _ _ data => okHdr h && data.length ≤ 4080
  | .dkhImageClose h _ => okHdr h
  | .purHoldExpired _ res => res ≤ 6
  | .supplySwitchover _ _ => true
  | .backupReset _ => true
  | .backupWrite _ r off _ => okReq r && off % 4 = 0
  | .rtcSnapshot _ r => okReq r
  | .rtcCommit _ r _ => okReq r
  | .rtcStageSubsec _ r _ => okReq r
  | .rtcWake _ r _ => okReq r
  | .wakeInstant _ => true
  | .logbookWrite _ _ _ => true
  | .rtcSet h _ _ => okHdr h
  | .rtcSetWake h _ => okHdr h
  | .rtcBkpWrite h _ data => okHdr h && data.length ≤ 4080
  | .logRead h _ _ => okHdr h
  | .logSetLimit h _ _ => okHdr h
  | .logClear h => okHdr h
  | .rtcVbatLow _ _ => true
  | .rtcOscStop _ => true
  | .moduleStop _ => true
  | .stepDriverRetry _ n _ => n < 32
  | .temperatureRead _ _ _ _ _ _ _ => true
  | .tpInEdge _ _ => true
  | .supV24aLow _ _ => true
  | .supV24bLow _ _ => true
  | .supV24High _ input _ => input < 2
  | .supReversed _ input _ => input < 2
  | .supV24Restored _ input _ => input < 2
  | .supFieldLost _ => true
  | .supFieldRestored _ => true
  | .supDomainLost _ domain => domain ≤ 4
  | .supStepShort _ n => n < 32
  | .supStepOpen _ n _ => n < 32
  | .supAxinRange _ i => i < 64
  | .supEncRange _ line => line < 16
  | .supCanBus _ p _ => p < 8
  | .supTpFault _ n _ => n < 2
  | .delayReqTransmit _ b _ => b < 4
  | .safetyOutputOvercurrent _ o c => o < 8 && 1 ≤ c && c ≤ 2
  | .axinRangeRestored _ i => i < 64
  | .encoderLineRestored _ line => line < 16
  | .logClearComplete _ _ _ => true
  | .limitTableWritten _ _ _ => true
  | .paramsStageComplete _ _ _ => true
  | .keyWriteComplete _ _ => true

end Sys2Proof
end

