-- ==== Sys2Proof/Laws/PerInstr.lean ====
section
/-!
SUPPORT. What is said of every command as syntax, one lemma for each constructor: a well-formed host command comes from a partition and a
command queue that exist, and its opcode lies in the operator range.
-/
namespace Sys2Proof.Laws.WellFormed
open Sys2Proof Sys2Proof.Machine

/-- The header of a well-formed host command names an existing partition and queue (16 R603, R614), and its opcode is 0x0301 or above. -/
def Statement (i : Instr) : Prop :=
  wellFormed i = true → ∀ h op, hostOf i = some (h, op) → h.part < 8 ∧ h.queue < 4 ∧ 0x0301 ≤ op

theorem okHdr_names (h : CmdHdr) (e : okHdr h = true) : h.part < 8 ∧ h.queue < 4 := by
  simp only [okHdr, Bool.and_eq_true, decide_eq_true_eq] at e; exact e.1.1

theorem of_host {i : Instr} {h : CmdHdr} {op : Nat} (e : hostOf i = some (h, op)) (w : wellFormed i = true → okHdr h = true)
    (o : 0x0301 ≤ op) : Statement i := by
  intro k h' op' e'; rw [e] at e'; cases e'
  exact ⟨(okHdr_names h (w k)).1, (okHdr_names h (w k)).2, o⟩

theorem of_none {i : Instr} (e : hostOf i = none) : Statement i := by
  intro _ h op e'; rw [e] at e'; cases e'

theorem registerWrite a0 a1 a2 a3 a4 : Statement (.registerWrite a0 a1 a2 a3 a4) := of_none rfl
theorem rcRead a0 a1 a2 a3 : Statement (.rcRead a0 a1 a2 a3) := of_none rfl
theorem pairLowRead a0 a1 a2 : Statement (.pairLowRead a0 a1 a2) := of_none rfl
theorem pairLowWrite a0 a1 a2 a3 : Statement (.pairLowWrite a0 a1 a2 a3) := of_none rfl
theorem pairHighWrite a0 a1 a2 a3 : Statement (.pairHighWrite a0 a1 a2 a3) := of_none rfl
theorem crossingTick a0 a1 a2 : Statement (.crossingTick a0 a1 a2) := of_none rfl
theorem fmnTickLost a0 a1 a2 : Statement (.fmnTickLost a0 a1 a2) := of_none rfl
theorem arrivalRecord a0 a1 a2 a3 a4 a5 : Statement (.arrivalRecord a0 a1 a2 a3 a4 a5) := of_none rfl
theorem admissionCutoff a0 a1 a2 : Statement (.admissionCutoff a0 a1 a2) := of_none rfl
theorem guardTimeStart a0 a1 : Statement (.guardTimeStart a0 a1) := of_none rfl
theorem slotTransfer a0 a1 a2 a3 : Statement (.slotTransfer a0 a1 a2 a3) := of_none rfl
theorem lspSlotMiss a0 a1 a2 : Statement (.lspSlotMiss a0 a1 a2) := of_none rfl
theorem fareGrant a0 a1 a2 a3 a4 : Statement (.fareGrant a0 a1 a2 a3 a4) := of_none rfl
theorem lspFareWait a0 a1 a2 : Statement (.lspFareWait a0 a1 a2) := of_none rfl
theorem operationCompletion a0 a1 a2 a3 : Statement (.operationCompletion a0 a1 a2 a3) := of_none rfl
theorem fmnOverrun a0 a1 a2 a3 : Statement (.fmnOverrun a0 a1 a2 a3) := of_none rfl
theorem verificationComplete a0 a1 a2 a3 a4 : Statement (.verificationComplete a0 a1 a2 a3 a4) := of_none rfl
theorem tileStart a0 a1 a2 a3 : Statement (.tileStart a0 a1 a2 a3) := of_none rfl
theorem nop a0 a1 a2 a3 : Statement (.nop a0 a1 a2 a3) := of_none rfl
theorem add a0 a1 a2 a3 : Statement (.add a0 a1 a2 a3) := of_none rfl
theorem sub a0 a1 a2 a3 : Statement (.sub a0 a1 a2 a3) := of_none rfl
theorem and a0 a1 a2 a3 : Statement (.and a0 a1 a2 a3) := of_none rfl
theorem or a0 a1 a2 a3 : Statement (.or a0 a1 a2 a3) := of_none rfl
theorem xor a0 a1 a2 a3 : Statement (.xor a0 a1 a2 a3) := of_none rfl
theorem shl a0 a1 a2 a3 : Statement (.shl a0 a1 a2 a3) := of_none rfl
theorem shr a0 a1 a2 a3 : Statement (.shr a0 a1 a2 a3) := of_none rfl
theorem sar a0 a1 a2 a3 : Statement (.sar a0 a1 a2 a3) := of_none rfl
theorem min a0 a1 a2 a3 : Statement (.min a0 a1 a2 a3) := of_none rfl
theorem max a0 a1 a2 a3 : Statement (.max a0 a1 a2 a3) := of_none rfl
theorem minu a0 a1 a2 a3 : Statement (.minu a0 a1 a2 a3) := of_none rfl
theorem maxu a0 a1 a2 a3 : Statement (.maxu a0 a1 a2 a3) := of_none rfl
theorem mov a0 a1 a2 a3 : Statement (.mov a0 a1 a2 a3) := of_none rfl
theorem movi a0 a1 a2 a3 : Statement (.movi a0 a1 a2 a3) := of_none rfl
theorem sel a0 a1 a2 a3 : Statement (.sel a0 a1 a2 a3) := of_none rfl
theorem cmpeq a0 a1 a2 a3 : Statement (.cmpeq a0 a1 a2 a3) := of_none rfl
theorem cmpne a0 a1 a2 a3 : Statement (.cmpne a0 a1 a2 a3) := of_none rfl
theorem cmplt a0 a1 a2 a3 : Statement (.cmplt a0 a1 a2 a3) := of_none rfl
theorem cmple a0 a1 a2 a3 : Statement (.cmple a0 a1 a2 a3) := of_none rfl
theorem cmpltu a0 a1 a2 a3 : Statement (.cmpltu a0 a1 a2 a3) := of_none rfl
theorem cmpleu a0 a1 a2 a3 : Statement (.cmpleu a0 a1 a2 a3) := of_none rfl
theorem pand a0 a1 a2 a3 : Statement (.pand a0 a1 a2 a3) := of_none rfl
theorem por a0 a1 a2 a3 : Statement (.por a0 a1 a2 a3) := of_none rfl
theorem pxor a0 a1 a2 a3 : Statement (.pxor a0 a1 a2 a3) := of_none rfl
theorem pnot a0 a1 a2 a3 : Statement (.pnot a0 a1 a2 a3) := of_none rfl
theorem ptst a0 a1 a2 a3 : Statement (.ptst a0 a1 a2 a3) := of_none rfl
theorem exts a0 a1 a2 a3 : Statement (.exts a0 a1 a2 a3) := of_none rfl
theorem extu a0 a1 a2 a3 : Statement (.extu a0 a1 a2 a3) := of_none rfl
theorem qadd a0 a1 a2 a3 : Statement (.qadd a0 a1 a2 a3) := of_none rfl
theorem qsub a0 a1 a2 a3 : Statement (.qsub a0 a1 a2 a3) := of_none rfl
theorem clz a0 a1 a2 a3 : Statement (.clz a0 a1 a2 a3) := of_none rfl
theorem mul a0 a1 a2 a3 : Statement (.mul a0 a1 a2 a3) := of_none rfl
theorem mulh a0 a1 a2 a3 : Statement (.mulh a0 a1 a2 a3) := of_none rfl
theorem mulhu a0 a1 a2 a3 : Statement (.mulhu a0 a1 a2 a3) := of_none rfl
theorem qmul a0 a1 a2 a3 : Statement (.qmul a0 a1 a2 a3) := of_none rfl
theorem sats a0 a1 a2 a3 : Statement (.sats a0 a1 a2 a3) := of_none rfl
theorem fadd a0 a1 a2 a3 : Statement (.fadd a0 a1 a2 a3) := of_none rfl
theorem fsub a0 a1 a2 a3 : Statement (.fsub a0 a1 a2 a3) := of_none rfl
theorem fmul a0 a1 a2 a3 : Statement (.fmul a0 a1 a2 a3) := of_none rfl
theorem fma a0 a1 a2 a3 : Statement (.fma a0 a1 a2 a3) := of_none rfl
theorem fms a0 a1 a2 a3 : Statement (.fms a0 a1 a2 a3) := of_none rfl
theorem fmin a0 a1 a2 a3 : Statement (.fmin a0 a1 a2 a3) := of_none rfl
theorem fmax a0 a1 a2 a3 : Statement (.fmax a0 a1 a2 a3) := of_none rfl
theorem fabs a0 a1 a2 a3 : Statement (.fabs a0 a1 a2 a3) := of_none rfl
theorem fneg a0 a1 a2 a3 : Statement (.fneg a0 a1 a2 a3) := of_none rfl
theorem fdiv a0 a1 a2 a3 : Statement (.fdiv a0 a1 a2 a3) := of_none rfl
theorem fsqrt a0 a1 a2 a3 : Statement (.fsqrt a0 a1 a2 a3) := of_none rfl
theorem fcmpeq a0 a1 a2 a3 : Statement (.fcmpeq a0 a1 a2 a3) := of_none rfl
theorem fcmplt a0 a1 a2 a3 : Statement (.fcmplt a0 a1 a2 a3) := of_none rfl
theorem fcmple a0 a1 a2 a3 : Statement (.fcmple a0 a1 a2 a3) := of_none rfl
theorem fcmpun a0 a1 a2 a3 : Statement (.fcmpun a0 a1 a2 a3) := of_none rfl
theorem fcvtif a0 a1 a2 a3 : Statement (.fcvtif a0 a1 a2 a3) := of_none rfl
theorem fcvtfi a0 a1 a2 a3 : Statement (.fcvtfi a0 a1 a2 a3) := of_none rfl
theorem fcvtff a0 a1 a2 a3 : Statement (.fcvtff a0 a1 a2 a3) := of_none rfl
theorem fcvtqf a0 a1 a2 a3 : Statement (.fcvtqf a0 a1 a2 a3) := of_none rfl
theorem fcvtfq a0 a1 a2 a3 : Statement (.fcvtfq a0 a1 a2 a3) := of_none rfl
theorem vbcast a0 a1 a2 a3 : Statement (.vbcast a0 a1 a2 a3) := of_none rfl
theorem vext a0 a1 a2 a3 : Statement (.vext a0 a1 a2 a3) := of_none rfl
theorem vins a0 a1 a2 a3 : Statement (.vins a0 a1 a2 a3) := of_none rfl
theorem vsum a0 a1 a2 a3 : Statement (.vsum a0 a1 a2 a3) := of_none rfl
theorem vmov a0 a1 a2 a3 : Statement (.vmov a0 a1 a2 a3) := of_none rfl
theorem ldb a0 a1 a2 a3 : Statement (.ldb a0 a1 a2 a3) := of_none rfl
theorem ldbu a0 a1 a2 a3 : Statement (.ldbu a0 a1 a2 a3) := of_none rfl
theorem ldh a0 a1 a2 a3 : Statement (.ldh a0 a1 a2 a3) := of_none rfl
theorem ldhu a0 a1 a2 a3 : Statement (.ldhu a0 a1 a2 a3) := of_none rfl
theorem ldw a0 a1 a2 a3 : Statement (.ldw a0 a1 a2 a3) := of_none rfl
theorem ldwu a0 a1 a2 a3 : Statement (.ldwu a0 a1 a2 a3) := of_none rfl
theorem ldd a0 a1 a2 a3 : Statement (.ldd a0 a1 a2 a3) := of_none rfl
theorem ldv a0 a1 a2 a3 : Statement (.ldv a0 a1 a2 a3) := of_none rfl
theorem stb a0 a1 a2 a3 : Statement (.stb a0 a1 a2 a3) := of_none rfl
theorem sth a0 a1 a2 a3 : Statement (.sth a0 a1 a2 a3) := of_none rfl
theorem stw a0 a1 a2 a3 : Statement (.stw a0 a1 a2 a3) := of_none rfl
theorem std a0 a1 a2 a3 : Statement (.std a0 a1 a2 a3) := of_none rfl
theorem stv a0 a1 a2 a3 : Statement (.stv a0 a1 a2 a3) := of_none rfl
theorem mfs a0 a1 a2 a3 : Statement (.mfs a0 a1 a2 a3) := of_none rfl
theorem mts a0 a1 a2 a3 : Statement (.mts a0 a1 a2 a3) := of_none rfl
theorem loop a0 a1 a2 a3 : Statement (.loop a0 a1 a2 a3) := of_none rfl
theorem endProg a0 a1 a2 a3 : Statement (.endProg a0 a1 a2 a3) := of_none rfl
theorem uplinkFrame a0 a1 a2 a3 : Statement (.uplinkFrame a0 a1 a2 a3) := of_none rfl
theorem frameVerdict a0 a1 : Statement (.frameVerdict a0 a1) := of_none rfl
theorem downlinkWord a0 a1 a2 : Statement (.downlinkWord a0 a1 a2) := of_none rfl
theorem schRun a0 a1 a2 : Statement (.schRun a0 a1 a2) := of_none rfl
theorem calRunStart a0 a1 : Statement (.calRunStart a0 a1) := of_none rfl
theorem calResult a0 a1 : Statement (.calResult a0 a1) := of_none rfl
theorem schBypassLink a0 a1 : Statement (.schBypassLink a0 a1) := of_host rfl id (by decide)
theorem schRestoreLink a0 a1 : Statement (.schRestoreLink a0 a1) := of_host rfl id (by decide)
theorem schSetUserCal a0 a1 a2 a3 a4 : Statement (.schSetUserCal a0 a1 a2 a3 a4) := of_host rfl id (by decide)
theorem schDcFreeze a0 a1 a2 : Statement (.schDcFreeze a0 a1 a2) := of_host rfl id (by decide)
theorem pass a0 a1 a2 a3 : Statement (.pass a0 a1 a2 a3) := of_none rfl
theorem gnsWrite a0 a1 a2 : Statement (.gnsWrite a0 a1 a2) := of_none rfl
theorem tsol a0 a1 : Statement (.tsol a0 a1) := of_none rfl
theorem pulseCommit a0 : Statement (.pulseCommit a0) := of_none rfl
theorem timePulseOutput a0 a1 : Statement (.timePulseOutput a0 a1) := of_none rfl
theorem aidingPost a0 : Statement (.aidingPost a0) := of_none rfl
theorem aidingSave a0 a1 a2 : Statement (.aidingSave a0 a1 a2) := of_none rfl
theorem positionSave a0 : Statement (.positionSave a0) := of_none rfl
theorem gnsAntennaOff a0 a1 : Statement (.gnsAntennaOff a0 a1) := of_host rfl id (by decide)
theorem gnsAntennaOn a0 a1 : Statement (.gnsAntennaOn a0 a1) := of_host rfl id (by decide)
theorem gnsSaveAiding a0 : Statement (.gnsSaveAiding a0) := of_host rfl id (by decide)
theorem gnsClearAiding a0 : Statement (.gnsClearAiding a0) := of_host rfl id (by decide)
theorem gnsMag a0 a1 a2 : Statement (.gnsMag a0 a1 a2) := of_none rfl
theorem gnsHoldover a0 : Statement (.gnsHoldover a0) := of_none rfl
theorem gnsHoldLimit a0 : Statement (.gnsHoldLimit a0) := of_none rfl
theorem align a0 a1 a2 : Statement (.align a0 a1 a2) := of_none rfl
theorem close a0 a1 : Statement (.close a0 a1) := of_none rfl
theorem fusExclude a0 a1 : Statement (.fusExclude a0 a1) := of_host rfl id (by decide)
theorem fusReadmit a0 a1 : Statement (.fusReadmit a0 a1) := of_host rfl id (by decide)
theorem fusPinTrack a0 a1 a2 a3 a4 a5 a6 a7 : Statement (.fusPinTrack a0 a1 a2 a3 a4 a5 a6 a7) := of_host rfl id (by decide)
theorem fusReleaseTrack a0 a1 : Statement (.fusReleaseTrack a0 a1) := of_host rfl id (by decide)
theorem fusSetTransform a0 a1 a2 : Statement (.fusSetTransform a0 a1 a2) := of_host rfl (fun w => by simp only [wellFormed, Bool.and_eq_true] at w; exact w.1) (by decide)
theorem fusSetOrigin a0 a1 a2 a3 : Statement (.fusSetOrigin a0 a1 a2 a3) := of_host rfl id (by decide)
theorem slice a0 a1 a2 : Statement (.slice a0 a1 a2) := of_none rfl
theorem slvHoldExpired a0 : Statement (.slvHoldExpired a0) := of_none rfl
theorem ctlLoop a0 a1 a2 : Statement (.ctlLoop a0 a1 a2) := of_none rfl
theorem apply a0 a1 a2 : Statement (.apply a0 a1 a2) := of_none rfl
theorem ctlWrite a0 a1 : Statement (.ctlWrite a0 a1) := of_host rfl (fun w => by simp only [wellFormed, Bool.and_eq_true] at w; exact w.1) (by decide)
theorem ctlSwap a0 a1 a2 a3 : Statement (.ctlSwap a0 a1 a2 a3) := of_host rfl id (by decide)
theorem update a0 a1 a2 : Statement (.update a0 a1 a2) := of_none rfl
theorem startDurationEnd a0 a1 : Statement (.startDurationEnd a0 a1) := of_none rfl
theorem axeStop a0 a1 : Statement (.axeStop a0 a1) := of_host rfl id (by decide)
theorem axeResume a0 a1 : Statement (.axeResume a0 a1) := of_host rfl id (by decide)
theorem axeHome a0 a1 : Statement (.axeHome a0 a1) := of_host rfl id (by decide)
theorem axeClearLimit a0 a1 : Statement (.axeClearLimit a0 a1) := of_host rfl id (by decide)
theorem axeStart a0 a1 : Statement (.axeStart a0 a1) := of_host rfl id (by decide)
theorem axeOff a0 a1 : Statement (.axeOff a0 a1) := of_host rfl id (by decide)
theorem axePower a0 a1 a2 a3 a4 : Statement (.axePower a0 a1 a2 a3 a4) := of_host rfl id (by decide)
theorem axeNanExpired a0 : Statement (.axeNanExpired a0) := of_none rfl
theorem axeStartTimeout a0 a1 : Statement (.axeStartTimeout a0 a1) := of_none rfl
theorem axePmsStale a0 a1 : Statement (.axePmsStale a0 a1) := of_none rfl
theorem legReport a0 a1 : Statement (.legReport a0 a1) := of_none rfl
theorem legVerdict a0 a1 : Statement (.legVerdict a0 a1) := of_none rfl
theorem failoverTakeover a0 : Statement (.failoverTakeover a0) := of_none rfl
theorem failback a0 : Statement (.failback a0) := of_none rfl
theorem resyncFinalCopy a0 a1 : Statement (.resyncFinalCopy a0 a1) := of_none rfl
theorem resyncComplete a0 : Statement (.resyncComplete a0) := of_none rfl
theorem manifestHandover a0 : Statement (.manifestHandover a0) := of_none rfl
theorem changeConfirmTimeout a0 : Statement (.changeConfirmTimeout a0) := of_none rfl
theorem bankWithdraw a0 a1 : Statement (.bankWithdraw a0 a1) := of_none rfl
theorem cblOutOfService a0 a1 : Statement (.cblOutOfService a0 a1) := of_host rfl id (by decide)
theorem cblMemtest a0 a1 : Statement (.cblMemtest a0 a1) := of_host rfl id (by decide)
theorem cblReload a0 a1 a2 : Statement (.cblReload a0 a1 a2) := of_host rfl id (by decide)
theorem cblResync a0 a1 : Statement (.cblResync a0 a1) := of_host rfl id (by decide)
theorem cblHoldReturn a0 a1 : Statement (.cblHoldReturn a0 a1) := of_host rfl id (by decide)
theorem cblManifestChange a0 a1 a2 : Statement (.cblManifestChange a0 a1 a2) := of_host rfl id (by decide)
theorem cblConfirmChange a0 : Statement (.cblConfirmChange a0) := of_host rfl id (by decide)
theorem cblAdriftRelease a0 : Statement (.cblAdriftRelease a0) := of_host rfl id (by decide)
theorem dkhSetMode a0 a1 a2 a3 a4 a5 a6 : Statement (.dkhSetMode a0 a1 a2 a3 a4 a5 a6) := of_host rfl id (by decide)
theorem slwLoad a0 a1 : Statement (.slwLoad a0 a1) := of_host rfl id (by decide)
theorem slwRestart a0 a1 : Statement (.slwRestart a0 a1) := of_host rfl id (by decide)
theorem powerGood a0 a1 : Statement (.powerGood a0 a1) := of_none rfl
theorem landingStart a0 a1 a2 : Statement (.landingStart a0 a1 a2) := of_none rfl
theorem roleAssignment a0 : Statement (.roleAssignment a0) := of_none rfl
theorem roleDeadline a0 : Statement (.roleDeadline a0) := of_none rfl
theorem deckhandLockstepCheck a0 a1 a2 : Statement (.deckhandLockstepCheck a0 a1 a2) := of_none rfl
theorem slwStageTimeout a0 a1 a2 : Statement (.slwStageTimeout a0 a1 a2) := of_none rfl
theorem dkhWatchdog a0 a1 : Statement (.dkhWatchdog a0 a1) := of_none rfl
theorem mergeWriteback a0 a1 : Statement (.mergeWriteback a0 a1) := of_none rfl
theorem bucketLeak a0 a1 : Statement (.bucketLeak a0 a1) := of_none rfl
theorem memBucketCfg a0 a1 a2 a3 : Statement (.memBucketCfg a0 a1 a2 a3) := of_none rfl
theorem memScrubCfg a0 a1 a2 a3 : Statement (.memScrubCfg a0 a1 a2 a3) := of_none rfl
theorem remap a0 a1 a2 a3 a4 : Statement (.remap a0 a1 a2 a3 a4) := of_none rfl
theorem scrubLine a0 a1 a2 a3 : Statement (.scrubLine a0 a1 a2 a3) := of_none rfl
theorem memtestComplete a0 a1 a2 a3 a4 : Statement (.memtestComplete a0 a1 a2 a3 a4) := of_none rfl
theorem evaluationCycle a0 a1 : Statement (.evaluationCycle a0 a1) := of_none rfl
theorem stopDelayEnd a0 a1 : Statement (.stopDelayEnd a0 a1) := of_none rfl
theorem safeTelegram a0 a1 a2 : Statement (.safeTelegram a0 a1 a2) := of_none rfl
theorem telegramTransmit a0 a1 a2 : Statement (.telegramTransmit a0 a1 a2) := of_none rfl
theorem bolWriteParams a0 a1 : Statement (.bolWriteParams a0 a1) := of_host rfl (fun w => by simp only [wellFormed, Bool.and_eq_true] at w; exact w.1) (by decide)
theorem bolAck a0 a1 : Statement (.bolAck a0 a1) := of_host rfl id (by decide)
theorem bolTelegramTimeout a0 a1 : Statement (.bolTelegramTimeout a0 a1) := of_none rfl
theorem canSend a0 a1 a2 a3 a4 : Statement (.canSend a0 a1 a2 a3 a4) := of_none rfl
theorem canFrameReceived a0 a1 a2 a3 : Statement (.canFrameReceived a0 a1 a2 a3) := of_none rfl
theorem canFrameSent a0 a1 a2 a3 : Statement (.canFrameSent a0 a1 a2 a3) := of_none rfl
theorem canBusError a0 a1 a2 a3 : Statement (.canBusError a0 a1 a2 a3) := of_none rfl
theorem busOffRecovery a0 a1 : Statement (.busOffRecovery a0 a1) := of_none rfl
theorem referenceMessage a0 a1 a2 : Statement (.referenceMessage a0 a1 a2) := of_none rfl
theorem canIsolate a0 a1 : Statement (.canIsolate a0 a1) := of_host rfl id (by decide)
theorem canRestore a0 a1 : Statement (.canRestore a0 a1) := of_host rfl id (by decide)
theorem canBusOn a0 a1 : Statement (.canBusOn a0 a1) := of_host rfl id (by decide)
theorem canReleaseId a0 a1 a2 a3 : Statement (.canReleaseId a0 a1 a2 a3) := of_host rfl id (by decide)
theorem canRefLate a0 a1 : Statement (.canRefLate a0 a1) := of_none rfl
theorem ethSend a0 a1 a2 a3 : Statement (.ethSend a0 a1 a2 a3) := of_none rfl
theorem match_ a0 a1 : Statement (.match_ a0 a1) := of_none rfl
theorem ethFrameReceived a0 a1 a2 a3 : Statement (.ethFrameReceived a0 a1 a2 a3) := of_none rfl
theorem launch a0 a1 a2 a3 : Statement (.launch a0 a1 a2 a3) := of_none rfl
theorem linkChange a0 a1 a2 a3 : Statement (.linkChange a0 a1 a2 a3) := of_none rfl
theorem laneBypass a0 a1 a2 : Statement (.laneBypass a0 a1 a2) := of_none rfl
theorem syncReceived a0 a1 a2 a3 a4 a5 : Statement (.syncReceived a0 a1 a2 a3 a4 a5) := of_none rfl
theorem pdelayRequest a0 a1 a2 : Statement (.pdelayRequest a0 a1 a2) := of_none rfl
theorem masterMessageTransmit a0 a1 a2 : Statement (.masterMessageTransmit a0 a1 a2) := of_none rfl
theorem ethSetReference a0 a1 : Statement (.ethSetReference a0 a1) := of_host rfl id (by decide)
theorem ethStepTime a0 a1 : Statement (.ethStepTime a0 a1) := of_host rfl id (by decide)
theorem referenceMeasured a0 a1 : Statement (.referenceMeasured a0 a1) := of_none rfl
theorem referenceLock a0 : Statement (.referenceLock a0) := of_none rfl
theorem referenceHoldEnd a0 : Statement (.referenceHoldEnd a0) := of_none rfl
theorem ethRefLost a0 : Statement (.ethRefLost a0) := of_none rfl
theorem ethTbLost a0 a1 : Statement (.ethTbLost a0 a1) := of_none rfl
theorem write a0 a1 a2 a3 a4 : Statement (.write a0 a1 a2 a3 a4) := of_none rfl
theorem writePerformed a0 a1 : Statement (.writePerformed a0 a1) := of_none rfl
theorem readReq a0 a1 a2 a3 a4 : Statement (.readReq a0 a1 a2 a3 a4) := of_none rfl
theorem readComplete a0 a1 : Statement (.readComplete a0 a1) := of_none rfl
theorem readBuf a0 a1 a2 a3 a4 : Statement (.readBuf a0 a1 a2 a3 a4) := of_none rfl
theorem status a0 a1 : Statement (.status a0 a1) := of_none rfl
theorem doorbell a0 a1 a2 a3 : Statement (.doorbell a0 a1 a2 a3) := of_none rfl
theorem eventHeadWrite a0 a1 a2 a3 : Statement (.eventHeadWrite a0 a1 a2 a3) := of_none rfl
theorem eventEntryWrite a0 a1 a2 : Statement (.eventEntryWrite a0 a1 a2) := of_none rfl
theorem queueMoveComplete a0 : Statement (.queueMoveComplete a0) := of_none rfl
theorem flashOperationComplete a0 a1 a2 a3 : Statement (.flashOperationComplete a0 a1 a2 a3) := of_none rfl
theorem levelTimeout a0 a1 : Statement (.levelTimeout a0 a1) := of_none rfl
theorem lockoutEnd a0 a1 : Statement (.lockoutEnd a0 a1) := of_none rfl
theorem jtagAccess a0 a1 : Statement (.jtagAccess a0 a1) := of_none rfl
theorem purSubscribe a0 a1 a2 : Statement (.purSubscribe a0 a1 a2) := of_host rfl id (by decide)
theorem purAckAlarm a0 a1 : Statement (.purAckAlarm a0 a1) := of_host rfl id (by decide)
theorem purRead a0 a1 a2 : Statement (.purRead a0 a1 a2) := of_host rfl id (by decide)
theorem purSetQueue a0 a1 a2 a3 : Statement (.purSetQueue a0 a1 a2 a3) := of_host rfl id (by decide)
theorem purResend a0 a1 a2 : Statement (.purResend a0 a1 a2) := of_host rfl id (by decide)
theorem purRelease a0 a1 a2 : Statement (.purRelease a0 a1 a2) := of_host rfl id (by decide)
theorem purPing a0 : Statement (.purPing a0) := of_host rfl id (by decide)
theorem tolChallenge a0 a1 a2 : Statement (.tolChallenge a0 a1 a2) := of_host rfl id (by decide)
theorem tolResponse a0 a1 : Statement (.tolResponse a0 a1) := of_host rfl (fun w => by simp only [wellFormed, Bool.and_eq_true] at w; exact w.1) (by decide)
theorem tolLogout a0 : Statement (.tolLogout a0) := of_host rfl id (by decide)
theorem tolKeyWrite a0 a1 : Statement (.tolKeyWrite a0 a1) := of_host rfl (fun w => by simp only [wellFormed, Bool.and_eq_true] at w; exact w.1) (by decide)
theorem tolKeyRevoke a0 a1 : Statement (.tolKeyRevoke a0 a1) := of_host rfl id (by decide)
theorem tolJtagUnlock a0 : Statement (.tolJtagUnlock a0) := of_host rfl id (by decide)
theorem dkhImageErase a0 a1 : Statement (.dkhImageErase a0 a1) := of_host rfl id (by decide)
theorem dkhImageWrite a0 a1 a2 a3 : Statement (.dkhImageWrite a0 a1 a2 a3) := of_host rfl (fun w => by simp only [wellFormed, Bool.and_eq_true] at w; exact w.1) (by decide)
theorem dkhImageClose a0 a1 : Statement (.dkhImageClose a0 a1) := of_host rfl id (by decide)
theorem purHoldExpired a0 a1 : Statement (.purHoldExpired a0 a1) := of_none rfl
theorem supplySwitchover a0 a1 : Statement (.supplySwitchover a0 a1) := of_none rfl
theorem backupReset a0 : Statement (.backupReset a0) := of_none rfl
theorem backupWrite a0 a1 a2 a3 : Statement (.backupWrite a0 a1 a2 a3) := of_none rfl
theorem rtcSnapshot a0 a1 : Statement (.rtcSnapshot a0 a1) := of_none rfl
theorem rtcCommit a0 a1 a2 : Statement (.rtcCommit a0 a1 a2) := of_none rfl
theorem rtcStageSubsec a0 a1 a2 : Statement (.rtcStageSubsec a0 a1 a2) := of_none rfl
theorem rtcWake a0 a1 a2 : Statement (.rtcWake a0 a1 a2) := of_none rfl
theorem wakeInstant a0 : Statement (.wakeInstant a0) := of_none rfl
theorem logbookWrite a0 a1 a2 : Statement (.logbookWrite a0 a1 a2) := of_none rfl
theorem rtcSet a0 a1 a2 : Statement (.rtcSet a0 a1 a2) := of_host rfl id (by decide)
theorem rtcSetWake a0 a1 : Statement (.rtcSetWake a0 a1) := of_host rfl id (by decide)
theorem rtcBkpWrite a0 a1 a2 : Statement (.rtcBkpWrite a0 a1 a2) := of_host rfl (fun w => by simp only [wellFormed, Bool.and_eq_true] at w; exact w.1) (by decide)
theorem logRead a0 a1 a2 : Statement (.logRead a0 a1 a2) := of_host rfl id (by decide)
theorem logSetLimit a0 a1 a2 : Statement (.logSetLimit a0 a1 a2) := of_host rfl id (by decide)
theorem logClear a0 : Statement (.logClear a0) := of_host rfl id (by decide)
theorem rtcVbatLow a0 a1 : Statement (.rtcVbatLow a0 a1) := of_none rfl
theorem rtcOscStop a0 : Statement (.rtcOscStop a0) := of_none rfl
theorem moduleStop a0 : Statement (.moduleStop a0) := of_none rfl
theorem stepDriverRetry a0 a1 a2 : Statement (.stepDriverRetry a0 a1 a2) := of_none rfl
theorem temperatureRead a0 a1 a2 a3 a4 a5 a6 : Statement (.temperatureRead a0 a1 a2 a3 a4 a5 a6) := of_none rfl
theorem tpInEdge a0 a1 : Statement (.tpInEdge a0 a1) := of_none rfl
theorem supV24aLow a0 a1 : Statement (.supV24aLow a0 a1) := of_none rfl
theorem supV24bLow a0 a1 : Statement (.supV24bLow a0 a1) := of_none rfl
theorem supV24High a0 a1 a2 : Statement (.supV24High a0 a1 a2) := of_none rfl
theorem supReversed a0 a1 a2 : Statement (.supReversed a0 a1 a2) := of_none rfl
theorem supV24Restored a0 a1 a2 : Statement (.supV24Restored a0 a1 a2) := of_none rfl
theorem supFieldLost a0 : Statement (.supFieldLost a0) := of_none rfl
theorem supFieldRestored a0 : Statement (.supFieldRestored a0) := of_none rfl
theorem supDomainLost a0 a1 : Statement (.supDomainLost a0 a1) := of_none rfl
theorem supStepShort a0 a1 : Statement (.supStepShort a0 a1) := of_none rfl
theorem supStepOpen a0 a1 a2 : Statement (.supStepOpen a0 a1 a2) := of_none rfl
theorem supAxinRange a0 a1 : Statement (.supAxinRange a0 a1) := of_none rfl
theorem supEncRange a0 a1 : Statement (.supEncRange a0 a1) := of_none rfl
theorem supCanBus a0 a1 a2 : Statement (.supCanBus a0 a1 a2) := of_none rfl
theorem supTpFault a0 a1 a2 : Statement (.supTpFault a0 a1 a2) := of_none rfl
theorem delayReqTransmit a0 a1 a2 : Statement (.delayReqTransmit a0 a1 a2) := of_none rfl
theorem safetyOutputOvercurrent a0 a1 a2 : Statement (.safetyOutputOvercurrent a0 a1 a2) := of_none rfl
theorem axinRangeRestored a0 a1 : Statement (.axinRangeRestored a0 a1) := of_none rfl
theorem encoderLineRestored a0 a1 : Statement (.encoderLineRestored a0 a1) := of_none rfl
theorem logClearComplete a0 a1 a2 : Statement (.logClearComplete a0 a1 a2) := of_none rfl
theorem limitTableWritten a0 a1 a2 : Statement (.limitTableWritten a0 a1 a2) := of_none rfl
theorem paramsStageComplete a0 a1 a2 : Statement (.paramsStageComplete a0 a1 a2) := of_none rfl
theorem keyWriteComplete a0 a1 : Statement (.keyWriteComplete a0 a1) := of_none rfl

end Sys2Proof.Laws.WellFormed
end

