-- ==== Sys2Proof/Laws/Raise.lean ====
section
/-!
SUPPORT. What raising a fault does to each part of the state (00 R28): the landings, the event bits, the queues of the partitions, the alarms
and the accusations.
-/
namespace Sys2Proof.Machine

/-! ### Entries posted -/

theorem postEntry_waiting (p q : Nat) (e : EvEntry) (s : State) (p' q' : Nat) :
    (Tab.get {} ((postEntry p q e s).part p').eq q').waiting
      = if p' = p ∧ q' = q then (Tab.get {} (s.part p').eq q').waiting ++ [e] else (Tab.get {} (s.part p').eq q').waiting := by
  unfold postEntry State.modPart State.part
  simp only [Tab.get_upd]
  by_cases hp : p' = p
  · subst hp
    by_cases hq : q' = q
    · subst hq; simp
    · simp [Tab.get_upd, hq]
  · simp [hp]

theorem postEntry_cq (p q : Nat) (e : EvEntry) (s : State) (p' : Nat) : ((postEntry p q e s).part p').cq = (s.part p').cq := by
  unfold postEntry State.modPart State.part
  simp only [Tab.get_upd]
  split
  · rename_i h; subst h; rfl
  · rfl

theorem postEntry_sub (p q : Nat) (e : EvEntry) (s : State) (p' : Nat) :
    ((postEntry p q e s).part p').subMask = (s.part p').subMask ∧ ((postEntry p q e s).part p').subQ = (s.part p').subQ := by
  unfold postEntry State.modPart State.part
  simp only [Tab.get_upd]
  split
  · rename_i h; subst h; exact ⟨rfl, rfl⟩
  · exact ⟨rfl, rfl⟩

theorem postSubscribed_cq (u : Nat) (e : EvEntry) (n p : Nat) (s : State) (r : Nat) :
    ((postSubscribed u e n p s).part r).cq = (s.part r).cq := by
  induction n generalizing p s with
  | zero => rfl
  | succ n ih =>
    unfold postSubscribed; dsimp only
    rw [ih]
    split
    · exact postEntry_cq ..
    · rfl

/-- One entry more for each subscribed partition of a range, and no entry elsewhere. -/
theorem postSubscribed_waiting (u : Nat) (e : EvEntry) (n p : Nat) (s : State) (r q : Nat) :
    (Tab.get {} ((postSubscribed u e n p s).part r).eq q).waiting
      = if p ≤ r ∧ r < p + n ∧ bitOf (s.part r).subMask (u - 1) = true ∧ q = (s.part r).subQ then
          (Tab.get {} (s.part r).eq q).waiting ++ [e]
        else (Tab.get {} (s.part r).eq q).waiting := by
  induction n generalizing p s with
  | zero => rw [if_neg (by omega)]; rfl
  | succ n ih =>
    unfold postSubscribed; dsimp only
    rw [ih]
    by_cases hb : bitOf (s.part p).subMask (u - 1) = true
    · rw [if_pos hb]
      simp only [postEntry_sub, postEntry_waiting]
      by_cases hr : r = p
      · subst hr
        by_cases hq : q = (s.part r).subQ
        · rw [if_neg (by omega), if_pos ⟨rfl, hq⟩, if_pos ⟨by omega, by omega, hb, hq⟩]
        · rw [if_neg (by omega), if_neg (by simp [hq]), if_neg (by simp [hq])]
      · by_cases hc : p + 1 ≤ r ∧ r < p + 1 + n ∧ bitOf (s.part r).subMask (u - 1) = true ∧ q = (s.part r).subQ
        · rw [if_pos hc, if_neg (by simp [hr]), if_pos ⟨by omega, by omega, hc.2.2.1, hc.2.2.2⟩]
        · rw [if_neg hc, if_neg (by simp [hr]), if_neg]
          rintro ⟨h1, h2, h3⟩; exact hc ⟨by omega, by omega, h3⟩
    · rw [if_neg hb]
      by_cases hr : r = p
      · subst hr; rw [if_neg (by omega), if_neg (by simp [hb])]
      · by_cases hc : p + 1 ≤ r ∧ r < p + 1 + n ∧ bitOf (s.part r).subMask (u - 1) = true ∧ q = (s.part r).subQ
        · rw [if_pos hc, if_pos ⟨by omega, by omega, hc.2.2⟩]
        · rw [if_neg hc, if_neg]
          rintro ⟨h1, h2, h3⟩; exact hc ⟨by omega, by omega, h3⟩

/-! ### The parts of a raising -/

@[simp] theorem logPut_part (r : LogRec) (s : State) (p : Nat) : (logPut r s).part p = s.part p := by simp [State.part]
@[simp] theorem logPut_ld (r : LogRec) (s : State) (x : Side) : (logPut r s).ld x = s.ld x := by cases x <;> simp [State.ld]
@[simp] theorem setEvent_part (src : Source) (code : Nat) (s : State) (p : Nat) : (setEvent src code s).part p = s.part p := by
  simp [State.part]
@[simp] theorem setAlarm_part (src : Source) (code : Nat) (sev : Sev) (s : State) (p : Nat) :
    (setAlarm src code sev s).part p = s.part p := by unfold setAlarm; split <;> rfl
@[simp] theorem accuseFor_part (src : Source) (code : Nat) (sev : Sev) (s : State) (p : Nat) :
    (accuseFor src code sev s).part p = s.part p := by
  unfold accuseFor; split
  · simp [State.part]
  · rfl

/-- A landing after a raising: only its events and its accusations may differ. -/
theorem raise_ld (src : Source) (code detail : Nat) (s : State) (x : Side) :
    (raise src code detail s).ld x
      = { s.ld x with events := ((raise src code detail s).ld x).events, accused := ((raise src code detail s).ld x).accused } := by
  have h1 : ∀ s, (setEvent src code s).ld x = { s.ld x with events := ((setEvent src code s).ld x).events } := by
    intro s; unfold setEvent; (repeat' split)
    · rfl
    · rename_i y _; cases x <;> cases y <;> rfl
    · cases x <;> rfl
  have h2 : ∀ e n p s, (postSubscribed (unitOf code) e n p s).ld x = s.ld x := by intro e n p s; simp
  have h3 : ∀ sev s, (accuseFor src code sev s).ld x = { s.ld x with accused := ((accuseFor src code sev s).ld x).accused } := by
    intro sev s; unfold accuseFor; split
    · rename_i y _
      have h : ∀ c : Prop, ∀ [Decidable c], ∀ l : Landing, ∀ a b,
          (if c then { l with accused := a } else { l with accused := b }) = { l with accused := if c then a else b } := by
        intro c _ l a b; split <;> rfl
      have he : accuse y code sev s = s.modLd y (fun l => { l with accused := ((accuse y code sev s).ld y).accused }) := by
        cases y <;> simp only [accuse, h] <;> rfl
      by_cases hx : x = y
      · subst hx; conv_lhs => rw [he]
        simp
      · rw [he, modLd_ne _ _ _ _ hx]
    · rfl
  have h4 : ∀ sev s, (setAlarm src code sev s).ld x = s.ld x := by
    intro sev s; unfold setAlarm; split <;> cases x <;> rfl
  have h5 : ∀ sev s, (postEvent src code detail sev s).ld x = s.ld x := by
    intro sev s; unfold postEvent; split
    · exact h2 ..
    · rfl
  unfold raise raiseOwn
  split
  · rfl
  · unfold react
    conv_lhs => rw [h3, h4, h5, h1, logPut_ld]
    rw [h3, h4, h5]

@[simp] theorem raise_mem (src : Source) (code detail : Nat) (s : State) (x : Side) :
    ((raise src code detail s).ld x).mem = (s.ld x).mem := by rw [raise_ld]
@[simp] theorem raise_syn (src : Source) (code detail : Nat) (s : State) (x : Side) :
    ((raise src code detail s).ld x).syn = (s.ld x).syn := by rw [raise_ld]
@[simp] theorem raise_memi (src : Source) (code detail : Nat) (s : State) (x : Side) :
    ((raise src code detail s).ld x).memi = (s.ld x).memi := by rw [raise_ld]
@[simp] theorem raise_fmn (src : Source) (code detail : Nat) (s : State) (x : Side) :
    ((raise src code detail s).ld x).fmn = (s.ld x).fmn := by rw [raise_ld]
@[simp] theorem raise_tiles (src : Source) (code detail : Nat) (s : State) (x : Side) :
    ((raise src code detail s).ld x).tiles = (s.ld x).tiles := by rw [raise_ld]

/-- The cable die's own fault leaves both landings as they are. -/
theorem raise_cable_ld (code detail : Nat) (s : State) (x : Side) : (raise .cable code detail s).ld x = s.ld x := by
  have h1 : ∀ s, (setEvent .cable code s).ld x = s.ld x := by
    intro s; unfold setEvent; split
    · rfl
    · cases x <;> rfl
  have h2 : ∀ sev s, (setAlarm .cable code sev s).ld x = s.ld x := by intro sev s; unfold setAlarm; split <;> cases x <;> rfl
  unfold raise raiseOwn
  split
  · rfl
  · unfold react accuseFor postEvent
    simp only [h2]
    split <;> simp [h1]

@[simp] theorem raise_cq (src : Source) (code detail : Nat) (s : State) (p : Nat) :
    ((raise src code detail s).part p).cq = (s.part p).cq := by
  unfold raise raiseOwn
  split
  · rfl
  · unfold react postEvent
    simp only [accuseFor_part, setAlarm_part]
    split
    · rw [postSubscribed_cq]; simp
    · simp

/-- The bit is set in its mask. -/
theorem setBitIn_bit (t : Tab Nat) (u b : Nat) : bitOf (Tab.get 0 (setBitIn t u b) u) b = true := by
  unfold setBitIn
  simp only [Tab.get_set_self]
  split
  · assumption
  · rename_i h
    unfold bitOf at *
    rw [Nat.add_div_right _ (by positivity)]
    simp at h ⊢
    omega

theorem accuse_self (x : Side) (code : Nat) (sev : Sev) (s : State) : ∃ e ∈ ((accuse x code sev s).ld x).accused, e.1 = s.legCount := by
  unfold accuse
  simp only [modLd_ld]
  split
  · rename_i h
    obtain ⟨e, he, hl⟩ := List.any_eq_true.mp h
    simp only [decide_eq_true_eq] at hl
    exact ⟨_, List.mem_map.mpr ⟨e, he, rfl⟩, by simp [hl]⟩
  · exact ⟨(s.legCount, code, decide (sev = .halt)), by simp, rfl⟩

theorem legCount_told {t s : State} (h : Told t s) : t.legCount = s.legCount := by
  rw [h]; rfl

end Sys2Proof.Machine
end

