-- ==== Sys2Proof/Laws/Roles.lean ====
section
/-!
SUPPORT. What the operations do that change the landings' roles, the changes of role that wait, the vessel's mode or the mode
records that wait: each keeps `State.rolesFit` and `State.modeFit` (Safety.lean) and the queue of commands.
-/
namespace Sys2Proof.Machine

/-- what a change of the roles leaves -/
@[simp] abbrev SameM (t s : State) : Prop := t.pending = s.pending ∧ t.mode = s.mode ∧ t.dkh.modeReqs = s.dkh.modeReqs
@[simp] abbrev SameR (t s : State) : Prop := t.pending = s.pending ∧ t.roleA = s.roleA ∧ t.roleB = s.roleB ∧ t.arb.due = s.arb.due
theorem rolesFit_of {t s : State} (e : Same t s) (h : s.rolesFit) : t.rolesFit := by
  unfold State.rolesFit at *; simp_all
@[simp] theorem setRole_same (s : State) (x : Side) (r : Role) : SameM (s.setRole x r) s ∧ (s.setRole x r).arb = s.arb := by
  cases x <;> simp [State.setRole]
theorem setRole_fit (s : State) (x : Side) (r : Role) (hr : r ≠ .active) (h : s.rolesFit) : (s.setRole x r).rolesFit := by
  cases x <;> simp_all [State.setRole, State.rolesFit]
theorem setRole_both (s : State) (x : Side) (r : Role) (hr : r ≠ .active) (h : s.rolesFit) :
    ((s.setRole x r).setRole x.other .active).rolesFit ∧ ((s.setRole x.other .active).setRole x r).rolesFit
      ∧ ((s.setRole x .active).setRole x.other r).rolesFit := by
  cases x <;> simp_all [State.setRole, State.rolesFit, Side.other]
@[simp] theorem foldRoles_same (l : List RoleDue) (s : State) :
    SameM (l.foldl (fun s d => s.setRole d.side d.role) s) s ∧ (l.foldl (fun s d => s.setRole d.side d.role) s).arb = s.arb := by
  induction l generalizing s with
  | nil => simp
  | cons d t ih => simp [ih]
theorem foldRoles_fit (l : List RoleDue) (s : State) (hl : ∀ d ∈ l, d.role ≠ .active) (h : s.rolesFit) :
    (l.foldl (fun s d => s.setRole d.side d.role) s).rolesFit := by
  induction l generalizing s with
  | nil => simpa
  | cons d t ih =>
    simp only [List.foldl_cons]
    exact ih _ (fun e he => hl e (by simp [he])) (setRole_fit _ _ _ (hl d (by simp)) h)
@[simp] theorem applyDue_same (s : State) : SameM (applyDue s) s := by
  unfold applyDue; dsimp only; split <;> simp
theorem applyDue_fit (s : State) (h : s.rolesFit) : (applyDue s).rolesFit := by
  unfold applyDue; dsimp only
  split
  · exact h
  · refine foldRoles_fit _ _ (fun d hd => h.2 d ((List.mem_filter.mp hd).1)) ?_
    simp only [State.rolesFit, modArb_roles] at h ⊢
    exact ⟨h.1, fun d hd => h.2 d ((List.mem_filter.mp hd).1)⟩
@[simp] theorem dueRole_same (x : Side) (r : Role) (s : State) :
    SameM (dueRole x r s) s ∧ (dueRole x r s).roleA = s.roleA ∧ (dueRole x r s).roleB = s.roleB := by simp [dueRole]
theorem dueRole_due (x : Side) (r : Role) (s : State) :
    (dueRole x r s).arb.due = s.arb.due ++ [{ side := x, role := r, leg := s.legCount + 1 }] := by simp [dueRole]
@[simp] theorem keepAgreed_due (r : Report) (b : Arbiter) : (keepAgreed r b).due = b.due := by simp [keepAgreed]
@[simp] theorem setSince_due (x : Side) (n : Nat) (b : Arbiter) : (setSince x n b).due = b.due := by cases x <;> rfl
@[simp] theorem countAgree_due (n : Nat) (b : Arbiter) : (countAgree n b).due = b.due := by
  unfold countAgree; dsimp only; (repeat' split) <;> rfl
theorem ite_fit (c : Prop) [Decidable c] {a b : State} (ha : a.rolesFit) (hb : b.rolesFit) : (if c then a else b).rolesFit := by
  split
  · exact ha
  · exact hb
theorem optComplete_fit (c : Option Pend) (st : Status) (d : List Byte) (p : Bool) (s : State) (h : s.rolesFit) :
    (match c with
      | some c => complete c st d p s
      | none => s).rolesFit := by
  cases c
  · exact h
  · exact rolesFit_of (complete_same _ _ _ _ _) h
theorem raise_fit (src : Source) (code detail : Nat) (s : State) (h : s.rolesFit) : (raise src code detail s).rolesFit :=
  rolesFit_of (raise_same src code detail s) h
theorem dueRole_fit (x : Side) (r : Role) (s : State) (hr : r ≠ .active) (h : s.rolesFit) : (dueRole x r s).rolesFit := by
  simp only [State.rolesFit, dueRole, modArb_roles] at h ⊢
  refine ⟨h.1, fun d hd => ?_⟩
  simp at hd
  rcases hd with hd | rfl
  · exact h.2 d hd
  · exact hr

@[simp] theorem legReport_same (x : Side) (s : State) : SameM (legReport x s) s := by
  unfold legReport; dsimp only; repeat' split
  all_goals simp
theorem legReport_fit (x : Side) (s : State) (h : s.rolesFit) : (legReport x s).rolesFit := by
  have ha := applyDue_fit s h
  unfold legReport; dsimp only; repeat' split
  all_goals first | exact ha | exact rolesFit_of (by simp) ha
@[simp] theorem forceChange_same (x : Side) (c : Change) (s : State) :
    SameM (forceChange x c s) s ∧ (forceChange x c s).roleA = s.roleA ∧ (forceChange x c s).roleB = s.roleB := by
  unfold forceChange; dsimp only; split <;> simp
theorem forceChange_fit (x : Side) (c : Change) (s : State) (h : s.rolesFit) : (forceChange x c s).rolesFit := by
  unfold forceChange; dsimp only; split
  · exact rolesFit_of (by simp) h
  · simp_all only [State.rolesFit]
    simp only [adriftNow_same, dueRole_due, dueRole_same, modArb_roles, raise_same, List.mem_append, List.mem_singleton]
    exact ⟨h.1, fun d hd => hd.elim (h.2 d) (fun e => by simp [e])⟩
@[simp] theorem failActive_same (x : Side) (s : State) :
    SameM (failActive x s) s ∧ (failActive x s).roleA = s.roleA ∧ (failActive x s).roleB = s.roleB := by
  unfold failActive; repeat' split
  all_goals simp
theorem failActive_fit (x : Side) (s : State) (h : s.rolesFit) : (failActive x s).rolesFit := by
  unfold failActive; repeat' split
  · exact forceChange_fit _ _ _ h
  · exact rolesFit_of (by simp) h
  · exact rolesFit_of (by simp) h
@[simp] theorem failStandby_same (y : Side) (s : State) :
    SameM (failStandby y s) s ∧ (failStandby y s).roleA = s.roleA ∧ (failStandby y s).roleB = s.roleB := by simp [failStandby]
theorem failStandby_fit (y : Side) (s : State) (h : s.rolesFit) : (failStandby y s).rolesFit :=
  dueRole_fit y .unsync _ (by simp) (rolesFit_of (by simp) h)
theorem noLanding_fit (s : State) (h : s.rolesFit) : (noLanding s).rolesFit := by
  have h1 : (abandonResync (abandonChange s)).rolesFit := rolesFit_of (by simp) h
  unfold noLanding eachSide; dsimp only
  refine rolesFit_of (s := if s.inStep .B then dueRole .B .unsync (if s.inStep .A then dueRole .A .unsync (abandonResync (abandonChange s))
    else abandonResync (abandonChange s)) else (if s.inStep .A then dueRole .A .unsync (abandonResync (abandonChange s))
    else abandonResync (abandonChange s))) (by simp) ?_
  repeat' split
  all_goals first | exact h1 | exact dueRole_fit _ _ _ (by simp) h1 | exact dueRole_fit _ _ _ (by simp) (dueRole_fit _ _ _ (by simp) h1)
@[simp] theorem noLanding_same (s : State) : SameM (noLanding s) s := by
  unfold noLanding eachSide; dsimp only; repeat' split
  all_goals simp
@[simp] theorem judgeSilent_same (x : Side) (g : Nat) (a b : Bool) (s : State) : SameM (judgeSilent x g a b s) s := by
  unfold judgeSilent; dsimp only; repeat' split
  all_goals simp
theorem judgeSilent_fit (x : Side) (g : Nat) (a b : Bool) (s : State) (h : s.rolesFit) : (judgeSilent x g a b s).rolesFit := by
  unfold judgeSilent; extract_lets y mask s1 s2 s3
  have h3 : s3.rolesFit := by
    refine rolesFit_of ?_ h
    simp only [s3, s2, s1]; repeat' split
    all_goals simp
  split
  · exact noLanding_fit _ h3
  · split
    · exact failActive_fit _ _ h3
    · exact rolesFit_of (judgeLone_same _ _ _) (failStandby_fit _ _ h3)
@[simp] theorem judgeBoth_same (x : Side) (g : Nat) (d : Option Bool) (s : State) : SameM (judgeBoth x g d s) s := by
  unfold judgeBoth
  extract_lets ra rb cmp same outA outB both j s1 s2 s3 failed s4 s5
  have h1 : Same s1 s := by simp only [s1]; split <;> simp
  have h2 : Same s2 s1 := by simp only [s2]; split <;> simp
  have h3 : Same s3 s2 := by simp only [s3]; split <;> simp
  have h4 : Same s4 s3 := by simp only [s4]; split <;> simp
  have h5 : Same s5 s4 := by simp only [s5]; split <;> simp
  clear_value s1 s2 s3 s4 s5 failed j
  split
  · split <;> simp_all
  · split <;> simp_all
  · extract_lets
    split <;> simp_all
  · simp_all
  · simp_all
theorem judgeBoth_fit (x : Side) (g : Nat) (d : Option Bool) (s : State) (h : s.rolesFit) : (judgeBoth x g d s).rolesFit := by
  unfold judgeBoth
  extract_lets ra rb cmp same outA outB both j s1 s2 s3 failed s4 s5
  have h1 : s1.rolesFit := rolesFit_of (by simp only [s1]; split <;> simp) h
  have h2 : s2.rolesFit := rolesFit_of (by simp only [s2]; split <;> simp) h1
  have h3 : s3.rolesFit := rolesFit_of (by simp only [s3]; split <;> simp) h2
  have h4 : s4.rolesFit := rolesFit_of (by simp only [s4]; split <;> simp) h3
  have h5 : s5.rolesFit := rolesFit_of (by simp only [s5]; split <;> simp) h4
  clear_value s1 s2 s3 s4 s5 failed j
  split
  · split
    · exact rolesFit_of (by simp) h4
    · exact h4
  · split
    · exact rolesFit_of (by simp) h4
    · exact failStandby_fit _ _ (rolesFit_of (by simp) h4)
  · extract_lets code
    split
    · exact failActive_fit _ _ (raise_fit _ _ _ _ h4)
    · exact failStandby_fit _ _ (raise_fit _ _ _ _ h4)
  · exact rolesFit_of (by simp) h4
  · exact failStandby_fit _ _ h5
theorem foldRaise_same (l : List Side) (code : Nat) (s : State) : Same (l.foldl (fun s y => raise .cable code y.num s) s) s :=
  foldl_same _ _ _ (fun s y => by simp)
@[simp] theorem judgeRest_same (g : Nat) (s : State) : SameM (judgeRest g s) s := by
  unfold judgeRest; dsimp only
  split
  · simp
  · have h := foldRaise_same ([Side.A, .B].filter (fun y => s.inStep y && decide (s.since y ≤ g) && (s.report y g).isNone)) 0x0D08
      (noteVerdict g 0 ((([Side.A, .B].filter (fun y => s.inStep y && decide (s.since y ≤ g) && (s.report y g).isNone)).map failNum).foldl
        (· + ·) 0) false false s)
    simp_all
theorem judgeRest_fit (g : Nat) (s : State) (h : s.rolesFit) : (judgeRest g s).rolesFit := by
  unfold judgeRest; dsimp only
  split
  · exact h
  · exact noLanding_fit _ (rolesFit_of (foldRaise_same _ _ _) (rolesFit_of (by simp) h))
@[simp] theorem legVerdict_same (d : Option Bool) (s : State) : SameM (legVerdict d s) s := by
  unfold legVerdict; dsimp only; repeat' split
  all_goals simp
theorem legVerdict_fit (d : Option Bool) (s : State) (h : s.rolesFit) : (legVerdict d s).rolesFit := by
  have ha := applyDue_fit s h
  unfold legVerdict; dsimp only
  split
  · exact ha
  · have hm : ((applyDue s).modArb fun b => { b with judged := (applyDue s).legCount - 1 + 1 }).rolesFit := by
      simpa only [State.rolesFit, modArb_roles] using ha
    generalize (applyDue s).legCount - 1 = g at hm ⊢
    generalize ((applyDue s).modArb fun b => { b with judged := g + 1 }) = u at hm ⊢
    split
    · exact rolesFit_of (by simp) (judgeRest_fit g u hm)
    · have hn : (noteDiffer g d u).rolesFit := rolesFit_of (noteDiffer_same _ _ _) hm
      have hd : ∀ x t, State.rolesFit t → (dropItems (releaseHeld x (setReport .A none (setReport .B none t)))).rolesFit :=
        fun x t h => rolesFit_of (by simp) h
      exact hd _ _ (ite_fit _ (judgeSilent_fit _ _ _ _ _ hn)
        (ite_fit _ (judgeBoth_fit _ _ _ _ hm) (rolesFit_of (judgeLone_same _ _ _) hn)))
@[simp] theorem takeover_same (s : State) : SameM (takeover s) s := by
  unfold takeover; dsimp only; repeat' split
  all_goals simp
theorem takeover_fit (s : State) (h : s.rolesFit) : (takeover s).rolesFit := by
  unfold takeover
  split
  · exact h
  · rename_i x leg _
    extract_lets s1 s2 s3 s4
    have h1 : s1.rolesFit := ite_fit _ (rolesFit_of (advance_same _ _) h) h
    have h2 : s2.rolesFit := rolesFit_of (by simp [s2]) h1
    split
    · exact noLanding_fit _ (rolesFit_of (by simp) h2)
    · exact rolesFit_of (by simp [s4, s3]) (setRole_both s2 x .unsync (by simp) h2).1
@[simp] theorem failoverTakeover_same (s : State) : SameM (failoverTakeover s) s := by
  unfold failoverTakeover; repeat' split
  all_goals simp
theorem failoverTakeover_fit (s : State) (h : s.rolesFit) : (failoverTakeover s).rolesFit := by
  have ht := takeover_fit s h
  unfold failoverTakeover; repeat' split
  all_goals first | exact ht | exact rolesFit_of (by simp) ht
@[simp] theorem failback_same (s : State) : SameM (failback s) s := by
  unfold failback; dsimp only; repeat' split
  all_goals simp
theorem failback_fit (s : State) (h : s.rolesFit) : (failback s).rolesFit := by
  have ha := applyDue_fit s h
  unfold failback; dsimp only
  split
  · exact ha
  · have h1 := (setRole_both (runAxes .B (runAxes .A (applyDue s))) (applyDue s).arb.preferred .standby (by simp)
      (rolesFit_of (by simp) ha)).2.2
    exact rolesFit_of (by simp) h1
@[simp] theorem resyncDone_same (s : State) : SameM (resyncDone s) s := by
  unfold resyncDone; dsimp only; repeat' split
  all_goals simp
theorem resyncDone_fit (s : State) (h : s.rolesFit) : (resyncDone s).rolesFit := by
  unfold resyncDone; dsimp only
  split
  · exact h
  · rename_i r _
    split
    · exact h
    · have h1 := setRole_fit (endMarking (s.modLd r.side (fun l => { l with fmn := joinFerryman l.fmn (s.ld r.side.other).fmn, items := [], accused := [], slw := { l.slw with joins := false } }))) r.side .standby
        (by simp) (rolesFit_of (by simp) h)
      split <;> exact rolesFit_of (by simp) h1
@[simp] theorem manifestHandover_same (s : State) : SameM (manifestHandover s) s := by
  unfold manifestHandover; dsimp only; repeat' split
  all_goals simp
theorem manifestHandover_fit (s : State) (h : s.rolesFit) : (manifestHandover s).rolesFit := by
  have ha := applyDue_fit s h
  unfold manifestHandover; dsimp only
  split
  · exact ha
  · rename_i c _
    split
    · exact ha
    · have h0 : (runAxes .B (runAxes .A (applyDue s))).rolesFit := rolesFit_of (by simp) ha
      generalize runAxes .B (runAxes .A (applyDue s)) = u at h0 ⊢
      have h1 : (if (u.setRole c.side .active).role c.side.other = .active then (u.setRole c.side .active).setRole c.side.other .unsync
          else u.setRole c.side .active).rolesFit := by
        rcases c with ⟨_, _, _, _, _, _, sd, _⟩
        cases sd <;> split <;> simp_all [State.rolesFit, State.setRole, State.role, Side.other]
      exact rolesFit_of (by simp) h1
@[simp] theorem outOfService_same (y : Side) (s : State) : SameM (outOfService y s) s := by simp [outOfService]
theorem outOfService_fit (y : Side) (s : State) (h : s.rolesFit) : (outOfService y s).rolesFit := by
  unfold outOfService; dsimp only
  have h1 := setRole_fit ((leaveService y s).modLd y (fun l => { l with slw := { l.slw with joins := false } })) y .outOfService (by simp)
    (rolesFit_of (by simp) h)
  exact rolesFit_of (by simp) h1
@[simp] theorem closeSlw_same (y : Side) (s : State) :
    SameM (closeSlw y s) s ∧ (closeSlw y s).roleA = s.roleA ∧ (closeSlw y s).roleB = s.roleB := by
  unfold closeSlw; dsimp only; repeat' split
  all_goals simp
theorem closeSlw_fit (y : Side) (s : State) (h : s.rolesFit) : (closeSlw y s).rolesFit := by
  unfold closeSlw; dsimp only; repeat' split
  · exact h
  · exact rolesFit_of (by simp) h
  · exact dueRole_fit _ _ _ (by simp) (rolesFit_of (dropLoad_same _ _) h)
  · exact rolesFit_of (by simp) h
@[simp] theorem finishSlw_same (s : State) :
    SameM (finishSlw s) s ∧ (finishSlw s).roleA = s.roleA ∧ (finishSlw s).roleB = s.roleB := by
  unfold finishSlw; dsimp only; repeat' split
  all_goals simp
theorem finishSlw_fit (s : State) (h : s.rolesFit) : (finishSlw s).rolesFit := by
  have hc : (closeSlw .B (closeSlw .A (abandonResync s))).rolesFit := closeSlw_fit _ _ (closeSlw_fit _ _ (rolesFit_of (by simp) h))
  have hs : (keepSlw .B (keepSlw .A s)).rolesFit := rolesFit_of (by simp) h
  unfold finishSlw; dsimp only; split
  · exact optComplete_fit _ _ _ _ _ hc
  · exact optComplete_fit _ _ _ _ _ hs
  · exact optComplete_fit _ _ _ _ _ hs
@[simp] theorem verificationEnd_same (x : Side) (bank received : Nat) (ok : Bool) (s : State) :
    SameM (verificationEnd x bank received ok s) s := by
  unfold verificationEnd
  split
  · simp
  · split
    · simp
    · extract_lets img r s1 hold now s2
      have h1 : Same s1 s := loadVerdict_same _ _ _ _ _
      have hn : ∀ t, Same (now t) t := by intro t; simp only [now]; split <;> simp
      have hh : ∀ t, Same (hold t) t := fun t => by simp [hold]
      clear_value hold now s1
      have h2 : Same s2 s1 := by simp only [s2]; have := hn s1; simp_all
      clear_value s2
      split <;> (try dsimp only) <;> (repeat' split) <;> simp_all
theorem verificationEnd_fit (x : Side) (bank received : Nat) (ok : Bool) (s : State) (h : s.rolesFit) :
    (verificationEnd x bank received ok s).rolesFit := by
  unfold verificationEnd
  split
  · exact h
  · split
    · exact h
    · extract_lets img r s1 hold now s2
      have h1 : s1.rolesFit := rolesFit_of (loadVerdict_same _ _ _ _ _) h
      have hn : ∀ t, State.rolesFit t → (now t).rolesFit := by
        intro t ht; refine rolesFit_of ?_ ht; simp only [now]; split <;> simp
      have hh : ∀ t, State.rolesFit t → (hold t).rolesFit := fun t ht => rolesFit_of (by simp [hold]) ht
      have h2 : s2.rolesFit := rolesFit_of (dropLoad_same _ _) (hn _ h1)
      clear_value hold now s1 s2
      split
      · have fin : ∀ t, State.rolesFit t → (if slwKnown t then finishSlw t else t).rolesFit :=
          fun t ht => ite_fit _ (finishSlw_fit _ ht) ht
        exact fin _ (rolesFit_of (s := if r.1.isNone then hold s1 else s1) (by simp) (ite_fit _ (hh _ h1) h1))
      · exact optComplete_fit _ _ _ _ _ (rolesFit_of (dropLoad_same _ _) (ite_fit _ (hn _ h1) h1))
      · exact ite_fit _ (rolesFit_of (by simp) h1) (rolesFit_of (by simp) (hh _ h1))
      · exact rolesFit_of (by simp) h1
      · exact ite_fit _ (rolesFit_of (by simp) h2) h2
      · exact rolesFit_of (by simp) h1
theorem complete_fit (c : Pend) (st : Status) (d : List Byte) (p : Bool) (s : State) (h : s.rolesFit) : (complete c st d p s).rolesFit :=
  rolesFit_of (complete_same c st d p s) h
@[simp] theorem abandonWork_same (x : Side) (s : State) : SameM (abandonWork x s) s ∧ (abandonWork x s).roleA = s.roleA
    ∧ (abandonWork x s).roleB = s.roleB := by
  unfold abandonWork; dsimp only; repeat' split
  all_goals simp
theorem abandonWork_fit (x : Side) (s : State) (h : s.rolesFit) : (abandonWork x s).rolesFit := by
  have h1 : (if s.arb.resync.elim false (fun r => r.side = x) then abandonResync s else s).rolesFit :=
    ite_fit _ (rolesFit_of (abandonResync_same s) h) h
  unfold abandonWork
  dsimp only
  generalize (if s.arb.resync.elim false (fun r => r.side = x) then abandonResync s else s) = s1 at h1
  have hd : (dropLoad x s1).rolesFit := rolesFit_of (dropLoad_same _ _) h1
  refine optComplete_fit _ _ _ _ _ (optComplete_fit _ _ _ _ _ (rolesFit_of (modLd_same _ _ _) ?_))
  split
  · refine ite_fit _ (ite_fit _ (optComplete_fit _ _ _ _ _ hd) (ite_fit _ (finishSlw_fit _ hd) hd))
      (ite_fit _ (rolesFit_of (abandonChange_same _) hd) (optComplete_fit _ _ _ _ _ hd))
  · exact h1
@[simp] theorem quarantine_same (x : Side) (s : State) : SameM (quarantine x s) s ∧ (quarantine x s).roleA = s.roleA
    ∧ (quarantine x s).roleB = s.roleB := by
  unfold quarantine; dsimp only; split <;> simp
theorem quarantine_fit (x : Side) (s : State) (h : s.rolesFit) : (quarantine x s).rolesFit := by
  unfold quarantine; dsimp only
  exact optComplete_fit _ _ _ _ _ (dueRole_fit _ _ _ (by simp) (rolesFit_of (modLd_same _ _ _)
    (raise_fit _ _ _ _ (rolesFit_of (putRec_same _ _ _ _) h))))
@[simp] theorem failStart_same (x : Side) (code stage : Nat) (s : State) : SameM (failStart x code stage s) s
    ∧ (failStart x code stage s).roleA = s.roleA ∧ (failStart x code stage s).roleB = s.roleB := by
  unfold failStart; dsimp only; split <;> simp
theorem failStart_fit (x : Side) (code stage : Nat) (s : State) (h : s.rolesFit) : (failStart x code stage s).rolesFit := by
  unfold failStart; dsimp only; split
  · exact quarantine_fit _ _ (rolesFit_of (putRec_same _ _ _ _) h)
  · exact rolesFit_of (by simp) h
@[simp] theorem launchLanding_same (x : Side) (s : State) : SameM (launchLanding x s) s := by
  unfold launchLanding; split <;> simp
theorem launchLanding_fit (x : Side) (s : State) (h : s.rolesFit) : (launchLanding x s).rolesFit := by
  unfold launchLanding; split
  · exact rolesFit_of (modSlw_same _ _ _) (setRole_fit _ _ _ (by simp) h)
  · exact rolesFit_of (by simp) h
@[simp] theorem powerStart_same (t : Nat) (p : PowerOn) (s : State) : SameM (powerStart t p s) s := by
  unfold powerStart; dsimp only; repeat' split
  all_goals simp
theorem powerStart_fit (t : Nat) (p : PowerOn) (s : State) (h : s.rolesFit) : (powerStart t p s).rolesFit := by
  unfold powerStart; dsimp only
  split
  · exact rolesFit_of (by simp) h
  · exact launchLanding_fit _ _ (launchLanding_fit _ _ (rolesFit_of (s := s) (by simp) h))
@[simp] theorem failBefore11_same (x : Side) (code d stage : Nat) (s : State) : SameM (failBefore11 x code d stage s) s := by
  unfold failBefore11; simp
theorem failBefore11_fit (x : Side) (code d stage : Nat) (s : State) (h : s.rolesFit) : (failBefore11 x code d stage s).rolesFit :=
  failStart_fit x code stage _ (raise_fit (.landing x) code d s h)
@[simp] theorem deckhandHalt_same (x : Side) (code : Nat) (s : State) : SameM (deckhandHalt x code s) s := by
  unfold deckhandHalt; dsimp only; repeat' split
  all_goals simp
theorem deckhandHalt_fit (x : Side) (code : Nat) (s : State) (h : s.rolesFit) : (deckhandHalt x code s).rolesFit := by
  unfold deckhandHalt; dsimp only; repeat' split
  all_goals first | exact failBefore11_fit _ _ _ _ _ h | exact h | exact rolesFit_of (by simp) h
@[simp] theorem restartLanding_same (x : Side) (c : Pend) (s : State) : SameM (restartLanding x c s) s := by
  unfold restartLanding; simp
theorem restartLanding_fit (x : Side) (c : Pend) (s : State) (h : s.rolesFit) : (restartLanding x c s).rolesFit :=
  rolesFit_of (t := restartLanding x c s) (s := abandonWork x s) (by unfold restartLanding; simp) (abandonWork_fit x s h)
@[simp] theorem stopLanding_same (x : Side) (s : State) : SameM (stopLanding x s) s := by unfold stopLanding; simp
theorem stopLanding_fit (x : Side) (s : State) (h : s.rolesFit) : (stopLanding x s).rolesFit :=
  rolesFit_of (modLd_same _ _ _) (abandonWork_fit x (settlePins s) (rolesFit_of (settlePins_same s) h))
@[simp] theorem domainOff_same (d : Nat) (s : State) : SameM (domainOff d s) s := by
  unfold domainOff; repeat' split
  all_goals simp
theorem domainOff_fit (d : Nat) (s : State) (h : s.rolesFit) : (domainOff d s).rolesFit := by
  unfold domainOff; split
  · exact ite_fit _ (rolesFit_of (modSup_same _ _) (stopLanding_fit _ _ h)) h
  · exact ite_fit _ (rolesFit_of (modSup_same _ _) (stopLanding_fit _ _ h)) h
  · exact rolesFit_of (bankWithdraw_same _ _) (rolesFit_of (modSup_same _ _) h)
  · exact rolesFit_of (bankWithdraw_same _ _) (rolesFit_of (modSup_same _ _) h)
  · exact ite_fit _ (rolesFit_of (fieldOff_same _ _) h) h
@[simp] theorem tempLimit_same (x : Side) (t : Int) (s : State) : SameM (tempLimit x t s) s := by
  unfold tempLimit; split <;> simp
theorem tempLimit_fit (x : Side) (t : Int) (s : State) (h : s.rolesFit) : (tempLimit x t s).rolesFit := by
  unfold tempLimit; split
  · exact rolesFit_of (modSlw_same _ _ _) (stopLanding_fit _ _ (raise_fit _ _ _ _ h))
  · exact h
@[simp] theorem stopped_pending (s : State) : (stopped s).pending = s.pending := rfl
theorem stopped_fit (s : State) : (stopped s).rolesFit ∧ (stopped s).modeFit := by
  simp [stopped, State.reset, State.rolesFit, State.modeFit]
@[simp] theorem readTemps_pending (a b c d : Byte) (u v : Word) (s : State) : (readTemps a b c d u v s).pending = s.pending := by
  unfold readTemps; dsimp only; split <;> simp
theorem readTemps_fit (a b c d : Byte) (u v : Word) (s : State) (h : s.rolesFit) : (readTemps a b c d u v s).rolesFit := by
  unfold readTemps; extract_lets s1 s2 s3
  have h3 : s3.rolesFit := tempLimit_fit _ _ _ (tempLimit_fit _ _ _ (rolesFit_of (by simp [s2, s1]) h))
  split
  · exact (stopped_fit _).1
  · exact h3

@[simp] abbrev RQ (t s : State) : Prop := t.pending = s.pending ∧ t.roleA = s.roleA ∧ t.roleB = s.roleB ∧ t.arb.due = s.arb.due
theorem rolesFit_rq {t s : State} (e : RQ t s) (h : s.rolesFit) : t.rolesFit := by
  unfold State.rolesFit at *; simp_all
theorem modeFit_of {t s : State} (em : t.mode = s.mode) (er : t.dkh.modeReqs = s.dkh.modeReqs) (h : s.modeFit) : t.modeFit := by
  unfold State.modeFit at *; simp_all
theorem same_modeFit {t s : State} (e : Same t s) (h : s.modeFit) : t.modeFit := modeFit_of e.2.2.2.2.1 e.2.2.2.2.2 h
@[simp] theorem requestMode_rq (r : ModeReq) (s : State) : RQ (requestMode r s) s ∧ (requestMode r s).mode = s.mode := by
  simp [requestMode]
theorem requestMode_reqs (r : ModeReq) (s : State) : (requestMode r s).dkh.modeReqs = s.dkh.modeReqs ++ [r] := by
  simp [requestMode]
theorem requestMode_fit (r : ModeReq) (s : State) (hr : r.mode ≤ 5) (h : s.modeFit) : (requestMode r s).modeFit := by
  simp only [State.modeFit, requestMode_reqs, requestMode_rq, List.mem_append, List.mem_singleton] at h ⊢
  exact ⟨h.1, fun q hq => hq.elim (h.2 q) (fun e => e ▸ hr)⟩
@[simp] theorem changeMode_rq (m c p : Nat) (s : State) : RQ (changeMode m c p s) s ∧ (changeMode m c p s).mode = m
    ∧ (changeMode m c p s).dkh.modeReqs = s.dkh.modeReqs := by
  unfold changeMode; dsimp only; repeat' split
  all_goals simp
theorem changeMode_fit (m c p : Nat) (s : State) (hm : m ≤ 5) (h : s.modeFit) : (changeMode m c p s).modeFit := by
  simp only [State.modeFit, changeMode_rq] at h ⊢
  exact ⟨hm, h.2⟩
@[simp] theorem applyModes_rq (l : List AdmEntry) (s : State) : RQ (applyModes l s) s := by
  induction l generalizing s with
  | nil => simp [applyModes]
  | cons e t ih =>
    unfold applyModes
    split
    · exact ih s
    · dsimp only
      split <;> simp [ih]
theorem applyModes_fit (l : List AdmEntry) (s : State) (h : s.modeFit) : (applyModes l s).modeFit := by
  induction l generalizing s with
  | nil => simpa [applyModes]
  | cons e t ih =>
    unfold applyModes
    split
    · exact ih s h
    · rename_i r hr
      have hm : r.mode ≤ 5 := by
        split at hr
        · exact h.2 r (List.mem_of_find?_eq_some hr)
        · simp at hr
      have h1 : ({ s with dkh := { s.dkh with modeReqs := s.dkh.modeReqs.erase r } } : State).modeFit :=
        ⟨h.1, fun q hq => h.2 q (List.mem_of_mem_erase hq)⟩
      have h2 := changeMode_fit r.mode r.cause r.part _ hm h1
      apply ih
      split
      · exact modeFit_of (by simp) (by simp) h2
      · exact h2
@[simp] theorem setMode_rq (h : CmdHdr) (m f g : Nat) (n e hd : DWord) (s : State) : RQ (setMode h m f g n e hd s) s := by
  unfold setMode; dsimp only; repeat' split
  all_goals simp
theorem setMode_fit (h : CmdHdr) (m f g : Nat) (n e hd : DWord) (s : State) (hs : s.modeFit) : (setMode h m f g n e hd s).modeFit := by
  have ha : (advance h.at_ s).modeFit := modeFit_of (by simp) (by simp) hs
  unfold setMode; dsimp only
  split
  · exact modeFit_of (by repeat' split; all_goals simp) (by repeat' split; all_goals simp) hs
  · rename_i hc
    refine requestMode_fit _ _ ?_ (modeFit_of (by simp) (by simp) ha)
    have : (setModeAsks m f g hd (advance h.at_ s)).range = true := by
      unfold checkCommand at hc
      split at hc <;> first | (simp at hc; done) | skip
      split at hc <;> first | (simp at hc; done) | skip
      split at hc <;> first | (simp at hc; done) | skip
      split at hc <;> first | (simp at hc; done) | skip
      split at hc <;> first | (simp at hc; done) | skip
      simp_all
    simp [setModeAsks] at this
    simp [setModeReq]
    omega
theorem eachRaise_fit (c : Side → Bool) (code d : Nat) (s : State) (h : s.modeFit) :
    (eachSide c (fun x s => raise (.landing x) code d s) s).modeFit := modeFit_of (by simp) (by simp) h
@[simp] theorem fusionReact_rq (l : Nat) (s : State) : RQ (fusionReact l s) s ∧ (fusionReact l s).mode = s.mode := by
  unfold fusionReact; dsimp only; repeat' split
  all_goals simp
theorem ite_mode_fit (c : Prop) [Decidable c] {a b : State} (ha : a.modeFit) (hb : b.modeFit) : (if c then a else b).modeFit := by
  split
  · exact ha
  · exact hb
theorem fusionReact_fit (l : Nat) (s : State) (h : s.modeFit) : (fusionReact l s).modeFit := by
  have h0 : ({ s with dkh := { s.dkh with fusion := l } } : State).modeFit := h
  have hd : ∀ (c d : Nat) (b : List Byte) (t : State), t.modeFit →
      (requestMode { mode := 3, cause := 2, bytes := b } (eachSide t.tells (fun x s => raise (.landing x) c d s) t)).modeFit :=
    fun c d b t ht => requestMode_fit _ _ (by simp) (eachRaise_fit _ _ _ _ ht)
  unfold fusionReact; dsimp only
  refine ite_mode_fit _ h (ite_mode_fit _ (ite_mode_fit _ (hd _ _ _ _ h0) h0) (ite_mode_fit _ ?_ (ite_mode_fit _ ?_ h0)))
  · have h1 : ∀ c : Prop, ∀ [Decidable c], ∀ t, State.modeFit t → (if c then eachSide t.tells (fun x s => raise (.landing x) 0x1303 l s) t else t).modeFit :=
      fun c _ t ht => ite_mode_fit _ (eachRaise_fit _ _ _ _ ht) ht
    split
    · exact ite_mode_fit _ (eachRaise_fit _ _ _ _ (hd _ _ _ _ h0)) (hd _ _ _ _ h0)
    · exact ite_mode_fit _ (eachRaise_fit _ _ _ _ h0) h0
  · exact modeFit_of (adriftNow_same _ _).2.2.2.2.1 (adriftNow_same _ _).2.2.2.2.2 (eachRaise_fit _ _ _ _ h0)
@[simp] theorem enterBerth_rq (s : State) : RQ (enterBerth s) s ∧ (enterBerth s).mode = 1 ∧ (enterBerth s).dkh.modeReqs = s.dkh.modeReqs := by
  unfold enterBerth; dsimp only; split <;> simp
@[simp] theorem berthStart_rq (s : State) : RQ (berthStart s) s ∧ (berthStart s).dkh.modeReqs = s.dkh.modeReqs := by
  unfold berthStart; split <;> simp
theorem berthStart_fit (s : State) (h : s.modeFit) : (berthStart s).modeFit := by
  unfold berthStart; split
  · simp [State.modeFit] at h ⊢; exact h.2
  · exact h
@[simp] theorem afterStart_rq (x : Side) (s : State) : RQ (afterStart x s) s ∧ (afterStart x s).dkh.modeReqs = s.dkh.modeReqs := by
  unfold afterStart; dsimp only; split <;> simp
theorem afterStart_fit (x : Side) (s : State) (h : s.modeFit) : (afterStart x s).modeFit := by
  unfold afterStart; dsimp only
  generalize hu : ({ s with pins := { s.pins with neg := [] } } : State) = u
  have hf : u.modeFit := hu ▸ h
  have h1 := berthStart_fit (startModule u) (modeFit_of (startModule_same u).2.2.2.2.1 (startModule_same u).2.2.2.2.2 hf)
  split
  · exact modeFit_of (by simp) (by simp) h1
  · exact h1
@[simp] theorem assignRoles_pending (a : Side) (al : Bool) (s : State) : (assignRoles a al s).pending = s.pending := by
  unfold assignRoles; dsimp only; repeat' split
  all_goals simp
@[simp] theorem activeSide_eq (s : State) : s.activeSide.isSome = false ↔ s.roleA ≠ .active ∧ s.roleB ≠ .active := by
  unfold State.activeSide; split <;> simp_all
theorem assignRoles_modeFit (a : Side) (al : Bool) (s : State) (h : s.modeFit) : (assignRoles a al s).modeFit := by
  unfold assignRoles
  extract_lets o b s1 s2 s3 there same s4 s5 s6
  have h1 : s1.modeFit := same_modeFit (advance_same _ _) h
  have h2 : s2.modeFit := modeFit_of (by simp [s2]) (by simp [s2]) h1
  have h3 : s3.modeFit := ite_mode_fit _ (same_modeFit (by simp) h2) h2
  have h4 : s4.modeFit := ite_mode_fit _ (modeFit_of (by simp) (by simp) h3) h3
  have h5 : s5.modeFit := modeFit_of (by simp [s5]) (by simp [s5]) h4
  have h6 : s6.modeFit := ite_mode_fit _ (modeFit_of (by simp) (by simp) h5) h5
  refine ite_mode_fit _ h6 ⟨?_, ?_⟩
  · simp
  · rw [(enterBerth_rq _).2.2]; exact h6.2
theorem assignRoles_fit (a : Side) (al : Bool) (s : State) (hn : s.activeSide = none) (h : s.rolesFit) : (assignRoles a al s).rolesFit := by
  have ha : s.roleA ≠ .active ∧ s.roleB ≠ .active := (activeSide_eq s).1 (by simp [hn])
  unfold assignRoles; extract_lets o b s1 s2 s3 there same s4 s5 s6
  have h1 : Same s1 s := advance_same _ _
  have h2 : s2.rolesFit := by
    have hd : s2.arb.due = s.arb.due := by simp [s2, h1.2.2.2.1]
    have hA : s1.roleA ≠ .active ∧ s1.roleB ≠ .active := by rw [h1.2.1, h1.2.2.1]; exact ha
    refine ⟨?_, fun d hh => h.2 d (hd ▸ hh)⟩
    cases a <;> simp_all [s2, State.setRole, State.rolesFit]
  have h3 : s3.rolesFit := ite_fit _ (raise_fit _ _ _ _ (rolesFit_of (modSlw_same _ _ _) h2)) h2
  have h4 : s4.rolesFit := ite_fit _ (setRole_fit _ _ _ (by simp) h3) h3
  have h5 : s5.rolesFit := rolesFit_of (by simp [s5]) h4
  have h6 : s6.rolesFit := ite_fit _ (rolesFit_of (s := s5.setRole o .unsync) (by simp) (setRole_fit _ _ _ (by simp) h5)) h5
  exact ite_fit _ h6 (rolesFit_rq (enterBerth_rq _).1 h6)
@[simp] theorem completeS10_pending (x : Side) (s : State) : (completeS10 x s).pending = s.pending := by
  unfold completeS10; dsimp only; repeat' split
  all_goals simp
theorem completeS10_fit (x : Side) (s : State) (h : s.rolesFit) : (completeS10 x s).rolesFit := by
  unfold completeS10; extract_lets cmd s1 s2
  have h1 : s1.rolesFit := rolesFit_of (modSlw_same _ _ _) h
  have h2 : s2.rolesFit := by
    simp only [s2]
    split
    · exact rolesFit_of (s := dueRole x .unsync s1) (by simp) (dueRole_fit _ _ _ (by simp) h1)
    · split
      · rename_i hc
        exact assignRoles_fit _ _ _ (by simp at hc; exact hc.1.2) h1
      · exact h1
  exact optComplete_fit _ _ _ _ _ h2
theorem optComplete_modeFit (c : Option Pend) (st : Status) (d : List Byte) (p : Bool) (s : State) (h : s.modeFit) :
    (match c with
      | some c => complete c st d p s
      | none => s).modeFit := by
  cases c
  · exact h
  · exact modeFit_of (by simp) (by simp) h
theorem completeS10_modeFit (x : Side) (s : State) (h : s.modeFit) : (completeS10 x s).modeFit := by
  have h1 : ∀ f, (s.modSlw x f).modeFit := fun f => modeFit_of (by simp) (by simp) h
  unfold completeS10; extract_lets cmd s1 s2
  have h2 : s2.modeFit := by
    simp only [s2]
    split
    · exact modeFit_of (s := s1) (by simp) (by simp) (h1 _)
    · exact ite_mode_fit _ (assignRoles_modeFit _ _ _ (h1 _)) (h1 _)
  exact optComplete_modeFit _ _ _ _ _ h2
@[simp] theorem roleAssignment_pending (s : State) : (roleAssignment s).pending = s.pending := by
  unfold roleAssignment; dsimp only; split <;> simp
theorem roleAssignment_fit (s : State) (h : s.rolesFit) : (roleAssignment s).rolesFit := by
  unfold roleAssignment; dsimp only; split
  · exact h
  · rename_i hc
    exact assignRoles_fit _ _ _ (by simp at hc; exact hc.1.1) h
theorem roleAssignment_modeFit (s : State) (h : s.modeFit) : (roleAssignment s).modeFit := by
  unfold roleAssignment; dsimp only
  exact ite_mode_fit _ h (assignRoles_modeFit _ _ _ h)
@[simp] theorem roleDeadline_pending (s : State) : (roleDeadline s).pending = s.pending := by
  unfold roleDeadline; dsimp only; repeat' split
  all_goals simp
theorem roleDeadline_fit (s : State) (h : s.rolesFit) : (roleDeadline s).rolesFit := by
  unfold roleDeadline; split
  · exact h
  · rename_i hc
    have hn : s.activeSide = none := by simp at hc; exact hc.1.1.2
    have h1 : ({ s with dkh := { s.dkh with deadline := true } } : State).rolesFit := h
    have hn1 : ({ s with dkh := { s.dkh with deadline := true } } : State).activeSide = none := hn
    dsimp only
    exact ite_fit _ (assignRoles_fit _ _ _ hn1 h1) (ite_fit _ (assignRoles_fit _ _ _ hn1 h1) h1)
theorem roleDeadline_modeFit (s : State) (h : s.modeFit) : (roleDeadline s).modeFit := by
  have h1 : ({ s with dkh := { s.dkh with deadline := true } } : State).modeFit := h
  unfold roleDeadline; dsimp only
  exact ite_mode_fit _ h (ite_mode_fit _ (assignRoles_modeFit _ _ _ h1) (ite_mode_fit _ (assignRoles_modeFit _ _ _ h1) h1))

theorem stages_same (x : Side) (r : StartRun) : ∀ q ∈ landingStages x r, ∀ s, Same (q.2 s).1 s := by
  intro q hq s
  simp only [landingStages, List.mem_cons, List.mem_nil_iff, or_false] at hq
  rcases hq with rfl | rfl | rfl | rfl | rfl | rfl | rfl | rfl <;> simp
theorem runStages_same (x : Side) (r : StartRun) (l : List (Nat × (State → State × Bool))) (s : State)
    (h : ∀ q ∈ l, ∀ s, Same (q.2 s).1 s) : Same (runStages x r l s).1 s := by
  induction l generalizing s with
  | nil => simp [runStages]
  | cons q t ih =>
    have h1 := h q (by simp) (enterStage x q.1 s)
    have h2 := ih (q.2 (enterStage x q.1 s)).1 (fun q hq => h q (by simp [hq]))
    simp only [runStages]
    repeat' split
    all_goals simp_all
theorem runStages_landing (x : Side) (r : StartRun) (s : State) : Same (runStages x r (landingStages x r) s).1 s :=
  runStages_same _ _ _ _ (stages_same x r)
@[simp] theorem landingStart_pending (x : Side) (r : StartRun) (s : State) : (landingStart x r s).pending = s.pending := by
  unfold landingStart; dsimp only
  split
  · rfl
  · generalize hu : s.modSlw x _ = u
    have hu' : Same u s := hu ▸ modSlw_same _ _ _
    have h1 := runStages_landing x r u
    split <;> simp_all
theorem landingStart_fit (x : Side) (r : StartRun) (s : State) (h : s.rolesFit) : (landingStart x r s).rolesFit := by
  unfold landingStart; dsimp only
  split
  · exact h
  · generalize hu : s.modSlw x _ = u
    have hu' : u.rolesFit := hu ▸ rolesFit_of (modSlw_same _ _ _) h
    have h1 := rolesFit_of (runStages_landing x r u) hu'
    split
    · rename_i t n ht
      rw [ht] at h1
      exact failStart_fit _ _ _ _ (raise_fit _ _ _ _ h1)
    · rename_i t ht
      rw [ht] at h1
      exact completeS10_fit _ _ (rolesFit_of (modLd_same _ _ _) h1)
theorem landingStart_modeFit (x : Side) (r : StartRun) (s : State) (h : s.modeFit) : (landingStart x r s).modeFit := by
  unfold landingStart; dsimp only
  split
  · exact h
  · generalize hu : s.modSlw x _ = u
    have hu' : u.modeFit := hu ▸ modeFit_of (by simp) (by simp) h
    have h1 : (runStages x r (landingStages x r) u).1.modeFit :=
      modeFit_of (runStages_landing x r u).2.2.2.2.1 (runStages_landing x r u).2.2.2.2.2 hu'
    split
    · rename_i t n ht
      rw [ht] at h1
      exact modeFit_of (by simp) (by simp) h1
    · rename_i t ht
      rw [ht] at h1
      exact completeS10_modeFit _ _ (modeFit_of (by simp) (by simp) h1)
@[simp] theorem leadTick_rq (s : State) : RQ (leadTick s) s := by
  unfold leadTick; dsimp only; repeat' split
  all_goals simp
theorem leadTick_fit (s : State) (h : s.modeFit) : (leadTick s).modeFit := by
  unfold leadTick; extract_lets x was s1 s2 s3 level seen s4 s5
  have h1 : s1.modeFit := applyModes_fit _ _ h
  have h2 : s2.modeFit := same_modeFit (by simp [s2]) h1
  have h3 : s3.modeFit := ite_mode_fit _ (afterStart_fit _ _ h2) h2
  have h4 : s4.modeFit := fusionReact_fit _ _ h3
  have h5 : s5.modeFit := ite_mode_fit _ (same_modeFit (adriftNow_same _ _) (eachRaise_fit _ _ _ _ h4)) h4
  exact same_modeFit (adriftCauses_same _) h5
theorem crossingTick_core (dst : TickTo) (t : Nat) (ms : List SampleMark) (s : State) :
    Same (crossingTick dst t ms s) s ∨ ∃ a b u, Same a s ∧ Same b (applyDue a) ∧ (u = b ∨ u = leadTick b)
      ∧ Same (crossingTick dst t ms s) u := by
  unfold crossingTick
  extract_lets s1 s2 s3 s4 s5 xs s6 s7 s8 s9 s10 s11 s12 s13 s14 s15
  have h1 : Same s1 s := advance_same _ _
  split
  · exact .inl h1
  · refine .inr ⟨{ s3 with shared := [] }, s10, s11, ?_, ?_, ?_, ?_⟩
    · have h2 : Same s2 s1 := foldl_same _ _ _ (fun s x => by simp)
      have h3 : Same s3 s2 := stepTick_same _ _ _
      simp_all
    · have h5 : Same s5 s4 := by simp [s5]
      have h6 : Same s6 s5 := foldl_same _ _ _ (fun s x => by simp)
      have h7 : Same s7 s6 := by simp [s7]
      have h8 : Same s8 s7 := foldl_trans _ _ _ _ (by simp) (fun s x => foldl_same _ _ _ (fun s k => by simp))
      have h9 : Same s9 s8 := foldl_same _ _ _ (fun s x => by simp)
      have h10 : Same s10 s9 := foldl_same _ _ _ (fun s x => by simp)
      change Same s10 s4
      clear_value s4 s5 s6 s7 s8 s9 s10
      simp_all
    · simp only [s11]; split <;> simp
    · have h12 : Same s12 s11 := foldl_same _ _ _ (fun s x => by simp)
      have h13 : Same s13 s12 := foldl_same _ _ _ (fun s x => by simp)
      have h14 : Same s14 s13 := foldl_same _ _ _ (fun s x => by simp)
      have h15 : Same s15 s14 := by simp only [s15]; split <;> simp
      have h16 : Same (drainOutbox s15) s15 := drainOutbox_same _
      clear_value s11 s12 s13 s14 s15
      simp_all
@[simp] theorem crossingTick_pending (dst : TickTo) (t : Nat) (ms : List SampleMark) (s : State) :
    (crossingTick dst t ms s).pending = s.pending := by
  rcases crossingTick_core dst t ms s with h | ⟨a, b, u, h1, h2, h3 | h3, h4⟩
  · simp_all
  · simp_all
  · simp_all
theorem crossingTick_fit (dst : TickTo) (t : Nat) (ms : List SampleMark) (s : State) (h : s.rolesFit) : (crossingTick dst t ms s).rolesFit := by
  rcases crossingTick_core dst t ms s with e | ⟨a, b, u, h1, h2, h3, h4⟩
  · exact rolesFit_of e h
  · have hb : b.rolesFit := rolesFit_of h2 (applyDue_fit _ (rolesFit_of h1 h))
    refine rolesFit_of h4 ?_
    rcases h3 with rfl | rfl
    · exact hb
    · exact rolesFit_rq (leadTick_rq b) hb
theorem crossingTick_modeFit (dst : TickTo) (t : Nat) (ms : List SampleMark) (s : State) (h : s.modeFit) : (crossingTick dst t ms s).modeFit := by
  rcases crossingTick_core dst t ms s with e | ⟨a, b, u, h1, h2, h3, h4⟩
  · exact same_modeFit e h
  · have ha := same_modeFit h1 h
    have hb : b.modeFit := same_modeFit h2 (modeFit_of (by simp) (by simp) ha)
    refine same_modeFit h4 ?_
    rcases h3 with rfl | rfl
    · exact hb
    · exact leadTick_fit b hb
theorem readTemps_modeFit (a b c d : Byte) (u v : Word) (s : State) (h : s.modeFit) : (readTemps a b c d u v s).modeFit := by
  unfold readTemps; dsimp only
  refine ite_mode_fit _ (stopped_fit _).2 (modeFit_of (by simp) (by simp) h)

theorem hostCommand_fit (h : CmdHdr) (op : Nat) (asks : State → Asks) (eff : State → Answer) (s : State)
    (he : ∀ s, s.rolesFit → (eff s).s.rolesFit) (hs : s.rolesFit) : (hostCommand h op asks eff s).rolesFit := by
  unfold hostCommand hostCommandF; dsimp only
  split
  · exact complete_fit _ _ _ _ _ (ite_fit _ (rolesFit_of (by simp) hs) (rolesFit_of (advance_same _ _) hs))
  · exact complete_fit _ _ _ _ _ (he _ (rolesFit_of (by simp) hs))
theorem hostCommand_queue (h : CmdHdr) (op : Nat) (asks : State → Asks) (eff : State → Answer) (s : State)
    (he : ∀ s, SameM (eff s).s s) : SameM (hostCommand h op asks eff s) s := by
  unfold hostCommand hostCommandF; dsimp only
  split
  · split <;> simp
  · obtain ⟨a, b, c⟩ := he (accept h (advance h.at_ s))
    refine ⟨?_, ?_, ?_⟩
    · simp [a]
    · simp [b]
    · simp [c]

/-! ### What holds through the ways operations are put together -/

theorem eachSide_ind (P : State → Prop) (c : Side → Bool) (f : Side → State → State) (hf : ∀ x s, P s → P (f x s)) (s : State)
    (h : P s) : P (eachSide c f s) := by
  unfold eachSide; dsimp only
  have h1 : P (if c .A then f .A s else s) := by split; exact hf _ _ h; exact h
  split
  · exact hf _ _ h1
  · exact h1

theorem foldl_ind {α : Type} (P : State → Prop) (f : State → α → State) (hf : ∀ s a, P s → P (f s a)) (l : List α) (s : State) (h : P s) :
    P (l.foldl f s) := by
  induction l generalizing s with
  | nil => exact h
  | cons a l ih => exact ih _ (hf _ _ h)

theorem found_ind (P : State → Prop) (f : State → State) (s : State) (hf : P s → P (f s)) (h : P s) : P (found f s) := by
  unfold found; split
  · exact hf h
  · exact h

/-- What a host command keeps: a property that time passing, a refusal's log record, its failure's own effect, a completion and its own
effect keep. -/
theorem hostCommandF_ind (P : State → Prop) (h : CmdHdr) (op : Nat) (asks : State → Asks) (eff : State → Answer)
    (f : Status → State → State) (s : State) (ha : ∀ t s, P s → P (advance t s)) (hl : ∀ c s, P s → P (logState c s))
    (hb : ∀ s, P s → P (accept h s)) (hc : ∀ c st d p s, P s → P (complete c st d p s)) (hf : ∀ st s, P s → P (f st s))
    (he : ∀ s, P s → P (eff s).s) (hs : P s) : P (hostCommandF h op asks eff f s) := by
  unfold hostCommandF; dsimp only
  split
  · refine hc _ _ _ _ _ (hf _ _ ?_)
    split
    · exact hl _ _ (ha _ _ hs)
    · exact ha _ _ hs
  · exact hc _ _ _ _ _ (he _ (hb _ (ha _ _ hs)))

theorem hostCommand_ind (P : State → Prop) (h : CmdHdr) (op : Nat) (asks : State → Asks) (eff : State → Answer) (s : State)
    (ha : ∀ t s, P s → P (advance t s)) (hl : ∀ c s, P s → P (logState c s)) (hb : ∀ s, P s → P (accept h s))
    (hc : ∀ c st d p s, P s → P (complete c st d p s)) (he : ∀ s, P s → P (eff s).s) (hs : P s) : P (hostCommand h op asks eff s) :=
  hostCommandF_ind P h op asks eff _ s ha hl hb hc (fun _ _ h => h) he hs

end Sys2Proof.Machine
end

