-- ==== Sys2Proof/Tests/Slice0.lean ====
section
/-!
SUPPORT. Tests: for each statement with hypotheses, concrete states and operands that meet them, clause by clause; ill-formed commands that
`wellFormed` refuses; a few values from published examples and from the spec.
-/
namespace Sys2Proof.Tests
open Sys2Proof Sys2Proof.Machine
set_option Elab.async false

/-! ### Small states -/

/-- A host command's header, with a new sequence number. -/
def hd : CmdHdr := { at_ := 100, part := 1, queue := 2, descPart := 1, descQueue := 2, seq := 5, formed := true, check := none }

/-- The command that the states below wait to answer. -/
def pd (op : Nat) : Pend := { part := 1, queue := 2, seq := 4, op := op }

/-- Both landings changed. -/
def both (f : Landing → Landing) (s : State) : State := { s with a := f s.a, b := f s.b }

/-- Partition 1 holds a level. -/
def withLevel (n : Nat) (s : State) : State := s.modPart 1 (fun t => { t with level := n })

/-- A landing after S10 whose manifest runs. -/
def started (l : Landing) : Landing :=
  { l with slw := { l.slw with s10 := true, stage := 11 }, fmn := { l.fmn with running := true, loaded := true, crossing := 1000 } }

/-- Tick 900, 1 µs before 5 s, common to both landings. -/
def tick0 : TickGen :=
  let g : TickGrid := { last := 5000000000 * 65536 - 65536000, period := 1000000 }
  { last := g.last, period := g.period, count := 900, gridA := g, gridB := g }

/-- The module in PASSAGE 5 s after power-good, landing A active and B standing by, 1 µs after tick 900. -/
def up0 : State := both started { withLevel 5 State.reset with
  now := 5000000000 * 65536, uptime := some (5000000000 * 65536), tick := tick0, roleA := .active, roleB := .standby, mode := 2,
  sup := { aOk := true, bOk := true, field := true, landA := true, landB := true, bank1 := true, bank2 := true },
  dkh := { fusion := 0, s1 := true }, log := { copy1 := true, copy2 := true, scanning := false, started := true } }

/-- The same with the purser ports serving. -/
def up1 : State := { up0 with pur := { up0.pur with serving := true } }

/-- The low `n` bytes of a number. -/
def w (n v : Nat) : List Byte := leBytes n v

/-- `l` followed by zeros up to `n` bytes. -/
def pad (n : Nat) (l : List Byte) : List Byte := l ++ List.replicate (n - l.length) 0

/-- The nonzero bytes of `l`, at offsets from `o` on. -/
def bytesFrom : Nat → List Byte → List Host.Cell
  | _, [] => []
  | o, b :: t => if b = 0 then bytesFrom (o + 1) t else (o, b) :: bytesFrom (o + 1) t

/-- A byte table given as runs of bytes at rising offsets. -/
def runs (l : List (Nat × List Byte)) : List Host.Cell := l.flatMap (fun q => bytesFrom q.1 q.2)

/-- A block of bytes from offset `o` on: runs of bytes at rising offsets with zeros between them. -/
def dense : Nat → List (Nat × List Byte) → List Byte
  | _, [] => []
  | o, (a, b) :: t => List.replicate (a - o) 0 ++ b ++ dense (a + b.length) t

/-- Both landings run the manifest `m`, with every dispatch entry of its first pattern outstanding. -/
def withImg (m : Tab Byte) (s : State) : State :=
  both (fun l => { l with fmn := { l.fmn with img := m, open_ := List.range (dispatches m 0).length, lastPattern := 0 } }) s

/-- State `k` of a list. -/
def nth (l : List State) (k : Nat) : State := l.getD k State.reset

/-- A piece of an image: its size and runs of bytes at rising offsets in it. -/
abbrev Piece := Nat × List (Nat × List Byte)

/-- A piece of bytes written out, and one padded with zeros. -/
def raw (l : List Byte) : Piece := (l.length, [(0, l)])
def padP (n : Nat) (l : List Byte) : Piece := (n, [(0, l)])

/-- Pieces one after another, from offset `o` on. -/
def catFrom : Nat → List Piece → List (Nat × List Byte)
  | _, [] => []
  | o, p :: t => p.2.map (fun r => (r.1 + o, r.2)) ++ catFrom (o + p.1) t

def cat (l : List Piece) : Piece := ((l.map (fun p => p.1)).sum, catFrom 0 l)

/-- A piece filled up to a multiple of 8 bytes. -/
def al8 (p : Piece) : Piece := ((p.1 + 7) / 8 * 8, p.2)

/-- The section directory of an image. -/
def secDir : Nat → List (Nat × Piece) → List Byte
  | _, [] => []
  | o, (t, p) :: r => w 2 t ++ w 2 0 ++ w 4 o ++ w 4 (al8 p).1 ++ w 4 0 ++ secDir (o + (al8 p).1) r

/-- A manifest image: trim, period code, cycle length, sections (type, bytes). -/
def mkImg (trim period cycle : Nat) (secs : List (Nat × Piece)) : Tab Byte :=
  let o := 0x40 + 16 * secs.length
  runs ([(0x0C, w 1 trim ++ w 1 period ++ w 2 cycle), (0x1C, w 2 secs.length), (0x40, secDir o secs)] ++
    catFrom o (secs.map (fun q => al8 q.2)))

/-- A section of one pattern, of counted entries, and of engine parts. -/
def patSec (size : Nat) (es : List (List Byte)) : Piece := cat (raw (w 8 1 ++ w 4 16 ++ w 4 es.length) :: es.map (padP size))
def cntSec (size : Nat) (es : List (List Byte)) : Piece := cat (raw (w 8 es.length) :: es.map (padP size))
def engDir : Nat → List (Nat × Piece) → List Byte
  | _, [] => []
  | o, (u, p) :: r => w 4 u ++ w 4 o ++ w 4 p.1 ++ w 4 0 ++ engDir (o + (al8 p).1) r
def engSec (parts : List (Nat × Piece)) : Piece :=
  cat (raw (w 8 parts.length ++ engDir (8 + 16 * parts.length) parts) :: parts.map (fun q => al8 q.2))

/-- A dispatch entry, a slot claim and a berth (02 R715 to R717). -/
def disp (cycle unit op job : Nat) : List Byte := w 4 cycle ++ w 1 unit ++ w 1 op ++ w 2 job
def claimB (slot lane beats src dst flags from_ dest : Nat) : List Byte :=
  w 2 slot ++ w 1 lane ++ w 1 beats ++ w 1 src ++ w 1 dst ++ w 2 flags ++ w 4 from_ ++ w 4 dest
def berthB (addr size kind prod voy period phase map : Nat) : List Byte :=
  w 4 addr ++ w 4 size ++ w 1 kind ++ w 1 prod ++ w 2 voy ++ w 2 period ++ w 2 phase ++ w 4 map

/-- An empty pattern table of ten crossings. -/
def noPats : Nat × Piece := (2, raw (List.replicate 10 0))

/-! ### Faults and registers (chapters 00, 01 and 16) -/

namespace C02
/-- Landing memories with a few bytes, stored poison at 0x1000_0010, raised events and counters. -/
def memA (s : State) : State := both (fun l => { l with
  mem := [(0x100, 3), (0x10000008, 9), (0x10000010, 255), (0x28000000, 7)],
  syn := [(0x2000002, 0xA7)], events := [(4, 0xFF), (11, 0xF0)], fmn := { l.fmn with deferred := 77, crossing := 0x500000007 } }) s
/-- A port in the middle of a write and of a read. -/
def rd : PurPort :=
  { wbuf := [(276758528, [1, 2, 3, 4, 5, 6, 7, 8])], reading := some (0x10000008, 8), rbuf := [1, 2, 3], error := 5 }

/-- The states of the statements about registers and events. -/
def sts : List State := [State.reset, up1, memA up1, memA up0, { memA up1 with events := [(4, 1), (11, 0x33)] },
  { memA up1 with pur := { up1.pur with ports := [(1, rd)] } },
  { memA up1 with pur := { up1.pur with ports := [(1, rd)] }, roleB := .none },
  withLevel 3 { memA up1 with pendLow := [(latchKey (.deckhand .A) 0x30010000, some 9), (latchKey (.deckhand .A) 0x30040000, some 9),
    (latchKey (.deckhand .A) 0x300B0000, some 9)] },
  { memA up1 with roleB := .unsync }, { memA up1 with lastRaised := [(limitKey (.landing .A) 0x0201 0, 6000000000)] }]

set_option maxRecDepth 200000 in
/-- The hypotheses of `CompletionEntry` can be met, clause by clause. -/
theorem witness_CompletionEntry :
    ((3, 8) ≠ (hd.part, hd.queue)) := by
  decide +kernel

set_option maxRecDepth 200000 in
/-- The hypotheses of `FaultRaised` can be met, clause by clause. -/
theorem witness_FaultRaised :
    (severityOf 2817 = some Sev.caution ∧ eventBit 2817 = some (11, 0))
    ∧ (severityOf 1026 = some Sev.caution ∧ (eventBit 1026).isSome = true ∧ Source.cable = Source.cable)
    ∧ (severityOf 3585 = some Sev.note)
    ∧ (severityOf 320 = some Sev.accuse ∧ (Sev.accuse = Sev.alarm ∨ Sev.accuse = Sev.accuse ∨ Sev.accuse = Sev.halt))
    ∧ (severityOf 320 = some Sev.accuse ∧ (Sev.accuse = Sev.accuse ∨ Sev.accuse = Sev.halt)) := by
  and_intros <;> decide +kernel

set_option maxRecDepth 200000 in
/-- The hypotheses of `EventWriteOneClears` can be met, clause by clause. -/
theorem witness_EventWriteOneClears :
    (let r : Requester := Requester.tile Side.A 3; onLanding r Side.A ∧ regKindAt 805568516 = some RegKind.w1c ∧ regUnit 805568516 = some 4)
    ∧ (let r : Requester := Requester.deckhand Side.A; onLanding r Side.A ∧ regKindAt 806027268 = some RegKind.w1c ∧ regUnit 806027268 = some 11) := by
  and_intros <;> first
    | decide +kernel
    | ((try dsimp only [onLanding]) <;> and_intros <;> first
         | decide +kernel
         | exact Or.inl rfl
         | exact ⟨.A, by decide +kernel⟩
         | exact ⟨.B, by decide +kernel⟩
         | exact Or.inr ⟨_, rfl, by decide +kernel⟩
         | exact fun ⟨_, e⟩ => by cases e
         | (intro x; cases x <;> decide +kernel))

set_option maxRecDepth 200000 in
/-- The hypotheses of `AccessErrors` can be met, clause by clause. -/
theorem witness_AccessErrors :
    (let r : Requester := Requester.deckhand Side.B
     onLanding r Side.B ∧ regKindAt 1073741820 = none ∧ memMapped 1073741820 = false ∧ roWindow 1073741820 = false)
    ∧ (let r : Requester := Requester.deckhand Side.B; onLanding r Side.B ∧ regKindAt 805371908 ≠ none ∧ (8 ≠ 4 ∨ 805371908 % 4 ≠ 0)) := by
  and_intros <;> first
    | decide +kernel
    | ((try dsimp only [onLanding]) <;> and_intros <;> first
         | decide +kernel
         | exact Or.inl rfl
         | exact ⟨.A, by decide +kernel⟩
         | exact ⟨.B, by decide +kernel⟩
         | exact Or.inr ⟨_, rfl, by decide +kernel⟩
         | exact fun ⟨_, e⟩ => by cases e
         | (intro x; cases x <;> decide +kernel))

set_option maxRecDepth 200000 in
/-- The hypotheses of `ReadsTakeAndLatch` can be met, clause by clause. -/
theorem witness_ReadsTakeAndLatch :
    (let r : Requester := Requester.deckhand Side.A
     let s : State := nth sts 0
     onLanding r Side.A ∧ Tab.get none s.latch (latchKey r 805371936) = none)
    ∧ (let r : Requester := Requester.deckhand Side.A
       let s : State := nth sts 0
       onLanding r Side.A ∧ Tab.get none s.latch (latchKey r 805371904) = none) := by
  and_intros <;> first
    | decide +kernel
    | ((try dsimp only [onLanding]) <;> and_intros <;> first
         | decide +kernel
         | exact Or.inl rfl
         | exact ⟨.A, by decide +kernel⟩
         | exact ⟨.B, by decide +kernel⟩
         | exact Or.inr ⟨_, rfl, by decide +kernel⟩
         | exact fun ⟨_, e⟩ => by cases e
         | (intro x; cases x <;> decide +kernel))

set_option maxRecDepth 200000 in
/-- The hypotheses of `PairWrites` can be met, clause by clause. -/
theorem witness_PairWrites :
    (let r : Requester := Requester.deckhand Side.A
     let s : State := nth sts 2
     onLanding r Side.A ∧ regKindAt 805371904 = some RegKind.ro ∧ RegKind.ro ≠ RegKind.range ∧ bolFixed 805371904 RegKind.ro = false ∧ Tab.get
         none s.pendLow (latchKey r (805371904 - 4)) = none)
    ∧ (let r : Requester := Requester.deckhand Side.A
       let s : State := nth sts 7
       onLanding r Side.A ∧ regKindAt 806027268 = some RegKind.w1c ∧ RegKind.w1c ≠ RegKind.range ∧ bolFixed 806027268 RegKind.w1c = false ∧
           (Tab.get none s.pendLow (latchKey r (806027268 - 4))).isSome = true) := by
  and_intros <;> first
    | decide +kernel
    | ((try dsimp only [onLanding]) <;> and_intros <;> first
         | decide +kernel
         | exact Or.inl rfl
         | exact ⟨.A, by decide +kernel⟩
         | exact ⟨.B, by decide +kernel⟩
         | exact Or.inr ⟨_, rfl, by decide +kernel⟩
         | exact fun ⟨_, e⟩ => by cases e
         | (intro x; cases x <;> decide +kernel))

set_option maxRecDepth 200000 in
/-- The hypotheses of `PortAccesses` can be met, clause by clause. -/
theorem witness_PortAccesses :
    (let data : List Byte := [1, 2, 3, 4, 5, 6, 7, 8]
     let s : State := nth sts 9
     s.pur.serving = true ∧ data.length = 8 ∧ memMapped 276759552 = true ∧ Option.any (fun n => decide (n ≤ (s.part 1).level ∧ (s.port
         1).wbuf.length < 2 ∧ s.pur.move = none)) (hostRange (advance 0 s) 1 true 276759552 2) = true)
    ∧ (let data : List Byte := [1, 2, 3, 4, 5, 6, 7, 8]
       let s : State := nth sts 9
       s.pur.serving = true ∧ data.length = 8 ∧ memMapped 268435472 = true ∧ hostRange (advance 6000000000 s) 1 true 268435472 2 = none)
    ∧ (let data : List Byte := [1, 2, 3, 4, 5, 6, 7, 8]
       let s : State := nth sts 5
       let rest : List (Nat × List Byte) := []
       s.pur.serving = true ∧ data.length = 8 ∧ memMapped 276758528 = true ∧ (s.port 1).wbuf = (276758528, data) :: rest ∧ s.serves Side.A = true)
    ∧ (let data : List Byte := [1, 2, 3, 4, 5, 6, 7, 8]
       let s : State := nth sts 6
       let rest : List (Nat × List Byte) := []
       s.pur.serving = true ∧ data.length = 8 ∧ memMapped 276758528 = true ∧ (s.port 1).wbuf = (276758528, data) :: rest ∧ s.serves Side.B =
           false)
    ∧ (let s : State := nth sts 1
       s.pur.serving = true ∧ portRange 268435472 8 = true ∧ hostRange (advance 6000000000 s) 1 false 268435472 (8 / 4) = some 2 ∧ 2 ≤ (s.part
           1).level ∧ (s.port 1).reading = none)
    ∧ (let s : State := nth sts 5; s.pur.serving = true ∧ (s.port 1).reading = some (268435464, 8))
    ∧ (let s : State := nth sts 1; s.pur.serving = true) := by
  and_intros <;> decide +kernel

end C02

/-! ### Chapter 02 -/

namespace C03
/-- An image with two dispatches, three claims (to DRAM, to the solver store, from a unit to a berth) and two berths. -/
def img : Tab Byte := mkImg 0 0 10 [(1, patSec 8 [disp 2000 0x80 0 3, disp 3000 5 0 0]),
  (3, patSec 16 [claimB 10 0 1 0x10 0x11 0 0x10000008 0x10080010, claimB 11 1 1 0x10 0x19 0 0x10000010 0x200,
    claimB 120 2 1 0x22 0x1A 0 0x30054100 0x20000000]), noPats,
  (6, cntSec 32 [berthB 0x20000000 64 1 5 0xFFFF 1 0 0, berthB 0x20001000 64 1 0x80 0xFFFF 1 0 0])]
def memA (s : State) : State := both (fun l => { l with
  mem := [(0x100, 3), (0x10000008, 9), (0x10000010, 255), (0x28000000, 7)], syn := [(0x2000001, 0xA7)],
  fmn := { l.fmn with open_ := [0, 1, claimItem 0, claimItem 1] } }) (withImg img s)
def cl (n : Nat) : Claim := (claims img 0).getD n {}
def q1 : FareReq := { who := 1, port := 0x19, addr := 0x100, len := 8 }
def late : Landing → Landing := fun l => { l with fmn := { l.fmn with tickLost := true, overrun := [0], startAt := some 1001 } }
def sts : List State := [State.reset, up1, memA up1, { memA up1 with uptime := none }, both late (memA up1),
  { memA up1 with
      sup := { up1.sup with landB := false },
      agree := { waiting := [{ cls := 4, order := 5 }], ready := [(0, [{ cls := 3 }])], nextOrder := 6 } },
  { memA up1 with tick := { up1.tick with count := 77 }, roleB := .unsync },
  both (fun l => { l with slw := { l.slw with inReset := true }, fmn := { l.fmn with fares := [q1] } }) (memA up1),
  both (fun l => { l with fmn := { l.fmn with fares := [{ q1 with port := 0x10 }], running := false } }) (memA up1)]
def fmns : List Ferryman := [(memA up1).a.fmn, { (memA up1).a.fmn with startAt := some 1001 },
  { (memA up1).a.fmn with index := 9, open_ := [] }, { (memA up1).a.fmn with running := false }]

set_option maxRecDepth 200000 in
/-- The hypotheses of `InputsAdmitted` can be met, clause by clause. -/
theorem witness_InputsAdmitted :
    (let x : Option Side := some Side.B; let s : State := nth sts 1; 4 ≤ 4 ∧ 4 ≤ 7 ∨ 4 = 3 ∧ x = some s.lead)
    ∧ (let x : Option Side := some Side.A; let s : State := nth sts 8; 2 = 1 ∨ 2 = 2 ∨ 2 = 3 ∧ x ≠ some s.lead)
    ∧ (let s : State := nth sts 6
       s.uptime.isSome = true ∧ s.agree.waiting = [] ∧ s.agree.inputs = [] ∧ Tab.get [] s.agree.ready s.lead.num = [] ∧ (∀ (x : Side), (s.ld
           x).fmn.deferred ≤ 4294967295) ∧ 0 < (s.grid s.lead).period ∧ (s.a.fmn.running = true → s.b.fmn.running = true → imgPeriod s.a.fmn.img =
           imgPeriod s.b.fmn.img)) := by
  and_intros <;> first
    | decide +kernel
    | ((try dsimp only [onLanding]) <;> and_intros <;> first
         | decide +kernel
         | exact Or.inl rfl
         | exact ⟨.A, by decide +kernel⟩
         | exact ⟨.B, by decide +kernel⟩
         | exact Or.inr ⟨_, rfl, by decide +kernel⟩
         | exact fun ⟨_, e⟩ => by cases e
         | (intro x; cases x <;> decide +kernel))

set_option maxRecDepth 200000 in
/-- The hypotheses of `TicksAndCrossings` can be met, clause by clause. -/
theorem witness_TicksAndCrossings :
    (let s : State := nth sts 6
     s.uptime.isSome = true ∧ (s.a.fmn.running = true → s.b.fmn.running = true → imgPeriod s.a.fmn.img = imgPeriod s.b.fmn.img) ∧ 0 < (s.grid
         s.lead).period)
    ∧ (let f : Ferryman := { (memA up1).a.fmn with startAt := some 1001 }; f.startAt = some (f.crossing + 1))
    ∧ (let f : Ferryman := { (memA up1).a.fmn with index := 9 }; f.startAt ≠ some (f.crossing + 1) ∧ f.running = true ∧ 0 < imgCycle f.img)
    ∧ (let f : Ferryman := { (memA up1).a.fmn with running := false }; f.startAt ≠ some (f.crossing + 1) ∧ f.running = false)
    ∧ (let s : State := nth sts 5; entryFor (s.ld Side.B).fmn 3 1 (some 3) none = none)
    ∧ (let s : State := nth sts 5; entryFor (s.ld Side.B).fmn 4 1 none none = none)
    ∧ (let s : State := nth sts 5; entryFor (s.ld Side.B).fmn 4 2 (some 3) none = none)
    ∧ (let s : State := nth sts 5; entryFor (s.ld Side.B).fmn 4 3 none none = none)
    ∧ (let s : State := nth sts 5; entryFor (s.ld Side.B).fmn 5 1 (some 3) none = none)
    ∧ (let s : State := nth sts 5; entryFor (s.ld Side.B).fmn 5 2 none none = none)
    ∧ (let s : State := nth sts 5; entryFor (s.ld Side.B).fmn 6 1 (some 3) none = none)
    ∧ (let s : State := nth sts 5; entryFor (s.ld Side.B).fmn 7 1 (some 3) none = none)
    ∧ (let s : State := nth sts 5; entryFor (s.ld Side.B).fmn 7 2 (some 3) none = none)
    ∧ (let s : State := nth sts 5; entryFor (s.ld Side.B).fmn 8 1 (some 3) none = none)
    ∧ (let s : State := nth sts 5; entryFor (s.ld Side.B).fmn 10 1 (some 3) (some 7) = none)
    ∧ (let s : State := nth sts 5; entryFor (s.ld Side.B).fmn 11 1 (some 3) (some 7) = none)
    ∧ (let s : State := nth sts 5; entryFor (s.ld Side.B).fmn 11 2 none none = none)
    ∧ (let s : State := nth sts 5; entryFor (s.ld Side.B).fmn (128 + 4294967296) 1 (some 3) (some 7) = none) := by
  and_intros <;> decide +kernel

set_option maxRecDepth 200000 in
/-- The hypotheses of `FerrymanChecks` can be met, clause by clause. -/
theorem witness_FerrymanChecks :
    (let s : State := nth sts 0; (s.ld Side.A).fmn.open_ = [])
    ∧ (let s : State := nth sts 6; (s.ld Side.B).fmn.open_.head?.isSome = true) := by
  and_intros <;> decide +kernel

set_option maxRecDepth 200000 in
/-- The hypotheses of `ContractKept` can be met, clause by clause. -/
theorem witness_ContractKept :
    (let s : State := nth sts 2
     1 ∈ (s.ld Side.A).fmn.open_ ∧ ((dispatches (s.ld Side.A).fmn.img (s.ld Side.A).fmn.pattern).getD 1 { }).unit ≠ 6 ∧ ((dispatches (s.ld
         Side.A).fmn.img (s.ld Side.A).fmn.pattern).getD 1 { }).unit < 128 ∧ 1000 ≤ contractCycle (s.ld Side.A).fmn 1)
    ∧ (let s : State := nth sts 7
       1 ∈ (s.ld Side.B).fmn.open_ ∧ ((dispatches (s.ld Side.B).fmn.img (s.ld Side.B).fmn.pattern).getD 1 { }).unit ≠ 6 ∧ ((dispatches (s.ld
           Side.B).fmn.img (s.ld Side.B).fmn.pattern).getD 1 { }).unit < 128 ∧ contractCycle (s.ld Side.B).fmn 1 < 5000)
    ∧ (let s : State := nth sts 2
       1 ∈ (s.ld Side.A).fmn.open_ ∧ ((dispatches (s.ld Side.A).fmn.img (s.ld Side.A).fmn.pattern).getD 1 { }).unit ≠ 6 ∧ ((dispatches (s.ld
           Side.A).fmn.img (s.ld Side.A).fmn.pattern).getD 1 { }).unit < 128 ∧ 0 ∈ berthsOf (s.ld Side.A).fmn 1)
    ∧ (let s : State := nth sts 2
       1 ∈ (s.ld Side.A).fmn.open_ ∧ ((dispatches (s.ld Side.A).fmn.img (s.ld Side.A).fmn.pattern).getD 1 { }).unit ≠ 6 ∧ ((dispatches (s.ld
           Side.A).fmn.img (s.ld Side.A).fmn.pattern).getD 1 { }).unit < 128 ∧ Tab.get ([], []) (s.ld Side.A).fmn.undo 1 = ([], []))
    ∧ (let l : Landing := (sts.getD 3 up1).a
       let s : State := nth sts 0
       ((dispatches (s.ld Side.A).fmn.img (s.ld Side.A).fmn.pattern).getD 1 { }).unit < 128 ∧ ((dispatches (s.ld Side.A).fmn.img (s.ld
           Side.A).fmn.pattern).getD 1 { }).unit ≠ 6 ∧ l.memWf = true ∧ (s.ld Side.A).memWf = true) := by
  and_intros <;> decide +kernel

set_option maxRecDepth 200000 in
/-- The hypotheses of `SlotsAndFares` can be met, clause by clause. -/
theorem witness_SlotsAndFares :
    (let c : Claim := cl 0
     let s : State := nth sts 7
     runningClaim (s.ld Side.A).fmn 0 = some c ∧ c.beats = 1 ∧ 16 ≤ c.src ∧ c.src < 32 ∧ 16 ≤ c.dst ∧ c.dst < 32 ∧ memKind c.from_ ≠ 5 ∧ c.from_ <
         805306368 ∧ (physical (s.ld Side.A).memi 268435464 + 8 ≤ physical (s.ld Side.A).memi c.to_ ∨ physical (s.ld Side.A).memi c.to_ + 8 ≤
         physical (s.ld Side.A).memi 268435464))
    ∧ (let fresh : List FareReq := [{ q1 with port := 16 }]
       let s : State := nth sts 4
       farePick (s.ld Side.B).fmn 0 0 ((s.ld Side.B).fmn.fares ++ fresh) = none)
    ∧ (let s : State := nth sts 5
       (s.ld Side.A).fmn.fares = [] ∧ starting s Side.A = false ∧ fareFits (s.ld Side.A).fmn 0 2 q1 = true ∧ q1.who < 8 ∧ q1.port ≠ 40 ∧ q1.data =
           [] ∧ memMapped q1.addr = true ∧ (q1.addr < 536870912 ∨ 671088640 ≤ q1.addr) ∧ q1.addr % 8 = 0 ∧ q1.len = 8 ∧ ∃ k, hostRange s q1.who
           false q1.addr 2 = some k ∧ k ≤ (s.part q1.who).level) := by
  and_intros <;> first
    | decide +kernel
    | ((try dsimp only [onLanding]) <;> and_intros <;> first
         | decide +kernel
         | exact Or.inl rfl
         | exact ⟨.A, by decide +kernel⟩
         | exact ⟨.B, by decide +kernel⟩
         | exact Or.inr ⟨_, rfl, by decide +kernel⟩
         | exact fun ⟨_, e⟩ => by cases e
         | (intro x; cases x <;> decide +kernel))

end C03

/-! ### Chapter 03 -/

namespace C04
/-- A tile with values in its registers, some poisoned. -/
def tl : Tile := {
  g := [(1, ⟨0x8000000000000001, false⟩), (2, ⟨0x7FF, false⟩), (3, ⟨0xFFFFFFFF80000000, true⟩), (4, ⟨0x100, false⟩),
    (5, ⟨0x40490FDB80000000, false⟩), (6, ⟨0x3FF8000000000000, false⟩), (7, ⟨0x1FFF8, false⟩), (8, ⟨0x80000000, false⟩),
    (9, ⟨0x1FFFF, false⟩)],
  v := [(4, ⟨0x4048000040400000, true⟩), (5, ⟨0x3FF8000040000000, false⟩), (8, ⟨0x7FF0000000000000, false⟩),
    (9, ⟨0x3F80000040000000, false⟩)],
  p := [(1, true, false), (2, false, false), (3, true, true)], flags := 3 }
def inFl : Tile := { tl with
  flight := [{ land := 3, g := [(1, ⟨5, false⟩)], flags := 1 }, { land := 9, p := [(1, false, false)] },
    { land := 4, mem := [(0x10080100, [(0, 7)], false)] }],
  loops := [(3, 5, 2)] }
def tileMem : List Host.Cell := [(0x10080100, 0x80), (0x10080101, 0xFF), (0x10080107, 0x81), (0x10081FF8, 9)]
def st (t : Tile) (s : State) : State :=
  both (fun l => { l with mem := tileMem, syn := [(0x2010020, 0x02)], tiles := [(1, t)] }) s
def sts : List State := [st tl up1, st inFl up1, st { tl with loops := [(1, 2, 3), (4, 5, 6)] } up1,
  { st tl up1 with a := { (st tl up1).a with syn := [(0x2010020, 0xA7)] } }]
/-- A syllable with predicate, negation, immediate form, operands and function or immediate. -/
def syl (P N I D A B fn : Nat) : Word := BitVec.ofNat 32 (P * 2 ^ 29 + N * 2 ^ 28 + I * 2 ^ 27 + D * 2 ^ 15 + A * 2 ^ 9 + B * 8 + fn)
def opw (op D A B fn : Nat) : List Byte := w 4 (op * 2 ^ 21 + D * 2 ^ 15 + A * 2 ^ 9 + B * 8 + fn)
def nopB : List Byte := w 4 0
def ends : List Byte := opw 0x13 0 0 0 0
def rec_ (code : List (List Byte)) : List Byte :=
  pad 16 (w 1 1 ++ w 1 1 ++ w 2 code.length ++ w 4 0 ++ w 4 (16 + 8 + 16 * code.length)) ++ pad 8 (w 2 0) ++ code.flatten
def im (code : List (List Byte)) : Tab Byte := mkImg 0 0 10 [(1, patSec 8 [disp 2000 0x81 1 0]), noPats, (4, raw (w 8 1 ++ rec_ code))]
def prog1 : List (List Byte) := [w 4 (0x21 * 2 ^ 21) ++ nopB ++ nopB ++ opw 1 3 4 5 3, nopB ++ nopB ++ nopB ++ ends]
def prog2 : List (List Byte) := [nopB ++ nopB ++ nopB ++ opw 0x0D 3 4 5 3, opw 5 3 4 5 3 ++ opw 6 3 4 5 3 ++ opw 7 3 4 5 3 ++ opw 8 3 4 5 3]
def prog3 : List (List Byte) := [nopB ++ nopB ++ nopB ++ opw 0x12 0 2 0 1,
  opw 5 3 4 5 3 ++ opw 6 3 4 5 3 ++ opw 7 3 4 5 3 ++ opw 8 3 4 5 3, nopB ++ nopB ++ nopB ++ ends]
def prgs : List State := [withImg (im prog1) (st tl up1), withImg (im prog2) (st tl up1), withImg (im prog3) (st inFl up1), st tl up1]

set_option maxRecDepth 200000 in
/-- The hypotheses of `TileIntegers` can be met, clause by clause. -/
theorem witness_TileIntegers :
    (let w : Word := syl 0 0 0 10 1 2 0
     let s : State := nth sts 3
     let u : State := settle Side.B 1 20 s
     let t : Tile := u.tile Side.B 1
     guardOf t w = Guard.yes ∧ sylFn w < 3) := by
  decide +kernel

set_option maxRecDepth 200000 in
/-- The hypotheses of `TilePredicates` can be met, clause by clause. -/
theorem witness_TilePredicates :
    (let w : Word := syl 0 0 0 10 1 2 0
     let s : State := nth sts 3
     let u : State := settle Side.B 1 20 s
     let t : Tile := u.tile Side.B 1
     guardOf t w = Guard.yes ∧ sylFn w = 0)
    ∧ (let w : Word := syl 0 0 1 5 5 5 2
       let s : State := nth sts 2
       let u : State := settle Side.A 1 20 s
       let t : Tile := u.tile Side.A 1
       guardOf t w = Guard.yes ∧ sylFn w = 2)
    ∧ (let w : Word := syl 0 0 0 12 5 6 1
       let s : State := nth sts 0
       let u : State := settle Side.B 1 2 s
       let t : Tile := u.tile Side.B 1
       guardOf t w = Guard.yes ∧ sylFn w = 1) := by
  and_intros <;> decide +kernel

set_option maxRecDepth 200000 in
/-- The hypotheses of `TileFloatsAndVectors` can be met, clause by clause. -/
theorem witness_TileFloatsAndVectors :
    (let w : Word := syl 0 0 0 10 1 2 0
     let s : State := nth sts 3
     let u : State := settle Side.B 1 20 s
     let t : Tile := u.tile Side.B 1
     guardOf t w = Guard.yes ∧ sylV w = false)
    ∧ (let w : Word := syl 0 0 1 5 5 5 2
       let s : State := nth sts 2
       let u : State := settle Side.A 1 20 s
       let t : Tile := u.tile Side.A 1
       guardOf t w = Guard.yes ∧ sylV w = true)
    ∧ (let w : Word := syl 0 0 0 10 1 2 0
       let s : State := nth sts 3
       let u : State := settle Side.B 1 20 s
       let t : Tile := u.tile Side.B 1
       guardOf t w = Guard.yes ∧ bitOf (BitVec.toNat w) 3 = false)
    ∧ (let w : Word := syl 1 0 0 14 1 3 0
       let s : State := nth sts 2
       let u : State := settle Side.B 1 20 s
       let t : Tile := u.tile Side.B 1
       guardOf t w = Guard.yes ∧ bitOf (BitVec.toNat w) 3 = true)
    ∧ (let w : Word := syl 0 0 0 10 1 2 0
       let s : State := nth sts 3
       let u : State := settle Side.B 1 20 s
       let t : Tile := u.tile Side.B 1
       let dbl : Prop := bitOf (BitVec.toNat w) 0 = false
       guardOf t w = Guard.yes ∧ dbl)
    ∧ (let w : Word := syl 0 0 0 12 5 6 1
       let s : State := nth sts 0
       let u : State := settle Side.B 1 2 s
       let t : Tile := u.tile Side.B 1
       let dbl : Prop := bitOf (BitVec.toNat w) 0 = false
       guardOf t w = Guard.yes ∧ ¬dbl) := by
  and_intros <;> decide +kernel

set_option maxRecDepth 200000 in
/-- The hypotheses of `TileLoads` can be met, clause by clause. -/
theorem witness_TileLoads :
    (let w : Word := syl 0 0 0 2 2 2 0
     let s : State := nth sts 2
     let u : State := settle Side.A 1 20 s
     let t : Tile := u.tile Side.A 1
     let addr : Nat → Pw := sylAddr t w
     let ok : Nat → Prop := fun k => (addr k).p = false ∧ BitVec.toNat (addr k).v < 131072 ∧ BitVec.toNat (addr k).v % k = 0
     guardOf t w = Guard.yes ∧ ok 1)
    ∧ (let w : Word := syl 0 0 0 2 2 2 0
       let s : State := nth sts 2
       let u : State := settle Side.A 1 20 s
       let t : Tile := u.tile Side.A 1
       let addr : Nat → Pw := sylAddr t w
       let ok : Nat → Prop := fun k => (addr k).p = false ∧ BitVec.toNat (addr k).v < 131072 ∧ BitVec.toNat (addr k).v % k = 0
       guardOf t w = Guard.yes ∧ ok 2)
    ∧ (let w : Word := syl 0 0 0 11 4 0 2
       let s : State := nth sts 2
       let u : State := settle Side.B 1 20 s
       let t : Tile := u.tile Side.B 1
       let addr : Nat → Pw := sylAddr t w
       let ok : Nat → Prop := fun k => (addr k).p = false ∧ BitVec.toNat (addr k).v < 131072 ∧ BitVec.toNat (addr k).v % k = 0
       guardOf t w = Guard.yes ∧ ok 4)
    ∧ (let w : Word := syl 0 0 0 11 4 0 2
       let s : State := nth sts 2
       let u : State := settle Side.B 1 20 s
       let t : Tile := u.tile Side.B 1
       let addr : Nat → Pw := sylAddr t w
       let ok : Nat → Prop := fun k => (addr k).p = false ∧ BitVec.toNat (addr k).v < 131072 ∧ BitVec.toNat (addr k).v % k = 0
       guardOf t w = Guard.yes ∧ ok 8)
    ∧ (let w : Word := syl 0 0 0 11 4 0 2
       let s : State := nth sts 2
       let u : State := settle Side.B 1 20 s
       let t : Tile := u.tile Side.B 1
       let addr : Nat → Pw := sylAddr t w
       let ok : Nat → Prop := fun k => (addr k).p = false ∧ BitVec.toNat (addr k).v < 131072 ∧ BitVec.toNat (addr k).v % k = 0
       guardOf t w = Guard.yes ∧ ok 32)
    ∧ (let w : Word := syl 1 0 0 14 1 3 0
       let s : State := nth sts 2
       let u : State := settle Side.B 1 20 s
       let t : Tile := u.tile Side.B 1
       let addr : Nat → Pw := sylAddr t w
       let e : (Side → Nat → Nat → Word → Instr) × Nat := (Instr.stb, 1)
       guardOf t w = Guard.yes ∧ (addr e.snd).p = true)
    ∧ (let w : Word := syl 0 0 0 10 1 2 0
       let s : State := nth sts 3
       let u : State := settle Side.B 1 20 s
       let t : Tile := u.tile Side.B 1
       let addr : Nat → Pw := sylAddr t w
       let e : (Side → Nat → Nat → Word → Instr) × Nat := (Instr.std, 8)
       guardOf t w = Guard.yes ∧ (addr e.snd).p = false ∧ (¬BitVec.toNat (addr e.snd).v < 131072 ∨ BitVec.toNat (addr e.snd).v % e.snd ≠ 0)) := by
  and_intros <;> decide +kernel

set_option maxRecDepth 200000 in
/-- The hypotheses of `TileStores` can be met, clause by clause. -/
theorem witness_TileStores :
    (let w : Word := syl 0 0 0 11 4 0 2
     let s : State := nth sts 2
     let addr : Nat → Pw := sylAddr (s.tile Side.B 1) w
     let ok : Nat → Prop := fun k => (addr k).p = false ∧ BitVec.toNat (addr k).v < 131072 ∧ BitVec.toNat (addr k).v % k = 0
     let e : (Side → Nat → Nat → Word → Instr) × Nat := (Instr.stb, 1)
     (s.tile Side.B 1).flight = [] ∧ guardOf (s.tile Side.B 1) w = Guard.yes ∧ ok e.snd)
    ∧ (let w : Word := syl 0 0 0 11 4 0 2
       let s : State := nth sts 2
       let addr : Nat → Pw := sylAddr (s.tile Side.A 1) w
       let ok : Nat → Prop := fun k => (addr k).p = false ∧ BitVec.toNat (addr k).v < 131072 ∧ BitVec.toNat (addr k).v % k = 0
       let e : (Side → Nat → Nat → Word → Instr) × Nat := (Instr.std, 8)
       (s.tile Side.A 1).flight = [] ∧ guardOf (s.tile Side.A 1) w = Guard.yes ∧ ok e.snd ∧ e.snd = 8)
    ∧ (let w : Word := syl 0 0 0 11 4 0 2
       let s : State := nth sts 2
       let addr : Nat → Pw := sylAddr (s.tile Side.B 1) w
       let ga : Nat → Nat := fun k => tileBase 1 + BitVec.toNat (addr k).v
       let ok : Nat → Prop := fun k => (addr k).p = false ∧ BitVec.toNat (addr k).v < 131072 ∧ BitVec.toNat (addr k).v % k = 0
       let e : (Side → Nat → Nat → Word → Instr) × Nat := (Instr.stb, 1)
       (s.tile Side.B 1).flight = [] ∧ guardOf (s.tile Side.B 1) w = Guard.yes ∧ ok e.snd ∧ 268967928 ≠ ga e.snd / 8 * 8)
    ∧ (let w : Word := syl 0 0 0 11 4 0 2
       let s : State := nth sts 0
       let addr : Nat → Pw := sylAddr (s.tile Side.B 1) w
       let ok : Nat → Prop := fun k => (addr k).p = false ∧ BitVec.toNat (addr k).v < 131072 ∧ BitVec.toNat (addr k).v % k = 0
       (s.tile Side.B 1).flight = [] ∧ guardOf (s.tile Side.B 1) w = Guard.yes ∧ ok 32)
    ∧ (let w : Word := syl 0 0 0 11 4 0 2
       let s : State := nth sts 2
       let addr : Nat → Pw := sylAddr (s.tile Side.B 1) w
       let ga : Nat → Nat := fun k => tileBase 1 + BitVec.toNat (addr k).v
       let ok : Nat → Prop := fun k => (addr k).p = false ∧ BitVec.toNat (addr k).v < 131072 ∧ BitVec.toNat (addr k).v % k = 0
       (s.tile Side.B 1).flight = [] ∧ guardOf (s.tile Side.B 1) w = Guard.yes ∧ ok 32 ∧ (256 < ga 32 ∨ ga 32 + 32 ≤ 256)) := by
  and_intros <;> decide +kernel

set_option maxRecDepth 200000 in
/-- The hypotheses of `TileGuards` can be met, clause by clause. -/
theorem witness_TileGuards :
    (let w : Word := syl 1 0 0 14 1 3 0
     let s : State := nth sts 1
     let u : State := settle Side.B 1 20 s
     let t : Tile := u.tile Side.B 1
     guardOf t w = Guard.no)
    ∧ (let w : Word := syl 3 0 1 2 4 0 0
       let s : State := nth sts 1
       let u : State := settle Side.A 1 20 s
       let t : Tile := u.tile Side.A 1
       let e : (Side → Nat → Nat → Word → Instr) × Nat := (Instr.stb, 1)
       let a : Pw := sylAddr t w e.snd
       let ok : Prop := a.p = false ∧ BitVec.toNat a.v < 131072 ∧ BitVec.toNat a.v % e.snd = 0
       guardOf t w = Guard.poison ∧ ok)
    ∧ (let w : Word := syl 3 0 0 2 8 9 0
       let s : State := nth sts 2
       let u : State := settle Side.B 1 20 s
       let t : Tile := u.tile Side.B 1
       let e : (Side → Nat → Nat → Word → Instr) × Nat := (Instr.stb, 1)
       let a : Pw := sylAddr t w e.snd
       let ok : Prop := a.p = false ∧ BitVec.toNat a.v < 131072 ∧ BitVec.toNat a.v % e.snd = 0
       guardOf t w = Guard.poison ∧ ¬ok) := by
  and_intros <;> decide +kernel

set_option maxRecDepth 200000 in
/-- The hypotheses of `ResultsLand` can be met, clause by clause. -/
theorem witness_ResultsLand :
    (let s : State := nth sts 2; (s.tile Side.A 1).flight = [])
    ∧ (let s : State := nth sts 2; (s.tile Side.B 1).flight = []) := by
  and_intros <;> decide +kernel

set_option maxRecDepth 200000 in
/-- The hypotheses of `TilePrograms` can be met, clause by clause. -/
theorem witness_TilePrograms :
    (let w : Word := 536870912
     let s : State := nth prgs 3
     let u : State := settle Side.B 1 2000 s
     let t : Tile := u.tile Side.B 1
     guardOf t w = Guard.yes ∧ sylA w < 9)
    ∧ (let s : State := nth prgs 3; let u : State := settle Side.B 1 2000 s; let t : Tile := u.tile Side.B 1; t.loops.length < 2)
    ∧ (let r : TileRec := (tileRec (im prog1) 1).getD { }
       let s : State := nth prgs 0
       let m : Tab Byte := (s.ld Side.A).fmn.img
       entryFor (s.ld Side.A).fmn (128 + 1) 1 (some 0) (some 2000) = some 0 ∧ tileRec m 1 = some r ∧ 0 < r.entries ∧ (s.tile Side.A 1).left = 0 ∧
           (s.tile Side.A 1).flight = [])
    ∧ (let s : State := nth prgs 2
       0 ∈ (s.ld Side.A).fmn.open_ ∧ ((dispatches (s.ld Side.A).fmn.img (s.ld Side.A).fmn.pattern).getD 0 { }).unit = 128 + 1 ∧ 2 ≤ contractCycle
           (s.ld Side.A).fmn 0) := by
  and_intros <;> decide +kernel

end C04

/-! ### Chapter 04 -/

namespace C05
def linkB (nsub dmax interval mask : Nat) : List Byte :=
  w 1 1 ++ w 1 nsub ++ w 2 0 ++ w 4 dmax ++ w 4 interval ++ [1, 2, 1, 2, 1] ++ w 1 0 ++ w 2 mask ++ w 4 0x7F800000 ++ w 4 0x7F800000
/-- Links 3 and 4, one channel (49) with two stages, two schedule entries. -/
def schPart : Piece :=
  let base := 0x210 + 64
  (base + 60, [(0, w 2 1 ++ w 2 1 ++ w 2 2), (16 + 96, linkB 40 100 2 0x6), (16 + 128, linkB 40 100 2 0xFFFF),
    (0x210, w 2 49 ++ w 1 2 ++ w 1 0 ++ w 1 0 ++ w 1 0 ++ w 2 0 ++ (w 2 0 ++ w 2 3 ++ w 1 2 ++ w 1 1 ++ w 2 1) ++
      (w 2 0 ++ w 2 3 ++ w 1 1 ++ w 1 0 ++ w 2 1)), (0x210 + 0x3C, w 4 0x80),
    (base, w 4 (base + 8 + 16) ++ w 4 3 ++ (w 4 (base + 24 + 12) ++ w 4 1 ++ w 4 (base + 24 + 16) ++ w 4 1) ++ w 4 0x400000 ++
      w 4 0xC00001 ++ w 4 0x7FFFFF ++ w 4 0 ++ w 4 (4 * 65536))])
def img : Tab Byte := mkImg 0 3 10 [(1, patSec 8 [disp 2000 3 1 0, disp 2001 3 1 1, disp 2002 3 1 2]), (5, engSec [(3, schPart)]), noPats]
/-- A sound uplink frame. -/
def frame (seq x : Nat) : List Byte :=
  let b := w 1 seq ++ (List.replicate 16 (w 3 x)).flatten ++ w 2 0 ++ w 1 0 ++ w 1 0 ++ w 2 0x1234
  [0xA5] ++ b ++ w 2 (crcRef 0x8408 b 0xFFFF)
def blk : List Byte := List.replicate 256 1
def up : SchLink := { state := 1, goods := 70, m := 50, expect := some 5, rx := some (frame 4 99), block := blk }
def dn : SchLink := { state := 0, goods := 0, bads := 3, m := 50 }
def mid : SchLink := { up with filling := true, runAt := 10, m := 80, chan := 1, zSum := 5, spanSum := 7 }
def ls (k j : SchLink) (s : State) : State :=
  let s := withImg img s
  { s with
    a := { s.a with sch := { s.a.sch with start := 900, links := [(3, k), (4, j)] } },
    b := { s.b with sch := { s.b.sch with start := 900, links := [(3, j), (4, k)] } } }
def ch49 : SchChan := {
  streams := [(0, { count := 9, hist := [(2147483647, 0), (5, 1), (-2147483648, 0), (7, 0), (8, 0), (9, 0), (10, 0), (11, 0), (12, 0)] }),
    (1, { count := 4, hist := [(3, 0), (4, 0), (5, 0)] })],
  outN := some 13, user := some (1, 2, 77) }
def sts : List State := [up1, withImg img up1, ls up dn up1, ls mid up up1, ls dn dn up1,
  ls { mid with m := 50, runAt := 50, refHold := false } { mid with void := true } up1,
  ls { mid with done := true } { up with refHold := true } up1, ls { up with bypassed := true, expect := none } { mid with m := 10000 } up1,
  both (fun l => { l with sch := { l.sch with links := [(3, dn)], chans := [(5, { outN := some 3 }), (49, ch49)] } }) (withImg img up1),
  { ls up up up1 with arb := { adrift := true } },
  ls { up with m := 4004, expect := some 6 } { up with m := 4004, expect := none } up1]
def st1 (s : State) : State := both (fun l => { l with sch := { l.sch with links := [(3, { state := 1, filling := true }), (4, { state := 1, bypassed := true })] } }) s
def cmds : List State := [State.reset, up1, st1 up1, { st1 up1 with mode := 1 },
  both (fun l => { l with sch := { l.sch with links := [(3, { state := 1, filling := true })], frozen := [(2, true)] } }) up1]

set_option maxRecDepth 200000 in
/-- The hypotheses of `ChainAndCalibration` can be met, clause by clause. -/
theorem witness_ChainAndCalibration :
    (let s : State := nth sts 1
     let m : Tab Byte := (s.ld Side.A).fmn.img
     (entryFor (s.ld Side.A).fmn 3 1 (some 2) none).isSome = true ∧ stepList m 2 = [])
    ∧ (let s : State := nth sts 6
       let m : Tab Byte := (s.ld Side.B).fmn.img
       let d : Nat := chanDesc m (0 % 65536)
       let k : Nat := le m d 2
       let kind : Nat := 0 / 65536 % 8
       (entryFor (s.ld Side.B).fmn 3 1 (some 0) none).isSome = true ∧ stepList m 0 = [0] ∧ 0 % 65536 < (schCounts m).fst ∧ kind ≠ 4 ∧ kind <
           stageCount m d ∧ 5 ≠ k)
    ∧ (let s : State := nth sts 8
       let m : Tab Byte := (s.ld Side.A).fmn.img
       let d : Nat := chanDesc m (262144 % 65536)
       let k : Nat := le m d 2
       let ch : SchChan := (s.ld Side.A).chan k
       let kind : Nat := 262144 / 65536 % 8
       (entryFor (s.ld Side.A).fmn 3 1 (some 1) none).isSome = true ∧ stepList m 1 = [262144] ∧ 262144 % 65536 < (schCounts m).fst ∧ kind = 4 ∧
           ((s.ld Side.A).link (k / 16)).state ≠ 1 ∧ ((s.ld Side.A).link (k / 16)).bypassed = false ∧ le m (d + 60) 4 + 64 ≤ 16384 ∧ le m (d + 60)
           4 % 8 = 0 ∧ ch.user = some (1, 2, 77) ∧ ch.nextLive = none)
    ∧ (let s : State := nth sts 9
       let k : SchLink := (s.ld Side.A).link 4
       let d : LinkDesc := linkOf (s.ld Side.A).fmn 4
       let since : Nat := (s.ld Side.A).fmn.crossing - (s.ld Side.A).sch.start
       (s.ld Side.A).fmn.running = true ∧ d.interval ≠ 0 ∧ since % d.interval = 0 ∧ blockRefs k.block = true ∧ nextInMask d.mask k.nextChan = some
           0 ∧ k.state = 1 ∧ k.bypassed = false ∧ bitOf k.health 1 = false ∧ k.filling = false)
    ∧ (let s : State := nth sts 3
       let k : SchLink := (s.ld Side.B).link 4
       let d : LinkDesc := linkOf (s.ld Side.B).fmn 4
       k.filling = true ∧ k.void = false ∧ k.done = false ∧ k.runAt + d.sa + d.nz + d.sb + d.nr < k.m)
    ∧ (let s : State := nth sts 3; let k : SchLink := (s.ld Side.B).link 3; k.filling = false ∨ k.done = true)
    ∧ (let s : State := nth sts 6
       s.activeSide = some Side.A ∧ (s.ld Side.A).fmn.running = true ∧ (linkOf (s.ld Side.A).fmn 4).nsub ≠ 0 ∧ 2400 ≤ (advance 5000100000
           s).cycleNow % max 1 (s.tick.period / 10) ∧ s.passes Side.A = true ∧ s.arb.adrift = false)
    ∧ (let s : State := nth sts 6
       let k : SchLink := (s.ld Side.A).link 4
       s.activeSide = some Side.A ∧ (s.ld Side.A).fmn.running = true ∧ (linkOf (s.ld Side.A).fmn 4).nsub ≠ 0 ∧ 2400 ≤ (advance 5000100000
           s).cycleNow % max 1 (s.tick.period / 10) ∧ s.passes Side.A = true ∧ s.arb.adrift = false ∧ (k.refHold = true ∨ k.refOff = true))
    ∧ (let s : State := nth sts 8
       let k : SchLink := (s.ld Side.A).link 3
       s.activeSide = some Side.A ∧ (s.ld Side.A).fmn.running = true ∧ (linkOf (s.ld Side.A).fmn 3).nsub ≠ 0 ∧ 2400 ≤ (advance 5000200000
           s).cycleNow % max 1 (s.tick.period / 10) ∧ s.passes Side.A = true ∧ s.arb.adrift = false ∧ k.refHold = false ∧ k.refOff = false ∧
           k.filling = false)
    ∧ (let s : State := nth sts 5
       let k : SchLink := (s.ld Side.A).link 4
       s.activeSide = some Side.A ∧ (s.ld Side.A).fmn.running = true ∧ (linkOf (s.ld Side.A).fmn 4).nsub ≠ 0 ∧ 2400 ≤ (advance 5000200000
           s).cycleNow % max 1 (s.tick.period / 10) ∧ s.passes Side.A = true ∧ s.arb.adrift = false ∧ k.refHold = false ∧ k.refOff = false ∧
           k.filling = true ∧ k.chan < 16) := by
  and_intros <;> decide +kernel

set_option maxRecDepth 200000 in
/-- The hypotheses of `ChainCommands` can be met, clause by clause. -/
theorem witness_ChainCommands :
    (let s : State := nth cmds 4
     hd.may 2 [1, 2, 3, 4, 5] s ∧ ((s.ld s.lead).link 3).state ≠ 0 ∧ ((s.ld s.lead).link 3).bypassed = false ∧ (∀ (m : Nat), m < 16 → m ≠ 3 →
         ((s.ld s.lead).link m).bypassed = false) ∧ ((s.ld Side.A).link 3).filling = true)
    ∧ (let s : State := nth cmds 4
       hd.may 2 [1, 2, 3, 4, 5] s ∧ ((s.ld s.lead).link 3).state ≠ 0 ∧ ((s.ld s.lead).link 3).bypassed = false ∧ ∀ (m : Nat), m < 16 → m ≠ 3 →
           ((s.ld s.lead).link m).bypassed = false)
    ∧ (let s : State := nth cmds 2; hd.may 2 [1, 2, 3, 4, 5] s ∧ ((s.ld s.lead).link 4).bypassed = true)
    ∧ (let s : State := nth cmds 3; hd.may 2 [1, 2, 5] s)
    ∧ (let s : State := nth cmds 3; hd.may 1 [1, 2, 3, 4, 5] s) := by
  and_intros <;> decide +kernel

set_option maxRecDepth 200000 in
/-- The hypotheses of `FramesJudgedAndAgreed` can be met, clause by clause. -/
theorem witness_FramesJudgedAndAgreed :
    (let fa : Option (List Byte) := none
     let fb : Option (List Byte) := some (frame 5 100)
     let s : State := nth sts 10
     let f : Option (List Byte) := if Side.B = Side.A then fa else fb
     let k : SchLink := (s.ld Side.B).link 4
     let edge : Nat → Int := fun m => (advance 5000110000 s).syncEdge Side.B 4 m
     let now : Int := ↑(advance 5000110000 s).nowNs
     let good : List Byte → Prop := fun b => frameSound b = true ∧ edge k.m + 500 + 4640 ≤ now ∧ now + 200 ≤ edge (k.m + 1)
     Option.any (fun b => decide (good b)) f = true)
    ∧ (let fa : Option (List Byte) := some [1, 2, 3]
       let fb : Option (List Byte) := some [1, 2, 3]
       let s : State := nth sts 9
       let f : Option (List Byte) := if Side.B = Side.A then fa else fb
       let k : SchLink := (s.ld Side.B).link 3
       let edge : Nat → Int := fun m => (advance 5000200000 s).syncEdge Side.B 3 m
       let now : Int := ↑(advance 5000200000 s).nowNs
       let good : List Byte → Prop := fun b => frameSound b = true ∧ edge k.m + 500 + 4640 ≤ now ∧ now + 200 ≤ edge (k.m + 1)
       ∀ (b : List Byte), f = some b → ¬good b)
    ∧ (let s : State := nth sts 5
       let k : SchLink := (s.ld Side.B).link 3
       let own : Option (List Byte) := k.rx
       let other : Option (List Byte) := ((s.ld Side.B.other).link 3).rx
       (linkOf (s.ld Side.B).fmn 3).nsub ≠ 0 ∧ (s.ld Side.B).fmn.running = true ∧ (own ≠ none ∨ other ≠ none))
    ∧ (let s : State := nth sts 4
       let k : SchLink := (s.ld Side.A).link 3
       let own : Option (List Byte) := k.rx
       let other : Option (List Byte) := ((s.ld Side.A.other).link 3).rx
       (linkOf (s.ld Side.A).fmn 3).nsub ≠ 0 ∧ (s.ld Side.A).fmn.running = true ∧ own = none ∧ other = none)
    ∧ (let s : State := nth sts 5; (linkOf (s.ld Side.B).fmn 3).nsub ≠ 0 ∧ (s.ld Side.B).fmn.running = true)
    ∧ (let s : State := nth sts 0; (linkOf (s.ld Side.B).fmn 3).nsub = 0 ∨ (s.ld Side.B).fmn.running = false) := by
  and_intros <;> decide +kernel

end C05

/-! ### Chapter 05 -/

namespace C06
def gnsPart : Piece := padP 0x60 ([0x1F, 0x07, 0, 0] ++ w 4 40930000 ++ w 4 40930000 ++ w 4 0 ++ w 4 0 ++ [3, 1, 0, 0] ++ w 4 100000 ++
  w 4 200000 ++ w 4 500 ++ w 4 0xFFFFFF00 ++ pad 16 [] ++ w 4 0x42C80000 ++ w 4 0x42C80000 ++ w 4 0x3F800000 ++ w 4 0x3F800000 ++
  w 4 0x40000000)
def img : Tab Byte := mkImg 0 1 10 [(1, patSec 8 [disp 1600 4 1 0, disp 1700 4 2 0, disp 1710 4 2 1, disp 1720 4 2 2, disp 1800 4 3 0]), (5, engSec [(4, gnsPart)]), noPats]
def d1 : List Byte := pad 32 (w 1 3 ++ w 1 2 ++ w 2 0x57 ++ [1, 0, 5, 1] ++ w 4 1234567 ++ w 4 0x1333333 ++ w 4 0 ++ w 4 99 ++ [32, 64])
def d2 : List Byte := pad 32 (w 1 3 ++ w 1 2 ++ w 2 0x3 ++ [1, 0, 5, 1] ++ w 4 1234567 ++ w 4 0x1333333)
def d3 : List Byte := pad 32 (w 1 1 ++ w 1 0 ++ w 2 0x2 ++ [1, 0, 5, 1] ++ w 4 1234567 ++ w 4 0x1333333)
/-- A time-solution input. -/
def tsolB (t off ns fl flags : Nat) : List Byte :=
  pad 128 (pad 0x40 (w 8 t) ++ w 8 off ++ w 4 ns ++ pad 16 [] ++ w 4 fl ++ w 4 0 ++ w 2 flags)
def h1 : GnsHalf := { mode := 1, carRate := 0x10000000, carPhase := 0xF0000000, codeRate := 0x1333333, codePhase := 5,
                      sums := List.replicate 10 3, k := 1, eff := 1, prn := 5 }
def halves : Tab GnsHalf := [(2, h1), (3, { h1 with waiting := [d3] }), (7, { h1 with armed := [d3] }), (132, { h1 with mode := 2, eff := 2 }),
  (135, { h1 with mode := 0, eff := 0 })]
def base (st : Steer) (an : GnsAnt) (ts : List Byte) (s : State) : State := withImg img (both (fun l => { l with
  mem := runs [(0x3004D000, d1), (0x3004D020, d2), (0x3004D040, d3), (0x3004D800, ts)],
  gns := { steer := st, ants := [(0, an), (1, { an with mark := 5 })], halves := halves,
           pos := [(0, (List.range 128).map (fun k => BitVec.ofNat 8 k))] } }) s)
def an1 : GnsAnt := { mark := 20, prev := 12, clk := true, fracU := 20, fracL := 80 }
def lock : Steer := { state := 1, o := 5, t := 4999000000, lastAcc := 4999000000, label := some 5, stepNext := false, r := 0 }
def ts0 : List Byte := tsolB 4999000000 77 0x3F000000 0x3F000000 1
/-- A magnitude second that started 100 ms before; landing A's upper fraction out of its range since instant `o` (plus 1; 0 for none). -/
def magS (o : Nat) : State :=
  let s := base {} an1 ts0 up1
  { s with
    a := { s.a with gns := { s.a.gns with magStart := 4900000000, ants := [(0, { an1 with outU := o, outL := 4999000000 })] } },
    b := { s.b with gns := { s.b.gns with magStart := 4900000000 } } }
def sts : List State := [base {} an1 ts0 up1,
  base lock { an1 with fracU := 80, skip := true } (tsolB 4999000000 500000 0x3F000000 0x3F000000 1) up1,
  { base { lock with t := 1, lastAcc := 1000, label := some 4 } { an1 with off := true, excess := true } (tsolB 4999000000 77 0x3F000000 0x3F000000 5)
      up1 with tp := { word := pad 24 (w 8 4999000000 ++ w 8 4), driven := [(0, 2)] } },
  { base { state := 2, o := 5, t := 1, lastAcc := 1000, sigma := 0x40000000 } { an1 with wasOff := true } ts0 up1 with
    tp := { word := pad 24 (w 8 4999000000 ++ w 8 4), driven := [(0, 5)] }, aid := { next := some 0 } },
  let b := base { state := 0, run := 0 } {} (tsolB 4999000000 77 0x3F000000 0x43000000 1) up1
  { b with
    a := { b.a with
      syn := [(0x3004D008 / 8, 0xA7), (0x3004D800 / 8, 0xA7)], gns := { b.a.gns with pos := [] },
      fmn := { b.a.fmn with running := false }, flash := [(0x10, 5), (0x63FF0000, 1)] },
    aid := { next := some 64, saves := [{ part := 1, queue := 2, seq := 5, op := 0x403 }] } },
  both (fun l => { l with syn := [(0x3004D008 / 8, 0xA7)] }) (base {} an1 ts0 up1),
  magS 1, magS 0, withImg img { up1 with mode := 1 }, up1]

set_option maxRecDepth 200000 in
/-- The hypotheses of `GnssCorrelates` can be met, clause by clause. -/
theorem witness_GnssCorrelates :
    (let s : State := nth sts 3
     let h : GnsHalf := Tab.get { } (s.ld Side.B).gns.halves 0
     (entryFor (s.ld Side.B).fmn 4 1 none none).isSome = true ∧ h.armed = [] ∧ h.mode = 0)
    ∧ (let s : State := nth sts 6
       let h : GnsHalf := Tab.get { } (s.ld Side.B).gns.halves 2
       (entryFor (s.ld Side.B).fmn 4 1 none none).isSome = true ∧ h.armed = [] ∧ h.mode ≠ 0 ∧ h.waiting = [])
    ∧ (let s : State := nth sts 5
       Option.any (fun k => decide (
           let r : List Pw × State := memReadN Side.A (805621760 + 32 * (0 % 64)) 4 (markIssued Side.A k (advance 0 s))
           (r.fst.any fun w => w.p) = true)) (entryFor (s.ld Side.A).fmn 4 2 (some 0) none) = true)
    ∧ (let s : State := nth sts 3
       Option.any (fun k => decide (
           let r : List Pw × State := memReadN Side.B (805621760 + 32 * (0 % 64)) 4 (markIssued Side.B k (advance 5900000000 s))
           let d : List Byte := ofWords r.fst
           let i : Nat := 128 * (dFld d 1 1 / 2 % 2) + 2 * (dFld d 0 1 % 64) + dFld d 1 1 % 2
           let h : GnsHalf := Tab.get { } (s.ld Side.B).gns.halves i
           (r.fst.any fun w => w.p) = false ∧ gnsWriteOk (s.ld Side.B).fmn.img d h.eff = false)) (entryFor (s.ld Side.B).fmn 4 2 (some 0) none) =
               true)
    ∧ (let s : State := nth sts 4
       Option.any (fun k => decide (
           let r : List Pw × State := memReadN Side.B (805621760 + 32 * (2 % 64)) 4 (markIssued Side.B k (advance 5900000000 s))
           let d : List Byte := ofWords r.fst
           let i : Nat := 128 * (dFld d 1 1 / 2 % 2) + 2 * (dFld d 0 1 % 64) + dFld d 1 1 % 2
           let h : GnsHalf := Tab.get { } (s.ld Side.B).gns.halves i
           (r.fst.any fun w => w.p) = false ∧ gnsWriteOk (s.ld Side.B).fmn.img d h.eff = true ∧ 6 ≠ i)) (entryFor (s.ld Side.B).fmn 4 2 (some 2)
               none) = true) := by
  and_intros <;> decide +kernel

set_option maxRecDepth 200000 in
/-- The hypotheses of `GnssTimeAndAiding` can be met, clause by clause. -/
theorem witness_GnssTimeAndAiding :
    (let s : State := nth sts 7
     let m : Tab Byte := (s.ld Side.A).fmn.img
     let k : Steer := (s.ld Side.A).gns.steer
     Option.any (fun e => decide (
         let r : List Pw × State := memReadN Side.A 805623808 16 (markIssued Side.A e (advance 5000200000 s))
         let d : List Byte := ofWords r.fst
         let usable : Prop := (r.fst.any fun w => w.p) = false ∧ bitOf (dFld d 100 2) 0 = true ∧ bitOf (dFld d 100 2) 2 = false ∧ F32.le
             (BitVec.ofNat 32 (dFld d 92 4)) (cfg32 m 60) = true
         usable ∧ k.state = 0 ∧ k.run = 0)) (entryFor (s.ld Side.A).fmn 4 3 none none) = true)
    ∧ (let s : State := nth sts 8
       let m : Tab Byte := (s.ld Side.A).fmn.img
       Option.any (fun e => decide (
           let r : List Pw × State := memReadN Side.A 805623808 16 (markIssued Side.A e (advance 5900000000 s))
           let d : List Byte := ofWords r.fst
           let usable : Prop := (r.fst.any fun w => w.p) = false ∧ bitOf (dFld d 100 2) 0 = true ∧ bitOf (dFld d 100 2) 2 = false ∧ F32.le
               (BitVec.ofNat 32 (dFld d 92 4)) (cfg32 m 60) = true
           ¬usable)) (entryFor (s.ld Side.A).fmn 4 3 none none) = true)
    ∧ (let s : State := nth sts 1
       let m : Tab Byte := (s.ld Side.A).fmn.img
       let k : Steer := (s.ld Side.A).gns.steer
       Option.any (fun e => decide (
           let r : List Pw × State := memReadN Side.A 805623808 16 (markIssued Side.A e (advance 5900000000 s))
           let d : List Byte := ofWords r.fst
           let y : Int := sval 64 (dFld d 64 8) * 2 ^ 32 + toOff (F32.widen (BitVec.ofNat 32 (dFld d 72 4)))
           let usable : Prop := (r.fst.any fun w => w.p) = false ∧ bitOf (dFld d 100 2) 0 = true ∧ bitOf (dFld d 100 2) 2 = false ∧ F32.le
               (BitVec.ofNat 32 (dFld d 92 4)) (cfg32 m 60) = true
           usable ∧ k.state = 1 ∧ inGate m (y - carryOff k.o k.r k.t (dFld d 0 8)) = false)) (entryFor (s.ld Side.A).fmn 4 3 none none) = true)
    ∧ (let s : State := nth sts 1
       let m : Tab Byte := (s.ld Side.A).fmn.img
       let k : Steer := (s.ld Side.A).gns.steer
       let now : Nat := (s.grid Side.A).last / nsUnit
       (enginePart m 4).isSome = true ∧ (s.ld Side.A).fmn.running = true ∧ k.state = 1 ∧ k.stepNext = false ∧ k.label = some 5 ∧ ↑now * 2 ^ 32 <
           (↑5 + 1) * secOff + k.o - secOff / 5)
    ∧ (let s : State := nth sts 2
       let m : Tab Byte := (s.ld Side.B).fmn.img
       let k : Steer := (s.ld Side.B).gns.steer
       let now : Nat := (s.grid Side.B).last / nsUnit
       (enginePart m 4).isSome = true ∧ (s.ld Side.B).fmn.running = true ∧ k.state = 1 ∧ k.stepNext = false ∧ k.label = some 4 ∧ (↑4 + 1) * secOff
           + k.o - secOff / 5 ≤ ↑now * 2 ^ 32)
    ∧ (let s : State := nth sts 3
       let now : Nat := (advance 5900000000 s).nowNs
       let g : Nat → Nat → Nat := gnsCfg (s.ld s.lead).fmn.img
       let w : List Byte := s.tp.word
       let e : Int := sval 64 (dFld w 0 8) + sval 32 (g (32 + 4 * 0) 4)
       w ≠ [] ∧ bitOf (g (20 + 0) 1) 0 = true ∧ bitOf (dFld w 21 1) 3 = false ∧ (↑now < e ∨ Tab.get 0 s.tp.driven 0 = dFld w 8 8 + 1))
    ∧ (let s : State := nth sts 2
       let now : Nat := (advance 5900000000 s).nowNs
       let g : Nat → Nat → Nat := gnsCfg (s.ld s.lead).fmn.img
       let w : List Byte := s.tp.word
       let e : Int := sval 64 (dFld w 0 8) + sval 32 (g (32 + 4 * 0) 4)
       w ≠ [] ∧ bitOf (g (20 + 0) 1) 0 = true ∧ bitOf (dFld w 21 1) 3 = false ∧ e ≤ ↑now ∧ 0 ≤ e ∧ Tab.get 0 s.tp.driven 0 ≠ dFld w 8 8 + 1)
    ∧ (let s : State := nth sts 2
       let now : Nat := (advance 5900000000 s).nowNs
       let k : Steer := (s.ld Side.B).gns.steer
       k.state = 1 ∧ k.lastAcc + 2000000000 ≤ now)
    ∧ (let s : State := nth sts 3
       let now : Nat := (advance 5900000000 s).nowNs
       let k : Steer := (s.ld Side.A).gns.steer
       now < k.lastAcc + 2000000000 ∨ k.state = 0 ∨ k.state = 2)
    ∧ (let s : State := nth sts 3
       let now : Nat := (advance 5900000000 s).nowNs
       let m : Tab Byte := (s.ld Side.A).fmn.img
       let k : Steer := (s.ld Side.A).gns.steer
       k.state = 2 ∧ k.limitHit = false ∧ (cfg32 m 72).widen.lt (holdEstimate m k now) = true)
    ∧ (let s : State := nth sts 1
       let now : Nat := (advance 5900000000 s).nowNs
       let m : Tab Byte := (s.ld Side.A).fmn.img
       let k : Steer := (s.ld Side.A).gns.steer
       k.state ≠ 2 ∨ k.limitHit = true ∨ (cfg32 m 72).widen.lt (holdEstimate m k now) = false)
    ∧ (let s : State := nth sts 7
       let now : Nat := (advance 5000200000 s).nowNs
       let since : Side → Nat := fun y => if 0 = 0 then ((s.ld y).gns.ant 0).outU else ((s.ld y).gns.ant 0).outL
       let due : Side → Prop := fun y => (s.ld y).fmn.running = true ∧ gnsAntBit (s.ld y).fmn.img 0 (1 + 0) = true ∧ since y ≠ 0 ∧ since y - 1 +
           1000000000 ≤ now
       (∀ (y : Side), now < (s.ld y).gns.magStart + 1000000000) ∧ ¬due Side.A ∧ ¬due Side.B)
    ∧ (let s : State := nth sts 6
       let now : Nat := (advance 0 s).nowNs
       let since : Side → Nat := fun y => if 0 = 0 then ((s.ld y).gns.ant 0).outU else ((s.ld y).gns.ant 0).outL
       let due : Side → Prop := fun y => (s.ld y).fmn.running = true ∧ gnsAntBit (s.ld y).fmn.img 0 (1 + 0) = true ∧ since y ≠ 0 ∧ since y - 1 +
           1000000000 ≤ now
       (∀ (y : Side), now < (s.ld y).gns.magStart + 1000000000) ∧ due Side.A ∧ ¬due Side.A.other)
    ∧ (let s : State := nth sts 2
       let now : Nat := (advance 5900000000 s).nowNs
       (s.ld Side.B).fmn.running = true ∧ (s.ld Side.B).gns.magStart + 1000000000 ≤ now)
    ∧ (let s : State := nth sts 9; s.aid.next = none)
    ∧ (let s : State := nth sts 3; s.aid.next.isSome = true)
    ∧ (let s : State := nth sts 3; s.mode ≠ 0)
    ∧ (let s : State := nth sts 4
       let g : Gns := (s.ld s.lead).gns
       let p : List Byte := if Tab.get [] g.pos 0 = [] then Tab.get [] g.pos 1 else Tab.get [] g.pos 0
       p = [])
    ∧ (let s : State := nth sts 3
       let g : Gns := (s.ld s.lead).gns
       let p : List Byte := if Tab.get [] g.pos 0 = [] then Tab.get [] g.pos 1 else Tab.get [] g.pos 0
       p.length = 128 ∧ (96 < 32 ∨ 96 ≤ 96))
    ∧ (let s : State := nth sts 3; hd.may 2 [1, 2, 3, 4, 5] s ∧ (2 ≤ s.mode ∧ s.mode ≤ 4 → ((s.ld s.lead).gns.ant (1 - 0)).off = false))
    ∧ (let s : State := nth sts 3; hd.may 1 [1, 2, 3, 4, 5] s)
    ∧ (let s : State := nth sts 8; hd.may 2 [1, 5] s) := by
  and_intros <;> first
    | decide +kernel
    | ((try dsimp only [onLanding]) <;> and_intros <;> first
         | decide +kernel
         | exact Or.inl rfl
         | exact ⟨.A, by decide +kernel⟩
         | exact ⟨.B, by decide +kernel⟩
         | exact Or.inr ⟨_, rfl, by decide +kernel⟩
         | exact fun ⟨_, e⟩ => by cases e
         | (intro x; cases x <;> decide +kernel))

end C06

/-! ### Chapter 06 -/

namespace C07
def sd (n k base grp : Nat) : Piece := padP 64 (w 1 n ++ w 1 k ++ w 1 base ++ w 1 grp ++ w 8 0 ++ w 4 100000 ++ w 4 100000)
def fusPart : Piece := cat [padP 128 (pad 0x20 (w 4 5000 ++ w 4 0 ++ w 8 0x3FF0000000000000) ++
    (List.replicate 9 (w 4 0x3F800000)).flatten ++ List.replicate 12 0 ++ w 2 2 ++ w 1 1 ++ w 1 3), sd 7 5 0 0, sd 9 1 2 1, sd 11 2 1 3]
def img : Tab Byte := mkImg 0 1 10 [(1, patSec 8 [disp 1600 5 1 0, disp 1610 5 1 1, disp 1620 5 1 2, disp 1630 5 1 3, disp 1700 5 2 0]), (5, engSec [(5, fusPart)]), noPats]
def ent (n t a : Nat) : List Byte := w 1 n ++ w 7 0 ++ w 8 t ++ w 8 a ++ w 8 0x3FF0000000000000 ++ w 8 0x4000000000000000 ++ w 8 0 ++
  w 4 0x3F800000 ++ w 4 0x3F800000 ++ w 4 0x3F800000
def base (f : Fus) (syn : List Host.Cell) (s : State) : State := withImg img (both (fun l => { l with
  syn := syn, fus := f,
  mem := runs [(0x30053000, ent 7 4999900000 4999950000), (0x30053040, ent 0xFF 1 1), (0x30053080, ent 9 4999900000 4999950000),
    (0x300530C0, ent 33 5 6)] }) s)
def f0 : Fus := { start := 960, closed := some 0 }
def sts : List State := [base f0 [] up1,
  base { f0 with
    streams := [(7, { excl := 2, hist := [{ t := 4999900000, stamp := 4999900000, objs := [(0, [1], [2])] }] })], cmds := [.exclude 9] } [] up1,
  base { f0 with
    streams := [(7, { adrift := true, excl := 2 })], cmds := [.exclude 7], levels := [4, 0, 1], level := 4 }
    [(0x30053000 / 8 + 1, 0xA7)] up1,
  base { f0 with
    cmds := [.exclude 33], levels := List.replicate 20 0, level := 0, posInit := true, headInit := true }
    [(0x30052000 / 8, 0xA7)] { up1 with mode := 1 },
  up1]
def smp : FusSample := { t := 4999900000, a := 4999950000, stamp := 4999900000, objs := [(0, [0x3FF0000000000000, 0x4000000000000000, 0], [0x3F800000, 0x3F800000, 0x3F800000])] }

set_option maxRecDepth 200000 in
/-- The hypotheses of `FusionEpochs` can be met, clause by clause. -/
theorem witness_FusionEpochs :
    (let s : State := nth sts 2
     Option.any (fun e => decide (
         let a : Nat := 805646336 + 64 * (1 % 64)
         let r : List Pw × State := memReadN Side.B a 8 (markIssued Side.B e (advance 0 s))
         let b : List Byte := ofWords r.fst
         let fld : Nat → Nat → Nat := fun o n => ofLe (List.take n (List.drop o b))
         let n : Nat := fld 0 1
         n = 255)) (entryFor (s.ld Side.B).fmn 5 1 (some 1) none) = true)
    ∧ (let s : State := nth sts 2
       Option.any (fun e => decide (
           let a : Nat := 805646336 + 64 * (0 % 64)
           let r : List Pw × State := memReadN Side.B a 8 (markIssued Side.B e (advance 5000200000 s))
           let b : List Byte := ofWords r.fst
           let fld : Nat → Nat → Nat := fun o n => ofLe (List.take n (List.drop o b))
           let n : Nat := fld 0 1
           n ≠ 255 ∧ (r.fst.any fun w => w.p) = true)) (entryFor (s.ld Side.B).fmn 5 1 (some 0) none) = true)
    ∧ (let s : State := nth sts 3
       Option.any (fun e => decide (
           let a : Nat := 805646336 + 64 * (0 % 64)
           let r : List Pw × State := memReadN Side.B a 8 (markIssued Side.B e (advance 5000200000 s))
           let b : List Byte := ofWords r.fst
           let fld : Nat → Nat → Nat := fun o n => ofLe (List.take n (List.drop o b))
           let n : Nat := fld 0 1
           let m : Tab Byte := (s.ld Side.B).fmn.img
           n ≠ 255 ∧ (r.fst.any fun w => w.p) = false ∧ fusDesc m n = some 320 ∧ dBase m 320 = 0 ∧ dKind m 320 = 5 ∧ fld 1 1 = 0 ∧ fld 2 2 < 2 ∧
               fld 4 4 = 0 ∧ fld 60 4 = 0 ∧ sigmaOk (BitVec.ofNat 32 (fld 48 4)) = true ∧ ((s.ld Side.B).fus.stream n).adrift = false ∧ fld 8 8 ≤
               fld 16 8 ∧ fusTau (advance 5000200000 s) Side.B (↑(s.ld Side.B).fus.window - 1) < ↑(fld 8 8) ∧ 9 ≠ n)) (entryFor (s.ld Side.B).fmn
               5 1 (some 0) none) = true)
    ∧ (let s : State := nth sts 1; let l : Landing := s.ld Side.A; (entryFor l.fmn 5 2 none none).isSome = true ∧ l.fus.cmds = [FusCmd.exclude 9]) := by
  and_intros <;> decide +kernel

set_option maxRecDepth 200000 in
/-- The hypotheses of `FusionCommands` can be met, clause by clause. -/
theorem witness_FusionCommands :
    (let s : State := nth sts 1
     let f : FusStream := (s.ld s.lead).fus.stream 7
     hd.may 1 [1, 2, 3, 4, 5] s ∧ streamKnown s 7 = true ∧ f.excl ≠ 0 ∧ f.adrift = false)
    ∧ (let s : State := nth sts 3
       hd.may 1 [1, 2, 3, 4, 5] s ∧ trackKnown s 0 = true ∧ (1 = 1 ∨ 1 = 2) ∧ (0 = 0 ∨ 0 = 1 ∧ streamKnown s 33 = true))
    ∧ (let data : List Byte := List.replicate 64 1
       let s : State := nth sts 4
       hd.may 2 [1, 2, 5] s ∧ data.length = 64 ∧ ofLe (List.take 1 data) = 1)
    ∧ (let s : State := nth sts 3; hd.may 2 [1] s) := by
  and_intros <;> decide +kernel

end C07

/-! ### Chapters 07 and 08 -/

namespace C08
def jobB (id kind pre factor k slices list b x area rec_ : Nat) : Piece := padP 80 (w 2 id ++ [BitVec.ofNat 8 kind, 0, 0, 0xFF, 0xFF,
  BitVec.ofNat 8 pre] ++ w 2 factor ++ w 1 k ++ w 1 1 ++ w 1 0 ++ w 1 0 ++ w 2 0xFFFF ++ w 2 0 ++ w 2 slices ++ w 4 list ++ w 4 4 ++
  w 4 b ++ w 4 x ++ w 4 area ++ w 4 rec_ ++ w 4 0 ++ w 8 0x3F50624DD2F1A9FC)
def lo : Nat := 16 + 32 + 80 * 5
def slvPart : Piece := cat [padP 16 (w 1 1 ++ w 1 5 ++ w 2 10), padP 32 (w 4 0 ++ w 2 2 ++ w 2 2 ++ w 4 3 ++ w 4 0x100 ++ w 4 0x200 ++ w 4 0x300),
  jobB 0 1 0 0xFFFF 0 2 lo 0x400 0x500 0x1000 0x600, jobB 1 5 1 0xFFFF 0 1 lo 0x400 0x580 0x2000 0x640,
  jobB 2 1 1 1 0 3 lo 0x400 0x700 0x3000 0x680, jobB 3 2 0 0xFFFF 0 2 lo 0x400 0x780 0x4000 0x6C0,
  jobB 4 3 0 0xFFFF 0 2 lo 0x400 0x800 0x5000 0x900, raw (w 2 2 ++ w 2 1 ++ w 2 1 ++ w 4 0)]
def loopB (n sec flags first : Nat) : Piece :=
  padP 32 (w 2 n ++ w 1 sec ++ w 1 flags ++ w 2 first ++ w 2 0 ++ w 4 0x3F800000 ++ w 4 0x40000000)
def ctlPart : Piece := cat [padP 16 (w 2 3), loopB 5 1 1 10, loopB 6 2 2 20, loopB 7 1 0xC 30]
def img : Tab Byte := mkImg 0 1 10 [(1, patSec 8 [disp 1600 6 1 0, disp 1601 6 1 1, disp 1602 6 1 2, disp 1603 6 1 3, disp 1604 6 1 4,
  disp 1605 7 1 5, disp 1606 7 1 6, disp 1607 7 1 7, disp 1608 7 2 0, disp 1609 7 2 1, disp 1610 7 2 2, disp 1612 6 1 9]), (5, engSec [(6, slvPart), (7, ctlPart)]),
  (7, cntSec 16 [w 1 0 ++ w 1 6 ++ w 2 1 ++ w 2 4 ++ w 2 3 ++ w 2 0]), noPats]
/-- The stores: a 2 by 2 matrix and right side, control headers, slots and inputs. -/
def store (d : Nat) : List Host.Cell := runs [(0x28000100, w 4 0 ++ w 4 2 ++ w 4 3), (0x28000200, w 2 0 ++ w 2 1 ++ w 2 1),
  (0x28000300, w 8 d ++ w 8 0 ++ w 8 0x4008000000000000), (0x28000400, w 8 0x3FF0000000000000 ++ w 8 0x4010000000000000),
  (0x30070800, w 2 5 ++ [3, 1, 0, 0] ++ w 2 100), (0x30070810, w 2 5 ++ [1, 1, 5, 0] ++ w 2 0 ++ w 4 0x123),
  (0x30070820, w 2 50 ++ [3, 1, 0, 0]), (0x30071000 + 40, w 4 0x3FC00000 ++ w 4 0x40000000 ++ w 4 0x3F000000 ++ w 4 0x41000000),
  (0x30072000 + 48 * 5, List.replicate 4 2 ++ (List.range 6).flatMap (fun k => w 4 (0x200000 + 77777 * k)) ++ w 4 0x10203),
  (0x30072000 + 48 * 6, List.replicate 4 1 ++ (List.range 6).flatMap (fun k => w 4 (0x300000 + 777 * k)) ++ w 4 0x10203),
  (0x30078000 + 160, (List.range 15).map (fun k => BitVec.ofNat 8 (3 * k)) ++ [1])]
def slv (s : State) (d : Nat) (f : Slv) (c : Ctl) (syn : List Host.Cell) : State :=
  withImg img (both (fun l => { l with mem := store d, syn := syn, slv := f, ctl := c }) s)
def l5 : CtlLoop := { count := 65535, path := { hist := [(5, 6, 7, 8)], integ := 99, prev := -7 }, out := 0x3F800000 }
def sts : List State := [slv up1 0x4000000000000000 {} { loops := [(5, l5)] } [],
  slv { up1 with arb := { adrift := true } } 0 { jobs := [(0, { slice := 1, work := 2, inst := 4 }), (1, { committed := some 1, commits := 3 }),
      (2, { slice := 2, noFactor := true, hold := some 990 }), (3, { slice := 1, abandoned := true, hold := some 999 })] } {} [],
  slv { up1 with mode := 1 } 0x4000000000000000 { jobs := [(0, { slice := 1, abandoned := true }), (1, { committed := some 0, commits := 3 }),
      (2, { hold := some 992 }), (4, { slice := 1, hold := some 1, holdOver := true })] }
    { loops := [(5, { l5 with bank := 1 }), (6, { l5 with count := 3 }), (7, { l5 with bank := 5 })] }
    [(0x28000308 / 8, 0xA7), (0x30070800 / 8, 0xA7), (0x30071028 / 8, 0xA7)],
  up1]

set_option maxRecDepth 200000 in
/-- The hypotheses of `SolverSlices` can be met, clause by clause. -/
theorem witness_SolverSlices :
    (let s : State := nth sts 2
     let m : Tab Byte := (s.ld Side.B).fmn.img
     (entryFor (s.ld Side.B).fmn 6 1 (some 9) none).isSome = true ∧ slvDesc m 9 = none)
    ∧ (let s : State := nth sts 0
       let m : Tab Byte := (s.ld Side.A).fmn.img
       let t : SlvJob := (s.ld Side.A).slv.job 4
       (entryFor (s.ld Side.A).fmn 6 1 (some 4) none).isSome = true ∧ (slvDesc m 4).isSome = true ∧ t.slice = 0)
    ∧ (let s : State := nth sts 0
       let m : Tab Byte := (s.ld Side.A).fmn.img
       let t : SlvJob := (s.ld Side.A).slv.job 1
       (entryFor (s.ld Side.A).fmn 6 1 (some 1) none).isSome = true ∧ Option.any (fun d => decide (t.slice + 1 = d.slices)) (slvDesc m 1) = true)
    ∧ (let s : State := nth sts 2
       let m : Tab Byte := (s.ld Side.A).fmn.img
       let t : SlvJob := (s.ld Side.A).slv.job 0
       (entryFor (s.ld Side.A).fmn 6 1 (some 0) none).isSome = true ∧ (slvDesc m 0).isSome = true ∧ t.slice ≠ 0 ∧ t.abandoned = true)
    ∧ (let s : State := nth sts 0
       let m : Tab Byte := (s.ld Side.A).fmn.img
       (entryFor (s.ld Side.A).fmn 6 1 (some 4) none).isSome = true ∧ (slvDesc m 4).isSome = true)
    ∧ (let s : State := nth sts 3
       let due : Side → List (Nat × SlvJob) :=
           fun y => List.filter (fun e => !e.snd.holdOver && (match e.snd.hold with | some c => decide (c + 8 ≤ (s.ld y).fmn.crossing) | none => false)) (s.ld y).slv.jobs
       due Side.A = [] ∧ due Side.B = [])
    ∧ (let s : State := nth sts 1
       let due : Side → List (Nat × SlvJob) :=
           fun y => List.filter (fun e => !e.snd.holdOver && (match e.snd.hold with | some c => decide (c + 8 ≤ (s.ld y).fmn.crossing) | none => false)) (s.ld y).slv.jobs
       (due Side.A ≠ [] ∨ due Side.B ≠ []) ∧ 2 ≤ s.mode) := by
  and_intros <;> decide +kernel

set_option maxRecDepth 200000 in
/-- The hypotheses of `ControlSamples` can be met, clause by clause. -/
theorem witness_ControlSamples :
    (let s : State := nth sts 2
     ctlDesc (s.ld Side.B).fmn.img 5 = some 760 ∧ ((s.ld Side.B).ctl.loop 5).fade = none ∧ ((s.ld Side.B).ctl.loop 5).pend = none ∧ (cFlag (s.ld
         Side.B).fmn.img 760 1 = true → 2 ≤ s.mode ∧ s.arb.adrift = false) ∧ (entryFor (s.ld Side.B).fmn 7 1 (some 5) none).isSome = true)
    ∧ (let s : State := nth sts 2
       let m : Tab Byte := (s.ld Side.B).fmn.img
       let t : CtlLoop := (s.ld Side.B).ctl.loop 5
       ctlDesc (s.ld Side.B).fmn.img 5 = some 760 ∧ ((s.ld Side.B).ctl.loop 5).fade = none ∧ ((s.ld Side.B).ctl.loop 5).pend = none ∧ (cFlag (s.ld
           Side.B).fmn.img 760 1 = true → 2 ≤ s.mode ∧ s.arb.adrift = false) ∧ Option.any (fun e => decide (
           let inp : Pw × State := memRead Side.B (805769216 + 8 * 5) (markIssued Side.B e (advance 5000200000 s))
           let k : CtlBank × Bool × State := readBank Side.B m 760 5 t.bank inp.snd
           (inp.fst.p = true ∨ k.snd.fst = true) ∧ t.bank ≤ 1)) (entryFor (s.ld Side.B).fmn 7 1 (some 5) none) = true)
    ∧ (let s : State := nth sts 1
       let m : Tab Byte := (s.ld Side.B).fmn.img
       let t : CtlLoop := (s.ld Side.B).ctl.loop 5
       ctlDesc (s.ld Side.B).fmn.img 5 = some 760 ∧ ((s.ld Side.B).ctl.loop 5).fade = none ∧ ((s.ld Side.B).ctl.loop 5).pend = none ∧ (cFlag (s.ld
           Side.B).fmn.img 760 1 = true → 2 ≤ s.mode ∧ s.arb.adrift = false) ∧ Option.any (fun e => decide (
           let inp : Pw × State := memRead Side.B (805769216 + 8 * 5) (markIssued Side.B e (advance 5000200000 s))
           let k : CtlBank × Bool × State := readBank Side.B m 760 5 t.bank inp.snd
           let meas : F32 := BitVec.extractLsb' 0 32 inp.fst.v
           let ref : F32 := BitVec.extractLsb' 32 32 inp.fst.v
           let u : F32 := if cFlag m 760 3 = true then ref.sub meas else meas
           inp.fst.p = false ∧ k.snd.fst = false ∧ u.finite = true)) (entryFor (s.ld Side.B).fmn 7 1 (some 5) none) = true) := by
  and_intros <;> decide +kernel

set_option maxRecDepth 200000 in
/-- The hypotheses of `ControlWrites` can be met, clause by clause. -/
theorem witness_ControlWrites :
    (let s : State := nth sts 1
     Option.any (fun e => decide (
         let a : Nat := 805767168 + 16 * (2 % 64)
         let r : List Pw × State := memReadN Side.A a 2 (markIssued Side.A e (advance 5000200000 s))
         let d : List Byte := ofWords r.fst
         (r.fst.any fun w => w.p) = true ∨ d.getD 2 0 = 0 ∨ ctlWriteOk (s.ld Side.A).fmn.img d = false)) (entryFor (s.ld Side.A).fmn 7 2 (some 2)
             none) = true)
    ∧ (let s : State := nth sts 1
       Option.any (fun e => decide (
           let a : Nat := 805767168 + 16 * (0 % 64)
           let r : List Pw × State := memReadN Side.B a 2 (markIssued Side.B e (advance 5000200000 s))
           let d : List Byte := ofWords r.fst
           (r.fst.any fun w => w.p) = false ∧ d.getD 2 0 = 3 ∧ ctlWriteOk (s.ld Side.B).fmn.img d = true ∧ 2 ≠ ofLe (List.take 2 d))) (entryFor
               (s.ld Side.B).fmn 7 2 (some 0) none) = true)
    ∧ (let data : List Byte := pad 16 (w 2 5 ++ [1, 1, 12, 0] ++ w 2 0 ++ w 4 35)
       let s : State := nth sts 1
       hd.may 2 [1, 2, 5] s ∧ data.length = 16 ∧ (data.getD 2 0 = 1 ∨ data.getD 2 0 = 2) ∧ ctlWriteOk (s.ld s.lead).fmn.img data = true)
    ∧ (let s : State := nth sts 1
       hd.may 1 [1, 2, 3, 4, 5] s ∧ ∃ o, ctlDesc (s.ld s.lead).fmn.img 5 = some o ∧ (0 = 0 ∨ cFlag (s.ld s.lead).fmn.img o 0 = true)) := by
  and_intros <;> first
    | decide +kernel
    | ((try dsimp only [onLanding]) <;> and_intros <;> first
         | decide +kernel
         | exact Or.inl rfl
         | exact ⟨.A, by decide +kernel⟩
         | exact ⟨.B, by decide +kernel⟩
         | exact Or.inr ⟨_, rfl, by decide +kernel⟩
         | exact fun ⟨_, e⟩ => by cases e
         | (intro x; cases x <;> decide +kernel))

end C08

/-! ### Chapter 09 -/

namespace C09
def fq (n : Nat) : List Byte := w 8 (F64.ofNat n).toNat
/-- An axis descriptor: number, type, kind, flags, bus. -/
def axB (id typ kind flags bus : Nat) : Piece := padP 192 (pad 0x58 ([BitVec.ofNat 8 id, BitVec.ofNat 8 typ, BitVec.ofNat 8 kind,
    BitVec.ofNat 8 flags, 0, 0] ++ w 1 bus ++ w 1 0 ++ fq 100 ++ fq 10 ++ fq 5 ++ fq 5 ++ fq 20 ++ fq 8 ++ fq 30 ++ w 8 0xC059000000000000 ++
    fq 100 ++ fq 1) ++ [1, 2, 3, 0] ++ List.replicate (0x9C - 0x5C) 0 ++ w 4 1000 ++ w 4 10 ++ w 4 20)
def axePart : Piece := cat [padP 32 (w 1 3), padP 32 (w 4 1000000 ++ w 4 2000 ++ w 4 100 ++ w 4 0 ++ w 4 50),
  padP 96 (w 4 10 ++ w 4 20 ++ w 4 100 ++ w 4 0 ++ w 4 5000), axB 4 1 1 1 0, axB 9 0 0 3 1, axB 2 1 1 2 0xFF]
def img : Tab Byte := mkImg 0 1 10 [(1, patSec 8 [disp 1600 8 1 4, disp 1800 8 1 9, disp 2000 8 1 2]), (5, engSec [(8, axePart)]), noPats]
def memm (tgt : Nat) : List Host.Cell := runs [(0x30080800, w 8 0xA), (0x30081000 + 32, w 8 tgt), (0x30081000 + 72, fq 3),
  (0x30082000 + 128, (List.range 32).map (fun k => BitVec.ofNat 8 (k + 1)))]
def withAxe (e : Axe) (tgt : Nat) (syn : List Host.Cell) (s : State) : State :=
  withImg img (both (fun l => { l with mem := memm tgt, syn := syn, axe := e }) s)
def rdy : Axis := { st := 2, target := some 0x4000000000000000, referenced := true, updates := 65535,
                    seg := some { start := 4999999000, n := 20000, k := 281474976710, r := 5, delta := 77 },
                    plan := [{ t := 0, p := 0x4000000000000000 }], origin := 4999000000 }
def t5 : Nat := 0x4014000000000000
def sts : List State := [
  withAxe { axes := [(2, { rdy with st := 4, seg := none }), (4, { rdy with st := 4 }), (9, { rdy with st := 4, kept := some 0x4000000000000000 })],
            latched := [(7, true)], clear := [(7, 200)] } t5 [] up1,
  withAxe { axes := [(2, { rdy with st := 5 }), (4, rdy), (9, { rdy with st := 4, seg := none, kept := some 0x4000000000000000 })],
            latched := [(7, true)], clear := [(7, 200)],
            buses := [(0, { last := some 4000000000, stale := false }), (1, { last := some 4999999999 })] } t5 [] up1,
  withAxe { axes := [(4, { rdy with st := 1, queued := some (3, 4000000000), nanCount := 8 }), (9, { rdy with st := 1 })], latched := [(1, true)],
            reserved := [{ axis := 9, bus := 1, power := 5, ends := 4999999999 }, { axis := 4, bus := 0, power := 5, ends := 5999999999 }],
            order := 7 } 0x7FF8000000000000 [] up1,
  withAxe { axes := [(4, { rdy with st := 6, nanCount := 9 }), (9, { rdy with st := 0 })] } t5 [(0x30081020 / 8, 0xA7)] { up1 with mode := 1 },
  { withAxe { axes := [(4, { rdy with st := 6, nanCount := 9, nanOver := true }), (9, { rdy with st := 3 })] } 0xC06E000000000000 [] up1 with
    arb := { adrift := true } },
  withAxe { axes := [(4, { rdy with st := 0 }), (9, { rdy with st := 3 })] } 0x40F4000000000000 []
    { up1 with tick := { up1.tick with last := 5000000000 * 65536 } },
  withAxe { axes := [(4, { rdy with st := 0 }), (9, { rdy with st := 0 })], order := 5 } 0x40F4000000000000 [] up1,
  withAxe { axes := [(4, { rdy with st := 4 })] } t5 [] up1, up1]

set_option maxRecDepth 200000 in
/-- The hypotheses of `AxisUpdates` can be met, clause by clause. -/
theorem witness_AxisUpdates :
    (let s : State := nth sts 0; axeDesc (s.ld Side.A).fmn.img 2 = some 720 ∧ (entryFor (s.ld Side.A).fmn 8 1 (some 2) none).isSome = true)
    ∧ (let s : State := nth sts 3
       axeDesc (s.ld Side.A).fmn.img 2 = some 720 ∧ Option.any (fun k => decide (
           let r1 : Pw × State := memRead Side.A 805832704 (runAxes Side.A (markIssued Side.A k (advance 0 s)))
           let r2 : Pw × State := memRead Side.A (805834752 + 8 * 2) r1.snd
           let r3 : Pw × State := memRead Side.A (805835264 + 8 * 2) r2.snd
           let bad : Bool := r1.fst.p || r2.fst.p || r3.fst.p
           bad = false ∧ (s.mode ≤ 1 ∨ s.arb.adrift = true))) (entryFor (s.ld Side.A).fmn 8 1 (some 2) none) = true)
    ∧ (let s : State := nth sts 3
       axeDesc (s.ld Side.B).fmn.img 4 = some 336 ∧ Option.any (fun k => decide (
           let r1 : Pw × State := memRead Side.B 805832704 (runAxes Side.B (markIssued Side.B k (advance 5000200000 s)))
           let r2 : Pw × State := memRead Side.B (805834752 + 8 * 4) r1.snd
           let r3 : Pw × State := memRead Side.B (805835264 + 8 * 4) r2.snd
           let bad : Bool := r1.fst.p || r2.fst.p || r3.fst.p
           bad = true)) (entryFor (s.ld Side.B).fmn 8 1 (some 4) none) = true) := by
  and_intros <;> decide +kernel

set_option maxRecDepth 200000 in
/-- The hypotheses of `AxisTimers` can be met, clause by clause. -/
theorem witness_AxisTimers :
    (let s : State := nth sts 1
     let now : Nat := (advance 5000200000 s).nowNs
     let due : List AxeHoldS := List.filter (fun h => decide (h.axis = 2) && decide (h.ends ≤ now)) (s.ld Side.B).axe.reserved
     due = [])
    ∧ (let s : State := nth sts 2
       let now : Nat := (advance 0 s).nowNs
       let due : List AxeHoldS := List.filter (fun h => decide (h.axis = 9) && decide (h.ends ≤ now)) (s.ld Side.A).axe.reserved
       due ≠ [] ∧ now ≠ s.tickNs Side.A)
    ∧ (let s : State := nth sts 2
       let now : Nat := (advance 0 s).nowNs
       let m : Tab Byte := (s.ld Side.B).fmn.img
       let ax : Axis := (s.ld Side.B).axe.axis 4
       let q : Nat × Nat := (3, 4000000000)
       axeDesc m 4 = some 336 ∧ ax.queued = some q ∧ q.snd + le m (336 + 164) 4 * 1000000 ≤ now)
    ∧ (let s : State := nth sts 1; let ax : Axis := (s.ld Side.B).axe.axis 2; ax.queued = none)
    ∧ (let s : State := nth sts 1
       let due : Side → List (Nat × Axis) := fun x => List.filter (fun e => decide (8 ≤ e.snd.nanCount) && !e.snd.nanOver) (s.ld x).axe.axes
       ∀ (x : Side), s.inStep x = true → due x = [])
    ∧ (let s : State := nth sts 1; s.inStep Side.B = true)
    ∧ (let s : State := nth sts 2
       let due : Side → List (Nat × Axis) := fun x => List.filter (fun e => decide (8 ≤ e.snd.nanCount) && !e.snd.nanOver) (s.ld x).axe.axes
       (∃ x, s.inStep x = true ∧ due x ≠ []) ∧ 2 ≤ s.mode)
    ∧ (let s : State := nth sts 1
       let now : Nat := (advance 5000200000 s).nowNs
       let m : Tab Byte := (s.ld Side.B).fmn.img
       let k : AxeBus := (s.ld Side.B).axe.bus 0
       Option.any (fun n => decide (axeDescs m ≠ [] ∧ k.warned = false ∧ n + busFld m 0 16 * 1000000 ≤ now)) k.last = true)
    ∧ (let s : State := nth sts 1; let k : AxeBus := (s.ld Side.B).axe.bus 9; k.last = none ∨ k.warned = true) := by
  and_intros <;> first
    | decide +kernel
    | ((try dsimp only [onLanding]) <;> and_intros <;> first
         | decide +kernel
         | exact Or.inl rfl
         | exact ⟨.A, by decide +kernel⟩
         | exact ⟨.B, by decide +kernel⟩
         | exact Or.inr ⟨_, rfl, by decide +kernel⟩
         | exact fun ⟨_, e⟩ => by cases e
         | (intro x; cases x <;> decide +kernel))

set_option maxRecDepth 200000 in
/-- The hypotheses of `AxisCommands` can be met, clause by clause. -/
theorem witness_AxisCommands :
    (let s : State := nth sts 5
     let m : Tab Byte := (s.ld s.lead).fmn.img
     hd.may 1 [2, 3, 4, 5] s ∧ ∀ (k : Nat), k < 64 → bitOf 16 k = true → (axeDesc m k).isSome = true)
    ∧ (let s : State := nth sts 7
       let e : Axe := (s.ld s.lead).axe
       let m : Tab Byte := (s.ld s.lead).fmn.img
       let now : Nat := (advance hd.at_ s).nowNs
       hd.may 1 [2, 3, 4, 5] s ∧ ∀ (k : Nat), k < 64 → bitOf 16 k = true → ∃ o, axeDesc m k = some o ∧ 2 ≤ (e.axis k).st ∧ (e.axis k).st ≤ 4 ∧
           beyondLimit m e o now (e.axis k) = false ∧ ¬(aFlag m o 1 = true ∧ (e.axis k).stall = true ∧ (e.axis k).referenced = false))
    ∧ (let s : State := nth sts 7
       let e : Axe := (s.ld s.lead).axe
       let m : Tab Byte := (s.ld s.lead).fmn.img
       hd.may 2 [2, 3, 4, 5] s ∧ axeDesc m 4 = some 336 ∧ aStep m 336 = true ∧ (e.axis 4).st = 4 ∧ ∀ (k : Nat), k ∈ [88, 89] → limitAt m e 336 k =
           false ∨ aIn m 336 k = aRef m 336)
    ∧ (let s : State := nth sts 1
       let e : Axe := (s.ld s.lead).axe
       hd.may 1 [1, 2, 3, 4, 5] s ∧ Tab.get false e.latched 7 = true ∧ 50000000 ≤ Tab.get 0 e.clear 7 * s.tick.period)
    ∧ (let s : State := nth sts 5
       let e : Axe := (s.ld s.lead).axe
       let m : Tab Byte := (s.ld s.lead).fmn.img
       let now : Nat := (advance hd.at_ s).nowNs
       hd.may 1 [2, 3, 4, 5] s ∧ ((axeDesc m 4).bind (aBus m)).isSome = true ∧ (e.axis 4).st = 0 ∧ ((axeDesc (s.ld Side.B).fmn.img 4).bind (aBus
           (s.ld Side.B).fmn.img)).isSome = true ∧ now ≠ s.tickNs Side.B)
    ∧ (let s : State := nth sts 1
       let e : Axe := (s.ld s.lead).axe
       let m : Tab Byte := (s.ld s.lead).fmn.img
       hd.may 1 [2, 3, 4, 5] s ∧ ((axeDesc m 4).bind (aBus m)).isSome = true ∧ (e.axis 4).st ≠ 0 ∧ ((axeDesc (s.ld Side.A).fmn.img 4).bind (aBus
           (s.ld Side.A).fmn.img)).isSome = true)
    ∧ (let s : State := nth sts 1; hd.may 1 [1, 2, 3, 4, 5] s) := by
  and_intros <;> first
    | decide +kernel
    | ((try dsimp only [onLanding]) <;> and_intros <;> first
         | decide +kernel
         | exact Or.inl rfl
         | exact ⟨.A, by decide +kernel⟩
         | exact ⟨.B, by decide +kernel⟩
         | exact Or.inr ⟨_, rfl, by decide +kernel⟩
         | exact fun ⟨_, e⟩ => by cases e
         | (intro x; cases x <;> decide +kernel))

end C09

/-! ### Chapter 10 -/

namespace C10
/-- An image that names the comparison of item 3: a 64-bit integer between 5 and 9. -/
def img : Tab Byte := mkImg 0 1 10 [(9, cat [raw (w 2 1 ++ List.replicate 14 0),
  padP 48 ([0, 4, 0, 4] ++ w 2 3 ++ w 2 0 ++ w 8 0 ++ w 8 5 ++ w 8 9)])]
def atLeg (k : Nat) (s : State) : State := { s with now := s.tick.last + k * 8192000000 }
def it (k v : Nat) : OutItem := { key := k, cycle := 100, words := [{ v := BitVec.ofNat 64 v, p := false }], leg := 7204 }
def rp (d : Nat) (acc halt : Bool) (v : Nat) : Report :=
  { leg := 7204, digest := BitVec.ofNat 64 d, accuse := acc, code := 0x101, halt := halt, values := [(0, v)] }
def b0 : State := withImg img (atLeg 5 up1)
def withRep (p q : Option Report) (s : State) : State := { s with arb := { s.arb with repA := p, repB := q } }
def rps : List (Option Report) := [none, some (rp 1 false false 7), some (rp 2 false false 7), some (rp 3 false false 70),
  some (rp 1 true false 7), some (rp 2 true true 7)]
def swapR (s : State) : State := { s with roleA := .standby, roleB := .active }
def cmd (op : Nat) : Pend := { part := 1, queue := 2, seq := 4, op := op }
def gapS : State := { atLeg 5 up1 with arb := { up1.arb with gap := some (.A, 7205), agree := 5 } }
def fbS : State := { swapR (atLeg 5 up1) with arb := { up1.arb with agree := 4000, returnHeld := true } }
def rsS (cop : Bool) (d : Nat) : State :=
  { withImg img { atLeg 5 up1 with roleB := .unsync } with
    arb := { up1.arb with resync := some { side := .B, start := d, cmd := some (cmd 0x0D04), copied := cop } } }
def chS (st cnt d m : Nat) : State :=
  { atLeg 5 up1 with
    mode := m, arb := { up1.arb with change := some { cmd := cmd 0x0D06, bank := 1, warm := 3, stage := st, count := cnt, deadline := d, side := .B } } }
def verd : List State := rps.flatMap (fun p => rps.flatMap (fun q => [withRep p q b0, withRep q p (swapR b0), { withRep p q b0 with mode := 1 }]))
def itS : List State := [
  { b0 with
    a := { b0.a with items := [it 3 7, it 1 4], accused := [(7204, 0x101, true)] },
    b := { b0.b with items := [it 3 7], accused := [(7204, 0x101, false)] } },
  { b0 with a := { b0.a with items := [it 3 7], slw := { b0.a.slw with inReset := true } } },
  { atLeg 0 b0 with a := { b0.a with items := [{ it 3 7 with leg := 7199 }] } }, { b0 with roleB := .unsync }, { b0 with now := b0.now + 5000 * 65536 },
  { b0 with arb := { b0.arb with judged := 7205 } }, { b0 with arb := { b0.arb with sinceA := 7205 } }]
def moves : List State := [gapS, { gapS with roleB := .unsync }, { gapS with roleB := .unsync, mode := 1 }, { gapS with arb := { gapS.arb with gap := some (.A, 7300) } }, atLeg 6 gapS, { fbS with mode := 5 }, { fbS with mode := 4 }, { fbS with arb := { fbS.arb with agree := 3 } },
  rsS false 937, rsS true 937, rsS false 900, rsS true 1000, chS 2 3 0 2, chS 2 0 0 2, chS 2 2 0 2, chS 1 0 0 2, chS 0 0 10 3,
  chS 0 0 99999999999 3, chS 3 9 0 2, { chS 2 3 0 2 with tick := { tick0 with gridB := { last := 5, period := 1000000 } } },
  { rsS false 937 with bank1 := false }]
def serv : List State := [{ b0 with roleB := .unsync }, { b0 with roleB := .outOfService },
  { b0 with roleB := .unsync, b := { b0.b with fmn := { b0.b.fmn with running := false } } }, b0, { b0 with mode := 1 }, { b0 with mode := 3 },
  { b0 with mode := 5, arb := { b0.arb with adrift := true } }, { b0 with arb := { b0.arb with adrift := true, cause := 5 } }] ++ moves
def legS : List State := itS ++ verd
def ch (st cnt d : Nat) : Change := { cmd := cmd 0x0D06, bank := 1, warm := 3, stage := st, count := cnt, deadline := d, side := .B }

set_option maxRecDepth 200000 in
/-- The hypotheses of `LegVerdicts` can be met, clause by clause. -/
theorem witness_LegVerdicts :
    (let s : State := nth legS 16
     let s1 : State := advance (windowNs s 1500 0) s
     s.arb.due = [] ∧ s1.legCount = 7204 + 1 ∧ s1.inWindow = true ∧ s.arb.judged ≤ 7204 ∧ s.report Side.A 7204 = none ∧ s.inStep Side.A = true ∧
         s.since Side.A ≤ 7204 ∧ s.powered Side.A = true ∧ (s.ld Side.A).fmn.halted = false ∧ (s.ld Side.A).slw.inReset = false ∧ (s.ld
         Side.A).slw.stage = 11)
    ∧ (let s : State := nth legS 4; let s1 : State := advance (windowNs s 1500 0) s; s.arb.due = [] ∧ s1.inWindow = false)
    ∧ (let s : State := nth legS 92
       let s2 : State := advance (windowNs s 3000 0) s
       let p : Report := rp 1 true false 7
       let q : Report := rp 1 true false 7
       s.arb.due = [] ∧ s2.legCount = 7204 + 1 ∧ s.arb.judged ≤ 7204 ∧ s.activeSide = some Side.B ∧ s.role Side.B.other = Role.standby ∧
           s.arb.change = none ∧ s.since Side.B ≤ 7204 ∧ s.since Side.B.other ≤ 7204 ∧ s.report Side.B 7204 = some p ∧ s.report Side.B.other 7204
           = some q ∧ s2.comparing = true ∧ p.digest = q.digest ∧ p.accuse = q.accuse)
    ∧ (let s : State := nth legS 89
       let s2 : State := advance (windowNs s 3000 0) s
       let p : Report := rp 1 true false 7
       let q : Report := rp 3 false false 70
       let only : Prop := outside s2 Side.B p = true ∧ outside s2 Side.B.other q = false
       let quiet : Prop := p.accuse = false ∧ q.accuse = false
       s.arb.due = [] ∧ s2.legCount = 7204 + 1 ∧ s.arb.judged ≤ 7204 ∧ s.activeSide = some Side.B ∧ s.role Side.B.other = Role.standby ∧
           s.arb.change = none ∧ s.since Side.B ≤ 7204 ∧ s.since Side.B.other ≤ 7204 ∧ s.report Side.B 7204 = some p ∧ s.report Side.B.other 7204
           = some q ∧ s2.comparing = true ∧ (p.accuse = true ∧ q.accuse = false ∨ p.digest ≠ q.digest ∧ quiet ∧ only))
    ∧ (let s : State := nth legS 57
       let s2 : State := advance (windowNs s 3000 0) s
       let p : Report := rp 2 false false 7
       let q : Report := rp 1 true false 7
       let only : Prop := outside s2 Side.A p = true ∧ outside s2 Side.A.other q = false
       let quiet : Prop := p.accuse = false ∧ q.accuse = false
       s.arb.due = [] ∧ s2.legCount = 7204 + 1 ∧ s.arb.judged ≤ 7204 ∧ s.activeSide = some Side.A ∧ s.role Side.A.other = Role.standby ∧
           s.arb.change = none ∧ s.since Side.A ≤ 7204 ∧ s.since Side.A.other ≤ 7204 ∧ s.report Side.A 7204 = some p ∧ s.report Side.A.other 7204
           = some q ∧ s2.comparing = true ∧ (q.accuse = true ∧ p.accuse = false ∨ p.digest ≠ q.digest ∧ quiet ∧ ¬only))
    ∧ (let s : State := nth legS 110
       let s2 : State := advance (windowNs s 3000 0) s
       let p : Report := rp 2 true true 7
       let q : Report := rp 1 true false 7
       s.arb.due = [] ∧ s2.legCount = 7204 + 1 ∧ s.arb.judged ≤ 7204 ∧ s.activeSide = some Side.B ∧ s.role Side.B.other = Role.standby ∧
           s.arb.change = none ∧ s.since Side.B ≤ 7204 ∧ s.since Side.B.other ≤ 7204 ∧ s.report Side.B 7204 = some p ∧ s.report Side.B.other 7204
           = some q ∧ s2.comparing = true ∧ p.digest ≠ q.digest ∧ p.accuse = true ∧ q.accuse = true ∧ 2 ≤ s.mode)
    ∧ (let s : State := nth legS 11
       let s2 : State := advance (windowNs s 3000 0) s
       let q : Report := rp 1 false false 7
       s.arb.due = [] ∧ s2.legCount = 7204 + 1 ∧ s.arb.judged ≤ 7204 ∧ s.activeSide = some Side.B ∧ s.role Side.B.other = Role.standby ∧
           s.arb.change = none ∧ s.since Side.B ≤ 7204 ∧ s.since Side.B.other ≤ 7204 ∧ s.report Side.B 7204 = none ∧ s.report Side.B.other 7204 =
           some q)
    ∧ (let s : State := nth legS 4
       let s2 : State := advance (windowNs s 3000 0) s
       s.arb.due = [] ∧ s2.legCount = 7204 + 1 ∧ s.arb.judged ≤ 7204 ∧ s.activeSide = some Side.A ∧ s.role Side.A.other = Role.standby ∧
           s.arb.change = none ∧ s.since Side.A ≤ 7204 ∧ s.since Side.A.other ≤ 7204 ∧ s.report Side.A 7204 = none ∧ s.report Side.A.other 7204 =
           none ∧ 2 ≤ s.mode) := by
  and_intros <;> decide +kernel

set_option maxRecDepth 200000 in
/-- The hypotheses of `ArbiterMoves` can be met, clause by clause. -/
theorem witness_ArbiterMoves :
    (let s : State := nth moves 4; Option.any (fun z => decide (s.arb.change = none ∧ s.role z.fst.other = Role.standby)) s.arb.gap = true)
    ∧ (let s : State := nth moves 1
       Option.any (fun z => decide (s.arb.change = none ∧ s.role z.fst.other ≠ Role.standby ∧ 2 ≤ s.mode)) s.arb.gap = true)
    ∧ (let s : State := nth moves 1
       let s1 : State := advance 0 s
       let tick : State := advance s1.nextTickNs s1
       s.arb.due = [] ∧ (failbackDue tick = false ∨ s.mode = 5 ∧ s.arb.returnHeld = true))
    ∧ (let s : State := nth moves 6
       let s1 : State := advance 0 s
       let tick : State := advance s1.nextTickNs s1
       s.arb.due = [] ∧ failbackDue tick = true ∧ (s.mode ≠ 5 ∨ s.arb.returnHeld = false))
    ∧ (let s : State := nth moves 8
       Option.any (fun r => decide (
           let x : Side := r.side.other
           let crossing : Nat := (s.ld x).fmn.crossing
           let due : Nat := 256 * (dueBlocks (s.ld x)).length + 200000
           r.copied = false ∧ crossing = r.start + 63 ∧ finalLimit (imgPeriod (s.ld x).fmn.img) < due)) s.arb.resync = true)
    ∧ (let s : State := nth moves 20
       Option.any (fun r => decide (
           let x : Side := r.side.other
           let crossing : Nat := (s.ld x).fmn.crossing
           let due : Nat := 256 * (dueBlocks (s.ld x)).length + 1000
           r.copied = false ∧ crossing = r.start + 63 ∧ due ≤ finalLimit (imgPeriod (s.ld x).fmn.img))) s.arb.resync = true)
    ∧ (let s : State := nth moves 9
       Option.any (fun r => decide (
           let x : Side := r.side.other
           let crossing : Nat := (s.ld x).fmn.crossing
           r.copied = true ∧ crossing = r.start + 63)) s.arb.resync = true)
    ∧ (let s : State := nth moves 11
       Option.any (fun r => decide (
           let x : Side := r.side.other
           let crossing : Nat := (s.ld x).fmn.crossing
           crossing ≠ r.start + 63)) s.arb.resync = true)
    ∧ (let s : State := nth moves 12
       let s1 : State := advance 0 s
       let tick : State := advance s1.nextTickNs s1
       Option.any (fun c => decide (s.arb.due = [] ∧ c.stage = 2 ∧ c.warm ≤ c.count ∧ c.count ≠ 0 ∧ s.role c.side = Role.standby ∧ commonTick tick
           = true)) s.arb.change = true)
    ∧ (let s : State := nth moves 18
       let s1 : State := advance 0 s
       let tick : State := advance s1.nextTickNs s1
       Option.any (fun c => decide (s.arb.due = [] ∧ (c.stage ≠ 2 ∨ c.count < c.warm ∨ commonTick tick = false))) s.arb.change = true)
    ∧ (let s : State := nth moves 16
       let s1 : State := advance 0 s
       Option.any (fun c => decide (s.arb.due = [] ∧ c.stage = 0 ∧ c.deadline ≤ s1.nowNs)) s.arb.change = true)
    ∧ (let s : State := nth moves 12
       let s1 : State := advance 0 s
       Option.any (fun c => decide (s.arb.due = [] ∧ (c.stage ≠ 0 ∨ s1.nowNs < c.deadline))) s.arb.change = true) := by
  and_intros <;> decide +kernel

set_option maxRecDepth 200000 in
/-- The hypotheses of `ArbiterCommands` can be met, clause by clause. -/
theorem witness_ArbiterCommands :
    (let s : State := nth serv 24; let y : Side := sideOf 1; hd.may 2 [1, 2, 3, 4, 5] s ∧ (s.role y = Role.standby ∨ s.role y = Role.unsync))
    ∧ (let s : State := nth serv 1
       let y : Side := sideOf 1
       hd.may 2 [1, 2, 3, 4, 5] s ∧ s.role y = Role.outOfService ∧ (s.ld y).memi.memtest = none)
    ∧ (let s : State := nth serv 18
       let y : Side := sideOf 1
       hd.may 2 [1, 2, 3, 4, 5] s ∧ (s.role y = Role.outOfService ∨ s.role y = Role.unsync) ∧ s.loadOf y = none ∧ (s.ld y).memi.memtest = none)
    ∧ (let s : State := nth serv 1
       let y : Side := sideOf 1
       hd.may 2 [1, 2, 3, 4, 5] s ∧ (s.role y = Role.outOfService ∨ s.role y = Role.unsync) ∧ canResync (advance hd.at_ s) y = true)
    ∧ (let s : State := nth serv 13; hd.may 1 [5] s)
    ∧ (let s : State := nth serv 8
       hd.may 2 [1, 2, 3] s ∧ (s.arb.change = none ∨ ∃ c, s.arb.change = some c ∧ c.stage = 3) ∧ freeTo 4 hd.part s = true ∧ (s.roleA =
           Role.standby ∨ s.roleB = Role.standby))
    ∧ (let s : State := nth serv 24; let c : Change := ch 0 0 10; hd.may 1 [3] s ∧ s.arb.change = some c ∧ c.stage = 0)
    ∧ (let s : State := nth serv 23; hd.may 1 [2, 3, 4, 5] s ∧ adriftBar (advance hd.at_ s) = false) := by
  and_intros <;> first
    | decide +kernel
    | ((try dsimp only [onLanding]) <;> and_intros <;> first
         | decide +kernel
         | exact Or.inl rfl
         | exact ⟨.A, by decide +kernel⟩
         | exact ⟨.B, by decide +kernel⟩
         | exact Or.inr ⟨_, rfl, by decide +kernel⟩
         | exact fun ⟨_, e⟩ => by cases e
         | (intro x; cases x <;> decide +kernel))

end C10

/-! ### Chapter 11 -/

namespace C11
/-- A manifest image of ten crossings that runs one `PASS` in each, signed with the key 1, 2, 3. -/
def imgRuns : List (Nat × List Byte) := [
    (0, [79, 83, 77, 70, 1, 0, 1, 0, 96, 2]), (14, [80, 0, 52, 18]), (28, [11, 0, 0, 0, 1, 3]), (64, [1, 0, 0, 0, 240, 0, 0, 0, 24, 0, 0,
    0, 65, 215, 139, 155, 2, 0, 0, 0, 8, 1, 0, 0, 80, 0, 0, 0, 230, 24, 35, 142, 3, 0, 0, 0, 88, 1, 0, 0, 16, 0, 0, 0, 239, 235, 104, 62,
    4, 0, 0, 0, 104, 1, 0, 0, 8, 0, 0, 0, 105, 223, 34, 101, 5, 0, 0, 0, 112, 1, 0, 0, 152, 0, 0, 0, 248, 193, 139, 23, 6, 0, 0, 0, 8, 2,
    0, 0, 8, 0, 0, 0, 105, 223, 34, 101, 8, 0, 0, 0, 16, 2, 0, 0, 8, 0, 0, 0, 105, 223, 34, 101, 9, 0, 0, 0, 24, 2, 0, 0, 16, 0, 0, 0, 85,
    75, 187, 236, 10, 0, 0, 0, 40, 2, 0, 0, 8, 0, 0, 0, 105, 223, 34, 101, 13, 0, 0, 0, 48, 2, 0, 0, 16, 0, 0, 0, 18, 60, 217, 150, 255,
    0, 0, 0, 64, 2, 0, 0, 32, 0, 0, 0, 112, 175, 62, 68, 1]), (248, [16, 0, 0, 0, 1, 0, 0, 0, 64, 6, 0, 0, 4, 1]), (344, [1]), (352,
    [16]), (368, [1]), (376, [4, 0, 0, 0, 24, 0, 0, 0, 128]), (396, [208, 138, 112, 2, 208, 138, 112, 2]), (416, [160, 134, 1, 0, 160,
    134, 1]), (450, [200, 66, 0, 0, 200, 66, 0, 0, 128, 63, 0, 0, 128, 63, 0, 0, 0, 64]), (563, [16, 16, 88]), (576, [105, 55, 115, 13,
    129, 35, 24, 216, 89, 41, 215, 180, 255, 182, 246, 94, 237, 234, 38, 201, 0, 138, 136, 215, 227, 119, 89, 158, 34, 119, 20, 111])]
def image : List Byte := pad 608 (dense 0 imgRuns)
/-- The flash bytes from `a` on that are not erased. -/
def cellsAt (a : Nat) : List Byte → List Host.Cell
  | [] => []
  | b :: r => if b = 0xFF then cellsAt (a + 1) r else (a, b) :: cellsAt (a + 1) r
def withKey (s : State) : State := { s with pur := { s.pur with slots := [(3, { alg := 1, manifest := true, key := [1, 2, 3] })] } }
def good (s : State) : State := withKey (both (fun l => { l with flash := cellsAt 0x60000000 image }) s)
def cmd : Pend := { part := 1, queue := 2, seq := 4, op := 0x0D03 }
def ld (k b : Nat) : Load := { kind := k, bank := b, cmd := some cmd }
def withLoad (x : Side) (q : Load) (s : State) : State := { s with dkh := { s.dkh with loads := [(x.num, some q)] } }
/-- Another manifest, with one sample link of 40 channels. -/
def linked : Tab Byte := mkImg 0 0 10 [(5, engSec [(3, cat [padP 112 (w 2 1 ++ w 2 1),
  padP 416 (w 1 1 ++ w 1 40 ++ w 2 0 ++ w 4 100 ++ w 4 2 ++ [1, 2, 1, 2, 1, 0] ++ w 2 6 ++ w 4 0x7F800000 ++ w 4 0x7F800000)])])]
/-- A manifest change whose new image landing B loads. -/
def changing (s : State) : State :=
  { withLoad .B { ld 3 0 with cmd := none } (good s) with
    arb := { s.arb with change := some { cmd := { cmd with op := 0x0D06 }, bank := 0, warm := 3, stage := 1, deadline := 5, side := .B } } }
def sts : List State := [withLoad .A (ld 2 0) (withKey up1), withLoad .B (ld 2 0) (withKey up1), withLoad .A (ld 2 1) (withKey up1),
  withLoad .A (ld 1 0) (withKey up1), { withKey up1 with mode := 1 }, { up1 with mode := 1, roleB := .outOfService, bol := { up1.bol with adrift := true } },
  { up1 with mode := 3 }, { up1 with mode := 5, arb := { up1.arb with adrift := true } }, up1, { up1 with mode := 1, roleA := .none }]
def slw0 (st : Nat) (s : State) : State := both (fun l => { l with
  slw := { l.slw with s10 := false, running := true, stage := st }, fmn := { l.fmn with running := false } }) s
/-- No role assigned and no port serving. -/
def bare : State := { up1 with roleA := .none, roleB := .none, pur := { up1.pur with serving := false }, dkh := { up1.dkh with s1 := true } }
def nos (s : State) : State := both (fun l => { l with slw := { l.slw with s10 := false } }) s
def bkp (k : Nat) (s : State) : State := { s with rtc := { s.rtc with mem := [(k, 2)] } }
def starts : List State := [State.reset, { up1 with uptime := none }, up1, slw0 3 { up1 with roleA := .none, roleB := .none },
  slw0 7 { up1 with roleA := .none, roleB := .none }, slw0 11 up1, { up1 with roleA := .none, roleB := .none }, bare,
  { bare with b := { bare.b with slw := { bare.b.slw with s10 := false } } }, { bare with a := { bare.a with slw := { bare.a.slw with s10 := false } } },
  bkp 0x11 { up1 with roleB := .quarantined }, { up1 with roleB := .unsync, arb := { up1.arb with preferred := .B } },
  bkp 1 (slw0 5 up1), bkp 17 (slw0 5 up1), { bare with b := { bare.b with fmn := { bare.b.fmn with loaded := false } } },
  { bare with roleB := .quarantined }, nos bare, { bare with dkh := { bare.dkh with s1 := false } }]
def sw0 : List (Nat × Nat) := [(1, 0xFFFE), (1, 0xFFFE), (1, 0xFFFE)]
def sound : List (Nat × Nat) := (List.range 16).map (fun k => (k, 0xFFFF - k))

set_option maxRecDepth 200000 in
/-- The hypotheses of `ModesAndLoads` can be met, clause by clause. -/
theorem witness_ModesAndLoads :
    (let heading : DWord := 9221120237041090560
     let s : State := nth sts 2
     let sh : State := advance hd.at_ s
     hd.may (if 1 = 5 then 2 else 1) [1, 2, 3, 4, 5] s ∧ (bitOf 2 1 = true → 0 ≤ 255) ∧ (bitOf 2 0 = true → headingOk heading = true) ∧
         modeAllowed sh 1 2 = true ∧ (1 = 1 ∨ adriftBar sh = false))
    ∧ (let s : State := nth sts 5; hd.may 2 [1] s ∧ s.activeSide ≠ none ∧ s.loadOf Side.A = none ∧ s.loadOf Side.B = none ∧ s.arb.change = none)
    ∧ (let s : State := nth sts 5; ∀ (q : Load), s.loadOf Side.B = some q → q.bank ≠ 0)
    ∧ (let s : State := nth sts 0; let q : Load := ld 2 0; s.loadOf Side.A = some q ∧ q.bank = 0 ∧ q.kind = 2 ∧ q.cmd = some cmd ∧ false = false) := by
  and_intros <;> decide +kernel

set_option maxRecDepth 200000 in
/-- The hypotheses of `SlipwayStarts` can be met, clause by clause. -/
theorem witness_SlipwayStarts :
    (let p : PowerOn := { s0Ok := false }
     let s : State := nth starts 14
     s.uptime.isSome = true ∨ p.goodA = false ∧ p.goodB = false ∨ p.s0Ok = false ∨ 500000 < p.d0)
    ∧ (let p : PowerOn := { switches := [(1, 1)] }
       let s : State := nth starts 1
       s.uptime = none ∧ (p.goodA = true ∨ p.goodB = true) ∧ p.s0Ok = true ∧ p.d0 ≤ 500000 ∧ (switchesOk p.switches = false ∨ 50000 < p.d1))
    ∧ (let p : PowerOn := { switches := sw0 }
       let s : State := nth starts 1
       s.uptime = none ∧ (p.goodA = true ∨ p.goodB = true) ∧ p.s0Ok = true ∧ p.d0 ≤ 500000 ∧ switchesOk p.switches = true ∧ p.d1 ≤ 50000 ∧
           (p.switches.headD (0, 0)).fst / 256 = 0)
    ∧ (let s : State := nth starts 14; let w : Slipway := (s.ld Side.B).slw; w.running = false ∨ w.s10 = true ∨ s.powered Side.B = false)
    ∧ (let r : StartRun := { fw := 2 }
       let s : State := nth starts 5
       let w : Slipway := (s.ld Side.A).slw
       w.running = true ∧ w.s10 = false ∧ s.powered Side.A = true ∧ (2 ≤ r.fw ∨ ∃ e, e ∈ r.times ∧ e.fst = 3 ∧ 200000 < e.snd))
    ∧ (let r : StartRun := { }
       let s : State := nth starts 12
       let w : Slipway := (s.ld Side.B).slw
       w.running = true ∧ w.s10 = false ∧ s.powered Side.B = true ∧ r.fw ≤ 1 ∧ (∀ (e : Nat × Nat), e ∈ r.times → ∀ (k : Nat), stageLimit false
           e.fst = some k → e.snd ≤ k) ∧ r.fail = none ∧ r.badLines = [] ∧ r.badSpares = [] ∧ r.otherBad = false ∧ ofLe (flashBytes (s.ld Side.B)
           1669332992 4) = 4294967295 ∧ ofLe (flashBytes (s.ld Side.B) 1669337088 4) = 4294967295)
    ∧ (let s : State := nth starts 5; let y : Side := s.arb.preferred; s.activeSide ≠ none ∨ s.pur.serving = true ∨ ready s y = false)
    ∧ (let s : State := nth starts 7
       let y : Side := s.arb.preferred
       let there : Prop := ready s y.other = true ∧ s.role y.other = Role.none
       s.activeSide = none ∧ s.pur.serving = false ∧ ready s y = true ∧ there ∧ sameManifest s = true)
    ∧ (let s : State := nth starts 14
       let y : Side := s.arb.preferred
       let there : Prop := ready s y.other = true ∧ s.role y.other = Role.none
       s.activeSide = none ∧ s.pur.serving = false ∧ ready s y = true ∧ there ∧ sameManifest s = false)
    ∧ (let s : State := nth starts 8
       let y : Side := s.arb.preferred
       let there : Prop := ready s y.other = true ∧ s.role y.other = Role.none
       s.activeSide = none ∧ s.pur.serving = false ∧ ready s y = true ∧ ¬there)
    ∧ (let s : State := nth starts 5
       let s1 : State := advance 6000000000 s
       s.dkh.s1 = false ∨ s.activeSide ≠ none ∨ s.pur.serving = true ∨ s1.nowNs + s.dkh.s0 < 2450000000)
    ∧ (let s : State := nth starts 14
       let s1 : State := advance 6000000000 s
       let y : Side := s.arb.preferred
       s.dkh.s1 = true ∧ s.activeSide = none ∧ s.pur.serving = false ∧ 2450000000 ≤ s1.nowNs + s.dkh.s0 ∧ ready s y = true)
    ∧ (let s : State := nth starts 9
       let s1 : State := advance 6000000000 s
       let y : Side := s.arb.preferred
       s.dkh.s1 = true ∧ s.activeSide = none ∧ s.pur.serving = false ∧ 2450000000 ≤ s1.nowNs + s.dkh.s0 ∧ ready s y = false ∧ ready s y.other =
           true)
    ∧ (let s : State := nth starts 16
       let s1 : State := advance 0 s
       let y : Side := s.arb.preferred
       s.dkh.s1 = true ∧ s.activeSide = none ∧ s.pur.serving = false ∧ 2450000000 ≤ s1.nowNs + s.dkh.s0 ∧ ready s y = false ∧ ready s y.other =
           false)
    ∧ (let s : State := nth starts 14; let w : Slipway := (s.ld Side.B).slw; w.running = false ∨ 5 < 3 ∨ 11 < 5)
    ∧ (let s : State := nth starts 5; let w : Slipway := (s.ld Side.A).slw; w.running = true)
    ∧ (let s : State := nth starts 12; let w : Slipway := (s.ld Side.B).slw; w.running = true ∧ w.stage < 11)
    ∧ (let s : State := nth starts 14
       let w : Slipway := (s.ld Side.B).slw
       (w.running = false ∨ 11 ≤ w.stage) ∧ w.inReset = false ∧ s.powered Side.B = true ∧ w.s10 = true)
    ∧ (let s : State := nth starts 11
       let y : Side := sideOf 1
       hd.may 2 [1, 2, 3, 4, 5] s ∧ (s.role y = Role.unsync ∨ s.role y = Role.outOfService ∨ s.role y = Role.quarantined) ∧ s.activeSide = some
           y.other ∧ s.powered y = true ∧ (s.ld y).slw.running = false) := by
  and_intros <;> first
    | decide +kernel
    | ((try dsimp only [onLanding]) <;> and_intros <;> first
         | decide +kernel
         | exact Or.inl rfl
         | exact ⟨.A, by decide +kernel⟩
         | exact ⟨.B, by decide +kernel⟩
         | exact Or.inr ⟨_, rfl, by decide +kernel⟩
         | exact fun ⟨_, e⟩ => by cases e
         | (intro x; cases x <;> decide +kernel))

end C11

/-! ### Chapter 12 -/

namespace C12
def base (s : State) : State := both (fun l => { l with
  mem := [(0x100, 3), (0x108, 7), (0x141, 5), (0x10000008, 9), (0x10000010, 255), (0x28000000, 7)],
  syn := [(0x20, 0xA7), (0x28, 0x03), (0x2000001, 0x01), (0x2000002, 0xA7)],
  memi := { l.memi with
    scrubCarry := 3, candidates := [(0x100, 1), (0x140, 2)],
    merge := [{ word := 0x100, data := [(1, 9), (7, 255)] }, { word := 0x10000008, data := [(0, 3)] }],
    mergeWait := [{ word := 0x208, data := [(2, 8)] }], memtest := some { part := 1, queue := 2, seq := 4, op := 0xD02 } } }) s
def full (s : State) : State := both (fun l => { l with memi := { l.memi with
  remap := (List.range 32).map (fun k => { line := some (64 * (k + 100)), spare := k, cause := 1, valid := true }) } }) s
def one (s : State) : State := both (fun l => { l with
  mem := l.mem ++ [(spareBase 0, 0x77), (spareBase 0 + 9, 0x78)],
  memi := { l.memi with
    remap := [{ line := some 0x100, spare := 0, cause := 1, valid := true }], candidates := [(0x140, 3)], mergeWait := [], scrubPos := 4,
    level := 15, armed := false } }) s
def noc (s : State) : State := both (fun l => { l with memi := { l.memi with
  candidates := [], scrubPos := 5, scrubCarry := 1, merge := [{ word := 0x140, data := [(1, 9)] }], mergeWait := [] } }) s
def sts : List State := [up1, base up1, full (base up1), one (base up1), noc (base up1), withLevel 1 (base up1),
  noc (one (base { up1 with mode := 1 })), both (fun l => { l with memi := { l.memi with scrubPos := patrolLines - 1 } }) (noc (base up1))]

set_option maxRecDepth 200000 in
/-- The hypotheses of `MemoryIsKept` can be met, clause by clause. -/
theorem witness_MemoryIsKept :
    (let s : State := nth sts 0; let m : MemInt := (s.ld Side.B).memi; m.merge = [])
    ∧ (let s : State := nth sts 3
       let m : MemInt := (s.ld Side.A).memi
       Option.any (fun e => decide (e.word % 8 = 0 ∧ memKind e.word ≠ 5 ∧ 272 % 8 = 0 ∧ physical m 272 ≠ physical m e.word)) m.merge.head? = true)
    ∧ (let s : State := nth sts 3
       let m : MemInt := (s.ld Side.A).memi
       Option.any (fun e => decide (e.word % 8 = 0 ∧ memKind e.word ≠ 5 ∧ m.mergeWait = [])) m.merge.head? = true)
    ∧ (let r : Requester := Requester.host 1
       let v : Word := 655376
       let s : State := nth sts 2
       let writes : Prop := r = Requester.deckhand Side.A ∨ ∃ p, r = Requester.host p ∧ 2 ≤ (s.part p).level
       writes ∧ bits (BitVec.toNat v) 7 0 ≠ 0 ∧ bits (BitVec.toNat v) 23 8 ≠ 0)
    ∧ (let r : Requester := Requester.host 1
       let v : Word := 5
       let s : State := nth sts 3
       let writes : Prop := r = Requester.deckhand Side.A ∨ ∃ p, r = Requester.host p ∧ 2 ≤ (s.part p).level
       (bits (BitVec.toNat v) 7 0 = 0 ∨ bits (BitVec.toNat v) 23 8 = 0) ∧ writes)
    ∧ (let r : Requester := Requester.host 1
       let v : Word := 5
       let s : State := nth sts 3
       let writes : Prop := r = Requester.deckhand Side.A ∨ ∃ p, r = Requester.host p ∧ 2 ≤ (s.part p).level
       writes ∧ bits (BitVec.toNat v) 6 0 ≤ 64)
    ∧ (let r : Requester := Requester.deckhand Side.A
       let v : Word := 65
       let s : State := nth sts 4
       let writes : Prop := r = Requester.deckhand Side.A ∨ ∃ p, r = Requester.host p ∧ 2 ≤ (s.part p).level
       writes ∧ 64 < bits (BitVec.toNat v) 6 0)
    ∧ (let s : State := nth sts 5; (s.part 1).level < 2)
    ∧ (let s : State := nth sts 4; let m : MemInt := (s.ld Side.A).memi; m.candidates = [])
    ∧ (let s : State := nth sts 2
       let m : MemInt := (s.ld Side.A).memi
       let rest : List (Nat × Nat) := [(320, 2)]
       m.candidates = (256, 1) :: rest ∧ freeSpare m = none)
    ∧ (let s : State := nth sts 3
       let m : MemInt := (s.ld Side.B).memi
       let rest : List (Nat × Nat) := []
       m.candidates = (320, 3) :: rest ∧ (freeSpare m).isSome = true ∧ remapOf m 320 = none ∧ m.remap.length < 32)
    ∧ (let s : State := nth sts 0; let m : MemInt := (s.ld Side.B).memi; m.scrubCarry = 0)
    ∧ (let s : State := nth sts 3; let m : MemInt := (s.ld Side.A).memi; 0 < m.scrubCarry)
    ∧ (let s : State := nth sts 0; let m : MemInt := (s.ld Side.B).memi; m.memtest = none)
    ∧ (let s : State := nth sts 4; let m : MemInt := (s.ld Side.A).memi; m.memtest.isSome = true ∧ m.candidates = [] ∧ memMapped 320 = true) := by
  and_intros <;> first
    | decide +kernel
    | ((try dsimp only [onLanding]) <;> and_intros <;> first
         | decide +kernel
         | exact Or.inl rfl
         | exact ⟨.A, by decide +kernel⟩
         | exact ⟨.B, by decide +kernel⟩
         | exact Or.inr ⟨_, rfl, by decide +kernel⟩
         | exact fun ⟨_, e⟩ => by cases e
         | (intro x; cases x <;> decide +kernel))

end C12

/-! ### Chapter 13 -/

/-- A parameter block (13 R494): two-channel inputs, a reset, a mat and a feedback input, three outputs, an encoder, three connections, six
functions. -/
def blk : List Byte := dense 0
  [(0, w 4 blkMagic ++ w 2 1 ++ [5, 10] ++ w 4 1060 ++ w 4 0x77), (bIn 0, [1, 1, 10, 0, 0, 0, 0, 0, 2, 2, 20, 0]),
    (bIn 2, [4, 1, 10, 0, 0, 0, 0, 0, 3, 1, 10, 0]), (bIn 5, [5, 1, 10, 0]),
    (bOut 0, [3, 20, 255, 0, 0, 0, 0, 0, 1, 20, 5, 0, 50, 0, 0, 0, 1, 20, 255]), (bEnc 0, [1, 8, 10, 0]),
    (bConn 0, [3, 1, 7, 0] ++ w 4 0xAABB ++ w 2 100), (bConn 1, [5, 3, 8, 0] ++ w 4 0xAABC ++ w 2 0 ++ w 2 50 ++ w 6 9),
    (bConn 2, [7, 2, 9, 0] ++ w 4 0xAABD ++ w 2 10 ++ w 2 50 ++ w 6 9), (bFn 0, [1, 0, 255, 2, 0, 1, 1]),
    (bFn 1, [2, 1, 255, 0xFE, 1, 3, 0, 0, 5]), (bFn 2, [4, 0, 1, 0xFF, 0, 2]), (bFn 3, [5, 0, 3, 0xFE, 1, 2, 1, 0, 3]),
    (bFn 4, [6, 0, 255, 2, 0, 4, 0, 0, 0, 0, 0, 0, 100]), (bFn 5, [3, 3, 255, 0x12, 0, 0]), (0x420, w 4 3134944402)]

/-- The Bollard with that block in force: levels of the channels, cycle, states of the functions, outputs on, state of the connections. -/
def bolS (l1 l2 cyc : Nat) (fl onl : List Nat) (cst : Nat) : State :=
  let b := up1.bol.begin_ (5000000000 - 1000000 * cyc) 5 0xFF07 blk
  { up1 with bol := { b with
    cycle := cyc,
    chans := (List.range 32).map (fun i => (i, { lev := if i < 16 then l1 else l2, filt := if i < 16 then l1 = 1 else l2 = 1 })),
    fns := (List.range fl.length).map (fun k => (k, { st := fl.getD k 0, stopAt := if k % 2 = 0 then 5 else 200, cause := 1 })),
    outCh := onl.map (fun i => (i, { on := true })),
    conns := (List.range 3).map (fun c => (c, { st := cst, seq := 100, got := cst = 2, last := 4900000000, data := 7 })) } }

def bols : List State :=
  let s := bolS 1 1 100 [1, 1, 1, 1, 1, 1] [0, 1, 2, 3, 4, 5] 2
  [up1, s, bolS 1 0 100 [2, 2, 2, 3, 4, 0] [0, 2] 1, bolS 1 1 4 [2, 3, 4, 2, 2, 3] [1, 3, 5] 1,
    { s with bank1 := false, bank2 := false },
    { s with bol := { s.bol with writing := some { cmd := pd 0x0E01, block := blk, slot1 := 0, slot2 := 1 } } },
    { s with mode := 1, bol := { s.bol with gen := 4 } }, bolS 1 1 100 [3, 3, 0, 3, 1, 3] [0] 2]

set_option maxRecDepth 200000 in
/-- The hypotheses of `BollardIsSafe` can be met, clause by clause. -/
theorem witness_BollardIsSafe :
    (let s : State := nth bols 4; s.bol.live = false ∨ s.bank1 = false ∧ s.bank2 = false)
    ∧ (let s : State := nth bols 3; s.bol.live = true ∧ (s.bank1 = true ∨ s.bank2 = true)) := by
  and_intros <;> decide +kernel

set_option maxRecDepth 200000 in
/-- The hypotheses of `BollardCommands` can be met, clause by clause. -/
theorem witness_BollardCommands :
    (let s : State := nth bols 1; let b : Bollard := s.bol; ¬((b.fn 2).st = 2 ∧ (b.fn 2).stopAt ≤ b.cycle))
    ∧ (let s : State := nth bols 2; let b : Bollard := s.bol; (b.fn 0).st = 2 ∧ (b.fn 0).stopAt ≤ b.cycle)
    ∧ (let s : State := nth bols 2; let b : Bollard := s.bol; (b.fn 0).st = 2 ∧ (b.fn 0).stopAt ≤ b.cycle ∧ 0 ∈ outNamed b.block (1 / 2))
    ∧ (let s : State := nth bols 4; let b : Bollard := s.bol; b.live = true ∧ (b.och (2 * 2 + (2 - 1))).on = true)
    ∧ (let s : State := nth bols 2; let b : Bollard := s.bol; b.live = false ∨ (b.och (2 * 2 + (1 - 1))).on = false)
    ∧ (let s : State := nth bols 2
       let b : Bollard := s.bol
       let up : Prop := b.live = true ∧ (s.bank1 = true ∨ s.bank2 = true)
       let d : List Byte := leBytes 1 1 ++ leBytes 1 1 ++ leBytes 2 (bolNum b.block (bConn 0 + 2) 2) ++ leBytes 4 115 ++ leBytes 2 7 ++ leBytes 1
           0 ++ leBytes 1 0 ++ leBytes 4 0
       let good : Nat := telCrc (telSig b.block 0) d
       up ∧ connRx b.block 0 = true ∧ bitOf (bolNum b.block (bConn 0 + 1) 1) 0 = true ∧ (∀ (n : Nat), n < 8 → connRx b.block n = true → bolNum
           b.block (bConn n + 2) 2 = bolNum b.block (bConn 0 + 2) 2 → n = 0) ∧ 5 ≠ good)
    ∧ (let s : State := nth bols 3
       let b : Bollard := s.bol
       let up : Prop := b.live = true ∧ (s.bank1 = true ∨ s.bank2 = true)
       let d : List Byte := leBytes 1 1 ++ leBytes 1 1 ++ leBytes 2 (bolNum b.block (bConn 0 + 2) 2) ++ leBytes 4 115 ++ leBytes 2 7 ++ leBytes 1
           0 ++ leBytes 1 0 ++ leBytes 4 0
       let good : Nat := telCrc (telSig b.block 0) d
       let r : Nat := good
       let q : BolConn := b.conn 0
       let ahead : Nat := (115 + 2 ^ 32 - q.seq) % 2 ^ 32
       up ∧ connRx b.block 0 = true ∧ bitOf (bolNum b.block (bConn 0 + 1) 1) 0 = true ∧ (∀ (n : Nat), n < 8 → connRx b.block n = true → bolNum
           b.block (bConn n + 2) 2 = bolNum b.block (bConn 0 + 2) 2 → n = 0) ∧ r < 2 ^ 32 ∧ (q.got = true → 1 ≤ ahead ∧ ahead ≤ 15) ∧ connTx
           b.block 0 = false)
    ∧ (let s : State := nth bols 1
       let b : Bollard := s.bol
       let up : Prop := b.live = true ∧ (s.bank1 = true ∨ s.bank2 = true)
       let d : List Byte := leBytes 1 1 ++ leBytes 1 1 ++ leBytes 2 (bolNum b.block (bConn 0 + 2) 2) ++ leBytes 4 100 ++ leBytes 2 7 ++ leBytes 1
           0 ++ leBytes 1 0 ++ leBytes 4 0
       let good : Nat := telCrc (telSig b.block 0) d
       let r : Nat := good
       let q : BolConn := b.conn 0
       let ahead : Nat := (100 + 2 ^ 32 - q.seq) % 2 ^ 32
       up ∧ connRx b.block 0 = true ∧ bitOf (bolNum b.block (bConn 0 + 1) 1) 0 = true ∧ (∀ (n : Nat), n < 8 → connRx b.block n = true → bolNum
           b.block (bConn n + 2) 2 = bolNum b.block (bConn 0 + 2) 2 → n = 0) ∧ r < 2 ^ 32 ∧ q.got = true ∧ ahead = 0)
    ∧ (let s : State := nth bols 1
       let s1 : State := advance 0 s
       let b : Bollard := s.bol
       let due : Prop := b.live = true ∧ connRx b.block 3 = true ∧ (b.conn 3).st = 2 ∧ (b.conn 3).last + bolNum b.block (bConn 3 + 8) 2 * 1000000
           ≤ s1.upNs
       ¬due)
    ∧ (let s : State := nth bols 4
       let s1 : State := advance 0 s
       let b : Bollard := s.bol
       let due : Prop := b.live = true ∧ connRx b.block 2 = true ∧ (b.conn 2).st = 2 ∧ (b.conn 2).last + bolNum b.block (bConn 2 + 8) 2 * 1000000
           ≤ s1.upNs
       due)
    ∧ (let s : State := nth bols 1
       let b : Bollard := s.bol
       let up : Prop := b.live = true ∧ (s.bank1 = true ∨ s.bank2 = true)
       ¬up ∨ connTx b.block 3 = false)
    ∧ (let s : State := nth bols 1
       let b : Bollard := s.bol
       let up : Prop := b.live = true ∧ (s.bank1 = true ∨ s.bank2 = true)
       up ∧ connTx b.block 2 = true ∧ s.bank1 = true ∧ s.bank2 = true)
    ∧ (let s : State := nth bols 1
       let b : Bollard := s.bol
       let up : Prop := b.live = true ∧ (s.bank1 = true ∨ s.bank2 = true)
       up ∧ connTx b.block 2 = true ∧ s.activeSide ≠ none)
    ∧ (let s : State := nth bols 6
       let b : Bollard := s.bol
       hd.may 3 [1] s ∧ blkFormat blk = true ∧ blkCrc blk = true ∧ blkRange blk = true ∧ bolNum blk 6 1 ≠ b.gen ∧ b.writing = none)
    ∧ (let s : State := nth bols 1; let b : Bollard := s.bol; b.writing = none)
    ∧ (let s : State := nth bols 5; let b : Bollard := s.bol; b.writing.isSome = true ∧ s.bank1 = true ∧ s.bank2 = true)
    ∧ (let s : State := nth bols 7
       let b : Bollard := s.bol
       hd.may 2 [1, 2, 3, 4, 5] s ∧ (∀ (n : Nat), n < 16 → bitOf 2 n = true → (b.fn n).st = 3 ∧ causeRemains s b n = false) ∧ bitOf 2 1 = true)
    ∧ (let s : State := nth bols 3
       let b : Bollard := s.bol
       hd.may 2 [1, 2, 3, 4, 5] s ∧ (∀ (n : Nat), n < 16 → bitOf 2 n = true → (b.fn n).st = 3 ∧ causeRemains s b n = false) ∧ bitOf 2 5 = false) := by
  and_intros <;> decide +kernel

/-! ### Chapter 14 -/

namespace C14
def dsc (p mode fl : Nat) : Piece := padP 64 (w 1 p ++ w 1 mode ++ w 1 fl ++ w 1 5 ++ w 12 0 ++ w 4 0x55 ++ w 4 1000 ++ w 4 10)
/-- Port descriptors (0 FD, 1 classic, 2 restricted) and a few filters. -/
def canPart : Piece := cat ((List.range 8).map (fun p => if p = 0 then dsc 0 1 13 else if p = 1 then dsc 1 2 0 else if p = 2 then dsc 2 1 2 else dsc p 0 0)
  ++ [(4096, [(0, w 4 (2 ^ 30 + 0x100) ++ w 4 0x7FF ++ w 4 (2 ^ 30 + 2 ^ 31 + 0x200) ++ w 4 0x700 ++ w 4 (2 ^ 30 + 2 ^ 29 + 0x55) ++ w 4 0xFF),
    (64 * 8, w 4 (2 ^ 30 + 0x100) ++ w 4 0x7FF)])])
def img : Tab Byte := mkImg 0 1 10 [(1, patSec 8 [disp 3000 10 1 0, disp 3100 10 1 1, disp 3200 10 1 2, disp 3300 10 1 16, disp 3400 10 1 32]),
  (5, engSec [(10, canPart)]), noPats]
def fr (id n : Nat) : CanFrame := { id := id, dlen := n, data := (List.range n).map (fun k => BitVec.ofNat 8 (k + 1)) }
def allM : List Host.Cell := runs [(canBuffer 0, w 1 0 ++ w 1 0 ++ w 1 0 ++ w 1 4 ++ w 4 0x100 ++ [1, 2, 3, 4, 5, 6, 7, 8]),
  (canBuffer 1, w 1 0 ++ w 1 1 ++ w 1 8 ++ w 1 4 ++ w 4 0x123), (canBuffer 2, w 1 5 ++ w 1 1 ++ w 1 8 ++ w 1 4 ++ w 4 0x123),
  (canBuffer 16, w 1 1 ++ w 1 0 ++ w 1 17 ++ w 1 8 ++ w 4 0x123456 ++ [9, 9]), (canBuffer 32, w 1 2 ++ w 1 0 ++ w 1 16 ++ w 1 8 ++ w 4 0x200 ++ [9, 9])]
def pe (id n : Nat) (c : Bool) : CanPend := { frame := fr id n, confirm := c }
def cc : CanCtl := { tec := 250, rec_ := 120, pend := [(0, some (pe 0x100 4 true)), (2, some (pe 0x200 8 false))],
                     next := [(0, some (pe 0x105 3 false))], ackRun := 4, coll := [(0x200, 2)] }
def s0 : State := withImg img (both (fun l => { l with
  mem := allM, can := { l.can with
    ports := [(0, cc), (1, cc), (2, { cc with tec := 10, rec_ := 130, passive := true })], start := 3000000000,
    keys := [(0, 5), (1, 6), (32, 8)] } }) up1)
def noPorts (s : State) : State := both (fun l => { l with can := { l.can with ports := [] } }) s
def sts : List State := [up1, s0, noPorts s0, { s0 with roleA := .standby, roleB := .active },
  { noPorts s0 with canRec := [(0, { off := 2, supp := [0x100, 0x123 + 2 ^ 29] }), (2, { isolated := true, off := 3 })] },
  { s0 with sup := { s0.sup with field := false } },
  { s0 with canRec := [(0, { isolated := true }), (2, { off := 3, supp := [0x200], disc := false })] },
  { noPorts s0 with arb := { s0.arb with adrift := true } }, { s0 with mode := 6 },
  both (fun l => { l with can := { l.can with start := 6000000000 } }) s0, { s0 with canRec := [(0, { refDone := 2000000000 })] }]

set_option maxRecDepth 200000 in
/-- The hypotheses of `CanFrames` can be met, clause by clause. -/
theorem witness_CanFrames :
    (let s : State := nth sts 9
     let s1 : State := advance 0 s
     let m : Tab Byte := (s.ld Side.B).fmn.img
     Option.any (fun e => decide (
         let s0 : State := markIssued Side.B e s1
         let w : Nat := BitVec.toNat (peekWord (s.ld Side.B) (canBuffer 2)).v
         let ws : List Pw := (memReadN Side.B (canBuffer 2) (1 + if bitOf w 19 = true then 0 else (min 64 (bits w 31 24) + 7) / 8) s0).fst
         let ok : Bool := canHeadOk m (bits w 7 0) (bits w 15 8) (bits w 23 16) (bits w 31 24) (bits w 63 32) && bits w 7 0 == 2 / 16 && padZero
             (bitOf w 19) (bits w 31 24) (List.drop 1 ws)
         (s.ld Side.B).syn = [] ∧ 2 < 128 ∧ ok = false)) (entryFor (s.ld Side.B).fmn 10 1 (some 2) (some 3200)) = true)
    ∧ (let s : State := nth sts 4
       let s1 : State := advance 0 s
       let m : Tab Byte := (s.ld Side.B).fmn.img
       Option.any (fun e => decide (
           let s0 : State := markIssued Side.B e s1
           let w : Nat := BitVec.toNat (peekWord (s.ld Side.B) (canBuffer 16)).v
           let ws : List Pw := (memReadN Side.B (canBuffer 16) (1 + if bitOf w 19 = true then 0 else (min 64 (bits w 31 24) + 7) / 8) s0).fst
           let ok : Bool := canHeadOk m (bits w 7 0) (bits w 15 8) (bits w 23 16) (bits w 31 24) (bits w 63 32) && bits w 7 0 == 16 / 16 &&
               padZero (bitOf w 19) (bits w 31 24) (List.drop 1 ws)
           (s.ld Side.B).syn = [] ∧ 16 < 128 ∧ ok = true ∧ s.passes Side.B = false)) (entryFor (s.ld Side.B).fmn 10 1 (some 16) (some 3300)) =
               true)
    ∧ (let s : State := nth sts 2
       let s1 : State := advance 0 s
       let m : Tab Byte := (s.ld Side.A).fmn.img
       Option.any (fun e => decide (
           let s0 : State := markIssued Side.A e s1
           let cycle : Nat := 3400 + 24
           let w : Nat := BitVec.toNat (peekWord (s.ld Side.A) (canBuffer 32)).v
           let ws : List Pw := (memReadN Side.A (canBuffer 32) (1 + if bitOf w 19 = true then 0 else (min 64 (bits w 31 24) + 7) / 8) s0).fst
           let ok : Bool := canHeadOk m (bits w 7 0) (bits w 15 8) (bits w 23 16) (bits w 31 24) (bits w 63 32) && bits w 7 0 == 32 / 16 &&
               padZero (bitOf w 19) (bits w 31 24) (List.drop 1 ws)
           let c : CanPend := frameOf (ofWords ws)
           (s.ld Side.A).syn = [] ∧ 32 < 128 ∧ ok = true ∧ s.passes Side.A = true ∧ s.arb.adrift = false ∧ 2400 ≤ cycle % max 1 (s.tick.period /
               10) ∧ (s.canPort (32 / 16)).isolated = false ∧ (s.canPort (32 / 16)).off = 0 ∧ ¬idKey c.frame ∈ (s.canPort (32 / 16)).supp ∧
               Tab.get none ((s.ld Side.A).can.port (32 / 16)).pend (32 % 16) = none)) (entryFor (s.ld Side.A).fmn 10 1 (some 32) (some 3400)) =
               true)
    ∧ (let s : State := nth sts 6; canOnBus s Side.A 0 = false)
    ∧ (let f : CanFrame := { fr 256 0 with remote := true }
       let s : State := nth sts 4
       let m : Tab Byte := (s.ld Side.B).fmn.img
       let q : CanCtl := (s.ld Side.B).can.port 1
       canOnBus s Side.B 1 = true ∧ canSends s Side.B 1 = false ∧ ownBuffer q f = none ∧ (List.find? (fun n => mailboxTakes m 1 n f false)
           (List.range 64)).isSome = true)
    ∧ (let f : CanFrame := fr 528 3
       let s : State := nth sts 7
       let m : Tab Byte := (s.ld Side.B).fmn.img
       let q : CanCtl := (s.ld Side.B).can.port 2
       canOnBus s Side.B 2 = true ∧ canSends s Side.B 2 = false ∧ ownBuffer q f = none ∧ List.find? (fun n => mailboxTakes m 2 n f false)
           (List.range 64) = none)
    ∧ (let f : CanFrame := fr 512 8
       let s : State := nth sts 9
       let q : CanCtl := (s.ld Side.B).can.port 2
       let c : CanPend := pe 512 8 false
       canOnBus s Side.B 2 = true ∧ ownBuffer q f = some (2, c) ∧ canSends s Side.B 2 = false) := by
  and_intros <;> decide +kernel

set_option maxRecDepth 200000 in
/-- The hypotheses of `CanControl` can be met, clause by clause. -/
theorem witness_CanControl :
    (let s : State := nth sts 6; canOnBus s Side.B 0 = false)
    ∧ (let s : State := nth sts 10; canOnBus s Side.B 1 = true ∧ canSends s Side.B 1 = false)
    ∧ (let e : CanErr := { dataField := true, tx := some 0, id := 512 }
       let s : State := nth sts 8
       let q : CanCtl := (s.ld Side.A).can.port 0
       canOnBus s Side.A 0 = true ∧ canSends s Side.A 0 = true ∧ e.tx = some 0 ∧ e.exempt = false ∧ (e.typ ≠ 5 ∨ e.dominant = true ∨ q.passive =
           false) ∧ 247 < q.tec)
    ∧ (let s : State := nth sts 6; let r : CanPort := s.canPort 0; r.off ≠ 2 ∨ s.activeSide = none)
    ∧ (let s : State := nth sts 6; Option.any (fun y => decide (canOnBus s y 0 = false)) s.activeSide = true)
    ∧ (let s : State := nth sts 4; let r : CanPort := s.canPort 0; r.off = 2 ∧ s.activeSide = some Side.A ∧ canOnBus s Side.A 0 = true)
    ∧ (let s : State := nth sts 7; let s1 : State := advance 5000100000 s; refDue s1 2 = none)
    ∧ (let s : State := nth sts 4
       let s1 : State := advance 0 s
       let r : CanPort := s.canPort 0
       refDue s1 0 = some (Side.A, 192, 1999) ∧ (1999 < r.refDone ∨ canSends s Side.A 0 = false ∨ canOnBus s Side.A 0 = false ∨ s.passes Side.A =
           false))
    ∧ (let s : State := nth sts 7
       let s1 : State := advance 5000100000 s
       let r : CanPort := s.canPort 0
       refDue s1 0 = some (Side.A, 192, 2000) ∧ r.refDone ≤ 2000 ∧ canSends s Side.A 0 = true ∧ canOnBus s Side.A 0 = true ∧ s.passes Side.A =
           true)
    ∧ (let s : State := nth sts 2
       let s1 : State := advance 5000100000 s
       let r : CanPort := s.canPort 0
       refDue s1 0 = some (Side.A, 192, 2000) ∧ r.refDone < 2000)
    ∧ (let s : State := nth sts 10
       let s1 : State := advance 0 s
       let r : CanPort := s.canPort 0
       refDue s1 0 = some (Side.A, 192, 1999) ∧ 1999 ≤ r.refDone)
    ∧ (let s : State := nth sts 10; let r : CanPort := s.canPort 1; canConfigured s 1 = true ∧ hd.may 2 [1, 2, 3, 4, 5] s ∧ r.isolated = false)
    ∧ (let s : State := nth sts 6; let r : CanPort := s.canPort 0; canConfigured s 0 = true ∧ hd.may 2 [1, 2, 3, 4, 5] s ∧ r.isolated = true)
    ∧ (let s : State := nth sts 4
       let r : CanPort := s.canPort 2
       canConfigured s 2 = true ∧ hd.may 1 [1, 2, 3, 4, 5] s ∧ r.off = 3 ∧ canFlag (s.ld s.lead).fmn.img 2 1 = true)
    ∧ (let s : State := nth sts 4
       let r : CanPort := s.canPort 0
       canConfigured s 0 = true ∧ hd.may 1 [1, 2, 3, 4, 5] s ∧ 256 + b2n false * 2 ^ 29 ∈ r.supp) := by
  and_intros <;> decide +kernel

end C14

/-! ### Chapter 15 -/

namespace C15
def own : List Byte := [2, 0, 0, 0, 0, 9]
def tbd (r dom net tmo : Nat) : Piece := padP 32 (w 1 r ++ w 1 dom ++ w 1 net ++ w 3 0 ++ w 2 tmo)
/-- Networks 0 and 1 with a filter, time bases 0, 1 and 3. -/
def ethPart : Piece := cat ([padP 64 (own ++ w 1 7 ++ w 1 (1 + 2 + 16) ++ w 2 100 ++ w 2 50 ++ w 2 10),
  padP 512 (w 6 0x010203040501 ++ w 2 0x0800 ++ w 1 7 ++ w 7 0), tbd 1 0 1 1000, tbd 2 1 3 1000, tbd 0 0 0 0, tbd 1 3 3 1000])
def img : Tab Byte := mkImg 0 1 10 [(1, patSec 8 [disp 3000 11 1 0, disp 3400 11 1 1, disp 3800 11 1 2, disp 4200 11 1 3, disp 4600 11 1 4,
  disp 9000 11 2 0]), (5, engSec [(11, ethPart)]), noPats]
def frm : List Byte := List.replicate 12 (5 : Byte) ++ beBytes 2 0x0800 ++ List.replicate 46 7
def ptp (t dom : Nat) : List Byte :=
  List.replicate 12 (5 : Byte) ++ beBytes 2 0x88F7 ++ [BitVec.ofNat 8 t, 2, 0, 44, BitVec.ofNat 8 dom] ++ List.replicate 60 1
def itm (job net dir fl len t : Nat) (f : List Byte) : List Byte := w 1 job ++ w 1 net ++ w 1 dir ++ w 1 fl ++ w 2 len ++ w 2 0 ++ w 8 t ++ f
def mem0 : List Host.Cell := runs [(ethBuffer 0, itm 0 1 3 0 60 0 frm), (ethBuffer 1, itm 1 1 2 1 60 5000500000 frm),
  (ethBuffer 2, itm 2 3 3 2 60 0 (ptp 0 0)), (ethBuffer 3, itm 3 1 3 2 62 0 (ptp 0 0)), (ethBuffer 4, itm 4 1 1 0 100 0 frm)]
def fE (b : List Byte) : EthFrame := { bytes := b }
def lch (t : Nat) : EthFrame := { bytes := frm, launch := some t }
def prt : EthPort := { imm := [fE frm], transit := [fE (ptp 0 0), fE frm], launch := [lch 4999999000, lch 6000000000], asked := true, seq := 5,
                       t1 := some 77, delays := [1, 2, 3, 4, 5, 6, 7, 8], miss := 2 }
/-- An admitted operator command: class, partition, sequence, sender, fill. -/
def ent (cls part seq src : Nat) (fill : Byte) : AdmEntry :=
  { cls := cls, stamp := 4999000000, content := pad 64 ([0xFF, 0] ++ w 2 60 ++ w 20 0 ++ (own ++ beBytes 6 src ++ beBytes 2 0x88B6 ++
      ([BitVec.ofNat 8 part, 2, 3, 0] ++ w 4 seq ++ w 2 8 ++ w 6 0 ++ List.replicate 8 fill))) }
def cc (e : AdmEntry) : CmdCopy := (copyOf img e).getD {}
def base : State := withImg img (both (fun l => { l with
  mem := mem0,
  eth := { l.eth with
    bypass := false, links := 15,
    ports := [(0, prt), (1, { prt with launch := [] }), (2, { prt with launch := [], transit := [] }), (3, {})] } }) up1)
def adm (l : List AdmEntry) (cp : List CmdCopy) (d : List (Nat × Nat × Nat)) (s : State) : State :=
  both (fun q => { q with fmn := { q.fmn with admitted := l }, eth := { q.eth with copies := cp, decided := d } }) s
def tbs : Tab TimeBase := [(0, { state := 1, run := 7, trips := [10, 20] }), (1, { state := 4, seqs := 3, seqa := 4 }),
  (3, { state := 2, lastSync := 4500000000, lastA := some 4900000000, master := 8, o := 0x4059000000000000 })]
def refCmd : Pend := { part := 1, queue := 2, seq := 4, op := 0x0B01 }
def sts : List State := [up1, base, both (fun l => { l with mem := [] }) base, { base with tbs := tbs }, { base with tbs := tbs, roleA := .standby },
  { base with tbs := tbs, arb := { base.arb with gap := some (.A, 5) } },
  { base with tbs := tbs.map (fun e => (e.1, { e.2 with state := 3, lastSync := 100, master := 0, lastA := none })) },
  { base with tbs := tbs.map (fun e => (e.1, { e.2 with state := 2, lastSync := 100 })), roleA := .standby, roleB := .active },
  both (fun l => { l with eth := { l.eth with bypass := true, links := 5 } }) base,
  both (fun l => { l with eth := { l.eth with
    ports := [(0, { prt with launch := [], imm := [] }), (1, { prt with launch := [], transit := [], imm := List.replicate 32 (fE frm) })] } }) base,
  adm [ent 5 4 9 7 1] [] [] base, adm [ent 5 6 9 7 1] [] [] base, adm [ent 6 4 9 7 1] [cc (ent 5 4 9 7 1)] [] base,
  adm [ent 6 4 9 7 1] [cc (ent 5 4 9 7 1)] [(4, 9, 4990000000)] base, adm [] [cc (ent 5 4 9 7 1)] [] base,
  adm [{ cls := 4 }] [] [(4, 8, 1000), (4, 7, 4990000000)] base, adm [ent 5 6 9 7 1] [] [(6, 9, 10)] base, adm [ent 6 5 9 7 1] [] [] base,
  { base with mode := 1, ref := { ext := true, state := 0, target := true } },
  { base with ref := { ext := false, state := 1, target := true, cmd := some refCmd } },
  { base with ref := { ext := true, state := 2, target := false, cmd := some refCmd } },
  { base with mode := 1, arb := { base.arb with adrift := true } }]
def rxs : List EthRx := [{ bytes := frm, sfd := 5000000000 * 65536 }, { bytes := frm, ok := false }, { bytes := frm.take 50 },
  { bytes := own ++ frm.drop 6, sfd := 5000000000 * 65536 }, { bytes := peerAddr ++ (ptp 2 0).drop 6, sfd := 5000000000 * 65536 },
  { bytes := ptp 1 1, sfd := 5000000000 * 65536, pre := some 5 }, { bytes := [1, 2, 3, 4, 5, 1] ++ frm.drop 6, sfd := 5000000000 * 65536 },
  { bytes := [1, 2, 3, 4, 5, 1] ++ own ++ frm.drop 12, sfd := 5000000000 * 65536 },
  { bytes := List.replicate 6 0xFF ++ beBytes 6 6 ++ beBytes 2 0x8808 ++ List.replicate 50 0 }]
def rx (k : Nat) : EthRx := rxs.getD k { bytes := [] }

set_option maxRecDepth 200000 in
/-- The hypotheses of `NetworkAndReferenceTime` can be met, clause by clause. -/
theorem witness_NetworkAndReferenceTime :
    (let s : State := nth sts 17; let on : Prop := ethOn s Side.B = true ∧ 2 < 4 ∧ netP2p (s.ld Side.B).fmn.img (2 / 2) = true; ¬on)
    ∧ (let s : State := nth sts 7
       let k : EthPort := (s.ld Side.A).eth.port 0
       let on : Prop := ethOn s Side.A = true ∧ 0 < 4 ∧ netP2p (s.ld Side.A).fmn.img (0 / 2) = true
       on ∧ k.imm.length < 32)
    ∧ (let s : State := nth sts 7; let s1 : State := advance 5000100000 s; syncTaken s1 1 0 7 = false)
    ∧ (let s : State := nth sts 3; let s1 : State := advance 5000100000 s; let t0 : TimeBase := s.tb 0; syncTaken s1 0 0 7 = true ∧ t0.state = 1)
    ∧ (let s : State := nth sts 3; let s1 : State := advance 0 s; let t0 : TimeBase := s.tb 3; syncTaken s1 3 1 7 = true ∧ t0.state = 2)
    ∧ (let s : State := nth sts 6; let s1 : State := advance 0 s; let t0 : TimeBase := s.tb 0; syncTaken s1 0 1 8 = true ∧ t0.state = 3)
    ∧ (let s : State := nth sts 7
       let s1 : State := advance 5000100000 s
       let m : Tab Byte := (s.ld s.lead).fmn.img
       let t0 : TimeBase := s.tb 1
       let due : Prop := t0.state = 2 ∧ t0.lastSync + le m (tbDesc m 1 + 6) 2 * 1000000 ≤ s1.nowNs
       due)
    ∧ (let s : State := nth sts 17
       let s1 : State := advance 5000100000 s
       let m : Tab Byte := (s.ld s.lead).fmn.img
       let t0 : TimeBase := s.tb 3
       let due : Prop := t0.state = 2 ∧ t0.lastSync + le m (tbDesc m 3 + 6) 2 * 1000000 ≤ s1.nowNs
       ¬due)
    ∧ (let s : State := nth sts 17; let m : Tab Byte := (s.ld s.lead).fmn.img; tbRole m 3 ≠ 2 ∨ 4 ≤ 3)
    ∧ (let s : State := nth sts 4; let m : Tab Byte := (s.ld s.lead).fmn.img; tbRole m 1 = 2 ∧ (s.activeSide = none ∨ s.arb.gap ≠ none))
    ∧ (let s : State := nth sts 7; let m : Tab Byte := (s.ld s.lead).fmn.img; tbRole m 1 ≠ 1 ∨ 4 ≤ 1)
    ∧ (let s : State := nth sts 17; let m : Tab Byte := (s.ld s.lead).fmn.img; tbRole m 3 = 1)
    ∧ (let s : State := nth sts 9; let r : Reference := s.ref; r.state ≠ 1)
    ∧ (let s : State := nth sts 19
       let r : Reference := s.ref
       let c : Pend := { part := 1, queue := 2, seq := 4, op := 2817 }
       r.state = 1 ∧ r.boot = false ∧ r.cmd = some c)
    ∧ (let s : State := nth sts 9; let r : Reference := s.ref; r.state ≠ 2)
    ∧ (let s : State := nth sts 20
       let r : Reference := s.ref
       let c : Pend := { part := 1, queue := 2, seq := 4, op := 2817 }
       r.state = 2 ∧ r.cmd = some c)
    ∧ (let s : State := nth sts 9; let r : Reference := s.ref; r.ext = false ∧ r.state ≠ 1)
    ∧ (let s : State := nth sts 20; let r : Reference := s.ref; r.ext = true ∧ r.state ≠ 1)
    ∧ (let s : State := nth sts 9; let r : Reference := s.ref; hd.may 2 [1, 2, 3, 4, 5] s ∧ r.ext ≠ true ∧ r.state = 0)
    ∧ (let s : State := nth sts 21; hd.may 2 [1] s ∧ (3 < 805650688 ∨ 805650848 ≤ 3)) := by
  and_intros <;> decide +kernel

set_option maxRecDepth 200000 in
/-- The hypotheses of `NetworkFrames` can be met, clause by clause. -/
theorem witness_NetworkFrames :
    (let s : State := nth sts 2
     let s1 : State := advance 5000100000 s
     let m : Tab Byte := (s.ld Side.B).fmn.img
     Option.any (fun n0 => decide (
         let s0 : State := markIssued Side.B n0 s1
         let cycle : Nat := 4200 + 64 + (sendBytes m (s.ld Side.B).fmn.pattern 3 + 7) / 8
         let hd : List Byte := ofWords (memReadN Side.B (ethBuffer 3) 2 s0).fst
         let ws : List Pw := (memReadN Side.B (ethBuffer 3) (2 + (min 1520 (ofLe (List.take 2 (List.drop 4 hd))) + 7) / 8) s0).fst
         let d : List Byte := ofWords ws
         let ok : Bool := ethItemOk m 3 (s.tickNs Side.B + cycle * 5 / 4) d
         (s.ld Side.B).syn = [] ∧ ok = false)) (entryFor (s.ld Side.B).fmn 11 1 (some 3) (some 4200)) = true)
    ∧ (let s : State := nth sts 5
       let s1 : State := advance 5000100000 s
       let m : Tab Byte := (s.ld Side.A).fmn.img
       Option.any (fun n0 => decide (
           let s0 : State := markIssued Side.A n0 s1
           let cycle : Nat := 3000 + 64 + (sendBytes m (s.ld Side.A).fmn.pattern 0 + 7) / 8
           let hd : List Byte := ofWords (memReadN Side.A (ethBuffer 0) 2 s0).fst
           let ws : List Pw := (memReadN Side.A (ethBuffer 0) (2 + (min 1520 (ofLe (List.take 2 (List.drop 4 hd))) + 7) / 8) s0).fst
           let d : List Byte := ofWords ws
           let ok : Bool := ethItemOk m 0 (s.tickNs Side.A + cycle * 5 / 4) d
           (s.ld Side.A).syn = [] ∧ ok = true ∧ s.passes Side.A = false)) (entryFor (s.ld Side.A).fmn 11 1 (some 0) (some 3000)) = true)
    ∧ (let s : State := nth sts 10
       let s1 : State := advance 0 s
       let m : Tab Byte := (s.ld Side.A).fmn.img
       let e : Eth := (s.ld Side.A).eth
       Option.any (fun n0 => decide (
           let s0 : State := markIssued Side.A n0 s1
           let cycle : Nat := 3000 + 64 + (sendBytes m (s.ld Side.A).fmn.pattern 0 + 7) / 8
           let hd : List Byte := ofWords (memReadN Side.A (ethBuffer 0) 2 s0).fst
           let ws : List Pw := (memReadN Side.A (ethBuffer 0) (2 + (min 1520 (ofLe (List.take 2 (List.drop 4 hd))) + 7) / 8) s0).fst
           let d : List Byte := ofWords ws
           let num : Nat → Nat → Nat := fun o n => ofLe (List.take n (List.drop o d))
           let ok : Bool := ethItemOk m 0 (s.tickNs Side.A + cycle * 5 / 4) d
           (s.ld Side.A).syn = [] ∧ ok = true ∧ s.passes Side.A = true ∧ s.arb.adrift = false ∧ 2400 ≤ cycle % max 1 (s.tick.period / 10) ∧ bitOf
               (num 3 1) 0 = false ∧ 0 ∈ egressPorts (num 1 1) (num 2 1) ∧ (e.port 0).imm.length < 32)) (entryFor (s.ld Side.A).fmn 11 1 (some 0)
               (some 3000)) = true)
    ∧ (let s : State := nth sts 15
       let s1 : State := advance 5000100000 s
       let m : Tab Byte := (s.ld Side.A).fmn.img
       Option.any (fun n0 => decide (
           let s0 : State := markIssued Side.A n0 s1
           let cycle : Nat := 4200 + 64 + (sendBytes m (s.ld Side.A).fmn.pattern 3 + 7) / 8
           let hd : List Byte := ofWords (memReadN Side.A (ethBuffer 3) 2 s0).fst
           let ws : List Pw := (memReadN Side.A (ethBuffer 3) (2 + (min 1520 (ofLe (List.take 2 (List.drop 4 hd))) + 7) / 8) s0).fst
           let d : List Byte := ofWords ws
           let num : Nat → Nat → Nat := fun o n => ofLe (List.take n (List.drop o d))
           let ok : Bool := ethItemOk m 3 (s.tickNs Side.A + cycle * 5 / 4) d
           (s.ld Side.A).syn = [] ∧ ok = true ∧ s.passes Side.A = true ∧ s.arb.adrift = false ∧ 2400 ≤ cycle % max 1 (s.tick.period / 10) ∧ bitOf
               (num 3 1) 0 = false ∧ ¬31 ∈ egressPorts (num 1 1) (num 2 1))) (entryFor (s.ld Side.A).fmn 11 1 (some 3) (some 4200)) = true)
    ∧ (let s : State := nth sts 15; let e : Eth := (s.ld Side.A).eth; bitOf e.links 2 = true ∨ 4 ≤ 2)
    ∧ (let s : State := nth sts 18; let e : Eth := (s.ld Side.A).eth; bitOf e.links 0 ≠ false)
    ∧ (let s : State := nth sts 15; let e : Eth := (s.ld Side.A).eth; e.bypass = false ∨ lanesJoin s Side.A ≠ false)
    ∧ (let s : State := nth sts 0; let e : Eth := (s.ld Side.B).eth; e.bypass ≠ false ∧ lanesJoin s Side.B = false)
    ∧ (let s : State := nth sts 13; let on : Prop := ethOn s Side.B = true ∧ 4 < 4; ¬on)
    ∧ (let f : EthRx := rx 1
       let s : State := nth sts 18
       let on : Prop := ethOn s Side.A = true ∧ 0 < 4
       on ∧ (f.ok = false ∨ f.bytes.length < 60 ∨ 1518 < f.bytes.length))
    ∧ (let f : EthRx := rx 7
       let s : State := nth sts 9
       let m : Tab Byte := (s.ld Side.B).fmn.img
       let e : Eth := (s.ld Side.B).eth
       let on : Prop := ethOn s Side.B = true ∧ 2 < 4
       let out : Nat := if 2 % 2 = 0 then 2 + 1 else 2 - 1
       on ∧ f.ok = true ∧ 60 ≤ f.bytes.length ∧ f.bytes.length ≤ 1518 ∧ etherType f.bytes ≠ 34824 ∧ List.take 6 f.bytes ≠ peerAddr ∧ List.take 6
           f.bytes ≠ ownAddr m ∧ List.foldl (fun n g => n + g.bytes.length) 0 (e.port out).transit + f.bytes.length ≤ 32768 ∧ fBytes f.bytes 6 6 =
           ownAddr m)
    ∧ (let s : State := nth sts 13
       let s1 : State := advance 0 s
       let e : Eth := (s.ld Side.B).eth
       let k : EthPort := e.port 4
       s.pur.outbox = [] ∧ (ethOn s Side.B = false ∨ bitOf e.links 4 = false ∨ s1.nowNs < k.busy ∨ k.launch = [] ∧ k.transit = [] ∧ k.imm = []))
    ∧ (let s : State := nth sts 20
       let s1 : State := advance 0 s
       let m : Tab Byte := (s.ld Side.B).fmn.img
       let e : Eth := (s.ld Side.B).eth
       let k : EthPort := e.port 0
       let g : EthFrame := lch 4999999000
       let rest : List EthFrame := [lch 6000000000]
       s.pur.outbox = [] ∧ ethOn s Side.B = true ∧ bitOf e.links 0 = true ∧ k.busy ≤ s1.nowNs ∧ k.launch = g :: rest ∧ g.launch.getD 0 ≤ s1.nowNs
           ∧ s1.nowNs ≤ g.launch.getD 0 + lateNs m)
    ∧ (let s : State := nth sts 17
       let s1 : State := advance 5000100000 s
       let e : Eth := (s.ld Side.A).eth
       let k : EthPort := e.port 1
       let g : EthFrame := fE (ptp 0 0)
       let rest : List EthFrame := [fE frm]
       s.pur.outbox = [] ∧ ethOn s Side.A = true ∧ bitOf e.links 1 = true ∧ k.busy ≤ s1.nowNs ∧ k.launch = [] ∧ k.transit = g :: rest)
    ∧ (let s : State := nth sts 4
       let s1 : State := advance 5000100000 s
       let e : Eth := (s.ld Side.B).eth
       let k : EthPort := e.port 2
       let g : EthFrame := fE frm
       let rest : List EthFrame := []
       s.pur.outbox = [] ∧ ethOn s Side.B = true ∧ bitOf e.links 2 = true ∧ k.busy ≤ s1.nowNs ∧ k.launch = [] ∧ k.transit = [] ∧ k.imm = g ::
           rest)
    ∧ (let s : State := nth sts 15
       let m : Tab Byte := (s.ld Side.A).fmn.img
       let e : Eth := (s.ld Side.A).eth
       let cs : List CmdCopy := List.filterMap (copyOf m) (s.ld Side.A).fmn.admitted
       (entryFor (s.ld Side.A).fmn 11 2 none none).isSome = true ∧ cs = [] ∧ e.copies = [])
    ∧ (let s : State := nth sts 17
       let x : Side := s.lead
       let m : Tab Byte := (s.ld x).fmn.img
       let e : Eth := (s.ld x).eth
       let old : List (Nat × Nat × Nat) := List.filter (fun d => decide (s.tickNs x ≤ d.snd.snd + secNs)) e.decided
       let cs : List CmdCopy := List.filterMap (copyOf m) (s.ld x).fmn.admitted
       let c : CmdCopy := cc (ent 6 5 9 7 1)
       (entryFor (s.ld x).fmn 11 2 none none).isSome = true ∧ cs = [c] ∧ (∀ (z : Nat), (s.part c.part).bound = some z → z = c.src) ∧ (∀ (d : Nat ×
           Nat × Nat), d ∈ old → ¬(d.fst = c.part ∧ d.snd.fst = c.seq)) ∧ (s.cq c.part c.pend.queue).outstanding < 16 ∧ e.copies = [] ∧ netPaired
           m c.part = false)
    ∧ (let s : State := nth sts 10
       let x : Side := s.lead
       let m : Tab Byte := (s.ld x).fmn.img
       let e : Eth := (s.ld x).eth
       let old : List (Nat × Nat × Nat) := List.filter (fun d => decide (s.tickNs x ≤ d.snd.snd + secNs)) e.decided
       let cs : List CmdCopy := List.filterMap (copyOf m) (s.ld x).fmn.admitted
       let c : CmdCopy := cc (ent 5 4 9 7 1)
       (entryFor (s.ld x).fmn 11 2 none none).isSome = true ∧ cs = [c] ∧ (∀ (z : Nat), (s.part c.part).bound = some z → z = c.src) ∧ (∀ (d : Nat ×
           Nat × Nat), d ∈ old → ¬(d.fst = c.part ∧ d.snd.fst = c.seq)) ∧ (s.cq c.part c.pend.queue).outstanding < 16 ∧ e.copies = [] ∧ netPaired
           m c.part = true ∧ s.tickNs x ≤ c.stamp + 20000000 + 2 * (s.grid x).period)
    ∧ (let s : State := nth sts 12
       let x : Side := s.lead
       let m : Tab Byte := (s.ld x).fmn.img
       let e : Eth := (s.ld x).eth
       let old : List (Nat × Nat × Nat) := List.filter (fun d => decide (s.tickNs x ≤ d.snd.snd + secNs)) e.decided
       let cs : List CmdCopy := List.filterMap (copyOf m) (s.ld x).fmn.admitted
       let c : CmdCopy := cc (ent 6 4 9 7 1)
       let d : CmdCopy := cc (ent 5 4 9 7 1)
       (entryFor (s.ld x).fmn 11 2 none none).isSome = true ∧ cs = [c] ∧ (∀ (z : Nat), (s.part c.part).bound = some z → z = c.src) ∧ (∀ (d : Nat ×
           Nat × Nat), d ∈ old → ¬(d.fst = c.part ∧ d.snd.fst = c.seq)) ∧ (s.cq c.part c.pend.queue).outstanding < 16 ∧ e.copies = [d] ∧ d.part =
           c.part ∧ d.seq = c.seq ∧ d.net ≠ c.net ∧ d.bytes = c.bytes ∧ c.stamp ≤ d.stamp + 20000000 ∧ d.stamp ≤ c.stamp + 20000000) := by
  and_intros <;> decide +kernel

end C15

/-! ### Chapter 16 -/

namespace C16
def key3 : KeySlot := { alg := 1, manifest := true, credential := true, maxLevel := 3, key := List.replicate 64 3 }
def chal : Challenge := { nonce := List.replicate 16 9, slot := 3, level := 2, time := 4000000000 }
def ev (n : Nat) : EvEntry := { typ := 1, data := List.replicate n 5 }
/-- A command descriptor without a valid check code. -/
def cd : List Byte := w 2 7 ++ w 2 5 ++ w 4 1 ++ w 2 8 ++ w 6 0 ++ w 8 9
def cmd (op : Nat) : Pend := { part := 1, queue := 2, seq := 4, op := op }
def cq1 (k h t o : Nat) : Tab CmdQ := [(0, { k := k, head := h, tail := t, outstanding := o }), (1, { k := k, head := h, tail := t, outstanding := o }),
  (2, { k := k, head := h, tail := t, outstanding := o })]
def eq1 (k h t u : Nat) (wait : List EvEntry) : Tab EventQ := (List.range 4).map (fun q => (q,
  { k := k, head := h, tail := t, unread := u, waiting := wait,
    held := [(some 4, 0, List.replicate 24 1), (none, 24, List.replicate 8 2), (some 5, 32, List.replicate 32 3)], nextSeq := 6 }))
def parts (c : Tab CmdQ) (e : Tab EventQ) (s : State) : State := [0, 1, 2, 3, 4, 5].foldl (fun s p => s.modPart p (fun t =>
  { t with cq := c, eq := e, lastNets := [0, 1], lastAddr := 77, level := 5, fails := 1 })) s
def base : State := { parts (cq1 0 0 0 0) (eq1 0 0 64 3 [ev 8, ev 16]) up1 with roleB := .standby }
def ringMem (s : State) : State := both (fun l => { l with
  mem := [0, 1, 2, 3].foldl (fun m p => [0, 1, 2].foldl (fun m q => putBytes m (queueBase s p false q) (cd ++ cd)) m) [],
  syn := [((queueBase s 1 false 0 + 4096) / 8, 0xA7)] }) s
def mv : QueueMove := { cmd := cmd 0x0C04, fromB := [(8, 0x10700000), (9, 0x10701000), (3, 0x107FC000)] }
def fo : FlashOp := { cmd := cmd 0x1303, off := 256, data := some (List.replicate 256 6) }
def fe : FlashOp := { cmd := cmd 0x1302 }
def pq (f : Purser → Purser) (s : State) : State := { s with pur := f s.pur }
def atLate (s : State) : State := { s with now := 2000000000000 * 65536, uptime := some (2000000000000 * 65536) }
def hold1 : Hold := { part := 1, last := 4999999999 }
def okResp : List Byte := hmac256 (key3.key.take 32) (challengeMessage chal 1) ++ List.replicate 32 0
def flashy : State := pq (fun p => { p with
  flashOps := [(0, [fo, fe]), (1, [fe]), (2, [fo])], written := [(0, [(256, 256)])], holds := [(0, some hold1)] })
  (both (fun l => { l with flash := [(0x60000000, 1), (0x60000100, 2), (0x60000101, 0), (0x61800005, 3), (0x63000101, 1)] }) base)
def sts : List State := [up1, { parts (cq1 1 8 8 0) (eq1 0 64 64 0 []) base with mode := 1 }, ringMem base, ringMem { base with mode := 1 },
  ringMem (parts (cq1 0 0 0 15) (eq1 0 0 0 0 []) base), parts (cq1 1 8 8 0) (eq1 0 4000 4056 1 [ev 8]) base,
  pq (fun p => { p with move := some mv }) (ringMem { base with mode := 1 }),
  pq (fun p => { p with move := some { mv with fromB := [] } }) { base with roleB := .outOfService },
  pq (fun p => { p with
    holds := [(0, some hold1), (1, some { part := 1, last := 0 }), (2, some { part := 3, last := 4999999999 })],
    alarms := [5, 0x0C01, 77], outbox := [(4, 0, 5, [1])], jtagOpen := true }) base,
  pq (fun p => { p with slots := [(3, key3), (4, { key3 with revoked := true })], keyWrite := some (cmd 0x0C83, key3, 5) })
    (base.modPart 1 (fun t => { t with challenge := some chal, level := 3 })),
  pq (fun p => { p with slots := [(3, key3)] })
    ({ base with mode := 1 }.modPart 1 (fun t => { t with challenge := some { chal with time := 0 }, level := 3, fails := 2, lockoutEnd := some 4000000000 })),
  pq (fun p => { p with slots := [(3, key3)] })
    ((atLate { base with mode := 1 }).modPart 1 (fun t => { t with challenge := some { chal with time := 1990000000000 }, level := 3, fails := 2 })),
  flashy, { flashy with roleB := .none },
  pq (fun p => { p with holds := [(2, some hold1), (3, some hold1)] }) (atLate { base with roleB := .quarantined })]
def tol : List State := [sts.getD 9 up1, sts.getD 10 up1, sts.getD 11 up1, sts.getD 8 up1,
  pq (fun p => { p with bootstrap := true }) (up1.modPart 0 (fun t => { t with lockoutEnd := some 5, level := 0, fails := 3 }))]
def fls : List State := [flashy, { flashy with roleB := .none }, sts.getD 8 up1, sts.getD 14 up1, sts.getD 2 up1, { base with mode := 1 }]

set_option maxRecDepth 200000 in
/-- The hypotheses of `PurserCommands` can be met, clause by clause. -/
theorem witness_PurserCommands :
    (let h : CmdHdr := { hd with part := 5, descPart := 5, seq := 6 }
     let mask : Word := 0
     let s : State := nth sts 9
     let all : List Nat := [1, 2, 3, 4, 5]
     h.may 0 all s ∧ BitVec.toNat mask < 2 ^ 19)
    ∧ (let h : CmdHdr := { hd with part := 5, descPart := 5, seq := 6 }
       let s : State := nth sts 12
       let all : List Nat := [1, 2, 3, 4, 5]
       h.may 1 all s ∧ (0 = 0 ∨ 0 ∈ s.pur.alarms))
    ∧ (let s : State := nth sts 8; let all : List Nat := [1, 2, 3, 4, 5]; hd.may 1 all s ∧ (3073 = 0 ∨ 3073 ∈ s.pur.alarms))
    ∧ (let s : State := nth sts 10
       let p : Nat := hd.part
       hd.may 2 [0, 1, 2, 3, 4, 5] s ∧ purReadOk 276819968 4 = true ∧ hostRange (advance hd.at_ s) p false 276819968 (4 / 4) = some 2)
    ∧ (let h : CmdHdr := { hd with part := 5, descPart := 5, seq := 6 }
       let s : State := nth sts 13
       let p : Nat := h.part
       let all : List Nat := [1, 2, 3, 4, 5]
       h.may 0 all s ∧ 4 ≤ p ∧ ((s.eq p 3).held.any fun e => e.fst == some 5) = true)
    ∧ (let h : CmdHdr := { hd with part := 5, descPart := 5, seq := 6 }
       let s : State := nth sts 13
       let p : Nat := h.part
       let all : List Nat := [1, 2, 3, 4, 5]
       h.may 0 all s ∧ 4 ≤ p ∧ ((unreadOf (s.eq p 3)).any fun e => e.fst == some 5) = true)
    ∧ (let h : CmdHdr := { hd with part := 5, descPart := 5, seq := 6 }; let s : State := nth sts 9; h.may 0 [0, 1, 2, 3, 4, 5] s)
    ∧ (let s : State := nth sts 1
       let p : Nat := hd.part
       hd.may 0 [1] s ∧ (1 = 1 ∨ p < 4) ∧ areaTooLarge (resizeRing p (1 == 1) 1 1 s) = false ∧ s.pur.move = none ∧ (1 = 1 → (s.eq p 1).head =
           (s.eq p 1).tail) ∧ (1 = 0 → (s.cq p 1).head = (s.cq p 1).tail ∧ (s.cq p 1).outstanding = 0))
    ∧ (let s : State := nth sts 10
       let p : Nat := hd.part
       hd.may 0 [1] s ∧ (0 = 1 ∨ p < 4) ∧ areaTooLarge (resizeRing p (0 == 1) 0 2 s) = false ∧ s.pur.move = none ∧ (0 = 1 → (s.eq p 0).head =
           (s.eq p 0).tail) ∧ (0 = 0 → (s.cq p 0).head = (s.cq p 0).tail ∧ (s.cq p 0).outstanding = 0)) := by
  and_intros <;> decide +kernel

set_option maxRecDepth 200000 in
/-- The hypotheses of `PartitionQueues` can be met, clause by clause. -/
theorem witness_PartitionQueues :
    (4 ≤ 5)
    ∧ (let s : State := nth sts 4
       let idx : Nat := 2 % 2 ^ 20
       let c : CmdQ := s.cq 0 3
       queueMoving s 0 false 3 = false ∧ (idx % 8 ≠ 0 ∨ ringSize c.k ≤ idx))
    ∧ (let s : State := nth sts 4
       let idx : Nat := 48 % 2 ^ 20
       let c : CmdQ := s.cq 1 2
       let ds : List (Nat × Nat) := [(0, 24), (24, 24)]
       queueMoving s 1 false 2 = false ∧ idx % 8 = 0 ∧ idx < ringSize c.k ∧ walkRing (s.ld s.lead) (queueBase s 1 false 2) (ringSize c.k) idx 19
           c.tail = Walk.ok ds ∧ 16 < c.outstanding + ds.length)
    ∧ (let s : State := nth sts 8
       let idx : Nat := 0 % 2 ^ 20
       let c : CmdQ := s.cq 1 3
       let ds : List (Nat × Nat) := []
       queueMoving s 1 false 3 = false ∧ idx % 8 = 0 ∧ idx < ringSize c.k ∧ walkRing (s.ld s.lead) (queueBase s 1 false 3) (ringSize c.k) idx 19
           c.tail = Walk.ok ds ∧ c.outstanding + ds.length ≤ 16)
    ∧ (let s : State := nth sts 6; queueMoving s 0 false 3 = true)
    ∧ (let s : State := nth sts 3; let idx : Nat := 24 % 2 ^ 20; let e : EventQ := s.eq 2 3; (boundaryIn idx e.tail (unreadOf e) 0).isSome = true)
    ∧ (let s : State := nth sts 4; let idx : Nat := 2 % 2 ^ 20; let e : EventQ := s.eq 0 3; boundaryIn idx e.tail (unreadOf e) 0 = none)
    ∧ (let s : State := nth sts 4; let e : EventQ := s.eq 0 3; queueMoving s 0 true 3 = true ∨ e.waiting = [])
    ∧ (let s : State := nth sts 8
       let e : EventQ := s.eq 1 3
       let v : EvEntry := ev 8
       let rest : List EvEntry := [ev 16]
       let b : List Byte := entryBytes v e.nextSeq
       s.pur.move = none ∧ areaBytes s ≤ 2097152 ∧ e.waiting = v :: rest ∧ e.lost = 0 ∧ e.tail % 8 = 0 ∧ b.length ≤ ringFree e ∧ e.tail + b.length
           ≤ ringSize e.k ∧ s.inStep Side.B = true)
    ∧ (let s : State := nth sts 14
       let e : EventQ := s.eq 2 0
       let v : EvEntry := ev 8
       let rest : List EvEntry := [ev 16]
       let b : List Byte := entryBytes v e.nextSeq
       s.pur.move = none ∧ areaBytes s ≤ 2097152 ∧ e.waiting = v :: rest ∧ e.lost = 0 ∧ e.tail % 8 = 0 ∧ b.length ≤ ringFree e ∧ e.tail + b.length
           ≤ ringSize e.k ∧ s.inStep Side.B = false)
    ∧ (let s : State := nth sts 3; s.pur.move = none)
    ∧ (let s : State := nth sts 7
       Option.any (fun m => decide (areaBytes s ≤ 2097152 ∧ (List.map (fun x => x.fst) m.fromB).Nodup ∧ (∀ (r : Nat × Nat), r ∈ m.fromB → r.fst <
           48) ∧ s.serves Side.A = true)) s.pur.move = true)
    ∧ (let s : State := nth sts 7
       Option.any (fun m => decide (areaBytes s ≤ 2097152 ∧ (List.map (fun x => x.fst) m.fromB).Nodup ∧ (∀ (r : Nat × Nat), r ∈ m.fromB → r.fst <
           48) ∧ s.serves Side.B = false)) s.pur.move = true)
    ∧ (let s : State := nth sts 3; s.hold 5 = none)
    ∧ (let s : State := nth sts 14
       let s1 : State := advance 0 s
       Option.any (fun k => decide (60 * secNs ≤ s1.nowNs - k.last)) (s.hold 3) = true)
    ∧ (let s : State := nth sts 8; let s1 : State := advance 0 s; Option.any (fun k => decide (s1.nowNs - k.last < 60 * secNs)) (s.hold 1) = true) := by
  and_intros <;> decide +kernel

set_option maxRecDepth 200000 in
/-- The hypotheses of `TollhouseKeeps` can be met, clause by clause. -/
theorem witness_TollhouseKeeps :
    (let h : CmdHdr := { hd with part := 5, descPart := 5, seq := 6 }
     let s : State := nth tol 2
     let own : Partition := s.part h.part
     let all : List Nat := [1, 2, 3, 4, 5]
     h.may 0 all s ∧ (s.slot 3).alg ≠ 0 ∧ (s.slot 3).credential = true ∧ (s.slot 3).revoked = false ∧ 2 ≤ (s.slot 3).maxLevel ∧ own.lockoutEnd =
         none)
    ∧ (let s : State := nth tol 3; let all : List Nat := [1, 2, 3, 4, 5]; hd.may 0 all s ∧ 5 ≠ hd.part)
    ∧ (let s : State := nth tol 3; let s1 : State := advance 5000100000 s; s1.nowNs - (s.part 2).lastPass < 1800 * secNs)
    ∧ (let s : State := nth tol 2; let s1 : State := advance 5000100000 s; 1800 * secNs ≤ s1.nowNs - (s.part 1).lastPass)
    ∧ (let s : State := nth tol 3; let s1 : State := advance 5000100000 s; ∀ (n : Nat), (s.part 2).lockoutEnd = some n → s1.nowNs < n)
    ∧ (let s : State := nth tol 1
       let s1 : State := advance 5000100000 s
       Option.any (fun n => decide (n ≤ s1.nowNs ∧ (1 ≠ 0 ∨ s.pur.bootstrap = false))) (s.part 1).lockoutEnd = true)
    ∧ (let s : State := nth tol 4
       let s1 : State := advance 0 s
       Option.any (fun n => decide (n ≤ s1.nowNs ∧ 0 = 0 ∧ s.pur.bootstrap = true)) (s.part 0).lockoutEnd = true)
    ∧ (let block : List Byte := [6, 2, 1, 3, 0, 0, 0, 0] ++ List.replicate 64 5
       let h : CmdHdr := { hd with part := 5, descPart := 5, seq := 6 }
       let s : State := nth tol 2
       let key : KeySlot := keyOf block
       let n : Nat := ofLe (List.take 1 block)
       h.may 3 [1] s ∧ keyFormed block = true ∧ n ≤ 7 ∧ 1 ≤ key.alg ∧ key.alg ≤ 2 ∧ key.maxLevel ≤ 3 ∧ (s.slot n).alg = 0 ∧ s.hold 5 = none)
    ∧ (let s : State := nth tol 3; s.pur.keyWrite = none)
    ∧ (let s : State := nth tol 0; let c : Pend := { part := 1, queue := 2, seq := 4, op := 3203 }; s.pur.keyWrite = some (c, key3, 5))
    ∧ (let h : CmdHdr := { hd with part := 5, descPart := 5, seq := 6 }
       let s : State := nth tol 2
       h.may 3 [1] s ∧ (s.slot 3).alg ≠ 0 ∧ (s.slot 3).revoked = false) := by
  and_intros <;> decide +kernel

set_option maxRecDepth 200000 in
/-- The hypotheses of `FlashIsWritten` can be met, clause by clause. -/
theorem witness_FlashIsWritten :
    (let h : CmdHdr := { hd with part := 5, descPart := 5, seq := 6 }
     let s : State := nth fls 5
     h.may (bankLevel 2) [1, 2, 3, 4, 5] s ∧ freeTo 2 h.part s = true ∧ (s.mode ≤ 1 ∨ 2 ≤ 2 ∨ bootBank Side.A s ≠ 2 ∧ bootBank Side.B s ≠ 2))
    ∧ (let data : List Byte := List.replicate 256 1
       let s : State := nth fls 2
       hd.may (bankLevel 1) [1, 2, 3, 4, 5] s ∧ freeTo 1 hd.part s = true ∧ data.length % 256 = 0 ∧ 256 ≤ data.length ∧ data.length ≤ 2048 ∧ 256 +
           data.length ≤ bankSize 1 ∧ Option.map (fun x => x.part) (s.hold 1) = some hd.part ∧ overlapsWritten 1 256 data.length s = false)
    ∧ (let s : State := nth fls 2; s.flashOps 2 = [])
    ∧ (let s : State := nth fls 1
       (s.flashOps 2).head?.isSome = true ∧ (s.serves Side.A = true ∧ false = false ∨ s.serves Side.B = true ∧ false = false))
    ∧ (let s : State := nth fls 1; (s.flashOps 0).head?.isSome = true ∧ s.serves Side.B = false)
    ∧ (let s : State := nth fls 0; Option.any (fun o => decide (s.serves Side.B = true ∧ o.data = none)) (s.flashOps 1).head? = true)
    ∧ (let s : State := nth fls 1
       Option.any (fun o => decide (s.serves Side.A = true ∧ Option.any (fun d => decide (1610612992 < bankBase 2 + o.off ∨ bankBase 2 + o.off +
           d.length ≤ 1610612992)) o.data = true)) (s.flashOps 2).head? = true) := by
  and_intros <;> decide +kernel

end C16

/-! ### Chapter 17 -/

namespace C17
def rt (f : Rtc → Rtc) (s : State) : State := { s with rtc := f s.rtc }
def lg (f : Logbook → Logbook) (s : State) : State := { s with log := f s.log }
def rec1 (c : Nat) : LogRec := { code := c, detail := 5 }
/-- The bytes of a ring sector that holds records, as (sequence number, code). -/
def sec (l : List (Nat × Nat)) : List Byte := sectorHead (l.headD (0, 0)).1 ++ l.flatMap (fun e => recStored (rec1 e.2) e.1 1)
def lcmd : Pend := { part := 1, queue := 2, seq := 4, op := 0x1003 }
def log0 (s : State) : State := lg (fun l => { l with
  buffer := [rec1 0x0201, rec1 0x0902], nextSeq := 7, sector := 3, used := 64,
  flash1 := [(1, [1, 2]), (2, sec [(3, 0x0201)]), (3, sec [(5, 0x0902), (6, 0x1002)])],
  flash2 := [(2, sec [(3, 0x0201)]), (3, sec [(6, 0x1002)])] }) s
def sts : List State := [State.reset, up1, log0 up1, withLevel 1 (log0 up1),
  lg (fun l => { l with limits := [(0x0201, 3)], wrote := [(0x0201, 2)], second := 5, supp := [(0x0201, 9)] }) (log0 up1),
  lg (fun l => { l with limits := [(0x0201, 1)], wrote := [(0x0201, 2)] }) (log0 up1),
  lg (fun l => { l with limits := [(0x0201, 256)], used := 65530, limitCmds := [lcmd, lcmd] }) (log0 up1),
  lg (fun l => { l with clearing := some lcmd }) (log0 up1), lg (fun l => { l with copy1 := false }) { log0 up1 with mode := 1 },
  { log0 up1 with mode := 1 }, lg (fun l => { l with clearing := some lcmd, copy2 := false }) (log0 up1),
  rt (fun r => { r with
    valid := true, period := 100, lowCount := 9, seconds := 77, mem := [(0, 5), (4, 3), (16, 11), (0x90, 7)], staged := [(3, 9)] }) up1,
  rt (fun r => { r with onVbat := true, lowCount := 9, vbatLow := true, mem := [(0, 11), (16, 0xFF)] }) up1, { log0 up1 with mode := 6 },
  both (fun l => { l with slw := { l.slw with inReset := true } }) up1]

set_option maxRecDepth 200000 in
/-- The hypotheses of `ClockAndBackup` can be met, clause by clause. -/
theorem witness_ClockAndBackup :
    (let s : State := nth sts 12; s.rtc.onVbat = true)
    ∧ (let s : State := nth sts 9; s.rtc.onVbat = false ∧ bkpByte s (slipwayAt Side.B) < 11)
    ∧ (let s : State := nth sts 11; s.rtc.onVbat = false ∧ 11 ≤ bkpByte s (slipwayAt Side.B))
    ∧ (let r : Requester := Requester.deckhand Side.A; let s : State := nth sts 8; bkpWriter r 4 s = true ∧ (128 < 4 ∨ 4 + 4 ≤ 128))
    ∧ (let r : Requester := Requester.engine Side.A 4
       let s : State := nth sts 12
       let host : Prop := ∃ p, r = Requester.host p
       (256 ≤ 16 ∨ 16 % 4 ≠ 0 ∨ bkpWriter r 16 s = false) ∧ ¬host)
    ∧ (let r : Requester := Requester.host 1
       let s : State := nth sts 7
       (256 ≤ 256 ∨ 256 % 4 ≠ 0 ∨ bkpWriter r 256 s = false) ∧ r = Requester.host 1)
    ∧ (let r : Requester := Requester.host 1; let s : State := nth sts 9; rtcWriter r s = true)
    ∧ (let r : Requester := Requester.deckhand Side.B
       let s : State := nth sts 12
       let host : Prop := ∃ p, r = Requester.host p
       rtcWriter r s = false ∧ ¬host)
    ∧ (let r : Requester := Requester.host 2; let s : State := nth sts 7; rtcWriter r s = false ∧ r = Requester.host 2)
    ∧ (True)
    ∧ (let r : Requester := Requester.engine Side.A 4
       let w : Word := 5
       let s : State := nth sts 12
       let host : Prop := ∃ p, r = Requester.host p
       ¬host ∧ rtcWriter r s = true ∧ BitVec.toNat w % 2 ^ 25 ≤ wakeMax)
    ∧ (let r : Requester := Requester.deckhand Side.A
       let w : Word := 4294967295
       let s : State := nth sts 10
       let host : Prop := ∃ p, r = Requester.host p
       ¬host ∧ (rtcWriter r s = false ∨ wakeMax < BitVec.toNat w % 2 ^ 25))
    ∧ (let s : State := nth sts 9; let s1 : State := advance 6000000000 s; wakeDue s1.rtc = false)
    ∧ (let s : State := nth sts 11; let s1 : State := advance 6000000000 s; wakeDue s1.rtc = true)
    ∧ (let s : State := nth sts 9; s.rtc.onVbat = false)
    ∧ (let s : State := nth sts 10; s.rtc.onVbat = false ∧ (s.rtc.lowCount < 9 ∨ s.rtc.vbatLow = true))
    ∧ (let s : State := nth sts 11; s.rtc.onVbat = false ∧ 9 ≤ s.rtc.lowCount ∧ s.rtc.vbatLow = false)
    ∧ (let s : State := nth sts 12; s.rtc.onVbat = true ∨ s.uptime = none)
    ∧ (let s : State := nth sts 9; s.rtc.onVbat = false ∧ s.uptime ≠ none)
    ∧ (let s : State := nth sts 12; hd.may 2 [1, 2, 3, 4, 5] s)
    ∧ (let s : State := nth sts 9; hd.may 2 [1, 2, 3, 4, 5] s ∧ 100 ≤ wakeMax)
    ∧ (let data : List Byte := [1, 2, 3, 4, 5, 6, 7, 8]
       let s : State := nth sts 10
       hd.may 2 [1, 2, 3, 4, 5] s ∧ data.length % 4 = 0 ∧ 4 ≤ data.length ∧ data.length ≤ 128 ∧ 144 + data.length ≤ 256 ∧ (132 < 144 ∨ 144 +
           data.length ≤ 132)) := by
  and_intros <;> first
    | decide +kernel
    | ((try dsimp only [onLanding]) <;> and_intros <;> first
         | decide +kernel
         | exact Or.inl rfl
         | exact ⟨.A, by decide +kernel⟩
         | exact ⟨.B, by decide +kernel⟩
         | exact Or.inr ⟨_, rfl, by decide +kernel⟩
         | exact fun ⟨_, e⟩ => by cases e
         | (intro x; cases x <;> decide +kernel))

set_option maxRecDepth 200000 in
/-- The hypotheses of `LogbookKeeps` can be met, clause by clause. -/
theorem witness_LogbookKeeps :
    (let s : State := nth sts 1
     let s1 : State := advance 6000000000 s
     let l : Logbook := s.log
     l.scanning = true ∨ l.clearing ≠ none ∨ l.buffer = [] ∨ ∃ q, q ∈ l.buffer.head? ∧ legOpen q s1 = true)
    ∧ (let s : State := nth sts 13
       let s1 : State := advance 5000100000 s
       let l : Logbook := s.log
       let both : Prop := l.copy1 = true ∧ l.copy2 = true ∧ s.bank1 = true ∧ s.bank2 = true
       let q : LogRec := rec1 513
       let rest : List LogRec := [rec1 2306]
       let n : Nat := limitOf l q.code
       let new : Prop := uptimeMs s1 / 1000 ≠ l.second
       l.scanning = false ∧ l.clearing = none ∧ l.buffer = q :: rest ∧ l.lostPending = 0 ∧ legOpen q s1 = false ∧ (neverSuppressed q.code = true ∨
           n = 255 ∨ (if new then 0 else Tab.get 0 l.wrote q.code) < n) ∧ both ∧ max 16 l.used + recBytes q ≤ 65536)
    ∧ (let s : State := nth sts 5
       let s1 : State := advance 0 s
       let l : Logbook := s.log
       let q : LogRec := rec1 513
       let rest : List LogRec := [rec1 2306]
       let n : Nat := limitOf l q.code
       let new : Prop := uptimeMs s1 / 1000 ≠ l.second
       l.scanning = false ∧ l.clearing = none ∧ l.buffer = q :: rest ∧ l.lostPending = 0 ∧ legOpen q s1 = false ∧ neverSuppressed q.code = false ∧
           n ≠ 255 ∧ n ≤ if new then 0 else Tab.get 0 l.wrote q.code)
    ∧ (let s : State := nth sts 8; let l : Logbook := s.log; l.limitCmds = [])
    ∧ (let s : State := nth sts 6
       let l : Logbook := s.log
       let both : Prop := l.copy1 = true ∧ l.copy2 = true ∧ s.bank1 = true ∧ s.bank2 = true
       l.limitCmds.head?.isSome = true ∧ both)
    ∧ (let s : State := nth sts 8; let l : Logbook := s.log; l.clearing = none)
    ∧ (let s : State := nth sts 7
       let l : Logbook := s.log
       let both : Prop := l.copy1 = true ∧ l.copy2 = true ∧ s.bank1 = true ∧ s.bank2 = true
       l.clearing.isSome = true ∧ both)
    ∧ (let s : State := nth sts 8; hd.may 1 [1, 2, 3, 4, 5] s)
    ∧ (let s : State := nth sts 6
       let l : Logbook := s.log
       hd.may 2 [1, 2, 3, 4, 5] s ∧ severityOf 4098 ≠ none ∧ (List.length l.limits < 1024 ∨ Tab.get 0 l.limits 4098 ≠ 0 ∨ 255 = defaultLimit
           4098))
    ∧ (let s : State := nth sts 9
       let l : Logbook := s.log
       let both : Prop := l.copy1 = true ∧ l.copy2 = true ∧ s.bank1 = true ∧ s.bank2 = true
       let gone : Prop := 2 ≤ 144 ∧ 144 ≠ l.sector
       hd.may 3 [1] s ∧ l.clearing = none ∧ freeTo 6 hd.part s = true ∧ both ∧ gone)
    ∧ (let s : State := nth sts 9
       let l : Logbook := s.log
       let both : Prop := l.copy1 = true ∧ l.copy2 = true ∧ s.bank1 = true ∧ s.bank2 = true
       let gone : Prop := 2 ≤ 0 ∧ 0 ≠ l.sector
       hd.may 3 [1] s ∧ l.clearing = none ∧ freeTo 6 hd.part s = true ∧ both ∧ ¬gone) := by
  and_intros <;> first
    | decide +kernel
    | ((try dsimp only [onLanding]) <;> and_intros <;> first
         | decide +kernel
         | exact Or.inl rfl
         | exact ⟨.A, by decide +kernel⟩
         | exact ⟨.B, by decide +kernel⟩
         | exact Or.inr ⟨_, rfl, by decide +kernel⟩
         | exact fun ⟨_, e⟩ => by cases e
         | (intro x; cases x <;> decide +kernel))

end C17

/-! ### Chapter 18 -/

namespace C18
def off (s : State) : State := { s with uptime := none }
def sp (f : Supply → Supply) (s : State) : State := { s with sup := f s.sup }
def ax : Axis := { st := 4, seg := some { start := 4999999000, n := 20000, k := 281474976710, r := 5 } }
def sts : List State := [State.reset, off up1, up1, { up1 with mode := 1 }, withImg C09.img (both (fun l => { l with axe := { axes := [(4, ax), (9, ax), (2, ax)] } }) up1),
  { withImg C09.img (both (fun l => { l with axe := { axes := [(4, ax), (9, ax), (2, ax)] } }) up1) with pins := { up1.pins with off := 6 } },
  sp (fun u => { u with field := false, stepShort := 6 }) up1,
  sp (fun u => { u with stepShort := 7, hotA := true, landB := false, axin := 255, enc := 255, can := 3 }) up1,
  { up1 with roleA := .standby, roleB := .active, pins := { up1.pins with off := 6 } },
  { up1 with bol := { up1.bol with live := true, outCh := [(0, { on := true }), (5, { on := true })] } },
  sp (fun u => { u with landA := false, bank1 := false }) { up1 with bank1 := false }, { up1 with arb := { up1.arb with gap := some (.A, 5000) } }]

set_option maxRecDepth 200000 in
/-- The hypotheses of `SupplyActs` can be met, clause by clause. -/
theorem witness_SupplyActs :
    (let s : State := nth sts 0; s.uptime = none)
    ∧ (let s : State := nth sts 6; s.uptime ≠ none ∧ s.sup.field = false)
    ∧ (let s : State := nth sts 7; s.uptime ≠ none ∧ s.sup.field = true)
    ∧ (let s : State := nth sts 5; s.uptime ≠ none ∧ domainOn s 5 = false)
    ∧ (let s : State := nth sts 7; s.uptime ≠ none ∧ s.sup.landA = true)
    ∧ (let s : State := nth sts 5; s.uptime ≠ none ∧ s.sup.landB = true)
    ∧ (let s : State := nth sts 7; s.uptime ≠ none ∧ s.sup.bank1 = true)
    ∧ (let s : State := nth sts 7; s.uptime ≠ none ∧ s.sup.bank2 = true)
    ∧ (let s : State := nth sts 7; s.uptime ≠ none ∧ stepChecked s 0 = false)
    ∧ (let s : State := nth sts 7; s.uptime ≠ none ∧ true = true ∧ s.sup.field = true ∧ bitOf s.sup.stepShort 1 = true)
    ∧ (let s : State := nth sts 7; s.uptime ≠ none ∧ false = false)
    ∧ (let s : State := nth sts 5; s.uptime ≠ none ∧ stepChecked s 4 = true ∧ bitOf s.pins.off 4 = false)
    ∧ (let s : State := nth sts 7; s.uptime ≠ none)
    ∧ (let s : State := nth sts 9; s.uptime ≠ none)
    ∧ (let a : Byte := 126
       let c : Byte := 50
       let s : State := nth sts 9
       s.uptime ≠ none ∧ celsius c ≤ 125 ∧ 120 < celsius a ∧ s.sup.landA = true)
    ∧ (let b : Byte := 126
       let c : Byte := 50
       let s : State := nth sts 9
       s.uptime ≠ none ∧ celsius c ≤ 125 ∧ 120 < celsius b ∧ s.sup.landB = true)
    ∧ (let a : Byte := 166
       let b : Byte := 108
       let c : Byte := 126
       let s : State := nth sts 11
       s.uptime ≠ none ∧ 125 < celsius c ∧ celsius a ≤ 120 ∧ celsius b ≤ 120) := by
  and_intros <;> decide +kernel

end C18

/-! ### The queue and the whole machine -/

/-- The hypothesis of `StepRunsFront` and of `QueueInOrder` can be met. -/
theorem witness_queue : ({ up1 with pending := [.purPing hd, .tolLogout hd] } : State).pending = .purPing hd :: [.tolLogout hd] := rfl

/-- The hypothesis of `IdleStep` can be met. -/
theorem witness_IdleStep : up1.pending = [] := rfl

/-- The hypotheses of `OneActiveLanding` can be met, by a state with an active landing. -/
theorem witness_OneActiveLanding : up1.roleA = .active ∧ up1.rolesFit ∧ ∃ t, step up1 = .next t := by
  refine ⟨rfl, ⟨by decide +kernel, by decide +kernel⟩, _, rfl⟩

/-- The hypotheses of `ModeIsLegal` can be met, in `TRANSIT` and in SLIPWAY. -/
theorem witness_ModeIsLegal : up1.modeFit ∧ State.reset.modeFit ∧ (∃ t, step up1 = .next t) ∧ ∃ t, step State.reset = .next t := by
  refine ⟨⟨by decide +kernel, by decide +kernel⟩, ⟨by decide +kernel, by decide +kernel⟩, ⟨_, rfl⟩, _, rfl⟩

/-- A state whose queue 2 of partition 1 took number 5 last. -/
def took5 : State := up1.modPart 1 (fun t => { t with cq := [(2, { lastSeq := some 5 })] })

/-- The hypotheses of `ReplayHasNoEffect` can be met: number 5 again. -/
theorem witness_ReplayHasNoEffect : hostOf (.schBypassLink hd 3) = some (hd, 0x0301) ∧ fresh hd took5 = false := by
  refine ⟨rfl, by decide +kernel⟩

/-- The hypotheses of `WrongCommandsAreRefused` can be met, clause by clause, at the ends of the range of numbers that are stale. -/
theorem witness_WrongCommandsAreRefused :
    (hostOf (.purPing { hd with formed := false }) = some ({ hd with formed := false }, 0x0C07) ∧ ({ hd with formed := false } : CmdHdr).formed = false)
    ∧ (hostOf (.purPing { hd with descPart := 2 }) = some ({ hd with descPart := 2 }, 0x0C07) ∧ (2 : Nat) ≠ hd.part)
    ∧ (hd.seq - hd.seq).toNat < 2 ^ 31 ∧ (hd.seq - ({ hd with seq := 0x80000006 } : CmdHdr).seq).toNat < 2 ^ 31 := by
  refine ⟨⟨rfl, rfl⟩, ⟨rfl, by decide +kernel⟩, by decide +kernel, by decide +kernel⟩

/-! ### Responses to a challenge, and a load that passes -/

theorem beBytes_length (n v : Nat) : (beBytes n v).length = n := by
  unfold beBytes; rw [List.length_reverse]
  induction n generalizing v with
  | zero => rfl
  | succ n ih => simp [leBytes, ih]

theorem sha256_length (m : List Byte) : (sha256 m).length = 32 := by simp [sha256, beBytes_length]

namespace C16
/-- The state in which partition 1 waits for the answer to a challenge on key slot 3. -/
def asked (s : State) (fails : Nat) (alg : Nat) : State :=
  pq (fun p => { p with slots := [(3, { key3 with alg := alg })] })
    (s.modPart 1 (fun t => { t with challenge := some chal, level := 3, fails := fails }))

/-- The clauses of `TollhouseKeeps` about a response that answers the challenge, in time and too late. -/
theorem witness_TollhouseKeeps_answered :
    (let s : State := asked up1 0 1
     hd.may 0 [1, 2, 3, 4, 5] s ∧ okResp.length = 64 ∧ (s.part hd.part).challenge = some chal
       ∧ responseOk (s.slot chal.slot) chal hd.part okResp = true ∧ challengeOld chal (advance hd.at_ s) = false)
    ∧ (let s : State := asked (atLate up1) 0 1
       hd.may 0 [1, 2, 3, 4, 5] s ∧ challengeOld chal (advance hd.at_ s) = true) := by
  have hs : ∀ n, (asked up1 n 1).slot 3 = key3 := fun n => by rfl
  refine ⟨⟨by decide +kernel, ?_, by decide +kernel, ?_, by decide +kernel⟩, by decide +kernel, by decide +kernel⟩
  · simp [okResp, hmac256, sha256_length]
  · show responseOk ((asked up1 0 1).slot 3) chal 1 okResp = true
    rw [hs]; simp [responseOk, okResp, key3]

/-- The clauses of `TollhouseKeeps` about a response that does not, as the first and as the third in a row. -/
theorem witness_TollhouseKeeps_wrong :
    let resp : List Byte := List.replicate 64 0
    (hd.may 0 [1, 2, 3, 4, 5] (asked up1 0 2) ∧ resp.length = 64 ∧ ((asked up1 0 2).part hd.part).challenge = some chal
      ∧ responseOk ((asked up1 0 2).slot chal.slot) chal hd.part resp = false ∧ ((asked up1 0 2).part hd.part).fails < 2)
    ∧ (hd.may 0 [1, 2, 3, 4, 5] (asked up1 2 2) ∧ ((asked up1 2 2).part hd.part).challenge = some chal
      ∧ responseOk ((asked up1 2 2).slot chal.slot) chal hd.part resp = false ∧ 2 ≤ ((asked up1 2 2).part hd.part).fails) := by
  refine ⟨⟨?_, ?_, ?_, ?_, ?_⟩, ?_, ?_, ?_, ?_⟩ <;> decide +kernel
end C16

namespace C11
/-- Landing A loads that image from bank 0. -/
def loading : State := withLoad .A (ld 2 0) (good up1)

theorem loading_advance : advance 0 loading = loading := by
  unfold advance; exact if_pos (by decide +kernel)

/-- The image as it lies in the flash. -/
abbrev burnt : Tab Byte := flashImage (good up1).a 0

theorem firstRefusal_none {l : List (Nat × (Unit → Option Nat))} (h : ∀ c ∈ l, c.2 () = none) : firstRefusal l = none := by
  induction l with
  | nil => rfl
  | cons c t ih =>
    unfold firstRefusal; rw [h c (List.mem_cons_self ..)]
    exact ih fun d hd => h d (List.mem_cons_of_mem _ hd)

section
set_option maxRecDepth 200000
theorem image_header : headerBad burnt = none := by decide +kernel
theorem image_length : lengthBad burnt 608 = none := by decide +kernel
theorem image_section : sectionBad burnt = none := by decide +kernel
theorem image_crc : crcBad burnt = none := by decide +kernel
theorem image_signature : signatureBad loading burnt = none := by decide +kernel
theorem image_hwrev : hwrevBad burnt = none := by decide +kernel
theorem image_contract : contractBad burnt = none := by decide +kernel
theorem image_trim : trimBad burnt = none := by decide +kernel
theorem image_cycle : cycleBad burnt = none := by decide +kernel
theorem image_slot : slotBad burnt = none := by decide +kernel
theorem image_fare : fareBad burnt = none := by decide +kernel
theorem image_dispatch : dispatchBad burnt = none := by decide +kernel
theorem image_dep : depBad burnt = none := by decide +kernel
theorem image_memory : memoryBad burnt (areaBytes loading) = none := by decide +kernel
theorem image_tile : tileBad burnt = none := by decide +kernel
theorem image_voyage : voyageBad burnt = none := by decide +kernel
theorem image_digest : digestBad burnt (areaBytes loading) = none := by decide +kernel
theorem image_safe : safeBad burnt = none := by decide +kernel
theorem image_window : windowBad burnt (areaBytes loading) = none := by decide +kernel
theorem image_admission : admissionBad burnt (areaBytes loading) = none := by decide +kernel
end

/-- The image passes every check. -/
theorem loading_image : verify loading burnt 608 = none := by
  refine firstRefusal_none fun c hc => ?_
  simp only [checksOf, List.mem_cons, List.not_mem_nil, or_false] at hc
  rcases hc with rfl | rfl | rfl | rfl | rfl | rfl | rfl | rfl | rfl | rfl | rfl | rfl | rfl | rfl | rfl | rfl | rfl | rfl | rfl | rfl
  all_goals dsimp only
  · exact image_header
  · exact image_length
  · exact image_section
  · exact image_crc
  · exact image_signature
  · exact image_hwrev
  · exact image_contract
  · exact image_trim
  · exact image_cycle
  · exact image_slot
  · exact image_fare
  · exact image_dispatch
  · exact image_dep
  · exact image_memory
  · exact image_tile
  · exact image_voyage
  · exact image_digest
  · exact image_safe
  · exact image_window
  · exact image_admission

/-- The clause of `ModesAndLoads` about an image that passes every check can be met. -/
theorem witness_ModesAndLoads_passes : loading.loadOf .A = some (ld 2 0) ∧ (ld 2 0).bank = 0 ∧ (ld 2 0).kind = 2 ∧ (ld 2 0).cmd = some cmd
    ∧ verify (advance 0 loading) (flashImage (loading.ld .A) 0) 608 = none := by
  refine ⟨by decide +kernel, rfl, rfl, rfl, ?_⟩
  rw [loading_advance]; exact loading_image

theorem changing_advance : advance 0 (changing up1) = changing up1 := by
  unfold advance; exact if_pos (by decide +kernel)

/-- The verdict on an image depends on the key slots and the size of the apron alone. -/
theorem verify_congr {s t : State} (h : ∀ k, s.slot k = t.slot k) (ha : areaBytes s = areaBytes t) (m : Tab Byte) (n : Nat) :
    verify s m n = verify t m n := by
  have : signatureBad s m = signatureBad t m := by unfold signatureBad; simp only [h]
  unfold verify checksOf; rw [this, ha]

set_option maxRecDepth 200000 in
/-- The new image of a manifest change is the one above, and passes every check. -/
theorem changing_image : verify (changing up1) (flashImage ((changing up1).ld .B) 0) 608 = none := by
  have e : flashImage ((changing up1).ld .B) 0 = burnt := by decide +kernel
  have k : ∀ k, (changing up1).slot k = loading.slot k := by
    have e : (changing up1).pur.slots = loading.pur.slots := by decide +kernel
    intro k; unfold State.slot; rw [e]
  rw [e, verify_congr k (by decide +kernel)]; exact loading_image

/-- The clauses of `ModesAndLoads` about the new image of a manifest change, with other rates and with the same, can be met. -/
theorem witness_ModesAndLoads_change :
    let q : Load := { ld 3 0 with cmd := none }
    let img := flashImage ((changing up1).ld .B) 0
    ((changing (withImg linked up1)).loadOf .B = some q ∧ q.bank = 0 ∧ q.kind = 3
      ∧ rateChange ((changing (withImg linked up1)).ld .A).fmn.img img = true)
    ∧ (changing up1).loadOf .B = some q ∧ rateChange ((changing up1).ld .A).fmn.img img = false
    ∧ verify (advance 0 (changing up1)) img 608 = none := by
  refine ⟨⟨by decide +kernel, rfl, rfl, by decide +kernel⟩, by decide +kernel, by decide +kernel, ?_⟩
  rw [changing_advance]; exact changing_image
end C11

/-! ### Values from published examples and from the spec -/

/-- No row of the operation table has bits. -/
theorem test_noRowHasBits : decodeTableWord 32 0x12345678 = none ∧ decodeTableWord 0 0 = none := by decide

/-- The check value of CRC-32 over "123456789", from its catalogue entry. -/
theorem test_crc32 : crc32 [0x31, 0x32, 0x33, 0x34, 0x35, 0x36, 0x37, 0x38, 0x39] = 0xCBF43926 := by decide +kernel

/-- SHA-256 of "abc" (FIPS 180-4, example): its first and last words. -/
theorem test_sha256 : (sha256 [0x61, 0x62, 0x63]).take 4 = [0xba, 0x78, 0x16, 0xbf] ∧ (sha256 [0x61, 0x62, 0x63]).drop 28 = [0xf2, 0x00, 0x15, 0xad] := by
  decide +kernel

/-- 0.1 + 0.2 in binary64 (IEEE 754), and the largest value doubled. -/
theorem test_fp64 : F64.add 0x3FB999999999999A 0x3FC999999999999A = 0x3FD3333333333334
    ∧ F64.add 0x7FEFFFFFFFFFFFFF 0x7FEFFFFFFFFFFFFF = 0x7FF0000000000000 := by decide +kernel

/-- ADD wraps (03 R120): the largest word plus one is zero, in the bundle's next cycle. -/
theorem test_add_wraps :
    let s : State := { up1 with a := { up1.a with tiles := [(0, { g := [(1, ⟨0xFFFFFFFFFFFFFFFF, false⟩), (2, ⟨1, false⟩)] })] } }
    (match exec (.add .A 0 0 (C04.syl 0 0 0 3 1 2 0)) s with
      | .next t => (readG ((settle .A 0 1 t).tile .A 0) 3).v == 0 | _ => false) = true := by decide +kernel

/-- A write of ones clears the event bits written (00 R12, R27). -/
theorem test_event_write :
    let s : State := { up1 with a := { up1.a with events := [(4, 0xFF)] } }
    (match exec (.registerWrite 0 (.deckhand .A) { addr := 0x30040004 } 0x0F 0) s with
      | .next t => Tab.get 0 t.a.events 4 == 0xF0 | _ => false) = true := by decide +kernel

/-! ### Ill-formed commands

An ill-formed command for each check of `wellFormed` is refused (the syllables stand below). -/

theorem test_illFormed0 : ([
 .registerWrite 0 (.host 8) { addr := 0 } 0 0, .registerWrite 0 (.deckhand .A) { addr := 0, size := 3 } 0 0, .rcRead 0 (.host 8) { addr := 0 } 0,
  .rcRead 0 (.deckhand .A) { addr := 0, size := 16 } 0, .pairLowRead 0 (.host 8) { addr := 0 }, .pairLowWrite 0 (.host 8) { addr := 0 } 0,
  .pairHighWrite 0 (.host 8) { addr := 0 } 0, .pairHighWrite 0 (.deckhand .A) { addr := 0, size := 0 } 0,
  .crossingTick 0 .both [{ ant := 2, count := 0 }], .arrivalRecord 0 none 2 0 0 [], .arrivalRecord 0 none 8 0 0 [],
  .arrivalRecord 0 none 3 8 0 [], .slotTransfer 0 .A 0 [(32, 0)], .fareGrant 0 .A 0 8 [], .fareGrant 0 .A 0 0 [{ who := 11 }],
  .lspFareWait 0 .A 10, .verificationComplete 0 .A 2 0 true, .tileStart .A 16 0 0, .uplinkFrame 0 16 none none, .frameVerdict 0 16,
  .downlinkWord 0 16 0, .calRunStart 0 16, .calResult 0 16, .schBypassLink { hd with part := 8 } 0,
  .schRestoreLink { hd with part := 8 } 0, .schSetUserCal { hd with part := 8 } 0 0 0 0, .schDcFreeze { hd with part := 8 } 0 true,
  .timePulseOutput 0 2, .gnsAntennaOff { hd with part := 8 } 0, .gnsAntennaOn { hd with part := 8 } 0,
  .gnsSaveAiding { hd with part := 8 }, .gnsClearAiding { hd with part := 8 }, .gnsMag 0 2 0, .gnsMag 0 0 2,
  .fusExclude { hd with part := 8 } 0, .fusReadmit { hd with part := 8 } 0, .fusPinTrack { hd with part := 8 } 0 0 0 0 0 0 0,
  .fusReleaseTrack { hd with part := 8 } 0, .fusSetTransform { hd with part := 8 } 0 [], .fusSetTransform hd 0 (List.replicate 4081 0),
  .fusSetOrigin { hd with part := 8 } 0 0 0] : List Instr).all (fun c => !wellFormed c) = true := by decide +kernel

theorem test_illFormed1 : ([
 .apply 0 .A 64, .ctlWrite { hd with part := 8 } [], .ctlWrite hd (List.replicate 4081 0), .ctlSwap { hd with part := 8 } 0 0 0,
  .startDurationEnd 0 64, .axeStop { hd with part := 8 } 0, .axeResume { hd with part := 8 } 0, .axeHome { hd with part := 8 } 0,
  .axeClearLimit { hd with part := 8 } 0, .axeStart { hd with part := 8 } 0, .axeOff { hd with part := 8 } 0,
  .axePower { hd with part := 8 } 0 0 0 0, .axeStartTimeout 0 64, .axePmsStale 0 4, .bankWithdraw 0 3,
  .cblOutOfService { hd with part := 8 } 0, .cblMemtest { hd with part := 8 } 0, .cblReload { hd with part := 8 } 0 0,
  .cblResync { hd with part := 8 } 0, .cblHoldReturn { hd with part := 8 } 0, .cblManifestChange { hd with part := 8 } 0 0,
  .cblConfirmChange { hd with part := 8 }, .cblAdriftRelease { hd with part := 8 }, .dkhSetMode { hd with part := 8 } 0 0 0 0 0 0,
  .slwLoad { hd with part := 8 } 0, .slwRestart { hd with part := 8 } 0, .slwStageTimeout 0 .A 2, .slwStageTimeout 0 .A 12,
  .memBucketCfg 0 (.host 8) .A 0, .memScrubCfg 0 (.host 8) .A 0, .remap 0 .A [(8, 0)] true true, .scrubLine 0 .A [8] [],
  .scrubLine 0 .A [] [8], .memtestComplete 0 .A [] [32] 0, .stopDelayEnd 0 16, .safeTelegram 0 2 [], .telegramTransmit 0 8 true,
  .bolWriteParams { hd with part := 8 } [], .bolWriteParams hd (List.replicate 4081 0), .bolAck { hd with part := 8 } 0] : List Instr).all (fun c => !wellFormed c) = true := by decide +kernel

theorem test_illFormed2 : ([
 .bolTelegramTimeout 0 8, .canFrameReceived 0 .A 8 {}, .canFrameReceived 0 .A 0 { dlen := 65 }, .canFrameSent 0 .A 8 {},
  .canFrameSent 0 .A 0 { dlen := 65 }, .canBusError 0 .A 8 { typ := 1 }, .canBusError 0 .A 0 { typ := 0 },
  .canBusError 0 .A 0 { typ := 6 }, .busOffRecovery 0 8, .referenceMessage 0 8 0, .canIsolate { hd with part := 8 } 0,
  .canRestore { hd with part := 8 } 0, .canBusOn { hd with part := 8 } 0, .canReleaseId { hd with part := 8 } 0 0 true, .canRefLate 0 8,
  .ethFrameReceived 0 .A 4 { bytes := [] }, .launch 0 .A 4 0, .linkChange 0 .A 4 true, .syncReceived 0 4 0 0 0 0,
  .syncReceived 0 0 4 0 0 0, .pdelayRequest 0 .A 4, .masterMessageTransmit 0 4 true, .ethSetReference { hd with part := 8 } true,
  .ethStepTime { hd with part := 8 } 0, .ethTbLost 0 4, .write 0 4 0 [] true, .writePerformed 0 4, .readReq 0 4 0 0 true,
  .readComplete 0 4, .readBuf 0 4 0 0 true, .status 0 4, .doorbell 0 4 0 0, .doorbell 0 0 4 0, .eventHeadWrite 0 8 0 0,
  .eventHeadWrite 0 0 4 0, .eventEntryWrite 0 8 0, .eventEntryWrite 0 0 4, .flashOperationComplete 0 4 true true, .levelTimeout 0 8,
  .lockoutEnd 0 8] : List Instr).all (fun c => !wellFormed c) = true := by decide +kernel

theorem test_illFormed3 : ([
 .purSubscribe { hd with part := 8 } 0 0, .purAckAlarm { hd with part := 8 } 0, .purRead { hd with part := 8 } 0 0,
  .purSetQueue { hd with part := 8 } 0 0 0, .purResend { hd with part := 8 } 0 0, .purRelease { hd with part := 8 } 0 0,
  .purPing { hd with part := 8 }, .tolChallenge { hd with part := 8 } 0 0, .tolResponse { hd with part := 8 } [],
  .tolResponse hd (List.replicate 4081 0), .tolLogout { hd with part := 8 }, .tolKeyWrite { hd with part := 8 } [],
  .tolKeyWrite hd (List.replicate 4081 0), .tolKeyRevoke { hd with part := 8 } 0, .tolJtagUnlock { hd with part := 8 },
  .dkhImageErase { hd with part := 8 } 0, .dkhImageWrite { hd with part := 8 } 0 0 [], .dkhImageWrite hd 0 0 (List.replicate 4081 0),
  .dkhImageClose { hd with part := 8 } 0, .purHoldExpired 0 7, .backupWrite 0 (.host 8) 0 0, .backupWrite 0 (.deckhand .A) 1 0,
  .rtcSnapshot 0 (.host 8), .rtcCommit 0 (.host 8) 0, .rtcStageSubsec 0 (.host 8) 0, .rtcWake 0 (.host 8) 0,
  .rtcSet { hd with part := 8 } 0 0, .rtcSetWake { hd with part := 8 } 0, .rtcBkpWrite { hd with part := 8 } 0 [],
  .rtcBkpWrite hd 0 (List.replicate 4081 0), .logRead { hd with part := 8 } 0 0, .logSetLimit { hd with part := 8 } 0 0,
  .logClear { hd with part := 8 }, .stepDriverRetry 0 32 true, .supV24High 0 2 0, .supReversed 0 2 0, .supV24Restored 0 2 0,
  .supDomainLost 0 5, .supStepShort 0 32, .supStepOpen 0 32 0] : List Instr).all (fun c => !wellFormed c) = true := by decide +kernel

theorem test_illFormed4 : ([
 .supAxinRange 0 64, .supEncRange 0 16, .supCanBus 0 8 0, .supTpFault 0 2 0, .delayReqTransmit 0 4 none, .safetyOutputOvercurrent 0 8 1,
  .safetyOutputOvercurrent 0 0 0, .safetyOutputOvercurrent 0 0 3, .axinRangeRestored 0 64, .encoderLineRestored 0 16] : List Instr).all (fun c => !wellFormed c) = true := by decide +kernel


/-- A syllable of a tile that does not exist is refused. -/
theorem test_illFormedSyllables :
    [Instr.nop, .add, .sub, .and, .or, .xor, .shl, .shr, .sar, .min, .max, .minu, .maxu, .mov, .movi, .sel, .cmpeq, .cmpne, .cmplt, .cmple,
    .cmpltu, .cmpleu, .pand, .por, .pxor, .pnot, .ptst, .exts, .extu, .qadd, .qsub, .clz, .mul, .mulh, .mulhu, .qmul, .sats, .fadd, .fsub,
    .fmul, .fma, .fms, .fmin, .fmax, .fabs, .fneg, .fdiv, .fsqrt, .fcmpeq, .fcmplt, .fcmple, .fcmpun, .fcvtif, .fcvtfi, .fcvtff, .fcvtqf,
    .fcvtfq, .vbcast, .vext, .vins, .vsum, .vmov, .ldb, .ldbu, .ldh, .ldhu, .ldw, .ldwu, .ldd, .ldv, .stb, .sth, .stw, .std, .stv, .mfs,
    .mts, .loop, .endProg].all (fun f => !wellFormed (f .A 16 0 0)) = true := by decide +kernel

end Sys2Proof.Tests
end

section
/-!
The queue of commands (00 R22 to R24): every command answers a next state and leaves the commands behind it as they are.
-/
namespace Sys2Proof.Machine
set_option Elab.async false -- one proof at a time, as in the tests: the compile is close to its memory limit

/-! ### Commands that the `Same` lemmas reach only by parts -/

/-- A change of the named axes of both landings. -/
theorem modAxes_same (l : List Nat) (f : Axis → Axis) (s : State) :
    Same (eachSide (fun _ => true) (fun x s => l.foldl (fun s a => s.modAxis x a f) s) s) s :=
  eachSide_same _ _ _ fun _ _ => foldl_same _ _ _ fun _ _ => modAxis_same ..

theorem execAxeStop_pending (h : CmdHdr) (mask : Nat) (s : State) :
    ∃ t, execAxeStop h mask s = .next t ∧ t.pending = s.pending :=
  ⟨_, rfl, (hostCommand_same _ _ _ _ _ fun _ => modAxes_same ..).1⟩

theorem execAxeResume_pending (h : CmdHdr) (mask : Nat) (s : State) :
    ∃ t, execAxeResume h mask s = .next t ∧ t.pending = s.pending :=
  ⟨_, rfl, (hostCommand_same _ _ _ _ _ fun _ => modAxes_same ..).1⟩

theorem execAxePower_pending (h : CmdHdr) (bus l a r : Nat) (s : State) :
    ∃ t, execAxePower h bus l a r s = .next t ∧ t.pending = s.pending :=
  ⟨_, rfl, (hostCommand_same _ _ _ _ _ fun _ =>
    eachSide_same _ _ _ fun _ _ => withLedger_same _ _ _ _ fun _ => modBus_same ..).1⟩

theorem execCblOutOfService_pending (h : CmdHdr) (side : Nat) (s : State) :
    ∃ t, execCblOutOfService h side s = .next t ∧ t.pending = s.pending :=
  ⟨_, rfl, (hostCommand_queue _ _ _ _ _ fun _ => outOfService_same ..).1⟩

theorem execSlwRestart_pending (h : CmdHdr) (side : Nat) (s : State) :
    ∃ t, execSlwRestart h side s = .next t ∧ t.pending = s.pending :=
  ⟨_, rfl, (hostCommand_queue _ _ _ _ _ fun _ => restartLanding_same ..).1⟩

theorem execCblConfirmChange_pending (h : CmdHdr) (s : State) :
    ∃ t, execCblConfirmChange h s = .next t ∧ t.pending = s.pending := by
  refine ⟨_, rfl, (hostCommand_same _ _ _ _ _ fun u => ?_).1⟩
  cases u.arb.change <;> simp

theorem execTolResponse_pending (h : CmdHdr) (resp : List Byte) (s : State) :
    ∃ t, execTolResponse h resp s = .next t ∧ t.pending = s.pending := by
  refine ⟨_, rfl, (hostCommandF_same _ _ _ _ _ _ (fun u => ?_) (fun st u => ?_)).1⟩
  · cases (u.part h.part).challenge <;> simp
  · exact ite_same (by simp) (ite_same (by simp) (ite_same (by simp) (by simp)))

theorem execPositionSave_pending (at_ : Nat) (s : State) :
    ∃ t, execPositionSave at_ s = .next t ∧ t.pending = s.pending := by
  refine ⟨_, rfl, ?_⟩
  cases aidBytes (advance at_ s) ((advance at_ s).ld (advance at_ s).lead).gns <;> simp

theorem execLockoutEnd_pending (at_ p : Nat) (s : State) :
    ∃ t, execLockoutEnd at_ p s = .next t ∧ t.pending = s.pending := by
  refine ⟨_, rfl, ?_⟩
  cases ((advance at_ s).part p).lockoutEnd <;> simp

theorem execPurHoldExpired_pending (at_ res : Nat) (s : State) :
    ∃ t, execPurHoldExpired at_ res s = .next t ∧ t.pending = s.pending := by
  refine ⟨_, rfl, ?_⟩
  cases (advance at_ s).hold res <;> simp

theorem execTemperatureRead_pending (at_ : Nat) (a b c base : Byte) (va vb : Word) (s : State) :
    ∃ t, execTemperatureRead at_ a b c base va vb s = .next t ∧ t.pending = s.pending :=
  ⟨_, rfl, found_ind (·.pending = s.pending) _ _ (fun h => (readTemps_pending ..).trans h) (advance_pending ..)⟩

theorem execSupDomainLost_pending (at_ domain : Nat) (s : State) :
    ∃ t, execSupDomainLost at_ domain s = .next t ∧ t.pending = s.pending :=
  ⟨_, rfl, found_ind (·.pending = s.pending) _ _ (fun _ => by simp) (advance_pending ..)⟩

/-! ### Every command -/

/-- No command stops the block and none touches the queue: the operations of the commands not named here are all covered by simp's
`Same` lemmas. -/
theorem exec_pending (c : Instr) (s : State) : ∃ t, exec c s = .next t ∧ t.pending = s.pending := by
  cases c with
  | axeStop h mask => exact execAxeStop_pending ..
  | axeResume h mask => exact execAxeResume_pending ..
  | axePower h bus l a r => exact execAxePower_pending ..
  | cblOutOfService h side => exact execCblOutOfService_pending ..
  | slwRestart h side => exact execSlwRestart_pending ..
  | cblConfirmChange h => exact execCblConfirmChange_pending ..
  | tolResponse h resp => exact execTolResponse_pending ..
  | positionSave at_ => exact execPositionSave_pending ..
  | lockoutEnd at_ p => exact execLockoutEnd_pending ..
  | purHoldExpired at_ res => exact execPurHoldExpired_pending ..
  | temperatureRead at_ a b c base va vb => exact execTemperatureRead_pending ..
  | supDomainLost at_ domain => exact execSupDomainLost_pending ..
  | _ => exact ⟨_, rfl, by simp⟩

/-- Settles O2: a step runs the front of the queue on the rest of it, and the command leaves that rest. -/
theorem queueInOrder : Obligations.QueueInOrder := by
  unfold Obligations.QueueInOrder
  intro c q s hq
  have hstep : step s = exec c { s with pending := q } := by unfold step; rw [hq]
  rw [hstep]
  exact exec_pending c { s with pending := q }

end Sys2Proof.Machine
end

section
/-!
Descriptors that are refused (00 R23, 16 R614) and sequence numbers that are taken (16 R617).
-/
namespace Sys2Proof.Machine
set_option Elab.async false -- one proof at a time, as in the tests: the compile is close to its memory limit

/-! ### Malformed descriptors -/

/-- The header's own faults: lengths, flags or reserved bytes not as the command's table has them, a descriptor that names another queue,
or a queue that does not exist (16 R614). -/
def Malformed (h : CmdHdr) : Prop :=
  h.formed = false ∨ h.descPart ≠ h.part ∨ h.descQueue ≠ h.queue ∨ 7 < h.part ∨ 3 < h.queue

/-- The format check comes first, whatever the command asks (00 R23). -/
theorem checkCommand_malformed {h : CmdHdr} (hm : Malformed h) (k : Asks) (s : State) : checkCommand h k s = some .format := by
  unfold checkCommand
  refine if_pos ?_
  rcases hm with hf | hp | hq | hp | hq <;> simp [*]

theorem hostCommandF_malformed {h : CmdHdr} (hm : Malformed h) (op : Nat) (asks : State → Asks) (eff : State → Answer)
    (onFail : Status → State → State) (hf : ∀ u, onFail .format u = u) (s : State) :
    hostCommandF h op asks eff onFail s = (advance h.at_ s).answered h op .format [] := by
  unfold hostCommandF
  simp only [checkCommand_malformed hm, hf, reduceCtorEq, ↓reduceIte]
  rfl

theorem hostCommand_malformed {h : CmdHdr} (hm : Malformed h) (op : Nat) (asks : State → Asks) (eff : State → Answer) (s : State) :
    hostCommand h op asks eff s = (advance h.at_ s).answered h op .format [] :=
  hostCommandF_malformed hm op asks eff _ (fun _ => rfl) s

theorem setMode_malformed {h : CmdHdr} (hm : Malformed h) (mode flags target : Nat) (north east heading : DWord) (s : State) :
    setMode h mode flags target north east heading s = (advance h.at_ s).answered h 0x1301 .format [] := by
  unfold setMode
  simp only [checkCommand_malformed hm, reduceCtorEq, ↓reduceIte]
  rfl

/-- Whichever of the 64 host commands it is. -/
theorem exec_malformed {h : CmdHdr} (hm : Malformed h) {i : Instr} {op : Nat} (hi : hostOf i = some (h, op)) (s : State) :
    exec i s = .next ((advance h.at_ s).answered h op .format []) := by
  cases i with
  | dkhSetMode h' mode flags target north east heading =>
    cases hi
    exact congrArg Host.Outcome.next (setMode_malformed hm ..)
  | purRead h' addr len =>
    cases hi
    exact congrArg Host.Outcome.next (hostCommandF_malformed hm _ _ _ _ (fun u => by simp) _)
  | tolResponse h' resp =>
    cases hi
    exact congrArg Host.Outcome.next (hostCommandF_malformed hm _ _ _ _ (fun u => by simp) _)
  | _ => cases hi <;> exact congrArg Host.Outcome.next (hostCommand_malformed hm ..)

/-! ### Sequence numbers -/

/-- The number that a command that passed took is its queue's last one. -/
theorem begun_lastSeq (h : CmdHdr) (s : State) : (Tab.get {} ((s.begun h).part h.part).cq h.queue).lastSeq = some h.seq := by
  simp [State.begun, accept, State.modPart, State.part]

/-- A number up to 2^31 − 1 behind the last one does not lie from 1 to 2^31 after it. -/
theorem behind_not_ahead (a b : Word) (h : (a - b).toNat < 2 ^ 31) : ¬(1 ≤ (b - a).toNat ∧ (b - a).toNat ≤ 2 ^ 31) := by
  bv_omega

theorem fresh_of_lastSeq {k : CmdHdr} {s : State} {a : Word} (h : (Tab.get {} (s.part k.part).cq k.queue).lastSeq = some a) :
    fresh k s = decide (1 ≤ (k.seq - a).toNat ∧ (k.seq - a).toNat ≤ 2 ^ 31) := by
  simp [fresh, h]

/-- Settles O8: the format check refuses before every other, and the taken number becomes the queue's last one. -/
theorem wrongCommandsAreRefused : Obligations.WrongCommandsAreRefused := by
  unfold Obligations.WrongCommandsAreRefused
  constructor
  · intro i h op s hi hm
    exact exec_malformed hm hi s
  · intro h k s hp hq hseq
    have hlast : (Tab.get {} ((s.begun h).part k.part).cq k.queue).lastSeq = some h.seq := by rw [hp, hq]; exact begun_lastSeq h s
    rw [fresh_of_lastSeq hlast]
    exact decide_eq_false (behind_not_ahead _ _ hseq)

end Sys2Proof.Machine
end

section
/-!
Raising a fault (00 R28): what its parts leave of the event bits, the queues, the alarms and the accusations.
-/
namespace Sys2Proof.Machine
set_option Elab.async false -- one proof at a time, as in the tests: the compile is close to its memory limit

/-! ### A raising in its parts -/

theorem raise_eq_react {code : Nat} {sev : Sev} (h : severityOf code = some sev) (src : Source) (detail : Nat) (s : State) :
    raise src code detail s = react src code detail sev (logPut (faultRec src code detail none s) s) := by
  simp [raise, raiseOwn, h]

theorem accuses_iff (sev : Sev) : sev.accuses = true ↔ sev = .accuse ∨ sev = .halt := by cases sev <;> decide
theorem alarms_iff (sev : Sev) : sev.alarms = true ↔ sev = .alarm ∨ sev = .accuse ∨ sev = .halt := by cases sev <;> decide
theorem posts_iff (sev : Sev) : sev.posts = true ↔ sev ≠ .note := by cases sev <;> decide

/-! ### What each part leaves -/

@[simp] theorem postEvent_events (src : Source) (code detail : Nat) (sev : Sev) (s : State) :
    (postEvent src code detail sev s).events = s.events := by unfold postEvent; split <;> simp
@[simp] theorem postEvent_ld (src : Source) (code detail : Nat) (sev : Sev) (s : State) (x : Side) :
    (postEvent src code detail sev s).ld x = s.ld x := by unfold postEvent; split <;> simp
@[simp] theorem setAlarm_events (src : Source) (code : Nat) (sev : Sev) (s : State) : (setAlarm src code sev s).events = s.events := by
  unfold setAlarm; split <;> rfl
@[simp] theorem setAlarm_ld (src : Source) (code : Nat) (sev : Sev) (s : State) (x : Side) :
    (setAlarm src code sev s).ld x = s.ld x := by unfold setAlarm; split <;> cases x <;> rfl
@[simp] theorem accuseFor_events (src : Source) (code : Nat) (sev : Sev) (s : State) : (accuseFor src code sev s).events = s.events := by
  unfold accuseFor; split <;> simp
@[simp] theorem accuseFor_pur (src : Source) (code : Nat) (sev : Sev) (s : State) : (accuseFor src code sev s).pur = s.pur := by
  unfold accuseFor; split <;> simp

/-- An accusation leaves the event registers of both landings. -/
@[simp] theorem accuse_ld_events (y : Side) (code : Nat) (sev : Sev) (s : State) (x : Side) :
    ((accuse y code sev s).ld x).events = (s.ld x).events := by
  unfold accuse
  by_cases hx : x = y
  · subst hx
    simp only [modLd_ld]
    split <;> rfl
  · rw [modLd_ne _ _ _ _ hx]
@[simp] theorem accuseFor_ld_events (src : Source) (code : Nat) (sev : Sev) (s : State) (x : Side) :
    ((accuseFor src code sev s).ld x).events = (s.ld x).events := by unfold accuseFor; split <;> simp

/-! ### What each part does -/

theorem setEvent_landing_bit {code u b : Nat} (h : eventBit code = some (u, b)) (hu : u ≠ 0x0C) (x : Side) (s : State) :
    bitOf (Tab.get 0 ((setEvent (.landing x) code s).ld x).events u) b = true := by
  simp [setEvent, h, hu, setBitIn_bit]

theorem setEvent_cable_bit {code u b : Nat} (h : eventBit code = some (u, b)) (s : State) :
    bitOf (Tab.get 0 (setEvent .cable code s).events u) b = true := by
  simp [setEvent, h, setBitIn_bit]

theorem postEvent_waiting (src : Source) (code detail : Nat) (sev : Sev) (s : State) (p q : Nat) (hp : p < 8) :
    (Tab.get {} ((postEvent src code detail sev s).part p).eq q).waiting
      = if sev ≠ .note ∧ bitOf (s.part p).subMask (unitOf code - 1) = true ∧ q = (s.part p).subQ then
          (Tab.get {} (s.part p).eq q).waiting ++ [{ typ := 2, stat := sevNum sev, op := code, source := srcNum src code,
                                                     word := detail % 2 ^ 32, time := s.nowNs }]
        else (Tab.get {} (s.part p).eq q).waiting := by
  unfold postEvent
  split
  · rename_i h
    simp [postSubscribed_waiting, (posts_iff sev).mp h, hp]
  · rename_i h
    have hn : sev = .note := not_not.mp (mt (posts_iff sev).mpr h)
    simp [hn]

theorem setAlarm_mem {sev : Sev} (h : sev.alarms = true) (src : Source) (code : Nat) (s : State) :
    code ∈ (setAlarm src code sev s).pur.alarms := by
  unfold setAlarm
  split
  · simp
  · rename_i hc
    simpa [h] using hc

/-! ### The raising -/

section
variable {code : Nat} {sev : Sev} (h : severityOf code = some sev)
include h

theorem raise_landing_bit {u b : Nat} (hb : eventBit code = some (u, b)) (hu : u ≠ 0x0C) (x : Side) (detail : Nat) (s : State) :
    bitOf (Tab.get 0 ((raise (.landing x) code detail s).ld x).events u) b = true := by
  rw [raise_eq_react h]
  simp [react, setEvent_landing_bit hb hu]

theorem raise_cable_bit {u b : Nat} (hb : eventBit code = some (u, b)) (detail : Nat) (s : State) :
    bitOf (Tab.get 0 (raise .cable code detail s).events u) b = true := by
  rw [raise_eq_react h]
  simp [react, setEvent_cable_bit hb]

theorem raise_waiting (src : Source) (detail : Nat) (s : State) (p q : Nat) (hp : p < 8) :
    (Tab.get {} ((raise src code detail s).part p).eq q).waiting
      = if sev ≠ .note ∧ bitOf (s.part p).subMask (unitOf code - 1) = true ∧ q = (s.part p).subQ then
          (Tab.get {} (s.part p).eq q).waiting ++ [{ typ := 2, stat := sevNum sev, op := code, source := srcNum src code,
                                                     word := detail % 2 ^ 32, time := s.nowNs }]
        else (Tab.get {} (s.part p).eq q).waiting := by
  rw [raise_eq_react h]
  simp [react, postEvent_waiting _ _ _ _ _ _ _ hp, State.nowNs]

theorem raise_alarm (ha : sev.alarms = true) (src : Source) (detail : Nat) (s : State) :
    code ∈ (raise src code detail s).pur.alarms := by
  rw [raise_eq_react h]
  simp [react, setAlarm_mem ha]

theorem raise_accused (ha : sev.accuses = true) (x : Side) (detail : Nat) (s : State) :
    ∃ e ∈ ((raise (.landing x) code detail s).ld x).accused, e.1 = s.legCount := by
  rw [raise_eq_react h]
  generalize hu : setAlarm (.landing x) code sev (postEvent (.landing x) code detail sev
    (setEvent (.landing x) code (logPut (faultRec (.landing x) code detail none s) s))) = u
  have htold : Told u s := by
    rw [← hu]
    exact told_trans (told_setAlarm ..) (told_trans (told_postEvent ..) (told_trans (told_setEvent ..) (told_logPut ..)))
  have hr : react (.landing x) code detail sev (logPut (faultRec (.landing x) code detail none s) s) = accuse x code sev u := by
    simp [react, accuseFor, ha, hu]
  rw [hr, ← legCount_told htold]
  exact accuse_self x code sev u

end

/-- Settles O10: each part of a raising does its own work, and the parts after it leave that as it is. -/
theorem faultRaised : Obligations.FaultRaised := by
  unfold Obligations.FaultRaised
  intro src code detail sev s h
  refine ⟨told_raise src code detail s, ?_, ?_, fun p hp q => raise_waiting h src detail s p q hp, ?_, ?_⟩
  · rintro u b x hb rfl hu
    exact raise_landing_bit h hb hu x detail s
  · rintro u b hb rfl
    exact raise_cable_bit h hb detail s
  · exact fun ha => raise_alarm h ((alarms_iff sev).mpr ha) src detail s
  · rintro x rfl ha
    exact raise_accused h ((accuses_iff sev).mpr ha) x detail s

end Sys2Proof.Machine
end

section
/-!
Register accesses by a landing's own requesters (00 R9 to R14, 01 R42, R45): which are refused, and what one that is performed does.
-/
namespace Sys2Proof.Machine
set_option Elab.async false -- one proof at a time, as in the tests: the compile is close to its memory limit

/-! ### Refused or performed -/

section
variable {r : Requester} {x : Side} (hr : onLanding r x)
include hr

theorem reqSide_onLanding (s : State) : reqSide s r = x := by
  cases r with
  | host p => exact hr.elim
  | _ => exact hr

theorem writeRefused_unmapped {a size : Nat} (hk : regKindAt a = none) (hm : memMapped a = false) (s : State) :
    writeRefused r a size s = some (accessError x 0x0201 a s) := by
  have hx := reqSide_onLanding hr s
  cases r with
  | host p => exact hr.elim
  | _ => simp [writeRefused, hx, hk, memRange, hm]

theorem readRefused_unmapped {a size : Nat} (hk : regKindAt a = none) (hm : memMapped a = false) (hw : roWindow a = false) (s : State) :
    readRefused r a size s = some (accessError x 0x0201 a s) := by
  have hx := reqSide_onLanding hr s
  cases r with
  | host p => exact hr.elim
  | _ => simp [readRefused, hx, hk, memRange, hm, hw]

theorem writeRefused_misaligned {a size : Nat} {k : RegKind} (hk : regKindAt a = some k) (hs : size ≠ 4 ∨ a % 4 ≠ 0) (s : State) :
    writeRefused r a size s = some (accessError x 0x0202 a s) := by
  have hx := reqSide_onLanding hr s
  cases r with
  | host p => exact hr.elim
  | _ => simp [writeRefused, hx, hk, hs]

theorem readRefused_misaligned {a size : Nat} {k : RegKind} (hk : regKindAt a = some k) (hs : size ≠ 4 ∨ a % 4 ≠ 0) (s : State) :
    readRefused r a size s = some (accessError x 0x0202 a s) := by
  have hx := reqSide_onLanding hr s
  cases r with
  | host p => exact hr.elim
  | _ => simp [readRefused, hx, hk, hs]

theorem writeRefused_register {a : Nat} {k : RegKind} (hk : regKindAt a = some k) (hn : k ≠ .range) (hb : bolFixed a k = false)
    (ha : a % 4 = 0) (s : State) : writeRefused r a 4 s = none := by
  cases r with
  | host p => exact hr.elim
  | _ => simp [writeRefused, hk, ha, hn, hb]

theorem readRefused_register {a : Nat} {k : RegKind} (hk : regKindAt a = some k) (ha : a % 4 = 0) (s : State) :
    readRefused r a 4 s = none := by
  cases r with
  | host p => exact hr.elim
  | _ => simp [readRefused, hk, ha]

theorem performWrite_landing {a : Nat} {k : RegKind} (hk : regKindAt a = some k) (ha : a < 0x40000000) (size : Nat) (v again : Word)
    (s : State) : performWrite r a size v again s = regWrite r x a (if k = .w1c then v &&& ~~~again else v) s := by
  have hx := reqSide_onLanding hr s
  have hblock : ¬ 0x4000 ≤ a / 65536 := by omega
  cases r with
  | host p => exact hr.elim
  | _ => simp [performWrite, hx, hk, hblock]

end

section
variable {r : Requester} {a size : Nat} {s t : State}

theorem registerWrite_refused (h : writeRefused r a size { s with resp := {} } = some t) (v again : Word) :
    registerWrite r a size v again s = t := congrArg (Option.getD · _) h
theorem registerWrite_performed (h : writeRefused r a size { s with resp := {} } = none) (v again : Word) :
    registerWrite r a size v again s = performWrite r a size v again { s with resp := {} } := congrArg (Option.getD · _) h

theorem registerRead_refused (h : readRefused r a size { s with resp := {} } = some t) (again : Nat) :
    registerRead r a size again s = t := congrArg (Option.getD · _) h

theorem holdLow_refused (h : writeRefused r a size { s with resp := {} } = some t) (v : Word) :
    holdLow r a size v s = t := congrArg (Option.getD · _) h
theorem holdLow_held (h : writeRefused r a size { s with resp := {} } = none) (v : Word) :
    holdLow r a size v s = { s with resp := {}, pendLow := Tab.set none s.pendLow (latchKey r a) (some v) } :=
  congrArg (Option.getD · _) h

theorem commitPair_refused (h : writeRefused r a size { s with resp := {} } = some t) (v : Word) :
    commitPair r a size v s = t := congrArg (Option.getD · _) h
theorem commitPair_without_low (h : writeRefused r a size { s with resp := {} } = none)
    (hp : Tab.get none s.pendLow (latchKey r (a - 4)) = none) (v : Word) : commitPair r a size v s = { s with resp := {} } := by
  refine (congrArg (Option.getD · _) h).trans ?_
  simp only [Option.getD_none, hp]
theorem commitPair_with_low (h : writeRefused r a size { s with resp := {} } = none) {w : Word}
    (hp : Tab.get none s.pendLow (latchKey r (a - 4)) = some w) (v : Word) :
    commitPair r a size v s = registerWrite r a 4 v 0 (registerWrite r (a - 4) 4 w 0
      { s with resp := {}, pendLow := Tab.set none s.pendLow (latchKey r (a - 4)) none }) := by
  refine (congrArg (Option.getD · _) h).trans ?_
  simp only [Option.getD_none, hp]

end

/-- The five accesses, refused: each leaves what the refusal leaves. -/
theorem exec_refused {at_ : Nat} {r : Requester} {q : Access} {s t : State}
    (hw : writeRefused r q.addr q.size { advance at_ s with resp := {} } = some t)
    (hr : readRefused r q.addr q.size { advance at_ s with resp := {} } = some t) (v again : Word) :
    exec (.registerWrite at_ r q v again) s = .next t ∧ exec (.rcRead at_ r q again) s = .next t
      ∧ exec (.pairLowRead at_ r q) s = .next t ∧ exec (.pairLowWrite at_ r q v) s = .next t
      ∧ exec (.pairHighWrite at_ r q v) s = .next t :=
  ⟨congrArg Host.Outcome.next (registerWrite_refused hw v again), congrArg Host.Outcome.next (registerRead_refused hr _),
    congrArg Host.Outcome.next (registerRead_refused hr _), congrArg Host.Outcome.next (holdLow_refused hw v),
    congrArg Host.Outcome.next (commitPair_refused hw v)⟩

/-- Settles O12: an access outside the map and one of a part of a register are refused, and a refusal is the access error alone. -/
theorem accessErrors : Obligations.AccessErrors := by
  unfold Obligations.AccessErrors
  intro at_ r x addr size v again s hr
  refine ⟨fun hk hm hw => ?_, fun hk hs => ?_⟩
  · exact exec_refused (writeRefused_unmapped hr hk hm _) (readRefused_unmapped hr hk hm hw _) v again
  · obtain ⟨k, hk⟩ := Option.ne_none_iff_exists'.mp hk
    exact exec_refused (writeRefused_misaligned hr hk hs _) (readRefused_misaligned hr hk hs _) v again

/-! ### Event registers (00 R11, R12) -/

theorem bitOf_eq_testBit (n i : Nat) : bitOf n i = n.testBit i := by
  rw [bitOf, Nat.testBit_eq_decide_div_mod_eq, beq_eq_decide]

/-- Taking away the common bits clears them, and no other bit. -/
theorem testBit_sub_and (m v i : Nat) : (m - (m &&& v)).testBit i = (m.testBit i && !v.testBit i) := by
  have hle : m &&& v ≤ m := Nat.and_le_left
  have hlow : (m &&& v) % 2 = 1 ↔ m % 2 = 1 ∧ v % 2 = 1 := Nat.and_mod_two_eq_one
  induction i generalizing m v with
  | zero =>
    have hbit : (m - (m &&& v)) % 2 = 1 ↔ m % 2 = 1 ∧ ¬v % 2 = 1 := by omega
    rw [Nat.testBit_zero, Nat.testBit_zero, Nat.testBit_zero, ← decide_not, ← Bool.decide_and]
    exact decide_eq_decide.mpr hbit
  | succ i ih =>
    have hhalf : (m - (m &&& v)) / 2 = m / 2 - (m / 2 &&& v / 2) := by rw [← Nat.and_div_two]; omega
    rw [Nat.testBit_succ, hhalf, ih _ _ Nat.and_le_left Nat.and_mod_two_eq_one, Nat.testBit_succ, Nat.testBit_succ]

/-- The bits written 1 and not set again in the same cycle. -/
theorem bitOf_and_not (v again : Word) {b : Nat} (hb : b < 32) :
    bitOf (v &&& ~~~again).toNat b = (bitOf v.toNat b && !bitOf again.toNat b) := by
  simp only [bitOf_eq_testBit, BitVec.testBit_toNat, BitVec.getLsbD_and, BitVec.getLsbD_not, hb, decide_true, Bool.true_and]

/-- The bits that a write of `v` leaves: those not written 1, and those set again in the same cycle. -/
theorem bitOf_written (m : Nat) (v again : Word) {b : Nat} (hb : b < 32) :
    bitOf (m - (m &&& (v &&& ~~~again).toNat)) b = (bitOf m b && (!bitOf v.toNat b || bitOf again.toNat b)) := by
  rw [bitOf_eq_testBit, testBit_sub_and, ← bitOf_eq_testBit, ← bitOf_eq_testBit, bitOf_and_not v again hb, Bool.not_and, Bool.not_not]

/-- The event registers after a write that clears `v` in that of unit `u`. -/
def clearedIn (u v : Nat) (t : Tab Nat) : Tab Nat := Tab.upd 0 t u (fun m => m - (m &&& v))

theorem get_clearedIn (u v : Nat) (t : Tab Nat) : Tab.get 0 (clearedIn u v t) u = Tab.get 0 t u - (Tab.get 0 t u &&& v) :=
  Tab.get_upd_self ..

theorem bitOf_clearedIn (u : Nat) (t : Tab Nat) (v again : Word) {b : Nat} (hb : b < 32) :
    bitOf (Tab.get 0 (clearedIn u (v &&& ~~~again).toNat t) u) b
      = (bitOf (Tab.get 0 t u) b && (!bitOf v.toNat b || bitOf again.toNat b)) := by
  rw [get_clearedIn, bitOf_written _ v again hb]

/-- The units of the landings' register blocks but the purser (01 R40). -/
theorem regUnit_landing {a u : Nat} (h : regUnit a = some u) (ha : a < 0x40000000) (hu : u ≠ 0x0C) : u ≤ 0x0B ∨ u = 0x12 ∨ u = 0x13 := by
  simp only [regUnit, Bool.and_eq_true, Bool.or_eq_true, decide_eq_true_eq] at h
  split at h
  · have e := Option.some.inj h; omega
  · split at h
    · have e := Option.some.inj h; omega
    · split at h
      · omega
      · cases h

/-- The Ethernet block (unit 0x0B) shows and clears the cable die's bits of its unit too. -/
theorem clearEvents_landing {u : Nat} (hu : u ≤ 0x0B ∨ u = 0x12 ∨ u = 0x13) (x : Side) (v : Nat) (s : State) :
    clearEvents x u v s = { s.modLd x (fun l => { l with events := clearedIn u v l.events }) with
      events := if u = 0x0B then clearedIn u v s.events else s.events } := by
  unfold clearEvents
  by_cases hb : u = 0x0B
  · simp only [hb, ↓reduceIte]; rfl
  · have hl : (decide (u ≤ 0x0B) || decide (u = 0x12) || decide (u = 0x13)) = true := by simpa [or_assoc] using hu
    simp only [hb, hl, ↓reduceIte]
    cases x <;> rfl

section
variable {u : Nat} (hu : u ≤ 0x0B ∨ u = 0x12 ∨ u = 0x13)
include hu

theorem clearEvents_ld_events (x : Side) (v : Nat) (s : State) :
    ((clearEvents x u v s).ld x).events = clearedIn u v (s.ld x).events := by
  rw [clearEvents_landing hu]; cases x <;> rfl

theorem clearEvents_events (x : Side) (v : Nat) (s : State) :
    (clearEvents x u v s).events = if u = 0x0B then clearedIn u v s.events else s.events := by
  rw [clearEvents_landing hu]

/-- Only the event register of the unit changes, on its landing and for the Ethernet block in the cable die. -/
theorem clearEvents_frame (x : Side) (v : Nat) (s : State) :
    clearEvents x u v s
      = { s.modLd x (fun l => { l with events := Tab.set 0 l.events u (Tab.get 0 ((clearEvents x u v s).ld x).events u) }) with
          events := if u = 0x0B then Tab.set 0 s.events u (Tab.get 0 (clearEvents x u v s).events u) else s.events } := by
  rw [clearEvents_ld_events hu, clearEvents_events hu, get_clearedIn, clearEvents_landing hu]
  by_cases hb : u = 0x0B
  · simp only [if_pos hb, get_clearedIn]; rfl
  · simp only [if_neg hb]; rfl

end

theorem regWrite_w1c {a u : Nat} (hk : regKindAt a = some .w1c) (hu : regUnit a = some u) (ha : a < 0x40000000) (r : Requester) (x : Side)
    (v : Word) (s : State) : regWrite r x a v s = clearEvents x u v.toNat s := by
  have hblock : ¬ 0x4000 ≤ a / 65536 := by omega
  simp [regWrite, hk, hu, hblock]

/-- Settles O11: the write is performed by clearing the bits written and not set again, in the event registers that show them. -/
theorem eventWriteOneClears : Obligations.EventWriteOneClears := by
  unfold Obligations.EventWriteOneClears
  intro at_ r x addr u v again s hr hk hu ha hc h4
  have hland := regUnit_landing hu ha hc
  have hbol : bolFixed addr .w1c = false := by simp [bolFixed]
  have hexec : exec (.registerWrite at_ r { addr := addr } v again) s
      = .next (clearEvents x u (v &&& ~~~again).toNat { advance at_ s with resp := {} }) := by
    refine congrArg Host.Outcome.next ((registerWrite_performed (writeRefused_register hr hk (by simp) hbol h4 _) v again).trans ?_)
    rw [performWrite_landing hr hk ha, if_pos rfl, regWrite_w1c hk hu ha]
  have hev : ({ advance at_ s with resp := {} } : State).events = s.events := advance_events ..
  have hld : ({ advance at_ s with resp := {} } : State).ld x = s.ld x := advance_ld ..
  generalize ({ advance at_ s with resp := {} } : State) = s' at hexec hev hld ⊢
  refine ⟨_, hexec, fun b hb => ?_, fun hub b hb => ?_, ?_⟩
  · rw [clearEvents_ld_events hland, hld, bitOf_clearedIn _ _ _ _ hb]
  · rw [clearEvents_events hland, if_pos hub, hev, bitOf_clearedIn _ _ _ _ hb]
  · rw [← hev]; exact clearEvents_frame hland ..

/-! ### Reads that clear and reads that latch (00 R11 to R13) -/

/-- The answer of a read of a whole register, and what the read leaves. -/
theorem registerRead_performed {r : Requester} {x : Side} (hr : onLanding r x) {a : Nat} {k : RegKind} (hk : regKindAt a = some k)
    (ha : a % 4 = 0) (again : Nat) (s : State) :
    registerRead r a 4 again s = { (regRead r x a again { s with resp := {} }).2 with
      resp := { data := (regRead r x a again { s with resp := {} }).1 } } := by
  have hmask : ∀ v : Word, v &&& BitVec.ofNat 32 (256 ^ min 4 4 - 1) = v := fun v => BitVec.and_allOnes
  refine (congrArg (Option.getD · _) (readRefused_register hr hk ha _)).trans ?_
  rw [reqSide_onLanding hr, hk]
  simp only [Option.isSome_some, ↓reduceIte, Option.getD_none, hmask]

theorem regRead_latched {r : Requester} {a : Nat} {s : State} {v : Word} (h : Tab.get none s.latch (latchKey r a) = some v) (x : Side)
    (again : Nat) : regRead r x a again s = (v, { s with latch := Tab.set none s.latch (latchKey r a) none }) := by
  unfold regRead; rw [h]

theorem regRead_deferred {r : Requester} {s : State} (h : Tab.get none s.latch (latchKey r 0x30010020) = none) (x : Side) (again : Nat) :
    regRead r x 0x30010020 again s = (BitVec.ofNat 32 (s.ld x).fmn.deferred,
      s.modLd x (fun l => { l with fmn := { l.fmn with deferred := again } })) := by
  unfold regRead; rw [h]; rfl

theorem regRead_crossing {r : Requester} {s : State} (h : Tab.get none s.latch (latchKey r 0x30010000) = none) (x : Side) (again : Nat) :
    regRead r x 0x30010000 again s = (BitVec.ofNat 32 (lo32 (s.ld x).fmn.crossing),
      { s with latch := Tab.set none s.latch (latchKey r 0x30010004) (some (BitVec.ofNat 32 (hi32 (s.ld x).fmn.crossing))) }) := by
  unfold regRead; rw [h]; rfl

/-- RC_READ of `FMN_DEFERRED` (02 R104). -/
theorem exec_rcRead_deferred {r : Requester} {x : Side} (hr : onLanding r x) {s : State}
    (h : Tab.get none s.latch (latchKey r 0x30010020) = none) (at_ : Nat) (again : Word) :
    exec (.rcRead at_ r { addr := 0x30010020 } again) s
      = .next { ((advance at_ s).modLd x (fun l => { l with fmn := { l.fmn with deferred := again.toNat } })) with
          resp := { data := BitVec.ofNat 32 (s.ld x).fmn.deferred } } := by
  have hk : regKindAt 0x30010020 = some .rc := by decide
  have hl : Tab.get none (advance at_ s).latch (latchKey r 0x30010020) = none := by rw [advance_latch]; exact h
  refine congrArg Host.Outcome.next ((registerRead_performed hr hk (by decide) _ _).trans ?_)
  rw [regRead_deferred (s := { advance at_ s with resp := {} }) hl, ← advance_ld at_ s x]
  cases x <;> rfl

/-- PAIR_LOW_READ of the crossing count (02 R98): the low word answered, the high word latched. -/
theorem exec_pairLowRead_crossing {r : Requester} {x : Side} (hr : onLanding r x) {s : State}
    (h : Tab.get none s.latch (latchKey r 0x30010000) = none) (at_ : Nat) :
    exec (.pairLowRead at_ r { addr := 0x30010000 }) s
      = .next { advance at_ s with
          resp := { data := BitVec.ofNat 32 (lo32 (s.ld x).fmn.crossing) }
          latch := Tab.set none s.latch (latchKey r 0x30010004) (some (BitVec.ofNat 32 (hi32 (s.ld x).fmn.crossing))) } := by
  have hk : regKindAt 0x30010000 = some .ro := by decide
  have hl : Tab.get none (advance at_ s).latch (latchKey r 0x30010000) = none := by rw [advance_latch]; exact h
  refine congrArg Host.Outcome.next ((registerRead_performed hr hk (by decide) _ _).trans ?_)
  rw [regRead_crossing (s := { advance at_ s with resp := {} }) hl, ← advance_ld at_ s x, ← advance_latch at_ s]
  cases x <;> rfl

/-- A read of a register whose word is latched for the requester answers that word and frees the latch (00 R13). -/
theorem exec_pairLowRead_latched {r : Requester} {x : Side} (hr : onLanding r x) {a : Nat} {k : RegKind} (hk : regKindAt a = some k)
    (ha : a % 4 = 0) {s : State} {v : Word} (h : Tab.get none s.latch (latchKey r a) = some v) (at_ : Nat) :
    exec (.pairLowRead at_ r { addr := a }) s
      = .next { advance at_ s with resp := { data := v }, latch := Tab.set none s.latch (latchKey r a) none } := by
  have hl : Tab.get none (advance at_ s).latch (latchKey r a) = some v := by rw [advance_latch]; exact h
  refine congrArg Host.Outcome.next ((registerRead_performed hr hk ha _ _).trans ?_)
  rw [regRead_latched (s := { advance at_ s with resp := {} }) hl, ← advance_latch at_ s]

/-- Settles O13: the read of the low word leaves the high word latched, and a latched word is what the next read of it answers. -/
theorem readsTakeAndLatch : Obligations.ReadsTakeAndLatch := by
  unfold Obligations.ReadsTakeAndLatch
  refine ⟨fun at_ r x again s hr h => exec_rcRead_deferred hr h at_ again, fun at_ t2 r x s u hr h => ?_⟩
  refine ⟨_, exec_pairLowRead_crossing hr h at_, rfl, rfl, fun hu => ?_⟩
  have hk : regKindAt 0x30010004 = some .ro := by decide
  have hlatch : Tab.get none u.latch (latchKey r 0x30010004) = some (BitVec.ofNat 32 (hi32 (s.ld x).fmn.crossing)) := by
    rw [hu]; exact Tab.get_set_self none s.latch _ (some _)
  exact ⟨_, exec_pairLowRead_latched hr hk (by decide) hlatch t2, rfl, Tab.get_set_self none u.latch _ none⟩

/-! ### Register pairs written (00 R14) -/

/-- Settles O14: a low word is held under its requester's own key, and the high word takes it up from there. -/
theorem pairWrites : Obligations.PairWrites := by
  unfold Obligations.PairWrites
  intro at_ r x addr k v s hr hk hn hb ha
  have hperf := fun s => writeRefused_register hr hk hn hb ha s
  have hlow : ∀ w, Tab.get none s.pendLow (latchKey r (addr - 4)) = w →
      Tab.get none (advance at_ s).pendLow (latchKey r (addr - 4)) = w := fun w h => by rw [advance_pendLow]; exact h
  refine ⟨⟨_, congrArg Host.Outcome.next (holdLow_held (hperf _) v), rfl, fun key => ?_⟩, fun h => ?_, fun w h => ?_⟩
  · rw [← advance_pendLow at_ s]; exact Tab.get_set none (advance at_ s).pendLow _ (some v) key
  · exact congrArg Host.Outcome.next (commitPair_without_low (hperf _) (hlow _ h) v)
  · rw [← advance_pendLow at_ s]
    exact congrArg Host.Outcome.next (commitPair_with_low (hperf _) (hlow _ h) v)

end Sys2Proof.Machine
end

section
/-!
The reset state, and the roles of the landings (01 R35): every command keeps at most one landing active.
-/
namespace Sys2Proof.Machine
set_option Elab.async false -- one proof at a time, as in the tests: the compile is close to its memory limit

/-! ### Reset -/

theorem reset_rolesFit : State.reset.rolesFit := by simp [State.rolesFit, State.reset]

theorem reset_modeFit : State.reset.modeFit := by simp [State.modeFit, State.reset]

/-- Settles O4: the values are those of `State.reset`, and each invariant has its own lemma at reset. -/
theorem resetState : Obligations.ResetState := by
  unfold Obligations.ResetState
  exact ⟨rfl, rfl, rfl, rfl, reset_rolesFit, reset_modeFit, reset_memWf⟩

/-! ### Commands that leave roles and modes, which the `Same` lemmas reach only by parts -/

theorem execAxeStop_same (h : CmdHdr) (mask : Nat) (s : State) : ∃ t, execAxeStop h mask s = .next t ∧ Same t s :=
  ⟨_, rfl, hostCommand_same _ _ _ _ _ fun _ => modAxes_same ..⟩

theorem execAxeResume_same (h : CmdHdr) (mask : Nat) (s : State) : ∃ t, execAxeResume h mask s = .next t ∧ Same t s :=
  ⟨_, rfl, hostCommand_same _ _ _ _ _ fun _ => modAxes_same ..⟩

theorem execAxePower_same (h : CmdHdr) (bus l a r : Nat) (s : State) : ∃ t, execAxePower h bus l a r s = .next t ∧ Same t s :=
  ⟨_, rfl, hostCommand_same _ _ _ _ _ fun _ => eachSide_same _ _ _ fun _ _ => withLedger_same _ _ _ _ fun _ => modBus_same ..⟩

theorem execCblConfirmChange_same (h : CmdHdr) (s : State) : ∃ t, execCblConfirmChange h s = .next t ∧ Same t s := by
  refine ⟨_, rfl, hostCommand_same _ _ _ _ _ fun u => ?_⟩
  cases u.arb.change <;> simp

/-- A right answer and a wrong one, with or without a challenge that waits. -/
theorem execTolResponse_same (h : CmdHdr) (resp : List Byte) (s : State) : ∃ t, execTolResponse h resp s = .next t ∧ Same t s := by
  refine ⟨_, rfl, hostCommandF_same _ _ _ _ _ _ (fun u => ?_) (fun st u => ?_)⟩
  · cases (u.part h.part).challenge <;> simp
  · exact ite_same (by simp) (ite_same (by simp) (ite_same (by simp) (by simp)))

theorem execPositionSave_same (at_ : Nat) (s : State) : ∃ t, execPositionSave at_ s = .next t ∧ Same t s := by
  refine ⟨_, rfl, ?_⟩
  cases aidBytes (advance at_ s) ((advance at_ s).ld (advance at_ s).lead).gns <;> simp

theorem execLockoutEnd_same (at_ p : Nat) (s : State) : ∃ t, execLockoutEnd at_ p s = .next t ∧ Same t s := by
  refine ⟨_, rfl, ?_⟩
  cases ((advance at_ s).part p).lockoutEnd <;> simp

theorem execPurHoldExpired_same (at_ res : Nat) (s : State) : ∃ t, execPurHoldExpired at_ res s = .next t ∧ Same t s := by
  refine ⟨_, rfl, ?_⟩
  cases (advance at_ s).hold res <;> simp

theorem next_rolesFit_of_same {o : Host.Outcome State Fault Refusal} {s : State} (hs : s.rolesFit) (ho : ∃ t, o = .next t ∧ Same t s) :
    ∃ t, o = .next t ∧ t.rolesFit :=
  ho.imp fun _ ⟨hnext, hsame⟩ => ⟨hnext, rolesFit_of hsame hs⟩

/-! ### Every command -/

theorem advance_fit {n : Nat} {s : State} (hs : s.rolesFit) : (advance n s).rolesFit := rolesFit_of (advance_same n s) hs

/-- The commands that can change a role or the mode, or have one wait, are named with the lemma of their operation, in the order of the
chapters; after them stand those above. Every other command leaves all of these, by simp's `Same` lemmas. -/
theorem exec_rolesFit (c : Instr) {s : State} (hs : s.rolesFit) : ∃ t, exec c s = .next t ∧ t.rolesFit := by
  cases c with
  | crossingTick at_ dst marks => exact ⟨_, rfl, crossingTick_fit _ _ _ _ hs⟩
  | verificationComplete at_ x bank received ok => exact ⟨_, rfl, verificationEnd_fit _ _ _ _ _ (advance_fit hs)⟩
  | legReport at_ x => exact ⟨_, rfl, legReport_fit _ _ (advance_fit hs)⟩
  | legVerdict at_ differ => exact ⟨_, rfl, legVerdict_fit _ _ (advance_fit hs)⟩
  | failoverTakeover at_ => exact ⟨_, rfl, failoverTakeover_fit _ (advance_fit hs)⟩
  | failback at_ => exact ⟨_, rfl, failback_fit _ (advance_fit (advance_fit hs))⟩
  | resyncComplete at_ => exact ⟨_, rfl, resyncDone_fit _ (advance_fit (advance_fit hs))⟩
  | manifestHandover at_ => exact ⟨_, rfl, manifestHandover_fit _ (advance_fit (advance_fit hs))⟩
  | cblOutOfService h side => exact ⟨_, rfl, hostCommand_fit _ _ _ _ _ (fun _ => outOfService_fit _ _) hs⟩
  | dkhSetMode h mode flags target north east heading => exact ⟨_, rfl, rolesFit_rq (setMode_rq ..) hs⟩
  | slwRestart h side => exact ⟨_, rfl, hostCommand_fit _ _ _ _ _ (fun _ => restartLanding_fit _ _ _) hs⟩
  | powerGood at_ p => exact ⟨_, rfl, ite_fit _ (advance_fit hs) (powerStart_fit _ _ _ (advance_fit hs))⟩
  | landingStart at_ x r => exact ⟨_, rfl, landingStart_fit _ _ _ (advance_fit hs)⟩
  | roleAssignment at_ => exact ⟨_, rfl, roleAssignment_fit _ (advance_fit hs)⟩
  | roleDeadline at_ => exact ⟨_, rfl, roleDeadline_fit _ (advance_fit hs)⟩
  | deckhandLockstepCheck at_ x same => exact ⟨_, rfl, ite_fit _ (advance_fit hs) (deckhandHalt_fit _ _ _ (advance_fit hs))⟩
  | slwStageTimeout at_ x stage => exact ⟨_, rfl, ite_fit _ (failBefore11_fit _ _ _ _ _ (advance_fit hs)) (advance_fit hs)⟩
  | dkhWatchdog at_ x => exact ⟨_, rfl, deckhandHalt_fit _ _ _ (advance_fit hs)⟩
  | moduleStop at_ => exact ⟨_, rfl, (stopped_fit _).1⟩
  | temperatureRead at_ a b c base va vb =>
    exact ⟨_, rfl, found_ind State.rolesFit _ _ (readTemps_fit _ _ _ _ _ _ _) (advance_fit hs)⟩
  | supDomainLost at_ domain =>
    exact ⟨_, rfl, found_ind State.rolesFit _ _ (fun hu => ite_fit _ (domainOff_fit _ _ (raise_fit _ _ _ _ hu)) hu) (advance_fit hs)⟩
  | axeStop h mask => exact next_rolesFit_of_same hs (execAxeStop_same ..)
  | axeResume h mask => exact next_rolesFit_of_same hs (execAxeResume_same ..)
  | axePower h bus l a r => exact next_rolesFit_of_same hs (execAxePower_same ..)
  | cblConfirmChange h => exact next_rolesFit_of_same hs (execCblConfirmChange_same ..)
  | tolResponse h resp => exact next_rolesFit_of_same hs (execTolResponse_same ..)
  | positionSave at_ => exact next_rolesFit_of_same hs (execPositionSave_same ..)
  | lockoutEnd at_ p => exact next_rolesFit_of_same hs (execLockoutEnd_same ..)
  | purHoldExpired at_ res => exact next_rolesFit_of_same hs (execPurHoldExpired_same ..)
  | _ => exact next_rolesFit_of_same hs ⟨_, rfl, by simp⟩

/-- Settles O5: an idle step moves only the clocks, and every command keeps `State.rolesFit`, which also says that no change of role that
waits makes a landing active. -/
theorem oneActiveLanding : Obligations.OneActiveLanding := by
  unfold Obligations.OneActiveLanding
  intro s t hs hstep
  unfold step at hstep
  split at hstep
  · cases hstep
    exact rolesFit_of (idle_same s) hs
  · rename_i c q _
    obtain ⟨u, hu, hfit⟩ := exec_rolesFit c (s := { s with pending := q }) hs
    rw [hu] at hstep
    cases hstep
    exact hfit

end Sys2Proof.Machine
end

section
/-!
The Ferryman's checks (02 R86 to R89, R97): what each leaves, and the memories that an overrun gives back.
-/
namespace Sys2Proof.Machine
set_option Elab.async false -- one proof at a time, as in the tests: the compile is close to its memory limit

/-! ### A landing changed twice, and time -/

theorem modLd_modLd (s : State) (x : Side) (f g : Landing → Landing) : (s.modLd x f).modLd x g = s.modLd x (fun l => g (f l)) := by
  cases x <;> rfl

theorem modLd_congr (s : State) (x : Side) {f g : Landing → Landing} (h : f (s.ld x) = g (s.ld x)) : s.modLd x f = s.modLd x g := by
  unfold State.modLd; rw [h]

@[simp] theorem modLd_legCount (s : State) (x : Side) (f : Landing → Landing) : (s.modLd x f).legCount = s.legCount := by
  cases x <;> rfl

/-! ### The checks (02 R87 to R89) -/

theorem guardCheck_idle {x : Side} {s : State} (h : (s.ld x).fmn.open_ = []) : guardCheck x s = s := by
  simp [guardCheck, h]

theorem guardCheck_breach {x : Side} {s : State} {n : Nat} {r : List Nat} (h : (s.ld x).fmn.open_ = n :: r) :
    guardCheck x s = raise (.landing x) 0x0141 (openUnit (s.ld x).fmn n)
      (noteOverrunAt x (periodCycles (imgPeriod (s.ld x).fmn.img) / 20 * 19) (openUnit (s.ld x).fmn n) s) := by
  simp [guardCheck, h]

/-- A missed slot notes its last core cycle and closes its claim, both on the one landing. -/
theorem slotMiss_eq (x : Side) (k : Nat) (s : State) :
    slotMiss x k s = raise (.landing x) 0x0203 ((claims (s.ld x).fmn.img (s.ld x).fmn.pattern).getD k {}).slot (s.modLd x (fun l =>
      { l with fmn := { l.fmn with
        open_ := l.fmn.open_.filter (· ≠ claimItem k),
        overrunCycle := (32 * ((claims (s.ld x).fmn.img (s.ld x).fmn.pattern).getD k {}).slot + 31) % 2 ^ 19, overrunUnit := 2 } })) := by
  unfold slotMiss closeItem noteOverrunAt
  dsimp only
  rw [modLd_modLd]

theorem tickLost_early (x : Side) (s : State) : tickLost x true s = raise (.landing x) 0x0142 1 s := by
  simp [tickLost, b2n]

theorem tickLost_lost (x : Side) (s : State) :
    tickLost x false s = raise (.landing x) 0x0142 0 (s.modLd x fun l => { l with fmn := { l.fmn with tickLost := true } }) := by
  simp [tickLost, b2n]

/-- Settles O18: each check is one raising after the note that it leaves on its landing. -/
theorem ferrymanChecks : Obligations.FerrymanChecks := by
  unfold Obligations.FerrymanChecks
  intro at_ k who x s
  refine ⟨rfl, ⟨_, rfl, tickLost_early .., ?_⟩, ⟨_, rfl, ?_, tickLost_lost ..⟩, fun h => ?_, fun n r h => ?_, ?_⟩
  · rw [tickLost_early, raise_fmn, advance_ld]
  · rw [tickLost_lost, raise_fmn, modLd_ld, advance_ld]
  · exact congrArg Host.Outcome.next (guardCheck_idle (by simpa using h))
  · have hb := guardCheck_breach (x := x) (s := advance (s.cutNs x at_) s) (n := n) (r := r) (by simpa using h)
    rw [advance_ld] at hb
    exact congrArg Host.Outcome.next hb
  · have hm := slotMiss_eq x k (advance at_ s)
    rw [advance_ld] at hm
    exact congrArg Host.Outcome.next hm

/-! ### The cells that an operation has written, taken back (02 R87) -/

/-- A memory with the cells of a list put back. -/
def restoreCells (m cs : List Host.Cell) : List Host.Cell := cs.foldl (fun m c => Tab.set 0 m c.1 c.2) m

@[simp] theorem restoreCells_nil (m : List Host.Cell) : restoreCells m [] = m := rfl
@[simp] theorem restoreCells_cons (m : List Host.Cell) (c : Host.Cell) (cs : List Host.Cell) :
    restoreCells m (c :: cs) = restoreCells (Tab.set 0 m c.1 c.2) cs := rfl

theorem restoreCells_wf (m cs : List Host.Cell) (h : Memory.wf m = true) : Memory.wf (restoreCells m cs) = true := by
  induction cs generalizing m with
  | nil => exact h
  | cons c t ih => exact ih _ (Tab.set_wf 0 m c.1 c.2 h)

theorem get_cons {α : Type} (d : α) (c : Nat × α) (t : Tab α) (i : Nat) :
    Tab.get d (c :: t) i = if c.1 = i then c.2 else Tab.get d t i := rfl

/-- An entry below every listed number is the default. -/
theorem get_below {α : Type} {d : α} {t : Tab α} {i : Nat} (h : ∀ e ∈ t, i < e.1) : Tab.get d t i = d := by
  induction t with
  | nil => rfl
  | cons e t ih =>
    rw [get_cons, if_neg (h e (by simp)).ne']
    exact ih fun e he => h e (by simp [he])

/-- The kept cells put back: where the two memories differ, what the old one held, and elsewhere what was there. -/
theorem get_restore_changed (n : Nat) (a b m : List Host.Cell) (ha : Memory.wf a = true) (hb : Memory.wf b = true)
    (hn : a.length + b.length ≤ n) (i : Nat) :
    Tab.get 0 (restoreCells m (changedCells n a b)) i = if Tab.get 0 a i = Tab.get 0 b i then Tab.get 0 m i else Tab.get 0 a i := by
  induction n generalizing a b m with
  | zero =>
    obtain ⟨rfl, rfl⟩ : a = [] ∧ b = [] := by constructor <;> apply List.eq_nil_of_length_eq_zero <;> omega
    simp [changedCells]
  | succ n ih =>
    match a, b with
    | [], [] => simp [changedCells]
    | c :: t, [] =>
      obtain ⟨hc, hct, ht⟩ := (Tab.wf_cons 0 c.1 c.2 t).mp ha
      have ht0 := get_below (d := (0 : Byte)) hct
      have h := ih t [] (Tab.set 0 m c.1 c.2) ht rfl (by simp at hn ⊢; omega)
      grind [changedCells, restoreCells_cons, get_cons, Tab.get_set, Tab.get_nil]
    | [], d :: u =>
      obtain ⟨hd, hdu, hu⟩ := (Tab.wf_cons 0 d.1 d.2 u).mp hb
      have hu0 := get_below (d := (0 : Byte)) hdu
      have h := ih [] u (Tab.set 0 m d.1 0) rfl hu (by simp at hn ⊢; omega)
      grind [changedCells, restoreCells_cons, get_cons, Tab.get_set, Tab.get_nil]
    | c :: t, d :: u =>
      obtain ⟨hc, hct, ht⟩ := (Tab.wf_cons 0 c.1 c.2 t).mp ha
      obtain ⟨hd, hdu, hu⟩ := (Tab.wf_cons 0 d.1 d.2 u).mp hb
      have ht0 := get_below (d := (0 : Byte)) hct
      have hu0 := get_below (d := (0 : Byte)) hdu
      simp only [List.length_cons] at hn
      rw [changedCells]
      rcases lt_trichotomy c.1 d.1 with hlt | heq | hgt
      · have hu1 : Tab.get 0 u c.1 = (0 : Byte) := get_below fun e he => hlt.trans (hdu e he)
        have h := ih t (d :: u) (Tab.set 0 m c.1 c.2) ht hb (by simp; omega)
        rw [if_pos hlt, restoreCells_cons, h]
        grind [get_cons, Tab.get_set]
      · rw [if_neg (by omega), if_neg (by omega)]
        by_cases hv : c.2 = d.2
        · rw [if_pos hv, ih t u m ht hu (by omega)]
          grind [get_cons]
        · rw [if_neg hv, restoreCells_cons, ih t u (Tab.set 0 m c.1 c.2) ht hu (by omega)]
          grind [get_cons, Tab.get_set]
      · have ht1 : Tab.get 0 t d.1 = (0 : Byte) := get_below fun e he => hgt.trans (hct e he)
        have h := ih (c :: t) u (Tab.set 0 m d.1 0) ha hu (by simp; omega)
        rw [if_neg (by omega), if_pos hgt, restoreCells_cons, h]
        grind [get_cons, Tab.get_set]

/-- A memory that has since been changed is given back by the cells kept of it. -/
theorem restore_changed {a b : List Host.Cell} (ha : Memory.wf a = true) (hb : Memory.wf b = true) :
    restoreCells b (changedCells (a.length + b.length) a b) = a := by
  refine Tab.ext 0 _ _ (restoreCells_wf _ _ hb) ha fun i => ?_
  rw [get_restore_changed _ a b b ha hb le_rfl i]
  split
  · exact Eq.symm ‹_›
  · rfl

/-! ### An overrun of an engine's operation (02 R87) -/

/-- What an overrun of dispatch entry `k`, known in `cycle`, leaves of its landing before the fault: the entry closed and noted, what it wrote
taken back, its berths held back. -/
def afterOverrun (k cycle : Nat) (l : Landing) : Landing :=
  let kept := Tab.get ([], []) l.fmn.undo k
  { l with
    mem := restoreCells l.mem kept.1, syn := restoreCells l.syn kept.2,
    fmn := { l.fmn with
      overrunCycle := cycle % 2 ^ 19, overrunUnit := openUnit l.fmn k, open_ := l.fmn.open_.filter (· ≠ k),
      undo := Tab.set ([], []) l.fmn.undo k ([], []), overrun := (l.fmn.overrun ++ berthsOf l.fmn k).eraseDups } }

theorem overrun_eq (x : Side) (k cycle : Nat) (s : State) :
    overrun x k cycle s
      = raise (.landing x) 0x0140 (openUnit (s.ld x).fmn k * 2 ^ 24 + cycle % 2 ^ 19) (s.modLd x (afterOverrun k cycle)) := by
  unfold overrun undoEntry closeItem noteOverrunAt
  dsimp only
  rw [modLd_modLd, modLd_modLd, modLd_modLd]
  exact congrArg (raise _ _ _) (modLd_congr s x rfl)

/-- The dispatch entry `k` of landing `x`'s running pattern is an engine's, and not the solver's, whose slices have rules of their own. -/
def engineEntry (f : Ferryman) (k : Nat) : Prop :=
  ((dispatches f.img f.pattern).getD k {}).unit ≠ 6 ∧ ((dispatches f.img f.pattern).getD k {}).unit < 0x80

theorem overrunOp_engine {x : Side} {k : Nat} {s : State} (h : engineEntry (s.ld x).fmn k) (cycle : Nat) :
    overrunOp x k cycle s = overrun x k cycle s := by
  obtain ⟨h6, h80⟩ := h
  simp only [overrunOp, if_neg h6, if_neg (Nat.not_le.mpr h80)]

theorem operationCompletion_in_time {x : Side} {k cycle : Nat} {s : State} (h : engineEntry (s.ld x).fmn k) (hk : k ∈ (s.ld x).fmn.open_)
    (hc : cycle ≤ contractCycle (s.ld x).fmn k) : operationCompletion x k cycle s = closeItem x k s := by
  have h80 : ¬0x80 ≤ ((dispatches (s.ld x).fmn.img (s.ld x).fmn.pattern).getD k {}).unit := Nat.not_le.mpr h.2
  simp only [operationCompletion, List.contains_iff_mem.mpr hk, Bool.not_true, Bool.false_eq_true, if_false, if_pos hc, if_neg h80]

theorem operationCompletion_late {x : Side} {k cycle : Nat} {s : State} (hk : k ∈ (s.ld x).fmn.open_)
    (hc : contractCycle (s.ld x).fmn k < cycle) : operationCompletion x k cycle s = overrunOp x k cycle s := by
  simp [operationCompletion, hk, Nat.not_le.mpr hc]

/-- An engine's overrun: its landing as `afterOverrun` says but for events and accusations, and the landing accused. -/
theorem exec_fmnOverrun {x : Side} {k : Nat} {s : State} (h : engineEntry (s.ld x).fmn k) (at_ cycle : Nat) :
    ∃ t, exec (.fmnOverrun at_ x k cycle) s = .next t
      ∧ (t.ld x).fmn = (afterOverrun k cycle (s.ld x)).fmn ∧ (t.ld x).mem = (afterOverrun k cycle (s.ld x)).mem
      ∧ (t.ld x).syn = (afterOverrun k cycle (s.ld x)).syn ∧ (t.ld x).tiles = (s.ld x).tiles
      ∧ ∃ e ∈ (t.ld x).accused, e.1 = (advance at_ s).legCount := by
  have he : engineEntry ((advance at_ s).ld x).fmn k := by rwa [advance_ld]
  refine ⟨_, congrArg Host.Outcome.next ((overrunOp_engine he cycle).trans (overrun_eq ..)), ?_, ?_, ?_, ?_, ?_⟩
  · rw [raise_fmn, modLd_ld, advance_ld]
  · rw [raise_mem, modLd_ld, advance_ld]
  · rw [raise_syn, modLd_ld, advance_ld]
  · rw [raise_tiles, modLd_ld, advance_ld]; rfl
  · have hacc := raise_accused (code := 0x0140) (sev := .accuse) (by decide) rfl x (openUnit ((advance at_ s).ld x).fmn k * 2 ^ 24 + cycle % 2 ^ 19)
      ((advance at_ s).modLd x (afterOverrun k cycle))
    rwa [modLd_legCount] at hacc

/-- What an operation wrote between `l` and now is kept with its entry. -/
theorem keepUndo_undo (x : Side) (k : Nat) (l : Landing) (s : State) :
    Tab.get ([], []) ((keepUndo x k l s).ld x).fmn.undo k
      = (changedCells (l.mem.length + (s.ld x).mem.length) l.mem (s.ld x).mem,
         changedCells (l.syn.length + (s.ld x).syn.length) l.syn (s.ld x).syn) := by
  simp [keepUndo]

theorem keepUndo_ld (x : Side) (k : Nat) (l : Landing) (s : State) :
    ((keepUndo x k l s).ld x).mem = (s.ld x).mem ∧ ((keepUndo x k l s).ld x).syn = (s.ld x).syn
      ∧ ((keepUndo x k l s).ld x).fmn.img = (s.ld x).fmn.img ∧ ((keepUndo x k l s).ld x).fmn.pattern = (s.ld x).fmn.pattern := by
  simp [keepUndo]

/-- An overrun after an operation of the entry gives the memories of before it. -/
theorem afterOverrun_keepUndo (x : Side) (k cycle : Nat) {l : Landing} {s : State} (hl : l.memWf = true) (hs : (s.ld x).memWf = true) :
    (afterOverrun k cycle ((keepUndo x k l s).ld x)).mem = l.mem ∧ (afterOverrun k cycle ((keepUndo x k l s).ld x)).syn = l.syn := by
  obtain ⟨hm, hy, _⟩ := (memWf_iff l).mp hl
  obtain ⟨hm', hy', _⟩ := (memWf_iff _).mp hs
  obtain ⟨emem, esyn, _⟩ := keepUndo_ld x k l s
  simp only [afterOverrun, keepUndo_undo, emem, esyn]
  exact ⟨restore_changed hm hm', restore_changed hy hy'⟩

/-- Settles O19: an overrun is `afterOverrun` and its fault, and the kept cells give the memories back. -/
theorem contractKept : Obligations.ContractKept := by
  unfold Obligations.ContractKept
  constructor
  · intro at_ k cycle x s hk h6 h80
    have he : engineEntry (s.ld x).fmn k := ⟨h6, h80⟩
    have he' : engineEntry ((advance at_ s).ld x).fmn k := by rwa [advance_ld]
    have hk' : k ∈ ((advance at_ s).ld x).fmn.open_ := by rwa [advance_ld]
    refine ⟨fun hc => ?_, fun hc => ?_, ?_⟩
    · exact congrArg Host.Outcome.next (operationCompletion_in_time he' hk' (by rwa [advance_ld]))
    · exact congrArg Host.Outcome.next (operationCompletion_late hk' (by rwa [advance_ld]))
    · obtain ⟨t, ht, hf, hm, hy, htiles, hacc⟩ := exec_fmnOverrun he at_ cycle
      refine ⟨t, ht, ?_, fun n hn => ?_, hacc, fun hu => ?_, htiles⟩
      · simp [hf, afterOverrun]
      · simp [hf, afterOverrun, hn]
      · rw [hm, hy]
        simp [afterOverrun, hu]
  · intro at_ k cycle x l s h80 h6 hl hs
    obtain ⟨_, _, himg, hpat⟩ := keepUndo_ld x k l s
    have he : engineEntry ((keepUndo x k l s).ld x).fmn k := by
      unfold engineEntry
      rw [himg, hpat]
      exact ⟨h6, h80⟩
    obtain ⟨t, ht, _, hm, hy, _⟩ := exec_fmnOverrun he at_ cycle
    obtain ⟨em, ey⟩ := afterOverrun_keepUndo x k cycle hl hs
    exact ⟨t, ht, hm.trans em, hy.trans ey⟩

end Sys2Proof.Machine
end

section
/-!
Arrival records and the cut-off (02 R59 to R66): what a cut-off samples when nothing else waits.
-/
namespace Sys2Proof.Machine
set_option Elab.async false -- one proof at a time, as in the tests: the compile is close to its memory limit

/-! ### Records taken (02 R62, R63, R68) -/

/-- A state with another agreement of the landings. -/
def State.agreed (s : State) (k : Agree) : State := { s with agree := k }

theorem agreed_agree (s : State) (k : Agree) : (s.agreed k).agree = k := rfl
theorem agreed_nowNs (s : State) (k : Agree) : (s.agreed k).nowNs = s.nowNs := rfl
theorem agreed_ld (s : State) (k : Agree) (x : Side) : (s.agreed k).ld x = s.ld x := by cases x <;> rfl
theorem agreed_mode (s : State) (k : Agree) : (s.agreed k).mode = s.mode := rfl
theorem agreed_pur (s : State) (k : Agree) : (s.agreed k).pur = s.pur := rfl

@[simp] theorem advance_lead (t : Nat) (s : State) : (advance t s).lead = s.lead := by simp [State.lead, State.activeSide]

theorem takeRecord_refused {x : Option Side} {cls : Nat} {s : State} (h : cls < 3 ∨ 7 < cls ∨ cls = 3 ∧ x ≠ some s.lead)
    (port stamp : Nat) (content : List Byte) : takeRecord x cls port stamp content s = s :=
  if_pos (by simpa [or_assoc] using h)

theorem takeRecord_taken {x : Option Side} {cls : Nat} {s : State} (h : 4 ≤ cls ∧ cls ≤ 7 ∨ cls = 3 ∧ x = some s.lead)
    (port stamp : Nat) (content : List Byte) :
    takeRecord x cls port stamp content s = s.agreed { s.agree with
      waiting := s.agree.waiting ++ [{ cls := cls, port := port, stamp := stamp, from_ := x.elim 2 Side.num, content := content,
                                       order := s.agree.nextOrder }],
      nextOrder := s.agree.nextOrder + 1 } :=
  if_neg (by
    simp only [Bool.or_eq_true, Bool.and_eq_true, decide_eq_true_eq]
    rintro ((h3 | h7) | ⟨h3, hx⟩)
    · omega
    · omega
    · rcases h with h | ⟨_, h⟩
      · omega
      · exact hx h)

/-- A record taken changes the agreement alone. -/
theorem exec_arrivalRecord_taken {x : Option Side} {cls : Nat} {s : State} (h : 4 ≤ cls ∧ cls ≤ 7 ∨ cls = 3 ∧ x = some s.lead)
    (at_ port stamp : Nat) (content : List Byte) :
    ∃ t, exec (.arrivalRecord at_ x cls port stamp content) s = .next t ∧ t = { advance at_ s with agree := t.agree }
      ∧ t.agree = { s.agree with
          waiting := s.agree.waiting ++ [{ cls := cls, port := port, stamp := stamp, from_ := x.elim 2 Side.num, content := content,
                                           order := s.agree.nextOrder }],
          nextOrder := s.agree.nextOrder + 1 } := by
  refine ⟨_, congrArg Host.Outcome.next (takeRecord_taken (s := advance at_ s) (by rwa [advance_lead]) ..), rfl, ?_⟩
  rw [agreed_agree, advance_agree]

/-! ### What is sampled -/

theorem axisSnapshot_length (s : State) (inputs : Nat) : (axisSnapshot s inputs).length = 8 := leBytes_length ..

theorem bollardCopy_length (s : State) : (bollardCopy s).length = 32 := by
  simp [bollardCopy, List.range_succ]

theorem advance_uptime_isNone (t : Nat) (s : State) : (advance t s).uptime.isNone = s.uptime.isNone := by
  simp only [advance]
  split
  · rfl
  · exact Option.isNone_map

/-- A clock that counts goes on counting. -/
theorem advance_counting {s : State} (h : s.uptime.isSome = true) (t : Nat) : ¬(advance t s).uptime.isNone = true := by
  rw [advance_uptime_isNone, Option.isNone_iff_eq_none]
  exact Option.isSome_iff_ne_none.mp h

/-- Time never moves back. -/
theorem advance_nowNs (t : Nat) (s : State) : (advance t s).nowNs = max s.nowNs t := by
  have h : (advance t s).now = max s.now (t * nsUnit) := by
    simp only [advance]
    split
    · omega
    · simp only []
      omega
  simp only [State.nowNs, h, nsUnit]
  omega

theorem axisSnapshot_advance (t inputs : Nat) (s : State) : axisSnapshot (advance t s) inputs = axisSnapshot s inputs := by
  simp [axisSnapshot]

theorem bollardCopy_advance (t : Nat) (s : State) : bollardCopy (advance t s) = bollardCopy s := by
  have hbank : ∀ k, bankUp (advance t s) k = bankUp s k := fun k => by simp [bankUp]
  have hin : inValue (advance t s) = inValue s := by funext b n; simp [inValue, chanSafe, hbank]
  simp [bollardCopy, hin]

/-! ### The cut-off (02 R59, R61) -/

/-- While the landings' crossings have one period, a tick or a cut-off is for both. -/
theorem reached_both {s : State}
    (h : s.a.fmn.running = true → s.b.fmn.running = true → imgPeriod s.a.fmn.img = imgPeriod s.b.fmn.img) (due : Side → Nat) :
    reached .both due s = .both := by
  have hd : periodsDiffer s = false := by
    unfold periodsDiffer
    by_cases ha : s.a.fmn.running = true
    · by_cases hb : s.b.fmn.running = true
      · simp [h ha hb]
      · simp [hb]
    · simp [ha]
  simp [reached, hd]

theorem cutNs_ticked {s : State} {x : Side} (h : 0 < (s.grid x).period) (at_ : Nat) :
    s.cutNs x at_ = (s.grid x).last / nsUnit + (s.grid x).period / 20 * 19 := by
  simp [State.cutNs, h.ne']

/-- The two samples of a cut-off, in the admission order. -/
def samples (cut order : Nat) (snapshot bollard : List Byte) : List Ready :=
  [{ cls := 1, stamp := cut, content := snapshot, order := order }, { cls := 2, stamp := cut, content := bollard, order := order + 1 }]

theorem contentLimit_ge (code : Nat) : 16384 ≤ contentLimit code :=
  Nat.le_mul_of_pos_right _ (Nat.two_pow_pos code)

/-- Both samples fit every list (02 R66). -/
theorem fitReady_samples (code cut order : Nat) {snapshot bollard : List Byte} (hs : snapshot.length = 8) (hb : bollard.length = 32) :
    fitReady (contentLimit code) (samples cut order snapshot bollard) 0 0 = (samples cut order snapshot bollard, []) := by
  have := contentLimit_ge code
  have h1 : 8 ≤ contentLimit code := by omega
  have h2 : 40 ≤ contentLimit code := by omega
  simp [samples, fitReady, contentSize, hs, hb, h1, h2]

theorem modLd_id {s : State} {x : Side} {f : Landing → Landing} (h : f (s.ld x) = s.ld x) : s.modLd x f = s := by
  unfold State.modLd
  rw [h]
  cases x <;> rfl

/-- With nothing deferred, the count stays (02 R104). -/
theorem noteDeferred_none {x : Side} {s : State} (h : (s.ld x).fmn.deferred ≤ 0xFFFFFFFF) : noteDeferred x 0 0 s = s := by
  have hd : satAdd 0xFFFFFFFF (s.ld x).fmn.deferred 0 = (s.ld x).fmn.deferred := by unfold satAdd; omega
  unfold noteDeferred
  dsimp only
  rw [if_neg (Nat.lt_irrefl 0)]
  refine modLd_id ?_
  rw [hd]

theorem ld_of {s t : State} (ha : t.a = s.a) (hb : t.b = s.b) (x : Side) : t.ld x = s.ld x := by
  cases x
  · exact ha
  · exact hb

/-- A cut-off for both landings with no record waiting, agreed or deferred closes both lists with the two samples alone. -/
theorem cutoff_samples {s : State} (hw : s.agree.waiting = []) (hi : s.agree.inputs = []) (hr : Tab.get [] s.agree.ready s.lead.num = [])
    (hd : ∀ x, (s.ld x).fmn.deferred ≤ 0xFFFFFFFF) (cut : Nat) {snapshot bollard : List Byte} (hs : snapshot.length = 8)
    (hb : bollard.length = 32) :
    cutoff .both cut snapshot bollard s = s.agreed { s.agree with
      ready := Tab.set [] (Tab.set [] s.agree.ready 0 []) 1 [],
      closed := Tab.set [] (Tab.set [] s.agree.closed 0 (samples cut s.agree.nextOrder snapshot bollard)) 1
        (samples cut s.agree.nextOrder snapshot bollard),
      nextOrder := s.agree.nextOrder + 2 } := by
  have hnote : ∀ t : State, t.a = s.a → t.b = s.b → ∀ x, noteDeferred x 0 0 t = t := by
    intro t ha hb x
    exact noteDeferred_none (by rw [ld_of ha hb x]; exact hd x)
  have hf := fitReady_samples (listPeriod s s.lead) cut s.agree.nextOrder hs hb
  unfold samples at hf
  unfold cutoff
  simp only [listNum, listSide, listSides, hw, hi, hr, pairKeys, List.filter_nil, List.map_nil, List.eraseDups_nil, pairAll, takeRest,
    List.append_nil, sortReady, hf, List.foldl_cons, List.foldl_nil, List.length_nil, if_true]
  rw [hnote _ ?_ ?_ .A, hnote _ ?_ ?_ .B]
  all_goals rfl

theorem exec_admissionCutoff_both {s : State}
    (h : s.a.fmn.running = true → s.b.fmn.running = true → imgPeriod s.a.fmn.img = imgPeriod s.b.fmn.img) (at_ inputs : Nat) :
    exec (.admissionCutoff at_ .both inputs) s = .next (cutoffAt .both (s.cutNs s.lead at_) inputs s) := by
  change execAdmissionCutoff at_ .both inputs s = _
  unfold execAdmissionCutoff
  rw [reached_both h]
  rfl

theorem cutoffAt_counting {s : State} (hup : s.uptime.isSome = true) (dst : TickTo) (t inputs : Nat) :
    cutoffAt dst t inputs s = cutoff dst t (axisSnapshot s inputs) (bollardCopy s) (advance t s) := by
  unfold cutoffAt
  exact (if_neg (advance_counting hup t)).trans (by rw [axisSnapshot_advance, bollardCopy_advance])

/-- What a cut-off at `cut` leaves when nothing else waits. -/
theorem exec_admissionCutoff_samples {s : State} (hup : s.uptime.isSome = true) (hw : s.agree.waiting = []) (hi : s.agree.inputs = [])
    (hr : Tab.get [] s.agree.ready s.lead.num = []) (hd : ∀ x, (s.ld x).fmn.deferred ≤ 0xFFFFFFFF)
    (hone : s.a.fmn.running = true → s.b.fmn.running = true → imgPeriod s.a.fmn.img = imgPeriod s.b.fmn.img)
    {at_ cut : Nat} (hcut : s.cutNs s.lead at_ = cut) (inputs : Nat) :
    exec (.admissionCutoff at_ .both inputs) s = .next ((advance cut s).agreed { s.agree with
      ready := Tab.set [] (Tab.set [] s.agree.ready 0 []) 1 [],
      closed := Tab.set [] (Tab.set [] s.agree.closed 0 (samples cut s.agree.nextOrder (axisSnapshot s inputs) (bollardCopy s))) 1
        (samples cut s.agree.nextOrder (axisSnapshot s inputs) (bollardCopy s)),
      nextOrder := s.agree.nextOrder + 2 }) := by
  have hlist := cutoff_samples (s := advance cut s) (by simpa using hw) (by simpa using hi) (by simpa using hr)
    (fun x => by simpa using hd x) cut (axisSnapshot_length s inputs) (bollardCopy_length s)
  rw [exec_admissionCutoff_both hone, hcut, cutoffAt_counting hup, hlist]
  simp only [advance_agree]

/-- Settles O16: a record is taken behind the others or not at all, and a cut-off with none waiting closes the two samples. -/
theorem inputsAdmitted : Obligations.InputsAdmitted := by
  unfold Obligations.InputsAdmitted
  constructor
  · intro at_ cls port stamp x content s
    refine ⟨fun h => exec_arrivalRecord_taken h at_ port stamp content, fun h => ?_⟩
    refine congrArg Host.Outcome.next (takeRecord_refused ?_ port stamp content)
    rcases h with rfl | rfl | h
    · exact .inl (by decide)
    · exact .inl (by decide)
    · exact .inr (.inr (by simpa using h))
  · intro at_ inputs s hup hw hi hr hd hp hone cut
    refine ⟨_, exec_admissionCutoff_samples hup hw hi hr hd hone (cutNs_ticked hp at_) inputs, fun k hk => ?_, ?_⟩
    · have hk : k = 0 ∨ k = 1 := by omega
      rcases hk with rfl | rfl <;> simp [samples, agreed_agree, Tab.get_set, cut]
    · exact ⟨hw, hi, (agreed_nowNs ..).trans (advance_nowNs cut s), (agreed_ld ..).trans (advance_ld cut s .A),
        (agreed_ld ..).trans (advance_ld cut s .B), (agreed_mode ..).trans (advance_mode cut s), (agreed_pur ..).trans (advance_pur cut s)⟩

end Sys2Proof.Machine
end

section
/-!
Transfers over the Linkspan (02 R72 to R81, 12 R452): a slot of one clean beat, and a host's read in a fare slot.
-/
namespace Sys2Proof.Machine
set_option Elab.async false -- one proof at a time, as in the tests: the compile is close to its memory limit

/-! ### What the effects of a read leave (12 R451, R462 to R466) -/

/-- `t` differs from `s` on landing `x` by counts, remap candidates, event bits and accusations at most, and not at all on the other landing. -/
def Noted (x : Side) (t s : State) : Prop :=
  (t.ld x).mem = (s.ld x).mem ∧ (t.ld x).syn = (s.ld x).syn ∧ (t.ld x).memi.remap = (s.ld x).memi.remap ∧ (t.ld x).fmn = (s.ld x).fmn
    ∧ t.ld x.other = s.ld x.other ∧ t.mode = s.mode

theorem noted_refl (x : Side) (s : State) : Noted x s s := ⟨rfl, rfl, rfl, rfl, rfl, rfl⟩

theorem noted_trans {x : Side} {t u s : State} (h : Noted x t u) (k : Noted x u s) : Noted x t s := by
  obtain ⟨h1, h2, h3, h4, h5, h6⟩ := h
  obtain ⟨k1, k2, k3, k4, k5, k6⟩ := k
  exact ⟨h1.trans k1, h2.trans k2, h3.trans k3, h4.trans k4, h5.trans k5, h6.trans k6⟩

/-- A landing's own fault leaves the other landing as it is. -/
theorem raise_other (x : Side) (code detail : Nat) (s : State) : (raise (.landing x) code detail s).ld x.other = s.ld x.other := by
  have hevent : ∀ u, (setEvent (.landing x) code u).ld x.other = u.ld x.other := by
    intro u
    unfold setEvent
    split
    · rfl
    · split
      · rename_i y _ hy _
        cases hy
        exact modLd_other ..
      · cases x <;> rfl
  have haccuse : ∀ sev u, (accuseFor (.landing x) code sev u).ld x.other = u.ld x.other := by
    intro sev u
    unfold accuseFor
    split
    · rename_i y hy _
      cases hy
      exact modLd_other ..
    · rfl
  unfold raise raiseOwn
  split
  · rfl
  · simp [react, hevent, haccuse]

theorem noted_raise (x : Side) (code detail : Nat) (s : State) : Noted x (raise (.landing x) code detail s) s :=
  ⟨raise_mem .., raise_syn .., by rw [raise_memi], raise_fmn .., raise_other .., raise_mode ..⟩

theorem noted_raisePerSecond (x : Side) (code detail key : Nat) (s : State) : Noted x (raisePerSecond (.landing x) code detail key s) s := by
  unfold raisePerSecond raiseWithin
  dsimp only
  split
  · exact noted_refl ..
  · exact noted_trans (noted_raise ..) (by cases x <;> exact noted_refl ..)

/-- A change of a landing's memory counters that leaves its remap table. -/
theorem noted_memi (x : Side) {f : Landing → MemInt} (s : State) (h : (f (s.ld x)).remap = (s.ld x).memi.remap) :
    Noted x (s.modLd x (fun l => { l with memi := f l })) s := by
  refine ⟨?_, ?_, ?_, ?_, modLd_other .., modLd_mode ..⟩ <;> rw [modLd_ld]
  exact h

theorem noted_bucketAdd (x : Side) (s : State) : Noted x (bucketAdd x s) s := by
  unfold bucketAdd
  dsimp only
  split
  · exact noted_trans (noted_raise ..) (noted_memi x s rfl)
  · exact noted_memi x s rfl

theorem noted_noteCorrected (x : Side) (kind a : Nat) (y : Byte) (s : State) : Noted x (noteCorrected x kind a y s) s :=
  noted_trans (noted_bucketAdd ..) (noted_trans (noted_raisePerSecond ..) (noted_memi x s rfl))

@[simp] theorem addCandidate_remap (m : MemInt) (line cause : Nat) : (addCandidate m line cause).remap = m.remap := by
  unfold addCandidate
  dsimp only
  generalize (if physical m line = line then (line, cause) else (physical m line, 5)) = c
  split <;> rfl

theorem noted_noteUncorrectable (x : Side) (kind a : Nat) (y : Byte) (s : State) : Noted x (noteUncorrectable x kind a y s) s := by
  unfold noteUncorrectable
  dsimp only
  have hcount := noted_memi x (f := fun l =>
    if kind = 0 && a < 0x08000000 then
      addCandidate { l.memi with uncorr := Tab.upd 0 l.memi.uncorr kind (fun n => satAdd 0xFFFF n 1), errAddr := a % 2 ^ 32,
                                 errInfo := errInfo y kind true } (a / 64 * 64) 1
    else { l.memi with uncorr := Tab.upd 0 l.memi.uncorr kind (fun n => satAdd 0xFFFF n 1), errAddr := a % 2 ^ 32,
                       errInfo := errInfo y kind true }) s (by split <;> simp)
  split
  · exact noted_trans (noted_raise ..) hcount
  · exact noted_trans (noted_raisePerSecond ..) hcount

/-- Only an engine's internal store is written back corrected (12 R453). -/
theorem noted_readEffects {a : Nat} (ha : memKind a ≠ 5) (x : Side) (s : State) : Noted x (readEffects x a s) s := by
  unfold readEffects
  dsimp only
  split
  · exact noted_refl ..
  · exact noted_refl ..
  · rw [if_neg ha]
    exact noted_noteCorrected ..
  · exact noted_noteUncorrectable ..

theorem physical_congr {m n : MemInt} (h : m.remap = n.remap) (a : Nat) : physical m a = physical n a := by
  simp [physical, remapOf, h]

theorem peekWord_noted {x : Side} {t s : State} (h : Noted x t s) (a : Nat) : peekWord (t.ld x) a = peekWord (s.ld x) a := by
  obtain ⟨hmem, hsyn, hmap, _⟩ := h
  unfold peekWord
  rw [hmem, hsyn, physical_congr hmap]

/-! ### A slot of one clean beat (02 R74, 12 R452) -/

/-- Claim `c` is one beat from memory to memory, outside the engines' internal stores and the units' windows. -/
def memoryBeat (c : Claim) : Prop :=
  c.beats = 1 ∧ 0x10 ≤ c.src ∧ c.src < 0x20 ∧ 0x10 ≤ c.dst ∧ c.dst < 0x20 ∧ memKind c.from_ ≠ 5 ∧ c.from_ < 0x30000000

theorem portWord_memory {a : Nat} (ha : a < 0x30031000) (x : Side) (s : State) : portWord x a s = memRead x a s :=
  if_neg (by simp; omega)

theorem checkBeat_clean (x : Side) (a : Nat) (w : Pw) (s : State) : checkBeat x a [] w s = (w, s) := by
  have hy : classify (BitVec.ofNat 8 (flipSyn [])) = .clean := classify_clean
  simp only [checkBeat, hy, flipBits]

theorem arriveBeats_memory {c : Claim} (hc : memoryBeat c) (x : Side) (s : State) :
    arriveBeats x c [] c.beats 0 s = ([some (peekWord (s.ld x) c.from_)], readEffects x c.from_ s) := by
  obtain ⟨hb, hs1, hs2, _, _, _, ha⟩ := hc
  have hsrc : sourceBeat x c 0 s = (some (peekWord (s.ld x) c.from_), readEffects x c.from_ s) := by
    unfold sourceBeat
    dsimp only
    rw [if_neg (by omega), if_neg (by omega), if_neg (by simp; omega), portWord_memory (by omega)]
    rfl
  simp [hb, arriveBeats, hsrc, beatFlips, checkBeat_clean]

/-- The word is written where the claim says, and its claim is closed. -/
theorem slotTransfer_memory {x : Side} {k : Nat} {c : Claim} {s : State} (hrun : runningClaim (s.ld x).fmn k = some c) (hc : memoryBeat c) :
    slotTransfer x k [] s = closeItem x (claimItem k) (memWrite x c.to_ (peekWord (s.ld x) c.from_) (readEffects x c.from_ s)) := by
  have harr := arriveBeats_memory hc x s
  obtain ⟨_, _, _, hd1, hd2, _, _⟩ := hc
  have hkeep : ∀ u, padBuffer x c (keepKey x c u) = u := by
    intro u
    unfold keepKey padBuffer
    dsimp only
    rw [if_neg (by simp; omega), if_neg (by omega), if_neg (by omega)]
  have hstore : ∀ w u, storeBeats x c 0 [some w] u = memWrite x c.to_ w u := by
    intro w u
    simp only [storeBeats, writeBeat]
    rw [if_neg (by omega)]
    rfl
  unfold slotTransfer
  rw [hrun]
  dsimp only
  rw [harr, if_neg (by omega)]
  dsimp only
  rw [hstore, hkeep]

theorem closeItem_ld (x : Side) (n : Nat) (s : State) :
    (closeItem x n s).ld x = { s.ld x with fmn := { (s.ld x).fmn with open_ := (s.ld x).fmn.open_.filter (· ≠ n) } } := by
  simp [closeItem]

/-- What a slot of one clean beat leaves: its word at the destination, every other word, the rest of its landing's open items, the other
landing and the mode. -/
theorem slotTransfer_leaves {x : Side} {k : Nat} {c : Claim} {s : State} (hrun : runningClaim (s.ld x).fmn k = some c) (hc : memoryBeat c) :
    peekWord ((slotTransfer x k [] s).ld x) c.to_ = peekWord (s.ld x) c.from_
      ∧ (∀ b, physical (s.ld x).memi b + 8 ≤ physical (s.ld x).memi c.to_ ∨ physical (s.ld x).memi c.to_ + 8 ≤ physical (s.ld x).memi b →
          peekWord ((slotTransfer x k [] s).ld x) b = peekWord (s.ld x) b)
      ∧ ((slotTransfer x k [] s).ld x).fmn.open_ = (s.ld x).fmn.open_.filter (· ≠ claimItem k)
      ∧ (slotTransfer x k [] s).ld x.other = s.ld x.other ∧ (slotTransfer x k [] s).mode = s.mode := by
  rw [slotTransfer_memory hrun hc]
  generalize hw : peekWord (s.ld x) c.from_ = w
  have hn : Noted x (readEffects x c.from_ s) s := noted_readEffects hc.2.2.2.2.2.1 x s
  have hpeek : ∀ b, peekWord ((closeItem x (claimItem k) (memWrite x c.to_ w (readEffects x c.from_ s))).ld x) b
      = peekWord (ldWrite ((readEffects x c.from_ s).ld x) c.to_ w) b := by
    intro b
    rw [closeItem_ld, memWrite, modLd_ld]
    rfl
  obtain ⟨_, _, hmap, hfmn, hother, hmode⟩ := id hn
  refine ⟨?_, fun b hb => ?_, ?_, ?_, ?_⟩
  · rw [hpeek, peekWord_ldWrite]
  · rw [hpeek, peekWord_ldWrite_ne, peekWord_noted hn]
    simpa only [physical_congr hmap] using hb
  · rw [closeItem_ld, memWrite, modLd_ld]
    change (((readEffects x c.from_ s).ld x).fmn.open_).filter _ = _
    rw [hfmn]
  · rw [closeItem, modLd_other, memWrite, modLd_other, hother]
  · rw [closeItem, modLd_mode, memWrite, modLd_mode, hmode]

/-! ### What a partition may read (16 R610) -/

/-- What a partition needs for a read depends on the purser's rings alone. -/
theorem hostRange_read_congr {s t : State} (h : t.pur = s.pur) (p a n : Nat) : hostRange t p false a n = hostRange s p false a n := by
  have hpart : ∀ q, t.part q = s.part q := fun q => by simp [State.part, h]
  have hexp : ∀ r, ringExp t r = ringExp s r := fun r => by simp [ringExp, hpart]
  have hspan : ∀ r, ringSpan t r = ringSpan s r := by
    intro r
    induction r with
    | zero => simp [ringSpan, hexp]
    | succ r ih => simp [ringSpan, hexp, ih]
  have hbase : ∀ r, ringBase t r = ringBase s r := fun r => by simp [ringBase, layoutBase, hspan, h]
  have hneeds : ∀ b, hostNeeds t p false b = hostNeeds s p false b := fun b => by
    simp [hostNeeds, areaBytes, hspan, ownRing, hbase, hexp]
  induction n generalizing a with
  | zero => rfl
  | succ n ih => simp [hostRange, hneeds, ih]

/-! ### A fare slot (02 R76, R81) -/

theorem starting_advance (t : Nat) (s : State) (x : Side) : starting (advance t s) x = starting s x := by simp [starting]

/-- A request of a host partition for one word of memory outside the tiles. -/
def wordRead (q : FareReq) : Prop :=
  q.who < 8 ∧ q.data = [] ∧ memMapped q.addr = true ∧ (q.addr < 0x20000000 ∨ 0x28000000 ≤ q.addr) ∧ q.addr % 8 = 0 ∧ q.len = 8

theorem wordRead_mapped {q : FareReq} (h : wordRead q) : memRange q.addr 8 = true ∧ roWindow q.addr = false ∧ q.addr < 0x30000000 := by
  obtain ⟨_, _, hm, _, h8, _⟩ := h
  simp only [memRange, memMapped, roWindow, Bool.or_eq_true, Bool.and_eq_true, decide_eq_true_eq, Bool.or_eq_false_iff,
    Bool.and_eq_false_iff, decide_eq_false_iff_not] at hm ⊢
  omega

theorem wordRead_kind {q : FareReq} (h : wordRead q) : memKind q.addr ≠ 5 := by
  obtain ⟨_, _, hm, _⟩ := h
  simp only [memMapped, Bool.or_eq_true, Bool.and_eq_true, decide_eq_true_eq] at hm
  unfold memKind
  (repeat' split) <;> omega

theorem splitFare_word {q : FareReq} (h : wordRead q) : splitFare q = (q, none) := by
  obtain ⟨_, hd, _, _, h8, hl⟩ := h
  simp only [splitFare, hd, hl]
  exact if_pos (by simp; omega)

theorem not_sendsBlock {q : FareReq} (h : q.who < 8) : sendsBlock q = false := by
  simp only [sendsBlock, Bool.and_eq_false_iff, decide_eq_false_iff_not]
  omega

/-- A granted read of one word answers it, as its memory holds it. -/
theorem fareDo_word {x : Side} {q : FareReq} {s : State} (h : wordRead q)
    (hm : ∃ k, hostRange s q.who false q.addr 2 = some k ∧ k ≤ (s.part q.who).level) :
    fareDo x q s = { readEffects x q.addr s with resp := { fare := [(q.addr, peekWord (s.ld x) q.addr)] } } := by
  obtain ⟨hrange, hro, hlow⟩ := wordRead_mapped h
  obtain ⟨hw, hd, _, htile, h8, hl⟩ := h
  obtain ⟨k, hk, hlevel⟩ := hm
  have hword : fareWord x q.addr s = (peekWord (s.ld x) q.addr, readEffects x q.addr s) := by
    have htouch : touchTile x q.addr s = s := if_neg (by simp; omega)
    rw [fareWord, hro, htouch]
    exact portWord_memory (by omega) x s
  have hmay : fareMay x q 8 s = true := by
    have ha : q.addr / 4 * 4 = q.addr := by omega
    have hn : (q.addr + 8 + 3) / 4 - q.addr / 4 = 2 := by omega
    have h8 : q.who ≠ 8 := by omega
    simp [fareMay, hd, hrange, ha, hn, h8, hk, hlevel]
  have ha : q.addr / 8 * 8 = q.addr := by omega
  have hn : (q.addr + 8 + 7) / 8 - q.addr / 8 = 1 := by omega
  unfold fareDo
  rw [if_neg (by omega), if_neg (by omega), not_sendsBlock hw]
  simp only [hd, hl, List.isEmpty_nil, if_true, hmay, Bool.false_eq_true, if_false]
  simp [fareAccess, hd, hl, ha, hn, fareWords, hword, List.range_succ]

/-- The landing after a grant, before what is granted is done. -/
def afterGrant (slot lane : Nat) (q : FareReq) (l : Landing) : Landing :=
  { l with fmn := { l.fmn with
    fares := [], fareTurn := (q.who + 1) % 8, granted := l.fmn.granted ++ [(slot, if q.port = 0x19 then 8 else lane, fareEnds q)] } }

theorem fareGrant_none {x : Side} {slot lane : Nat} {fresh : List FareReq} {s : State}
    (h : farePick (s.ld x).fmn slot lane ((s.ld x).fmn.fares ++ fresh) = none) :
    fareGrant x slot lane fresh s = s.modLd x (fun l => { l with fmn := { l.fmn with fares := l.fmn.fares ++ fresh } }) := by
  unfold fareGrant
  dsimp only
  rw [h, ite_self]
  exact modLd_congr s x rfl

theorem fareGrant_only {x : Side} {slot lane : Nat} {q : FareReq} {s : State} (hf : (s.ld x).fmn.fares = []) (hs : starting s x = false)
    (hfit : fareFits (s.ld x).fmn slot lane q = true) (h : wordRead q) :
    fareGrant x slot lane [q] s = fareDo x q (s.modLd x (afterGrant slot lane q)) := by
  have hpick : farePick (s.ld x).fmn slot lane [q] = some q := by simp [farePick, hfit]
  have hw : q.who < 8 := h.1
  unfold fareGrant
  dsimp only
  rw [hf, List.nil_append, hs, hpick]
  simp only [Bool.false_eq_true, if_false, splitFare_word h, Option.elim_none, List.erase_cons_head, if_pos hw]
  rfl

/-- The ports and the lane of a grant take no second one in the slot. -/
theorem afterGrant_full (slot lane : Nat) (q r : FareReq) (l : Landing) (h : r.port = q.port ∨ r.port ≠ 0x19 ∧ q.port ≠ 0x19) :
    fareFits (afterGrant slot lane q l).fmn slot lane r = false := by
  rcases h with hport | ⟨hr, hq⟩
  · have hg : portGranted (afterGrant slot lane q l).fmn slot r.port = true := by simp [portGranted, afterGrant, fareEnds, hport]
    simp [fareFits, fareEnds, hg]
  · simp [fareFits, afterGrant, hr, hq]

/-- Settles O20: a slot's word is written at its destination and nowhere else, and a fitting read is answered from memory. -/
theorem slotsAndFares : Obligations.SlotsAndFares := by
  unfold Obligations.SlotsAndFares
  constructor
  · intro at_ k x c s hrun hb hs1 hs2 hd1 hd2 hk ha
    obtain ⟨hto, hrest, hopen, hother, hmode⟩ := slotTransfer_leaves (s := advance at_ s) (k := k) (by rwa [advance_ld]) ⟨hb, hs1, hs2, hd1, hd2, hk, ha⟩
    simp only [advance_ld, advance_mode] at hto hrest hopen hother hmode
    exact ⟨_, rfl, hto, hrest, hopen, hother, hmode⟩
  · intro at_ slot lane x fresh q s
    refine ⟨fun hnone => ?_, ?_⟩
    · exact congrArg Host.Outcome.next (fareGrant_none (by rwa [advance_ld]))
    · rintro hf rfl hs hfit hw _ hd hmap htile h8 hl ⟨k, hk, hlevel⟩
      have hread : wordRead q := ⟨hw, hd, hmap, htile, h8, hl⟩
      have hmay : ∃ k, hostRange ((advance at_ s).modLd x (afterGrant slot lane q)) q.who false q.addr 2 = some k
          ∧ k ≤ (((advance at_ s).modLd x (afterGrant slot lane q)).part q.who).level := by
        refine ⟨k, (hostRange_read_congr (by simp) ..).trans hk, ?_⟩
        simpa [State.part] using hlevel
      have hgrant := (fareGrant_only (by rwa [advance_ld]) (by rwa [starting_advance]) (by rwa [advance_ld]) hread).trans (fareDo_word hread hmay)
      have hnoted := noted_readEffects (wordRead_kind hread) x ((advance at_ s).modLd x (afterGrant slot lane q))
      obtain ⟨_, _, _, hfmn, _⟩ := hnoted
      rw [modLd_ld, advance_ld] at hfmn hgrant
      refine ⟨_, congrArg Host.Outcome.next hgrant, rfl, ?_, ?_, fun r hr => ?_⟩
      · exact congrArg Ferryman.fares hfmn
      · exact congrArg Ferryman.fareTurn hfmn
      · exact (congrArg (fun f => fareFits f slot lane r) hfmn).trans (afterGrant_full slot lane q r _ hr)


end Sys2Proof.Machine
end

section
/-!
What the parts of a crossing tick leave alone (02 R57, R89): the latest tick, the count of ticks, the power of the landings, their crossing
counts and what makes them ready for a tick.
-/
namespace Sys2Proof.Machine
set_option Elab.async false -- one proof at a time, as in the tests: the compile is close to its memory limit

/-! ### What the ticks go by -/

/-- A landing's crossing count, and what a tick asks of the landing that it reaches. -/
def Landing.beat (l : Landing) : Nat × Bool × Bool × Bool := (l.fmn.crossing, l.fmn.tickLost, l.slw.s10, l.slw.inReset)

/-- The latest tick, the count of ticks, and each landing's power and beat. -/
def State.pace (s : State) : Nat × Nat × Bool × Bool × (Nat × Bool × Bool × Bool) × (Nat × Bool × Bool × Bool) :=
  (s.tick.last, s.tick.count, s.sup.landA, s.sup.landB, s.a.beat, s.b.beat)

/-- A landing's Ferryman and slipway record give its beat. -/
theorem beat_eq_of {k l : Landing} (hf : k.fmn = l.fmn) (hs : k.slw = l.slw) : k.beat = l.beat := by
  simp only [Landing.beat, hf, hs]

theorem pace_eq_of {s t : State} (htick : t.tick = s.tick) (hsup : t.sup = s.sup) (hld : ∀ x, (t.ld x).beat = (s.ld x).beat) :
    t.pace = s.pace := by
  have ha : t.a.beat = s.a.beat := hld .A
  have hb : t.b.beat = s.b.beat := hld .B
  simp [State.pace, htick, hsup, ha, hb]

/-- The clocks of the ticks, the supply and the landings give the pace. -/
theorem pace_of {s t : State} (htick : t.tick = s.tick) (hsup : t.sup = s.sup) (ha : t.a = s.a) (hb : t.b = s.b) : t.pace = s.pace := by
  simp only [State.pace, htick, hsup, ha, hb]

@[simp] theorem modLd_pace (s : State) (x : Side) (f : Landing → Landing) (h : (f (s.ld x)).beat = (s.ld x).beat) :
    (s.modLd x f).pace = s.pace := by
  cases x
  · exact congrArg (fun b => (s.tick.last, s.tick.count, s.sup.landA, s.sup.landB, b, s.b.beat)) h
  · exact congrArg (fun b => (s.tick.last, s.tick.count, s.sup.landA, s.sup.landB, s.a.beat, b)) h

/-- A change of a landing that leaves its Ferryman and its slipway record. -/
theorem modLd_pace_of (s : State) (x : Side) (f : Landing → Landing) (hf : (f (s.ld x)).fmn = (s.ld x).fmn)
    (hs : (f (s.ld x)).slw = (s.ld x).slw) : (s.modLd x f).pace = s.pace := modLd_pace s x f (beat_eq_of hf hs)

@[simp] theorem ite_pace (c : Prop) [Decidable c] (s t : State) : (if c then s else t).pace = if c then s.pace else t.pace := by
  split <;> rfl

theorem foldl_pace {α : Type} (f : State → α → State) (h : ∀ s a, (f s a).pace = s.pace) (l : List α) (s : State) :
    (l.foldl f s).pace = s.pace := by
  induction l generalizing s with
  | nil => rfl
  | cons a t ih => exact (ih _).trans (h s a)

theorem eachSide_pace (c : Side → Bool) (f : Side → State → State) (h : ∀ x s, (f x s).pace = s.pace) (s : State) :
    (eachSide c f s).pace = s.pace := by
  unfold eachSide
  simp [h]

/-! ### The operations of the shared chapters -/

@[simp] theorem advance_pace (t : Nat) (s : State) : (advance t s).pace = s.pace := by
  unfold advance
  dsimp only
  split <;> rfl

@[simp] theorem raise_pace (src : Source) (code detail : Nat) (s : State) : (raise src code detail s).pace = s.pace :=
  pace_eq_of (raise_tick ..) (raise_sup ..) fun x => by rw [raise_ld]; rfl

@[simp] theorem raiseWithin_pace (src : Source) (code detail key t window : Nat) (s : State) :
    (raiseWithin src code detail key t window s).pace = s.pace := by
  unfold raiseWithin
  dsimp only
  split
  · rfl
  · exact raise_pace ..

@[simp] theorem raisePerSecond_pace (src : Source) (code detail key : Nat) (s : State) :
    (raisePerSecond src code detail key s).pace = s.pace := raiseWithin_pace ..

@[simp] theorem raisePerCrossing_pace (x : Side) (code detail key : Nat) (s : State) :
    (raisePerCrossing x code detail key s).pace = s.pace := raiseWithin_pace ..

@[simp] theorem complete_pace (c : Pend) (st : Status) (d : List Byte) (p : Bool) (s : State) : (complete c st d p s).pace = s.pace := by
  unfold complete
  dsimp only
  split <;> rfl

@[simp] theorem setRole_pace (s : State) (x : Side) (r : Role) : (s.setRole x r).pace = s.pace := by cases x <;> rfl

@[simp] theorem takeRecord_pace (x : Option Side) (cls port stamp : Nat) (content : List Byte) (s : State) :
    (takeRecord x cls port stamp content s).pace = s.pace := by
  unfold takeRecord
  split <;> rfl

/-! ### Memory -/

@[simp] theorem rawPut_beat (l : Landing) (a : Nat) (v : DWord) (y : Byte) : (rawPut l a v y).beat = l.beat := by
  unfold rawPut
  exact beat_eq_of rfl rfl

@[simp] theorem ldWrite_beat (l : Landing) (a : Nat) (w : Pw) : (ldWrite l a w).beat = l.beat := by
  unfold ldWrite
  exact (rawPut_beat ..).trans (beat_eq_of rfl rfl)

@[simp] theorem memWrite_pace (x : Side) (a : Nat) (w : Pw) (s : State) : (memWrite x a w s).pace = s.pace :=
  modLd_pace _ _ _ (ldWrite_beat ..)

@[simp] theorem bucketAdd_pace (x : Side) (s : State) : (bucketAdd x s).pace = s.pace := by
  unfold bucketAdd
  dsimp only
  split
  · exact (raise_pace ..).trans (modLd_pace_of _ _ _ rfl rfl)
  · exact modLd_pace_of _ _ _ rfl rfl

@[simp] theorem noteCorrected_pace (x : Side) (kind a : Nat) (y : Byte) (s : State) : (noteCorrected x kind a y s).pace = s.pace :=
  (bucketAdd_pace ..).trans ((raisePerSecond_pace ..).trans (modLd_pace_of _ _ _ rfl rfl))

@[simp] theorem noteUncorrectable_pace (x : Side) (kind a : Nat) (y : Byte) (s : State) : (noteUncorrectable x kind a y s).pace = s.pace := by
  unfold noteUncorrectable
  dsimp only
  split
  · exact (raise_pace ..).trans (modLd_pace_of _ _ _ rfl rfl)
  · exact (raisePerSecond_pace ..).trans (modLd_pace_of _ _ _ rfl rfl)

@[simp] theorem readEffects_pace (x : Side) (a : Nat) (s : State) : (readEffects x a s).pace = s.pace := by
  unfold readEffects
  dsimp only
  split
  · rfl
  · rfl
  · split
    · exact (modLd_pace _ _ _ (rawPut_beat ..)).trans (noteCorrected_pace ..)
    · exact noteCorrected_pace ..
  · exact noteUncorrectable_pace ..

@[simp] theorem memReadN_pace (x : Side) (a n : Nat) (s : State) : (memReadN x a n s).2.pace = s.pace := by
  induction n generalizing a s with
  | zero => rfl
  | succ n ih => exact (ih ..).trans (readEffects_pace ..)

@[simp] theorem memWriteN_pace (x : Side) (a : Nat) (ws : List Pw) (s : State) : (memWriteN x a ws s).pace = s.pace := by
  induction ws generalizing a s with
  | nil => rfl
  | cons w t ih => exact (ih ..).trans (memWrite_pace ..)

@[simp] theorem memMerge_pace (x : Side) (a : Nat) (data : List (Nat × Byte)) (s : State) : (memMerge x a data s).pace = s.pace :=
  (memWrite_pace ..).trans (readEffects_pace ..)

@[simp] theorem memPut_pace (x : Side) (a : Nat) (data : List Byte) (s : State) : (memPut x a data s).pace = s.pace := by
  have hbytes : ∀ n a data s, (memBytes x n a data s).pace = s.pace := by
    intro n
    induction n with
    | zero => intro a data s; rfl
    | succ n ih =>
      intro a data s
      unfold memBytes
      dsimp only
      split
      · rfl
      · rw [ih]
        simp
  exact hbytes ..

/-! ### The tiles (03 R108 to R136) -/

@[simp] theorem modTile_pace (s : State) (x : Side) (n : Nat) (f : Tile → Tile) : (s.modTile x n f).pace = s.pace := modLd_pace_of _ _ _ rfl rfl

@[simp] theorem landWord_pace (x : Side) (cyc : Nat) (e : Nat × List (Nat × Byte) × Bool) (s : State) : (landWord x cyc e s).pace = s.pace := by
  unfold landWord
  dsimp only
  rw [memWrite_pace, modLd_pace _ _ _ (by simp [Landing.beat])]
  split
  · exact readEffects_pace ..
  · rfl

@[simp] theorem landCycle_pace (x : Side) (n cyc : Nat) (rs : List PendRes) (s : State) : (landCycle x n cyc rs s).pace = s.pace := by
  unfold landCycle
  dsimp only
  rw [modTile_pace, foldl_pace _ fun s r => foldl_pace _ (fun s e => landWord_pace ..) _ _, modTile_pace]

@[simp] theorem settle_pace (x : Side) (n t : Nat) (s : State) : (settle x n t s).pace = s.pace := by
  have hsettle : ∀ k s, (settleN x n t k s).pace = s.pace := by
    intro k
    induction k with
    | zero => intro s; rfl
    | succ k ih =>
      intro s
      unfold settleN
      split
      · rfl
      · dsimp only
        split
        · rfl
        · rw [ih, landCycle_pace, modTile_pace]
  exact hsettle ..

@[simp] theorem launch_pace (x : Side) (n : Nat) (r : PendRes) (s : State) : (launch x n r s).pace = s.pace := modTile_pace ..

@[simp] theorem issue_pace (x : Side) (n cyc : Nat) (w : Word) (bad : PendRes) (run : Tile → PendRes) (s : State) :
    (issue x n cyc w bad run s).pace = s.pace := by
  unfold issue
  dsimp only
  split <;> simp

@[simp] theorem tileFault_pace (x : Side) (n code detail land : Nat) (s : State) : (tileFault x n code detail land s).pace = s.pace := by
  simp [tileFault]

@[simp] theorem loadOp_pace (size : Nat) (f : Nat → DWord) (x : Side) (n cyc : Nat) (w : Word) (s : State) :
    (loadOp size f x n cyc w s).pace = s.pace := by
  unfold loadOp
  dsimp only
  split <;> simp [memRead]

@[simp] theorem loadVec_pace (x : Side) (n cyc : Nat) (w : Word) (s : State) : (loadVec x n cyc w s).pace = s.pace := by
  unfold loadVec
  dsimp only
  split <;> simp

@[simp] theorem storeOp_pace (size : Nat) (src : Tile → List Pw) (x : Side) (n cyc : Nat) (w : Word) (s : State) :
    (storeOp size src x n cyc w s).pace = s.pace := by
  simp [storeOp]

@[simp] theorem floatOp_pace (lat : Nat) (useB useC : Bool) (f : Fmt → Nat → Nat → Nat → Nat × Nat) (x : Side) (n cyc : Nat) (w : Word)
    (s : State) : (floatOp lat useB useC f x n cyc w s).pace = s.pace := by
  unfold floatOp
  dsimp only
  split <;> exact issue_pace ..

/-- Every syllable of slots 0 and 1 issues one result, `SEL` under any guard; `NOP` lets results land. -/
@[simp] theorem sylInt_pace (op : Nat) (w : Word) (x : Side) (n cyc : Nat) (s : State) : (sylInt op x n cyc w s).pace = s.pace := by
  unfold sylInt
  split
  case h_15 => exact (launch_pace ..).trans (settle_pace ..)
  case h_37 => exact settle_pace ..
  all_goals exact issue_pace ..

@[simp] theorem sylFloat_pace (op : Nat) (w : Word) (x : Side) (n cyc : Nat) (s : State) : (sylFloat op x n cyc w s).pace = s.pace := by
  unfold sylFloat
  split
  case h_26 => exact settle_pace ..
  case h_1 | h_2 | h_3 | h_4 | h_5 | h_6 | h_7 | h_8 | h_9 | h_10 | h_11 => exact floatOp_pace ..
  all_goals exact issue_pace ..

@[simp] theorem sylMem_pace (op : Nat) (w : Word) (x : Side) (n cyc : Nat) (s : State) : (sylMem op x n cyc w s).pace = s.pace := by
  unfold sylMem
  split
  case h_8 => exact loadVec_pace ..
  case h_9 | h_10 | h_11 | h_12 | h_13 => exact storeOp_pace ..
  case h_14 | h_15 => exact issue_pace ..
  case h_16 | h_17 => exact (modTile_pace ..).trans (settle_pace ..)
  case h_18 => exact settle_pace ..
  all_goals exact loadOp_pace ..

@[simp] theorem sylOf_pace (k : Nat) (w : Word) (x : Side) (n cyc : Nat) (s : State) : (sylOf k w x n cyc w s).pace = s.pace := by
  unfold sylOf
  split
  · exact sylInt_pace ..
  · split
    · exact sylFloat_pace ..
    · exact sylMem_pace ..

@[simp] theorem issueBundle_pace (x : Side) (n cyc : Nat) (s : State) : (issueBundle x n cyc s).pace = s.pace := by
  unfold issueBundle
  dsimp only
  split
  · exact settle_pace ..
  · split
    · split <;> simp
    · exact (foldl_pace _ (fun s k => sylOf_pace ..) _ _).trans (memReadN_pace ..)

@[simp] theorem finishTiles_pace (x : Side) (s : State) : (finishTiles x s).pace = s.pace := by
  have hissue : ∀ n k s, (issueN x n k s).pace = s.pace := by
    intro n k
    induction k with
    | zero => intro s; rfl
    | succ k ih => intro s; exact (ih _).trans ((modTile_pace ..).trans (issueBundle_pace ..))
  exact foldl_pace _ (fun s n => (foldl_pace _ (fun s p => settle_pace ..) _ _).trans (hissue ..)) _ _

/-! ### The crossing's list and the berths (02 R62 to R70) -/

theorem foldl_beat {α : Type} (f : Landing → α → Landing) (h : ∀ l a, (f l a).beat = l.beat) (as : List α) (l : Landing) :
    (as.foldl f l).beat = l.beat := by
  induction as generalizing l with
  | nil => rfl
  | cons a t ih => exact (ih _).trans (h l a)

@[simp] theorem ite_beat (c : Prop) [Decidable c] (k l : Landing) : (if c then k else l).beat = if c then k.beat else l.beat := by
  split <;> rfl

@[simp] theorem putAll_beat (l : Landing) (ps : List (Nat × List Byte)) : (putAll l ps).beat = l.beat := by
  induction ps generalizing l with
  | nil => rfl
  | cons p t ih => exact (ih _).trans (beat_eq_of rfl rfl)

@[simp] theorem clearRange_beat (l : Landing) (a n : Nat) : (clearRange l a n).beat = l.beat := by
  unfold clearRange
  exact beat_eq_of rfl rfl

@[simp] theorem swapBuffers_beat (l : Landing) (a n : Nat) : (swapBuffers l a n).beat = l.beat := by
  unfold swapBuffers
  exact beat_eq_of rfl rfl

@[simp] theorem setBerthStatus_beat (l : Landing) (a stat : Nat) : (setBerthStatus l a stat).beat = l.beat := by
  unfold setBerthStatus rawPut
  exact beat_eq_of rfl rfl

/-- The memory counters and marks of a landing are no part of its beat. -/
theorem memi_beat (l : Landing) (m : MemInt) : ({ l with memi := m } : Landing).beat = l.beat := beat_eq_of rfl rfl

@[simp] theorem admitList_pace (x : Side) (k : Nat) (s : State) : (admitList x k s).pace = s.pace := by
  refine modLd_pace _ _ _ ?_
  dsimp only
  split
  · rw [swapBuffers_beat, memi_beat, putAll_beat, clearRange_beat]
    simp only [Landing.beat]
  · simp only [Landing.beat]

@[simp] theorem swapBerth_beat (img : Tab Byte) (i crossing : Nat) (overran : Bool) (own : Option Nat) (b : BerthDecl) (l : Landing) :
    (swapBerth img i crossing overran own b l).beat = l.beat := by
  have hput : ∀ (k : Landing) (m : List Host.Cell) (y : List Host.Cell), ({ k with mem := m, syn := y } : Landing).beat = k.beat :=
    fun _ _ _ => beat_eq_of rfl rfl
  unfold swapBerth
  extract_lets k m
  have hk : k.beat = l.beat := memi_beat ..
  have hm : m.beat = k.beat := by simp [m]
  clear_value k m
  simp [hput, hk, hm]

@[simp] theorem swapBerths_beat (own : Nat → Option Nat) (l : Landing) : (swapBerths own l).beat = l.beat := by
  have hheld : ∀ (k : Landing) (o : List Nat), ({ k with fmn := { k.fmn with overrun := o } } : Landing).beat = k.beat := fun _ _ => rfl
  unfold swapBerths
  exact (hheld ..).trans (foldl_beat _ (fun l n => swapBerth_beat ..) _ _)

/-! ### The units -/

@[simp] theorem runAxes_pace (x : Side) (s : State) : (runAxes x s).pace = s.pace := by
  refine foldl_pace _ (fun s q => ?_) _ s
  dsimp only
  split
  · split
    · exact modLd_pace_of _ _ _ rfl rfl
    · exact modLd_pace_of _ _ _ rfl rfl
  · split
    · exact modLd_pace_of _ _ _ rfl rfl
    · exact modLd_pace_of _ _ _ rfl rfl

@[simp] theorem modBus_pace (s : State) (x : Side) (b : Nat) (f : AxeBus → AxeBus) : (s.modBus x b f).pace = s.pace := modLd_pace_of _ _ _ rfl rfl
@[simp] theorem modAxis_pace (s : State) (x : Side) (a : Nat) (f : Axis → Axis) : (s.modAxis x a f).pace = s.pace := modLd_pace_of _ _ _ rfl rfl
@[simp] theorem modJob_pace (s : State) (x : Side) (j : Nat) (f : SlvJob → SlvJob) : (s.modJob x j f).pace = s.pace := modLd_pace_of _ _ _ rfl rfl
@[simp] theorem modAnt_pace (s : State) (x : Side) (a : Nat) (f : GnsAnt → GnsAnt) : (s.modAnt x a f).pace = s.pace := modLd_pace_of _ _ _ rfl rfl

@[simp] theorem admitStarts_pace (x : Side) (b : Nat) (told : List Nat) (n : Nat) (s : State) : (admitStarts x b told n s).pace = s.pace := by
  induction n generalizing s with
  | zero => rfl
  | succ n ih =>
    unfold admitStarts
    dsimp only
    split
    · rfl
    · split
      · rw [ih, ite_pace, raise_pace, ite_self, modLd_pace_of _ _ _ rfl rfl, modAxis_pace, modBus_pace]
      · rfl

@[simp] theorem ledgerBus_pace (x : Side) (told : List Nat) (b : Nat) (s : State) : (ledgerBus x told b s).pace = s.pace := by
  simp [ledgerBus]

@[simp] theorem safeAxis_pace (x : Side) (m : Tab Byte) (safe : Bool) (o : Nat) (s : State) : (safeAxis x m safe o s).pace = s.pace := by
  simp [safeAxis]

@[simp] theorem axesTick_pace (x : Side) (s : State) : (axesTick x s).pace = s.pace := by
  unfold axesTick
  dsimp only
  split
  · rfl
  · rw [foldl_pace _ fun s b => (ledgerBus_pace ..).trans (modBus_pace ..), foldl_pace _ fun s o => safeAxis_pace .., runAxes_pace]

@[simp] theorem slvDueStep_pace (x : Side) (c : Nat) (s : State) (d : SlvDesc) : (slvDueStep x c s d).pace = s.pace := by
  unfold slvDueStep
  extract_lets l t st s1 u s2 s3 s4 s5 s6 bad
  have h1 : s1.pace = s.pace := by simp [s1]
  have hu : u.pace = s1.pace := modLd_pace_of _ _ _ rfl rfl
  have h2 : s2.pace = s1.pace := by simp [s2, hu]
  have h3 : s3.pace = s2.pace := by simp [s3]
  have h4 : s4.pace = s3.pace := by simp [s4]
  have h5 : s5.pace = s4.pace := by simp [s5]
  have h6 : s6.pace = s5.pace := by
    simp only [s6]
    split <;> simp
  clear_value s1 u s2 s3 s4 s5 s6
  split
  · rfl
  · rw [modJob_pace, h6, h5, h4, h3, h2, h1]

@[simp] theorem slvTick_pace (x : Side) (c : Nat) (s : State) : (slvTick x c s).pace = s.pace := by
  unfold slvTick
  dsimp only
  rw [foldl_pace _ fun s d => by simp, foldl_pace _ fun s d => slvDueStep_pace ..]

@[simp] theorem magSecond_pace (x : Side) (s : State) : (magSecond x s).pace = s.pace := by
  unfold magSecond
  dsimp only
  split
  · rw [modLd_pace_of _ _ _ rfl rfl, modAnt_pace, modAnt_pace]
  · rfl

@[simp] theorem unitTick_pace (x : Side) (s : State) : (unitTick x s).pace = s.pace := by
  unfold unitTick
  dsimp only
  split
  · rw [axesTick_pace, magSecond_pace, modLd_pace_of _ _ _ rfl rfl, slvTick_pace, modLd_pace _ _ _ (swapBerths_beat ..), settlePins, runAxes_pace,
      runAxes_pace]
  · rfl

@[simp] theorem takeMark_pace (x : Side) (start : Bool) (k : SampleMark) (s : State) : (takeMark x start k s).pace = s.pace := by
  simp [takeMark]

@[simp] theorem showUnits_pace (x : Side) (s : State) : (showUnits x s).pace = s.pace := by
  have hfus : ∀ s, (showFus s x).pace = s.pace := by
    intro s
    unfold showFus
    dsimp only
    split
    · exact modLd_pace_of _ _ _ rfl rfl
    · rfl
  exact (modLd_pace_of _ _ _ rfl rfl).trans ((modLd_pace_of _ _ _ rfl rfl).trans ((modLd_pace_of _ _ _ rfl rfl).trans
    ((modLd_pace_of _ _ _ rfl rfl).trans ((modLd_pace_of _ _ _ rfl rfl).trans ((hfus _).trans ((modLd_pace_of _ _ _ rfl rfl).trans
      (modLd_pace_of _ _ _ rfl rfl)))))))

/-! ### Adrift, the modes and the levels of the partitions -/

@[simp] theorem settlePins_pace (s : State) : (settlePins s).pace = s.pace := (runAxes_pace ..).trans (runAxes_pace ..)

@[simp] theorem enterAdrift_pace (code : Nat) (s : State) : (enterAdrift code s).pace = s.pace := by
  unfold enterAdrift
  split
  · rfl
  · exact (raise_pace ..).trans (pace_of rfl rfl rfl rfl)

@[simp] theorem adriftNow_pace (code : Nat) (s : State) : (adriftNow code s).pace = s.pace :=
  (enterAdrift_pace ..).trans (settlePins_pace s)

@[simp] theorem releaseAdrift_pace (s : State) : (releaseAdrift s).pace = s.pace := settlePins_pace s

@[simp] theorem adriftCauses_pace (s : State) : (adriftCauses s).pace = s.pace := by
  unfold adriftCauses
  extract_lets s1
  have h1 : s1.pace = s.pace := by simp [s1]
  have hsup : ∀ u : State, (u.modSup (fun v => { v with fieldCause := 0 })).pace = u.pace := fun u => by simp [State.pace, State.modSup]
  clear_value s1
  split
  · exact h1
  · rw [hsup, adriftNow_pace, h1]

@[simp] theorem finish_pace (s : State) (w : BolWork) : (finish s w).pace = s.pace := by
  unfold finish
  exact foldl_pace _ (fun s e => raise_pace ..) _ _

@[simp] theorem bolTrial_pace (on : Bool) (s : State) : (bolTrial on s).pace = s.pace := by
  unfold bolTrial
  dsimp only
  split
  · rfl
  · exact finish_pace ..

/-- One fault on each landing of a choice. -/
theorem eachRaise_pace (c : Side → Bool) (code : Nat) (detail : Side → State → Nat) (s : State) :
    (eachSide c (fun x s => raise (.landing x) code (detail x s) s) s).pace = s.pace := eachSide_pace _ _ (fun _ _ => raise_pace ..) s

@[simp] theorem changeMode_pace (mode cause part : Nat) (s : State) : (changeMode mode cause part s).pace = s.pace := by
  unfold changeMode
  extract_lets d s1 s2 s3 s4
  have h1 : s1.pace = s.pace := pace_of rfl rfl rfl rfl
  have h2 : s2.pace = s1.pace := eachRaise_pace _ _ (fun _ _ => mode) _
  have h3 : s3.pace = s2.pace := by
    simp only [s3]
    split
    · rfl
    · exact pace_of rfl rfl rfl rfl
  have h4 : s4.pace = s3.pace := bolTrial_pace ..
  clear_value s1 s2 s3 s4
  simp [h1, h2, h3, h4]

@[simp] theorem applyModes_pace (es : List AdmEntry) (s : State) : (applyModes es s).pace = s.pace := by
  induction es generalizing s with
  | nil => rfl
  | cons e t ih =>
    unfold applyModes
    split
    · exact ih s
    · dsimp only
      rw [ih]
      split
      · exact (complete_pace ..).trans (changeMode_pace ..)
      · exact changeMode_pace ..

@[simp] theorem setLevel_pace (p n slot : Nat) (s : State) : (setLevel p n slot s).pace = s.pace := by
  unfold setLevel
  extract_lets t m s1
  have h1 : s1.pace = s.pace := rfl
  clear_value s1
  simp [h1]

@[simp] theorem applyLevels_pace (s : State) : (applyLevels s).pace = s.pace := by
  refine foldl_pace _ (fun s p => ?_) _ s
  split
  · rfl
  · rw [setLevel_pace]
    split <;> rfl

@[simp] theorem answerUnknown_pace (x : Side) (s : State) : (answerUnknown x s).pace = s.pace :=
  foldl_pace _ (fun _ _ => complete_pace ..) _ s

@[simp] theorem postMode_pace (bytes : List Byte) (s : State) : (postMode bytes s).pace = s.pace := takeRecord_pace ..

@[simp] theorem requestMode_pace (r : ModeReq) (s : State) : (requestMode r s).pace = s.pace := postMode_pace ..

@[simp] theorem fusionReact_pace (level : Nat) (s : State) : (fusionReact level s).pace = s.pace := by
  unfold fusionReact
  extract_lets all d s1 drop s2
  have hall : ∀ code s, (all code s).pace = s.pace := fun code s => eachRaise_pace _ _ (fun _ _ => level) _
  have h1 : s1.pace = s.pace := pace_of rfl rfl rfl rfl
  have hdrop : ∀ s, (drop s).pace = s.pace := fun s => (requestMode_pace ..).trans (hall ..)
  have h2 : s2.pace = s.pace := by simp [s2, hdrop, h1]
  (repeat' split) <;> simp [hall, hdrop, h1, h2]

/-! ### The start of a manifest -/

@[simp] theorem startCanRec_pace (s : State) : (startCanRec s).pace = s.pace :=
  foldl_pace _ (fun s p => by unfold State.modCanPort; exact pace_of rfl rfl rfl rfl) _ s

@[simp] theorem startTbs_pace (s : State) : (startTbs s).pace = s.pace := by
  unfold startTbs
  exact pace_of rfl rfl rfl rfl

theorem aidArb_pace (s : State) (aid : Aiding) (arb : Arbiter) : ({ s with aid := aid, arb := arb } : State).pace = s.pace :=
  pace_of rfl rfl rfl rfl

@[simp] theorem startModule_pace (s : State) : (startModule s).pace = s.pace := by
  unfold startModule
  exact (aidArb_pace ..).trans ((startTbs_pace _).trans (startCanRec_pace s))

@[simp] theorem finishStart_pace (x : Side) (s : State) : (finishStart x s).pace = s.pace := modLd_pace _ _ _ (by simp [Landing.beat])

@[simp] theorem enterBerth_pace (s : State) : (enterBerth s).pace = s.pace := by
  unfold enterBerth
  extract_lets s1 s2 p s3
  have h2 : s2.pace = s1.pace := eachSide_pace _ _ (fun x s => (raise_pace ..).trans (finishStart_pace x s)) s1
  have h3 : s3.pace = s2.pace := pace_of rfl rfl rfl rfl
  have h1 : s1.pace = s.pace := changeMode_pace ..
  clear_value s1 s2 s3
  split
  · rw [h3, h2, h1]
  · exact (setLevel_pace ..).trans (h3.trans (h2.trans h1))

@[simp] theorem berthStart_pace (s : State) : (berthStart s).pace = s.pace := by
  unfold berthStart
  split
  · exact (postMode_pace ..).trans (enterBerth_pace s)
  · rfl

@[simp] theorem beginLoad_pace (y : Side) (q : Load) (s : State) : (beginLoad y q s).pace = s.pace := modLd_pace _ _ _ rfl

@[simp] theorem startResync_pace (y : Side) (cmd : Option Pend) (s : State) : (startResync y cmd s).pace = s.pace :=
  (modLd_pace _ _ _ rfl).trans (modLd_pace_of _ _ _ rfl rfl)

@[simp] theorem afterStart_pace (x : Side) (s : State) : (afterStart x s).pace = s.pace := by
  have hrejoin : ∀ y s, (rejoin y s).pace = s.pace := fun y s => by simp [rejoin]
  have hberth : (berthStart (startModule { s with pins := { s.pins with neg := [] } })).pace = s.pace :=
    (berthStart_pace _).trans ((startModule_pace _).trans rfl)
  unfold afterStart
  dsimp only
  split
  · exact (hrejoin ..).trans hberth
  · exact hberth

@[simp] theorem changeTick_pace (x : Side) (s : State) : (changeTick x s).pace = s.pace := by
  unfold changeTick
  split
  · split
    · dsimp only
      split
      · exact raise_pace ..
      · rfl
    · rfl
  · rfl

@[simp] theorem leadTick_pace (s : State) : (leadTick s).pace = s.pace := by
  unfold leadTick
  extract_lets x was s1 s2 s3 level seen s4 s5
  have h1 : s1.pace = s.pace := applyModes_pace ..
  have h2 : s2.pace = s1.pace := (answerUnknown_pace ..).trans (applyLevels_pace ..)
  have h3 : s3.pace = s2.pace := by simp [s3]
  have h4 : s4.pace = s3.pace := fusionReact_pace ..
  have h5 : s5.pace = s4.pace := by
    simp only [s5]
    split
    · exact (adriftNow_pace ..).trans (eachRaise_pace _ _ (fun _ _ => 4) _)
    · rfl
  rw [adriftCauses_pace, h5, h4, h3, h2, h1]

/-! ### What is shown and sent at a tick -/

@[simp] theorem showDkh_pace (x : Side) (s : State) : (showDkh x s).pace = s.pace := modLd_pace_of _ _ _ rfl rfl

@[simp] theorem queueFrame_pace (x : Side) (p : Nat) (f : EthFrame) (s : State) : (queueFrame x p f s).pace = s.pace :=
  modLd_pace_of _ _ _ rfl rfl

@[simp] theorem drainOutbox_pace (s : State) : (drainOutbox s).pace = s.pace := by
  unfold drainOutbox
  split
  · rfl
  · split
    · rfl
    · exact (foldl_pace _ (fun s q => foldl_pace _ (fun s d => queueFrame_pace ..) _ s) _ _).trans (pace_of rfl rfl rfl rfl)

@[simp] theorem applyDue_pace (s : State) : (applyDue s).pace = s.pace := by
  unfold applyDue
  dsimp only
  split
  · rfl
  · exact foldl_pace _ (fun s d => setRole_pace ..) _ _

@[simp] theorem haltDue_pace (x : Side) (s : State) : (haltDue x s).pace = s.pace := by
  unfold haltDue
  split
  · exact modLd_pace _ _ _ rfl
  · rfl

end Sys2Proof.Machine
end

section
/-!
Crossing ticks (02 R57, R71 to R73, R89, R98, 11 R430): what a tick counts, the Ferryman's step, and operations that nothing names.
-/
namespace Sys2Proof.Machine
set_option Elab.async false -- one proof at a time, as in the tests: the compile is close to its memory limit

/-! ### A landing that enters a crossing (02 R73, R722) -/

@[simp] theorem putClean_beat (n a : Nat) (b : List Byte) (l : Landing) : (putClean n a b l).beat = l.beat := by
  induction n generalizing a b l with
  | zero => rfl
  | succ n ih =>
    unfold putClean
    split
    · rfl
    · exact (ih ..).trans (ldWrite_beat ..)

theorem putInit_beat (m : Tab Byte) (l : Landing) : (putInit m l).beat = l.beat := foldl_beat _ (fun _ _ => putClean_beat ..) _ l

theorem putTile_beat (m : Tab Byte) (l : Landing) (r : TileRec) : (putTile m l r).beat = l.beat := by
  unfold putTile
  exact (foldl_beat _ (fun _ _ => putClean_beat ..) _ _).trans ((putClean_beat ..).trans (clearRange_beat ..))

theorem crossing_of_beat {k l : Landing} (h : k.beat = l.beat) : k.fmn.crossing = l.fmn.crossing := congrArg Prod.fst h

/-- An installation leaves the crossing count. -/
theorem install_crossing (m : Tab Byte) (l : Landing) : (install m l).fmn.crossing = l.fmn.crossing := by
  unfold install
  dsimp only
  refine crossing_of_beat ?_
  rw [putInit_beat, foldl_beat _ (putTile_beat m), clearRange_beat]
  exact beat_eq_of rfl rfl

theorem installNext_crossing (l : Landing) : (installNext l).fmn.crossing = l.fmn.crossing := by
  unfold installNext
  split
  · rename_i img _
    exact install_crossing img l
  · rfl

theorem holdTwo_beat (l : Landing) (a n : Nat) (double : Bool) : (holdTwo l a n double).beat = l.beat := by
  unfold holdTwo
  dsimp only
  split <;> simp

theorem holdBerths_beat (l : Landing) : (holdBerths l).beat = l.beat := by
  unfold holdBerths
  dsimp only
  rw [foldl_beat _ fun _ _ => holdTwo_beat ..]
  split
  · exact holdTwo_beat ..
  · rfl

theorem startFus_beat (l : Landing) : (startFus l).beat = l.beat := by
  unfold startFus
  extract_lets m k entry k1 k2 o n
  have hk : k.beat = l.beat := beat_eq_of rfl rfl
  have hk2 : k2.beat = l.beat := by simp [k2, k1, hk]
  clear_value k2
  split
  · exact hk2
  · exact (putAll_beat ..).trans hk2

theorem startCtl_beat (l : Landing) : (startCtl l).beat = l.beat := by
  unfold startCtl
  extract_lets m k
  have hk : k.beat = l.beat := beat_eq_of rfl rfl
  clear_value k
  split
  · exact hk
  · refine (foldl_beat _ (fun l o => ?_) _ _).trans ((putAll_beat ..).trans hk)
    exact beat_eq_of rfl rfl

theorem startAxe_beat (t : Nat) (l : Landing) : (startAxe t l).beat = l.beat := by
  unfold startAxe
  dsimp only
  split
  · exact beat_eq_of rfl rfl
  · exact (putAll_beat ..).trans (beat_eq_of rfl rfl)

theorem startCan_beat (t : Nat) (l : Landing) : (startCan t l).beat = l.beat := by
  unfold startCan
  exact (clearRange_beat ..).trans (beat_eq_of rfl rfl)

theorem startUnits_beat (t : Nat) (l : Landing) : (startUnits t l).beat = l.beat := by
  have heth : ∀ k, (startEth k).beat = k.beat := fun k => by unfold startEth; exact beat_eq_of rfl rfl
  have hslv : ∀ k, (startSlv k).beat = k.beat := fun k => by unfold startSlv; exact beat_eq_of rfl rfl
  have hgns : ∀ k, (startGns t k).beat = k.beat := fun k => by unfold startGns; exact beat_eq_of rfl rfl
  have hsch : ∀ k, (startSch k).beat = k.beat := fun k => by unfold startSch; exact beat_eq_of rfl rfl
  unfold startUnits
  rw [heth, startCan_beat, startAxe_beat, startCtl_beat, hslv, startFus_beat, hgns, hsch, holdBerths_beat]

/-- A landing that a tick reaches counts one crossing more, whether its manifest starts or not (02 R71, R98). -/
theorem enterCrossing_crossing (t : Nat) (l : Landing) : (enterCrossing t l).fmn.crossing = l.fmn.crossing + 1 := by
  unfold enterCrossing
  extract_lets start k m
  have hk : k.fmn.crossing = l.fmn.crossing := by
    simp only [k]
    split
    · exact installNext_crossing l
    · rfl
  have hm : m.fmn.crossing = l.fmn.crossing + 1 := congrArg (· + 1) hk
  clear_value k m
  split
  · exact (crossing_of_beat (startUnits_beat t m)).trans hm
  · exact hm

/-! ### The tick (02 R57, R89, 11 R430) -/

/-- A tick for landing `x` reaches it: S10 completed, power, out of reset, no lost tick. -/
def reachable (s : State) (x : Side) : Bool := ready s x && !(s.ld x).fmn.tickLost

theorem reachable_iff (s : State) (x : Side) :
    reachable s x = true ↔ (s.ld x).slw.s10 = true ∧ s.powered x = true ∧ (s.ld x).slw.inReset = false ∧ (s.ld x).fmn.tickLost = false := by
  simp [reachable, ready, and_assoc]

theorem tickSides_both (s : State) : tickSides .both s = [Side.A, Side.B].filter (reachable s) := rfl

/-- What a pace holds of a landing. -/
theorem pace_landing {s t : State} (h : s.pace = t.pace) (x : Side) : s.powered x = t.powered x ∧ (s.ld x).beat = (t.ld x).beat := by
  simp only [State.pace, Prod.mk.injEq] at h
  obtain ⟨_, _, hA, hB, ha, hb⟩ := h
  cases x
  · exact ⟨hA, ha⟩
  · exact ⟨hB, hb⟩

theorem reachable_congr {s t : State} {x : Side} (h : s.powered x = t.powered x ∧ (s.ld x).beat = (t.ld x).beat) :
    reachable s x = reachable t x := by
  obtain ⟨hp, hb⟩ := h
  simp only [Landing.beat, Prod.mk.injEq] at hb
  obtain ⟨_, hlost, hs10, hreset⟩ := hb
  simp only [reachable, ready, hp, hlost, hs10, hreset]

/-- Both landings changed alike, those that a choice leaves out not at all. -/
theorem foldl_modLd_ld (p : Side → Bool) (f : Landing → Landing) (s : State) (x : Side) :
    (([Side.A, Side.B].filter p).foldl (fun s y => s.modLd y f) s).ld x = if p x then f (s.ld x) else s.ld x := by
  cases x <;> cases ha : p .A <;> cases hb : p .B <;> simp [List.filter, ha, hb, State.modLd, State.setLd, State.ld]

theorem foldl_modLd_tick (xs : List Side) (f : Landing → Landing) (s : State) : (xs.foldl (fun s y => s.modLd y f) s).tick = s.tick := by
  induction xs generalizing s with
  | nil => rfl
  | cons x xs ih => exact (ih _).trans (modLd_tick ..)

theorem setPeriods_pace (dst : TickTo) (s : State) : (setPeriods dst s).pace = s.pace := by simp [State.pace, setPeriods]

/-- A tick for both landings is noted, counted once, and leaves both landings and their power. -/
theorem stepTick_both (t : Nat) (s : State) :
    (stepTick .both t s).tick.last = t ∧ (stepTick .both t s).tick.count = s.tick.count + 1 ∧ (stepTick .both t s).sup = s.sup
      ∧ (stepTick .both t s).a = s.a ∧ (stepTick .both t s).b = s.b := by
  have hlead : (listSides .both).contains s.lead = true := by cases s.lead <;> rfl
  unfold stepTick
  simp only [hlead, if_true, and_self]

theorem scrubTick_beat (l : Landing) : (scrubTick l).beat = l.beat := by
  unfold scrubTick
  split
  · exact beat_eq_of rfl rfl
  · rfl

theorem showPur_pace (s : State) : (showPur s).pace = s.pace := by
  unfold showPur
  exact pace_of rfl rfl rfl rfl

/-- The part of a tick before the landings enter their crossings: tiles finished, the tick noted, what is due applied. -/
def tickBegun (dst : TickTo) (t : Nat) (s : State) : State :=
  let s := (tickSides dst s).foldl (fun s x => finishTiles x s) s
  let s := applyDue { stepTick dst t s with shared := [] }
  haltDue .B (haltDue .A s)

theorem tickBegun_pace (t : Nat) (s : State) :
    ∃ s', s'.pace = s.pace ∧ (tickBegun .both t s).pace = (stepTick .both t s').pace := by
  unfold tickBegun
  extract_lets s1 s2
  refine ⟨s1, foldl_pace _ (fun s x => finishTiles_pace x s) _ _, ?_⟩
  exact (haltDue_pace ..).trans ((haltDue_pace ..).trans ((applyDue_pace _).trans (pace_of rfl rfl rfl rfl)))

theorem pace_tick {s t : State} (h : s.pace = t.pace) : s.tick.last = t.tick.last ∧ s.tick.count = t.tick.count := by
  simp only [State.pace, Prod.mk.injEq] at h
  exact ⟨h.1, h.2.1⟩

/-- Before the landings enter their crossings, the tick is noted and counted, and each landing is as it was for the ticks. -/
theorem tickBegun_both (t : Nat) (s : State) :
    (tickBegun .both t s).tick.last = t ∧ (tickBegun .both t s).tick.count = s.tick.count + 1
      ∧ ∀ x, (tickBegun .both t s).powered x = s.powered x ∧ ((tickBegun .both t s).ld x).beat = (s.ld x).beat := by
  obtain ⟨s', hs', h⟩ := tickBegun_pace t s
  obtain ⟨hlast, hcount, hsup, ha, hb⟩ := stepTick_both t s'
  obtain ⟨el, ec⟩ := pace_tick h
  refine ⟨el.trans hlast, ?_, fun x => ?_⟩
  · rw [ec, hcount, (pace_tick hs').2]
  · obtain ⟨hp, hbt⟩ := pace_landing h x
    obtain ⟨hp', hbt'⟩ := pace_landing hs' x
    have hld : (stepTick .both t s').ld x = s'.ld x := by cases x <;> simp only [State.ld, ha, hb]
    have hpow : (stepTick .both t s').powered x = s'.powered x := by simp only [State.powered, hsup]
    exact ⟨hp.trans (hpow.trans hp'), hbt.trans (by rw [hld]; exact hbt')⟩

/-- The part of a tick after the landings have entered their crossings. -/
def tickEnded (dst : TickTo) (xs : List Side) (marks : List SampleMark) (s : State) : State :=
  let s := setPeriods dst s
  let s := xs.foldl (fun s x => marks.foldl (fun s k => takeMark x (startedNow s x) k s) s) s
  let s := xs.foldl (fun s x => admitList x x.num s) s
  let s := xs.foldl (fun s x => changeTick x s) s
  let s := if xs.contains s.lead then leadTick s else s
  let s := xs.foldl (fun s x => unitTick x s) s
  let s := xs.foldl (fun s x => (showUnits x s).modLd x scrubTick) s
  let s := ((listSides dst).filter s.powered).foldl (fun s x => showDkh x s) s
  let s := if (listSides dst).contains s.lead then showPur s else s
  drainOutbox s

theorem tickEnded_pace (dst : TickTo) (xs : List Side) (marks : List SampleMark) (s : State) : (tickEnded dst xs marks s).pace = s.pace := by
  unfold tickEnded
  extract_lets s1 s2 s3 s4 s5 s6 s7 s8 s9
  have h1 : s1.pace = s.pace := setPeriods_pace ..
  have h2 : s2.pace = s1.pace := foldl_pace _ (fun s x => foldl_pace _ (fun s k => takeMark_pace ..) _ s) _ _
  have h3 : s3.pace = s2.pace := foldl_pace _ (fun s x => admitList_pace ..) _ _
  have h4 : s4.pace = s3.pace := foldl_pace _ (fun s x => changeTick_pace ..) _ _
  have h5 : s5.pace = s4.pace := by simp [s5]
  have h6 : s6.pace = s5.pace := foldl_pace _ (fun s x => unitTick_pace ..) _ _
  have h7 : s7.pace = s6.pace := foldl_pace _ (fun s x => (modLd_pace _ x _ (scrubTick_beat _)).trans (showUnits_pace x s)) _ _
  have h8 : s8.pace = s7.pace := foldl_pace _ (fun s x => showDkh_pace ..) _ _
  have h9 : s9.pace = s8.pace := by simp only [s9, ite_pace, showPur_pace, ite_self]
  rw [drainOutbox_pace, h9, h8, h7, h6, h5, h4, h3, h2, h1]

theorem crossingTick_eq {s : State} (hup : s.uptime.isSome = true) (dst : TickTo) (t : Nat) (marks : List SampleMark) :
    let s' := tickBegun dst t (advance (t / nsUnit) s)
    crossingTick dst t marks s
      = tickEnded dst (tickSides dst s') marks ((tickSides dst s').foldl (fun s x => s.modLd x (enterCrossing (t / nsUnit))) s') := by
  unfold crossingTick
  exact if_neg (advance_counting hup _)

/-- A tick for both landings at instant `t`: noted, counted, and one crossing more on each landing that it reaches. -/
theorem crossingTick_both {s : State} (hup : s.uptime.isSome = true) (t : Nat) (marks : List SampleMark) :
    (crossingTick .both t marks s).tick.last = t ∧ (crossingTick .both t marks s).tick.count = s.tick.count + 1
      ∧ ∀ x, ((crossingTick .both t marks s).ld x).fmn.crossing = (s.ld x).fmn.crossing + if reachable s x then 1 else 0 := by
  have heq := crossingTick_eq hup .both t marks
  obtain ⟨hlast, hcount, hland⟩ := tickBegun_both t (advance (t / nsUnit) s)
  dsimp only at heq
  generalize tickBegun .both t (advance (t / nsUnit) s) = s' at heq hlast hcount hland
  rw [tickSides_both] at heq
  have hpace : (crossingTick .both t marks s).pace = _ := (congrArg State.pace heq).trans (tickEnded_pace ..)
  obtain ⟨el, ec⟩ := pace_tick hpace
  rw [foldl_modLd_tick] at el ec
  have hadv : (advance (t / nsUnit) s).pace = s.pace := advance_pace ..
  refine ⟨el.trans hlast, ?_, fun x => ?_⟩
  · rw [ec, hcount, (pace_tick hadv).2]
  · obtain ⟨hp, hb⟩ := hland x
    obtain ⟨hp', hb'⟩ := pace_landing hadv x
    have hs : s'.powered x = s.powered x ∧ (s'.ld x).beat = (s.ld x).beat := ⟨hp.trans hp', hb.trans hb'⟩
    rw [crossing_of_beat (pace_landing hpace x).2, foldl_modLd_ld, reachable_congr hs, ← crossing_of_beat hs.2]
    split
    · exact enterCrossing_crossing ..
    · rfl

/-! ### The Ferryman's step (02 R71, R73) -/

theorem stepFerryman_start {f : Ferryman} (h : f.startAt = some (f.crossing + 1)) :
    (stepFerryman f).running = true ∧ (stepFerryman f).index = 0 ∧ (stepFerryman f).startAt = none ∧ (stepFerryman f).overrun = [] := by
  simp [stepFerryman, h]

theorem stepFerryman_next {f : Ferryman} (h : f.startAt ≠ some (f.crossing + 1)) (hrun : f.running = true) (hL : 0 < imgCycle f.img) :
    (stepFerryman f).index = (f.index + 1) % imgCycle f.img ∧ (stepFerryman f).running = true := by
  simp [stepFerryman, h, hrun, hL.ne']

theorem stepFerryman_idle {f : Ferryman} (h : f.startAt ≠ some (f.crossing + 1)) (hrun : f.running = false) :
    (stepFerryman f).running = false ∧ (stepFerryman f).open_ = [] := by
  simp [stepFerryman, h, hrun]

/-! ### Operations that nothing names (02 R71, R72) -/

theorem runEntry_none {x : Side} {unit op : Nat} {job cycle : Option Nat} {s : State} (h : entryFor (s.ld x).fmn unit op job cycle = none)
    (act : Nat → State → State) : runEntry x unit op job cycle act s = s := by
  simp only [runEntry, h]

theorem runEntry_advance {x : Side} {unit op : Nat} {job cycle : Option Nat} {s : State}
    (h : entryFor (s.ld x).fmn unit op job cycle = none) (act : Nat → State → State) (at_ : Nat) :
    runEntry x unit op job cycle act (advance at_ s) = advance at_ s :=
  runEntry_none (by rwa [advance_ld]) act

/-- A tick comes one period after the tick before it. -/
theorem nextTick_period {s : State} {x : Side} (h : 0 < (s.grid x).period) (at_ : Nat) :
    nextTick s x at_ = (s.grid x).last + (s.grid x).period * nsUnit := if_neg h.ne'

/-- Settles O17: what a tick counts by the parts of `crossingTick`, and an operation that no entry names is not started. -/
theorem ticksAndCrossings : Obligations.TicksAndCrossings := by
  unfold Obligations.TicksAndCrossings
  refine ⟨fun at_ marks s hup hone => ?_, fun f => ⟨rfl, stepFerryman_start, stepFerryman_next, stepFerryman_idle⟩, ?_⟩
  · obtain ⟨hlast, hcount, hcross⟩ := crossingTick_both hup (nextTick s s.lead at_) marks
    refine ⟨crossingTick .both (nextTick s s.lead at_) marks s, ?_, hcount, fun hp => hlast.trans (nextTick_period hp at_), fun x => ?_⟩
    · change execCrossingTick at_ .both marks s = _
      unfold execCrossingTick
      rw [reached_both hone]
      rfl
    · simpa only [reachable_iff] using hcross x
  · intro at_ n job cyc x inTx a b s none_
    refine ⟨fun h => ?_, fun h => ?_, fun h => ?_, fun h => ?_, fun h => ?_, fun h => ?_, fun h => ?_, fun h => ?_, fun h => ?_, fun h => ?_,
      fun h => ?_, fun h => ?_, fun h => ?_, fun h => congrArg Host.Outcome.next (runEntry_none h _)⟩
    all_goals exact congrArg Host.Outcome.next (runEntry_advance h _ at_)

end Sys2Proof.Machine
end

section
/-!
The tiles' results (03 R111, R115, R135): a tile changed, a guarded syllable issued, and a single result in flight that lands.
-/
namespace Sys2Proof.Machine
set_option Elab.async false -- one proof at a time, as in the tests: the compile is close to its memory limit

/-! ### A tile changed -/

@[simp] theorem modTile_tile (s : State) (x : Side) (n : Nat) (f : Tile → Tile) : (s.modTile x n f).tile x n = f (s.tile x n) := by
  simp [State.tile, State.modTile]

theorem modTile_ld (s : State) (x : Side) (n : Nat) (f : Tile → Tile) :
    (s.modTile x n f).ld x = { s.ld x with tiles := Tab.upd {} (s.ld x).tiles n f } := modLd_ld ..

@[simp] theorem modTile_other (s : State) (x : Side) (n : Nat) (f : Tile → Tile) : (s.modTile x n f).ld x.other = s.ld x.other :=
  modLd_other ..

theorem modTile_congr {s : State} {x : Side} {n : Nat} {f g : Tile → Tile} (h : f (s.tile x n) = g (s.tile x n)) :
    s.modTile x n f = s.modTile x n g :=
  modLd_congr s x (congrArg (fun t => ({ s.ld x with tiles := Tab.set {} (s.ld x).tiles n t } : Landing)) h)

@[simp] theorem launch_tile (s : State) (x : Side) (n : Nat) (r : PendRes) :
    (launch x n r s).tile x n = { s.tile x n with flight := (s.tile x n).flight ++ [r] } := modTile_tile ..

/-! ### A result alone in flight -/

section
variable {x : Side} {n : Nat} {s : State} (h : (s.tile x n).flight = [])
include h

theorem settle_idle (c : Nat) : settle x n c s = s := by
  simp [settle, h, settleN]

/-- The results in flight once a first one is launched. -/
theorem launch_flight (r : PendRes) : ((launch x n r s).tile x n).flight = [r] := by simp [h]

theorem settle_early {r : PendRes} {c : Nat} (hc : c < r.land) : settle x n c (launch x n r s) = launch x n r s := by
  simp [settle, h, settleN, firstLand, hc]

/-- From its cycle on the result has landed, in that cycle. -/
theorem settle_due {r : PendRes} {c : Nat} (hc : r.land ≤ c) :
    settle x n c (launch x n r s) = landCycle x n r.land [r] ((launch x n r s).modTile x n fun t => { t with flight := [] }) := by
  have hempty : (launch x n r s).modTile x n (fun t => { t with flight := t.flight.filter (fun q => q.land ≠ r.land) })
      = (launch x n r s).modTile x n fun t => { t with flight := [] } := modTile_congr (by simp [h])
  have hc' : ¬c < r.land := Nat.not_lt.mpr hc
  simp only [settle, launch_flight h, List.length_singleton, settleN, firstLand, List.foldl_cons, List.foldl_nil, hc', if_false, hempty]
  simp

end

/-- A result that writes no memory: its registers, then its flags. -/
theorem landCycle_tile (x : Side) (n c : Nat) {r : PendRes} (hm : r.mem = []) (s : State) :
    (landCycle x n c [r] s).tile x n = landFlags (landRegs (s.tile x n) r) r := by
  have hseen : markSeen (s.ld x) r = r := by
    obtain ⟨_, _, _, _, _, _, _, _⟩ := r
    subst hm
    simp [markSeen]
  simp [landCycle, hseen, hm]

/-! ### A g register written (03 R111) -/

/-- The g registers after a write; g0 discards. -/
def writtenG (g : Tab Pw) (d : Nat) (w : Pw) : Tab Pw := if d = 0 then g else Tab.set {} g d w

/-- A write to a g register leaves everything else of the tile. -/
theorem putG_eq (t : Tile) (d : Nat) (w : Pw) : putG t d w = { t with g := writtenG t.g d w } := by
  unfold putG writtenG
  split <;> rfl

theorem readG_writtenG {t u : Tile} {d : Nat} {w : Pw} (hg : t.g = writtenG u.g d w) {k : Nat} (hk : k < 64) :
    readG t k = if k = d ∧ k ≠ 0 then w else readG u k := by
  unfold readG
  rw [hg, Nat.mod_eq_of_lt hk, writtenG]
  by_cases hk0 : k = 0
  · simp [hk0]
  · by_cases hd0 : d = 0
    · simp [hd0, hk0]
    · simp [hk0, hd0, Tab.get_set]

theorem landed_resG (t : Tile) (land : Nat) {d : Nat} (hd : d < 64) (w : Pw) (fl : Nat) :
    landFlags (landRegs t (resG land d w fl)) (resG land d w fl)
      = { t with g := writtenG t.g d w, flags := if w.p then t.flags else t.flags ||| fl,
                 pseen := if w.p = true ∧ d ≠ 0 then min 0xFFFFFFFF (t.pseen + 1) else t.pseen } := by
  have hregs : landRegs t (resG land d w fl) = putG t d w := by simp [landRegs, resG, Nat.mod_eq_of_lt hd]
  rw [hregs, putG_eq]
  cases hp : w.p <;> simp [landFlags, resG, seenG, satAdd, hp, Nat.mod_eq_of_lt hd]

/-- Settles O28: the one result stays in flight up to its cycle, and is then the only thing that has landed. -/
theorem resultsLand : Obligations.ResultsLand := by
  unfold Obligations.ResultsLand
  intro x n land d fl w s h hd t
  refine ⟨fun c hc => settle_early h hc, fun c hc => ?_⟩
  have hz : (settle x n c t).tile x n = { s.tile x n with
      g := writtenG (s.tile x n).g d w, flight := [],
      flags := if w.p then (s.tile x n).flags else (s.tile x n).flags ||| fl,
      pseen := if w.p = true ∧ d ≠ 0 then min 0xFFFFFFFF ((s.tile x n).pseen + 1) else (s.tile x n).pseen } := by
    rw [settle_due h hc, landCycle_tile _ _ _ rfl, modTile_tile, launch_tile, landed_resG _ _ hd]
  rw [hz]
  exact ⟨fun k hk => readG_writtenG rfl hk, rfl, rfl, rfl, rfl, rfl, rfl, rfl⟩

end Sys2Proof.Machine
end

section
/-!
The syllables of slots 0 and 1 (03 R120): the operand forms under a guard that holds, and the values that they land.
-/
namespace Sys2Proof.Machine
set_option Elab.async false -- one proof at a time, as in the tests: the compile is close to its memory limit

/-! ### A guarded syllable (03 R129, R142) -/

section
variable {x : Side} {n cyc : Nat} {w : Word} {s : State} {bad : PendRes} {run : Tile → PendRes} {o : Host.Outcome State Fault Refusal}
  (ho : o = .next (issue x n cyc w bad run s))
include ho

theorem issue_yes (h : guardOf ((settle x n cyc s).tile x n) w = .yes) :
    o = .next (launch x n (run ((settle x n cyc s).tile x n)) (settle x n cyc s)) := by
  rw [ho]
  simp only [issue, h]

theorem issue_no (h : guardOf ((settle x n cyc s).tile x n) w = .no) : o = .next (settle x n cyc s) := by
  rw [ho]
  simp only [issue, h]

theorem issue_poison (h : guardOf ((settle x n cyc s).tile x n) w = .poison) : o = .next (launch x n bad (settle x n cyc s)) := by
  rw [ho]
  simp only [issue, h]

end

/-! ### The operand forms (03 R120) -/

section
variable {x : Side} {n cyc : Nat} {w : Word} {s : State} {o : Host.Outcome State Fault Refusal}
  (h : guardOf ((settle x n cyc s).tile x n) w = .yes)
include h

/-- Two sources: the value and the flags are the operation's, the poison that of either source. -/
theorem intOp_yes {lat : Nat} {f : DWord → DWord → DWord × Nat} (ho : o = .next (intOp lat f x n cyc w s)) {v : DWord} {fl : Nat}
    (hf : f (readG ((settle x n cyc s).tile x n) (sylA w)).v (srcB ((settle x n cyc s).tile x n) w).v = (v, fl)) :
    o = .next (launch x n (resG (cyc + lat) (sylD w)
      ⟨v, (readG ((settle x n cyc s).tile x n) (sylA w)).p || (srcB ((settle x n cyc s).tile x n) w).p⟩ fl) (settle x n cyc s)) := by
  rw [issue_yes ho h]
  simp only [hf]

/-- One source. -/
theorem intOp1_yes {f : DWord → DWord × Nat} (ho : o = .next (intOp1 f x n cyc w s)) {v : DWord} {fl : Nat}
    (hf : f (readG ((settle x n cyc s).tile x n) (sylA w)).v = (v, fl)) :
    o = .next (launch x n (resG (cyc + 1) (sylD w) ⟨v, (readG ((settle x n cyc s).tile x n) (sylA w)).p⟩ fl) (settle x n cyc s)) := by
  rw [issue_yes ho h]
  simp only [hf]

theorem cmpOp_yes {f : DWord → DWord → Bool} (ho : o = .next (cmpOp f x n cyc w s)) {b : Bool}
    (hf : f (readG ((settle x n cyc s).tile x n) (sylA w)).v (srcB ((settle x n cyc s).tile x n) w).v = b) :
    o = .next (launch x n (resP (cyc + 1) (sylD w) b
      ((readG ((settle x n cyc s).tile x n) (sylA w)).p || (srcB ((settle x n cyc s).tile x n) w).p) 0) (settle x n cyc s)) := by
  rw [issue_yes ho h]
  simp only [hf]

theorem predOp_yes {f : Bool → Bool → Bool} (ho : o = .next (predOp f x n cyc w s)) {b : Bool}
    (hf : f (readP ((settle x n cyc s).tile x n) (sylA w)).1 (readP ((settle x n cyc s).tile x n) (sylB w)).1 = b) :
    o = .next (launch x n (resP (cyc + 1) (sylD w) b
      ((readP ((settle x n cyc s).tile x n) (sylA w)).2 || (readP ((settle x n cyc s).tile x n) (sylB w)).2) 0) (settle x n cyc s)) := by
  rw [issue_yes ho h]
  simp only [hf]

end

/-! ### Values -/

/-- The signed value of the low bits of a number is that of the bit vector. -/
theorem sval_eq_toInt (n v : Nat) : sval n v = (BitVec.ofNat n v).toInt := by
  rw [BitVec.toInt_eq_toNat_cond, BitVec.toNat_ofNat, sval]
  cases n with
  | zero => simp [Nat.mod_one]
  | succ k =>
    rw [Nat.add_sub_cancel, Nat.pow_succ]
    generalize v % (2 ^ k * 2) = m
    generalize 2 ^ k = half
    by_cases hm : half ≤ m
    · rw [if_pos (by simpa using hm), if_neg (by omega)]
    · rw [if_neg (by simpa using hm), if_pos (by omega)]

theorem ofInt_sval (n v : Nat) : BitVec.ofInt 64 (sval n v) = (BitVec.ofNat n v).signExtend 64 := by
  rw [sval_eq_toInt, BitVec.signExtend]

theorem truncate_eq_ofNat (n : Nat) (a : DWord) : a.truncate n = BitVec.ofNat n a.toNat := by
  apply BitVec.eq_of_toNat_eq
  simp

theorem ofNat_lowBits (n : Nat) (a : DWord) : BitVec.ofNat 64 (a.toNat % 2 ^ n) = (a.truncate n).zeroExtend 64 := by
  apply BitVec.eq_of_toNat_eq
  simp

theorem q31_eq (a : DWord) : q31 a = (a.truncate 32).toInt := by
  rw [q31, sval_eq_toInt, truncate_eq_ofNat]

theorem ofInt_min_toInt (a b : DWord) : BitVec.ofInt 64 (min a.toInt b.toInt) = if a.toInt ≤ b.toInt then a else b := by
  rw [min_def]
  split <;> exact BitVec.ofInt_toInt

theorem ofInt_max_toInt (a b : DWord) : BitVec.ofInt 64 (max a.toInt b.toInt) = if a.toInt ≤ b.toInt then b else a := by
  rw [max_def]
  split <;> exact BitVec.ofInt_toInt

theorem ofNat_min_toNat (a b : DWord) : BitVec.ofNat 64 (min a.toNat b.toNat) = if a.toNat ≤ b.toNat then a else b := by
  rw [min_def]
  split <;> simp

theorem ofNat_max_toNat (a b : DWord) : BitVec.ofNat 64 (max a.toNat b.toNat) = if a.toNat ≤ b.toNat then b else a := by
  rw [max_def]
  split <;> simp

/-- Saturation clamps, and QS says that it did. -/
theorem satTo_eq (n : Nat) (i : Int) :
    satTo n i = (BitVec.ofInt 64 (max (-2 ^ (n - 1)) (min (2 ^ (n - 1) - 1) i)), if -2 ^ (n - 1) ≤ i ∧ i < 2 ^ (n - 1) then 0 else flQS) := by
  have hpos : (0 : Int) < 2 ^ (n - 1) := by positivity
  unfold satTo
  dsimp only
  generalize (2 : Int) ^ (n - 1) = top at hpos ⊢
  by_cases hlow : i < -top
  · rw [if_pos hlow, if_neg (by omega)]
    congr 2
    omega
  · by_cases hhigh : top ≤ i
    · rw [if_neg hlow, if_pos hhigh, if_neg (by omega)]
      congr 2
      omega
    · rw [if_neg hlow, if_neg hhigh, if_pos (by omega)]
      congr 2
      omega

theorem roundShift_fst (m j : Nat) :
    (roundShift m (j + 1) false).1
      = if 2 ^ j < m % 2 ^ (j + 1) ∨ m % 2 ^ (j + 1) = 2 ^ j ∧ m / 2 ^ (j + 1) % 2 = 1 then m / 2 ^ (j + 1) + 1 else m / 2 ^ (j + 1) := by
  simp [roundShift]

/-- Convergent rounding: to the nearest, and to the even one of two that are as near (00 R17). -/
theorem roundShift_nearest (m : Nat) {k : Nat} (hk : 0 < k) :
    2 * ((m : Int) - ((roundShift m k false).1 : Int) * 2 ^ k).natAbs ≤ 2 ^ k
      ∧ (2 * ((m : Int) - ((roundShift m k false).1 : Int) * 2 ^ k).natAbs = 2 ^ k → (roundShift m k false).1 % 2 = 0) := by
  obtain ⟨j, rfl⟩ : ∃ j, k = j + 1 := ⟨k - 1, by omega⟩
  have hm : (m : Int) - (m / 2 ^ (j + 1) : Nat) * 2 ^ (j + 1) = (m % 2 ^ (j + 1) : Nat) := by
    have hdiv : (m : Int) = (m / 2 ^ (j + 1) : Nat) * 2 ^ (j + 1) + (m % 2 ^ (j + 1) : Nat) := by
      exact_mod_cast (Nat.div_add_mod' m (2 ^ (j + 1))).symm
    omega
  have hr : m % 2 ^ (j + 1) < 2 ^ (j + 1) := Nat.mod_lt _ (by positivity)
  have hhalf : 2 ^ (j + 1) = 2 * 2 ^ j := Nat.pow_succ'
  have hhalfZ : (2 : Int) ^ (j + 1) = (2 * 2 ^ j : Nat) := by exact_mod_cast hhalf
  rw [roundShift_fst]
  split
  · have hup : (m : Int) - ((m / 2 ^ (j + 1) + 1 : Nat) : Int) * 2 ^ (j + 1) = (m % 2 ^ (j + 1) : Nat) - 2 ^ (j + 1) := by
      rw [← hm]
      push_cast
      ring
    rw [hup, hhalfZ]
    omega
  · rw [hm]
    omega

theorem roundInt_nearest (i : Int) {k : Nat} (hk : 0 < k) :
    2 * (i - roundInt i k * 2 ^ k).natAbs ≤ 2 ^ k ∧ (2 * (i - roundInt i k * 2 ^ k).natAbs = 2 ^ k → roundInt i k % 2 = 0) := by
  obtain ⟨hnear, htie⟩ := roundShift_nearest i.natAbs hk
  unfold roundInt
  dsimp only
  generalize (roundShift i.natAbs k false).1 = r at *
  by_cases hi : i < 0
  · have habs : (i - -(r : Int) * 2 ^ k).natAbs = ((i.natAbs : Int) - (r : Int) * 2 ^ k).natAbs := by
      rw [← Int.natAbs_neg, Int.ofNat_natAbs_of_nonpos hi.le]
      congr 1
      ring
    rw [if_pos hi, habs]
    exact ⟨hnear, fun e => by have := htie e; omega⟩
  · rw [if_neg hi]
    rw [Int.natAbs_of_nonneg (by omega)] at hnear htie
    exact ⟨hnear, fun e => by have := htie e; omega⟩

/-- The leading zeros of a word: `z` of them leave its value below 2^(64 − z), and no more do. -/
theorem leadingZeros_spec (a : DWord) {z : Nat} (hz : z = if a = 0 then 64 else 63 - Nat.log2 a.toNat) :
    z ≤ 64 ∧ a.toNat < 2 ^ (64 - z) ∧ (z < 64 → 2 ^ (63 - z) ≤ a.toNat) := by
  by_cases h0 : a = 0
  · subst h0
    simp [hz]
  · have hne : a.toNat ≠ 0 := fun e => h0 (BitVec.eq_of_toNat_eq e)
    have hlog : Nat.log2 a.toNat < 64 := (Nat.log2_lt hne).mpr a.isLt
    rw [if_neg h0] at hz
    refine ⟨by omega, ?_, fun _ => ?_⟩
    · rw [show 64 - z = Nat.log2 a.toNat + 1 by omega]
      exact Nat.lt_log2_self
    · rw [show 63 - z = Nat.log2 a.toNat by omega]
      exact Nat.log2_self_le hne

/-! ### The statements -/

/-- Settles O21: each syllable is its operand form with its own value. -/
theorem tileIntegers : Obligations.TileIntegers := by
  unfold Obligations.TileIntegers
  intro x n cyc w s u t a b d qa qb wide two one sat qs
  refine ⟨rfl, rfl, fun h => ?_⟩
  have hq : ∀ {e q : Int}, e = q → satQ e = (sat 32 q, qs 32 q) := fun he => he ▸ satTo_eq 32 _
  have hqa : q31 a.v = qa := q31_eq _
  have hqb : q31 b.v = qb := q31_eq _
  obtain ⟨hnear, htie⟩ := roundInt_nearest (qa * qb) (k := 31) (by decide)
  obtain ⟨hle, hlt, hge⟩ := leadingZeros_spec a.v rfl
  refine ⟨intOp_yes h rfl rfl, intOp_yes h rfl rfl, intOp_yes h rfl rfl, intOp_yes h rfl rfl, intOp_yes h rfl rfl, intOp_yes h rfl rfl,
    intOp_yes h rfl rfl, intOp_yes h rfl rfl, ?min, ?max, ?minu, ?maxu, ?qadd, ?qsub, intOp_yes h rfl rfl, intOp_yes h rfl rfl,
    intOp_yes h rfl rfl, ⟨_, hnear, htie, ?qmul⟩, intOp1_yes h rfl rfl, ?movi,
    fun _ => ⟨?exts, ?extu, ?sats⟩, ⟨_, hle, hlt, hge, intOp1_yes h rfl rfl⟩⟩
  case min => exact intOp_yes h rfl (by rw [ofInt_min_toInt])
  case max => exact intOp_yes h rfl (by rw [ofInt_max_toInt])
  case minu => exact intOp_yes h rfl (by rw [ofNat_min_toNat])
  case maxu => exact intOp_yes h rfl (by rw [ofNat_max_toNat])
  case qadd => exact intOp_yes h rfl (hq (congrArg₂ (· + ·) hqa hqb))
  case qsub => exact intOp_yes h rfl (hq (congrArg₂ (· - ·) hqa hqb))
  case qmul => exact intOp_yes h rfl (hq (congrArg₂ (fun p q => roundInt (p * q) 31) hqa hqb))
  case exts => exact intOp1_yes h rfl (by rw [ofInt_sval, ← truncate_eq_ofNat]; rfl)
  case extu => exact intOp1_yes h rfl (by rw [ofNat_lowBits]; rfl)
  case sats => exact intOp1_yes h rfl (satTo_eq wide _)
  case movi => exact issue_yes (o := exec (.movi x n cyc w) s) rfl h

/-- Settles O22: each syllable is its operand form with its own truth value. -/
theorem tilePredicates : Obligations.TilePredicates := by
  unfold Obligations.TilePredicates
  intro x n cyc w s u t a b pa pb gives h
  have hptst := issue_yes (o := exec (.ptst x n cyc w) s) rfl h
  refine ⟨cmpOp_yes h rfl rfl, cmpOp_yes h rfl (decide_not ..).symm, cmpOp_yes h rfl rfl, cmpOp_yes h rfl rfl, cmpOp_yes h rfl rfl,
    cmpOp_yes h rfl rfl, predOp_yes h rfl rfl, predOp_yes h rfl rfl, predOp_yes h rfl rfl, issue_yes rfl h,
    fun hfn => ?_, fun hfn => ?_, fun hfn => ?_⟩
  all_goals
    rw [hfn] at hptst
    refine hptst.trans ?_
  · rfl
  · rfl
  · simp [List.range, List.range.loop, Bool.or_assoc, t, u]

end Sys2Proof.Machine
end

section
/-!
The syllables of slot 2 (03 R121 to R125): the floating-point forms under a guard that holds, and the lanes that the vector syllables move.
-/
namespace Sys2Proof.Machine
set_option Elab.async false -- one proof at a time, as in the tests: the compile is close to its memory limit

/-! ### The operand forms (03 R112, R121) -/

section
variable {x : Side} {n cyc : Nat} {w : Word} {s : State} {o : Host.Outcome State Fault Refusal}
  (h : guardOf ((settle x n cyc s).tile x n) w = .yes)
include h

/-- The scalar form, its poison that of the sources it reads. -/
theorem floatOp_scalar (hv : sylV w = false) {lat : Nat} {useB useC : Bool} {f : Fmt → Nat → Nat → Nat → Nat × Nat}
    (ho : o = .next (floatOp lat useB useC f x n cyc w s)) {r : Nat × Nat} {p : Bool}
    (hf : f (fmtOf w) (scalarIn (fmtOf w) (readG ((settle x n cyc s).tile x n) (sylA w)).v)
      (scalarIn (fmtOf w) (readG ((settle x n cyc s).tile x n) (sylB w)).v)
      (scalarIn (fmtOf w) (readG ((settle x n cyc s).tile x n) (sylD w)).v) = r)
    (hp : ((readG ((settle x n cyc s).tile x n) (sylA w)).p || (useB && (readG ((settle x n cyc s).tile x n) (sylB w)).p)
      || (useC && (readG ((settle x n cyc s).tile x n) (sylD w)).p)) = p) :
    o = .next (launch x n (resG (cyc + lat) (sylD w) ⟨BitVec.ofNat 64 r.1, p⟩ r.2) (settle x n cyc s)) := by
  rw [floatOp, if_neg (by simp [hv])] at ho
  rw [issue_yes ho h]
  simp only [hf, hp]

/-- The vector form does the same in each lane group. -/
theorem floatOp_vector (hv : sylV w = true) {lat : Nat} {useB useC : Bool} {f : Fmt → Nat → Nat → Nat → Nat × Nat}
    (ho : o = .next (floatOp lat useB useC f x n cyc w s)) {g : Nat → Nat → Nat → Nat × Nat} (hg : f (fmtOf w) = g) :
    o = .next (launch x n (resV (cyc + lat) (sylD w) ([0, 1, 2, 3].map (fun k =>
      let r := laneOp (fmtOf w) g (readV ((settle x n cyc s).tile x n) (sylA w) k).v
        (readV ((settle x n cyc s).tile x n) (sylB w) k).v (readV ((settle x n cyc s).tile x n) (sylD w) k).v
      (⟨r.1, (readV ((settle x n cyc s).tile x n) (sylA w) k).p || (useB && (readV ((settle x n cyc s).tile x n) (sylB w) k).p)
        || (useC && (readV ((settle x n cyc s).tile x n) (sylD w) k).p)⟩, r.2)))) (settle x n cyc s)) := by
  subst hg
  rw [floatOp, if_pos hv] at ho
  exact issue_yes ho h

theorem fcmpOp_yes {f : Fmt → Nat → Nat → Bool × Nat} (ho : o = .next (fcmpOp f x n cyc w s)) {r : Bool × Nat}
    (hf : f (fmtOf w) (scalarIn (fmtOf w) (readG ((settle x n cyc s).tile x n) (sylA w)).v)
      (scalarIn (fmtOf w) (readG ((settle x n cyc s).tile x n) (sylB w)).v) = r) :
    o = .next (launch x n (resP (cyc + 2) (sylD w) r.1
      ((readG ((settle x n cyc s).tile x n) (sylA w)).p || (readG ((settle x n cyc s).tile x n) (sylB w)).p) r.2) (settle x n cyc s)) := by
  rw [fcmpOp] at ho
  rw [issue_yes ho h]
  simp only [hf]

theorem convOp_yes {f : Fmt → DWord → Nat × Nat} (ho : o = .next (convOp f x n cyc w s)) {r : Nat × Nat}
    (hf : f (fmtOf w) (readG ((settle x n cyc s).tile x n) (sylA w)).v = r) :
    o = .next (launch x n (resG (cyc + 3) (sylD w) ⟨BitVec.ofNat 64 r.1, (readG ((settle x n cyc s).tile x n) (sylA w)).p⟩ r.2)
      (settle x n cyc s)) := by
  rw [issue_yes ho h]
  simp only [hf]

theorem vsum_yes (ho : o = .next (runVsum x n cyc w s)) {lat : Nat} (hlat : (if bitOf w.toNat 0 then 12 else 8) = lat) {r : Nat × Nat}
    (hr : vsum (fmtOf w) (((List.range 4).map (readV ((settle x n cyc s).tile x n) (sylA w))).map (fun g => g.v.toNat)) = r) {p : Bool}
    (hp : ((List.range 4).map (readV ((settle x n cyc s).tile x n) (sylA w))).any (fun g => g.p) = p) :
    o = .next (launch x n (resG (cyc + lat) (sylD w) ⟨BitVec.ofNat 64 r.1, p⟩ r.2) (settle x n cyc s)) := by
  rw [ho]
  simp only [runVsum, issue, h, hlat, hr, hp]

end

/-! ### The format and the lanes that a syllable names -/

theorem fmtOf_single {w : Word} (h : bitOf w.toNat 0 = true) : fmtOf w = f32 := if_pos h
theorem fmtOf_double {w : Word} (h : bitOf w.toNat 0 = false) : fmtOf w = f64 := if_neg (by simp [h])

/-- The lower half of a word in both of its halves. -/
theorem doubled_low (a : DWord) :
    BitVec.ofNat 64 (a.toNat % 2 ^ 32 * (2 ^ 32 + 1)) = (a.truncate 32 ++ a.truncate 32 : BitVec 64) := by
  apply BitVec.eq_of_toNat_eq
  have hlow : a.toNat % 2 ^ 32 < 2 ^ 32 := Nat.mod_lt _ (by decide)
  simp only [BitVec.toNat_append, BitVec.truncate_eq_setWidth, BitVec.toNat_setWidth, BitVec.toNat_ofNat]
  rw [← Nat.shiftLeft_add_eq_or_of_lt hlow, Nat.shiftLeft_eq]
  omega

/-- The word that `VBCAST` puts into each lane group: one lane of FP64, two of FP32. -/
theorem broadcast_word (w : Word) (a : DWord) :
    (if (fmtOf w).mb = 52 then a else BitVec.ofNat 64 (a.toNat % 2 ^ 32 * (2 ^ 32 + 1)))
      = if bitOf w.toNat 0 = false then a else a.truncate 32 ++ a.truncate 32 := by
  cases hs : bitOf w.toNat 0
  · simp [fmtOf_double hs, f64]
  · rw [fmtOf_single hs, doubled_low]
    rfl

theorem laneGroup_wide {w : Word} (h : bitOf w.toNat 3 = false) : laneWide w = true ∧ laneGroup w = bits w.toNat 2 0 % 4 := by
  simp [laneGroup, laneWide, laneNum, h]

theorem laneGroup_half {w : Word} (h : bitOf w.toNat 3 = true) : laneWide w = false ∧ laneGroup w = bits w.toNat 2 0 / 2 := by
  simp [laneGroup, laneWide, laneNum, h]

/-- Settles O23: the arithmetic and the conversions by their operand forms, the vector syllables lane by lane. -/
theorem tileFloatsAndVectors : Obligations.TileFloatsAndVectors := by
  unfold Obligations.TileFloatsAndVectors
  constructor
  · intro x n cyc w s u t F d single a b c fa fb fc scalar lanes pred h
    refine ⟨fun hv => ?_, fun hv => ?_, fcmpOp_yes h rfl rfl, fcmpOp_yes h rfl rfl, fcmpOp_yes h rfl rfl, fcmpOp_yes h rfl rfl,
      convOp_yes h rfl rfl, convOp_yes h rfl rfl, ?fcvtff, ?fcvtqf, convOp_yes h rfl rfl⟩
    · have hAB : ∀ p q r : Bool, (p || (true && q) || (false && r)) = (p || q) := by decide
      have hA : ∀ p q r : Bool, (p || (false && q) || (false && r)) = p := by decide
      exact ⟨floatOp_scalar h hv rfl rfl (hAB ..), floatOp_scalar h hv rfl rfl (hAB ..), floatOp_scalar h hv rfl rfl (hAB ..),
        floatOp_scalar h hv rfl rfl rfl, floatOp_scalar h hv rfl rfl rfl, floatOp_scalar h hv rfl rfl (hAB ..),
        floatOp_scalar h hv rfl rfl (hAB ..), floatOp_scalar h hv rfl rfl (hA ..), floatOp_scalar h hv rfl rfl (hA ..),
        floatOp_scalar h hv rfl rfl (hAB ..), floatOp_scalar h hv rfl rfl (hA ..)⟩
    · exact ⟨floatOp_vector h hv rfl rfl, floatOp_vector h hv rfl rfl, floatOp_vector h hv rfl rfl, floatOp_vector h hv rfl rfl,
        floatOp_vector h hv rfl rfl, floatOp_vector h hv rfl rfl, floatOp_vector h hv rfl rfl, floatOp_vector h hv rfl rfl,
        floatOp_vector h hv rfl rfl⟩
    case fcvtff =>
      refine convOp_yes h rfl ?_
      cases hs : bitOf w.toNat 0
      · simp [fmtOf_double hs, f64, single, hs, a, t, u]
      · simp [fmtOf_single hs, f32, single, hs, a, t, u]
    case fcvtqf =>
      refine convOp_yes h rfl ?_
      rw [sval_eq_toInt, ← truncate_eq_ofNat]
  · intro x n cyc w s u t F d a v o lane dbl goes add half pair h
    have hbcast := issue_yes (o := exec (.vbcast x n cyc w) s) rfl h
    have hext := issue_yes (o := exec (.vext x n cyc w) s) rfl h
    have hins := issue_yes (o := exec (.vins x n cyc w) s) rfl h
    have hpoison : ((List.range 4).map (readV t (sylA w))).any (fun g => g.p) = ((v 0).p || (v 1).p || (v 2).p || (v 3).p) := by
      simp [List.range, List.range.loop, Bool.or_assoc, v]
    refine ⟨?_, fun hw => ⟨?_, ?_⟩, fun hw => ⟨?_, ?_⟩, ⟨fun hd => ?_, fun hd => ?_⟩, issue_yes (o := exec (.vmov x n cyc w) s) rfl h⟩
    · exact hbcast.trans (congrArg (fun b => Host.Outcome.next (launch x n (resV (cyc + 2) d (List.replicate 4 (⟨b, a.p⟩, 0))) u))
        (broadcast_word w a.v))
    · obtain ⟨hwide, hgroup⟩ := laneGroup_wide hw
      refine hext.trans ?_
      rw [hwide, hgroup]
      rfl
    · obtain ⟨hwide, hgroup⟩ := laneGroup_wide hw
      refine hins.trans (congrArg (fun ws => Host.Outcome.next (launch x n (resV (cyc + 2) d ws) u)) (List.map_congr_left fun k _ => ?_))
      rw [hwide, hgroup]
      by_cases hk : k = bits w.toNat 2 0 % 4 <;> simp [hk, lane, a, o, t, u, d]
    · obtain ⟨hwide, hgroup⟩ := laneGroup_half hw
      refine hext.trans ?_
      rw [hwide, hgroup]
      rfl
    · obtain ⟨hwide, hgroup⟩ := laneGroup_half hw
      refine hins.trans (congrArg (fun ws => Host.Outcome.next (launch x n (resV (cyc + 2) d ws) u)) (List.map_congr_left fun k _ => ?_))
      rw [hwide, hgroup]
      by_cases hk : k = bits w.toNat 2 0 / 2 <;> simp [hk, lane, a, o, t, u, d, laneNum]
    · refine vsum_yes h rfl (if_neg (by simpa [dbl] using hd)) ?_ hpoison
      simp only [add, F, fmtOf_double hd]
      rfl
    · have hs : bitOf w.toNat 0 = true := by simpa [dbl] using hd
      refine vsum_yes h rfl (if_pos hs) ?_ hpoison
      simp only [pair, half, add, F, fmtOf_single hs]
      rfl

end Sys2Proof.Machine
end

section
/-!
Guards that do not hold (03 R129, R142), the loads and the address rule (03 R126 to R128, R140).
-/
namespace Sys2Proof.Machine
set_option Elab.async false -- one proof at a time, as in the tests: the compile is close to its memory limit

/-! ### The address rule (03 R127) -/

theorem addrOk_iff (a : DWord) (size : Nat) : addrOk a size = true ↔ a.toNat < 0x20000 ∧ a.toNat % size = 0 := by
  simp [addrOk]

/-- A tile's local memory begins at a word, so an address there has its own place in the word. -/
theorem tileBase_add_mod (n a : Nat) : (tileBase n + a) % 8 = a % 8 := by
  unfold tileBase
  omega

/-! ### Loads (03 R126 to R128, R140) -/

section
variable {x : Side} {n cyc : Nat} {w : Word} {s : State} {o : Host.Outcome State Fault Refusal} {size : Nat} {f : Nat → DWord}
  (ho : o = .next (loadOp size f x n cyc w s)) (h : guardOf ((settle x n cyc s).tile x n) w = .yes)
include ho h

/-- Inside the rule the load extends the bytes of the word that it reads. -/
theorem loadOp_inside {a : Pw} (ha : sylAddr ((settle x n cyc s).tile x n) w size = a)
    (hok : a.p = false ∧ a.v.toNat < 0x20000 ∧ a.v.toNat % size = 0) {v : DWord}
    (hv : f ((peekWord ((settle x n cyc s).ld x) ((tileBase n + a.v.toNat) / 8 * 8)).v.toNat / 2 ^ (8 * (a.v.toNat % 8)) % 2 ^ (8 * size)) = v) :
    o = .next (launch x n
      (resG (cyc + 3) (sylD w) ⟨v, (peekWord ((settle x n cyc s).ld x) ((tileBase n + a.v.toNat) / 8 * 8)).p⟩ 0)
      (memRead x ((tileBase n + a.v.toNat) / 8 * 8) (settle x n cyc s)).2) := by
  obtain ⟨hp, hrule⟩ := hok
  have hrule' := (addrOk_iff a.v size).mpr hrule
  rw [← hv, ho]
  simp only [loadOp, h, ha, hp, hrule', Bool.not_true, Bool.false_eq_true, if_false, tileBase_add_mod]
  rfl

theorem loadOp_poisoned_address (hp : (sylAddr ((settle x n cyc s).tile x n) w size).p = true) :
    o = .next (launch x n (poisonG (cyc + 3) (sylD w)) (settle x n cyc s)) := by
  rw [ho]
  simp only [loadOp, h, hp, if_true]

theorem loadOp_outside {a : Pw} (ha : sylAddr ((settle x n cyc s).tile x n) w size = a) (hp : a.p = false)
    (hrule : ¬a.v.toNat < 0x20000 ∨ a.v.toNat % size ≠ 0) :
    o = .next (tileFault x n 0x0160 a.v.toNat (cyc + 3) (launch x n (poisonG (cyc + 3) (sylD w)) (settle x n cyc s))) := by
  have hrule' : addrOk a.v size = false := by
    rw [← Bool.not_eq_true, addrOk_iff]
    tauto
  rw [ho]
  simp only [loadOp, h, ha, hp, hrule', Bool.not_false, Bool.false_eq_true, if_false, if_true]

end

theorem loadVec_inside {x : Side} {n cyc : Nat} {w : Word} {s : State} {o : Host.Outcome State Fault Refusal}
    (ho : o = .next (loadVec x n cyc w s)) (h : guardOf ((settle x n cyc s).tile x n) w = .yes) {a : Pw}
    (ha : sylAddr ((settle x n cyc s).tile x n) w 32 = a) (hok : a.p = false ∧ a.v.toNat < 0x20000 ∧ a.v.toNat % 32 = 0) {r : List Pw × State}
    (hr : memReadN x (tileBase n + a.v.toNat) 4 (settle x n cyc s) = r) :
    o = .next (launch x n (resV (cyc + 3) (sylD w) (r.1.map (fun p => (p, 0)))) r.2) := by
  obtain ⟨hp, hrule⟩ := hok
  have hrule' := (addrOk_iff a.v 32).mpr hrule
  rw [ho]
  simp only [loadVec, h, ha, hp, hrule', hr, Bool.not_true, Bool.false_eq_true, if_false]

/-- The scalar loads with their sizes. -/
def scalarLoads : List ((Side → Nat → Nat → Word → Instr) × Nat) :=
  [(.ldb, 1), (.ldbu, 1), (.ldh, 2), (.ldhu, 2), (.ldw, 4), (.ldwu, 4), (.ldd, 8)]

theorem scalarLoads_loadOp (x : Side) (n cyc : Nat) (w : Word) (s : State) :
    ∀ e ∈ scalarLoads, ∃ f, exec (e.1 x n cyc w) s = .next (loadOp e.2 f x n cyc w s) := by
  simp only [scalarLoads, List.forall_mem_cons, List.not_mem_nil, false_imp_iff, implies_true, and_true]
  and_intros <;> exact ⟨_, rfl⟩

/-- Settles O24: a scalar load is `loadOp` with its own extension, and the vector load reads its four words in order. -/
theorem tileLoads : Obligations.TileLoads := by
  unfold Obligations.TileLoads
  intro x n cyc w s u t d addr at8 read ok gives h
  refine ⟨fun hok => loadOp_inside rfl h rfl hok (ofInt_sval 8 _), fun hok => loadOp_inside rfl h rfl hok rfl,
    fun hok => loadOp_inside rfl h rfl hok (ofInt_sval 16 _), fun hok => loadOp_inside rfl h rfl hok rfl,
    fun hok => loadOp_inside rfl h rfl hok (ofInt_sval 32 _), fun hok => loadOp_inside rfl h rfl hok rfl,
    fun hok => loadOp_inside rfl h rfl hok ?_, fun hok => loadVec_inside rfl h rfl hok rfl, fun e he => ?_⟩
  · obtain ⟨_, _, hword⟩ := hok
    rw [hword]
    simp [at8, addr, t, u, Nat.mod_eq_of_lt (BitVec.isLt _)]
  · obtain ⟨f, ho⟩ := scalarLoads_loadOp x n cyc w s e he
    exact ⟨loadOp_poisoned_address ho h, loadOp_outside ho h rfl⟩

/-! ### Guards that do not hold (03 R129, R142) -/

/-- What a guard that does not hold makes of a syllable: a false one lets only the earlier results land, a poisoned one puts `bad` in flight
after them. -/
structure HeldBack (x : Side) (n cyc : Nat) (w : Word) (s : State) (bad : PendRes) (o : Host.Outcome State Fault Refusal) : Prop where
  no : guardOf ((settle x n cyc s).tile x n) w = .no → o = .next (settle x n cyc s)
  poison : guardOf ((settle x n cyc s).tile x n) w = .poison → o = .next (launch x n bad (settle x n cyc s))

section
variable {x : Side} {n cyc : Nat} {w : Word} {s : State} {o : Host.Outcome State Fault Refusal}

theorem issue_heldBack {bad : PendRes} {run : Tile → PendRes} (ho : o = .next (issue x n cyc w bad run s)) :
    HeldBack x n cyc w s bad o := ⟨issue_no ho, issue_poison ho⟩

theorem intOp_heldBack {lat : Nat} {f : DWord → DWord → DWord × Nat} (ho : o = .next (intOp lat f x n cyc w s)) :
    HeldBack x n cyc w s (poisonG (cyc + lat) (sylD w)) o := issue_heldBack ho

theorem intOp1_heldBack {f : DWord → DWord × Nat} (ho : o = .next (intOp1 f x n cyc w s)) :
    HeldBack x n cyc w s (poisonG (cyc + 1) (sylD w)) o := issue_heldBack ho

theorem cmpOp_heldBack {f : DWord → DWord → Bool} (ho : o = .next (cmpOp f x n cyc w s)) :
    HeldBack x n cyc w s (poisonP (cyc + 1) (sylD w)) o := issue_heldBack ho

theorem predOp_heldBack {f : Bool → Bool → Bool} (ho : o = .next (predOp f x n cyc w s)) :
    HeldBack x n cyc w s (poisonP (cyc + 1) (sylD w)) o := issue_heldBack ho

theorem fcmpOp_heldBack {f : Fmt → Nat → Nat → Bool × Nat} (ho : o = .next (fcmpOp f x n cyc w s)) :
    HeldBack x n cyc w s (poisonP (cyc + 2) (sylD w)) o := by
  rw [fcmpOp] at ho
  exact issue_heldBack ho

theorem convOp_heldBack {f : Fmt → DWord → Nat × Nat} (ho : o = .next (convOp f x n cyc w s)) :
    HeldBack x n cyc w s (poisonG (cyc + 3) (sylD w)) o := issue_heldBack ho

theorem floatOp_heldBack {lat : Nat} {useB useC : Bool} {f : Fmt → Nat → Nat → Nat → Nat × Nat}
    (ho : o = .next (floatOp lat useB useC f x n cyc w s)) :
    HeldBack x n cyc w s (if sylV w then poisonV (cyc + lat) (sylD w) else poisonG (cyc + lat) (sylD w)) o := by
  cases hv : sylV w
  · rw [floatOp, if_neg (by simp [hv])] at ho
    exact issue_heldBack ho
  · rw [floatOp, if_pos hv] at ho
    exact issue_heldBack ho

theorem loadOp_heldBack {size : Nat} {f : Nat → DWord} (ho : o = .next (loadOp size f x n cyc w s)) :
    HeldBack x n cyc w s (poisonG (cyc + 3) (sylD w)) o := by
  constructor <;> intro h <;> rw [ho] <;> simp only [loadOp, h]

theorem loadVec_heldBack (ho : o = .next (loadVec x n cyc w s)) : HeldBack x n cyc w s (poisonV (cyc + 3) (sylD w)) o := by
  constructor <;> intro h <;> rw [ho] <;> simp only [loadVec, h]

end

section
variable {x : Side} {n cyc : Nat} {w : Word} {s : State} {o : Host.Outcome State Fault Refusal} {size : Nat} {src : Tile → List Pw}
  (ho : o = .next (storeOp size src x n cyc w s))
include ho

theorem storeOp_no (h : guardOf ((settle x n cyc s).tile x n) w = .no) : o = .next (settle x n cyc s) := by
  rw [ho]
  simp only [storeOp, h, if_true]

/-- A store under a poisoned guard: the poison pattern inside the address rule, the fault alone outside it. -/
theorem storeOp_poison (h : guardOf ((settle x n cyc s).tile x n) w = .poison) {a : Pw}
    (ha : sylAddr ((settle x n cyc s).tile x n) w size = a) :
    (a.p = false ∧ a.v.toNat < 0x20000 ∧ a.v.toNat % size = 0 →
      o = .next (launch x n { land := cyc + 1, mem := poisonWords (tileBase n + a.v.toNat) ((size + 7) / 8), seen := true } (settle x n cyc s)))
    ∧ (¬(a.p = false ∧ a.v.toNat < 0x20000 ∧ a.v.toNat % size = 0) →
      o = .next (tileFault x n 0x0161 a.v.toNat (cyc + 1) (settle x n cyc s))) := by
  rw [← addrOk_iff, ho]
  simp only [storeOp, h, ha, reduceCtorEq, if_false, if_true]
  cases a.p <;> cases addrOk a.v size <;> simp

end

/-- The syllables with a g register as their destination, with their latencies; the floating-point arithmetic is in `floatForms`. -/
def toG : List ((Side → Nat → Nat → Word → Instr) × Nat) :=
  [(.add, 1), (.sub, 1), (.and, 1), (.or, 1), (.xor, 1), (.shl, 1), (.shr, 1), (.sar, 1), (.min, 1), (.max, 1), (.minu, 1), (.maxu, 1),
    (.mov, 1), (.movi, 1), (.exts, 1), (.extu, 1), (.qadd, 1), (.qsub, 1), (.clz, 1), (.sats, 1), (.mul, 3), (.mulh, 3), (.mulhu, 3),
    (.qmul, 3), (.fcvtif, 3), (.fcvtfi, 3), (.fcvtff, 3), (.fcvtqf, 3), (.fcvtfq, 3), (.vext, 2), (.ldb, 3), (.ldbu, 3), (.ldh, 3),
    (.ldhu, 3), (.ldw, 3), (.ldwu, 3), (.ldd, 3), (.mfs, 1)]

/-- The syllables with a p register as their destination that take the poison of their guard, with their latencies. -/
def toP : List ((Side → Nat → Nat → Word → Instr) × Nat) :=
  [(.cmpeq, 1), (.cmpne, 1), (.cmplt, 1), (.cmple, 1), (.cmpltu, 1), (.cmpleu, 1), (.pand, 1), (.por, 1), (.pxor, 1), (.pnot, 1),
    (.fcmpeq, 2), (.fcmplt, 2), (.fcmple, 2), (.fcmpun, 2)]

/-- The vector syllables whose destination is always a v register, with their latencies. -/
def toV : List ((Side → Nat → Nat → Word → Instr) × Nat) := [(.vbcast, 2), (.vins, 2), (.vmov, 1), (.ldv, 3)]

/-- The floating-point arithmetic, in its scalar or its vector form, with its latencies. -/
def floatForms (single : Bool) : List ((Side → Nat → Nat → Word → Instr) × Nat) :=
  [(.fadd, 4), (.fsub, 4), (.fmul, 4), (.fma, 4), (.fms, 4), (.fmin, 2), (.fmax, 2), (.fabs, 1), (.fneg, 1)]
    ++ [(.fdiv, if single then 12 else 24), (.fsqrt, if single then 14 else 28)]

/-- The stores with their sizes. -/
def stores : List ((Side → Nat → Nat → Word → Instr) × Nat) := [(.stb, 1), (.sth, 2), (.stw, 4), (.std, 8), (.stv, 32)]

section
variable (x : Side) (n cyc : Nat) (w : Word) (s : State)

theorem toG_heldBack : ∀ e ∈ toG, HeldBack x n cyc w s (poisonG (cyc + e.2) (sylD w)) (exec (e.1 x n cyc w) s) := by
  simp only [toG, List.forall_mem_cons, List.not_mem_nil, false_imp_iff, implies_true, and_true]
  exact ⟨intOp_heldBack rfl, intOp_heldBack rfl, intOp_heldBack rfl, intOp_heldBack rfl, intOp_heldBack rfl, intOp_heldBack rfl,
    intOp_heldBack rfl, intOp_heldBack rfl, intOp_heldBack rfl, intOp_heldBack rfl, intOp_heldBack rfl, intOp_heldBack rfl,
    intOp1_heldBack rfl, issue_heldBack (o := exec (.movi x n cyc w) s) rfl, intOp1_heldBack rfl, intOp1_heldBack rfl, intOp_heldBack rfl,
    intOp_heldBack rfl, intOp1_heldBack rfl, intOp1_heldBack rfl, intOp_heldBack rfl, intOp_heldBack rfl, intOp_heldBack rfl,
    intOp_heldBack rfl, convOp_heldBack rfl, convOp_heldBack rfl, convOp_heldBack rfl, convOp_heldBack rfl, convOp_heldBack rfl,
    issue_heldBack (o := exec (.vext x n cyc w) s) rfl, loadOp_heldBack rfl, loadOp_heldBack rfl, loadOp_heldBack rfl, loadOp_heldBack rfl,
    loadOp_heldBack rfl, loadOp_heldBack rfl, loadOp_heldBack rfl, issue_heldBack (o := exec (.mfs x n cyc w) s) rfl⟩

theorem toP_heldBack : ∀ e ∈ toP, HeldBack x n cyc w s (poisonP (cyc + e.2) (sylD w)) (exec (e.1 x n cyc w) s) := by
  simp only [toP, List.forall_mem_cons, List.not_mem_nil, false_imp_iff, implies_true, and_true]
  exact ⟨cmpOp_heldBack rfl, cmpOp_heldBack rfl, cmpOp_heldBack rfl, cmpOp_heldBack rfl, cmpOp_heldBack rfl, cmpOp_heldBack rfl,
    predOp_heldBack rfl, predOp_heldBack rfl, predOp_heldBack rfl, issue_heldBack (o := exec (.pnot x n cyc w) s) rfl, fcmpOp_heldBack rfl,
    fcmpOp_heldBack rfl, fcmpOp_heldBack rfl, fcmpOp_heldBack rfl⟩

theorem toV_heldBack : ∀ e ∈ toV, HeldBack x n cyc w s (poisonV (cyc + e.2) (sylD w)) (exec (e.1 x n cyc w) s) := by
  simp only [toV, List.forall_mem_cons, List.not_mem_nil, false_imp_iff, implies_true, and_true]
  exact ⟨issue_heldBack (o := exec (.vbcast x n cyc w) s) rfl, issue_heldBack (o := exec (.vins x n cyc w) s) rfl,
    issue_heldBack (o := exec (.vmov x n cyc w) s) rfl, loadVec_heldBack rfl⟩

theorem floatForms_heldBack : ∀ e ∈ floatForms (bitOf w.toNat 0),
    HeldBack x n cyc w s (if sylV w then poisonV (cyc + e.2) (sylD w) else poisonG (cyc + e.2) (sylD w)) (exec (e.1 x n cyc w) s) := by
  simp only [floatForms, List.forall_mem_append, List.forall_mem_cons, List.not_mem_nil, false_imp_iff, implies_true, and_true]
  and_intros <;> exact floatOp_heldBack rfl

theorem vsum_heldBack :
    HeldBack x n cyc w s (poisonG (cyc + if bitOf w.toNat 0 then 12 else 8) (sylD w)) (exec (.vsum x n cyc w) s) := by
  have ho : exec (.vsum x n cyc w) s = .next (runVsum x n cyc w s) := rfl
  rw [runVsum] at ho
  exact issue_heldBack ho

/-- `PTST` puts an unpoisoned 0 under a poisoned guard. -/
theorem ptst_heldBack : HeldBack x n cyc w s (resP (cyc + 1) (sylD w) false false 0) (exec (.ptst x n cyc w) s) :=
  issue_heldBack (o := .next (runPtst x n cyc w s)) rfl

/-- `MTS` puts a 0 under a poisoned guard. -/
theorem mts_heldBack : HeldBack x n cyc w s { land := cyc + 1, sp := some (sylD w, 0) } (exec (.mts x n cyc w) s) :=
  issue_heldBack (o := .next (runMts x n cyc w s)) rfl

theorem stores_storeOp : ∀ e ∈ stores, ∃ src, exec (e.1 x n cyc w) s = .next (storeOp e.2 src x n cyc w s) := by
  simp only [stores, List.forall_mem_cons, List.not_mem_nil, false_imp_iff, implies_true, and_true]
  and_intros <;> exact ⟨_, rfl⟩

end

/-- Settles O27: each syllable is held back by its operand form, and the stores by the address rule. -/
theorem tileGuards : Obligations.TileGuards := by
  unfold Obligations.TileGuards
  intro x n cyc w s u t ints preds floats sts single
  have hints := toG_heldBack x n cyc w s
  have hpreds := toP_heldBack x n cyc w s
  have hfloats := floatForms_heldBack x n cyc w s
  have hvecs := toV_heldBack x n cyc w s
  have hsts := stores_storeOp x n cyc w s
  refine ⟨fun h => ?_, fun h => ⟨fun e he => (hints e he).poison h, fun e he => (hpreds e he).poison h, fun e he => (hfloats e he).poison h,
    fun e he => (hvecs e he).poison h, (vsum_heldBack ..).poison h, (ptst_heldBack ..).poison h, (mts_heldBack ..).poison h, fun e he => ?_⟩⟩
  · obtain ⟨harith, hroots⟩ := List.forall_mem_append.mp hfloats
    obtain ⟨hdiv, hsqrt, _⟩ := (List.forall_mem_cons.trans (and_congr_right' List.forall_mem_cons)).mp hroots
    simp only [List.forall_mem_append, List.forall_mem_map, List.forall_mem_cons, List.not_mem_nil, false_imp_iff, implies_true, and_true]
    exact ⟨⟨⟨⟨fun e he => (hints e he).no h, fun e he => (hpreds e he).no h⟩, fun e he => (harith e he).no h⟩,
        fun e he => let ⟨_, ho⟩ := hsts e he; storeOp_no ho h⟩,
      hdiv.no h, hsqrt.no h, (hvecs (.vbcast, 2) (by simp [toV])).no h,
      (hvecs (.vins, 2) (by simp [toV])).no h, (vsum_heldBack ..).no h, (hvecs (.vmov, 1) (by simp [toV])).no h,
      (hvecs (.ldv, 3) (by simp [toV])).no h, (ptst_heldBack ..).no h, (mts_heldBack ..).no h⟩
  · obtain ⟨src, ho⟩ := hsts e he
    exact storeOp_poison ho h rfl

end Sys2Proof.Machine
end

section
/-!
The stores (03 R126 to R128, R137): the bytes merged into a word, the words that a result in flight writes, and every other word as before.
-/
namespace Sys2Proof.Machine
set_option Elab.async false -- one proof at a time, as in the tests: the compile is close to its memory limit

/-! ### Bytes of a word (03 R137, R143) -/

theorem byte_getLsbD (v : DWord) (i k : Nat) : (v.extractLsb' (8 * i) 8).getLsbD k = (decide (k < 8) && v.getLsbD (8 * i + k)) :=
  BitVec.getLsbD_extractLsb' ..

theorem setByte_getLsbD (v : DWord) {j k : Nat} (b : Byte) (hk : k < 64) :
    (setByte v j b).getLsbD k = if 8 * j ≤ k ∧ k < 8 * j + 8 then b.getLsbD (k - 8 * j) else v.getLsbD k := by
  have hmask : Nat.testBit 0xFF (k - 8 * j) = decide (k - 8 * j < 8) := Nat.testBit_two_pow_sub_one 8 _
  simp only [setByte, BitVec.getLsbD_or, BitVec.getLsbD_and, BitVec.getLsbD_not, BitVec.getLsbD_ofNat, Nat.testBit_mul_two_pow, hmask, hk,
    decide_true, Bool.true_and, BitVec.testBit_toNat]
  by_cases hlow : 8 * j ≤ k
  · by_cases hhigh : k < 8 * j + 8
    · simp [hlow, hhigh, show k - 8 * j < 8 by omega]
    · simp [hlow, hhigh, show ¬k - 8 * j < 8 by omega, BitVec.getLsbD_of_ge b (k - 8 * j) (by omega)]
  · simp [hlow]

theorem setByte_byte (v : DWord) {i j : Nat} (b : Byte) (hi : i < 8) :
    (setByte v j b).extractLsb' (8 * i) 8 = if i = j then b else v.extractLsb' (8 * i) 8 := by
  apply BitVec.eq_of_getLsbD_eq
  intro k hk
  rw [byte_getLsbD, setByte_getLsbD _ _ (by omega)]
  by_cases hij : i = j
  · subst hij
    simp [hk]
  · rw [if_neg (by omega), if_neg hij, byte_getLsbD]

theorem eq_of_bytes {u v : DWord} (h : ∀ i < 8, u.extractLsb' (8 * i) 8 = v.extractLsb' (8 * i) 8) : u = v := by
  apply BitVec.eq_of_getLsbD_eq
  intro k hk
  have hbyte := congrArg (fun b : Byte => b.getLsbD (k % 8)) (h (k / 8) (by omega))
  simpa [byte_getLsbD, Nat.mod_lt, Nat.div_add_mod] using hbyte

theorem mergeBytes_append (v : DWord) (l m : List (Nat × Byte)) : mergeBytes v (l ++ m) = mergeBytes (mergeBytes v l) m := by
  induction l generalizing v with
  | nil => rfl
  | cons e l ih => exact ih _

/-- The low `size` bytes of a word, as a store puts them from byte `o` on. -/
def storedBytes (o size : Nat) (u : DWord) : List (Nat × Byte) := (List.range size).map (fun i => (o + i, u.extractLsb' (8 * i) 8))

theorem mergeBytes_stored (v u : DWord) {o size i : Nat} (hi : i < 8) :
    (mergeBytes v (storedBytes o size u)).extractLsb' (8 * i) 8
      = if o ≤ i ∧ i < o + size then u.extractLsb' (8 * (i - o)) 8 else v.extractLsb' (8 * i) 8 := by
  induction size with
  | zero => rw [if_neg (by omega)]; rfl
  | succ k ih =>
    have hlast : storedBytes o (k + 1) u = storedBytes o k u ++ [(o + k, u.extractLsb' (8 * k) 8)] := by
      simp [storedBytes, List.range_succ]
    rw [hlast, mergeBytes_append, mergeBytes, mergeBytes, setByte_byte _ _ hi, ih]
    by_cases hik : i = o + k
    · rw [if_pos hik, if_pos (by omega), hik, Nat.add_sub_cancel_left]
    · rw [if_neg hik]
      exact if_congr (by omega) rfl rfl

/-- A whole word stored leaves nothing of the old one. -/
theorem mergeStore_word (old w : Pw) : mergeStore old (storedBytes 0 8 w.v) w.p = w := by
  have hv : mergeBytes old.v (storedBytes 0 8 w.v) = w.v := eq_of_bytes fun i hi => by
    rw [mergeBytes_stored _ _ hi, if_pos (by omega), Nat.sub_zero]
  rw [mergeStore, hv]
  simp [storedBytes]

/-! ### A word of a tile's memory written (03 R137, R138) -/

/-- The address of a word in the tiles' local memories. -/
def TileWord (a : Nat) : Prop := a % 8 = 0 ∧ 0x20000000 ≤ a ∧ a < 0x20200000

@[simp] theorem modTile_peekWord (s : State) (x : Side) (n : Nat) (f : Tile → Tile) (a : Nat) :
    peekWord ((s.modTile x n f).ld x) a = peekWord (s.ld x) a := by
  rw [modTile_ld]
  rfl

/-- An address is its own place, or lies in the spare lines. -/
theorem physical_or (m : MemInt) (a : Nat) : physical m a = a ∨ a < 0x08000000 ∧ 2 ^ 33 ≤ physical m a := by
  unfold physical remapOf spareBase
  split
  · rename_i e he
    split at he
    · right; omega
    · cases he
  · exact .inl rfl

/-- What a store's word does on its landing: the merged word written into a state that reads as before. -/
theorem landWord_write {x : Side} {e : Nat × List (Nat × Byte) × Bool} (he : TileWord e.1) (c : Nat) (s : State) :
    ∃ u, landWord x c e s = memWrite x e.1 (mergeStore (peekWord (s.ld x) e.1) e.2.1 e.2.2) u
      ∧ (∀ a, peekWord (u.ld x) a = peekWord (s.ld x) a) ∧ u.ld x.other = s.ld x.other := by
  obtain ⟨_, hlow, hhigh⟩ := he
  have hkind : memKind e.1 ≠ 5 := by
    unfold memKind
    split_ifs <;> omega
  have hread : Noted x (if e.2.1.length < 8 then readEffects x e.1 s else s) s := by
    split
    · exact noted_readEffects hkind x s
    · exact noted_refl x s
  refine ⟨_, rfl, fun a => ?_, ?_⟩
  · rw [modLd_ld]
    exact peekWord_noted hread a
  · obtain ⟨_, _, _, _, hother, _⟩ := hread
    rw [modLd_other, hother]

section
variable {x : Side} {e : Nat × List (Nat × Byte) × Bool} (he : TileWord e.1) (c : Nat) (s : State)
include he

theorem landWord_self : peekWord ((landWord x c e s).ld x) e.1 = mergeStore (peekWord (s.ld x) e.1) e.2.1 e.2.2 := by
  obtain ⟨u, hw, _, _⟩ := landWord_write (x := x) he c s
  rw [hw, memWrite, modLd_ld, peekWord_ldWrite]

theorem landWord_ne {a : Nat} (ha : a % 8 = 0) (hne : a ≠ e.1) :
    peekWord ((landWord x c e s).ld x) a = peekWord (s.ld x) a := by
  obtain ⟨u, hw, hread, _⟩ := landWord_write (x := x) he c s
  obtain ⟨halign, hlow, hhigh⟩ := he
  rw [hw, memWrite, modLd_ld, peekWord_ldWrite_ne, hread]
  have hword := physical_or (u.ld x).memi e.1
  have hplace := physical_or (u.ld x).memi a
  omega

theorem landWord_other : (landWord x c e s).ld x.other = s.ld x.other := by
  obtain ⟨u, hw, _, hother⟩ := landWord_write (x := x) he c s
  rw [hw, memWrite, modLd_other, hother]

end

/-! ### The words of a result (03 R137) -/

/-- The words of a store written one after the other. -/
def landWords (x : Side) (c : Nat) (es : List (Nat × List (Nat × Byte) × Bool)) (s : State) : State :=
  es.foldl (fun s e => landWord x c e s) s

section
variable {x : Side} {c : Nat} {es : List (Nat × List (Nat × Byte) × Bool)}

theorem landWords_ne (hes : ∀ e ∈ es, TileWord e.1) {a : Nat} (ha : a % 8 = 0) (hne : ∀ e ∈ es, a ≠ e.1) (s : State) :
    peekWord ((landWords x c es s).ld x) a = peekWord (s.ld x) a := by
  induction es generalizing s with
  | nil => rfl
  | cons e es ih =>
    obtain ⟨he, hes⟩ := List.forall_mem_cons.mp hes
    obtain ⟨hae, hne⟩ := List.forall_mem_cons.mp hne
    exact (ih hes hne _).trans (landWord_ne he c s ha hae)

theorem landWords_self (hes : ∀ e ∈ es, TileWord e.1) (hnodup : (es.map (·.1)).Nodup) (s : State) :
    ∀ e ∈ es, peekWord ((landWords x c es s).ld x) e.1 = mergeStore (peekWord (s.ld x) e.1) e.2.1 e.2.2 := by
  induction es generalizing s with
  | nil => simp
  | cons e es ih =>
    obtain ⟨he, hes⟩ := List.forall_mem_cons.mp hes
    obtain ⟨hnew, hnodup⟩ := List.nodup_cons.mp hnodup
    have hne : ∀ d ∈ es, d.1 ≠ e.1 := fun d hd h => hnew (List.mem_map.mpr ⟨d, hd, h⟩)
    refine List.forall_mem_cons.mpr ⟨?_, fun d hd => ?_⟩
    · have ⟨halign, _⟩ := he
      exact (landWords_ne hes halign (fun d hd => (hne d hd).symm) _).trans (landWord_self he c s)
    · obtain ⟨halign, _⟩ := hes d hd
      refine (ih hes hnodup _ d hd).trans ?_
      rw [landWord_ne he c s halign (hne d hd)]

theorem landWords_other (hes : ∀ e ∈ es, TileWord e.1) (s : State) : (landWords x c es s).ld x.other = s.ld x.other := by
  induction es generalizing s with
  | nil => rfl
  | cons e es ih =>
    obtain ⟨he, hes⟩ := List.forall_mem_cons.mp hes
    exact (ih hes _).trans (landWord_other he c s)

end

/-- A store alone in flight takes effect in its cycle. -/
theorem store_lands {x : Side} {n c : Nat} {s : State} (h : (s.tile x n).flight = [])
    {ws es : List (Nat × List (Nat × Byte) × Bool)} (hws : ws = es) (hes : ∀ e ∈ es, TileWord e.1) (hnodup : (es.map (·.1)).Nodup)
    {seen : Bool} {z : State} (hz : settle x n c (launch x n { land := c, mem := ws, seen := seen } s) = z) :
    (∀ e ∈ es, peekWord (z.ld x) e.1 = mergeStore (peekWord (s.ld x) e.1) e.2.1 e.2.2)
    ∧ (∀ a, a % 8 = 0 → (∀ e ∈ es, a ≠ e.1) → peekWord (z.ld x) a = peekWord (s.ld x) a)
    ∧ z.ld x.other = s.ld x.other := by
  have hland : ∀ (r : PendRes) u, landCycle x n c [r] u
      = (landWords x c r.mem (u.modTile x n (landRegs · (markSeen (u.ld x) r)))).modTile x n (landFlags · (markSeen (u.ld x) r)) :=
    fun _ _ => rfl
  rw [settle_due (r := { land := c, mem := ws, seen := seen }) h le_rfl, hland] at hz
  subst hws hz
  refine ⟨fun e he => ?_, fun a ha hne => ?_, ?_⟩
  · rw [modTile_peekWord, landWords_self hes hnodup _ e he]
    simp [launch]
  · rw [modTile_peekWord, landWords_ne hes ha hne]
    simp [launch]
  · rw [modTile_other, landWords_other hes]
    simp [launch]

/-! ### The store syllables (03 R126 to R128) -/

theorem storeOp_inside {x : Side} {n cyc : Nat} {w : Word} {s : State} {o : Host.Outcome State Fault Refusal} {size : Nat} {src : Tile → List Pw}
    (ho : o = .next (storeOp size src x n cyc w s)) (hflight : (s.tile x n).flight = []) (h : guardOf (s.tile x n) w = .yes) {a : Pw}
    (ha : sylAddr (s.tile x n) w size = a) (hok : a.p = false ∧ a.v.toNat < 0x20000 ∧ a.v.toNat % size = 0) {ws : List Pw}
    (hws : src (s.tile x n) = ws) :
    o = .next (launch x n { land := cyc + 1, mem := storeWords (tileBase n + a.v.toNat) size ws, seen := ws.any (fun p => p.p) } s) := by
  obtain ⟨hp, hrule⟩ := hok
  have hrule' := (addrOk_iff a.v size).mpr hrule
  rw [ho]
  simp only [storeOp, settle_idle hflight, h, ha, hp, hrule', hws, reduceCtorEq, Bool.not_true, Bool.false_eq_true, if_false]

/-- The stores of one register, with their sizes. -/
def scalarStores : List ((Side → Nat → Nat → Word → Instr) × Nat) := [(.stb, 1), (.sth, 2), (.stw, 4), (.std, 8)]

theorem scalarStores_storeOp (x : Side) (n cyc : Nat) (w : Word) (s : State) :
    ∀ e ∈ scalarStores, exec (e.1 x n cyc w) s = .next (storeOp e.2 (fun t => [readG t (sylD w)]) x n cyc w s) := by
  simp only [scalarStores, List.forall_mem_cons, List.not_mem_nil, false_imp_iff, implies_true, and_true]
  exact ⟨rfl, rfl, rfl, rfl⟩

theorem scalarStores_size : ∀ e ∈ scalarStores, e.2 ≤ 8 := by
  simp [scalarStores]

theorem storeWords_one (ga : Nat) {size : Nat} (h : size ≤ 8) (u : Pw) :
    storeWords ga size [u] = [(ga / 8 * 8, storedBytes (ga % 8) size u.v, u.p)] := by
  simp [storeWords, storedBytes, Nat.min_eq_right h]

theorem storeWords_aligned {ga : Nat} (h : ga % 8 = 0) (f : Nat → Pw) :
    storeWords ga 32 ((List.range 4).map f) = (List.range 4).map (fun k => (ga + 8 * k, storedBytes 0 8 (f k).v, (f k).p)) := by
  simp [storeWords, storedBytes, h, List.range, List.range.loop, Nat.div_mul_cancel (Nat.dvd_of_mod_eq_zero h)]

/-- Settles O25: a store is one result in flight; its words are merged in its cycle, and nothing else is written. -/
theorem tileStores : Obligations.TileStores := by
  unfold Obligations.TileStores
  intro x n cyc w s hn hflight h addr ga ok src
  have hga : ∀ k, ga k = 0x20000000 + n * 0x20000 + (addr k).v.toNat := fun _ => rfl
  constructor
  · intro e he hok
    have hplace := hga e.2
    have ⟨_, hrange, halign⟩ := hok
    have htile : TileWord (ga e.2 / 8 * 8) := ⟨by omega, by omega, by omega⟩
    have hsize : e.2 ≤ 8 := scalarStores_size e he
    refine ⟨_, storeOp_inside (scalarStores_storeOp x n cyc w s e he) hflight h rfl hok rfl, modTile_other .., fun a => modTile_peekWord .., ?_⟩
    intro z
    obtain ⟨hself, hne, hother⟩ := store_lands hflight (storeWords_one (ga e.2) hsize src) (List.forall_mem_singleton.mpr htile)
      (List.nodup_singleton _) (z := z) rfl
    replace hself := List.forall_mem_singleton.mp hself
    refine ⟨fun i hi => ?_, fun hword => ?_, fun a ha _ hne' => hne a ha (List.forall_mem_singleton.mpr hne'), hother⟩
    · rw [hself]
      exact mergeBytes_stored _ _ hi
    · rw [hword] at halign hself hplace ⊢
      have hstart : ga 8 / 8 * 8 = ga 8 := by omega
      have hbyte : ga 8 % 8 = 0 := by omega
      rw [hstart, hbyte] at hself
      exact hself.trans (mergeStore_word ..)
  · intro hok
    have hplace := hga 32
    have ⟨_, hrange, halign⟩ := hok
    refine ⟨_, storeOp_inside rfl hflight h rfl hok rfl, ?_⟩
    intro z
    have htile : ∀ k ∈ List.range 4, TileWord (ga 32 + 8 * k) := fun k hk => by
      rw [List.mem_range] at hk
      exact ⟨by omega, by omega, by omega⟩
    have hnodup : ((List.range 4).map (fun k => ga 32 + 8 * k)).Nodup :=
      List.nodup_range.map fun j k hjk => by simpa using hjk
    have hmem := storeWords_aligned (ga := ga 32) (by omega) (readV (s.tile x n) (sylD w))
    obtain ⟨hself, hne, hother⟩ := store_lands hflight hmem (List.forall_mem_map.mpr htile) (by rwa [List.map_map]) (z := z) rfl
    replace hself := List.forall_mem_map.mp hself
    refine ⟨fun k hk => ?_, fun a ha _ hout => hne a ha (List.forall_mem_map.mpr fun k hk => ?_), hother⟩
    · exact (hself k (List.mem_range.mpr hk)).trans (mergeStore_word ..)
    · rw [List.mem_range] at hk
      dsimp only
      omega

end Sys2Proof.Machine
end

section
/-!
The clause of `LOOP` (03 R113, R132) fails on a tile whose fetch is lost.
-/
namespace Sys2Proof.Machine
set_option Elab.async false -- one proof at a time, as in the tests: the compile is close to its memory limit

theorem openLoop_lost {w : Word} {t : Tile} (h : t.lost = true) : (openLoop w t).loops = [] := by
  rw [openLoop, setLix, h]
  split <;> rfl

/-- A state whose tile 0 of landing A has lost its fetch, with no body open and no result in flight. -/
def lostTile : State := State.reset.modTile .A 0 fun _ => { lost := true }

/-- Refutes O26: a `LOOP` on a tile whose fetch is lost opens no body (03 R723, log entry 120), and the clause has no hypothesis that the fetch
is not lost. -/
theorem not_tilePrograms : ¬ Obligations.TilePrograms := by
  unfold Obligations.TilePrograms
  rintro ⟨hsyllables, _, _⟩
  have hlost : lostTile.tile .A 0 = { lost := true } := modTile_tile ..
  have hidle : settle .A 0 0 lostTile = lostTile := settle_idle (by rw [hlost]) 0
  obtain ⟨_, hloop, _⟩ := hsyllables .A 0 0 0 lostTile
  have hexec : exec (.loop .A 0 0 0) lostTile = .next ((settle .A 0 0 lostTile).modTile .A 0 (openLoop 0)) := rfl
  rw [hexec, hidle, hlost] at hloop
  have hstates := Host.Outcome.next.inj (hloop (by decide))
  have hloops := congrArg (fun t : State => (t.tile .A 0).loops) hstates
  simp only [modTile_tile, hlost, openLoop_lost] at hloops
  exact List.cons_ne_nil _ _ hloops.symm

end Sys2Proof.Machine
end

section
/-!
What an operation of one landing leaves (chapter 05): the other landing, the clock and the ticks; and of an operation beside the baseband, the
baseband itself and the running image.
-/
namespace Sys2Proof.Machine
set_option Elab.async false -- one proof at a time, as in the tests: the compile is close to its memory limit

/-! ### Operations that stay on their landing -/

/-- `t` comes from `s` by an operation of landing `x`: the other landing, the clock, the ticks and the mode are as they were. -/
def StaysOn (x : Side) (t s : State) : Prop := t.ld x.other = s.ld x.other ∧ t.now = s.now ∧ t.tick = s.tick ∧ t.mode = s.mode

theorem staysOn_refl (x : Side) (s : State) : StaysOn x s s := ⟨rfl, rfl, rfl, rfl⟩

theorem staysOn_trans {x : Side} {t u s : State} (h : StaysOn x t u) (k : StaysOn x u s) : StaysOn x t s := by
  obtain ⟨hother, hnow, htick, hmode⟩ := h
  obtain ⟨kother, know, ktick, kmode⟩ := k
  exact ⟨hother.trans kother, hnow.trans know, htick.trans ktick, hmode.trans kmode⟩

theorem staysOn_modLd (x : Side) (f : Landing → Landing) (s : State) : StaysOn x (s.modLd x f) s :=
  ⟨modLd_other .., modLd_now .., modLd_tick .., modLd_mode ..⟩

theorem staysOn_ite {c : Prop} [Decidable c] {x : Side} {t u s : State} (h : StaysOn x t s) (k : StaysOn x u s) :
    StaysOn x (if c then t else u) s := by
  split <;> assumption

theorem staysOn_raise (x : Side) (code detail : Nat) (s : State) : StaysOn x (raise (.landing x) code detail s) s :=
  ⟨raise_other .., raise_now .., raise_tick .., raise_mode ..⟩

theorem StaysOn.nowNs {x : Side} {t s : State} (h : StaysOn x t s) : t.nowNs = s.nowNs := congrArg (· / nsUnit) h.2.1

theorem StaysOn.grid {x : Side} {t s : State} (h : StaysOn x t s) (y : Side) : t.grid y = s.grid y := by
  obtain ⟨_, _, htick, _⟩ := h
  simp only [State.grid, htick]

/-! ### Each landing in turn -/

/-- A step of each landing that stays on it starts, on landing `x`, from that landing, clock and ticks as they were before both. -/
theorem eachSide_from {f : Side → State → State} (hf : ∀ y s, StaysOn y (f y s) s) (c : Side → Bool) (x : Side) (s : State) :
    ∃ u, u.ld x = s.ld x ∧ StaysOn x.other u s ∧ (eachSide c f s).ld x = (if c x then f x u else u).ld x := by
  cases x with
  | A =>
    refine ⟨s, rfl, staysOn_refl .., ?_⟩
    have hB : ∀ u, (if c .B then f .B u else u).ld .A = u.ld .A := by
      intro u
      obtain ⟨hother, _⟩ := staysOn_ite (c := c .B) (hf .B u) (staysOn_refl .B u)
      exact hother
    exact hB _
  | B =>
    have hA : StaysOn .A (if c .A then f .A s else s) s := staysOn_ite (hf .A s) (staysOn_refl .A s)
    exact ⟨_, hA.1, hA, rfl⟩

/-! ### The baseband under the other operations -/

@[simp] theorem raise_gns (src : Source) (code detail : Nat) (s : State) (x : Side) :
    ((raise src code detail s).ld x).gns = (s.ld x).gns := by rw [raise_ld]

@[simp] theorem raise_flash (src : Source) (code detail : Nat) (s : State) (x : Side) :
    ((raise src code detail s).ld x).flash = (s.ld x).flash := by rw [raise_ld]

/-- `t` comes from `s` by an operation of landing `x` that leaves the baseband and the running image. -/
def BesideGns (x : Side) (t s : State) : Prop :=
  StaysOn x t s ∧ (t.ld x).gns = (s.ld x).gns ∧ (t.ld x).fmn.img = (s.ld x).fmn.img

section
variable (x : Side)

theorem besideGns_refl (s : State) : BesideGns x s s := ⟨staysOn_refl .., rfl, rfl⟩

theorem besideGns_trans {x : Side} {t u s : State} (h : BesideGns x t u) (k : BesideGns x u s) : BesideGns x t s := by
  obtain ⟨hstays, hgns, himg⟩ := h
  obtain ⟨kstays, kgns, kimg⟩ := k
  exact ⟨staysOn_trans hstays kstays, hgns.trans kgns, himg.trans kimg⟩

theorem besideGns_modLd {f : Landing → Landing} (s : State) (hgns : ∀ l, (f l).gns = l.gns := by intro l; rfl)
    (himg : ∀ l, (f l).fmn.img = l.fmn.img := by intro l; rfl) :
    BesideGns x (s.modLd x f) s :=
  ⟨staysOn_modLd .., by rw [modLd_ld, hgns], by rw [modLd_ld, himg]⟩

theorem besideGns_ite {c : Prop} [Decidable c] {x : Side} {t u s : State} (h : BesideGns x t s) (k : BesideGns x u s) :
    BesideGns x (if c then t else u) s := by
  split <;> assumption

theorem besideGns_raise (code detail : Nat) (s : State) : BesideGns x (raise (.landing x) code detail s) s :=
  ⟨staysOn_raise .., raise_gns .., by rw [raise_fmn]⟩

theorem besideGns_raiseWithin (code detail key t window : Nat) (s : State) :
    BesideGns x (raiseWithin (.landing x) code detail key t window s) s := by
  unfold raiseWithin
  dsimp only
  exact besideGns_ite (besideGns_refl ..) (besideGns_trans (besideGns_raise ..) (by cases x <;> exact besideGns_refl ..))

theorem besideGns_raisePerSecond (code detail key : Nat) (s : State) : BesideGns x (raisePerSecond (.landing x) code detail key s) s :=
  besideGns_raiseWithin ..

/-! Reads (12 R451, R453, R462 to R466) -/

theorem besideGns_bucketAdd (s : State) : BesideGns x (bucketAdd x s) s :=
  besideGns_ite (besideGns_trans (besideGns_raise ..) (besideGns_modLd x s))
    (besideGns_modLd x s)

theorem besideGns_noteCorrected (kind a : Nat) (y : Byte) (s : State) : BesideGns x (noteCorrected x kind a y s) s :=
  besideGns_trans (besideGns_bucketAdd ..)
    (besideGns_trans (besideGns_raisePerSecond ..) (besideGns_modLd x s))

theorem besideGns_noteUncorrectable (kind a : Nat) (y : Byte) (s : State) : BesideGns x (noteUncorrectable x kind a y s) s :=
  besideGns_ite (besideGns_trans (besideGns_raise ..) (besideGns_modLd x s))
    (besideGns_trans (besideGns_raisePerSecond ..) (besideGns_modLd x s))

theorem besideGns_readEffects (a : Nat) (s : State) : BesideGns x (readEffects x a s) s := by
  unfold readEffects
  dsimp only
  split
  case h_1 | h_2 => exact besideGns_refl ..
  case h_3 =>
    exact besideGns_ite (besideGns_trans (besideGns_modLd x _) (besideGns_noteCorrected ..))
      (besideGns_noteCorrected ..)
  case h_4 => exact besideGns_noteUncorrectable ..

theorem besideGns_memReadN (a n : Nat) (s : State) : BesideGns x (memReadN x a n s).2 s := by
  induction n generalizing a s with
  | zero => exact besideGns_refl ..
  | succ n ih => exact besideGns_trans (ih ..) (besideGns_readEffects ..)

/-! Writes -/

theorem besideGns_memWrite (a : Nat) (w : Pw) (s : State) : BesideGns x (memWrite x a w s) s :=
  besideGns_modLd x s

theorem besideGns_memWriteN (a : Nat) (ws : List Pw) (s : State) : BesideGns x (memWriteN x a ws s) s := by
  induction ws generalizing a s with
  | nil => exact besideGns_refl ..
  | cons w ws ih => exact besideGns_trans (ih ..) (besideGns_memWrite ..)

theorem besideGns_putAt (t a : Nat) (ws : List Pw) (s : State) : BesideGns x (putAt x t a ws s) s := by
  induction ws generalizing a s with
  | nil => exact besideGns_refl ..
  | cons w ws ih =>
    exact besideGns_trans (ih ..) (besideGns_trans (besideGns_memWrite ..) (besideGns_modLd x s))

theorem besideGns_clearNew (i t : Nat) (s : State) : BesideGns x (clearNew x i t s) s :=
  besideGns_ite (besideGns_putAt ..) (besideGns_refl ..)

theorem besideGns_markIssued (k : Nat) (s : State) : BesideGns x (markIssued x k s) s :=
  besideGns_modLd x s

end

/-! ### Antennas, halves and steering changed -/

@[simp] theorem modAnt_ant (s : State) (x : Side) (a : Nat) (f : GnsAnt → GnsAnt) (b : Nat) :
    ((s.modAnt x a f).ld x).gns.ant b = if b = a then f ((s.ld x).gns.ant a) else (s.ld x).gns.ant b := by
  simp only [State.modAnt, modLd_ld, Gns.ant, Tab.get_upd]

theorem modHalf_half (s : State) (x : Side) (i : Nat) (f : GnsHalf → GnsHalf) (j : Nat) :
    Tab.get {} ((s.modHalf x i f).ld x).gns.halves j
      = if j = i then f (Tab.get {} (s.ld x).gns.halves i) else Tab.get {} (s.ld x).gns.halves j := by
  simp only [State.modHalf, modLd_ld, Tab.get_upd]

/-- A half changed is the table of the halves changed, and nothing else. -/
theorem modHalf_shape (s : State) (x : Side) (i : Nat) (f : GnsHalf → GnsHalf) :
    s.modHalf x i f = s.modLd x fun l => { l with gns := { l.gns with halves := ((s.modHalf x i f).ld x).gns.halves } } :=
  modLd_congr s x (by rw [State.modHalf, modLd_ld])

@[simp] theorem modSteer_steer (s : State) (x : Side) (f : Steer → Steer) : ((s.modSteer x f).ld x).gns.steer = f (s.ld x).gns.steer := by
  simp only [State.modSteer, modLd_ld]

/-! ### An operation that its dispatch entry starts (02 R71, R72) -/

theorem runEntry_started {x : Side} {unit op : Nat} {job cycle : Option Nat} {s : State} {k : Nat}
    (h : entryFor (s.ld x).fmn unit op job cycle = some k) (act : Nat → State → State) (at_ : Nat) :
    runEntry x unit op job cycle act (advance at_ s) = keepUndo x k (s.ld x) (act k (markIssued x k (advance at_ s))) := by
  simp only [runEntry, advance_ld, h]

end Sys2Proof.Machine
end

section
/-!
The correlator pass and the writes of its descriptors (05 R199, R201, R204, R206): what a pass makes of each half, and where a write goes.
-/
namespace Sys2Proof.Machine
set_option Elab.async false -- one proof at a time, as in the tests: the compile is close to its memory limit

/-! ### A half over samples (05 R199, R201) -/

/-- `z` is the half `h` after `n` samples in which no write took effect: its carrier NCO has advanced by its rate for each. -/
structure Carried (n : Nat) (z h : GnsHalf) : Prop where
  carPhase : z.carPhase = if n = 0 then h.carPhase else (h.carPhase + n * h.carRate) % 2 ^ 32
  carRate : z.carRate = h.carRate
  codeRate : z.codeRate = h.codeRate
  signal : z.signal = h.signal
  prn : z.prn = h.prn
  mode : z.mode = h.mode
  waiting : z.waiting = h.waiting

theorem carried_refl (h : GnsHalf) : Carried 0 h h := ⟨rfl, rfl, rfl, rfl, rfl, rfl, rfl⟩

theorem carried_trans {m n : Nat} {z u h : GnsHalf} (hz : Carried n z u) (hu : Carried m u h) : Carried (m + n) z h := by
  refine ⟨?_, hz.carRate.trans hu.carRate, hz.codeRate.trans hu.codeRate, hz.signal.trans hu.signal, hz.prn.trans hu.prn,
    hz.mode.trans hu.mode, hz.waiting.trans hu.waiting⟩
  rw [hz.carPhase, hu.carRate, hu.carPhase]
  rcases Nat.eq_zero_or_pos n with rfl | hn
  · simp
  · rcases Nat.eq_zero_or_pos m with rfl | hm
    · simp
    · rw [if_neg hn.ne', if_neg hm.ne', if_neg (by omega), Nat.mod_add_mod, Nat.add_mul, Nat.add_assoc]

theorem carried_ite {c : Prop} [Decidable c] {n : Nat} {z u h : GnsHalf} (hz : Carried n z h) (hu : Carried n u h) :
    Carried n (if c then z else u) h := by
  split <;> assumption

/-- The marks of the running integration are no settings. -/
theorem carried_flags (h : GnsHalf) (gap disabled spoilt : Bool) :
    Carried 0 { h with gap := gap, disabled := disabled, spoilt := spoilt } h :=
  ⟨rfl, rfl, rfl, rfl, rfl, rfl, rfl⟩

/-- One sample steps the carrier once. -/
theorem correlate_carried (iq : Int × Int) (h : GnsHalf) : Carried 1 (correlate iq h) h :=
  ⟨by simp [correlate], rfl, rfl, rfl, rfl, rfl, rfl⟩

/-- A boundary with no write waiting leaves the carrier and the settings. -/
theorem closeIntegration_carried {h : GnsHalf} (hw : h.waiting = []) : Carried 0 (closeIntegration h) h := by
  unfold closeIntegration
  simp only [hw, List.foldl_nil]
  exact carried_ite ⟨rfl, rfl, rfl, rfl, rfl, rfl, hw.symm⟩ ⟨rfl, rfl, rfl, rfl, rfl, rfl, hw.symm⟩

theorem runHalf_carried (i base : Nat) (vs : List (Option (Int × Int))) (j : Nat) (dis : Bool) {h : GnsHalf} (hw : h.waiting = [])
    (r : Option (Nat × List Pw)) : Carried vs.length (runHalf i base vs j dis h r).1 h := by
  induction vs generalizing j h r with
  | nil => exact carried_refl h
  | cons v vs ih =>
    have hclosed : Carried 0 (if h.hit then closeIntegration h else h) h := carried_ite (closeIntegration_carried hw) (carried_refl h)
    have hstep : ∀ iq g d, Carried 1 (correlate iq { (if h.hit then closeIntegration h else h) with gap := g, disabled := d }) h :=
      fun iq g d => carried_trans (carried_trans (correlate_carried iq _) (carried_flags _ g d _)) hclosed
    rw [List.length_cons, Nat.add_comm]
    exact carried_trans (ih _ ((hstep _ _ _).waiting.trans hw) _) (hstep _ _ _)

/-! ### A half in a pass (05 R204, R206) -/

/-- Half `i` after a pass over the samples `bs` of its antenna `t`. -/
def passed (m : Tab Byte) (t : GnsAnt) (bs : List Byte) (i : Nat) (h : GnsHalf) : GnsHalf :=
  let h := applyArmed (mergeSlews h.armed) false h
  if h.mode = 0 then h
  else (runHalf i t.prev (bandSamples m (i / 128) (i % 2 = 1) (t.mark - t.prev) t.skip bs) 0 t.wasOff
    { h with gap := h.gap || t.mark - t.prev = 0, spoilt := h.spoilt || (t.bad && !t.wasOff) } none).1

theorem bandSamples_length (m : Tab Byte) (a : Nat) (lower : Bool) (n : Nat) (skip : Bool) (bs : List Byte) :
    (bandSamples m a lower n skip bs).length = n := by
  rw [bandSamples, List.length_map, List.length_range]

/-- With no write taken at the tick, nothing is applied at the first sample. -/
theorem applyArmed_none {h : GnsHalf} (ha : h.armed = []) : applyArmed (mergeSlews h.armed) false h = h := by
  rw [ha, mergeSlews, applyArmed, ← ha]

theorem passed_off {h : GnsHalf} (ha : h.armed = []) (hm : h.mode = 0) (m : Tab Byte) (t : GnsAnt) (bs : List Byte) (i : Nat) :
    passed m t bs i h = h := by
  simp only [passed, applyArmed_none ha, hm, if_true]

theorem passed_carried {h : GnsHalf} (ha : h.armed = []) (hm : h.mode ≠ 0) (hw : h.waiting = []) (m : Tab Byte) (t : GnsAnt) (bs : List Byte)
    (i : Nat) : Carried (t.mark - t.prev) (passed m t bs i h) h := by
  simp only [passed, applyArmed_none ha, hm, if_false]
  have hrun := runHalf_carried i t.prev (bandSamples m (i / 128) (i % 2 = 1) (t.mark - t.prev) t.skip bs) 0 t.wasOff
    (h := { h with gap := h.gap || t.mark - t.prev = 0, spoilt := h.spoilt || (t.bad && !t.wasOff) }) hw none
  rw [bandSamples_length] at hrun
  have hall := carried_trans hrun (carried_flags h _ h.disabled _)
  rwa [Nat.zero_add] at hall

/-- A pass over one half changes that half, beside the records it stores. -/
theorem passHalf_beside (x : Side) (c : Nat) (bs : List Byte) (i : Nat) (s : State) :
    BesideGns x (passHalf x c bs i s) (s.modHalf x i fun _ =>
      passed (s.ld x).fmn.img ((s.ld x).gns.ant (i / 128)) bs i (Tab.get {} (s.ld x).gns.halves i)) := by
  unfold passHalf passed
  dsimp only
  split
  · exact besideGns_clearNew ..
  · split
    · exact besideGns_putAt ..
    · exact besideGns_clearNew ..

/-! ### The pass over the halves (05 R204) -/

/-- The halves of `ns` run through one pass, each over the samples of its antenna. -/
theorem foldl_passHalf (x : Side) (c : Nat) (a b : List Byte) (ns : List Nat) (hns : ns.Nodup) (s : State) :
    let t := ns.foldl (fun s i => passHalf x c (if i < 128 then a else b) i s) s
    StaysOn x t s ∧ (t.ld x).gns.ants = (s.ld x).gns.ants ∧ ∀ i, Tab.get {} (t.ld x).gns.halves i =
      if i ∈ ns then
        passed (s.ld x).fmn.img ((s.ld x).gns.ant (i / 128)) (if i < 128 then a else b) i (Tab.get {} (s.ld x).gns.halves i)
      else Tab.get {} (s.ld x).gns.halves i := by
  induction ns generalizing s with
  | nil => exact ⟨staysOn_refl .., rfl, fun i => by simp⟩
  | cons n ns ih =>
    obtain ⟨hn, hns⟩ := List.nodup_cons.mp hns
    obtain ⟨hstays, hgns, himg⟩ := passHalf_beside x c (if n < 128 then a else b) n s
    simp only [List.foldl_cons]
    generalize passHalf x c (if n < 128 then a else b) n s = u at hstays hgns himg ⊢
    obtain ⟨istays, iants, ihalves⟩ := ih hns u
    have hants : (u.ld x).gns.ants = (s.ld x).gns.ants := by rw [hgns, State.modHalf, modLd_ld]
    have himg : (u.ld x).fmn.img = (s.ld x).fmn.img := by rw [himg, State.modHalf, modLd_ld]
    have hant : ∀ k, (u.ld x).gns.ant k = (s.ld x).gns.ant k := fun k => by rw [Gns.ant, hants, Gns.ant]
    refine ⟨staysOn_trans istays (staysOn_trans hstays (staysOn_modLd ..)), iants.trans hants, fun i => ?_⟩
    rw [ihalves, himg, hant, hgns, modHalf_half]
    by_cases hi : i = n
    · subst hi
      simp [hn]
    · simp [hi]

theorem countMag_stays (x : Side) (k : Nat) (bs : List Byte) (s : State) : StaysOn x (countMag x k bs s) s := staysOn_modLd ..

theorem countMag_halves (x : Side) (k : Nat) (bs : List Byte) (s : State) :
    ((countMag x k bs s).ld x).gns.halves = (s.ld x).gns.halves ∧ ((countMag x k bs s).ld x).fmn.img = (s.ld x).fmn.img := by
  simp only [countMag, State.modAnt, modLd_ld, and_self]

/-- The magnitude bits counted, two of each sample byte; the marks stand. -/
theorem countMag_ant (x : Side) (k : Nat) (bs : List Byte) (s : State) (b : Nat) :
    (((countMag x k bs s).ld x).gns.ant b).total = ((s.ld x).gns.ant b).total + (if b = k then 2 * bs.length else 0)
      ∧ (((countMag x k bs s).ld x).gns.ant b).mark = ((s.ld x).gns.ant b).mark
      ∧ (((countMag x k bs s).ld x).gns.ant b).prev = ((s.ld x).gns.ant b).prev := by
  simp only [countMag, modAnt_ant]
  by_cases hb : b = k
  · subst hb
    simp
  · simp [hb]

/-- What a pass leaves (05 R199, R204, R227): the counts of both antennas, and every half run through the samples between its antenna's
last two marks. -/
theorem gnsPass_leaves (x : Side) (c : Nat) (a b : List Byte) (s : State) :
    StaysOn x (gnsPass x c a b s) s
      ∧ (((gnsPass x c a b s).ld x).gns.ant 0).total = ((s.ld x).gns.ant 0).total + 2 * a.length
      ∧ (((gnsPass x c a b s).ld x).gns.ant 1).total = ((s.ld x).gns.ant 1).total + 2 * b.length
      ∧ ∀ i < 256, ∃ t : GnsAnt, t.mark = ((s.ld x).gns.ant (i / 128)).mark ∧ t.prev = ((s.ld x).gns.ant (i / 128)).prev
          ∧ Tab.get {} ((gnsPass x c a b s).ld x).gns.halves i
            = passed (s.ld x).fmn.img t (if i < 128 then a else b) i (Tab.get {} (s.ld x).gns.halves i) := by
  obtain ⟨hhalvesA, himgA⟩ := countMag_halves x 0 a s
  obtain ⟨hhalvesB, himgB⟩ := countMag_halves x 1 b (countMag x 0 a s)
  have hcounted : StaysOn x (countMag x 1 b (countMag x 0 a s)) s := staysOn_trans (countMag_stays ..) (countMag_stays ..)
  have hantA := countMag_ant x 0 a s
  have hantB := countMag_ant x 1 b (countMag x 0 a s)
  unfold gnsPass
  dsimp only
  generalize countMag x 1 b (countMag x 0 a s) = u at hcounted hhalvesB himgB hantB
  obtain ⟨hstays, hants, hhalves⟩ := foldl_passHalf x c a b (List.range 256) List.nodup_range u
  generalize (List.range 256).foldl (fun s i => passHalf x c (if i < 128 then a else b) i s) u = v at hstays hants hhalves
  have hant : ∀ k, (v.ld x).gns.ant k = (u.ld x).gns.ant k := fun k => by rw [Gns.ant, hants, Gns.ant]
  refine ⟨staysOn_trans (staysOn_modLd ..) (staysOn_trans (staysOn_modLd ..) (staysOn_trans hstays hcounted)), ?_, ?_, fun i hi => ?_⟩
  · simp [hant, hantA, hantB]
  · simp [hant, hantA, hantB]
  · refine ⟨(u.ld x).gns.ant (i / 128), (hantB _).2.1.trans (hantA _).2.1, (hantB _).2.2.trans (hantA _).2.2, ?_⟩
    simp only [State.modAnt, modLd_ld]
    rw [hhalves, if_pos (List.mem_range.mpr hi), hhalvesB, hhalvesA, himgB, himgA]

/-! ### A descriptor written (05 R206, R208) -/

section
variable {x : Side} {e : Nat} {s u : State} {ws : List Pw} (hr : memReadN x (0x3004D000 + 32 * (e % 64)) 4 s = (ws, u))
include hr

theorem gnsWriteOp_poisoned (hp : ws.any (fun w => w.p) = true) : gnsWriteOp x e s = raise (.landing x) 0x0406 e u := by
  simp only [gnsWriteOp, hr, hp, if_true]

/-- The half that a descriptor names. -/
def halfOf (d : List Byte) : Nat := 128 * (dFld d 1 1 / 2 % 2) + 2 * (dFld d 0 1 % 64) + dFld d 1 1 % 2

theorem gnsWriteOp_range (hp : ws.any (fun w => w.p) = false)
    (hok : gnsWriteOk (u.ld x).fmn.img (ofWords ws) (Tab.get {} (u.ld x).gns.halves (halfOf (ofWords ws))).eff = false) :
    gnsWriteOp x e s = raisePerCrossing x 0x0405 e 0 u := by
  unfold halfOf at hok
  simp only [gnsWriteOp, hr, hp, hok, Bool.false_eq_true, if_false]

theorem gnsWriteOp_queued (hp : ws.any (fun w => w.p) = false)
    (hok : gnsWriteOk (u.ld x).fmn.img (ofWords ws) (Tab.get {} (u.ld x).gns.halves (halfOf (ofWords ws))).eff = true) :
    gnsWriteOp x e s = u.modHalf x (halfOf (ofWords ws)) fun h =>
      { h with queued := h.queued ++ [ofWords ws], eff := if dMask (ofWords ws) 0 then dFld (ofWords ws) 4 1 else h.eff } := by
  unfold halfOf at hok ⊢
  simp only [gnsWriteOp, hr, hp, hok, Bool.false_eq_true, if_false, if_true]

end

/-- Settles O32: a pass runs each half through its samples once, and a write queues its descriptor on the half it names. -/
theorem gnssCorrelates : Obligations.GnssCorrelates := by
  unfold Obligations.GnssCorrelates
  intro at_ e x a b s
  refine ⟨fun k hk => ?_, fun k hk => ?_⟩
  · obtain ⟨⟨hother, _, _, hmode⟩, htotalA, htotalB, hhalves⟩ :=
      gnsPass_leaves x (entryCycle ((markIssued x k (advance at_ s)).ld x).fmn k) a b (markIssued x k (advance at_ s))
    obtain ⟨⟨kother, _, _, kmode⟩, kgns, _⟩ := besideGns_markIssued x k (advance at_ s)
    rw [kgns, advance_ld] at htotalA htotalB hhalves
    refine ⟨_, congrArg Host.Outcome.next (runEntry_started hk _ at_), (hother.trans kother).trans (advance_ld ..),
      (hmode.trans kmode).trans (advance_mode ..), htotalA, htotalB, ?_⟩
    intro i hi h z n harmed
    obtain ⟨t, hmark, hprev, hz⟩ := hhalves i hi
    refine ⟨fun hoff => hz.trans (passed_off harmed hoff ..), fun hon hwait => ?_⟩
    have hrun := passed_carried harmed hon hwait ((markIssued x k (advance at_ s)).ld x).fmn.img t (if i < 128 then a else b) i
    rw [← hz, hmark, hprev] at hrun
    exact ⟨hrun.carPhase, hrun.carRate, hrun.codeRate, hrun.signal, hrun.prn, hrun.mode⟩
  · have hexec : exec (.gnsWrite at_ x e) s = .next (keepUndo x k (s.ld x) (gnsWriteOp x e (markIssued x k (advance at_ s)))) :=
      congrArg Host.Outcome.next (runEntry_started hk _ at_)
    obtain ⟨_, hgns, himg⟩ := besideGns_trans (besideGns_memReadN x (0x3004D000 + 32 * (e % 64)) 4 (markIssued x k (advance at_ s)))
      (besideGns_markIssued x k (advance at_ s))
    rw [advance_ld] at hgns himg
    rw [hexec]
    intro r d i h
    refine ⟨fun hp => ?_, fun hp hok => ?_, fun hp hok => ?_⟩
    · rw [gnsWriteOp_poisoned (Prod.eta r).symm hp]
    · rw [gnsWriteOp_range (Prod.eta r).symm hp (by rw [hgns, himg]; exact hok)]
    · rw [gnsWriteOp_queued (Prod.eta r).symm hp (by rw [hgns, himg]; exact hok)]
      refine ⟨_, rfl, ?_, fun j hj => ?_, ?_⟩
      · rw [modHalf_half, if_pos (show i = halfOf (ofWords r.1) from rfl), hgns]
        rfl
      · rw [modHalf_half, if_neg (show j ≠ halfOf (ofWords r.1) from hj), hgns]
      · exact modHalf_shape ..

end Sys2Proof.Machine
end

section
/-!
Time-pulse steering (05 R216 to R219): the records offered, the commits, the outputs and the holdover.
-/
namespace Sys2Proof.Machine
set_option Elab.async false -- one proof at a time, as in the tests: the compile is close to its memory limit

theorem staysOn_modSteer (x : Side) (f : Steer → Steer) (s : State) : StaysOn x (s.modSteer x f) s := staysOn_modLd ..

theorem staysOn_lockSteer (x : Side) (step : Bool) (s : State) : StaysOn x (lockSteer x step s) s :=
  staysOn_trans (staysOn_raise ..) (staysOn_modSteer ..)

/-! ### A record offered (05 R216, R217) -/

theorem staysOn_steerRecord (x : Side) (y : Int) (tm : Nat) (sigma : F32) (s : State) : StaysOn x (steerRecord x y tm sigma s) s := by
  unfold steerRecord
  dsimp only
  split
  case h_1 => exact staysOn_ite (staysOn_trans (staysOn_lockSteer ..) (staysOn_modSteer ..)) (staysOn_modSteer ..)
  case h_2 => exact staysOn_ite (staysOn_modSteer ..) (besideGns_raisePerSecond ..).1
  case h_3 =>
    refine staysOn_ite (staysOn_ite ?_ ?_) (staysOn_modSteer ..)
    · exact staysOn_trans (staysOn_modSteer ..) (staysOn_modSteer ..)
    · exact staysOn_trans (staysOn_lockSteer ..) (staysOn_trans (staysOn_modSteer ..) (staysOn_modSteer ..))
  case h_4 => exact staysOn_modSteer ..

theorem candidate_start {t : Steer} (h : t.run = 0) (m : Tab Byte) (y : Int) (tm : Nat) (gated : Bool) :
    candidate m y tm gated t = { t with co := y, cr := 0, ct := tm, run := 1 } := by
  simp [candidate, h]

/-- In FREE the first record of a run starts the candidate. -/
theorem steerRecord_first {x : Side} {s : State} (h0 : (s.ld x).gns.steer.state = 0) (hr : (s.ld x).gns.steer.run = 0) (y : Int) (tm : Nat)
    (sigma : F32) :
    ((steerRecord x y tm sigma s).ld x).gns.steer
      = { (s.ld x).gns.steer with co := y, cr := 0, ct := tm, run := 1, sigma := sigma, lastAcc := s.nowNs } := by
  unfold steerRecord
  simp only [h0]
  rw [if_neg (by rw [modSteer_steer, candidate_start hr]; exact (by decide : ¬10 ≤ 1)), modSteer_steer, candidate_start hr]
  simp only [h0]

/-- In LOCKED a record outside the gate is only reported. -/
theorem steerRecord_outside {x : Side} {s : State} {y : Int} {tm : Nat} (h1 : (s.ld x).gns.steer.state = 1)
    (hg : inGate (s.ld x).fmn.img (y - carryOff (s.ld x).gns.steer.o (s.ld x).gns.steer.r (s.ld x).gns.steer.t tm) = false) (sigma : F32) :
    steerRecord x y tm sigma s = raisePerSecond (.landing x) 0x0413 0 0 s := by
  unfold steerRecord
  simp only [h1, hg, Bool.false_eq_true, if_false]

/-! ### TSOL (05 R216) -/

/-- The record `d` kept as its antenna's latest position. -/
def withPos (x : Side) (d : List Byte) (s : State) : State :=
  s.modLd x fun l => { l with gns := { l.gns with pos := Tab.set [] l.gns.pos (dFld d 0x60 1 % 2) d } }

theorem withPos_ld (x : Side) (d : List Byte) (s : State) :
    ((withPos x d s).ld x).gns.steer = (s.ld x).gns.steer ∧ ((withPos x d s).ld x).fmn.img = (s.ld x).fmn.img := by
  rw [withPos, modLd_ld]
  exact ⟨rfl, rfl⟩

theorem staysOn_withPos (x : Side) (d : List Byte) (s : State) : StaysOn x (withPos x d s) s := staysOn_modLd ..

/-- The words of a time solution make a record that the steering may use, but for the gate. -/
def Usable (m : Tab Byte) (ws : List Pw) : Prop :=
  ws.any (fun w => w.p) = false ∧ bitOf (dFld (ofWords ws) 0x64 2) 0 = true ∧ bitOf (dFld (ofWords ws) 0x64 2) 2 = false
    ∧ F32.le (BitVec.ofNat 32 (dFld (ofWords ws) 0x5C 4)) (cfg32 m 0x3C) = true

/-- The offset that a time solution gives. -/
def solOffset (d : List Byte) : Int := sval 64 (dFld d 0x40 8) * 2 ^ 32 + toOff (F32.widen (BitVec.ofNat 32 (dFld d 0x48 4)))

section
variable {x : Side} {s u : State} {ws : List Pw} (hr : memReadN x 0x3004D800 16 s = (ws, u))
include hr

theorem tsolOp_usable (h : Usable (u.ld x).fmn.img ws) :
    tsolOp x s = steerRecord x (solOffset (ofWords ws)) (dFld (ofWords ws) 0 8) (BitVec.ofNat 32 (dFld (ofWords ws) 0x5C 4))
      (withPos x (ofWords ws) u) := by
  obtain ⟨hp, hvalid, hbad, hsigma⟩ := h
  unfold tsolOp
  simp only [hr, hp, hvalid, hbad, hsigma, Bool.not_true, Bool.not_false, Bool.and_self, Bool.or_self, Bool.false_eq_true, if_true, if_false]
  rfl

theorem tsolOp_unusable (h : ¬Usable (u.ld x).fmn.img ws) :
    ((tsolOp x s).ld x).gns.steer
      = if (u.ld x).gns.steer.state = 0 ∨ (u.ld x).gns.steer.state = 2 then { (u.ld x).gns.steer with run := 0 } else (u.ld x).gns.steer := by
  have hkept : ∀ c : Bool, ((if c then withPos x (ofWords ws) u else u).ld x).gns.steer = (u.ld x).gns.steer := by
    intro c
    split
    · exact (withPos_ld ..).1
    · rfl
  have hnot : (ws.any (fun w => w.p) || !bitOf (dFld (ofWords ws) 0x64 2) 0 || bitOf (dFld (ofWords ws) 0x64 2) 2
      || !F32.le (BitVec.ofNat 32 (dFld (ofWords ws) 0x5C 4)) (cfg32 (u.ld x).fmn.img 0x3C)) = true := by
    simpa [Usable, or_assoc, imp_iff_not_or] using h
  unfold withPos at hkept
  simp only [tsolOp, hr, hnot, if_true, modSteer_steer, hkept, Bool.or_eq_true, decide_eq_true_eq]

theorem staysOn_tsolOp : StaysOn x (tsolOp x s) u := by
  have hpos : ∀ c : Bool, StaysOn x (if c then withPos x (ofWords ws) u else u) u :=
    fun c => staysOn_ite (staysOn_withPos ..) (staysOn_refl ..)
  unfold tsolOp
  simp only [hr]
  exact staysOn_ite (staysOn_trans (staysOn_modSteer ..) (hpos _)) (staysOn_trans (staysOn_steerRecord ..) (hpos _))

end

/-- What TSOL leaves of the steering, from a landing and a clock as they stood before it. -/
theorem tsolOp_leaves (x : Side) (k : Nat) (s : State) :
    let r := memReadN x 0x3004D800 16 (markIssued x k s)
    let d := ofWords r.1
    let t := (s.ld x).gns.steer
    let m := (s.ld x).fmn.img
    let z := ((tsolOp x (markIssued x k s)).ld x).gns.steer
    (tsolOp x (markIssued x k s)).ld x.other = r.2.ld x.other
      ∧ (Usable m r.1 → t.state = 0 → t.run = 0 → z = { t with
          co := solOffset d, cr := 0, ct := dFld d 0 8, run := 1, sigma := BitVec.ofNat 32 (dFld d 0x5C 4), lastAcc := s.nowNs })
      ∧ (¬Usable m r.1 → z = if t.state = 0 ∨ t.state = 2 then { t with run := 0 } else t)
      ∧ (Usable m r.1 → t.state = 1 → inGate m (solOffset d - carryOff t.o t.r t.t (dFld d 0 8)) = false → z = t) := by
  intro r d t m z
  have hr : memReadN x 0x3004D800 16 (markIssued x k s) = (r.1, r.2) := rfl
  obtain ⟨hstays, hgns, himg⟩ : BesideGns x r.2 s := besideGns_trans (besideGns_memReadN ..) (besideGns_markIssued ..)
  obtain ⟨hpsteer, hpimg⟩ := withPos_ld x d r.2
  have hsteer : ((withPos x d r.2).ld x).gns.steer = t := by rw [hpsteer, hgns]
  have hm : ((withPos x d r.2).ld x).fmn.img = m := by rw [hpimg, himg]
  have hnow : (withPos x d r.2).nowNs = s.nowNs := (staysOn_withPos x d r.2).nowNs.trans hstays.nowNs
  obtain ⟨hother, _⟩ := staysOn_tsolOp hr
  refine ⟨hother, fun hu h0 hrun => ?_, fun hu => ?_, fun hu h1 hg => ?_⟩
  · have hfirst := steerRecord_first (x := x) (s := withPos x d r.2) (by rw [hsteer]; exact h0) (by rw [hsteer]; exact hrun)
      (solOffset d) (dFld d 0 8) (BitVec.ofNat 32 (dFld d 0x5C 4))
    rw [hsteer, hnow] at hfirst
    exact (congrArg (fun v : State => (v.ld x).gns.steer) (tsolOp_usable hr (by rwa [himg]))).trans hfirst
  · have hbroken := tsolOp_unusable hr (by rwa [himg])
    rwa [hgns] at hbroken
  · have hout := steerRecord_outside (x := x) (s := withPos x d r.2) (y := solOffset d) (tm := dFld d 0 8) (by rw [hsteer]; exact h1)
      (by rw [hsteer, hm]; exact hg) (BitVec.ofNat 32 (dFld d 0x5C 4))
    obtain ⟨_, hraise, _⟩ := besideGns_raisePerSecond x 0x0413 0 0 (withPos x d r.2)
    refine (congrArg (fun v : State => (v.ld x).gns.steer) ((tsolOp_usable hr (by rwa [himg])).trans hout)).trans ?_
    exact (congrArg Gns.steer hraise).trans hsteer

/-! ### Commits (05 R218) -/

theorem emitted_locked {t : Steer} (h : t.state = 1) (now : Nat) : emitted t now = t.o := by
  simp [emitted, h]

theorem nextLabel_after {t : Steer} {n : Nat} (hl : t.label = some n) (hs : t.stepNext = false) (oe : Int) : nextLabel t oe = n + 1 := by
  simp [nextLabel, hl, hs]

theorem pulsesRun_steered {t : Steer} (h : t.state ≠ 0) (m : Tab Byte) : pulsesRun m t = true := by
  simp [pulsesRun, h]

/-- The steering after the commit, at the offset `o`, of the pulse after that of second `n`. -/
def committed (n : Nat) (o : Int) (t : Steer) : Steer :=
  { t with edge := roundDiv ((n + 1) * secOff + o) (2 ^ 32), label := some (n + 1), flags := 0, stepNext := false, oe := o,
           pulses := (t.pulses + 1) % 65536 }

theorem staysOn_commitStep (x : Side) (s : State) : StaysOn x (commitStep x s) s := by
  unfold commitStep
  dsimp only
  refine staysOn_ite (staysOn_refl ..) (staysOn_ite (staysOn_refl ..) ?_)
  refine staysOn_trans (staysOn_ite (staysOn_lockSteer ..) (staysOn_refl ..)) ?_
  refine staysOn_trans (staysOn_ite (staysOn_raise ..) (staysOn_refl ..)) ?_
  exact staysOn_trans (besideGns_memWriteN ..).1 (staysOn_modSteer ..)

section
variable {x : Side} {s : State} {n : Nat} (hpart : (enginePart (s.ld x).fmn.img 4).isSome = true) (hrun : (s.ld x).fmn.running = true)
  (hstate : (s.ld x).gns.steer.state = 1) (hstep : (s.ld x).gns.steer.stepNext = false) (hlabel : (s.ld x).gns.steer.label = some n)
include hpart hrun hstate hstep hlabel

omit hpart hrun in
theorem commitStep_early
    (h : (((s.grid x).last / nsUnit : Nat) : Int) * 2 ^ 32 < (n + 1) * secOff + (s.ld x).gns.steer.o - secOff / 5) : commitStep x s = s := by
  unfold commitStep
  simp only [emitted_locked hstate, nextLabel_after hlabel hstep]
  rw [if_pos h, ite_self]

theorem commitStep_due
    (h : (n + 1) * secOff + (s.ld x).gns.steer.o - secOff / 5 ≤ (((s.grid x).last / nsUnit : Nat) : Int) * 2 ^ 32) :
    ∃ ws, commitStep x s = memWriteN x 0x3004C040 ws (s.modSteer x (committed n (s.ld x).gns.steer.o)) := by
  have hruns : ¬((enginePart (s.ld x).fmn.img 4).isNone || !(s.ld x).fmn.running || !pulsesRun (s.ld x).fmn.img (s.ld x).gns.steer) = true := by
    simp [Option.isSome_iff_ne_none.mp hpart, hrun, pulsesRun_steered (t := (s.ld x).gns.steer) (by omega)]
  unfold commitStep
  simp only [emitted_locked hstate, nextLabel_after hlabel hstep]
  rw [if_neg hruns, if_neg (not_lt.mpr h)]
  simp only [hstate, hstep, Bool.false_and, Bool.false_eq_true, if_false, OfNat.one_ne_ofNat, one_ne_zero, decide_false, b2n]
  exact ⟨_, rfl⟩

theorem commitStep_steer
    (h : (n + 1) * secOff + (s.ld x).gns.steer.o - secOff / 5 ≤ (((s.grid x).last / nsUnit : Nat) : Int) * 2 ^ 32) :
    ((commitStep x s).ld x).gns.steer = committed n (s.ld x).gns.steer.o (s.ld x).gns.steer := by
  obtain ⟨ws, hws⟩ := commitStep_due hpart hrun hstate hstep hlabel h
  obtain ⟨_, hgns, _⟩ := besideGns_memWriteN x 0x3004C040 ws (s.modSteer x (committed n (s.ld x).gns.steer.o))
  rw [hws, hgns, modSteer_steer]

end

/-! ### Outputs (05 R219) -/

section
variable {i : Nat} {s : State}

theorem pulseOut_waits (h : (s.nowNs : Int) < sval 64 (dFld s.tp.word 0 8) + sval 32 (gnsCfg (s.ld s.lead).fmn.img (0x20 + 4 * i) 4)
    ∨ Tab.get 0 s.tp.driven i = dFld s.tp.word 8 8 + 1) : pulseOut i s = s := by
  unfold pulseOut
  dsimp only
  refine if_pos ?_
  rcases h with h | h <;> simp [h]

/-- The pulse of the committed label on output `i`. -/
def pulseDriven (i : Nat) (s : State) : TimePulse :=
  let g := gnsCfg (s.ld s.lead).fmn.img
  let e := (sval 64 (dFld s.tp.word 0 8) + sval 32 (g (0x20 + 4 * i) 4)).toNat
  { s.tp with
    driven := Tab.set 0 s.tp.driven i (dFld s.tp.word 8 8 + 1), rise := Tab.set 0 s.tp.rise i e,
    fall := Tab.set 0 s.tp.fall i (e + 1000 * g (0x18 + 4 * i) 4), low := Tab.set false s.tp.low i (bitOf (g (0x14 + i) 1) 1),
    short := Tab.set false s.tp.short i false }

theorem pulseDriven_output (i : Nat) (s : State) :
    let g := gnsCfg (s.ld s.lead).fmn.img
    let e := (sval 64 (dFld s.tp.word 0 8) + sval 32 (g (0x20 + 4 * i) 4)).toNat
    (pulseDriven i s).word = s.tp.word ∧ Tab.get 0 (pulseDriven i s).rise i = e
      ∧ Tab.get 0 (pulseDriven i s).fall i = e + 1000 * g (0x18 + 4 * i) 4 ∧ Tab.get 0 (pulseDriven i s).driven i = dFld s.tp.word 8 8 + 1
      ∧ Tab.get false (pulseDriven i s).low i = bitOf (g (0x14 + i) 1) 1 := by
  simp [pulseDriven]

theorem pulseOut_drives (hw : s.tp.word ≠ []) (hon : bitOf (gnsCfg (s.ld s.lead).fmn.img (0x14 + i) 1) 0 = true)
    (hfree : bitOf (dFld s.tp.word 0x15 1) 3 = false) (hnew : Tab.get 0 s.tp.driven i ≠ dFld s.tp.word 8 8 + 1)
    (h : sval 64 (dFld s.tp.word 0 8) + sval 32 (gnsCfg (s.ld s.lead).fmn.img (0x20 + 4 * i) 4) ≤ (s.nowNs : Int)) :
    pulseOut i s = { s with tp := pulseDriven i s } := by
  unfold pulseOut
  dsimp only
  refine if_neg ?_
  simp [hw, hon, hfree, hnew, h]

end

/-! ### Holdover (05 R217) -/

theorem staysOn_holdoverStep (x : Side) (s : State) : StaysOn x (holdoverStep x s) s :=
  staysOn_ite (staysOn_trans (staysOn_raise ..) (staysOn_modSteer ..)) (staysOn_refl ..)

theorem holdoverStep_leaves_locked {x : Side} {s : State} (h1 : (s.ld x).gns.steer.state = 1)
    (h : (s.ld x).gns.steer.lastAcc + 2000000000 ≤ s.nowNs) :
    ((holdoverStep x s).ld x).gns.steer = { (s.ld x).gns.steer with state := 2, run := 0, limitHit := false } := by
  unfold holdoverStep
  dsimp only
  rw [if_pos (by simp [h1, secNs, h]), raise_gns, modSteer_steer, if_neg (by omega)]

theorem holdoverStep_waits {x : Side} {s : State} (h : s.nowNs < (s.ld x).gns.steer.lastAcc + 2000000000 ∨ (s.ld x).gns.steer.state = 0
    ∨ (s.ld x).gns.steer.state = 2) : holdoverStep x s = s := by
  unfold holdoverStep
  dsimp only
  refine if_neg ?_
  rcases h with h | h | h
  · have hearly : ¬(s.ld x).gns.steer.lastAcc + 2 * secNs ≤ s.nowNs := not_le.mpr h
    simp [hearly]
  · simp [h]
  · simp [h]

theorem staysOn_holdLimitStep (x : Side) (s : State) : StaysOn x (holdLimitStep x s) s :=
  staysOn_ite (staysOn_trans (staysOn_raise ..) (staysOn_modSteer ..)) (staysOn_refl ..)

theorem holdLimitStep_exceeded {x : Side} {s : State} (h2 : (s.ld x).gns.steer.state = 2) (hh : (s.ld x).gns.steer.limitHit = false)
    (h : F64.lt (F32.widen (cfg32 (s.ld x).fmn.img 0x48)) (holdEstimate (s.ld x).fmn.img (s.ld x).gns.steer s.nowNs) = true) :
    ((holdLimitStep x s).ld x).gns.steer = { (s.ld x).gns.steer with limitHit := true } := by
  unfold holdLimitStep
  dsimp only
  rw [if_pos (by simp [h2, hh, h]), raise_gns, modSteer_steer]

theorem holdLimitStep_within {x : Side} {s : State} (h : (s.ld x).gns.steer.state ≠ 2 ∨ (s.ld x).gns.steer.limitHit = true
    ∨ F64.lt (F32.widen (cfg32 (s.ld x).fmn.img 0x48)) (holdEstimate (s.ld x).fmn.img (s.ld x).gns.steer s.nowNs) = false) :
    holdLimitStep x s = s := by
  unfold holdLimitStep
  dsimp only
  refine if_neg ?_
  rcases h with h | h | h <;> simp [h]

/-! ### Magnitudes (05 R227) -/

/-- An antenna at the end of a magnitude second: its fractions formed, its counts begun anew. -/
def secondEnded (now : Nat) (t : GnsAnt) : GnsAnt :=
  let frac := fun (n : Nat) => if t.total = 0 then 0 else min 255 (roundDiv (n * 256 : Nat) t.total).toNat
  { t with fracU := frac t.onesU, fracL := frac t.onesL, onesU := 0, onesL := 0, total := 0,
           outU := outSince t.outU (frac t.onesU) now, outL := outSince t.outL (frac t.onesL) now }

section
variable {x : Side} {s : State}

theorem magSecond_early (h : s.nowNs < (s.ld x).gns.magStart + 1000000000) : magSecond x s = s :=
  if_neg (not_le.mpr h)

theorem magSecond_eq (h : (s.ld x).gns.magStart + 1000000000 ≤ s.nowNs) :
    magSecond x s = ((s.modAnt x 0 (secondEnded s.nowNs)).modAnt x 1 (secondEnded s.nowNs)).modLd x
      fun l => { l with gns := { l.gns with magStart := s.nowNs } } := by
  rw [magSecond, secNs, if_pos h]
  simp only [State.nowNs, State.modAnt, modLd_now]
  rfl

theorem magSecond_over (h : (s.ld x).gns.magStart + 1000000000 ≤ s.nowNs) :
    ((magSecond x s).ld x).gns.magStart = s.nowNs
      ∧ ∀ a < 2, ((magSecond x s).ld x).gns.ant a = secondEnded s.nowNs ((s.ld x).gns.ant a) := by
  rw [magSecond_eq h, modLd_ld]
  refine ⟨rfl, fun a ha => ?_⟩
  change (((s.modAnt x 0 (secondEnded s.nowNs)).modAnt x 1 (secondEnded s.nowNs)).ld x).gns.ant a = _
  have ha : a = 0 ∨ a = 1 := by omega
  rcases ha with rfl | rfl <;> simp

theorem staysOn_magSecond (x : Side) (s : State) : StaysOn x (magSecond x s) s := by
  rcases Nat.lt_or_ge s.nowNs ((s.ld x).gns.magStart + 1000000000) with h | h
  · rw [magSecond_early h]
    exact staysOn_refl ..
  · rw [magSecond_eq h]
    exact staysOn_trans (staysOn_modLd ..) (staysOn_trans (staysOn_modLd ..) (staysOn_modLd ..))

end

/-- Since when the fraction of a band is out of its range, plus 1. -/
def outOf (band : Nat) (t : GnsAnt) : Nat := if band = 0 then t.outU else t.outL

/-- The band's fraction has stood outside its range for a second. -/
def magOut (ant band : Nat) (x : Side) (s : State) : Bool :=
  gnsAntBit (s.ld x).fmn.img ant (1 + band) && outOf band ((s.ld x).gns.ant ant) ≠ 0
    && outOf band ((s.ld x).gns.ant ant) - 1 + 1000000000 ≤ s.nowNs

theorem gnsMagStep_eq (ant band : Nat) (x : Side) (s : State) :
    gnsMagStep ant band x s
      = if magOut ant band x (magSecond x s) then raise (.landing x) 0x0403 (ant + 256 * band) (magSecond x s) else magSecond x s := rfl

theorem gnsMagStep_early {ant band : Nat} {x : Side} {s : State} (h : s.nowNs < (s.ld x).gns.magStart + 1000000000) :
    gnsMagStep ant band x s = if magOut ant band x s then raise (.landing x) 0x0403 (ant + 256 * band) s else s := by
  rw [gnsMagStep_eq, magSecond_early h]

theorem staysOn_gnsMagStep (ant band : Nat) (x : Side) (s : State) : StaysOn x (gnsMagStep ant band x s) s := by
  rw [gnsMagStep_eq]
  exact staysOn_ite (staysOn_trans (staysOn_raise ..) (staysOn_magSecond ..)) (staysOn_magSecond ..)

/-- Reporting a fraction leaves the baseband. -/
theorem gnsMagStep_gns (ant band : Nat) (x : Side) (s : State) :
    ((gnsMagStep ant band x s).ld x).gns = ((magSecond x s).ld x).gns := by
  rw [gnsMagStep_eq]
  split
  · exact raise_gns ..
  · rfl

/-! ### The commands of the steering, each over both landings -/

/-- A step of both landings at an instant starts, on each, from that landing as it was and at that instant. -/
theorem eachSide_advance {f : Side → State → State} (hf : ∀ y s, StaysOn y (f y s) s) (c : Side → Bool) (at_ : Nat) (x : Side) (s : State)
    (hc : c x = true) :
    ∃ u, u.ld x = s.ld x ∧ u.nowNs = (advance at_ s).nowNs ∧ u.grid x = s.grid x ∧ (eachSide c f (advance at_ s)).ld x = (f x u).ld x := by
  obtain ⟨u, hu, hstays, heq⟩ := eachSide_from hf c x (advance at_ s)
  rw [if_pos hc] at heq
  exact ⟨u, hu.trans (advance_ld ..), hstays.nowNs, (hstays.grid x).trans (by simp [State.grid]), heq⟩

/-- PULSE_COMMIT in LOCKED (05 R218). -/
theorem exec_pulseCommit_locked {x : Side} {s : State} {n : Nat} (hpart : (enginePart (s.ld x).fmn.img 4).isSome = true)
    (hrun : (s.ld x).fmn.running = true) (hstate : (s.ld x).gns.steer.state = 1) (hstep : (s.ld x).gns.steer.stepNext = false)
    (hlabel : (s.ld x).gns.steer.label = some n) (at_ : Nat) :
    ∃ t, exec (.pulseCommit at_) s = .next t
      ∧ ((((s.grid x).last / nsUnit : Nat) : Int) * 2 ^ 32 < (n + 1) * secOff + (s.ld x).gns.steer.o - secOff / 5 → t.ld x = s.ld x)
      ∧ ((n + 1) * secOff + (s.ld x).gns.steer.o - secOff / 5 ≤ (((s.grid x).last / nsUnit : Nat) : Int) * 2 ^ 32 →
          (t.ld x).gns.steer = committed n (s.ld x).gns.steer.o (s.ld x).gns.steer) := by
  obtain ⟨u, hu, _, hgrid, heq⟩ := eachSide_advance staysOn_commitStep (fun _ => true) at_ x s rfl
  rw [← hu] at hpart hrun hstate hstep hlabel
  rw [← hu, ← hgrid]
  refine ⟨_, rfl, fun h => heq.trans ?_, fun h => (congrArg (fun l : Landing => l.gns.steer) heq).trans ?_⟩
  · rw [commitStep_early hstate hstep hlabel h]
  · exact commitStep_steer hpart hrun hstate hstep hlabel h

/-- The pulse committed after one that had no step before it leaves no step to come. -/
theorem committed_eq {t : Steer} (h : t.stepNext = false) (n : Nat) :
    committed n t.o t = { t with
      edge := roundDiv ((n + 1) * secOff + t.o) (2 ^ 32), label := some (n + 1), flags := 0, oe := t.o, pulses := (t.pulses + 1) % 65536 } := by
  simp only [committed, h]

theorem exec_timePulseOutput_waits {at_ i : Nat} {s : State}
    (h : ((advance at_ s).nowNs : Int) < sval 64 (dFld s.tp.word 0 8) + sval 32 (gnsCfg (s.ld s.lead).fmn.img (0x20 + 4 * i) 4)
      ∨ Tab.get 0 s.tp.driven i = dFld s.tp.word 8 8 + 1) :
    exec (.timePulseOutput at_ i) s = .next (advance at_ s) :=
  congrArg Host.Outcome.next (pulseOut_waits (by rwa [advance_tp, advance_lead, advance_ld]))

/-- TIME_PULSE_OUTPUT at the instant of a new label (05 R219). -/
theorem exec_timePulseOutput_drives {at_ i : Nat} {s : State} (hw : s.tp.word ≠ [])
    (hon : bitOf (gnsCfg (s.ld s.lead).fmn.img (0x14 + i) 1) 0 = true) (hfree : bitOf (dFld s.tp.word 0x15 1) 3 = false)
    (hnew : Tab.get 0 s.tp.driven i ≠ dFld s.tp.word 8 8 + 1)
    (h : sval 64 (dFld s.tp.word 0 8) + sval 32 (gnsCfg (s.ld s.lead).fmn.img (0x20 + 4 * i) 4) ≤ ((advance at_ s).nowNs : Int)) :
    exec (.timePulseOutput at_ i) s = .next { advance at_ s with tp := pulseDriven i s } := by
  have hdrives := pulseOut_drives (i := i) (s := advance at_ s) (by rwa [advance_tp]) (by rwa [advance_lead, advance_ld])
    (by rwa [advance_tp]) (by rwa [advance_tp]) (by rwa [advance_tp, advance_lead, advance_ld])
  have hsame : pulseDriven i (advance at_ s) = pulseDriven i s := by simp only [pulseDriven, advance_tp, advance_lead, advance_ld]
  rw [hsame] at hdrives
  exact congrArg Host.Outcome.next hdrives

/-- GNS_HOLDOVER (05 R217). -/
theorem exec_gnsHoldover (at_ : Nat) (x : Side) (s : State) :
    ∃ t, exec (.gnsHoldover at_) s = .next t
      ∧ ((s.ld x).gns.steer.state = 1 → (s.ld x).gns.steer.lastAcc + 2000000000 ≤ (advance at_ s).nowNs →
          (t.ld x).gns.steer = { (s.ld x).gns.steer with state := 2, run := 0, limitHit := false })
      ∧ ((advance at_ s).nowNs < (s.ld x).gns.steer.lastAcc + 2000000000 ∨ (s.ld x).gns.steer.state = 0 ∨ (s.ld x).gns.steer.state = 2 →
          t.ld x = s.ld x) := by
  obtain ⟨u, hu, hnow, _, heq⟩ := eachSide_advance staysOn_holdoverStep (fun _ => true) at_ x s rfl
  rw [← hu, ← hnow]
  refine ⟨_, rfl, fun h1 h => (congrArg (fun l : Landing => l.gns.steer) heq).trans (holdoverStep_leaves_locked h1 h), fun h => heq.trans ?_⟩
  rw [holdoverStep_waits h]

/-- GNS_HOLD_LIMIT (05 R217). -/
theorem exec_gnsHoldLimit (at_ : Nat) (x : Side) (s : State) :
    let t := (s.ld x).gns.steer
    let exceeded := F64.lt (F32.widen (cfg32 (s.ld x).fmn.img 0x48)) (holdEstimate (s.ld x).fmn.img t (advance at_ s).nowNs)
    ∃ z, exec (.gnsHoldLimit at_) s = .next z
      ∧ (t.state = 2 → t.limitHit = false → exceeded = true → (z.ld x).gns.steer = { t with limitHit := true })
      ∧ (t.state ≠ 2 ∨ t.limitHit = true ∨ exceeded = false → z.ld x = s.ld x) := by
  obtain ⟨u, hu, hnow, _, heq⟩ := eachSide_advance staysOn_holdLimitStep (fun _ => true) at_ x s rfl
  rw [← hu, ← hnow]
  refine ⟨_, rfl, fun h2 hh h => (congrArg (fun l : Landing => l.gns.steer) heq).trans (holdLimitStep_exceeded h2 hh h), fun h => heq.trans ?_⟩
  rw [holdLimitStep_within h]

section
variable {ant band : Nat}

/-- A fault is due for the band on landing `y` at the instant `now`. -/
def MagDue (ant band now : Nat) (s : State) (y : Side) : Prop :=
  (s.ld y).fmn.running = true ∧ gnsAntBit (s.ld y).fmn.img ant (1 + band) = true ∧ outOf band ((s.ld y).gns.ant ant) ≠ 0
    ∧ outOf band ((s.ld y).gns.ant ant) - 1 + 1000000000 ≤ now

theorem magDue_iff (at_ : Nat) (s : State) (y : Side) :
    MagDue ant band (advance at_ s).nowNs s y ↔ (s.ld y).fmn.running = true ∧ magOut ant band y (advance at_ s) = true := by
  simp [MagDue, magOut, and_assoc]

/-- Another landing's work changes nothing of when a fraction has stood out of its range. -/
theorem magOut_staysOn {x : Side} {t s : State} (h : StaysOn x t s) : magOut ant band x.other t = magOut ant band x.other s := by
  obtain ⟨hother, _⟩ := id h
  simp only [magOut, hother, h.nowNs]

/-- A landing that does not run, or whose fraction need not be reported, is left as it is before its second ends. -/
theorem gnsMag_quiet {y : Side} {u : State} {c : Bool} (hearly : u.nowNs < (u.ld y).gns.magStart + 1000000000)
    (h : c = true → magOut ant band y u = false) : (if c then gnsMagStep ant band y u else u) = u := by
  by_cases hc : c = true
  · rw [if_pos hc, gnsMagStep_early hearly, h hc]
    rfl
  · exact if_neg hc

section
variable {at_ : Nat} {s : State} (hearly : ∀ y, (advance at_ s).nowNs < (s.ld y).gns.magStart + 1000000000)
include hearly

/-- GNS_MAG with no fault due (05 R227). -/
theorem exec_gnsMag_quiet (h : ∀ y, ¬MagDue ant band (advance at_ s).nowNs s y) : exec (.gnsMag at_ ant band) s = .next (advance at_ s) := by
  have hstep : ∀ y, (if (s.ld y).fmn.running then gnsMagStep ant band y (advance at_ s) else advance at_ s) = advance at_ s :=
    fun y => gnsMag_quiet (by rw [advance_ld]; exact hearly y) fun hrun => by simpa [magDue_iff, hrun] using h y
  change Host.Outcome.next (eachSide (fun y => (s.ld y).fmn.running) (gnsMagStep ant band) (advance at_ s)) = _
  simp only [eachSide, hstep]

/-- GNS_MAG with a fault due on one landing (05 R227). -/
theorem exec_gnsMag_reported {x : Side} (h : MagDue ant band (advance at_ s).nowNs s x)
    (hother : ¬MagDue ant band (advance at_ s).nowNs s x.other) :
    exec (.gnsMag at_ ant band) s = .next (raise (.landing x) 0x0403 (ant + 256 * band) (advance at_ s)) := by
  obtain ⟨hrun, hout⟩ := (magDue_iff ..).mp h
  have hquiet : (s.ld x.other).fmn.running = true → magOut ant band x.other (advance at_ s) = false := by
    intro hrun
    simpa [magDue_iff, hrun] using hother
  have hreported : gnsMagStep ant band x (advance at_ s) = raise (.landing x) 0x0403 (ant + 256 * band) (advance at_ s) := by
    rw [gnsMagStep_early (by rw [advance_ld]; exact hearly x), if_pos hout]
  have hstays := staysOn_raise x 0x0403 (ant + 256 * band) (advance at_ s)
  obtain ⟨hld, _⟩ := id hstays
  change Host.Outcome.next (eachSide (fun y => (s.ld y).fmn.running) (gnsMagStep ant band) (advance at_ s)) = _
  cases x with
  | A =>
    rw [eachSide, if_pos hrun, hreported]
    refine congrArg Host.Outcome.next (gnsMag_quiet (y := Side.A.other) ?_ fun hc => (magOut_staysOn hstays).trans (hquiet hc))
    rw [hstays.nowNs, hld, advance_ld]
    exact hearly .B
  | B =>
    have hA : (if (s.ld .A).fmn.running then gnsMagStep ant band .A (advance at_ s) else advance at_ s) = advance at_ s :=
      gnsMag_quiet (by rw [advance_ld]; exact hearly .A) hquiet
    rw [eachSide, hA, if_pos hrun, hreported]

end

/-- GNS_MAG at the end of a running landing's magnitude second (05 R227). -/
theorem exec_gnsMag_second {at_ : Nat} {x : Side} {s : State} (hrun : (s.ld x).fmn.running = true)
    (h : (s.ld x).gns.magStart + 1000000000 ≤ (advance at_ s).nowNs) :
    ∃ t, exec (.gnsMag at_ ant band) s = .next t ∧ (t.ld x).gns.magStart = (advance at_ s).nowNs
      ∧ ∀ a < 2, (t.ld x).gns.ant a = secondEnded (advance at_ s).nowNs ((s.ld x).gns.ant a) := by
  obtain ⟨u, hu, hnow, _, heq⟩ := eachSide_advance (staysOn_gnsMagStep ant band) (fun y => (s.ld y).fmn.running) at_ x s hrun
  rw [← hu, ← hnow] at h
  obtain ⟨hstart, hants⟩ := magSecond_over h
  rw [← gnsMagStep_gns ant band, ← heq, hnow] at hstart
  simp only [← gnsMagStep_gns ant band, ← heq, hnow, hu] at hants
  exact ⟨_, rfl, hstart, hants⟩

end

end Sys2Proof.Machine
end

section
/-!
Aiding (05 R213 to R215) and the baseband's host commands (05 R221, R222): the records posted, the orbit stores, the saved position.
-/
namespace Sys2Proof.Machine
set_option Elab.async false -- one proof at a time, as in the tests: the compile is close to its memory limit

/-! ### Records posted (05 R213) -/

/-- The contents posted in order as class 3 inputs by the leading landing's Deckhand core. -/
def postAll (cs : List (List Byte)) (s : State) : State :=
  cs.foldl (fun s c => takeRecord (some s.lead) 3 0 s.nowNs c s) s

theorem postAll_agree (cs : List (List Byte)) (s : State) :
    ∃ k new, postAll cs s = s.agreed k ∧ k.waiting = s.agree.waiting ++ new ∧ (∀ r ∈ new, r.cls = 3 ∧ r.port = 0)
      ∧ new.map (·.content) = cs := by
  induction cs generalizing s with
  | nil => exact ⟨s.agree, [], rfl, (List.append_nil _).symm, by simp, rfl⟩
  | cons c cs ih =>
    have htaken := takeRecord_taken (.inr ⟨rfl, rfl⟩ : 4 ≤ 3 ∧ 3 ≤ 7 ∨ 3 = 3 ∧ some s.lead = some s.lead) 0 s.nowNs c
    obtain ⟨k, new, hpost, hwaiting, hnew, hcontent⟩ := ih (takeRecord (some s.lead) 3 0 s.nowNs c s)
    rw [htaken] at hpost hwaiting
    refine ⟨k, _ :: new, ?_, by rw [hwaiting, agreed_agree, List.append_assoc, List.singleton_append], ?_, ?_⟩
    · rw [postAll, List.foldl_cons, htaken]
      exact hpost
    · exact List.forall_mem_cons.mpr ⟨⟨rfl, rfl⟩, hnew⟩
    · rw [List.map_cons, hcontent]

/-- The contents that AIDING_POST posts from the `n`-th orbit entry on. -/
def aidContents (s : State) (n : Nat) : List (List Byte) :=
  (if n = 0 then [aidHeader s (orbitEntries (s.ld s.lead)).length] else []) ++ ((orbitEntries (s.ld s.lead)).drop n).take 64

theorem aidPost_eq {s : State} {n : Nat} (h : s.aid.next = some n) :
    aidPost s = { postAll (aidContents s n) s with aid := { (postAll (aidContents s n) s).aid with
      next := if n + 64 < (orbitEntries (s.ld s.lead)).length then some (n + 64) else none } } := by
  unfold aidPost aidContents postAll
  rw [h, List.foldl_append]
  dsimp only
  split <;> rfl

/-- AIDING_POST posts its contents behind the records that wait, and moves on by 64 entries. -/
theorem aidPost_leaves {s : State} {n : Nat} (h : s.aid.next = some n) :
    aidPost s = { s with agree := (aidPost s).agree, aid := (aidPost s).aid }
      ∧ (aidPost s).aid = { s.aid with next := if n + 64 < (orbitEntries (s.ld s.lead)).length then some (n + 64) else none }
      ∧ ∃ new : List Arrival, (aidPost s).agree.waiting = s.agree.waiting ++ new ∧ (∀ r ∈ new, r.cls = 3 ∧ r.port = 0)
        ∧ new.map (·.content) = aidContents s n := by
  obtain ⟨k, new, hpost, hwaiting, hnew, hcontent⟩ := postAll_agree (aidContents s n) s
  have heq := aidPost_eq h
  rw [hpost] at heq
  rw [heq]
  exact ⟨rfl, rfl, new, hwaiting, hnew, hcontent⟩

theorem aidPost_none {s : State} (h : s.aid.next = none) : aidPost s = s := by
  unfold aidPost
  rw [h]

/-! ### The orbit stores (05 R215) -/

theorem eachSide_aid {f : Side → State → State} (hf : ∀ x s, (f x s).aid = s.aid) (c : Side → Bool) (s : State) :
    (eachSide c f s).aid = s.aid := by
  unfold eachSide
  dsimp only
  split <;> split <;> simp only [hf]

/-- A write of the orbit store of a landing, or its report where it fails. -/
def saveStep (ok : Side → Bool) (x : Side) (s : State) : State :=
  if ok x then s.modLd x saveOrbits else raise (.landing x) 0x0420 0 s

theorem saveOrbits_flash (l : Landing) :
    (saveOrbits l).flash = flashPut (flashErase l.flash 0x63FF0000 65536) 0x63FF0000 (berthOrbits l).flatten := rfl

theorem staysOn_saveStep (ok : Side → Bool) (x : Side) (s : State) : StaysOn x (saveStep ok x s) s :=
  staysOn_ite (staysOn_modLd ..) (staysOn_raise ..)

theorem saveStep_aid (ok : Side → Bool) (x : Side) (s : State) : (saveStep ok x s).aid = s.aid := by
  unfold saveStep
  split
  · exact modLd_aid ..
  · exact raise_aid ..

theorem saveStep_flash (ok : Side → Bool) (x : Side) (s : State) :
    ((saveStep ok x s).ld x).flash = if ok x then (saveOrbits (s.ld x)).flash else (s.ld x).flash := by
  unfold saveStep
  split
  · rw [modLd_ld]
  · exact raise_flash ..

/-- The orbit stores after a save: rewritten on the running landings whose write succeeds. -/
theorem eachSide_saveStep_flash (ok c : Side → Bool) (x : Side) (s : State) :
    ((eachSide c (saveStep ok) s).ld x).flash = if c x = true ∧ ok x = true then
      flashPut (flashErase (s.ld x).flash 0x63FF0000 65536) 0x63FF0000 (berthOrbits (s.ld x)).flatten else (s.ld x).flash := by
  obtain ⟨u, hu, _, heq⟩ := eachSide_from (staysOn_saveStep ok) c x s
  rw [heq]
  by_cases hc : c x = true
  · simp only [hc, if_true, true_and, saveStep_flash, saveOrbits_flash, hu]
  · rw [if_neg hc, if_neg (fun h => hc h.1), hu]

/-- Which writes of the orbit stores succeed. -/
def saveOk (okA okB : Bool) : Side → Bool
  | .A => okA
  | .B => okB

theorem withAid_flash (s : State) (aid : Aiding) (x : Side) : (({ s with aid := aid } : State).ld x).flash = (s.ld x).flash := by
  cases x <;> rfl

/-- AIDING_SAVE completes the waiting commands after the writes of the orbit stores. -/
theorem aidSave_leaves (okA okB : Bool) (s : State) :
    ∃ u : State, aidSave okA okB s = completeAll
        (if ((s.ld .A).fmn.running && !okA) || ((s.ld .B).fmn.running && !okB) then .media else .done) s.aid.saves u
      ∧ u.aid = { s.aid with saves := [] }
      ∧ ∀ x, (u.ld x).flash = if (s.ld x).fmn.running = true ∧ saveOk okA okB x = true then
          flashPut (flashErase (s.ld x).flash 0x63FF0000 65536) 0x63FF0000 (berthOrbits (s.ld x)).flatten else (s.ld x).flash := by
  refine ⟨_, rfl, ?_, fun x => (withAid_flash ..).trans (eachSide_saveStep_flash (saveOk okA okB) (fun x => (s.ld x).fmn.running) x s)⟩
  have haid := eachSide_aid (saveStep_aid (saveOk okA okB)) (fun x => (s.ld x).fmn.running) s
  exact congrArg (fun a : Aiding => { a with saves := [] }) haid

/-! ### The saved position (05 R215, 17 R651) -/

/-- Bytes put into a table read back from it. -/
theorem bytesAt_putBytes (t : Tab Byte) (o : Nat) (bs : List Byte) (k n : Nat) (h : k + n ≤ bs.length) :
    bytesAt (putBytes t o bs) (o + k) n = (bs.drop k).take n := by
  induction n generalizing k with
  | zero => rfl
  | succ n ih =>
    have hk : k < bs.length := by omega
    rw [bytesAt, Nat.add_assoc, ih (k + 1) (by omega), putBytes_get, if_pos (by omega), Nat.add_sub_cancel_left,
      List.getD_eq_getElem _ _ hk, List.drop_eq_getElem_cons hk, List.take_succ_cons]

/-- The record whose position is saved: antenna A's, or B's where A has none. -/
def savedRecord (g : Gns) : List Byte := if Tab.get [] g.pos 0 = [] then Tab.get [] g.pos 1 else Tab.get [] g.pos 0

theorem aidBytes_none {g : Gns} (h : savedRecord g = []) (s : State) : aidBytes s g = none := by
  unfold savedRecord at h
  unfold aidBytes
  simp [List.isEmpty_iff, h]

/-- The saved aiding: flags with the valid one, the position and its instant from the record. -/
theorem aidBytes_some {g : Gns} (h : savedRecord g ≠ []) (s : State) :
    ∃ fl utc a b, aidBytes s g = some (leBytes 2 (1 + 2 * fl) ++ leBytes 1 utc ++ leBytes 5 0 ++ ((savedRecord g).drop 0x10).take 24
      ++ ((savedRecord g).drop 8).take 8 ++ leBytes 4 a ++ leBytes 4 b ++ leBytes 16 0) := by
  have hflags : ∀ a b, 1 + 2 * a + 4 * b = 1 + 2 * (a + 2 * b) := by omega
  unfold savedRecord at h ⊢
  unfold aidBytes
  simp only [List.isEmpty_iff, h, if_false, hflags]
  exact ⟨_, _, _, _, rfl⟩

theorem advance_rtcMem (t : Nat) (s : State) : (advance t s).rtc.mem = s.rtc.mem := by
  simp only [advance, apply_ite State.rtc, apply_ite Rtc.mem, rtcRun, ite_self]

/-- The record's fields in the backup memory that its saved aiding is put into. -/
theorem savedAiding_mem {g : Gns} (h : (savedRecord g).length = 128) (s : State) (m : Tab Byte) :
    ∃ b, aidBytes s g = some b ∧ bytesAt (putBytes m 0x20 b) 0x28 24 = ((savedRecord g).drop 0x10).take 24
      ∧ bytesAt (putBytes m 0x20 b) 0x40 8 = ((savedRecord g).drop 8).take 8 ∧ le (putBytes m 0x20 b) 0x20 2 % 2 = 1
      ∧ ∀ o, o < 0x20 ∨ 0x60 ≤ o → Tab.get 0 (putBytes m 0x20 b) o = Tab.get 0 m o := by
  obtain ⟨fl, utc, a, b, hb⟩ := aidBytes_some (g := g) (List.ne_nil_of_length_pos (by omega)) s
  have hpos : (((savedRecord g).drop 0x10).take 24).length = 24 := by simp [h]
  have htime : (((savedRecord g).drop 8).take 8).length = 8 := by simp [h]
  have hhead : (leBytes 2 (1 + 2 * fl) ++ leBytes 1 utc ++ leBytes 5 0).length = 8 := by simp
  have htail : (leBytes 4 a ++ leBytes 4 b ++ leBytes 16 0).length = 24 := by simp
  have hfirst : (leBytes 2 (1 + 2 * fl) ++ leBytes 1 utc ++ leBytes 5 0).getD 0 0 = BitVec.ofNat 8 (1 + 2 * fl) := rfl
  replace hb : aidBytes s g = some ((leBytes 2 (1 + 2 * fl) ++ leBytes 1 utc ++ leBytes 5 0) ++ (((savedRecord g).drop 0x10).take 24
      ++ (((savedRecord g).drop 8).take 8 ++ (leBytes 4 a ++ leBytes 4 b ++ leBytes 16 0)))) := by
    simpa only [List.append_assoc] using hb
  generalize leBytes 2 (1 + 2 * fl) ++ leBytes 1 utc ++ leBytes 5 0 = head at hb hhead hfirst
  generalize leBytes 4 a ++ leBytes 4 b ++ leBytes 16 0 = tail at hb htail
  generalize ((savedRecord g).drop 0x10).take 24 = pos at hb hpos ⊢
  generalize ((savedRecord g).drop 8).take 8 = time at hb htime ⊢
  have hlen : (head ++ (pos ++ (time ++ tail))).length = 64 := by simp [hhead, hpos, htime, htail]
  refine ⟨_, hb, ?_, ?_, ?_, fun o ho => ?_⟩
  · rw [show (0x28 : Nat) = 0x20 + 8 from rfl, bytesAt_putBytes _ _ _ _ _ (by omega), List.drop_left' hhead, List.take_left' hpos]
  · rw [show (0x40 : Nat) = 0x20 + 32 from rfl, bytesAt_putBytes _ _ _ _ _ (by omega), ← List.append_assoc,
      List.drop_left' (by simp [hhead, hpos]), List.take_left' htime]
  · have hflags : Tab.get 0 (putBytes m 0x20 (head ++ (pos ++ (time ++ tail)))) 0x20 = BitVec.ofNat 8 (1 + 2 * fl) := by
      rw [putBytes_get, if_pos (by omega), Nat.sub_self, List.getD_append _ _ _ _ (by omega), hfirst]
    rw [le, hflags, BitVec.toNat_ofNat]
    omega
  · rw [putBytes_get, if_neg (by omega)]

/-! ### The commands (05 R221, R222) -/

/-- A command that asks for no more than its level and its modes, in range and in a fitting state, is carried out. -/
theorem hostCommand_may {h : CmdHdr} {n : Nat} {modes : List Nat} {s : State} (hm : h.may n modes s) {asks : State → Asks}
    (hasks : asks (advance h.at_ s) = { level := n, modes := modes }) (op : Nat) (eff : State → Answer) :
    hostCommand h op asks eff s
      = complete (cmdOf h op) (eff (s.begun h)).st (eff (s.begun h)).data (eff (s.begun h)).poison (eff (s.begun h)).s := by
  obtain ⟨hsound, hholds, hmode⟩ := hm
  refine hostCommand_pass h op asks eff s ?_
  rw [hasks]
  exact check_none _ _ _ ((sound_advance ..).mpr hsound) rfl ((holds_advance ..).mpr hholds) rfl rfl rfl (by rwa [advance_mode]) rfl rfl rfl

theorem begun_ld (s : State) (h : CmdHdr) (x : Side) : (s.begun h).ld x = s.ld x := by
  rw [State.begun, accept_ld, advance_ld]

theorem setAntenna_beside (a : Nat) (off : Bool) (x : Side) (s : State) :
    BesideGns x (setAntenna a off x s) (s.modAnt x a fun t => { t with off := off }) := by
  unfold setAntenna
  exact besideGns_trans (besideGns_raise ..) (besideGns_ite (besideGns_memWriteN ..) (besideGns_refl ..))

theorem staysOn_setAntenna (a : Nat) (off : Bool) (x : Side) (s : State) : StaysOn x (setAntenna a off x s) s :=
  staysOn_trans (setAntenna_beside a off x s).1 (staysOn_modLd ..)

/-- An antenna turned on or off on both landings, the other left as it was. -/
theorem eachSide_setAntenna {a : Nat} (ha : a ≤ 1) (off : Bool) (x : Side) (s : State) :
    ((eachSide (fun _ => true) (setAntenna a off) s).ld x).gns.ant a = { (s.ld x).gns.ant a with off := off }
      ∧ ((eachSide (fun _ => true) (setAntenna a off) s).ld x).gns.ant (1 - a) = (s.ld x).gns.ant (1 - a) := by
  obtain ⟨u, hu, _, heq⟩ := eachSide_from (staysOn_setAntenna a off) (fun _ => true) x s
  obtain ⟨_, hgns, _⟩ := setAntenna_beside a off x u
  rw [heq, if_pos rfl, hgns, modAnt_ant, modAnt_ant, if_pos rfl, if_neg (by omega), hu]
  exact ⟨rfl, rfl⟩

/-! ### The commands of the aiding, and the statement -/

theorem exec_aidingPost_some {s : State} {n : Nat} (h : s.aid.next = some n) (at_ : Nat) :
    ∃ t : State, exec (.aidingPost at_) s = .next t ∧ t = { advance at_ s with agree := t.agree, aid := t.aid }
      ∧ t.aid = { s.aid with next := if n + 64 < (orbitEntries (s.ld s.lead)).length then some (n + 64) else none }
      ∧ ∃ new : List Arrival, t.agree.waiting = s.agree.waiting ++ new ∧ (∀ r ∈ new, r.cls = 3 ∧ r.port = 0)
        ∧ new.map (·.content) = (if n = 0 then [aidHeader (advance at_ s) (orbitEntries (s.ld s.lead)).length] else [])
          ++ ((orbitEntries (s.ld s.lead)).drop n).take 64 := by
  have hleaves := aidPost_leaves (s := advance at_ s) (n := n) (by rwa [advance_aid])
  rw [aidContents, advance_lead, advance_ld, advance_aid, advance_agree] at hleaves
  exact ⟨_, rfl, hleaves⟩

theorem exec_aidingSave {s : State} (hm : s.mode ≠ 0) (at_ : Nat) (okA okB : Bool) :
    ∃ u : State, exec (.aidingSave at_ okA okB) s = .next (completeAll
          (if ((s.ld .A).fmn.running && !okA) || ((s.ld .B).fmn.running && !okB) then .media else .done) s.aid.saves u)
      ∧ u.aid = { s.aid with saves := [] }
      ∧ ∀ x, (u.ld x).flash = if (s.ld x).fmn.running = true ∧ saveOk okA okB x = true then
          flashPut (flashErase (s.ld x).flash 0x63FF0000 65536) 0x63FF0000 (berthOrbits (s.ld x)).flatten else (s.ld x).flash := by
  obtain ⟨u, hu, haid, hflash⟩ := aidSave_leaves okA okB (advance at_ s)
  simp only [advance_ld, advance_aid] at hu haid hflash
  refine ⟨u, ?_, haid, hflash⟩
  change Host.Outcome.next (if (advance at_ s).mode = 0 then advance at_ s else aidSave okA okB (advance at_ s)) = _
  rw [advance_mode, if_neg hm, hu]

theorem exec_positionSave_none {s : State} (h : savedRecord (s.ld s.lead).gns = []) (at_ : Nat) :
    exec (.positionSave at_) s = .next (advance at_ s) := by
  change execPositionSave at_ s = _
  unfold execPositionSave
  dsimp only
  rw [advance_lead, advance_ld, aidBytes_none h]

theorem exec_positionSave_some {s : State} (h : (savedRecord (s.ld s.lead).gns).length = 128) (at_ : Nat) :
    ∃ t : State, exec (.positionSave at_) s = .next t ∧ t = { advance at_ s with rtc := t.rtc }
      ∧ bytesAt t.rtc.mem 0x28 24 = ((savedRecord (s.ld s.lead).gns).drop 0x10).take 24
      ∧ bytesAt t.rtc.mem 0x40 8 = ((savedRecord (s.ld s.lead).gns).drop 8).take 8 ∧ le t.rtc.mem 0x20 2 % 2 = 1
      ∧ ∀ o, o < 0x20 ∨ 0x60 ≤ o → Tab.get 0 t.rtc.mem o = Tab.get 0 s.rtc.mem o := by
  obtain ⟨b, hb, hsaved⟩ := savedAiding_mem h (advance at_ s) s.rtc.mem
  have hexec : exec (.positionSave at_) s = .next (bkpPut 0x20 b (advance at_ s)) := by
    change execPositionSave at_ s = _
    unfold execPositionSave
    dsimp only
    rw [advance_lead, advance_ld, hb]
  have hmem : (bkpPut 0x20 b (advance at_ s)).rtc.mem = putBytes s.rtc.mem 0x20 b := by
    rw [← advance_rtcMem at_ s]
    rfl
  refine ⟨_, hexec, rfl, ?_⟩
  rw [hmem]
  exact hsaved

section
variable {h : CmdHdr} {s : State}

theorem exec_gnsAntennaOff {ant : Nat} (hm : h.may 2 [1, 2, 3, 4, 5] s) (ha : ant ≤ 1)
    (hother : 2 ≤ s.mode ∧ s.mode ≤ 4 → ((s.ld s.lead).gns.ant (1 - ant)).off = false) :
    exec (.gnsAntennaOff h ant) s = .next ((eachSide (fun _ => true) (setAntenna ant true) (s.begun h)).answered h 0x0401 .done []) := by
  refine congrArg Host.Outcome.next (hostCommand_may hm ?_ _ _)
  have hstate : (!(2 ≤ s.mode && s.mode ≤ 4 && ((s.ld s.lead).gns.ant (1 - ant)).off)) = true := by
    by_cases hmode : 2 ≤ s.mode ∧ s.mode ≤ 4
    · simp [hother hmode]
    · simp [← Bool.decide_and, hmode]
  simp only [advance_mode, advance_lead, advance_ld, hstate, ha, decide_true]

theorem exec_gnsAntennaOn {ant : Nat} (hm : h.may 2 [1, 2, 3, 4, 5] s) (ha : ant ≤ 1) :
    exec (.gnsAntennaOn h ant) s = .next ((eachSide (fun _ => true) (setAntenna ant false) (s.begun h)).answered h 0x0402 .done []) := by
  refine congrArg Host.Outcome.next (hostCommand_may hm ?_ _ _)
  simp only [ha, decide_true]

theorem exec_gnsSaveAiding (hm : h.may 1 [1, 2, 3, 4, 5] s) :
    exec (.gnsSaveAiding h) s = .next (State.answered { s.begun h with
      aid := { s.aid with saves := s.aid.saves ++ [{ part := h.part, queue := h.queue, seq := h.seq, op := 0x0403 }] } } h 0x0403 .accepted []) := by
  have haid : (s.begun h).aid = s.aid := (accept_aid ..).trans (advance_aid ..)
  rw [← haid]
  exact congrArg Host.Outcome.next (hostCommand_may hm rfl _ _)

/-- The orbit stores erased and the flags of the saved aiding cleared. -/
def clearAiding (s : State) : State :=
  bkpPut 0x20 (leBytes 2 0)
    (eachSide (fun _ => true) (fun x s => s.modLd x fun l => { l with flash := flashErase l.flash orbitBase 65536 }) s)

theorem clearAiding_shape (s : State) :
    clearAiding s = { s with a := (clearAiding s).a, b := (clearAiding s).b, rtc := (clearAiding s).rtc } := rfl

theorem clearAiding_flash (s : State) (x : Side) :
    ((clearAiding s).ld x).flash = flashErase (s.ld x).flash 0x63FF0000 65536 := by cases x <;> rfl

theorem exec_gnsClearAiding (hm : h.may 2 [1, 5] s) :
    ∃ u : State, exec (.gnsClearAiding h) s = .next (u.answered h 0x0404 .done []) ∧ u = { s.begun h with a := u.a, b := u.b, rtc := u.rtc }
      ∧ (∀ x, (u.ld x).flash = flashErase (s.ld x).flash 0x63FF0000 65536) ∧ le u.rtc.mem 0x20 2 = 0 := by
  have hpass := hostCommand_may hm (asks := fun _ => { level := 2, modes := [1, 5] }) rfl 0x0404 (fun s => done (clearAiding s))
  refine ⟨clearAiding (s.begun h), congrArg Host.Outcome.next hpass, clearAiding_shape .., fun x => ?_, le_leBytes ..⟩
  rw [clearAiding_flash, begun_ld]

end

/-- Settles O33: what each command does to each landing by its own lemma, from the landings, the clock and the ticks it starts from. -/
theorem gnssTimeAndAiding : Obligations.GnssTimeAndAiding := by
  unfold Obligations.GnssTimeAndAiding
  constructor
  · intro at_ x s
    refine ⟨fun e he => ?_, fun n hpart hrun hstate hstep hlabel => ?_, ?_, exec_gnsHoldover at_ x s, exec_gnsHoldLimit at_ x s, ?_⟩
    · have hleaves := tsolOp_leaves x e (advance at_ s)
      simp only [advance_ld] at hleaves
      exact ⟨_, congrArg Host.Outcome.next (runEntry_started he _ at_), hleaves⟩
    · obtain ⟨t, ht, hearly, hdue⟩ := exec_pulseCommit_locked hpart hrun hstate hstep hlabel at_
      rw [committed_eq hstep] at hdue
      exact ⟨t, ht, hearly, hdue⟩
    · intro i hi g w e hw hon hfree
      exact ⟨exec_timePulseOutput_waits, fun h _ hnew =>
        ⟨_, exec_timePulseOutput_drives hw hon hfree hnew h, rfl, pulseDriven_output i s⟩⟩
    · intro ant band
      refine ⟨fun hearly => ⟨fun hA hB => exec_gnsMag_quiet hearly (Side.rec hA hB ·), exec_gnsMag_reported hearly⟩, fun hrun h => ?_⟩
      obtain ⟨t, ht, hstart, hants⟩ := exec_gnsMag_second hrun h
      refine ⟨t, ht, hstart, fun a ha => ?_⟩
      rw [hants a ha]
      exact ⟨rfl, rfl, rfl, rfl, rfl⟩
  · intro at_ ant okA okB h s
    refine ⟨fun hn => ?_, fun n hn => ?_, fun hm => ?_, ?_, fun hm ha => ?_, exec_gnsSaveAiding, exec_gnsClearAiding⟩
    · exact congrArg Host.Outcome.next (aidPost_none (by rwa [advance_aid]))
    · exact exec_aidingPost_some hn at_
    · obtain ⟨u, hu, haid, hflash⟩ := exec_aidingSave hm at_ okA okB
      refine ⟨u, hu, haid, fun x => ?_⟩
      cases x with
      | A => exact hflash .A
      | B => exact hflash .B
    · exact ⟨fun hp => exec_positionSave_none hp at_, fun hp => exec_positionSave_some hp at_⟩
    · refine ⟨fun hother => ⟨_, exec_gnsAntennaOff hm ha hother, fun y => ?_⟩, _, exec_gnsAntennaOn hm ha, fun y => ?_⟩
      · rw [← begun_ld s h y]
        exact eachSide_setAntenna ha true y (s.begun h)
      · rw [← begun_ld s h y]
        exact eachSide_setAntenna ha false y (s.begun h)

end Sys2Proof.Machine
end

section
/-!
The host commands of the fusion engine (06 R262, R263): each waits on both landings for the next `CLOSE`.
-/
namespace Sys2Proof.Machine
set_option Elab.async false -- one proof at a time, as in the tests: the compile is close to its memory limit

/-- Command `i`, of opcode `op`, is answered DONE and leaves `c` behind the fusion commands that wait on each landing. -/
def WaitsForClose (h : CmdHdr) (s : State) (i : Instr) (op : Nat) (c : FusCmd) : Prop :=
  ∃ u : State, exec i s = .next (u.answered h op .done []) ∧ u = { s.begun h with a := u.a, b := u.b }
    ∧ ∀ x, u.ld x = { s.ld x with fus := { (s.ld x).fus with cmds := (s.ld x).fus.cmds ++ [c] } }

theorem queueFus_ld (c : FusCmd) (s : State) (x : Side) :
    (queueFus c s).ld x = { s.ld x with fus := { (s.ld x).fus with cmds := (s.ld x).fus.cmds ++ [c] } } := by cases x <;> rfl

@[simp] theorem advance_streamKnown (t : Nat) (s : State) (n : Nat) : streamKnown (advance t s) n = streamKnown s n := by
  rw [streamKnown, advance_lead, advance_ld, streamKnown]

@[simp] theorem advance_trackKnown (t : Nat) (s : State) (j : Nat) : trackKnown (advance t s) j = trackKnown s j := by
  rw [trackKnown, advance_lead, advance_ld, trackKnown]

section
variable {h : CmdHdr} {s : State}

/-- A command that asks for no more than its level and its modes, and whose effect is to queue `c`, waits for the next `CLOSE`. -/
theorem waitsForClose_may {n : Nat} {modes : List Nat} (hm : h.may n modes s) {i : Instr} {op : Nat} {c : FusCmd} {asks : State → Asks}
    (hexec : exec i s = .next (hostCommand h op asks (fun s => done (queueFus c s)) s))
    (hasks : asks (advance h.at_ s) = { level := n, modes := modes }) : WaitsForClose h s i op c := by
  refine ⟨queueFus c (s.begun h), hexec.trans (congrArg Host.Outcome.next (hostCommand_may hm hasks op _)), rfl, fun x => ?_⟩
  rw [queueFus_ld, begun_ld]

theorem fusExclude_waits {stream : Nat} (hm : h.may 1 [1, 2, 3, 4, 5] s) (hs : streamKnown s stream = true) :
    WaitsForClose h s (.fusExclude h stream) 0x0501 (.exclude stream) :=
  waitsForClose_may hm rfl (by simp only [advance_streamKnown, hs])

theorem fusReadmit_waits {stream : Nat} (hm : h.may 1 [1, 2, 3, 4, 5] s) (hs : streamKnown s stream = true)
    (hout : ((s.ld s.lead).fus.stream stream).excl ≠ 0) (hin : ((s.ld s.lead).fus.stream stream).adrift = false) :
    WaitsForClose h s (.fusReadmit h stream) 0x0502 (.readmit stream) :=
  waitsForClose_may hm rfl (by simp [hs, hout, hin])

theorem fusPinTrack_waits {track typ source stream : Nat} (hm : h.may 1 [1, 2, 3, 4, 5] s) (ht : trackKnown s track = true)
    (htyp : typ = 1 ∨ typ = 2) (hsource : source = 0 ∨ source = 1 ∧ streamKnown s stream = true) (n e sigma : DWord) :
    WaitsForClose h s (.fusPinTrack h track typ source n e sigma stream) 0x0503 (.pin track typ source n e sigma stream) := by
  refine waitsForClose_may hm rfl ?_
  have htyped : (decide (typ = 1) || decide (typ = 2)) = true := by simpa using htyp
  have hplaced : (decide (source ≤ 1) && (decide (source = 0) || streamKnown s stream)) = true := by
    rcases hsource with rfl | ⟨rfl, hs⟩
    · rfl
    · simp [hs]
  simp only [advance_trackKnown, advance_streamKnown, ht, htyped, Bool.and_assoc, hplaced, Bool.and_self]

theorem fusReleaseTrack_waits {track : Nat} (hm : h.may 1 [1, 2, 3, 4, 5] s) (ht : trackKnown s track = true) :
    WaitsForClose h s (.fusReleaseTrack h track) 0x0504 (.release track) :=
  waitsForClose_may hm rfl (by simp only [advance_trackKnown, ht])

theorem fusSetTransform_waits {entry : Nat} {data : List Byte} (hm : h.may 2 [1, 2, 5] s) (hlen : data.length = 64) (hentry : entry ≤ 63)
    (hfirst : ofLe (data.take 1) = entry) : WaitsForClose h s (.fusSetTransform h entry data) 0x0505 (.transform entry data) :=
  waitsForClose_may hm rfl (by simp [hlen, hentry, hfirst])

theorem fusSetOrigin_waits (hm : h.may 2 [1] s) (lat lon height : DWord) :
    WaitsForClose h s (.fusSetOrigin h lat lon height) 0x0506 (.origin (hostAngle lat) (hostAngle lon) height) :=
  waitsForClose_may hm rfl rfl

end

/-- Settles O35: each command's checks pass, and its effect is to be queued. -/
theorem fusionCommands : Obligations.FusionCommands := by
  unfold Obligations.FusionCommands
  intro h stream track typ source entry n e sigma lat lon height data s
  exact ⟨fun hm hs => ⟨fusExclude_waits hm hs, fusReadmit_waits hm hs⟩,
    fun hm ht => ⟨fusReleaseTrack_waits hm ht, fun htyp hsource => fusPinTrack_waits hm ht htyp hsource n e sigma⟩,
    fusSetTransform_waits, fun hm => fusSetOrigin_waits hm lat lon height⟩

end Sys2Proof.Machine
end

section
/-!
What reads, writes and faults of a landing leave: everything of the landing but its memories, their counters, its event registers and its
self-accusations (00 R28, 12 R449 to R465).
-/
namespace Sys2Proof.Machine
set_option Elab.async false -- one proof at a time, as in the tests: the compile is close to its memory limit

/-- `t` comes from `s` by reads and writes of landing `x`'s memories and by faults of that landing. -/
structure MemoryOnly (x : Side) (t s : State) : Prop where
  stays : StaysOn x t s
  landing : t.ld x = { s.ld x with mem := (t.ld x).mem, syn := (t.ld x).syn, memi := (t.ld x).memi, events := (t.ld x).events,
                                   accused := (t.ld x).accused }

namespace MemoryOnly
variable {x : Side} {t s : State} (h : MemoryOnly x t s)
include h

theorem fus : (t.ld x).fus = (s.ld x).fus := by rw [h.landing]
theorem fmn : (t.ld x).fmn = (s.ld x).fmn := by rw [h.landing]
theorem tiles : (t.ld x).tiles = (s.ld x).tiles := by rw [h.landing]

end MemoryOnly

section
variable (x : Side)

theorem memoryOnly_refl (s : State) : MemoryOnly x s s := ⟨staysOn_refl .., rfl⟩

theorem memoryOnly_trans {x : Side} {t u s : State} (h : MemoryOnly x t u) (k : MemoryOnly x u s) : MemoryOnly x t s := by
  obtain ⟨hstays, hld⟩ := h
  obtain ⟨kstays, kld⟩ := k
  exact ⟨staysOn_trans hstays kstays, hld.trans (by rw [kld])⟩

theorem memoryOnly_modLd {f : Landing → Landing} (s : State)
    (hf : ∀ l, f l = { l with mem := (f l).mem, syn := (f l).syn, memi := (f l).memi, events := (f l).events, accused := (f l).accused } := by
      intro l; rfl) :
    MemoryOnly x (s.modLd x f) s :=
  ⟨staysOn_modLd .., by rw [modLd_ld]; exact hf _⟩

theorem memoryOnly_ite {c : Prop} [Decidable c] {x : Side} {t u s : State} (h : MemoryOnly x t s) (k : MemoryOnly x u s) :
    MemoryOnly x (if c then t else u) s := by
  split <;> assumption

theorem memoryOnly_foldl {α : Type} {f : State → α → State} (hf : ∀ s a, MemoryOnly x (f s a) s) (l : List α) (s : State) :
    MemoryOnly x (l.foldl f s) s := by
  induction l generalizing s with
  | nil => exact memoryOnly_refl ..
  | cons a l ih => exact memoryOnly_trans (ih _) (hf s a)

/-! ### Faults (00 R28) -/

theorem memoryOnly_raise (code detail : Nat) (s : State) : MemoryOnly x (raise (.landing x) code detail s) s :=
  ⟨staysOn_raise .., by rw [raise_mem, raise_syn, raise_memi]; exact raise_ld ..⟩

theorem memoryOnly_raisePerSecond (code detail key : Nat) (s : State) : MemoryOnly x (raisePerSecond (.landing x) code detail key s) s := by
  unfold raisePerSecond raiseWithin
  dsimp only
  exact memoryOnly_ite (memoryOnly_refl ..) (memoryOnly_trans (memoryOnly_raise ..) ⟨by cases x <;> exact staysOn_refl .., by cases x <;> rfl⟩)

/-! ### Reads (12 R451, R453, R462 to R466) -/

theorem memoryOnly_bucketAdd (s : State) : MemoryOnly x (bucketAdd x s) s :=
  memoryOnly_ite (memoryOnly_trans (memoryOnly_raise ..) (memoryOnly_modLd x s)) (memoryOnly_modLd x s)

theorem memoryOnly_noteCorrected (kind a : Nat) (y : Byte) (s : State) : MemoryOnly x (noteCorrected x kind a y s) s :=
  memoryOnly_trans (memoryOnly_bucketAdd ..) (memoryOnly_trans (memoryOnly_raisePerSecond ..) (memoryOnly_modLd x s))

theorem memoryOnly_noteUncorrectable (kind a : Nat) (y : Byte) (s : State) : MemoryOnly x (noteUncorrectable x kind a y s) s :=
  memoryOnly_ite (memoryOnly_trans (memoryOnly_raise ..) (memoryOnly_modLd x s))
    (memoryOnly_trans (memoryOnly_raisePerSecond ..) (memoryOnly_modLd x s))

theorem memoryOnly_readEffects (a : Nat) (s : State) : MemoryOnly x (readEffects x a s) s := by
  unfold readEffects
  dsimp only
  split
  case h_1 | h_2 => exact memoryOnly_refl ..
  case h_3 =>
    exact memoryOnly_ite (memoryOnly_trans (memoryOnly_modLd x _) (memoryOnly_noteCorrected ..)) (memoryOnly_noteCorrected ..)
  case h_4 => exact memoryOnly_noteUncorrectable ..

theorem memoryOnly_memReadN (a n : Nat) (s : State) : MemoryOnly x (memReadN x a n s).2 s := by
  induction n generalizing a s with
  | zero => exact memoryOnly_refl ..
  | succ n ih => exact memoryOnly_trans (ih ..) (memoryOnly_readEffects ..)

/-! ### Writes (12 R450, R460, R461) -/

theorem memoryOnly_memWrite (a : Nat) (w : Pw) (s : State) : MemoryOnly x (memWrite x a w s) s := memoryOnly_modLd x s

theorem memoryOnly_memWriteN (a : Nat) (ws : List Pw) (s : State) : MemoryOnly x (memWriteN x a ws s) s := by
  induction ws generalizing a s with
  | nil => exact memoryOnly_refl ..
  | cons w ws ih => exact memoryOnly_trans (ih ..) (memoryOnly_memWrite ..)

theorem memoryOnly_memMerge (a : Nat) (data : List (Nat × Byte)) (s : State) : MemoryOnly x (memMerge x a data s) s :=
  memoryOnly_trans (memoryOnly_memWrite ..) (memoryOnly_readEffects ..)

theorem memoryOnly_memBytes (n a : Nat) (data : List Byte) (s : State) : MemoryOnly x (memBytes x n a data s) s := by
  induction n generalizing a data s with
  | zero => exact memoryOnly_refl ..
  | succ n ih =>
    exact memoryOnly_ite (memoryOnly_refl ..)
      (memoryOnly_trans (ih ..) (memoryOnly_ite (memoryOnly_memWrite ..) (memoryOnly_memMerge ..)))

theorem memoryOnly_memPut (a : Nat) (data : List Byte) (s : State) : MemoryOnly x (memPut x a data s) s := memoryOnly_memBytes ..

end

/-- A byte written reads back. -/
theorem peekByte_memPut_single (x : Side) (a : Nat) (b : Byte) (s : State) : peekByte ((memPut x a [b] s).ld x) a = b := by
  obtain ⟨k, hk⟩ : ∃ k, a / 8 * 8 + 8 - a = k + 1 := ⟨a / 8 * 8 + 7 - a, by omega⟩
  have hput : memPut x a [b] s = memMerge x (a / 8 * 8) [(a - a / 8 * 8, b)] s := by
    simp [memPut, memBytes, inWord, hk]
  have hplace : a - a / 8 * 8 = a % 8 := by omega
  rw [hput, peekByte, memMerge, memWrite, modLd_ld, peekWord_ldWrite, hplace]
  exact (setByte_byte _ b (by omega)).trans (if_pos rfl)

end Sys2Proof.Machine
end

section
/-!
ALIGN (06 R233 to R235, R239): what an entry acted on leaves of each stream.
-/
namespace Sys2Proof.Machine
set_option Elab.async false -- one proof at a time, as in the tests: the compile is close to its memory limit

/-! ### Streams and the epoch instant -/

theorem modStream_stream (s : State) (x : Side) (n : Nat) (f : FusStream → FusStream) (k : Nat) :
    ((s.modStream x n f).ld x).fus.stream k = if k = n then f ((s.ld x).fus.stream n) else (s.ld x).fus.stream k := by
  simp only [State.modStream, modLd_ld, Fus.stream, Tab.get_upd]

/-- The epoch instants (06 R238) depend on the ticks, the crossing, the manifest and its start only. -/
theorem fusTau_congr {x : Side} {t s : State} (hstays : StaysOn x t s) (himg : (t.ld x).fmn.img = (s.ld x).fmn.img)
    (hcrossing : (t.ld x).fmn.crossing = (s.ld x).fmn.crossing) (hstart : (t.ld x).fus.start = (s.ld x).fus.start) (e : Int) :
    fusTau t x e = fusTau s x e := by
  simp only [fusTau, himg, hcrossing, hstart, hstays.grid]

/-! ### A sample stored (06 R239) -/

/-- A stream with a sample on time in its history. -/
def storedOnTime (p : FusSample) (t : FusStream) : FusStream :=
  { t with latest := p.objs.getLast?.map (fun o => (o.2.1, o.2.2)), hist := joinSample p t.hist }

theorem storeSample_onTime {x : Side} {s : State} {p : FusSample} (h : fusTau s x (((s.ld x).fus.window : Int) - 1) < p.t) (n k : Nat) :
    ((storeSample x n p s).ld x).fus.stream k
      = if k = n then storedOnTime p ((s.ld x).fus.stream n) else (s.ld x).fus.stream k := by
  have htau : fusTau (s.modStream x n fun t => { t with latest := p.objs.getLast?.map (fun o => (o.2.1, o.2.2)) }) x
      (((s.ld x).fus.window : Int) - 1) < p.t := by
    rwa [State.modStream, fusTau_congr (staysOn_modLd ..) (by rw [modLd_ld]) (by rw [modLd_ld]) (by rw [modLd_ld])]
  rw [storeSample, if_pos htau, modStream_stream, modStream_stream, modStream_stream, if_pos rfl]
  split
  · rfl
  · rfl

/-! ### An entry acted on (06 R235) -/

/-- `n` bytes from byte `o` of an entry, as a number. -/
def entryField (ws : List Pw) (o n : Nat) : Nat := ofLe (((ofWords ws).drop o).take n)

/-- The sample of an entry of a stream in vessel time. -/
def entrySample (ws : List Pw) : FusSample :=
  { t := entryField ws 8 8, a := entryField ws 0x10 8, stamp := entryField ws 8 8,
    objs := [(entryField ws 1 1, (List.range 3).map (fun i => BitVec.ofNat 64 (entryField ws (0x18 + 8 * i) 8)),
      (List.range 3).map (fun i => BitVec.ofNat 32 (entryField ws (0x30 + 4 * i) 4)))] }

/-- The entry `ws` passes the checks of 06 R235, in the manifest `m`, for a heading of a stream in vessel time described at `d`. -/
structure SoundHeading (m : Tab Byte) (ws : List Pw) (d : Nat) : Prop where
  named : entryField ws 0 1 ≠ 0xFF
  unpoisoned : ws.any (fun w => w.p) = false
  stream : fusDesc m (entryField ws 0 1) = some d
  base : dBase m d = 0
  kind : dKind m d = 5
  object : entryField ws 1 1 = 0
  flags : entryField ws 2 2 < 2
  reserved : entryField ws 4 4 = 0
  reservedEnd : entryField ws 0x3C 4 = 0
  sigma : sigmaOk (BitVec.ofNat 32 (entryField ws 0x30 4)) = true
  arrival : entryField ws 8 8 ≤ entryField ws 0x10 8

section
variable {x : Side} {ws : List Pw} {s : State}

theorem alignEntry_empty (hn : entryField ws 0 1 = 0xFF) : alignEntry x ws s = s := if_pos hn

theorem alignEntry_poisoned (hn : entryField ws 0 1 ≠ 0xFF) (hp : ws.any (fun w => w.p) = true) :
    alignEntry x ws s = raise (.landing x) 0x0502 0 s :=
  (if_neg hn).trans (if_pos hp)

theorem alignEntry_sound {d : Nat} (hsound : SoundHeading (s.ld x).fmn.img ws d)
    (hadrift : ((s.ld x).fus.stream (entryField ws 0 1)).adrift = false) :
    alignEntry x ws s = storeSample x (entryField ws 0 1) (entrySample ws) s := by
  obtain ⟨hn, hp, hd, hbase, hkind, hobj, hflags, hzero, hend, hsigma, harrival⟩ := hsound
  have hused : (usedSigma 5).all (fun i =>
      sigmaOk (((List.range 3).map (fun i => BitVec.ofNat 32 (entryField ws (0x30 + 4 * i) 4))).getD i 0)) = true :=
    (Bool.and_true _).trans hsigma
  have harrival' : ¬((entryField ws 0x10 8 : Int) < (entryField ws 8 8 : Int)) := by omega
  have hflags' : ¬entryField ws 2 2 ≥ 2 := by omega
  unfold entrySample entryField at *
  simp only [alignEntry, sampleInstant, hn, hp, hd, hkind, hbase, hused, hzero, hend, hobj, hadrift, hflags', harrival', reduceIte, ne_eq,
    not_true, decide_false, Bool.or_false, Bool.not_true, Bool.false_eq_true, Nat.reduceEqDiff, Bool.and_false, OfNat.zero_ne_ofNat]

end

/-! ### ALIGN as its dispatch entry starts it -/

section
variable {x : Side} {q k at_ : Nat} {s : State} {r : List Pw × State}
  (hr : memReadN x (0x30053000 + 64 * (q % 64)) 8 (markIssued x k (advance at_ s)) = r)
include hr

theorem entryRead_beside : StaysOn x r.2 (advance at_ s) ∧ (r.2.ld x).fus = (s.ld x).fus ∧ (r.2.ld x).fmn.img = (s.ld x).fmn.img
    ∧ ∀ e, fusTau r.2 x e = fusTau (advance at_ s) x e := by
  subst hr
  have hread := memoryOnly_memReadN x (0x30053000 + 64 * (q % 64)) 8 (markIssued x k (advance at_ s))
  have hstays := staysOn_trans hread.stays (staysOn_modLd ..)
  have hfus := hread.fus
  have hfmn := hread.fmn
  rw [markIssued, modLd_ld, advance_ld] at hfus hfmn
  exact ⟨hstays, hfus, by rw [markIssued, hfmn],
    fusTau_congr hstays (by rw [markIssued, hfmn, advance_ld]) (by rw [markIssued, hfmn, advance_ld]) (by rw [markIssued, hfus, advance_ld])⟩

theorem alignOp_fus : ((alignOp x q (markIssued x k (advance at_ s))).ld x).fus = ((alignEntry x r.1 r.2).ld x).fus := by
  subst hr
  exact (memoryOnly_memPut ..).fus

theorem alignOp_skips (hskip : entryField r.1 0 1 = 0xFF ∨ r.1.any (fun w => w.p) = true) :
    ((alignOp x q (markIssued x k (advance at_ s))).ld x).fus = (s.ld x).fus := by
  obtain ⟨_, hfus, _⟩ := entryRead_beside hr
  rw [alignOp_fus hr]
  by_cases hn : entryField r.1 0 1 = 0xFF
  · rw [alignEntry_empty hn, hfus]
  · rw [alignEntry_poisoned hn (hskip.resolve_left hn), (memoryOnly_raise ..).fus, hfus]

theorem alignOp_stores {d : Nat} (hsound : SoundHeading (s.ld x).fmn.img r.1 d)
    (hadrift : ((s.ld x).fus.stream (entryField r.1 0 1)).adrift = false)
    (hlater : fusTau (advance at_ s) x (((s.ld x).fus.window : Int) - 1) < (entryField r.1 8 8 : Int)) (j : Nat) :
    ((alignOp x q (markIssued x k (advance at_ s))).ld x).fus.stream j
      = if j = entryField r.1 0 1 then storedOnTime (entrySample r.1) ((s.ld x).fus.stream (entryField r.1 0 1)) else (s.ld x).fus.stream j := by
  obtain ⟨_, hfus, himg, htau⟩ := entryRead_beside hr
  rw [alignOp_fus hr, alignEntry_sound (by rwa [himg]) (by rwa [hfus]), storeSample_onTime (by rwa [hfus, htau]), hfus]

end

theorem staysOn_modStream (x : Side) (n : Nat) (f : FusStream → FusStream) (s : State) : StaysOn x (s.modStream x n f) s := staysOn_modLd ..

theorem staysOn_storeSample (x : Side) (n : Nat) (p : FusSample) (s : State) : StaysOn x (storeSample x n p s) s := by
  unfold storeSample
  dsimp only
  refine staysOn_ite (staysOn_trans (staysOn_modStream ..) (staysOn_modStream ..)) (staysOn_ite ?_ ?_)
  · exact staysOn_trans (staysOn_raise ..)
      (staysOn_trans (staysOn_modLd ..) (staysOn_trans (staysOn_modStream ..) (staysOn_modStream ..)))
  · exact staysOn_trans (staysOn_modStream ..) (staysOn_trans (staysOn_modStream ..) (staysOn_modStream ..))

theorem staysOn_alignEntry (x : Side) (ws : List Pw) (s : State) : StaysOn x (alignEntry x ws s) s := by
  have hlimited : ∀ code n u, StaysOn x (raisePerSecond (.landing x) code n n u) u := fun _ _ _ => (memoryOnly_raisePerSecond ..).stays
  unfold alignEntry
  dsimp only
  refine staysOn_ite (staysOn_refl ..) (staysOn_ite (staysOn_raise ..) ?_)
  split
  · exact hlimited ..
  · have hclock := fun (c : Prop) [Decidable c] n f => staysOn_ite (c := c) (staysOn_modStream x n f s) (staysOn_refl x s)
    exact staysOn_ite (hlimited ..) (staysOn_ite (staysOn_trans (hlimited ..) (hclock ..))
      (staysOn_ite (hclock ..) (staysOn_trans (staysOn_storeSample ..) (hclock ..))))

theorem staysOn_alignOp (x : Side) (q : Nat) (s : State) : StaysOn x (alignOp x q s) s :=
  staysOn_trans (memoryOnly_memPut ..).stays (staysOn_trans (staysOn_alignEntry ..) (memoryOnly_memReadN ..).stays)

end Sys2Proof.Machine
end

section
/-!
The epoch's work of a CLOSE (06 R236 to R258): what it keeps of its number, the levels before and the streams' exclusions.
-/
namespace Sys2Proof.Machine
set_option Elab.async false -- one proof at a time, as in the tests: the compile is close to its memory limit

/-! ### What every step but the level keeps -/

/-- `w` comes from `v` by steps that leave the epoch, the levels of the last epochs, the streams out of service and, for the streams that
satisfy `c`, how they are excluded. -/
structure Keeps (c : Nat → Prop) (w v : FusWork) : Prop where
  epoch : w.e = v.e
  levels : w.f.levels = v.f.levels
  excluded : w.excluded = v.excluded
  excl : ∀ n, c n → (w.f.stream n).excl = (v.f.stream n).excl

section
variable {c : Nat → Prop}

theorem keeps_refl (w : FusWork) : Keeps c w w := ⟨rfl, rfl, rfl, fun _ _ => rfl⟩

theorem keeps_trans {w u v : FusWork} (h : Keeps c w u) (k : Keeps c u v) : Keeps c w v := by
  obtain ⟨he, hlevels, hout, hexcl⟩ := h
  obtain ⟨ke, klevels, kout, kexcl⟩ := k
  exact ⟨he.trans ke, hlevels.trans klevels, hout.trans kout, fun n hn => (hexcl n hn).trans (kexcl n hn)⟩

/-- A change that leaves the streams too. -/
theorem keeps_of_streams {w v : FusWork} (he : w.e = v.e := by rfl) (hlevels : w.f.levels = v.f.levels := by rfl)
    (hout : w.excluded = v.excluded := by rfl) (hstreams : w.f.streams = v.f.streams := by rfl) : Keeps c w v :=
  ⟨he, hlevels, hout, fun n _ => by rw [Fus.stream, hstreams, Fus.stream]⟩

theorem keeps_ite {p : Prop} [Decidable p] {w u v : FusWork} (h : Keeps c w v) (k : Keeps c u v) : Keeps c (if p then w else u) v := by
  split <;> assumption

theorem keeps_foldl {α : Type} {f : FusWork → α → FusWork} (hf : ∀ w a, Keeps c (f w a) w) (l : List α) (w : FusWork) :
    Keeps c (l.foldl f w) w := by
  induction l generalizing w with
  | nil => exact keeps_refl w
  | cons a l ih => exact keeps_trans (ih _) (hf w a)

theorem keeps_note (w : FusWork) (code detail : Nat) (perSec : Bool) : Keeps c (w.note code detail perSec) w := keeps_of_streams

theorem keeps_flag (w : FusWork) (b : Nat) : Keeps c (w.flag b) w := keeps_of_streams

theorem modStream_workStream (w : FusWork) (n : Nat) (g : FusStream → FusStream) (k : Nat) :
    (w.modStream n g).f.stream k = if k = n then g (w.f.stream n) else w.f.stream k := Tab.get_upd ..

theorem keeps_modStream (w : FusWork) (n : Nat) {g : FusStream → FusStream} (hg : c n → ∀ t, (g t).excl = t.excl := by intros; rfl) :
    Keeps c (w.modStream n g) w := by
  refine ⟨rfl, rfl, rfl, fun k hk => ?_⟩
  rw [modStream_workStream]
  split
  · subst k
    exact hg hk _
  · rfl

/-! ### Steps 2 to 6 (06 R236 to R249) -/

theorem clockStep_keeps (m : Tab Byte) (w : FusWork) (d : Nat) : Keeps c (clockStep m w d) w := by
  unfold clockStep
  dsimp only
  split
  · exact keeps_refl w
  · next o _ =>
    generalize hw1 : w.modStream (le m d 1) (fun t => { t with oMin := none }) = w1
    have hobs : Keeps c w1 w := by rw [← hw1]; exact keeps_modStream ..
    refine keeps_trans (u := w1) ?_ hobs
    split
    · exact keeps_refl w1
    · split
      · split
        · exact keeps_refl w1
        · exact keeps_ite (keeps_modStream ..)
            (keeps_ite (keeps_ite (keeps_trans (keeps_note ..) (keeps_modStream ..)) (keeps_modStream ..)) (keeps_modStream ..))
      · split
        · exact keeps_refl w1
        · exact keeps_ite (keeps_trans (keeps_note ..) (keeps_modStream ..)) (keeps_modStream ..)

theorem modelInput_keeps (ws : List Pw) (w : FusWork) : Keeps c (modelInput ws w) w :=
  keeps_ite (keeps_trans (keeps_note ..) (keeps_flag ..)) keeps_of_streams

theorem lateForm_keeps (m : Tab Byte) (g : FusFrame) (tau0 : Int) (w : FusWork) (dp : Nat × FusSample) :
    Keeps c (lateForm m g tau0 w dp) w := by
  unfold lateForm
  dsimp only
  split
  · exact keeps_of_streams
  · refine keeps_ite (keeps_trans (keeps_foldl (fun w o => ?_) _ _) keeps_of_streams) keeps_of_streams
    split
    · exact keeps_of_streams
    · exact keeps_ite (keeps_note ..) (keeps_refl w)

theorem listStream_keeps (m : Tab Byte) (g : FusFrame) (pv : Mat) (acc : FusWork × List Nat × List (Bool × Nat)) (d : Nat) :
    Keeps c (listStream m g pv acc d).1 acc.1 := by
  unfold listStream
  dsimp only
  split
  · exact keeps_refl _
  · split
    · exact keeps_refl _
    · refine keeps_trans (keeps_foldl (fun w o => ?_) _ _) (keeps_trans keeps_of_streams (keeps_modStream ..))
      split
      · exact keeps_ite keeps_of_streams keeps_of_streams
      · refine keeps_ite (keeps_note ..) (keeps_ite ?_ (keeps_refl w))
        split
        · exact keeps_of_streams
        · exact keeps_note ..

theorem foldl_listStream_keeps (m : Tab Byte) (g : FusFrame) (pv : Mat) (l : List Nat) (acc : FusWork × List Nat × List (Bool × Nat)) :
    Keeps c (l.foldl (listStream m g pv) acc).1 acc.1 := by
  induction l generalizing acc with
  | nil => exact keeps_refl _
  | cons d l ih => exact keeps_trans (ih _) (listStream_keeps ..)

theorem closeTracks_keeps (m : Tab Byte) (before : List FusTrack) (hits : List Nat) (fed : List (Bool × Nat)) (w : FusWork) :
    Keeps c (closeTracks m before hits fed w) w :=
  keeps_foldl (fun w _ => keeps_ite (keeps_refl w) keeps_of_streams) _ w

theorem streamForm_keeps (m : Tab Byte) (g : FusFrame) (w : FusWork) (d : Nat) : Keeps c (streamForm m g w d) w := by
  unfold streamForm
  dsimp only
  split
  · exact keeps_refl w
  · split
    · exact keeps_refl w
    · exact keeps_trans keeps_of_streams (keeps_modStream w _)

theorem capMeas_keeps (m : Tab Byte) (w : FusWork) : Keeps c (capMeas m w) w := keeps_ite keeps_of_streams keeps_of_streams

/-! ### Steps 7 and 8 (06 R245, R250, R251, R253, R256) -/

theorem voteStep_keeps (m : Tab Byte) (w : FusWork) : Keeps c (voteStep m w) w := by
  unfold voteStep
  extract_lets ms w1 v gs med _ w2 w3 out mk mean big w4 _ w5
  have hpositions : Keeps c w1 w := by
    refine keeps_foldl (fun w d => ?_) _ _
    dsimp only
    split
    · exact keeps_modStream ..
    · exact keeps_refl w
  have hset : Keeps c w2 w := keeps_trans keeps_of_streams hpositions
  clear_value w2
  have hpair : Keeps c w5 w := keeps_trans keeps_of_streams hset
  refine keeps_ite ?_ (keeps_ite (keeps_ite (keeps_ite (keeps_trans (keeps_note ..) hpair) hpair) hset) hset)
  exact keeps_trans (keeps_foldl (fun w n => keeps_note ..) _ _) (keeps_trans keeps_of_streams hset)

theorem gateNotes_keeps (w : FusWork) (q : FusMeas) : Keeps c (gateNotes w q) w := by
  have hnumeric : Keeps c (if q.numeric then w.note 0x0512 q.stream false else w) w := keeps_ite (keeps_note ..) (keeps_refl w)
  exact keeps_ite (keeps_trans (keeps_note ..) hnumeric) hnumeric

theorem noteApplied_keeps (w : FusWork) (q : FusMeas) : Keeps c (noteApplied w q) w := by
  unfold noteApplied
  extract_lets w1
  have hmark : Keeps c w1 w := keeps_modStream ..
  exact keeps_ite (keeps_trans keeps_of_streams hmark) hmark

theorem applyLate_keeps (m : Tab Byte) (w : FusWork) : Keeps c (applyLate m w) w := by
  refine keeps_trans (keeps_foldl (fun w q => ?_) _ _) keeps_of_streams
  dsimp only
  split
  · exact keeps_of_streams
  · refine keeps_ite ?_ (keeps_trans (gateNotes_keeps ..) keeps_of_streams)
    split
    · exact keeps_trans (gateNotes_keeps ..) keeps_of_streams
    · exact keeps_trans (noteApplied_keeps ..) (keeps_trans keeps_of_streams (keeps_trans (gateNotes_keeps ..) keeps_of_streams))

theorem applyOnTime_keeps (m : Tab Byte) (w : FusWork) : Keeps c (applyOnTime m w) w := by
  refine keeps_trans (keeps_foldl (fun w q => ?_) _ _) (keeps_trans (keeps_foldl gateNotes_keeps _ _) keeps_of_streams)
  exact keeps_ite (keeps_trans (noteApplied_keeps ..) keeps_of_streams) (keeps_refl w)

theorem initStep_keeps (m : Tab Byte) (w : FusWork) : Keeps c (initStep m w) w := by
  unfold initStep
  split
  · exact keeps_refl w
  · extract_lets ok _ w1 grp pos groups near _ set w2 q p _
    have hheading : Keeps c w1 w := by
      unfold w1
      split
      · exact keeps_ite (keeps_refl w) keeps_of_streams
      · exact keeps_refl w
    have hset : ∀ n e v, Keeps c (set n e v) w := fun n e v => keeps_trans keeps_of_streams hheading
    have hposition : Keeps c w2 w := by
      refine keeps_ite hheading (keeps_ite ?_ (keeps_ite (hset ..) hheading))
      split
      · exact hset ..
      · exact hheading
    exact keeps_ite (keeps_trans (keeps_note ..) (keeps_trans keeps_of_streams hposition)) hposition

/-! ### Steps 9 and 10 (06 R252 to R255) -/

/-- A window judged excludes no stream that is out of service already. -/
theorem windowStep_keeps {w : FusWork} {n : Nat} (hn : c n → n ∈ w.excluded) : Keeps c (windowStep w n) w := by
  unfold windowStep
  dsimp only
  split
  · exact keeps_refl w
  · next hserving =>
    have hnot : ¬c n := fun hcn => hserving (by simp [hn hcn])
    have hjudged : ∀ g, Keeps c (w.modStream n g) w := fun g => keeps_modStream w n (fun hcn => absurd hcn hnot)
    exact keeps_ite (keeps_trans (keeps_note ..) (keeps_trans (keeps_modStream _ n fun hcn => absurd hcn hnot) (hjudged _))) (hjudged _)

theorem foldl_windowStep_keeps (k : Nat → Nat) (l : List Nat) {w : FusWork} (hc : ∀ n, c n → n ∈ w.excluded) :
    Keeps c (l.foldl (fun w d => windowStep w (k d)) w) w := by
  induction l generalizing w with
  | nil => exact keeps_refl w
  | cons d l ih =>
    have hstep : Keeps c (windowStep w (k d)) w := windowStep_keeps (hc _)
    exact keeps_trans (ih (by rwa [hstep.excluded])) hstep

theorem reinitStep_keeps (m : Tab Byte) (w : FusWork) : Keeps c (reinitStep m w) w := by
  unfold reinitStep
  extract_lets pos cond _ big p near w1
  have hwindows : Keeps c w1 w := keeps_foldl (fun w e => keeps_modStream ..) _ _
  exact keeps_ite keeps_of_streams (keeps_ite keeps_of_streams
    (keeps_trans (keeps_note ..) (keeps_trans (keeps_flag ..) (keeps_trans keeps_of_streams hwindows))))

/-- The worst of the levels of the last 20 epochs, those before the start counting as F4 (06 R255). -/
def worstLevel (levels : List Nat) : Nat := (levels ++ List.replicate (20 - levels.length) 4).foldl max 0

theorem levelStep_leaves (m : Tab Byte) (w : FusWork) :
    (levelStep m w).e = w.e ∧ (∃ cand, (levelStep m w).f.levels = (cand :: w.f.levels).take 20)
      ∧ (levelStep m w).f.level = worstLevel (levelStep m w).f.levels
      ∧ ∀ n, ((levelStep m w).f.stream n).excl = (w.f.stream n).excl := by
  unfold levelStep
  extract_lets g dr hd cand lv lv' lev w1 w2 w3
  have hlevel : Keeps (fun _ => True) w1 w := keeps_ite (keeps_note ..) (keeps_ite (keeps_note ..) (keeps_refl w))
  have hheading : Keeps (fun _ => True) w2 w := keeps_ite hlevel (keeps_trans (keeps_flag ..) hlevel)
  obtain ⟨he, _, _, hexcl⟩ : Keeps (fun _ => True) w3 w := keeps_ite (keeps_trans (keeps_flag ..) hheading) hheading
  clear_value w3
  exact ⟨he, ⟨cand, rfl⟩, rfl, fun n => hexcl n trivial⟩

end

/-! ### The epoch's work (06 R258) -/

theorem get_default_or_mem {α : Type} (d : α) (t : Tab α) (n : Nat) : Tab.get d t n = d ∨ (n, Tab.get d t n) ∈ t := by
  induction t with
  | nil => exact .inl rfl
  | cons e t ih =>
    rw [get_cons]
    split
    · next h => exact .inr (by simp [← h])
    · exact ih.imp_right (List.mem_cons_of_mem _)

/-- A change of every stream that leaves how each is excluded. -/
theorem stream_map_excl {g : Nat × FusStream → Nat × FusStream} (hn : ∀ e, (g e).1 = e.1) (hg : ∀ e, (g e).2.excl = e.2.excl)
    (t : Tab FusStream) (n : Nat) : (Tab.get {} (t.map g) n).excl = (Tab.get {} t n).excl := by
  induction t with
  | nil => rfl
  | cons e t ih =>
    rw [List.map_cons, get_cons, get_cons, hn]
    split
    · exact hg e
    · exact ih

/-- A stream that is excluded is out of service for the epoch. -/
theorem mem_excluded {f : Fus} {n : Nat} (h : (f.stream n).excl ≠ 0) :
    n ∈ (f.streams.filter (fun e => e.2.excl ≠ 0 || e.2.adrift)).map (fun e => e.1) := by
  rcases get_default_or_mem {} f.streams n with hdefault | hmem
  · exact absurd (congrArg FusStream.excl hdefault) h
  · exact List.mem_map.mpr ⟨_, List.mem_filter.mpr ⟨hmem, by simpa using .inl h⟩, rfl⟩

theorem epochWork_leaves {m : Tab Byte} {g : FusFrame} {tau0 : Int} {input : List Pw} {w z : FusWork}
    (hz : epochWork m g tau0 input w = z) :
    z.e = w.e ∧ (∃ cand, z.f.levels = (cand :: w.f.levels).take 20) ∧ z.f.level = worstLevel z.f.levels
      ∧ ∀ n, (w.f.stream n).excl ≠ 0 → (z.f.stream n).excl = (w.f.stream n).excl := by
  unfold epochWork at hz
  extract_lets clocked barred serving model dt st _ predicted cosH sinH u v moving g1 late _ carried before lists tracked formed voted applied
    initial judged at hz
  have hclocked : Keeps (fun _ => True) clocked w := keeps_foldl (clockStep_keeps m) _ _
  obtain ⟨he, hlevels, _, hexcl⟩ := hclocked
  clear_value clocked
  have hmodel : Keeps (· ∈ serving.excluded) model serving := modelInput_keeps ..
  have hmoving : Keeps (· ∈ serving.excluded) moving serving :=
    keeps_trans keeps_of_streams (keeps_ite (keeps_trans keeps_of_streams hmodel) hmodel)
  have hlate : Keeps (· ∈ serving.excluded) late serving := keeps_trans (keeps_foldl (lateForm_keeps m g1 tau0) _ _) hmoving
  clear_value late
  have hcarried : Keeps (· ∈ serving.excluded) carried late :=
    ⟨rfl, rfl, rfl, fun n _ =>
      stream_map_excl (g := fun e => (e.1, { e.2 with lates := [] })) (fun _ => rfl) (fun _ => rfl) late.f.streams n⟩
  have htracked : Keeps (· ∈ serving.excluded) tracked carried := keeps_trans (closeTracks_keeps ..) (foldl_listStream_keeps ..)
  have hformed : Keeps (· ∈ serving.excluded) formed tracked := keeps_trans (capMeas_keeps ..) (keeps_foldl (streamForm_keeps m g1) _ _)
  have hinitial : Keeps (· ∈ serving.excluded) initial formed :=
    keeps_trans (initStep_keeps ..) (keeps_trans (applyOnTime_keeps ..) (keeps_trans (applyLate_keeps ..) (voteStep_keeps ..)))
  have hbefore : Keeps (· ∈ serving.excluded) initial serving :=
    keeps_trans hinitial (keeps_trans hformed (keeps_trans htracked (keeps_trans hcarried hlate)))
  have hwindows : Keeps (· ∈ serving.excluded) judged initial :=
    foldl_windowStep_keeps (fun d => le m d 1) _ (fun n hn => by rwa [hbefore.excluded])
  clear_value judged
  obtain ⟨ke, klevels, _, kexcl⟩ := keeps_trans (reinitStep_keeps m judged) (keeps_trans hwindows hbefore)
  obtain ⟨ze, ⟨cand, zlevels⟩, zlevel, zexcl⟩ := levelStep_leaves m (reinitStep m judged)
  subst hz
  refine ⟨ze.trans (ke.trans he), ⟨cand, ?_⟩, zlevel, fun n hn => ?_⟩
  · rw [zlevels, klevels]
    exact congrArg (fun l => (cand :: l).take 20) hlevels
  · rw [← hexcl n trivial] at hn ⊢
    rw [zexcl, kexcl n (mem_excluded hn)]

/-- How an epoch leaves the engine (06 R258): the epoch closed, no command waiting, levels and exclusions as its work left them. -/
theorem finishFus_leaves (m : Tab Byte) (w : FusWork) :
    (finishFus m w).closed = some w.e ∧ (finishFus m w).cmds = [] ∧ (finishFus m w).levels = w.f.levels ∧ (finishFus m w).level = w.f.level
      ∧ ∀ n, ((finishFus m w).stream n).excl = (w.f.stream n).excl := by
  refine ⟨rfl, rfl, rfl, rfl, fun n => ?_⟩
  exact stream_map_excl (fun e => by dsimp only; split <;> rfl) (fun e => by dsimp only; split <;> rfl) w.f.streams n

end Sys2Proof.Machine
end

section
/-!
CLOSE (06 R258 to R262) as its dispatch entry starts it: the commands carried out, what is read and written, and the statement on epochs.
-/
namespace Sys2Proof.Machine
set_option Elab.async false -- one proof at a time, as in the tests: the compile is close to its memory limit

/-! ### The commands carried out (06 R262) -/

theorem fusCommand_keeps (m : Tab Byte) (a : FusWork × FusFrame × List Nat) (k : FusCmd) :
    Keeps (fun _ => False) (fusCommand m a k).1 a.1 := by
  cases k with
  | exclude n => exact keeps_trans (keeps_note ..) (keeps_modStream _ n (fun h => h.elim))
  | readmit n => exact keeps_trans (keeps_note ..) (keeps_modStream _ n (fun h => h.elim))
  | pin j typ src n e sg st => exact keeps_of_streams
  | release j => exact keeps_of_streams
  | transform k b =>
    exact keeps_trans (keeps_note ..) (keeps_foldl (fun w d => keeps_ite (keeps_modStream ..) (keeps_refl w)) _ _)
  | origin la lo h => exact keeps_of_streams

theorem foldl_fusCommand_keeps (m : Tab Byte) (l : List FusCmd) (a : FusWork × FusFrame × List Nat) :
    Keeps (fun _ => False) (l.foldl (fusCommand m) a).1 a.1 := by
  induction l generalizing a with
  | nil => exact keeps_refl _
  | cons k l ih => exact keeps_trans (ih _) (fusCommand_keeps m a k)

theorem fusCommand_exclude (m : Tab Byte) (a : FusWork × FusFrame × List Nat) (n : Nat) :
    ((fusCommand m a (.exclude n)).1.f.stream n).excl = 3 := by
  have hstream := modStream_workStream a.1 n (fun t => { t with excl := 3 }) n
  rw [if_pos rfl] at hstream
  exact congrArg FusStream.excl hstream

/-! ### What a CLOSE reads and writes (06 R258, R260) -/

section
variable (x : Side)

theorem memoryOnly_foldl_snd {α β : Type} {f : β × State → α → β × State} (hf : ∀ p a, MemoryOnly x (f p a).2 p.2) (l : List α)
    (p : β × State) : MemoryOnly x (l.foldl f p).2 p.2 := by
  induction l generalizing p with
  | nil => exact memoryOnly_refl ..
  | cons a l ih => exact memoryOnly_trans (ih _) (hf p a)

theorem memoryOnly_readTransforms (m : Tab Byte) (s : State) : MemoryOnly x (readTransforms x m s).2 s := by
  unfold readTransforms
  refine memoryOnly_foldl_snd x (fun p k => ?_) _ _
  exact memoryOnly_memReadN ..

theorem memoryOnly_readTracks (n j : Nat) (s : State) : MemoryOnly x (readTracks x n j s).2.2 s := by
  induction n generalizing j s with
  | zero => exact memoryOnly_refl ..
  | succ n ih => exact memoryOnly_trans (ih ..) (memoryOnly_memReadN ..)

theorem memoryOnly_writeTracks (dirty : List Nat) (ts : List FusTrack) (j : Nat) (s : State) :
    MemoryOnly x (writeTracks x dirty ts j s) s := by
  induction ts generalizing j s with
  | nil => exact memoryOnly_refl ..
  | cons t ts ih => exact memoryOnly_trans (ih ..) (memoryOnly_memWriteN ..)

theorem closeOut_leaves (m : Tab Byte) (cmds : List FusCmd) (w : FusWork) (dirt : FusDirt) (poisoned : Bool) (s : State) :
    StaysOn x (closeOut x m cmds w dirt poisoned s) s ∧ ((closeOut x m cmds w dirt poisoned s).ld x).fus = finishFus m w
      ∧ ((closeOut x m cmds w dirt poisoned s).ld x).tiles = (s.ld x).tiles := by
  unfold closeOut
  extract_lets transformed finished raised marked recorded aligned
  have htransformed : MemoryOnly x transformed s := memoryOnly_foldl x (fun s k => by
    cases k with
    | transform k b => exact memoryOnly_memPut ..
    | _ => exact memoryOnly_refl ..) _ _
  have hraised : MemoryOnly x raised finished :=
    memoryOnly_foldl x (fun s r => memoryOnly_ite (memoryOnly_raisePerSecond ..) (memoryOnly_raise ..)) _ _
  have hmarked : MemoryOnly x marked raised := memoryOnly_ite (memoryOnly_raise ..) (memoryOnly_refl ..)
  have haligned : MemoryOnly x aligned marked :=
    memoryOnly_trans (memoryOnly_foldl x (fun s n => memoryOnly_memWriteN ..) _ _) (memoryOnly_memWriteN ..)
  have hout := memoryOnly_trans (memoryOnly_writeTracks x dirt.tracks w.tracks 0 aligned)
    (memoryOnly_trans haligned (memoryOnly_trans hmarked hraised))
  have hfinished : finished.ld x = { transformed.ld x with fus := finishFus m w } := modLd_ld ..
  refine ⟨staysOn_trans hout.stays (staysOn_trans (staysOn_modLd ..) htransformed.stays), ?_, ?_⟩
  · rw [hout.fus, hfinished]
  · rw [hout.tiles, hfinished, htransformed.tiles]

end

/-- What a CLOSE leaves of the landing with the state `l`, when it leaves the state `z`. -/
structure Closed (l z : Landing) : Prop where
  epoch : z.fus.closed = some ((l.fmn.crossing - l.fus.start) / max 1 (epochCrossings (imgPeriod l.fmn.img)))
  cmds : z.fus.cmds = []
  levels : ∃ cand, z.fus.levels = (cand :: l.fus.levels).take 20
  level : z.fus.level = worstLevel z.fus.levels
  excluded : ∀ n, l.fus.cmds = [.exclude n] → (z.fus.stream n).excl = 3
  tiles : z.tiles = l.tiles

theorem closeOp_leaves (x : Side) (s : State) : StaysOn x (closeOp x s) s ∧ Closed (s.ld x) ((closeOp x s).ld x) := by
  unfold closeOp
  extract_lets l m f e nt table tf tr inp org x0 p0 pub g f0 a before bad w _ w' dirt
  have hread : MemoryOnly x inp.2 s :=
    memoryOnly_trans (memoryOnly_memReadN ..) (memoryOnly_trans (memoryOnly_readTracks ..) (memoryOnly_readTransforms ..))
  obtain ⟨ae, alevels, _, _⟩ : Keeps (fun _ => False) a.1 ({ f := f0, e := e, tau := fusTau s x e, tracks := tr.1 } : FusWork) :=
    foldl_fusCommand_keeps ..
  have aexcl : ∀ n, f.cmds = [.exclude n] → (a.1.f.stream n).excl = 3 := by
    intro n hn
    have hone : a = fusCommand m _ (.exclude n) := congrArg (List.foldl (fusCommand m) _) hn
    rw [hone]
    exact fusCommand_exclude ..
  clear_value a
  obtain ⟨we, ⟨cand, wlevels⟩, wlevel, wexcl⟩ := epochWork_leaves (z := w) rfl
  clear_value w dirt
  obtain ⟨hstays, hfus, htiles⟩ := closeOut_leaves x m f.cmds w' dirt (!(tf.1.isEmpty && tr.2.1.isEmpty)) inp.2
  obtain ⟨hclosed, hcmds, hlevels, hlevel, hexcl⟩ := finishFus_leaves m w'
  refine ⟨staysOn_trans hstays hread.stays, ?_⟩
  constructor
  · rw [hfus, hclosed]
    exact congrArg some (we.trans ae)
  · rw [hfus, hcmds]
  · rw [hfus, hlevels]
    exact ⟨cand, wlevels.trans (congrArg (fun l => (cand :: l).take 20) alevels)⟩
  · rw [hfus, hlevels, hlevel]
    exact wlevel
  · intro n hn
    rw [hfus, hexcl]
    exact (wexcl n (by rw [aexcl n hn]; decide)).trans (aexcl n hn)
  · rw [htiles, hread.tiles]

/-- Settles O34: ALIGN by what it does with an empty, a poisoned and a sound entry, CLOSE by what each of its steps keeps. -/
theorem fusionEpochs : Obligations.FusionEpochs := by
  unfold Obligations.FusionEpochs
  constructor
  · intro at_ q x s k hk a r b fld n m
    have hr : memReadN x (0x30053000 + 64 * (q % 64)) 8 (markIssued x k (advance at_ s)) = r := rfl
    obtain ⟨hother, _, _, hmode⟩ := staysOn_trans (staysOn_alignOp x q (markIssued x k (advance at_ s))) (staysOn_modLd ..)
    refine ⟨_, congrArg Host.Outcome.next (runEntry_started hk (fun _ => alignOp x q) at_), peekByte_memPut_single .., ?_, ?_,
      fun hn => alignOp_skips hr (.inl hn), fun _ hp => alignOp_skips hr (.inr hp), ?_⟩
    · rw [hother, advance_ld]
    · rw [hmode, advance_mode]
    · intro d hn hp hd hbase hkind hobj hflags hzero hend hsigma hadrift harrival hlater
      have hstored := alignOp_stores hr (d := d) ⟨hn, hp, hd, hbase, hkind, hobj, hflags, hzero, hend, hsigma, harrival⟩ hadrift hlater
      have hself := (hstored n).trans (if_pos rfl)
      exact ⟨⟨entrySample r.1, rfl, rfl, rfl, congrArg FusStream.hist hself⟩, by rw [hself]; rfl,
        fun j hj => (hstored j).trans (if_neg hj)⟩
  · intro at_ x s l k hk
    obtain ⟨⟨hother, _, _, hmode⟩, hclosed⟩ := closeOp_leaves x (markIssued x k (advance at_ s))
    obtain ⟨_, hroleA, hroleB, _⟩ := closeOp_same x (markIssued x k (advance at_ s))
    have hld : (markIssued x k (advance at_ s)).ld x = { l with fmn := { l.fmn with issued := l.fmn.issued ++ [k] } } := by
      rw [markIssued, modLd_ld, advance_ld]
    rw [hld] at hclosed
    obtain ⟨hepoch, hcmds, hlevels, hlevel, hexcluded, htiles⟩ := hclosed
    refine ⟨_, congrArg Host.Outcome.next (runEntry_started hk (fun _ => closeOp x) at_), hepoch, hcmds, hlevels, hlevel, hexcluded, ?_,
      htiles, ?_, ?_, ?_⟩
    · rw [hother, markIssued, modLd_other, advance_ld]
    · rw [hmode, markIssued, modLd_mode, advance_mode]
    · rw [hroleA, markIssued, modLd_roleA, advance_roleA]
    · rw [hroleB, markIssued, modLd_roleB, advance_roleB]

end Sys2Proof.Machine
end

section
/-!
A slice of a solver job (07 R282 to R289): what it makes of its job, and that it leaves the other jobs and, beside the memories, everything else.
-/
namespace Sys2Proof.Machine
set_option Elab.async false -- one proof at a time, as in the tests: the compile is close to its memory limit

/-! ### What is read of the store and written to it (07 R273, R277, R284) -/

theorem memoryOnly_readIte {α : Type} {x : Side} {s : State} {c : Prop} [Decidable c] {p q : α × SlvRead} (hp : MemoryOnly x p.2.s s)
    (hq : MemoryOnly x q.2.s s) : MemoryOnly x (if c then p else q).2.s s := by
  split <;> assumption

section
variable (x : Side)

theorem memoryOnly_bytes (r : SlvRead) (off n : Nat) : MemoryOnly x (r.bytes x off n).2.s r.s := memoryOnly_memReadN ..

theorem memoryOnly_vec (r : SlvRead) (prec off n : Nat) : MemoryOnly x (r.vec x prec off n).2.s r.s := memoryOnly_bytes ..

theorem memoryOnly_vecs (prec : Nat) (ns : List Nat) (off : Nat) (r : SlvRead) : MemoryOnly x (SlvRead.vecs x prec ns off r).2.s r.s := by
  induction ns generalizing off r with
  | nil => exact memoryOnly_refl ..
  | cons n ns ih => exact memoryOnly_trans (ih ..) (memoryOnly_vec ..)

theorem memoryOnly_csr (r : SlvRead) (prec : Nat) (a : SlvMat) : MemoryOnly x (r.csr x prec a).2.s r.s :=
  memoryOnly_trans (memoryOnly_vec ..) (memoryOnly_trans (memoryOnly_bytes ..) (memoryOnly_bytes ..))

theorem memoryOnly_readPrecond (m : Tab Byte) (d : SlvDesc) (t : SlvJob) (r : SlvRead) :
    MemoryOnly x (readPrecond x m d t r).2.s r.s := by
  unfold readPrecond
  split
  · exact memoryOnly_refl ..
  · exact memoryOnly_readIte (memoryOnly_refl ..) (memoryOnly_readIte (memoryOnly_vec ..) (memoryOnly_vec ..))

theorem memoryOnly_writeVec (prec off : Nat) (v : List Nat) (s : State) : MemoryOnly x (writeVec x prec off v s) s := memoryOnly_memPut ..

theorem memoryOnly_writeVecs (prec : Nat) (vs : List (List Nat)) (off : Nat) (s : State) :
    MemoryOnly x (writeVecs x prec vs off s) s := by
  induction vs generalizing off s with
  | nil => exact memoryOnly_refl ..
  | cons v vs ih => exact memoryOnly_trans (ih ..) (memoryOnly_writeVec ..)

end

theorem memoryOnly_foldl_fst {α β : Type} {x : Side} {f : State × β → α → State × β} (hf : ∀ p a, MemoryOnly x (f p a).1 p.1)
    (l : List α) (p : State × β) : MemoryOnly x (l.foldl f p).1 p.1 := by
  induction l generalizing p with
  | nil => exact memoryOnly_refl ..
  | cons a l ih => exact memoryOnly_trans (ih _) (hf p a)

/-! ### A job worked on -/

/-- `t` comes from `s` by work on job `j` of landing `x`, which leaves that job as `z`. -/
structure JobTo (x : Side) (j : Nat) (z : SlvJob) (t s : State) : Prop where
  stays : StaysOn x t s
  fmn : (t.ld x).fmn = (s.ld x).fmn
  tiles : (t.ld x).tiles = (s.ld x).tiles
  jobs : ∀ k, (t.ld x).slv.job k = if k = j then z else (s.ld x).slv.job k

section
variable {x : Side} {j : Nat} {z : SlvJob} {t u s : State}

theorem jobTo_refl (x : Side) (j : Nat) (s : State) : JobTo x j ((s.ld x).slv.job j) s s := by
  refine ⟨staysOn_refl .., rfl, rfl, fun k => ?_⟩
  split
  · subst k; rfl
  · rfl

theorem JobTo.self (h : JobTo x j z t s) : (t.ld x).slv.job j = z := (h.jobs j).trans (if_pos rfl)

/-- Work that leaves the jobs as they are. -/
theorem JobTo.beside (h : JobTo x j z u s) (hstays : StaysOn x t u) (hfmn : (t.ld x).fmn = (u.ld x).fmn)
    (htiles : (t.ld x).tiles = (u.ld x).tiles) (hjobs : (t.ld x).slv.jobs = (u.ld x).slv.jobs) : JobTo x j z t s := by
  obtain ⟨ustays, ufmn, utiles, ujobs⟩ := h
  exact ⟨staysOn_trans hstays ustays, hfmn.trans ufmn, htiles.trans utiles, fun k => by rw [Slv.job, hjobs]; exact ujobs k⟩

theorem JobTo.memory (h : JobTo x j z u s) (k : MemoryOnly x t u) : JobTo x j z t s :=
  h.beside k.stays k.fmn k.tiles (by rw [k.landing])

theorem JobTo.raise (h : JobTo x j z u s) (code detail : Nat) : JobTo x j z (raise (.landing x) code detail u) s :=
  h.memory (memoryOnly_raise ..)

theorem JobTo.modJob (h : JobTo x j z u s) (f : SlvJob → SlvJob) : JobTo x j (f z) (u.modJob x j f) s := by
  have hself := h.self
  obtain ⟨ustays, ufmn, utiles, ujobs⟩ := h
  refine ⟨staysOn_trans (staysOn_modLd ..) ustays, ?_, ?_, fun k => ?_⟩
  · rw [State.modJob, modLd_ld, ufmn]
  · rw [State.modJob, modLd_ld, utiles]
  · rw [State.modJob, modLd_ld, Slv.job, Tab.get_upd]
    split
    · exact congrArg f hself
    · rename_i hk
      exact (ujobs k).trans (if_neg hk)

theorem JobTo.slvAbandon (h : JobTo x j z u s) (slice : Nat) :
    JobTo x j { z with abandoned := true, missed := (z.missed + 1) % 256 } (slvAbandon x j slice u) s := by
  have hstalled := (h.beside (t := u.modLd x fun l => { l with slv := { l.slv with stallAt := j + slice * 256 } }) (staysOn_modLd ..)
    (by rw [modLd_ld]) (by rw [modLd_ld]) (by rw [modLd_ld])).modJob fun t => { t with abandoned := true, missed := (t.missed + 1) % 256 }
  unfold Sys2Proof.Machine.slvAbandon
  dsimp only
  split
  · split
    · exact hstalled.raise ..
    · exact hstalled
  · exact hstalled

theorem JobTo.slvFinish {d : SlvDesc} (h : JobTo x d.id z u s) (v : List Nat) (res : F64) :
    ∃ status bad, JobTo x d.id { z with finished := true, status := status, bad := bad } (slvFinish x d v res u) s :=
  ⟨_, _, (h.modJob fun t => { t with finished := true, status := _, bad := _ }).memory (memoryOnly_memPut ..)⟩

end

/-- A slice of `n` units of work makes `z` of its job `t`; `last` that it is the job's last (07 R285, R288, R289). -/
structure Worked (n : Nat) (last : Prop) (z t : SlvJob) : Prop where
  started : z.started = t.started
  inst : z.inst = t.inst
  buffer : z.buffer = t.buffer
  work : z.abandoned = true ∨ z.work = t.work + n
  finished : last → z.abandoned = true ∨ z.finished = true

section
variable {x : Side} {d : SlvDesc} {n : Nat} {t z : SlvJob} {u u' s : State}

/-- A slice that gives up. -/
theorem worked_abandoned (h : JobTo x d.id t u s) (hu : MemoryOnly x u' u) (slice code detail : Nat) (last : Prop) :
    ∃ z, JobTo x d.id z (raise (.landing x) code detail (slvAbandon x d.id slice u')) s ∧ Worked n last z t :=
  ⟨_, ((h.memory hu).slvAbandon slice).raise code detail, rfl, rfl, rfl, .inl rfl, fun _ => .inl rfl⟩

/-- A job with `n` units of work more. -/
theorem worked_more (n : Nat) (t : SlvJob) (scal : Tab Nat) (pivotBad : Bool) :
    Worked n False { t with work := t.work + n, scal := scal, pivotBad := pivotBad } t :=
  ⟨rfl, rfl, rfl, .inr rfl, nofun⟩

/-- A slice that has added to the work: it finishes the job's run where it is the last. -/
theorem worked_added (hlast : JobTo x d.id z u s) (hmore : JobTo x d.id z u' s) (hz : Worked n False z t) (last : Prop) [Decidable last]
    (v : List Nat) (res : F64) :
    ∃ z', JobTo x d.id z' (if last then slvFinish x d v res u else u') s ∧ Worked n last z' t := by
  obtain ⟨hstarted, hinst, hbuffer, hwork, _⟩ := hz
  split
  · obtain ⟨status, bad, hfinish⟩ := hlast.slvFinish v res
    exact ⟨_, hfinish, hstarted, hinst, hbuffer, hwork, fun _ => .inr rfl⟩
  · rename_i hl
    exact ⟨z, hmore, hstarted, hinst, hbuffer, hwork, fun hlast => absurd hlast hl⟩

theorem solveSlice_worked (h : JobTo x d.id z u s) (m : Tab Byte) (t : SlvJob) (n : Nat) (first last : Bool) :
    ∃ z', JobTo x d.id z' (solveSlice x m d t n first last u) s ∧ Worked n (last = true) z' z := by
  unfold solveSlice
  extract_lets rows mc rA rC rT rP rB rX rl ry rW r c A ad w0 w w' c' sc added written res
  have hread : MemoryOnly x r u := by
    have hA : MemoryOnly x rA.2.s u := memoryOnly_csr ..
    have hC : MemoryOnly x rC.2.s rA.2.s := memoryOnly_readIte (memoryOnly_csr ..) (memoryOnly_refl ..)
    have hT : MemoryOnly x rT.2.s rC.2.s := memoryOnly_readIte (memoryOnly_csr ..) (memoryOnly_refl ..)
    have hX : MemoryOnly x rX.2.s rT.2.s :=
      memoryOnly_trans (memoryOnly_vec ..) (memoryOnly_trans (memoryOnly_vec ..) (memoryOnly_readPrecond ..))
    have hW : MemoryOnly x rW.2.s rX.2.s := memoryOnly_readIte (memoryOnly_vecs ..)
      (memoryOnly_readIte (memoryOnly_trans (memoryOnly_vec ..) (memoryOnly_vecs ..)) (memoryOnly_refl ..))
    exact memoryOnly_trans hW (memoryOnly_trans hX (memoryOnly_trans hT (memoryOnly_trans hC hA)))
  clear_value r rW
  split
  · exact worked_abandoned h hread ..
  · have hadded : JobTo x d.id { z with work := z.work + n, scal := sc } added s :=
      (h.memory hread).modJob fun t => { t with work := t.work + n, scal := sc }
    have hwritten := hadded.memory (memoryOnly_trans (memoryOnly_writeVec x d.prec d.x w'.x _) (memoryOnly_writeVecs x d.prec w'.vs d.area _))
    exact worked_added hwritten hwritten (worked_more ..) ..

theorem factorSlice_worked (h : JobTo x d.id z u s) (m : Tab Byte) (t : SlvJob) (n : Nat) (last : Bool) :
    ∃ z', JobTo x d.id z' (factorSlice x m d t n last u) s ∧ Worked n (last = true) z' z := by
  unfold factorSlice
  extract_lets a rA r c back base sizes put built pad padded added told
  have hread : MemoryOnly x r u := memoryOnly_csr ..
  have hbuilt : MemoryOnly x built.1 r := memoryOnly_foldl_fst (fun _ _ => memoryOnly_memPut ..) ..
  have hpadded : MemoryOnly x padded r := memoryOnly_ite (memoryOnly_trans (memoryOnly_memPut ..) hbuilt) hbuilt
  have htold : MemoryOnly x told added := memoryOnly_ite (memoryOnly_raise ..) (memoryOnly_refl ..)
  split
  · exact worked_abandoned h hread ..
  · have hadded : JobTo x d.id { z with work := z.work + n, pivotBad := z.pivotBad || built.2 } added s :=
      (h.memory (memoryOnly_trans hpadded hread)).modJob fun t => { t with work := t.work + n, pivotBad := t.pivotBad || built.2 }
    exact worked_added (hadded.memory htold) (hadded.memory htold) (worked_more ..) ..

end

/-! ### The slice (07 R285, R288, R289) -/

/-- Job `y` as slice `t.slice` of the job `t` finds it on the landing `l`: slice 0 begins a new run. -/
structure Begun (l : Landing) (d : SlvDesc) (y t : SlvJob) : Prop where
  first : t.slice = 0 → y.started = l.fmn.crossing ∧ y.inst = (t.inst + 1) % 2 ^ 32 ∧ y.buffer = (l.slv.job d.factor).committed.getD 0
  work : y.work = if t.slice = 0 then 0 else t.work

theorem slice_begun (x : Side) (d : SlvDesc) (s : State) :
    ∃ y, JobTo x d.id y (if ((s.ld x).slv.job d.id).slice = 0 then slvBegin x d s else s) s
      ∧ Begun (s.ld x) d y ((s.ld x).slv.job d.id) := by
  split
  · rename_i h0
    exact ⟨_, (jobTo_refl ..).modJob _, fun _ => ⟨rfl, rfl, rfl⟩, (if_pos h0).symm⟩
  · rename_i h0
    exact ⟨_, jobTo_refl .., fun hz => absurd hz h0, (if_neg h0).symm⟩

/-- What a slice makes of a job that the manifest describes. -/
theorem sliceOp_worked {x : Side} {j : Nat} {d : SlvDesc} {s : State} (hd : slvDesc (s.ld x).fmn.img j = some d) :
    ∃ y z, JobTo x j { z with slice := if ((s.ld x).slv.job j).slice + 1 = d.slices then 0 else ((s.ld x).slv.job j).slice + 1 }
        (sliceOp x j s) s
      ∧ Begun (s.ld x) d y ((s.ld x).slv.job j)
      ∧ Worked (slvEntry (s.ld x).fmn.img d ((s.ld x).slv.job j).slice) (((s.ld x).slv.job j).slice + 1 = d.slices) z y := by
  obtain rfl : d.id = j := by simpa using List.find?_some hd
  obtain ⟨y, hy, hbegun⟩ := slice_begun x d s
  unfold sliceOp
  extract_lets l m t i
  have hdesc : slvDesc m d.id = some d := hd
  rw [hdesc]
  dsimp -zeta only
  extract_lets s1 t1 entry last s3 c v s2
  have hworked : ∃ z, JobTo x d.id z s2 s ∧ Worked entry last z y := by
    have hself : t1 = y := hy.self
    unfold s2
    split
    · rename_i hgone
      rw [hself] at hgone
      exact ⟨y, hy, rfl, rfl, rfl, .inl hgone, fun _ => .inl hgone⟩
    · split
      · have hadded : JobTo x d.id { y with work := y.work + entry } s3 s := hy.modJob fun t => { t with work := t.work + entry }
        exact worked_added (hadded.memory (memoryOnly_writeVec ..)) hadded (worked_more ..) ..
      · split
        · simpa only [decide_eq_true_eq] using factorSlice_worked hy m t1 entry (decide last)
        · simpa only [decide_eq_true_eq] using solveSlice_worked hy m t1 entry (decide (i = 0)) (decide last)
  obtain ⟨z, hz, hwork⟩ := hworked
  exact ⟨y, z, hz.modJob fun t => { t with slice := if last then 0 else i + 1 }, hbegun, hwork⟩

theorem sliceOp_undescribed {x : Side} {j : Nat} {s : State} (hd : slvDesc (s.ld x).fmn.img j = none) : sliceOp x j s = s := by
  rw [sliceOp, hd]

/-- A slice of an abandoned run moves the number on and does no work (07 R289). -/
theorem sliceOp_abandoned {x : Side} {j : Nat} {d : SlvDesc} {s : State} (hd : slvDesc (s.ld x).fmn.img j = some d)
    (hslice : ((s.ld x).slv.job j).slice ≠ 0) (hgone : ((s.ld x).slv.job j).abandoned = true) :
    sliceOp x j s = s.modJob x j fun t => { t with slice := if t.slice + 1 = d.slices then 0 else t.slice + 1 } := by
  simp only [sliceOp, hd, if_neg hslice, if_pos hgone]
  exact modLd_congr s x rfl

end Sys2Proof.Machine
end

section
/-!
The expiry of holds (07 R294), and the statement on the slices and the holds of the solver.
-/
namespace Sys2Proof.Machine
set_option Elab.async false -- one proof at a time, as in the tests: the compile is close to its memory limit

/-! ### Holds that have lasted (07 R294) -/

/-- The holds of a landing that have lasted 8 crossings and are not yet marked as expired. -/
def lastedHolds (l : Landing) : List (Nat × SlvJob) :=
  l.slv.jobs.filter fun e => !e.2.holdOver && e.2.hold.elim false fun c => c + 8 ≤ l.fmn.crossing

/-- The hold of job `e.1` of landing `x` expires. -/
def expireHold (x : Side) (s : State) (e : Nat × SlvJob) : State :=
  enterAdrift 0x0609 (raise (.landing x) 0x0609 e.1 ((s.modJob x e.1 fun t => { t with holdOver := true }).modLd x
    fun l => { l with slv := { l.slv with expired := true } }))

/-- The holds of landing `x` that have lasted expire, one after another. -/
def expireHolds (x : Side) (s : State) : State := (lastedHolds (s.ld x)).foldl (expireHold x) s

theorem holdExpired_eq (s : State) : holdExpired s = expireHolds .B (expireHolds .A s) := rfl

theorem enterAdrift_ld (code : Nat) (s : State) (x : Side) : (enterAdrift code s).ld x = s.ld x := by
  unfold enterAdrift
  split
  · rfl
  · rw [raise_cable_ld]
    cases x <;> rfl

/-- Whether the vessel is Adrift after a cause of it (10 R402). -/
theorem enterAdrift_adrift (code : Nat) (s : State) : (enterAdrift code s).arb.adrift = (s.arb.adrift || decide (2 ≤ s.mode)) := by
  unfold enterAdrift
  by_cases hmode : s.mode ≤ 1
  · have hlow : ¬2 ≤ s.mode := by omega
    simp [hmode, hlow]
  · have hhigh : 2 ≤ s.mode := by omega
    cases hadrift : s.arb.adrift <;> simp [hmode, hhigh, hadrift]

/-- `t` comes from `s` by expiries of holds of landing `x`. -/
structure Expiring (x : Side) (t s : State) : Prop where
  other : t.ld x.other = s.ld x.other
  mode : t.mode = s.mode
  adrift : s.arb.adrift = true → t.arb.adrift = true
  hold : ∀ j, ((t.ld x).slv.job j).hold = ((s.ld x).slv.job j).hold
  expired : ∀ j, ((s.ld x).slv.job j).holdOver = true → ((t.ld x).slv.job j).holdOver = true

section
variable (x : Side) (s : State)

theorem expireHold_job (e : Nat × SlvJob) (j : Nat) : ((expireHold x s e).ld x).slv.job j
    = if j = e.1 then { (s.ld x).slv.job j with holdOver := true } else (s.ld x).slv.job j := by
  have hmarked := ((jobTo_refl x e.1 s).modJob fun t => { t with holdOver := true }).jobs j
  rw [expireHold, enterAdrift_ld, (memoryOnly_raise ..).landing, modLd_ld]
  refine hmarked.trans ?_
  split
  · subst j; rfl
  · rfl

theorem expireHold_expiring (e : Nat × SlvJob) : Expiring x (expireHold x s e) s := by
  constructor
  · rw [expireHold, enterAdrift_ld, raise_other, modLd_other]
    exact modLd_other ..
  · simp [expireHold]
  · intro hadrift
    simp [expireHold, enterAdrift_adrift, State.modJob, hadrift]
  · intro j
    rw [expireHold_job]
    split <;> rfl
  · intro j hover
    rw [expireHold_job]
    split
    · rfl
    · exact hover

theorem expireHold_adrift (e : Nat × SlvJob) (hmode : 2 ≤ s.mode) : (expireHold x s e).arb.adrift = true := by
  simp [expireHold, enterAdrift_adrift, State.modJob, hmode]

end

theorem expiring_trans {x : Side} {t u s : State} (h : Expiring x t u) (k : Expiring x u s) : Expiring x t s :=
  ⟨h.other.trans k.other, h.mode.trans k.mode, fun ha => h.adrift (k.adrift ha), fun j => (h.hold j).trans (k.hold j),
    fun j ho => h.expired j (k.expired j ho)⟩

theorem foldl_expireHold_expiring (x : Side) (l : List (Nat × SlvJob)) (s : State) : Expiring x (l.foldl (expireHold x) s) s := by
  induction l generalizing s with
  | nil => exact ⟨rfl, rfl, id, fun _ => rfl, fun _ => id⟩
  | cons e l ih => exact expiring_trans (ih _) (expireHold_expiring x s e)

theorem foldl_expireHold_expired (x : Side) (l : List (Nat × SlvJob)) (s : State) :
    ∀ e ∈ l, (((l.foldl (expireHold x) s).ld x).slv.job e.1).holdOver = true := by
  induction l generalizing s with
  | nil => nofun
  | cons a l ih =>
    intro e he
    rcases List.mem_cons.mp he with rfl | hl
    · exact (foldl_expireHold_expiring x l _).expired _ (by rw [expireHold_job, if_pos rfl])
    · exact ih _ e hl

theorem foldl_expireHold_adrift (x : Side) {l : List (Nat × SlvJob)} (s : State) (hl : l ≠ []) (hmode : 2 ≤ s.mode) :
    (l.foldl (expireHold x) s).arb.adrift = true := by
  cases l with
  | nil => exact absurd rfl hl
  | cons a l => exact (foldl_expireHold_expiring x l _).adrift (expireHold_adrift x s a hmode)

/-- The holds of both landings: Landing B's are those that had lasted before Landing A's expired. -/
theorem holdExpired_leaves (s : State) :
    (holdExpired s).mode = s.mode
    ∧ (∀ y, ∀ e ∈ lastedHolds (s.ld y), (((holdExpired s).ld y).slv.job e.1).holdOver = true
        ∧ (((holdExpired s).ld y).slv.job e.1).hold = ((s.ld y).slv.job e.1).hold)
    ∧ (lastedHolds (s.ld .A) ≠ [] ∨ lastedHolds (s.ld .B) ≠ [] → 2 ≤ s.mode → (holdExpired s).arb.adrift = true) := by
  have hA : Expiring .A (expireHolds .A s) s := foldl_expireHold_expiring ..
  have hB : Expiring .B (expireHolds .B (expireHolds .A s)) (expireHolds .A s) := foldl_expireHold_expiring ..
  have hstill : (expireHolds .A s).ld .B = s.ld .B := hA.other
  have hkept : (expireHolds .B (expireHolds .A s)).ld .A = (expireHolds .A s).ld .A := hB.other
  rw [holdExpired_eq]
  refine ⟨hB.mode.trans hA.mode, fun y e he => ?_, fun hlasted hmode => ?_⟩
  · cases y with
    | A =>
      rw [hkept]
      exact ⟨foldl_expireHold_expired .A _ s e he, hA.hold e.1⟩
    | B =>
      rw [← hstill] at he ⊢
      exact ⟨foldl_expireHold_expired .B _ _ e he, hB.hold e.1⟩
  · rcases hlasted with hl | hl
    · exact hB.adrift (foldl_expireHold_adrift .A s hl hmode)
    · exact foldl_expireHold_adrift .B _ (by rwa [hstill]) (by rwa [hA.mode])

theorem holdExpired_none {s : State} (hA : lastedHolds (s.ld .A) = []) (hB : lastedHolds (s.ld .B) = []) : holdExpired s = s := by
  have hnone : expireHolds .A s = s := by rw [expireHolds, hA]; rfl
  rw [holdExpired_eq, hnone, expireHolds, hB]
  rfl

/-! ### The statement -/

/-- Settles O36: a slice by what it makes of its job and what it leaves, the expiry of holds landing by landing. -/
theorem solverSlices : Obligations.SolverSlices := by
  unfold Obligations.SolverSlices
  intro at_ j x s m t
  refine ⟨fun e he => ?_, ?_⟩
  · intro s0
    have hexec : exec (.slice at_ x j) s = .next (keepUndo x e (s.ld x) (sliceOp x j s0)) :=
      congrArg Host.Outcome.next (runEntry_started he (fun _ => sliceOp x j) at_)
    have hld : s0.ld x = { s.ld x with fmn := { (s.ld x).fmn with issued := (s.ld x).fmn.issued ++ [e] } } := by
      unfold s0
      rw [markIssued, modLd_ld, advance_ld]
    have himg : (s0.ld x).fmn.img = m := by rw [hld]
    have hjob : ∀ k, (s0.ld x).slv.job k = (s.ld x).slv.job k := fun k => by rw [hld]
    have hstays : StaysOn x s0 (advance at_ s) := staysOn_modLd ..
    clear_value s0
    refine ⟨fun hd => ?_, fun d hd => ⟨sliceOp x j s0, hexec, ?_⟩⟩
    · rw [hexec, sliceOp_undescribed (by rwa [himg])]
    · have hd0 : slvDesc (s0.ld x).fmn.img j = some d := by rwa [himg]
      have hworked := sliceOp_worked hd0
      have hgone := sliceOp_abandoned hd0
      rw [hjob] at hworked hgone
      rw [himg] at hworked
      obtain ⟨y, z, hz, ⟨hfirst, hbegun⟩, hstarted, hinst, hbuffer, hwork, hfinished⟩ := hworked
      obtain ⟨hother, _, _, hmode⟩ := staysOn_trans hz.stays hstays
      refine ⟨?_, hgone, fun k hk => ?_, by rw [hother, advance_ld], by rw [hmode, advance_mode], by rw [hz.tiles, hld], hz.fmn⟩
      · rw [hz.self]
        refine ⟨rfl, fun h0 => ?_, by rwa [hbegun] at hwork, hfinished⟩
        obtain ⟨ystarted, yinst, ybuffer⟩ := hfirst h0
        exact ⟨by rw [hstarted, ystarted, hld], hinst.trans yinst, by rw [hbuffer, ybuffer, hjob]⟩
      · rw [hz.jobs, if_neg hk, hjob]
  · intro due
    have hdue : ∀ y, lastedHolds (s.ld y) = due y := by
      intro y
      exact List.filter_congr fun e _ => by cases e.2.hold <;> rfl
    obtain ⟨hmode, hover, hadrift⟩ := holdExpired_leaves (advance at_ s)
    simp only [advance_ld, advance_mode, hdue] at hmode hover hadrift
    exact ⟨fun hA hB => congrArg Host.Outcome.next (holdExpired_none (by rw [advance_ld, hdue, hA]) (by rw [advance_ld, hdue, hB])),
      _, rfl, hmode, hover, hadrift⟩

end Sys2Proof.Machine
end

section
/-!
Bytes written to a landing's memory above its DRAM (12 R460, R461): each byte written reads back, every other as before.
-/
namespace Sys2Proof.Machine
set_option Elab.async false -- one proof at a time, as in the tests: the compile is close to its memory limit

/-! ### Words beside the one merged (12 R453, R461) -/

/-- Above the DRAM no line is remapped (12 R465). -/
theorem physical_high (m : MemInt) {a : Nat} (ha : 0x08000000 ≤ a) : physical m a = a := by
  have hplace := physical_or m a
  omega

section
variable {a b : Nat} (ha : 0x08000000 ≤ a) (hb : 0x08000000 ≤ b) (hne : b + 8 ≤ a ∨ a + 8 ≤ b)
include ha hb hne

theorem ldWrite_peekWord_ne (l : Landing) (w : Pw) : peekWord (ldWrite l a w) b = peekWord l b := by
  refine peekWord_ldWrite_ne l a b w ?_
  rwa [physical_high _ ha, physical_high _ hb]

/-- A word written back corrected is a clean word written, but for the block's mark. -/
theorem rawPut_peekWord_ne (l : Landing) (v : DWord) : peekWord (rawPut l a v 0) b = peekWord l b := by
  refine Eq.trans ?_ (ldWrite_peekWord_ne ha hb hne l ⟨v, false⟩)
  simp only [peekWord, ldWrite, rawPut, physical_markBlock, physical_high _ ha, Bool.false_eq_true, if_false]

variable (x : Side) (s : State)

theorem memWrite_peekWord_ne (w : Pw) : peekWord ((memWrite x a w s).ld x) b = peekWord (s.ld x) b := by
  rw [memWrite, modLd_ld, ldWrite_peekWord_ne ha hb hne]

theorem readEffects_peekWord_ne : peekWord ((readEffects x a s).ld x) b = peekWord (s.ld x) b := by
  unfold readEffects
  simp only [physical_high _ ha]
  split
  case h_1 | h_2 => rfl
  case h_3 =>
    split
    · rw [modLd_ld, rawPut_peekWord_ne ha hb hne, peekWord_noted (noted_noteCorrected ..)]
    · rw [peekWord_noted (noted_noteCorrected ..)]
  case h_4 => rw [peekWord_noted (noted_noteUncorrectable ..)]

theorem memMerge_peekWord_ne (data : List (Nat × Byte)) : peekWord ((memMerge x a data s).ld x) b = peekWord (s.ld x) b := by
  rw [memMerge, memWrite_peekWord_ne ha hb hne, memRead, readEffects_peekWord_ne ha hb hne]

end

theorem memMerge_peekWord (x : Side) (a : Nat) (data : List (Nat × Byte)) (s : State) :
    peekWord ((memMerge x a data s).ld x) a = ⟨mergeBytes (peekWord (s.ld x) a).v data, (peekWord (s.ld x) a).p⟩ := by
  rw [memMerge, memWrite, modLd_ld, peekWord_ldWrite, memRead]

/-! ### The bytes of a word -/

theorem ofLe_byte (l : List Byte) (i : Nat) : ofLe l / 256 ^ i % 256 = (l.getD i 0).toNat := by
  induction l generalizing i with
  | nil => simp [ofLe]
  | cons b l ih =>
    have hb := b.isLt
    cases i with
    | zero => simp [ofLe]; omega
    | succ i =>
      rw [List.getD_cons_succ, ← ih, Nat.pow_succ', ← Nat.div_div_eq_div_mul, ofLe]
      congr 2
      omega

theorem ofLe_extract (l : List Byte) {i : Nat} (hi : i < 8) : (BitVec.ofNat 64 (ofLe l)).extractLsb' (8 * i) 8 = l.getD i 0 := by
  apply BitVec.eq_of_toNat_eq
  rw [← ofLe_byte, BitVec.extractLsb'_toNat, BitVec.toNat_ofNat, Nat.shiftRight_eq_div_pow]
  interval_cases i <;> omega

/-- The bytes of a list that fall into a word replace its own. -/
theorem mergeBytes_inWord (v : DWord) {w : Nat} (hw : w % 8 = 0) (a : Nat) (l : List Byte) {i : Nat} (hi : i < 8) :
    (mergeBytes v (inWord w a l)).extractLsb' (8 * i) 8
      = if a ≤ w + i ∧ w + i < a + l.length then l.getD (w + i - a) 0 else v.extractLsb' (8 * i) 8 := by
  induction l generalizing v a with
  | nil =>
    rw [if_neg (by simp only [List.length_nil]; omega)]
    rfl
  | cons b l ih =>
    rw [inWord]
    by_cases hself : w + i = a
    · rw [if_pos (by omega), mergeBytes, ih, if_neg (by omega), setByte_byte _ _ hi, if_pos (by omega), if_pos (by simp; omega), hself,
        Nat.sub_self, List.getD_cons_zero]
    · have hnext : ∀ u : DWord, u.extractLsb' (8 * i) 8 = v.extractLsb' (8 * i) 8 → (mergeBytes u (inWord w (a + 1) l)).extractLsb' (8 * i) 8
          = if a ≤ w + i ∧ w + i < a + (b :: l).length then (b :: l).getD (w + i - a) 0 else v.extractLsb' (8 * i) 8 := by
        intro u hu
        rw [ih, hu, List.length_cons]
        by_cases hlater : a + 1 ≤ w + i
        · rw [show w + i - a = w + i - (a + 1) + 1 by omega, List.getD_cons_succ]
          exact if_congr (by omega) rfl rfl
        · rw [if_neg (by omega), if_neg (by omega)]
      split
      · exact hnext _ (by rw [setByte_byte _ _ hi, if_neg (by omega)])
      · exact hnext _ rfl

/-! ### Bytes written (12 R460, R461) -/

/-- The bytes `l` from `a` on, which fit into one word, written to it. -/
def putWord (x : Side) (a : Nat) (l : List Byte) (s : State) : State :=
  if l.length = 8 then memWrite x (a / 8 * 8) ⟨BitVec.ofNat 64 (ofLe l), false⟩ s else memMerge x (a / 8 * 8) (inWord (a / 8 * 8) a l) s

theorem memBytes_succ (x : Side) (n a : Nat) (l : List Byte) (s : State) :
    memBytes x (n + 1) a l s = if l.isEmpty then s
      else memBytes x n (a / 8 * 8 + 8) (l.drop (a / 8 * 8 + 8 - a)) (putWord x a (l.take (a / 8 * 8 + 8 - a)) s) := rfl

theorem peekByte_putWord (x : Side) {a b : Nat} {l : List Byte} (ha : 0x08000000 ≤ a) (hl : a % 8 + l.length ≤ 8) (hb : 0x08000000 ≤ b)
    (s : State) : peekByte ((putWord x a l s).ld x) b = if a ≤ b ∧ b < a + l.length then l.getD (b - a) 0 else peekByte (s.ld x) b := by
  have hbyte : b % 8 < 8 := Nat.mod_lt _ (by decide)
  unfold peekByte putWord
  by_cases hword : b / 8 * 8 = a / 8 * 8
  · have hplace : a / 8 * 8 + b % 8 = b := by omega
    split
    · rw [hword, memWrite, modLd_ld, peekWord_ldWrite, if_pos (by omega), ofLe_extract _ hbyte, show b % 8 = b - a by omega]
    · rw [hword, memMerge_peekWord, mergeBytes_inWord _ (by omega) _ _ hbyte, hplace]
  · have hout : ¬(a ≤ b ∧ b < a + l.length) := by omega
    rw [if_neg hout]
    split
    · rw [memWrite_peekWord_ne (by omega) (by omega) (by omega)]
    · rw [memMerge_peekWord_ne (by omega) (by omega) (by omega)]

theorem peekByte_memBytes (x : Side) {a b n : Nat} {l : List Byte} (ha : 0x08000000 ≤ a) (hl : a % 8 + l.length ≤ 8 * n) (hb : 0x08000000 ≤ b)
    (s : State) : peekByte ((memBytes x n a l s).ld x) b = if a ≤ b ∧ b < a + l.length then l.getD (b - a) 0 else peekByte (s.ld x) b := by
  induction n generalizing a l s with
  | zero =>
    rw [if_neg (by omega)]
    rfl
  | succ n ih =>
    rw [memBytes_succ]
    split
    · next hempty =>
      rw [List.isEmpty_iff.mp hempty, if_neg (by simp only [List.length_nil]; omega)]
    · have hcut : (l.take (a / 8 * 8 + 8 - a)).length = min (a / 8 * 8 + 8 - a) l.length := List.length_take ..
      have hrest : (l.drop (a / 8 * 8 + 8 - a)).length = l.length - (a / 8 * 8 + 8 - a) := List.length_drop ..
      rw [ih (by omega) (by omega), peekByte_putWord x ha (by omega) hb, hcut, hrest]
      by_cases hin : a ≤ b ∧ b < a + l.length
      · rw [if_pos hin]
        by_cases hnow : b < a / 8 * 8 + 8
        · rw [if_neg (by omega), if_pos (by omega), List.getD_eq_getElem?_getD, List.getElem?_take_of_lt (by omega), List.getD_eq_getElem?_getD]
        · rw [if_pos (by omega), List.getD_eq_getElem?_getD, List.getElem?_drop, List.getD_eq_getElem?_getD]
          congr 2
          omega
      · rw [if_neg (by omega), if_neg (by omega), if_neg hin]

theorem peekByte_memPut (x : Side) {a b : Nat} (l : List Byte) (ha : 0x08000000 ≤ a) (hb : 0x08000000 ≤ b) (s : State) :
    peekByte ((memPut x a l s).ld x) b = if a ≤ b ∧ b < a + l.length then l.getD (b - a) 0 else peekByte (s.ld x) b :=
  peekByte_memBytes x ha (by omega) hb s

theorem peekBytes_eq {u : Landing} {a : Nat} {l : List Byte} (h : ∀ i < l.length, peekByte u (a + i) = l.getD i 0) :
    peekBytes u a l.length = l := by
  induction l generalizing a with
  | nil => rfl
  | cons b l ih =>
    have hrest : peekBytes u (a + 1) l.length = l := ih fun i hi => by
      rw [Nat.add_right_comm]
      exact h (i + 1) (Nat.succ_lt_succ hi)
    rw [List.length_cons, peekBytes, hrest]
    exact congrArg (· :: l) (h 0 (Nat.succ_pos _))

/-- Bytes written above the DRAM read back. -/
theorem peekBytes_memPut (x : Side) {a : Nat} (l : List Byte) (ha : 0x08000000 ≤ a) (s : State) :
    peekBytes ((memPut x a l s).ld x) a l.length = l :=
  peekBytes_eq fun i hi => by rw [peekByte_memPut x l ha (by omega), if_pos (by omega), Nat.add_sub_cancel_left]

end Sys2Proof.Machine
end

section
/-!
A sample of a control loop that neither fades nor swaps (08 R308 to R313, R318 to R320): what it makes of its loop and its output word, run,
held for poison, or held for a NaN.
-/
namespace Sys2Proof.Machine
set_option Elab.async false -- one proof at a time, as in the tests: the compile is close to its memory limit

/-! ### A loop changed -/

theorem MemoryOnly.ctl {x : Side} {t s : State} (h : MemoryOnly x t s) : (t.ld x).ctl = (s.ld x).ctl := by rw [h.landing]

theorem memoryOnly_readBank (x : Side) (m : Tab Byte) (o n bank : Nat) (s : State) : MemoryOnly x (readBank x m o n bank s).2.2 s :=
  memoryOnly_trans (memoryOnly_memReadN ..) (memoryOnly_memReadN ..)

theorem modLoop_loop (s : State) (x : Side) (n : Nat) (f : CtlLoop → CtlLoop) (k : Nat) :
    ((s.modLoop x n f).ld x).ctl.loop k = if k = n then f ((s.ld x).ctl.loop n) else (s.ld x).ctl.loop k := by
  simp only [State.modLoop, modLd_ld, Ctl.loop, Tab.get_upd]

/-- A loop changed is the loop replaced by its new value. -/
theorem modLoop_const (s : State) (x : Side) (n : Nat) (f : CtlLoop → CtlLoop) :
    s.modLoop x n f = s.modLoop x n fun _ => f ((s.ld x).ctl.loop n) := rfl

theorem modLoop_memWrite (s : State) (x : Side) (n : Nat) (f : CtlLoop → CtlLoop) (a : Nat) (w : Pw) :
    (memWrite x a w s).modLoop x n f = memWrite x a w (s.modLoop x n f) := by
  simp only [memWrite, State.modLoop, modLd_modLd]
  rfl

theorem staysOn_modLoop (x : Side) (n : Nat) (f : CtlLoop → CtlLoop) (s : State) : StaysOn x (s.modLoop x n f) s := staysOn_modLd ..

/-! ### The output word (08 R318) -/

theorem outWord_out (v : F32) (fl count : Nat) : (outWord v fl count).v.toNat % 2 ^ 32 = v.toNat := by
  have hv := v.isLt
  rw [outWord, BitVec.toNat_ofNat]
  omega

theorem outWord_mod (v : F32) (fl count : Nat) : outWord v fl (count % 65536) = outWord v fl count := by
  rw [outWord, Nat.mod_mod, outWord]

/-- The low bits of a number depend on its low part only. -/
theorem bitOf_congr {a b k i : Nat} (h : a % 2 ^ k = b % 2 ^ k) (hi : i < k) : bitOf a i = bitOf b i := by
  have hbit := congrArg (·.testBit i) h
  simpa [bitOf_eq_testBit, Nat.testBit_mod_two_pow, hi] using hbit

theorem outWord_bit (v : F32) (fl count : Nat) {i : Nat} (hi : i < 16) : bitOf (outWord v fl count).v.toNat (32 + i) = bitOf fl i := by
  have hv := v.isLt
  have hlow : (outWord v fl count).v.toNat / 2 ^ 32 % 2 ^ 16 = fl % 2 ^ 16 := by
    rw [outWord, BitVec.toNat_ofNat]
    omega
  rw [← bitOf_congr hlow hi, bitOf_eq_testBit, bitOf_eq_testBit, Nat.testBit_div_two_pow, Nat.add_comm]

/-! ### A sample's end -/

/-- The end of a sample of loop `n` that leaves it as `z`: the loop is replaced, and its output word holds its output, flags and count. -/
def endSample (x : Side) (n : Nat) (z : CtlLoop) (s : State) : State :=
  memWrite x (0x30071800 + 8 * n) (outWord z.out z.flags z.count) (s.modLoop x n fun _ => z)

/-- `t` comes from `s` by the end of a sample that leaves loop `n` of landing `x` as `z`, and by faults of that landing. -/
structure SampledTo (x : Side) (n : Nat) (z : CtlLoop) (t s : State) : Prop where
  stays : StaysOn x t s
  loops : ∀ k, (t.ld x).ctl.loop k = if k = n then z else (s.ld x).ctl.loop k
  word : peekWord (t.ld x) (0x30071800 + 8 * n) = outWord z.out z.flags z.count

section
variable {x : Side} {n : Nat} {z : CtlLoop} {t u s : State}

theorem endSample_sampled (x : Side) (n : Nat) (z : CtlLoop) (s : State) : SampledTo x n z (endSample x n z s) s := by
  have hwrite : MemoryOnly x (endSample x n z s) (s.modLoop x n fun _ => z) := memoryOnly_memWrite ..
  refine ⟨staysOn_trans hwrite.stays (staysOn_modLoop ..), fun k => ?_, ?_⟩
  · rw [hwrite.ctl, modLoop_loop]
  · rw [endSample, memWrite, modLd_ld, peekWord_ldWrite]

/-- A fault raised after the sample leaves its loop and its word. -/
theorem SampledTo.noted (h : SampledTo x n z u s) (hmem : MemoryOnly x t u) (hnoted : Noted x t u) : SampledTo x n z t s := by
  obtain ⟨hstays, hloops, hword⟩ := h
  exact ⟨staysOn_trans hmem.stays hstays, fun k => by rw [hmem.ctl, hloops], by rw [peekWord_noted hnoted, hword]⟩

theorem SampledTo.raise (h : SampledTo x n z u s) (code detail : Nat) : SampledTo x n z (raise (.landing x) code detail u) s :=
  h.noted (memoryOnly_raise ..) (noted_raise ..)

theorem SampledTo.raisePerSecond (h : SampledTo x n z u s) (code detail key : Nat) :
    SampledTo x n z (raisePerSecond (.landing x) code detail key u) s :=
  h.noted (memoryOnly_raisePerSecond ..) (noted_raisePerSecond ..)

end

/-! ### The sample (08 R308) -/

/-- The loop `t` after a held sample, with the flag's bit `flag` in its output word (08 R319, R320). -/
def heldLoop (flag : Nat) (t : CtlLoop) : CtlLoop :=
  { t with flags := 2 ^ flag + 128 * t.bank + 2048 * b2n t.written, count := (t.count + 1) % 65536, written := false }

/-- The loop `t` after a sample that ran its bank `k` on the path and flags `r` (08 R313). -/
def ranLoop (k : CtlBank) (r : CtlPath × Nat) (t : CtlLoop) : CtlLoop :=
  { t with path := r.1, out := F32.ofDyadic r.1.prev (k.eY - 23), flags := r.2 + 128 * t.bank + 2048 * b2n t.written,
           count := (t.count + 1) % 65536, written := false }

/-- The input of a loop, by its reference flag (08 R310). -/
def loopInput (ref : Bool) (w : DWord) : F32 :=
  if ref then F32.sub (w.extractLsb' 32 32) (w.extractLsb' 0 32) else w.extractLsb' 0 32

/-- Loop `n` of landing `x`, described at `o`, neither fades nor swaps, and is not in its safe state (08 R321). -/
structure Steady (x : Side) (n o : Nat) (s : State) : Prop where
  desc : ctlDesc (s.ld x).fmn.img n = some o
  fade : ((s.ld x).ctl.loop n).fade = none
  pend : ((s.ld x).ctl.loop n).pend = none
  enabled : (cFlag (s.ld x).fmn.img o 1 && ctlDisabled s) = false

/-- The loop changed and its word written, in the order of a sample that ran, are its end. -/
theorem memWrite_modLoop {x : Side} {n : Nat} {s : State} {f : CtlLoop → CtlLoop} {z : CtlLoop} (hz : f ((s.ld x).ctl.loop n) = z)
    {v : F32} (hv : z.out = v) {fl : Nat} (hfl : z.flags = fl) {c : Nat} (hc : z.count = c % 65536) :
    memWrite x (0x30071800 + 8 * n) (outWord v fl c) (s.modLoop x n f) = endSample x n z s := by
  rw [endSample, hv, hfl, hc, outWord_mod, ← hz, ← modLoop_const]

theorem heldSample_eq {x : Side} {n : Nat} {s : State} (hpend : ((s.ld x).ctl.loop n).pend = none) (flag : Nat) (hold : F32) :
    heldSample x n flag false hold s = endSample x n (heldLoop flag ((s.ld x).ctl.loop n)) s := by
  have hflags : 2 ^ flag + b2n false * 256 + b2n false * 64 + ((s.ld x).ctl.loop n).bank * 128 + b2n ((s.ld x).ctl.loop n).written * 2048
      = (heldLoop flag ((s.ld x).ctl.loop n)).flags := by
    simp [heldLoop, b2n, Nat.mul_comm]
  simp only [heldSample, hpend, Option.isSome_none, Bool.false_eq_true, if_false, modLoop_memWrite, hflags]
  exact memWrite_modLoop (z := heldLoop flag ((s.ld x).ctl.loop n)) rfl rfl rfl rfl

/-- The fault of an output that saturates after one that did not (08 R341). -/
def noteSaturated (x : Side) (n : Nat) (z t : CtlLoop) (s : State) : State :=
  if (bitOf z.flags 0 || bitOf z.flags 1) && !(bitOf t.flags 0 || bitOf t.flags 1) then raisePerSecond (.landing x) 0x0705 n n s else s

theorem SampledTo.noteSaturated {x : Side} {n : Nat} {z : CtlLoop} {u s : State} (h : SampledTo x n z u s) (t : CtlLoop) :
    SampledTo x n z (noteSaturated x n z t u) s := by
  unfold Machine.noteSaturated
  split
  · exact h.raisePerSecond ..
  · exact h

section
variable {x : Side} {n o : Nat} {s : State} (h : Steady x n o s) {m : Tab Byte} (hm : (s.ld x).fmn.img = m) {t : CtlLoop}
  (ht : (s.ld x).ctl.loop n = t) {inp : Pw × State} (hinp : memRead x (0x30071000 + 8 * n) s = inp) {k : CtlBank × Bool × State}
  (hk : readBank x m o n t.bank inp.2 = k)
include h hm ht hinp hk

/-- The sample by its three outcomes: held for poison, held for a NaN, and run. -/
theorem loopOp_steady {u : F32} (hu : loopInput (cFlag m o 3) inp.1.v = u) {r : CtlPath × Nat} (hr : samplePath (cFlag m o 2) k.1 u t.path = r) :
    loopOp x n s = if inp.1.p || k.2.1 then raise (.landing x) 0x0701 n (endSample x n (heldLoop 9 t) k.2.2)
      else if !F32.finite u then raisePerSecond (.landing x) 0x0704 n n (endSample x n (heldLoop 10 t) k.2.2)
      else noteSaturated x n (ranLoop k.1 r t) t (endSample x n (ranLoop k.1 r t) k.2.2) := by
  obtain ⟨hdesc, hfade, hpend, henabled⟩ := h
  rw [ht] at hfade hpend
  have hread : MemoryOnly x k.2.2 s := by
    rw [← hk, ← hinp]
    exact memoryOnly_trans (memoryOnly_readBank ..) (memoryOnly_readEffects ..)
  have hloop : (k.2.2.ld x).ctl.loop n = t := by rw [hread.ctl, ht]
  have hheld : ∀ flag, heldSample x n flag false (cHold m o) k.2.2 = endSample x n (heldLoop flag t) k.2.2 := by
    intro flag
    rw [heldSample_eq (by rwa [hloop]), hloop]
  have hzero : b2n false = 0 := rfl
  subst hm
  unfold loopInput at hu
  simp only [loopOp, hdesc, ht, hfade, hpend, henabled, hinp, hk, hheld, hu, hr, Option.isSome_none, Option.elim_none, Option.bind_none,
    Bool.false_eq_true, if_false, Bool.or_false, hzero, Nat.mul_zero, Nat.add_zero, Nat.or_zero]
  refine if_congr Iff.rfl rfl (if_congr Iff.rfl rfl ?_)
  rw [memWrite_modLoop (z := ranLoop k.1 r t) ?_ ?_ ?_ ?_]
  · rfl
  · rw [hloop, ranLoop, hfade, hpend]
  · rfl
  · rfl
  · rfl

/-- A sample with a poisoned input or bank word is held (08 R319). -/
theorem loopOp_poisoned (hp : inp.1.p = true ∨ k.2.1 = true) : SampledTo x n (heldLoop 9 t) (loopOp x n s) k.2.2 := by
  rw [loopOp_steady h hm ht hinp hk rfl rfl, if_pos (by simpa using hp)]
  exact (endSample_sampled ..).raise ..

section
variable (hin : inp.1.p = false) (hbank : k.2.1 = false)
include hin hbank

/-- A sample whose input is no number is held (08 R320). -/
theorem loopOp_nan (hnan : F32.finite (loopInput (cFlag m o 3) inp.1.v) = false) : SampledTo x n (heldLoop 10 t) (loopOp x n s) k.2.2 := by
  rw [loopOp_steady h hm ht hinp hk rfl rfl, if_neg (by simp [hin, hbank]), if_pos (by simp [hnan])]
  exact (endSample_sampled ..).raisePerSecond ..

/-- A sample with sound inputs runs its bank's path once (08 R310 to R313). -/
theorem loopOp_runs (hfinite : F32.finite (loopInput (cFlag m o 3) inp.1.v) = true) :
    SampledTo x n (ranLoop k.1 (samplePath (cFlag m o 2) k.1 (loopInput (cFlag m o 3) inp.1.v) t.path) t) (loopOp x n s) k.2.2 := by
  rw [loopOp_steady h hm ht hinp hk rfl rfl, if_neg (by simp [hin, hbank]), if_neg (by simp [hfinite])]
  exact (endSample_sampled ..).noteSaturated ..

end

/-- Whatever comes of the sample, it is counted and the bank stays. -/
theorem loopOp_counts : ∃ z, SampledTo x n z (loopOp x n s) k.2.2 ∧ z.count = (t.count + 1) % 65536 ∧ z.bank = t.bank := by
  by_cases hp : inp.1.p = true ∨ k.2.1 = true
  · exact ⟨_, loopOp_poisoned h hm ht hinp hk hp, rfl, rfl⟩
  · obtain ⟨hin, hbank⟩ : inp.1.p = false ∧ k.2.1 = false := by simpa using hp
    cases hu : F32.finite (loopInput (cFlag m o 3) inp.1.v)
    · exact ⟨_, loopOp_nan h hm ht hinp hk hin hbank hu, rfl, rfl⟩
    · exact ⟨_, loopOp_runs h hm ht hinp hk hin hbank hu, rfl, rfl⟩

end

theorem heldLoop_held {t : CtlLoop} (hbank : t.bank ≤ 1) : bitOf (heldLoop 9 t).flags 9 = true := by
  rw [heldLoop, bitOf]
  simp only [beq_iff_eq]
  omega

theorem ranLoop_flag (k : CtlBank) (r : CtlPath × Nat) (t : CtlLoop) {i : Nat} (hi : i < 7) : bitOf (ranLoop k r t).flags i = bitOf r.2 i :=
  bitOf_congr (k := 7) (by simp only [ranLoop]; omega) hi

theorem markIssued_ld (x : Side) (e at_ : Nat) (s : State) : (markIssued x e (advance at_ s)).ld x
    = { s.ld x with fmn := { (s.ld x).fmn with issued := (s.ld x).fmn.issued ++ [e] } } := by
  rw [markIssued, modLd_ld, advance_ld]

@[simp] theorem markIssued_ctlDisabled (x : Side) (e at_ : Nat) (s : State) : ctlDisabled (markIssued x e (advance at_ s)) = ctlDisabled s := by
  simp [ctlDisabled, markIssued]

/-- Settles O37: the three outcomes of a sample, each by the loop that it leaves and the output word that the loop gives. -/
theorem controlSamples : Obligations.ControlSamples := by
  unfold Obligations.ControlSamples
  intro at_ n x o s hdesc hfade hpend hactive m t e he inp k meas ref u
  have hld := markIssued_ld x e at_ s
  have hm : ((markIssued x e (advance at_ s)).ld x).fmn.img = m := by rw [hld]
  have ht : ((markIssued x e (advance at_ s)).ld x).ctl.loop n = t := by rw [hld]
  have henabled : (cFlag m o 1 && ctlDisabled s) = false := by
    rw [Bool.and_eq_false_iff, or_iff_not_imp_left, Bool.not_eq_false]
    intro hflag
    obtain ⟨hmode, hadrift⟩ := hactive hflag
    have hrunning : ¬s.mode ≤ 1 := by omega
    simp [ctlDisabled, hadrift, hrunning]
  have hsteady : Steady x n o (markIssued x e (advance at_ s)) :=
    ⟨hm ▸ hdesc, ht ▸ hfade, ht ▸ hpend, by rw [hm, markIssued_ctlDisabled, henabled]⟩
  have hread : MemoryOnly x k.2.2 (markIssued x e (advance at_ s)) := memoryOnly_trans (memoryOnly_readBank ..) (memoryOnly_readEffects ..)
  obtain ⟨z, ⟨hstays, hloops, _⟩, hcount, hbank⟩ := loopOp_counts hsteady hm ht (inp := inp) rfl (k := k) rfl
  obtain ⟨_, _, _, hmode⟩ := staysOn_trans hstays (staysOn_trans hread.stays (staysOn_modLd ..))
  refine ⟨_, congrArg Host.Outcome.next (runEntry_started he (fun _ => loopOp x n) at_), by rw [hmode, advance_mode], hstays.1,
    fun j hj => ?_, ?_, ?_, fun hp => ?_, fun hin hsound hfinite => ?_⟩
  · rw [hloops, if_neg hj, hread.ctl, hld]
  · rw [hloops, if_pos rfl, hcount]
  · rw [hloops, if_pos rfl, hbank]
  · obtain ⟨_, hloops, hword⟩ := loopOp_poisoned hsteady hm ht rfl rfl hp
    rw [hloops, if_pos rfl, hword]
    exact ⟨rfl, rfl, outWord_out .., fun hb => (outWord_bit _ _ _ (i := 9) (by decide)).trans (heldLoop_held hb)⟩
  · obtain ⟨_, hloops, hword⟩ := loopOp_runs hsteady hm ht rfl rfl hin hsound hfinite
    have hflag : ∀ r i, i < 7 → bitOf (outWord (ranLoop k.1 r t).out (ranLoop k.1 r t).flags (ranLoop k.1 r t).count).v.toNat (32 + i)
        = bitOf r.2 i := fun r i hi => (outWord_bit _ _ _ (by omega)).trans (ranLoop_flag _ _ _ hi)
    rw [hloops, if_pos rfl, hword]
    exact ⟨rfl, rfl, outWord_out .., rfl, hflag _ 0 (by decide), hflag _ 1 (by decide)⟩

end Sys2Proof.Machine
end

section
/-!
Writes and swap requests of the control engine (08 R324 to R326, R330, R334): what a descriptor carried out leaves, from the write queue and from
a host.
-/
namespace Sys2Proof.Machine
set_option Elab.async false -- one proof at a time, as in the tests: the compile is close to its memory limit

/-! ### A swap request (08 R330) -/

theorem swapRequest_memoryOnly (x : Side) (n bank fade : Nat) (s : State) :
    MemoryOnly x (swapRequest x n bank fade s) (s.modLoop x n fun t => { t with pend := some (bank, fade) }) :=
  memoryOnly_ite (memoryOnly_raise ..) (memoryOnly_ite (memoryOnly_raise ..) (memoryOnly_refl ..))

theorem staysOn_swapRequest (x : Side) (n bank fade : Nat) (s : State) : StaysOn x (swapRequest x n bank fade s) s :=
  staysOn_trans (swapRequest_memoryOnly ..).stays (staysOn_modLoop ..)

theorem swapRequest_loop (x : Side) (n bank fade : Nat) (s : State) (k : Nat) :
    ((swapRequest x n bank fade s).ld x).ctl.loop k
      = if k = n then { (s.ld x).ctl.loop n with pend := some (bank, fade) } else (s.ld x).ctl.loop k := by
  rw [(swapRequest_memoryOnly ..).ctl, modLoop_loop]

/-! ### A single write (08 R324, R326) -/

/-- `t` comes from `s` by marks on the loops of landing `x` and by faults of that landing: no word reads otherwise, and no count and no path
changes. -/
structure MarksOnly (x : Side) (t s : State) : Prop where
  stays : StaysOn x t s
  word : ∀ a, peekWord (t.ld x) a = peekWord (s.ld x) a
  writes : (t.ld x).ctl.writes = (s.ld x).ctl.writes
  swaps : (t.ld x).ctl.swaps = (s.ld x).ctl.swaps
  path : ∀ k, ((t.ld x).ctl.loop k).path = ((s.ld x).ctl.loop k).path

theorem marksOnly_refl (x : Side) (s : State) : MarksOnly x s s := ⟨staysOn_refl .., fun _ => rfl, rfl, rfl, fun _ => rfl⟩

theorem marksOnly_written (x : Side) (n : Nat) (s : State) : MarksOnly x (s.modLoop x n fun t => { t with written := true }) s := by
  refine ⟨staysOn_modLoop .., fun a => ?_, ?_, ?_, fun k => ?_⟩
  · rw [State.modLoop, modLd_ld]
    rfl
  · rw [State.modLoop, modLd_ld]
  · rw [State.modLoop, modLd_ld]
  · rw [modLoop_loop]
    split
    · next hk => rw [hk]
    · rfl

theorem MarksOnly.raise {x : Side} {t s : State} (h : MarksOnly x t s) (code detail : Nat) : MarksOnly x (raise (.landing x) code detail t) s := by
  obtain ⟨hstays, hword, hwrites, hswaps, hpath⟩ := h
  have hctl := (memoryOnly_raise x code detail t).ctl
  refine ⟨staysOn_trans (staysOn_raise ..) hstays, fun a => ?_, ?_, ?_, fun k => ?_⟩
  · rw [peekWord_noted (noted_raise ..), hword]
  · rw [hctl, hwrites]
  · rw [hctl, hswaps]
  · rw [hctl, hpath]

/-- The count of writes moved on (08 R338). -/
def countWrite (x : Side) (s : State) : State := s.modLd x fun l => { l with ctl := { l.ctl with writes := satAdd 0xFFFF l.ctl.writes 1 } }

theorem countWrite_peekWord (x : Side) (s : State) (a : Nat) : peekWord ((countWrite x s).ld x) a = peekWord (s.ld x) a := by
  rw [countWrite, modLd_ld]
  rfl

theorem ofLe_byteAt (d : List Byte) (i : Nat) : ofLe ((d.drop i).take 1) = (d.getD i 0).toNat := by
  have hat : d.getD i 0 = (d.drop i).getD 0 0 := by simp
  rw [hat]
  cases d.drop i with
  | nil => rfl
  | cons b l => simp [ofLe]

section
variable (x : Side) (host : Bool) {d : List Byte} (s : State)

theorem ctlApply_empty (hkind : d.getD 2 0 = 0) : ctlApply x host d s = s := by
  simp only [ctlApply, ofLe_byteAt, hkind]
  rfl

theorem ctlApply_swap (hkind : d.getD 2 0 = 3) :
    ctlApply x host d s = swapRequest x (ofLe (d.take 2)) (ofLe ((d.drop 3).take 1)) (ofLe ((d.drop 6).take 2)) s := by
  simp only [ctlApply, ofLe_byteAt d 2, hkind]
  rfl

/-- A header word or a section item is written and counted, and marks its loop where that uses the bank. -/
theorem ctlApply_single (hsome : d.getD 2 0 ≠ 0) (hsingle : d.getD 2 0 ≠ 3) :
    MarksOnly x (ctlApply x host d s) (countWrite x (memPut x (writeTarget d).1 (writeTarget d).2 s)) := by
  have hkind : (d.getD 2 0).toNat ≠ 0 ∧ (d.getD 2 0).toNat ≠ 3 :=
    ⟨fun h => hsome (BitVec.eq_of_toNat_eq h), fun h => hsingle (BitVec.eq_of_toNat_eq h)⟩
  simp only [ctlApply, ofLe_byteAt d 2, hkind, if_false]
  split
  · exact marksOnly_refl ..
  · split
    · split
      · exact (marksOnly_written ..).raise ..
      · exact marksOnly_written ..
    · exact marksOnly_refl ..

theorem staysOn_ctlApply : StaysOn x (ctlApply x host d s) s := by
  by_cases hsome : d.getD 2 0 = 0
  · rw [ctlApply_empty x host s hsome]
    exact staysOn_refl ..
  · by_cases hswap : d.getD 2 0 = 3
    · rw [ctlApply_swap x host s hswap]
      exact staysOn_swapRequest ..
    · exact staysOn_trans (ctlApply_single x host s hsome hswap).stays (staysOn_trans (staysOn_modLd ..) (memoryOnly_memPut ..).stays)

end

theorem writeTarget_high (d : List Byte) : 0x08000000 ≤ (writeTarget d).1 := by
  unfold writeTarget hdrAddr slotAddr
  dsimp only
  split_ifs <;> dsimp only <;> omega

/-- What a single write carried out leaves of a landing: the value in its place, the write counted, swaps and paths as they were. -/
structure Written (d : List Byte) (z l : Landing) : Prop where
  value : peekBytes z (writeTarget d).1 (writeTarget d).2.length = (writeTarget d).2
  writes : z.ctl.writes = min 0xFFFF (l.ctl.writes + 1)
  swaps : z.ctl.swaps = l.ctl.swaps
  path : ∀ k, (z.ctl.loop k).path = (l.ctl.loop k).path

theorem peekBytes_congr {z l : Landing} (h : ∀ a, peekWord z a = peekWord l a) (a n : Nat) : peekBytes z a n = peekBytes l a n := by
  induction n generalizing a with
  | zero => rfl
  | succ n ih => rw [peekBytes, peekBytes, ih, peekByte, peekByte, h]

theorem ctlApply_written (x : Side) (host : Bool) {d : List Byte} (hkind : d.getD 2 0 = 1 ∨ d.getD 2 0 = 2) (s : State) :
    Written d ((ctlApply x host d s).ld x) (s.ld x) := by
  have hput := memoryOnly_memPut x (writeTarget d).1 (writeTarget d).2 s
  obtain ⟨hsome, hsingle⟩ : d.getD 2 0 ≠ 0 ∧ d.getD 2 0 ≠ 3 := by
    rcases hkind with h | h <;> rw [h] <;> decide
  obtain ⟨_, hword, hwrites, hswaps, hpath⟩ := ctlApply_single x host s hsome hsingle
  have hcount : ((countWrite x (memPut x (writeTarget d).1 (writeTarget d).2 s)).ld x).ctl
      = { (s.ld x).ctl with writes := satAdd 0xFFFF (s.ld x).ctl.writes 1 } := by
    rw [countWrite, modLd_ld, hput.ctl]
  refine ⟨?_, ?_, ?_, fun k => ?_⟩
  · rw [peekBytes_congr hword, peekBytes_congr (countWrite_peekWord x _)]
    exact peekBytes_memPut x _ (writeTarget_high d) s
  · rw [hwrites, hcount]
    rfl
  · rw [hswaps, hcount]
  · rw [hpath, hcount]
    rfl

/-! ### APPLY (08 R324, R325) -/

theorem memoryOnly_raiseWithin (x : Side) (code detail key t window : Nat) (s : State) :
    MemoryOnly x (raiseWithin (.landing x) code detail key t window s) s := by
  unfold raiseWithin
  dsimp only
  exact memoryOnly_ite (memoryOnly_refl ..) (memoryOnly_trans (memoryOnly_raise ..) ⟨by cases x <;> exact staysOn_refl .., by cases x <;> rfl⟩)

theorem memoryOnly_raisePerCrossing (x : Side) (code detail key : Nat) (s : State) : MemoryOnly x (raisePerCrossing x code detail key s) s :=
  memoryOnly_raiseWithin ..

/-- The words `ws` of entry `q` carried out or ignored under the manifest `m`. -/
def applyEntry (x : Side) (q : Nat) (m : Tab Byte) (ws : List Pw) (s : State) : State :=
  if ws.any (fun w => w.p) then raise (.landing x) 0x0702 q s
  else if (ofWords ws).getD 2 0 = 0 then s
  else if ctlWriteOk m (ofWords ws) then ctlApply x false (ofWords ws) s
  else raisePerCrossing x 0x0703 q 0 s

/-- APPLY acts on the words it reads and then clears the entry's kind. -/
theorem applyOp_eq {x : Side} {q : Nat} {s : State} {r : List Pw × State} (hr : memReadN x (0x30070800 + 16 * (q % 64)) 2 s = r) {m : Tab Byte}
    (hm : (s.ld x).fmn.img = m) :
    applyOp x q s = memPut x (0x30070800 + 16 * (q % 64) + 2) [0] (applyEntry x q m r.1 r.2) := by
  subst hr hm
  rfl

theorem staysOn_applyEntry (x : Side) (q : Nat) (m : Tab Byte) (ws : List Pw) (s : State) : StaysOn x (applyEntry x q m ws s) s :=
  staysOn_ite (staysOn_raise ..)
    (staysOn_ite (staysOn_refl ..) (staysOn_ite (staysOn_ctlApply ..) (memoryOnly_raisePerCrossing ..).stays))

/-- A poisoned, an empty and an out-of-range entry raise faults at most. -/
theorem applyEntry_ignored {x : Side} {q : Nat} {m : Tab Byte} {ws : List Pw} {s : State}
    (h : ws.any (fun w => w.p) = true ∨ (ofWords ws).getD 2 0 = 0 ∨ ctlWriteOk m (ofWords ws) = false) :
    MemoryOnly x (applyEntry x q m ws s) s := by
  unfold applyEntry
  split
  · exact memoryOnly_raise ..
  · next hclean =>
    split
    · exact memoryOnly_refl ..
    · next hsome =>
      rw [if_neg (by simpa using (h.resolve_left hclean).resolve_left hsome)]
      exact memoryOnly_raisePerCrossing ..

theorem applyEntry_swap {x : Side} {q : Nat} {m : Tab Byte} {ws : List Pw} {s : State} (hclean : ws.any (fun w => w.p) = false)
    (hkind : (ofWords ws).getD 2 0 = 3) (hok : ctlWriteOk m (ofWords ws) = true) :
    applyEntry x q m ws s = swapRequest x (ofLe ((ofWords ws).take 2)) (ofLe (((ofWords ws).drop 3).take 1))
      (ofLe (((ofWords ws).drop 6).take 2)) s := by
  unfold applyEntry
  rw [if_neg (by simp [hclean]), if_neg (by rw [hkind]; decide), if_pos hok, ctlApply_swap x false s hkind]

/-! ### The host commands (08 R334, R335) -/

section
variable {h : CmdHdr} {s : State}

theorem may_modes {n : Nat} {ms ns : List Nat} (hm : h.may n ms s) (hsub : ms ⊆ ns) : h.may n ns s := by
  obtain ⟨hsound, hholds, hmode⟩ := hm
  exact ⟨hsound, hholds, hsub hmode⟩

theorem exec_ctlWrite {data : List Byte} (hm : h.may 2 [1, 2, 5] s) (hlen : data.length = 16) (hkind : data.getD 2 0 = 1 ∨ data.getD 2 0 = 2)
    (hok : ctlWriteOk (s.ld s.lead).fmn.img data = true) :
    exec (.ctlWrite h data) s = .next ((eachSide (fun _ => true) (fun x s => ctlApply x true data s) (s.begun h)).answered h 0x0701 .done []) := by
  have hcalm : (decide (s.mode = 3) || decide (s.mode = 4)) = false := by
    obtain ⟨_, _, hmode⟩ := hm
    simp only [List.mem_cons, List.not_mem_nil, or_false] at hmode
    rw [← Bool.decide_or, decide_eq_false_iff_not]
    omega
  have hformat : (decide ((data.getD 2 0).toNat = 1) || decide ((data.getD 2 0).toNat = 2)) = true := by
    rcases hkind with hkind | hkind <;> rw [hkind] <;> rfl
  refine congrArg Host.Outcome.next (hostCommand_may (may_modes hm (by decide : [1, 2, 5] ⊆ [1, 2, 3, 4, 5])) ?_ _ _)
  simp only [ofLe_byteAt, advance_mode, advance_lead, advance_ld, hlen, hok, hformat, hcalm, decide_true, Bool.and_self, Bool.false_and,
    Bool.not_false]

theorem exec_ctlSwap {loop bank fade o : Nat} (hm : h.may 1 [1, 2, 3, 4, 5] s) (hbank : bank ≤ 1) (hfade : fade ≤ 1024)
    (hdesc : ctlDesc (s.ld s.lead).fmn.img loop = some o) (hcan : fade = 0 ∨ cFlag (s.ld s.lead).fmn.img o 0 = true) :
    exec (.ctlSwap h loop bank fade) s
      = .next ((eachSide (fun _ => true) (fun x s => swapRequest x loop bank fade s) (s.begun h)).answered h 0x0702 .done []) := by
  refine congrArg Host.Outcome.next (hostCommand_may hm ?_ _ _)
  simp only [advance_lead, advance_ld, hdesc, hbank, hfade]
  simpa using hcan

end

/-- Settles O38: APPLY by what it does with an ignored entry and a swap entry, the host commands by what each does to a landing. -/
theorem controlWrites : Obligations.ControlWrites := by
  unfold Obligations.ControlWrites
  intro at_ q loop bank fade x h data s
  refine ⟨fun e he => ?_, fun hm hlen hkind hok => ?_, fun hm hbank hfade hdesc => ?_⟩
  · intro a r d
    have hread : MemoryOnly x r.2 (markIssued x e (advance at_ s)) := memoryOnly_memReadN ..
    have hctl : (r.2.ld x).ctl = (s.ld x).ctl := by rw [hread.ctl, markIssued_ld]
    have hput : MemoryOnly x (applyOp x q (markIssued x e (advance at_ s))) (applyEntry x q (s.ld x).fmn.img r.1 r.2) := by
      rw [applyOp_eq (r := r) rfl (congrArg (fun l => l.fmn.img) (markIssued_ld x e at_ s))]
      exact memoryOnly_memPut ..
    have hstays := staysOn_trans (staysOn_applyEntry x q (s.ld x).fmn.img r.1 r.2) (staysOn_trans hread.stays (staysOn_modLd ..))
    obtain ⟨hother, _, _, hmode⟩ := staysOn_trans hput.stays hstays
    refine ⟨_, congrArg Host.Outcome.next (runEntry_started he (fun _ => applyOp x q) at_), peekByte_memPut_single .., by rw [hother, advance_ld],
      by rw [hmode, advance_mode], fun hskip => ?_, fun hclean hkind hok => ?_⟩
    · rw [hput.ctl, (applyEntry_ignored hskip).ctl, hctl]
    · rw [hput.ctl, applyEntry_swap hclean hkind hok]
      refine ⟨?_, fun k hk => ?_⟩
      · rw [swapRequest_loop, if_pos rfl]
      · rw [swapRequest_loop, if_neg hk, hctl]
  · refine ⟨_, exec_ctlWrite hm hlen hkind hok, fun y => ?_⟩
    obtain ⟨u, hu, _, heq⟩ := eachSide_from (fun y s => staysOn_ctlApply y true (d := data) s) (fun _ => true) y (s.begun h)
    obtain ⟨hvalue, hwrites, hswaps, hpath⟩ := ctlApply_written y true hkind u
    rw [heq, if_pos rfl, ← begun_ld s h y, ← hu]
    exact ⟨hvalue, hwrites, hswaps, hpath⟩
  · obtain ⟨o, hdesc, hcan⟩ := hdesc
    refine ⟨_, exec_ctlSwap hm hbank hfade hdesc hcan, fun y => ?_⟩
    obtain ⟨u, hu, _, heq⟩ := eachSide_from (fun y s => staysOn_swapRequest y loop bank fade s) (fun _ => true) y (s.begun h)
    rw [heq, if_pos rfl, ← begun_ld s h y, ← hu]
    exact ⟨by rw [swapRequest_loop, if_pos rfl], fun k hk => by rw [swapRequest_loop, if_neg hk]⟩

end Sys2Proof.Machine
end

section
/-!
An UPDATE in Adrift of an axis that still moves (09 R355, R356, R366): its state is not kept.
-/
namespace Sys2Proof.Machine
set_option Elab.async false -- one proof at a time, as in the tests: the compile is close to its memory limit

/-- A manifest whose only dispatch entry updates axis 4 in core cycle 1,600: a STEP axis in POSITION mode without a ledger entry, with stall
monitoring at δ_stall, k_E and v_min of 1, that stalls at the first update that meets the criterion (09 R343, R375, R376). -/
def stallImage : Tab Byte :=
  [(0x1C, 2),                                                                                         -- two sections:
   (0x40, 1), (0x44, 0x60), (0x50, 5), (0x54, 0x78),                                                  -- patterns, engine jobs
   (0x68, 16), (0x6C, 1), (0x70, 0x40), (0x71, 0x06), (0x74, 8), (0x75, 1), (0x76, 4),                -- the dispatch entry
   (0x78, 1), (0x80, 8), (0x84, 0x18), (0x88, 0x60), (0x89, 0x01), (0x90, 1),                         -- the axis part, of one axis
   (0x130, 4), (0x131, 1), (0x132, 1), (0x133, 8), (0x136, 0xFF),                                     -- its descriptor
   (0x1B2, 0x80), (0x1B3, 0x3F), (0x1B6, 0x80), (0x1B7, 0x3F), (0x1BA, 0x80), (0x1BB, 0x3F), (0x1C0, 1)]

/-- PASSAGE in Adrift, entered since the last tick: axis 4 of landing A is still READY and moves with 2 units per second. -/
def movingInAdrift : State :=
  { State.reset with
    mode := 2, arb := { adrift := true }, tick := { gridA := { period := 250000 } },
    a := { fmn := { running := true, img := stallImage, open_ := [0] },
           axe := { axes := [(4, { st := 2, plan := [{ v := 0x4000000000000000 }] })] } } }

/-- Refutes O39: in Adrift an UPDATE evaluates the stall criterion with feedback 0. Until the next tick freezes it, an axis can move faster than
v_min there; it meets E < k_E × |v|, makes a fault stop and is STOPPING where it was READY. -/
theorem not_axisUpdates : ¬ Obligations.AxisUpdates := by
  unfold Obligations.AxisUpdates
  intro h
  have hentry : entryFor (movingInAdrift.ld .A).fmn 8 1 (some 4) none = some 0 := by decide +kernel
  obtain ⟨t, hexec, _, _, hsound, _⟩ := h 0 4 0x130 .A movingInAdrift (by decide +kernel) 0 hentry
  obtain ⟨_, _, _, _, hkeeps⟩ := hsound (by decide +kernel)
  obtain ⟨hst, _, _⟩ := hkeeps (Or.inr rfl)
  have hrun := Host.Outcome.next.inj (hexec.symm.trans (congrArg Host.Outcome.next
    (runEntry_started hentry (fun k s => updateOp .A 4 (entryCycle (s.ld .A).fmn k + 96) s) 0)))
  have hstopping : (((updateOp .A 4 (entryCycle ((markIssued .A 0 (advance 0 movingInAdrift)).ld .A).fmn 0 + 96)
      (markIssued .A 0 (advance 0 movingInAdrift))).ld .A).axe.axis 4).st = 3 := by decide +kernel
  have hends := congrArg (fun u : State => ((u.ld .A).axe.axis 4).st) hrun
  simp only [keepUndo, modLd_ld, hst, hstopping] at hends
  exact absurd hends (by decide)

end Sys2Proof.Machine
end

section
/-!
The start ledger of the axes (09 R369 to R374) and their timers (09 R352, R369, R371, R372): what the ledger's work at a tick leaves of the power
words, and what each timer makes of its axis or its bus.
-/
namespace Sys2Proof.Machine
set_option Elab.async false -- one proof at a time, as in the tests: the compile is close to its memory limit

/-! ### An axis and a bus changed -/

theorem MemoryOnly.axe {x : Side} {t s : State} (h : MemoryOnly x t s) : (t.ld x).axe = (s.ld x).axe := by rw [h.landing]

theorem modAxis_axis (s : State) (x : Side) (a : Nat) (f : Axis → Axis) (c : Nat) :
    ((s.modAxis x a f).ld x).axe.axis c = if c = a then f ((s.ld x).axe.axis a) else (s.ld x).axe.axis c := by
  simp only [State.modAxis, modLd_ld, Axe.axis, Tab.get_upd]

theorem modBus_bus (s : State) (x : Side) (b : Nat) (f : AxeBus → AxeBus) (k : Nat) :
    ((s.modBus x b f).ld x).axe.bus k = if k = b then f ((s.ld x).axe.bus b) else (s.ld x).axe.bus k := by
  simp only [State.modBus, modLd_ld, Axe.bus, Tab.get_upd]

/-! ### What the ledger leaves of the power words (09 R369, R373) -/

/-- A bus without what the ledger counts and works out: its power word, and how old that is. -/
def AxeBus.powerWord (k : AxeBus) : AxeBus := { k with u := 0, frac := 0, budget := 0, limit := 0, f := 0 }

/-- `t` comes from `s` by work of landing `x` that leaves every bus its power word. -/
structure PowerKept (x : Side) (t s : State) : Prop where
  stays : StaysOn x t s
  word : ∀ b, ((t.ld x).axe.bus b).powerWord = ((s.ld x).axe.bus b).powerWord

theorem powerKept_refl (x : Side) (s : State) : PowerKept x s s := ⟨staysOn_refl .., fun _ => rfl⟩

theorem powerKept_trans {x : Side} {t u s : State} (h : PowerKept x t u) (k : PowerKept x u s) : PowerKept x t s :=
  ⟨staysOn_trans h.stays k.stays, fun b => (h.word b).trans (k.word b)⟩

theorem powerKept_ite {c : Prop} [Decidable c] {x : Side} {t u s : State} (h : PowerKept x t s) (k : PowerKept x u s) :
    PowerKept x (if c then t else u) s := by
  split <;> assumption

theorem powerKept_foldl {α : Type} {x : Side} {f : State → α → State} (hf : ∀ s a, PowerKept x (f s a) s) (l : List α) (s : State) :
    PowerKept x (l.foldl f s) s := by
  induction l generalizing s with
  | nil => exact powerKept_refl ..
  | cons a l ih => exact powerKept_trans (ih _) (hf s a)

theorem powerKept_memory {x : Side} {t s : State} (h : MemoryOnly x t s) : PowerKept x t s := ⟨h.stays, fun _ => by rw [h.axe]⟩

section
variable (x : Side)

theorem powerKept_modLd {f : Landing → Landing} (s : State) (hf : ∀ l, (f l).axe.buses = l.axe.buses := by intro l; rfl) :
    PowerKept x (s.modLd x f) s :=
  ⟨staysOn_modLd .., fun _ => by rw [modLd_ld, Axe.bus, hf]; rfl⟩

theorem powerKept_modBus (b : Nat) {f : AxeBus → AxeBus} (s : State) (hf : ∀ k, (f k).powerWord = k.powerWord := by intro k; rfl) :
    PowerKept x (s.modBus x b f) s := by
  refine ⟨staysOn_modLd .., fun k => ?_⟩
  rw [modBus_bus]
  split
  · next hk => rw [hf, hk]
  · rfl

theorem powerKept_unadmit (b : Nat) (s : State) : PowerKept x (unadmit x b s) s :=
  powerKept_foldl (fun _ _ => powerKept_trans (powerKept_modLd ..) (powerKept_trans (powerKept_modLd ..) (powerKept_modBus ..))) _ s

theorem powerKept_admitStarts (b : Nat) (told : List Nat) (n : Nat) (s : State) : PowerKept x (admitStarts x b told n s) s := by
  induction n generalizing s with
  | zero => exact powerKept_refl ..
  | succ n ih =>
    unfold admitStarts
    dsimp only
    split
    · exact powerKept_refl ..
    · refine powerKept_ite (powerKept_trans (ih _) ?_) (powerKept_refl ..)
      have hadmitted : ∀ a u, PowerKept x (if told.contains a then u else raise (.landing x) 0x080E a u) u := fun _ _ =>
        powerKept_ite (powerKept_refl ..) (powerKept_memory (memoryOnly_raise ..))
      exact powerKept_trans (hadmitted ..) (powerKept_trans (powerKept_modLd ..) (powerKept_trans (powerKept_modLd ..) (powerKept_modBus ..)))

theorem powerKept_ledgerBus (told : List Nat) (b : Nat) (s : State) : PowerKept x (ledgerBus x told b s) s := by
  have hclamped : ∀ (c : Bool) (u : State), PowerKept x (if c then raisePerSecond (.landing x) 0x0811 b b u else u) u := fun _ _ =>
    powerKept_ite (powerKept_memory (memoryOnly_raisePerSecond ..)) (powerKept_refl ..)
  exact powerKept_trans (powerKept_memory (memoryOnly_memPut ..))
    (powerKept_trans (hclamped ..) (powerKept_trans (powerKept_modBus ..) (powerKept_admitStarts ..)))

end

/-- A change of the ledger's inputs is made of a state and followed by work that both leave every power word (09 R370). -/
theorem withLedger_around (x : Side) (b : Nat) (f : State → State) (s : State) :
    ∃ u, PowerKept x u s ∧ PowerKept x (withLedger x b f s) (f u) := by
  unfold withLedger
  split
  · exact ⟨s, powerKept_refl .., powerKept_refl ..⟩
  · exact ⟨_, powerKept_unadmit x b s, powerKept_ledgerBus ..⟩

theorem withLedger_offTick {x : Side} {s : State} (h : s.nowNs ≠ s.tickNs x) (b : Nat) (f : State → State) : withLedger x b f s = f s :=
  if_pos h

theorem staysOn_withLedger {x : Side} {f : State → State} (hf : ∀ s, StaysOn x (f s) s) (b : Nat) (s : State) :
    StaysOn x (withLedger x b f s) s := by
  obtain ⟨u, hbefore, hafter⟩ := withLedger_around x b f s
  exact staysOn_trans hafter.stays (staysOn_trans (hf u) hbefore.stays)

/-! ### START_DURATION_END (09 R371) -/

/-- The reservations of axis `a` that have run out at instant `t`. -/
def runOut (a t : Nat) (e : Axe) : List AxeHoldS := e.reserved.filter fun h => h.axis = a && decide (h.ends ≤ t)

/-- The reservations of axis `a` that have run out at instant `t` ended, the axis STOPPED where it was started. -/
def endStart (a t : Nat) (x : Side) (s : State) : State :=
  (s.modLd x fun l => { l with axe := { l.axe with reserved := l.axe.reserved.filter fun h => !(h.axis = a && decide (h.ends ≤ t)) } }).modAxis x a
    fun ax => if ax.st = 1 && ax.queued.isNone then { ax with st := 4 } else ax

section
variable {a : Nat} {x : Side} {s : State}

theorem durationEnd_none (h : runOut a s.nowNs (s.ld x).axe = []) : durationEnd a x s = s := by
  unfold runOut at h
  unfold durationEnd
  dsimp only
  rw [h]

theorem durationEnd_due (h : runOut a s.nowNs (s.ld x).axe ≠ []) : ∃ b, durationEnd a x s = withLedger x b (endStart a s.nowNs x) s := by
  obtain ⟨r, rs, hr⟩ := List.exists_cons_of_ne_nil h
  unfold runOut at hr
  refine ⟨r.bus, ?_⟩
  unfold durationEnd
  dsimp only
  rw [hr]
  rfl

theorem staysOn_durationEnd (a : Nat) (x : Side) (s : State) : StaysOn x (durationEnd a x s) s := by
  by_cases h : runOut a s.nowNs (s.ld x).axe = []
  · rw [durationEnd_none h]
    exact staysOn_refl ..
  · obtain ⟨b, hb⟩ := durationEnd_due h
    rw [hb]
    exact staysOn_withLedger (fun _ => staysOn_trans (staysOn_modLd ..) (staysOn_modLd ..)) ..

theorem endStart_reserved (t : Nat) : ((endStart a t x s).ld x).axe.reserved
    = (s.ld x).axe.reserved.filter fun h => !(h.axis = a && decide (h.ends ≤ t)) := by
  simp only [endStart, State.modAxis, modLd_ld]

theorem endStart_st (t : Nat) : (((endStart a t x s).ld x).axe.axis a).st
    = if ((s.ld x).axe.axis a).st = 1 ∧ ((s.ld x).axe.axis a).queued = none then 4 else ((s.ld x).axe.axis a).st := by
  rw [endStart, modAxis_axis, if_pos rfl, modLd_ld]
  change (if ((s.ld x).axe.axis a).st = 1 && ((s.ld x).axe.axis a).queued.isNone then { (s.ld x).axe.axis a with st := 4 }
    else (s.ld x).axe.axis a).st = _
  simp only [Bool.and_eq_true, decide_eq_true_eq, Option.isNone_iff_eq_none]
  split <;> rfl

/-! ### AXE_START_TIMEOUT (09 R372) -/

theorem startTimeout_idle (h : ((s.ld x).axe.axis a).queued = none) : startTimeout a x s = s := by
  unfold startTimeout
  dsimp only
  rw [h]
  split
  · next hq => cases hq
  · rfl

theorem startTimeout_waited {o : Nat} {q : Nat × Nat} (hdesc : axeDesc (s.ld x).fmn.img a = some o)
    (hqueued : ((s.ld x).axe.axis a).queued = some q) (hlate : q.2 + le (s.ld x).fmn.img (o + 0xA4) 4 * 1000000 ≤ s.nowNs) :
    startTimeout a x s = raise (.landing x) 0x080F a (s.modAxis x a fun ax => { ax with st := 0, queued := none }) := by
  unfold startTimeout
  dsimp only
  rw [hdesc, hqueued]
  exact if_pos hlate

theorem staysOn_startTimeout (a : Nat) (x : Side) (s : State) : StaysOn x (startTimeout a x s) s := by
  unfold startTimeout
  dsimp only
  split
  · exact staysOn_ite (staysOn_trans (staysOn_raise ..) (staysOn_modLd ..)) (staysOn_refl ..)
  · exact staysOn_refl ..

/-! ### AXE_PMS_STALE (09 R369) -/

/-- Bus `b` at the fallback values of a manifest. -/
def fallBack (m : Tab Byte) (b : Nat) (k : AxeBus) : AxeBus :=
  { k with l := busFld m b 0, a := busFld m b 4, r := busFld m b 8, stale := true, warned := true }

variable {b : Nat}

theorem pmsStale_idle (h : ((s.ld x).axe.bus b).last = none ∨ ((s.ld x).axe.bus b).warned = true) : pmsStale b x s = s := by
  unfold pmsStale
  dsimp only
  split
  · rfl
  · next hlast =>
    rcases h with hnone | hwarned
    · rw [hnone] at hlast
      cases hlast
    · exact if_pos (by simp [hwarned])

theorem pmsStale_overdue {n : Nat} (hlast : ((s.ld x).axe.bus b).last = some n) (haxes : axeDescs (s.ld x).fmn.img ≠ [])
    (hfirst : ((s.ld x).axe.bus b).warned = false) (hlate : n + busFld (s.ld x).fmn.img b 0x10 * 1000000 ≤ s.nowNs) :
    pmsStale b x s = raise (.landing x) 0x0810 b (withLedger x b (fun s' => s'.modBus x b (fallBack (s.ld x).fmn.img b)) s) := by
  unfold pmsStale
  dsimp only
  rw [hlast]
  exact if_neg (by simp [haxes, hfirst, Nat.not_lt.mpr hlate])

theorem staysOn_pmsStale (b : Nat) (x : Side) (s : State) : StaysOn x (pmsStale b x s) s := by
  unfold pmsStale
  dsimp only
  split
  · exact staysOn_refl ..
  · exact staysOn_ite (staysOn_refl ..) (staysOn_trans (staysOn_raise ..) (staysOn_withLedger (fun _ => staysOn_modLd ..) ..))

theorem pmsStale_powerWord {n : Nat} (hlast : ((s.ld x).axe.bus b).last = some n) (haxes : axeDescs (s.ld x).fmn.img ≠ [])
    (hfirst : ((s.ld x).axe.bus b).warned = false) (hlate : n + busFld (s.ld x).fmn.img b 0x10 * 1000000 ≤ s.nowNs) :
    ∃ k, (((pmsStale b x s).ld x).axe.bus b).powerWord = (fallBack (s.ld x).fmn.img b k).powerWord := by
  obtain ⟨u, _, hafter⟩ := withLedger_around x b (fun s' => s'.modBus x b (fallBack (s.ld x).fmn.img b)) s
  refine ⟨(u.ld x).axe.bus b, ?_⟩
  rw [pmsStale_overdue hlast haxes hfirst hlate, (memoryOnly_raise ..).axe, hafter.word, modBus_bus, if_pos rfl]

end

/-! ### AXE_NAN_EXPIRED (09 R352) -/

/-- The axes, each with its number, that have held 8 targets as NaN and are not yet marked for it. -/
def heldTargets (e : Axe) : List (Nat × Axis) := e.axes.filter fun q => decide (8 ≤ q.2.nanCount) && !q.2.nanOver

/-- Axis `q.1` of landing `x` is marked for the targets that it has held, and the vessel enters Adrift. -/
def expireTargets (x : Side) (s : State) (q : Nat × Axis) : State :=
  enterAdrift 0x080A (raise (.landing x) 0x080A q.1 (s.modAxis x q.1 fun ax => { ax with nanOver := true }))

theorem nanExpired_eq (x : Side) (s : State) : nanExpired x s = (heldTargets (s.ld x).axe).foldl (expireTargets x) s := by
  rw [heldTargets, List.foldl_filter]
  refine List.foldl_ext _ _ _ fun u q _ => ?_
  have hskip : (decide (q.2.nanCount < 8) || q.2.nanOver) = !(decide (8 ≤ q.2.nanCount) && !q.2.nanOver) := by
    simp only [← Nat.not_le, Bool.not_and, Bool.not_not, decide_not]
  rw [hskip]
  cases decide (8 ≤ q.2.nanCount) && !q.2.nanOver <;> rfl

/-- `t` comes from `s` by marks on axes of landing `x` for held targets. -/
structure Marking (x : Side) (t s : State) : Prop where
  other : t.ld x.other = s.ld x.other
  mode : t.mode = s.mode
  adrift : s.arb.adrift = true → t.arb.adrift = true
  marked : ∀ a, ((s.ld x).axe.axis a).nanOver = true → ((t.ld x).axe.axis a).nanOver = true

theorem marking_refl (x : Side) (s : State) : Marking x s s := ⟨rfl, rfl, id, fun _ => id⟩

theorem marking_trans {x : Side} {t u s : State} (h : Marking x t u) (k : Marking x u s) : Marking x t s :=
  ⟨h.other.trans k.other, h.mode.trans k.mode, fun ha => h.adrift (k.adrift ha), fun a hm => h.marked a (k.marked a hm)⟩

section
variable (x : Side) (s : State)

theorem expireTargets_axis (q : Nat × Axis) (a : Nat) : ((expireTargets x s q).ld x).axe.axis a
    = if a = q.1 then { (s.ld x).axe.axis a with nanOver := true } else (s.ld x).axe.axis a := by
  rw [expireTargets, enterAdrift_ld, (memoryOnly_raise ..).axe, modAxis_axis]
  split
  · next ha => rw [ha]
  · rfl

theorem expireTargets_adrift (q : Nat × Axis) : (expireTargets x s q).arb.adrift = (s.arb.adrift || decide (2 ≤ s.mode)) := by
  simp [expireTargets, enterAdrift_adrift, State.modAxis]

theorem expireTargets_marking (q : Nat × Axis) : Marking x (expireTargets x s q) s := by
  refine ⟨?_, by simp [expireTargets, State.modAxis], fun hadrift => by rw [expireTargets_adrift, hadrift, Bool.true_or], fun a hmarked => ?_⟩
  · rw [expireTargets, enterAdrift_ld, raise_other]
    exact modLd_other ..
  · rw [expireTargets_axis]
    split
    · rfl
    · exact hmarked

end

theorem foldl_expireTargets_marking (x : Side) (l : List (Nat × Axis)) (s : State) : Marking x (l.foldl (expireTargets x) s) s := by
  induction l generalizing s with
  | nil => exact marking_refl ..
  | cons q l ih => exact marking_trans (ih _) (expireTargets_marking x s q)

theorem foldl_expireTargets_marked (x : Side) (l : List (Nat × Axis)) (s : State) :
    ∀ q ∈ l, (((l.foldl (expireTargets x) s).ld x).axe.axis q.1).nanOver = true := by
  induction l generalizing s with
  | nil => exact fun q hq => absurd hq List.not_mem_nil
  | cons p l ih =>
    intro q hq
    rcases List.mem_cons.mp hq with rfl | hl
    · exact (foldl_expireTargets_marking x l _).marked _ (by rw [expireTargets_axis, if_pos rfl])
    · exact ih _ q hl

theorem foldl_expireTargets_adrift (x : Side) {l : List (Nat × Axis)} (s : State) (hl : l ≠ []) (hmode : 2 ≤ s.mode) :
    (l.foldl (expireTargets x) s).arb.adrift = true := by
  cases l with
  | nil => exact absurd rfl hl
  | cons q l => exact (foldl_expireTargets_marking x l _).adrift (by simp [expireTargets_adrift, hmode])

/-- The targets held on landing `x` expire where `c` lets them. -/
def expireWhere (c : Side → Bool) (x : Side) (s : State) : State := if c x then nanExpired x s else s

section
variable {c : Side → Bool} {x : Side}

theorem expireWhere_run (h : c x = true) (s : State) : expireWhere c x s = (heldTargets (s.ld x).axe).foldl (expireTargets x) s := by
  rw [expireWhere, if_pos h, nanExpired_eq]

theorem expireWhere_none {s : State} (h : c x = true → heldTargets (s.ld x).axe = []) : expireWhere c x s = s := by
  by_cases hc : c x = true
  · rw [expireWhere_run hc, h hc, List.foldl_nil]
  · exact if_neg hc

theorem expireWhere_marking (c : Side → Bool) (x : Side) (s : State) : Marking x (expireWhere c x s) s := by
  by_cases hc : c x = true
  · rw [expireWhere_run hc]
    exact foldl_expireTargets_marking ..
  · rw [expireWhere, if_neg hc]
    exact marking_refl ..

theorem expireWhere_marked (h : c x = true) (s : State) :
    ∀ q ∈ heldTargets (s.ld x).axe, (((expireWhere c x s).ld x).axe.axis q.1).nanOver = true := by
  rw [expireWhere_run h]
  exact foldl_expireTargets_marked x _ s

theorem expireWhere_adrift {s : State} (h : c x = true) (hheld : heldTargets (s.ld x).axe ≠ []) (hmode : 2 ≤ s.mode) :
    (expireWhere c x s).arb.adrift = true := by
  rw [expireWhere_run h]
  exact foldl_expireTargets_adrift x s hheld hmode

end

/-- The targets held on both landings: Landing B's are those that had been held before Landing A's expired. -/
theorem eachSide_nanExpired (c : Side → Bool) (s : State) :
    ((∀ x, c x = true → heldTargets (s.ld x).axe = []) → eachSide c nanExpired s = s)
    ∧ (eachSide c nanExpired s).mode = s.mode
    ∧ (∀ x, c x = true → ∀ q ∈ heldTargets (s.ld x).axe, (((eachSide c nanExpired s).ld x).axe.axis q.1).nanOver = true)
    ∧ ((∃ x, c x = true ∧ heldTargets (s.ld x).axe ≠ []) → 2 ≤ s.mode → (eachSide c nanExpired s).arb.adrift = true) := by
  have hrun : eachSide c nanExpired s = expireWhere c .B (expireWhere c .A s) := rfl
  have hA := expireWhere_marking c .A s
  have hB := expireWhere_marking c .B (expireWhere c .A s)
  have hstill : (expireWhere c .A s).ld .B = s.ld .B := hA.other
  have hkept : (expireWhere c .B (expireWhere c .A s)).ld .A = (expireWhere c .A s).ld .A := hB.other
  rw [hrun]
  refine ⟨fun hnone => ?_, hB.mode.trans hA.mode, fun x hc => ?_, fun ⟨x, hc, hheld⟩ hmode => ?_⟩
  · rw [expireWhere_none (hnone .A), expireWhere_none (hnone .B)]
  · cases x with
    | A =>
      rw [hkept]
      exact expireWhere_marked hc s
    | B =>
      rw [← hstill]
      exact expireWhere_marked hc _
  · cases x with
    | A => exact hB.adrift (expireWhere_adrift hc hheld hmode)
    | B => exact expireWhere_adrift hc (by rwa [hstill]) (by rwa [hA.mode])

/-! ### The statement -/

/-- The clock, the tick and the landing that a timer of landing `x` starts from, at the instant of its command. -/
theorem eachSide_timer {f : Side → State → State} (hf : ∀ y s, StaysOn y (f y s) s) (at_ : Nat) (x : Side) (s : State) :
    ∃ u, u.ld x = s.ld x ∧ u.nowNs = (advance at_ s).nowNs ∧ u.tickNs x = s.tickNs x
      ∧ (eachSide (fun _ => true) f (advance at_ s)).ld x = (f x u).ld x := by
  obtain ⟨u, hld, hnow, hgrid, heq⟩ := eachSide_advance hf (fun _ => true) at_ x s rfl
  exact ⟨u, hld, hnow, by rw [State.tickNs, hgrid, State.tickNs], heq⟩

/-- Settles O40: each timer on one landing, from that landing as the command found it. -/
theorem axisTimers : Obligations.AxisTimers := by
  unfold Obligations.AxisTimers
  intro at_ a b s now
  refine ⟨⟨_, rfl, fun x => ?_⟩, ⟨_, rfl, ?_, fun x => ?_⟩, ?_, ⟨_, rfl, fun x => ?_⟩⟩
  · intro due
    obtain ⟨u, hld, hnow, htick, heq⟩ := eachSide_timer (staysOn_durationEnd a) at_ x s
    have hdue : runOut a u.nowNs (u.ld x).axe = due := by rw [hld, hnow]; rfl
    refine ⟨fun hnone => ?_, fun hsome hoff => ?_⟩
    · rw [heq, durationEnd_none (hdue.trans hnone), hld]
    · obtain ⟨k, hend⟩ := durationEnd_due (hdue.symm ▸ hsome)
      rw [heq, hend, withLedger_offTick (by rwa [hnow, htick]), endStart_reserved, endStart_st, hnow, hld]
      exact ⟨rfl, rfl⟩
  · obtain ⟨_, _, _, _, hmode, _⟩ := eachSide_same (fun _ => true) (startTimeout a) (advance at_ s) fun x u => startTimeout_same a x u
    rw [hmode, advance_mode]
  · intro m ax
    obtain ⟨u, hld, hnow, _, heq⟩ := eachSide_timer (staysOn_startTimeout a) at_ x s
    refine ⟨fun o q hdesc hqueued hlate => ?_, fun hidle => ?_⟩
    · rw [heq, startTimeout_waited (by rwa [hld]) (by rwa [hld]) (by rwa [hld, hnow]), (memoryOnly_raise ..).axe]
      refine ⟨?_, fun c hc => ?_⟩
      · rw [modAxis_axis, if_pos rfl, hld]
      · rw [modAxis_axis, if_neg hc, hld]
    · rw [heq, startTimeout_idle (by rwa [hld]), hld]
  · intro due
    obtain ⟨hnone, hmode, hmarked, hadrift⟩ := eachSide_nanExpired (fun x => s.inStep x) (advance at_ s)
    simp only [advance_ld, advance_mode] at hnone hmode hmarked hadrift
    exact ⟨fun h => congrArg Host.Outcome.next (hnone h), _, rfl, hmode, hmarked, hadrift⟩
  · intro m k
    obtain ⟨u, hld, hnow, _, heq⟩ := eachSide_timer (staysOn_pmsStale b) at_ x s
    refine ⟨fun n hlast haxes hfirst hlate => ?_, fun hidle => ?_⟩
    · obtain ⟨k', hword⟩ := pmsStale_powerWord (x := x) (s := u) (by rwa [hld]) (by rwa [hld]) (by rwa [hld]) (by rwa [hld, hnow])
      rw [← heq, hld] at hword
      exact ⟨congrArg (·.l) hword, congrArg (·.a) hword, congrArg (·.r) hword, congrArg (·.stale) hword, congrArg (·.warned) hword⟩
    · rw [heq, pmsStale_idle (by rwa [hld]), hld]

end Sys2Proof.Machine
end

section
/-!
AXE_CLEAR_LIMIT where the leading landing's crossings are shorter than those of the last tick (02 R60, 09 R362): the latch is not cleared.
-/
namespace Sys2Proof.Machine
set_option Elab.async false -- one proof at a time, as in the tests: the compile is close to its memory limit

/-- The first command of partition 1 on its queue 0. -/
def firstCommand : CmdHdr := { part := 1, descPart := 1 }

/-- Landing A leads with crossings of 250 µs since a tick of 500 µs; its input 3 is latched and has been clear in 150 snapshots. -/
def latchClearing : State :=
  { (State.reset.modPart 1 fun t => { t with level := 1 }) with
    mode := 1, tick := { period := 500000, gridA := { period := 250000 } },
    a := { axe := { latched := [(3, true)], clear := [(3, 150)] } } }

/-- Refutes O41: AXE_CLEAR_LIMIT counts 50 ms in crossings of the leading landing, the statement in crossings of the module's tick. With 150 clear
snapshots the one has 37.5 ms and answers STATE, the other has 75 ms and expects the latch cleared. -/
theorem not_axisCommands : ¬ Obligations.AxisCommands := by
  unfold Obligations.AxisCommands
  intro h
  obtain ⟨_, _, _, hclear, _⟩ := h firstCommand 0 0 3 0 0 0 0 latchClearing
  have hmay : firstCommand.may 1 [1, 2, 3, 4, 5] latchClearing :=
    ⟨⟨rfl, rfl, rfl, by decide, by decide, by decide, rfl⟩, by decide, by decide⟩
  obtain ⟨u, hexec, _, hlatched⟩ := hclear hmay (by decide) (by decide) (by decide)
  have hrefused : exec (.axeClearLimit firstCommand 3) latchClearing
      = .next ((logState (cmdOf firstCommand 0x0804) (advance 0 latchClearing)).answered firstCommand 0x0804 .state []) := by
    refine congrArg Host.Outcome.next ((hostCommand_fail _ _ _ _ _ .state ?_).trans (by rw [if_pos rfl]; rfl))
    decide
  have hkept : u.ld .A = latchClearing.ld .A := by
    have hstates := congrArg (fun t : State => t.ld .A) (Host.Outcome.next.inj (hexec.symm.trans hrefused))
    simpa [State.answered, State.ld, logState] using hstates
  have hcleared := hlatched .A 3
  rw [hkept] at hcleared
  exact absurd hcleared (by decide)

end Sys2Proof.Machine
end

section
/-!
What stays of module time, of the ticks and of the arbiter's registers (chapter 10) under the operations that fault, deliver, generate steps
and change roles.
-/
namespace Sys2Proof.Machine
set_option Elab.async false -- one proof at a time, as in the tests: the compile is close to its memory limit

/-! ### Time, ticks and registers kept -/

/-- The arbiter's registers without its notes: the steps generated in a gap (09 R360), the items held in the compare window (10 R394), the
last verdict (R415, R416), the agreed values (R396) and the counts of agreement (R406). -/
def Arbiter.registers (b : Arbiter) : Arbiter :=
  { b with
    gapSteps := [], held := [], vLeg := 0, vRow := 0, vXing := 0, vAccA := false, vAccB := false, vOutA := false, vOutB := false, vFailed := 0,
    digA := 0, digB := 0, codeA := 0, codeB := 0, agreed := [], mismatches := 0, agree := 0, agreedLegs := 0 }

/-- `t` has the module time, the ticks and, notes aside, the arbiter's registers of `s`. -/
structure KeepsArb (t s : State) : Prop where
  now : t.now = s.now
  tick : t.tick = s.tick
  arb : t.arb.registers = s.arb.registers

namespace KeepsArb
variable {t s : State} (h : KeepsArb t s)
include h

theorem gap : t.arb.gap = s.arb.gap := (congrArg Arbiter.gap h.arb :)
theorem adrift : t.arb.adrift = s.arb.adrift := (congrArg Arbiter.adrift h.arb :)
theorem cause : t.arb.cause = s.arb.cause := (congrArg Arbiter.cause h.arb :)
theorem change : t.arb.change = s.arb.change := (congrArg Arbiter.change h.arb :)
theorem resync : t.arb.resync = s.arb.resync := (congrArg Arbiter.resync h.arb :)
theorem finalKb : t.arb.finalKb = s.arb.finalKb := (congrArg Arbiter.finalKb h.arb :)
theorem failovers : t.arb.failovers = s.arb.failovers := (congrArg Arbiter.failovers h.arb :)
theorem due : t.arb.due = s.arb.due := (congrArg Arbiter.due h.arb :)
theorem judged : t.arb.judged = s.arb.judged := (congrArg Arbiter.judged h.arb :)
theorem repA : t.arb.repA = s.arb.repA := (congrArg Arbiter.repA h.arb :)
theorem repB : t.arb.repB = s.arb.repB := (congrArg Arbiter.repB h.arb :)

theorem legCount : t.legCount = s.legCount := by
  unfold State.legCount State.legNow
  rw [h.now, h.tick]

end KeepsArb

theorem keepsArb_of {t s : State} (hnow : t.now = s.now := by rfl) (htick : t.tick = s.tick := by rfl) (harb : t.arb = s.arb := by rfl) :
    KeepsArb t s := ⟨hnow, htick, by rw [harb]⟩

theorem keepsArb_refl (s : State) : KeepsArb s s := keepsArb_of

theorem keepsArb_trans {t u s : State} (h : KeepsArb t u) (k : KeepsArb u s) : KeepsArb t s :=
  ⟨h.now.trans k.now, h.tick.trans k.tick, h.arb.trans k.arb⟩

theorem keepsArb_ite {c : Prop} [Decidable c] {t u s : State} (h : KeepsArb t s) (k : KeepsArb u s) : KeepsArb (if c then t else u) s := by
  split <;> assumption

theorem keepsArb_foldl {α : Type} {f : State → α → State} (hf : ∀ s a, KeepsArb (f s a) s) (l : List α) (s : State) :
    KeepsArb (l.foldl f s) s :=
  foldl_ind (KeepsArb · s) f (fun u a h => keepsArb_trans (hf u a) h) l s (keepsArb_refl s)

theorem keepsArb_eachSide {f : Side → State → State} (hf : ∀ x s, KeepsArb (f x s) s) (c : Side → Bool) (s : State) :
    KeepsArb (eachSide c f s) s :=
  eachSide_ind (KeepsArb · s) c f (fun x u h => keepsArb_trans (hf x u) h) s (keepsArb_refl s)

theorem keepsArb_modLd (x : Side) (f : Landing → Landing) (s : State) : KeepsArb (s.modLd x f) s :=
  keepsArb_of (modLd_now ..) (modLd_tick ..) (modLd_arb ..)

/-- The notes may be written. -/
theorem keepsArb_modArb (s : State) (f : Arbiter → Arbiter)
    (hf : (f s.arb).registers = s.arb.registers := by rfl) : KeepsArb (s.modArb f) s := ⟨rfl, rfl, hf⟩

/-! ### Faults and completions (00 R22, R28) -/

theorem keepsArb_raise (src : Source) (code detail : Nat) (s : State) : KeepsArb (raise src code detail s) s :=
  keepsArb_of (raise_now ..) (raise_tick ..) (raise_arb ..)

theorem keepsArb_raiseWithin (src : Source) (code detail key t window : Nat) (s : State) :
    KeepsArb (raiseWithin src code detail key t window s) s := by
  unfold raiseWithin
  exact keepsArb_ite (keepsArb_refl s) (keepsArb_trans (keepsArb_raise ..) keepsArb_of)

theorem keepsArb_raisePerSecond (src : Source) (code detail key : Nat) (s : State) : KeepsArb (raisePerSecond src code detail key s) s :=
  keepsArb_raiseWithin ..

theorem keepsArb_raiseOwn (src : Source) (code detail : Nat) (own : Option (List Byte)) (s : State) :
    KeepsArb (raiseOwn src code detail own s) s := by
  have htold : Told (raiseOwn src code detail own s) s := by
    unfold raiseOwn
    split
    · exact told_refl s
    · exact told_trans (told_react ..) (told_logPut ..)
  exact keepsArb_of ((congrArg State.now htold).trans rfl) ((congrArg State.tick htold).trans rfl) ((congrArg State.arb htold).trans rfl)

theorem keepsArb_complete (c : Pend) (st : Status) (d : List Byte) (p : Bool) (s : State) : KeepsArb (complete c st d p s) s :=
  keepsArb_of (complete_now ..) (complete_tick ..) (complete_arb ..)

/-! ### Steps generated (09 R360, R361) -/

theorem keepsArb_modAxis (s : State) (x : Side) (a : Nat) (f : Axis → Axis) : KeepsArb (s.modAxis x a f) s := keepsArb_modLd ..

theorem keepsArb_runAxes (x : Side) (s : State) : KeepsArb (runAxes x s) s := by
  refine keepsArb_foldl (fun s q => ?_) _ s
  dsimp only
  split
  · exact keepsArb_ite (keepsArb_trans (keepsArb_modArb ..) (keepsArb_modAxis ..)) (keepsArb_modAxis ..)
  · exact keepsArb_ite (keepsArb_trans keepsArb_of (keepsArb_modAxis ..)) (keepsArb_modAxis ..)

/-- Both landings' step generators brought up to now. -/
theorem keepsArb_settlePins (s : State) : KeepsArb (settlePins s) s := keepsArb_trans (keepsArb_runAxes ..) (keepsArb_runAxes ..)

theorem keepsArb_takeGapSteps (x : Side) (s : State) : KeepsArb (takeGapSteps x s) s :=
  keepsArb_trans (keepsArb_foldl (fun _ _ => keepsArb_trans (keepsArb_raise ..) (keepsArb_modAxis ..)) ..) (keepsArb_modArb ..)

/-! ### Items delivered (10 R390, 14 R540, 15 R560, 01 R43) -/

theorem keepsArb_bothCan (p : Nat) (f : CanCtl → CanCtl) (s : State) : KeepsArb (bothCan p f s) s := by
  unfold bothCan State.modCan
  exact keepsArb_trans (keepsArb_modLd ..) (keepsArb_modLd ..)

theorem keepsArb_deliverCan (i : OutItem) (s : State) : KeepsArb (deliverCan i s) s := by
  unfold deliverCan
  exact keepsArb_ite (keepsArb_raisePerSecond ..) (keepsArb_ite (keepsArb_bothCan ..)
    (keepsArb_trans (keepsArb_bothCan ..) (keepsArb_ite (keepsArb_raisePerSecond ..) (keepsArb_refl s))))

theorem keepsArb_modEthPort (s : State) (x : Side) (p : Nat) (f : EthPort → EthPort) : KeepsArb (s.modEthPort x p f) s := by
  unfold State.modEthPort State.modEth
  exact keepsArb_modLd ..

theorem keepsArb_deliverEth (i : OutItem) (s : State) : KeepsArb (deliverEth i s) s := keepsArb_foldl (fun _ _ => keepsArb_modEthPort ..) ..

theorem keepsArb_postLost (s : State) : KeepsArb (postLost s) s := by
  unfold postLost
  exact keepsArb_ite (keepsArb_refl s) (keepsArb_trans (keepsArb_raiseOwn ..) keepsArb_of)

theorem keepsArb_commitTime (secs sub writer : Nat) (s : State) : KeepsArb (commitTime secs sub writer s) s := by
  unfold commitTime
  extract_lets o back pay old c s1 s2
  have hset : KeepsArb s2 s := keepsArb_trans (keepsArb_postLost _) (keepsArb_trans (keepsArb_raiseOwn ..) (keepsArb_of (t := s1)))
  exact keepsArb_ite (keepsArb_trans (keepsArb_raise ..) hset) hset

theorem keepsArb_clearEvents (x : Side) (u v : Nat) (s : State) : KeepsArb (clearEvents x u v s) s := by
  unfold clearEvents
  exact keepsArb_ite (keepsArb_trans keepsArb_of (keepsArb_modLd ..))
    (keepsArb_ite (keepsArb_modLd ..) (keepsArb_ite keepsArb_of keepsArb_of))

/-- A cable-die register that an engine's claim writes. -/
theorem keepsArb_regWrite (y : Side) (n : Nat) (x : Side) (a : Nat) (v : Word) (s : State) : KeepsArb (regWrite (.engine y n) x a v s) s := by
  have hwritten : ∀ (f : State → State), KeepsArb (f s) s → KeepsArb (rtcWrite (.engine y n) f s) s := fun f hf =>
    keepsArb_ite hf (keepsArb_refl s)
  have hmem : ∀ f, KeepsArb (memConfig (.engine y n) x f s) s := fun f => keepsArb_ite (keepsArb_modLd ..) (keepsArb_refl s)
  have hwake : KeepsArb (wakeWrite (.engine y n) v s) s :=
    hwritten _ (keepsArb_ite (keepsArb_trans (keepsArb_raise ..) keepsArb_of) (keepsArb_refl s))
  have hbackup : ∀ o, KeepsArb (backupWrite (.engine y n) o v s) s := fun o => keepsArb_ite keepsArb_of (keepsArb_refl s)
  have hrw := keepsArb_ite (c := a = 0x30090008) (hmem (bucketCfg v)) (keepsArb_ite (c := a = 0x30090010) (hmem (scrubCfg v))
    (keepsArb_ite (c := a = 0x400F0000) (hwritten (commitStaged (.engine y n) v) (keepsArb_trans (keepsArb_commitTime ..) keepsArb_of))
      (keepsArb_ite (c := a = 0x400F0008) (hwritten (stageSubsec (.engine y n) v) keepsArb_of)
        (keepsArb_ite (c := a = 0x400F001C) hwake (hbackup (a % 65536 - 0x100))))))
  unfold regWrite
  refine keepsArb_ite (keepsArb_refl s) ?_
  split
  · exact keepsArb_clearEvents ..
  · exact keepsArb_refl s
  · exact hrw
  · exact hrw
  · exact keepsArb_refl s

theorem keepsArb_linkWrites (a : Nat) (ws : List Pw) (s : State) : KeepsArb (linkWrites a ws s) s := by
  induction ws generalizing a s with
  | nil => exact keepsArb_refl s
  | cons w ws ih => exact keepsArb_trans (ih ..) (keepsArb_trans (keepsArb_regWrite ..) (keepsArb_regWrite ..))

theorem keepsArb_deliver (i : OutItem) (s : State) : KeepsArb (deliver i s) s := by
  have hlink : KeepsArb (deliverLink i s) s := keepsArb_ite keepsArb_of (keepsArb_linkWrites ..)
  exact keepsArb_ite (keepsArb_deliverCan ..) (keepsArb_ite (keepsArb_deliverEth ..) (keepsArb_ite hlink (keepsArb_refl s)))

theorem keepsArb_passItem (x : Side) (i : OutItem) (s : State) : KeepsArb (passItem deliver x i s) s := by
  unfold passItem
  split
  · exact keepsArb_refl s
  · exact keepsArb_ite (keepsArb_refl s) (keepsArb_deliver ..)

/-! ### A change of the active landing (14 R553, 15 R582) -/

theorem keepsArb_canRoles (s : State) : KeepsArb (canRoles s) s := by
  have hstart : KeepsArb (keepStart s) s := keepsArb_ite (keepsArb_modLd ..) (keepsArb_refl s)
  refine keepsArb_trans (keepsArb_foldl (fun s p => ?_) ..) hstart
  obtain ⟨hnow, htick, harb⟩ := keepsArb_bothCan p (fun c => { c with tec := 0, rec_ := 0, passive := false, coll := [] }) s
  exact ⟨hnow, htick, harb⟩

theorem keepsArb_newActive (s : State) : KeepsArb (newActive s) s := by
  unfold newActive ethRoles
  exact keepsArb_trans (keepsArb_eachSide (fun _ _ => keepsArb_foldl (fun _ _ => keepsArb_modEthPort ..) ..) ..)
    (keepsArb_trans (keepsArb_canRoles _) (keepsArb_modArb ..))

end Sys2Proof.Machine
end

section
/-!
The arbiter's host commands (10 R405, R407 to R410, 12 R474): each as its effect on the state at which its checks pass, and what that effect
leaves.
-/
namespace Sys2Proof.Machine
set_option Elab.async false -- one proof at a time, as in the tests: the compile is close to its memory limit

/-! ### Roles and time at the checks (00 R22) -/

theorem role_of_same {t s : State} (h : Same t s) (x : Side) : t.role x = s.role x := by
  obtain ⟨_, hA, hB, _⟩ := h
  cases x
  · exact hA
  · exact hB

theorem mode_of_same {t s : State} (h : Same t s) : t.mode = s.mode := by
  obtain ⟨_, _, _, _, hmode, _⟩ := h
  exact hmode

theorem due_of_same {t s : State} (h : Same t s) : t.arb.due = s.arb.due := by
  obtain ⟨_, _, _, hdue, _⟩ := h
  exact hdue

theorem setRole_other (s : State) (x : Side) (r : Role) : (s.setRole x r).role x.other = s.role x.other := by cases x <;> rfl

theorem begun_same (s : State) (h : CmdHdr) : Same (s.begun h) s := same_trans (accept_same ..) (advance_same ..)

theorem begun_arb (s : State) (h : CmdHdr) : (s.begun h).arb = s.arb := (accept_arb ..).trans (advance_arb ..)

theorem roleIn_advance {n : Nat} {rs : List Role} {s : State} (h : s.role (sideOf n) ∈ rs) (t : Nat) : roleIn (advance t s) n rs = true := by
  rw [roleIn, role_of_same (advance_same t s)]
  exact List.contains_iff_mem.mpr h

/-! ### Service on a landing (10 R409, 12 R474) -/

theorem outOfService_role (y : Side) (s : State) :
    (outOfService y s).role y = .outOfService ∧ (outOfService y s).role y.other = s.role y.other := by
  have hleft : ∀ x, ((leaveService y s).modLd y fun l => { l with slw := { l.slw with joins := false } }).role x = s.role x := fun x =>
    role_of_same (same_trans (modLd_same ..) (leaveService_same y s)) x
  constructor
  · exact (role_of_same (raise_same ..) y).trans (setRole_role _ y _)
  · exact (role_of_same (raise_same ..) y.other).trans ((setRole_other _ y _).trans (hleft y.other))

theorem loads_ld (s : State) (k : Deckhand) (x : Side) : ({ s with dkh := k } : State).ld x = s.ld x := by cases x <;> rfl

theorem beginLoad_leaves (y : Side) (q : Load) (s : State) :
    (beginLoad y q s).loadOf y = some q ∧ ((beginLoad y q s).ld y).fmn = { (s.ld y).fmn with verifying := true }
      ∧ (beginLoad y q s).ld y.other = s.ld y.other := by
  refine ⟨?_, ?_, ?_⟩
  · rw [State.loadOf, beginLoad, modLd_dkh]
    exact Tab.get_set_self none s.dkh.loads y.num (some q)
  · rw [beginLoad, modLd_ld, loads_ld]
  · rw [beginLoad, modLd_other, loads_ld]

theorem startResync_leaves (y : Side) (cmd : Option Pend) (s : State) :
    (startResync y cmd s).arb.resync = some { side := y, start := (s.ld y.other).fmn.crossing, cmd := cmd }
      ∧ ((startResync y cmd s).ld y.other).memi.marking = true ∧ ((startResync y cmd s).ld y).fmn.running = false := by
  cases y <;> exact ⟨rfl, rfl, rfl⟩

section
variable {h : CmdHdr} {side : Nat} {s : State}

theorem exec_cblOutOfService (hm : h.may 2 [1, 2, 3, 4, 5] s) (hside : side ≤ 1)
    (hrole : s.role (sideOf side) = .standby ∨ s.role (sideOf side) = .unsync) :
    exec (.cblOutOfService h side) s = .next ((outOfService (sideOf side) (s.begun h)).answered h 0x0D01 .done []) := by
  refine congrArg Host.Outcome.next (hostCommand_may hm ?_ _ _)
  rw [roleIn_advance (by simpa using hrole), decide_eq_true hside]

theorem exec_cblMemtest (hm : h.may 2 [1, 2, 3, 4, 5] s) (hside : side ≤ 1) (hrole : s.role (sideOf side) = .outOfService)
    (hfree : (s.ld (sideOf side)).memi.memtest = none) :
    exec (.cblMemtest h side) s = .next (((s.begun h).modLd (sideOf side) fun l =>
      { l with memi := { l.memi with memtest := some (cmdOf h 0x0D02) } }).answered h 0x0D02 .accepted []) := by
  refine congrArg Host.Outcome.next (hostCommand_may hm ?_ _ _)
  rw [roleIn_advance (by simpa using hrole), decide_eq_true hside, advance_ld, hfree]
  rfl

theorem exec_cblReload {bank : Nat} (hm : h.may 2 [1, 2, 3, 4, 5] s) (hside : side ≤ 1) (hbank : bank ≤ 1)
    (hrole : s.role (sideOf side) = .outOfService ∨ s.role (sideOf side) = .unsync) (hload : s.loadOf (sideOf side) = none)
    (hfree : (s.ld (sideOf side)).memi.memtest = none) :
    exec (.cblReload h side bank) s = .next ((beginLoad (sideOf side) { kind := 2, bank := bank, cmd := some (cmdOf h 0x0D03) }
      (s.begun h)).answered h 0x0D03 .accepted []) := by
  have hnoLoad : (advance h.at_ s).loadOf (sideOf side) = none := by rwa [State.loadOf, advance_dkh]
  refine congrArg Host.Outcome.next (hostCommand_may hm ?_ _ _)
  rw [roleIn_advance (by simpa using hrole), decide_eq_true hside, decide_eq_true hbank, advance_ld, hfree, hnoLoad]
  rfl

theorem exec_cblResync (hm : h.may 2 [1, 2, 3, 4, 5] s) (hside : side ≤ 1)
    (hrole : s.role (sideOf side) = .outOfService ∨ s.role (sideOf side) = .unsync)
    (hcan : canResync (advance h.at_ s) (sideOf side) = true) :
    exec (.cblResync h side) s
      = .next ((startResync (sideOf side) (some (cmdOf h 0x0D04)) (s.begun h)).answered h 0x0D04 .accepted []) := by
  refine congrArg Host.Outcome.next (hostCommand_may hm ?_ _ _)
  rw [roleIn_advance (by simpa using hrole), decide_eq_true hside, hcan]
  rfl

/-! ### The return held off (10 R407) -/

theorem exec_cblHoldReturn {hold : Nat} (hm : h.may 1 [5] s) (hhold : hold ≤ 1) :
    ∃ u : State, exec (.cblHoldReturn h hold) s = .next (u.answered h 0x0D05 .done [])
      ∧ u.arb = { s.arb with returnHeld := decide (hold = 1) } := by
  have hset : ((s.begun h).modArb fun b => { b with returnHeld := decide (hold = 1) }).arb
      = { s.arb with returnHeld := decide (hold = 1) } := by
    rw [← begun_arb s h]
    rfl
  refine ⟨_, congrArg Host.Outcome.next (hostCommand_may hm ?_ _ _), ?_⟩
  · rw [decide_eq_true hhold]
  · split
    · exact (raise_arb ..).trans hset
    · exact hset

/-! ### The live manifest change (10 R410) -/

theorem startChange_leaves (c : Change) (s : State) :
    (startChange c s).arb.change = some { c with stage := 1 } ∧ (startChange c s).loadOf c.side = some { kind := 3, bank := c.bank }
      ∧ ((startChange c s).ld c.side).fmn.verifying = true ∧ (startChange c s).pur = s.pur := by
  unfold startChange
  refine ⟨?_, ?_, ?_, ?_⟩
  · rw [modLd_arb]
    rfl
  · rw [State.loadOf, modLd_dkh]
    exact Tab.get_set_self none s.dkh.loads c.side.num (some { kind := 3, bank := c.bank })
  · rw [modLd_ld]
  · rw [modLd_pur]
    rfl

theorem standbySide_standby {x : Side} (h : s.standbySide = some x) : s.role x = .standby := by
  unfold State.standbySide at h
  split at h
  · cases h
    assumption
  · split at h
    · cases h
      assumption
    · cases h

theorem standbySide_exists (h : s.roleA = .standby ∨ s.roleB = .standby) : ∃ x, s.standbySide = some x := by
  unfold State.standbySide
  split
  · exact ⟨_, rfl⟩
  · exact ⟨_, if_pos (h.resolve_left ‹_›)⟩

theorem standbySide_of_same {t s : State} (h : Same t s) : t.standbySide = s.standbySide := by
  obtain ⟨_, hA, hB, _⟩ := h
  unfold State.standbySide
  rw [hA, hB]

/-- The change that CBL_MANIFEST_CHANGE asks for. -/
def changeAsked (h : CmdHdr) (bank warm : Nat) (x : Side) (s : State) : Change :=
  { cmd := cmdOf h 0x0D06, bank := bank, warm := warm, side := x, deadline := (advance h.at_ s).nowNs + 60 * secNs }

/-- The change starts at once, or waits in HOLD. -/
def beginChange (c : Change) (s : State) : State :=
  if s.mode = 3 then s.modArb fun b => { b with change := some c } else startChange c s

theorem beginChange_leaves {c : Change} (hstage : c.stage = 0) (s : State) :
    (beginChange c s).arb.change = some { c with stage := if s.mode = 3 then 0 else 1 } ∧ (beginChange c s).pur = s.pur
      ∧ Same (beginChange c s) s := by
  unfold beginChange
  split
  · exact ⟨by rw [← hstage]; rfl, rfl, rfl, rfl, rfl, rfl, rfl, rfl⟩
  · obtain ⟨hchange, _, _, hpur⟩ := startChange_leaves c s
    exact ⟨hchange, hpur, startChange_same ..⟩

theorem exec_cblManifestChange {bank warm : Nat} {x : Side} (hm : h.may 2 [1, 2, 3] s) (hbank : bank ≤ 1) (hwarm : 1 ≤ warm ∧ warm ≤ 4000)
    (hchange : s.arb.change = none ∨ ∃ c, s.arb.change = some c ∧ c.stage = 3) (hfree : freeTo 4 h.part s = true)
    (hstandby : s.standbySide = some x) :
    exec (.cblManifestChange h bank warm) s
      = .next ((beginChange (changeAsked h bank warm x s) (takeHold 4 h.part (s.begun h))).answered h 0x0D06 .accepted []) := by
  have hidle : (advance h.at_ s).arb.change.elim true (fun c => decide (c.stage = 3)) = true := by
    rw [advance_arb]
    rcases hchange with hnone | ⟨c, hsome, hstage⟩
    · rw [hnone]; rfl
    · rw [hsome]; exact decide_eq_true hstage
  have hheld : freeTo 4 h.part (advance h.at_ s) = true := by rwa [freeTo, advance_hold]
  have hpeer : (advance h.at_ s).standbySide = some x := (standbySide_of_same (advance_same ..)).trans hstandby
  have hbegun : (s.begun h).standbySide = some x := (standbySide_of_same (begun_same ..)).trans hstandby
  refine congrArg Host.Outcome.next ((hostCommand_may hm ?_ _ _).trans ?_)
  · simp only [hidle, hheld, hpeer, hbank, hwarm, decide_true, Bool.true_or, Bool.true_and, Option.isSome_some]
  · simp only [hbegun, Option.getD_some]
    rfl

theorem exec_cblConfirmChange {c : Change} (hm : h.may 1 [3] s) (hchange : s.arb.change = some c) (hstage : c.stage = 0) :
    exec (.cblConfirmChange h) s = .next ((startChange c (s.begun h)).answered h 0x0D07 .done []) := by
  have hbegun : (s.begun h).arb.change = some c := by rwa [begun_arb]
  refine congrArg Host.Outcome.next ((hostCommand_may hm ?_ _ _).trans ?_)
  · simp only [advance_arb, hchange, Option.elim_some, hstage, decide_true]
  · simp only [hbegun]
    rfl

/-! ### The end of Adrift (10 R405) -/

theorem releaseAdrift_leaves (s : State) : (releaseAdrift s).arb.adrift = false ∧ (releaseAdrift s).arb.cause = s.arb.cause :=
  ⟨rfl, (keepsArb_settlePins s).cause⟩

theorem exec_cblAdriftRelease (hm : h.may 1 [2, 3, 4, 5] s) (hbar : adriftBar (advance h.at_ s) = false) :
    exec (.cblAdriftRelease h) s = .next ((releaseAdrift (s.begun h)).answered h 0x0D08 .done []) := by
  refine congrArg Host.Outcome.next (hostCommand_may hm ?_ _ _)
  rw [hbar]
  rfl

end

/-! ### The statement -/

/-- Settles O44: each command by the state it leaves at once, the checks passed, and what that state keeps. -/
theorem arbiterCommands : Obligations.ArbiterCommands := by
  unfold Obligations.ArbiterCommands
  intro h side bank warm hold s y cmd
  refine ⟨fun hm hside => ⟨fun hrole => ?_, exec_cblMemtest hm hside, fun hrole hbank hload hfree => ?_, fun hrole hcan => ?_⟩,
    exec_cblHoldReturn, fun hm hbank hlow hhigh hchange hfree hstandby => ?_, fun c hm hchange hstage => ?_, fun hm hbar => ?_⟩
  · obtain ⟨hout, hother⟩ := outOfService_role y (s.begun h)
    refine ⟨_, exec_cblOutOfService hm hside hrole, hout, ?_, ?_⟩
    · rw [hother, role_of_same (begun_same s h)]
    · rw [(outOfService_same ..).2.1, mode_of_same (begun_same s h)]
  · obtain ⟨hloads, hfmn, hother⟩ := beginLoad_leaves y { kind := 2, bank := bank, cmd := some (cmd 0x0D03) } (s.begun h)
    rw [begun_ld] at hfmn hother
    exact ⟨_, exec_cblReload hm hside hbank hrole hload hfree, hloads, hfmn, hother⟩
  · have hstarted := startResync_leaves y (some (cmd 0x0D04)) (s.begun h)
    rw [begun_ld] at hstarted
    exact ⟨_, exec_cblResync hm hside hrole hcan, hstarted⟩
  · obtain ⟨x, hx⟩ := standbySide_exists hstandby
    obtain ⟨hasked, hpur, _, hA, hB, _⟩ := beginChange_leaves (c := changeAsked h bank warm x s) rfl (takeHold 4 h.part (s.begun h))
    obtain ⟨_, hbegunA, hbegunB, _, hbegunMode, _⟩ := begun_same s h
    refine ⟨_, exec_cblManifestChange hm hbank ⟨hlow, hhigh⟩ hchange hfree hx, ⟨_, hasked, rfl, rfl, ?_, standbySide_standby hx, rfl, rfl⟩,
      ?_, hA.trans hbegunA, hB.trans hbegunB⟩
    · rw [← hbegunMode]
      rfl
    · rw [State.hold, hpur]
      exact Tab.get_set_self none (s.begun h).pur.holds 4 (some { part := h.part, last := (s.begun h).nowNs })
  · obtain ⟨hstarted, hloads, hverifying, _⟩ := startChange_leaves c (s.begun h)
    exact ⟨_, exec_cblConfirmChange hm hchange hstage, hstarted, hloads, hverifying⟩
  · obtain ⟨hadrift, hcause⟩ := releaseAdrift_leaves (s.begun h)
    rw [begun_arb] at hcause
    obtain ⟨_, hA, hB, _, hmode, _⟩ := same_trans (releaseAdrift_same _) (begun_same s h)
    exact ⟨_, exec_cblAdriftRelease hm hbar, hadrift, hcause, hA, hB, hmode⟩

end Sys2Proof.Machine
end

section
/-!
Work given up when no landing is left, and the entry into Adrift (10 R397, R402, R408, R410): no role changes and no gap opens by it.
-/
namespace Sys2Proof.Machine
set_option Elab.async false -- one proof at a time, as in the tests: the compile is close to its memory limit

/-- `t` comes from `s` with no time passed, the verdicts given, the gap, the roles and the mode as they were. -/
structure RolesHeld (t s : State) : Prop where
  now : t.now = s.now
  tick : t.tick = s.tick
  gap : t.arb.gap = s.arb.gap
  judged : t.arb.judged = s.arb.judged
  roleA : t.roleA = s.roleA
  roleB : t.roleB = s.roleB
  mode : t.mode = s.mode

theorem rolesHeld_refl (s : State) : RolesHeld s s := ⟨rfl, rfl, rfl, rfl, rfl, rfl, rfl⟩

theorem rolesHeld_trans {t u s : State} (h : RolesHeld t u) (k : RolesHeld u s) : RolesHeld t s :=
  ⟨h.now.trans k.now, h.tick.trans k.tick, h.gap.trans k.gap, h.judged.trans k.judged, h.roleA.trans k.roleA, h.roleB.trans k.roleB,
    h.mode.trans k.mode⟩

theorem rolesHeld_ite {c : Prop} [Decidable c] {t u s : State} (h : RolesHeld t s) (k : RolesHeld u s) : RolesHeld (if c then t else u) s := by
  split <;> assumption

theorem rolesHeld_of {t s : State} (h : KeepsArb t s) (k : Same t s) : RolesHeld t s := by
  obtain ⟨_, hA, hB, _, hmode, _⟩ := k
  exact ⟨h.now, h.tick, h.gap, h.judged, hA, hB, hmode⟩

theorem rolesHeld_modArb (s : State) (f : Arbiter → Arbiter) (hgap : (f s.arb).gap = s.arb.gap := by rfl)
    (hjudged : (f s.arb).judged = s.arb.judged := by rfl) : RolesHeld (s.modArb f) s := ⟨rfl, rfl, hgap, hjudged, rfl, rfl, rfl⟩

theorem rolesHeld_eachSide {f : Side → State → State} (hf : ∀ x s, RolesHeld (f x s) s) (c : Side → Bool) (s : State) :
    RolesHeld (eachSide c f s) s :=
  eachSide_ind (RolesHeld · s) c f (fun x u h => rolesHeld_trans (hf x u) h) s (rolesHeld_refl s)

theorem rolesHeld_raise (src : Source) (code detail : Nat) (s : State) : RolesHeld (raise src code detail s) s :=
  rolesHeld_of (keepsArb_raise ..) (raise_same ..)

theorem rolesHeld_complete (c : Pend) (st : Status) (d : List Byte) (p : Bool) (s : State) : RolesHeld (complete c st d p s) s :=
  rolesHeld_of (keepsArb_complete ..) (complete_same ..)

theorem rolesHeld_modLd (x : Side) (f : Landing → Landing) (s : State) : RolesHeld (s.modLd x f) s :=
  rolesHeld_of (keepsArb_modLd ..) (modLd_same ..)

/-! ### Work given up (10 R408, R410) -/

theorem endChange_leaves (st : Status) (s : State) : RolesHeld (endChange st s) s ∧ (endChange st s).arb.change = none := by
  unfold endChange
  split
  · rename_i hnone
    exact ⟨rolesHeld_refl s, hnone⟩
  · rename_i c _
    refine ⟨rolesHeld_trans (rolesHeld_complete ..) ?_, ?_⟩
    · have hmod := rolesHeld_trans (rolesHeld_modLd c.side (fun l => { l with fmn := { l.fmn with next := none, verifying := false } })
        (s.modArb fun b => { b with change := none })) (rolesHeld_modArb ..)
      exact ⟨hmod.now, hmod.tick, hmod.gap, hmod.judged, hmod.roleA, hmod.roleB, hmod.mode⟩
    · refine (congrArg Arbiter.change (complete_arb ..)).trans ?_
      exact congrArg Arbiter.change (modLd_arb ..)

theorem abandonChange_some {c : Change} {s : State} (h : s.arb.change = some c) (hstage : c.stage ≠ 3) :
    abandonChange s = endChange .abandoned (raise .cable 0x0D22 c.stage s) := by
  unfold abandonChange
  rw [h]
  exact if_neg hstage

theorem abandonChange_rolesHeld (s : State) : RolesHeld (abandonChange s) s := by
  unfold abandonChange
  split
  · exact rolesHeld_refl s
  · exact rolesHeld_ite (rolesHeld_refl s) (rolesHeld_trans (endChange_leaves ..).1 (rolesHeld_raise ..))

theorem endMarking_keepsArb (s : State) : KeepsArb (endMarking s) s := keepsArb_eachSide (fun _ _ => keepsArb_modLd ..) ..

theorem endMarking_fmn (s : State) (x : Side) : ((endMarking s).ld x).fmn = (s.ld x).fmn := by cases x <;> rfl

/-- A fault raised or not, and a command answered or not, at the end of a resynchronisation. -/
def reportResync (failed : Bool) (r : Resync) (s : State) : State :=
  let s := if failed then raise .cable 0x0D11 r.side.num s else s
  match r.cmd with
  | some c => complete c .abandoned [] false s
  | none => s

theorem reportResync_keepsArb (failed : Bool) (r : Resync) (s : State) : KeepsArb (reportResync failed r s) s := by
  unfold reportResync
  extract_lets u
  have hreported : KeepsArb u s := keepsArb_ite (keepsArb_raise ..) (keepsArb_refl s)
  split
  · exact keepsArb_trans (keepsArb_complete ..) hreported
  · exact hreported

theorem endResync_some {r : Resync} {s : State} (h : s.arb.resync = some r) (failed : Bool) : endResync failed s
    = reportResync failed r (endMarking (s.modArb fun b => { b with resync := none, resyncFailed := failed, resyncCount := s.resyncCrossings })) := by
  unfold endResync
  rw [h]
  rfl

theorem endResync_keepsArb {r : Resync} {s : State} (h : s.arb.resync = some r) (failed : Bool) : KeepsArb (endResync failed s)
    (s.modArb fun b => { b with resync := none, resyncFailed := failed, resyncCount := s.resyncCrossings }) := by
  rw [endResync_some h]
  exact keepsArb_trans (reportResync_keepsArb ..) (endMarking_keepsArb _)

theorem abandonResync_rolesHeld (s : State) : RolesHeld (abandonResync s) s := by
  cases hresync : s.arb.resync with
  | none =>
    have hidle : abandonResync s = s := by rw [abandonResync, endResync, hresync]
    rw [hidle]
    exact rolesHeld_refl s
  | some r =>
    have hkept := endResync_keepsArb hresync false
    obtain ⟨_, hA, hB, _, hmode, _⟩ := abandonResync_same s
    exact ⟨hkept.now, hkept.tick, hkept.gap, hkept.judged, hA, hB, hmode⟩

/-! ### Adrift (10 R402) -/

theorem adriftNow_leaves (code : Nat) (s : State) :
    RolesHeld (adriftNow code s) s ∧ (adriftNow code s).arb.adrift = (s.arb.adrift || decide (2 ≤ s.mode))
      ∧ (adriftNow code s).arb.due = s.arb.due := by
  have hset := keepsArb_settlePins s
  have hmode : (settlePins s).mode = s.mode := mode_of_same (settlePins_same s)
  have hentered : RolesHeld (enterAdrift code (settlePins s)) (settlePins s) := by
    unfold enterAdrift
    exact rolesHeld_ite (rolesHeld_refl _) (rolesHeld_trans (rolesHeld_raise ..) (rolesHeld_modArb ..))
  refine ⟨rolesHeld_trans hentered (rolesHeld_of hset (settlePins_same s)), ?_, due_of_same (adriftNow_same code s)⟩
  exact (enterAdrift_adrift code (settlePins s)).trans (by rw [hset.adrift, hmode])

theorem noLanding_leaves (s : State) : RolesHeld (noLanding s) s ∧ (2 ≤ s.mode → (noLanding s).arb.adrift = true) := by
  unfold noLanding
  extract_lets u
  have hu : RolesHeld u s := rolesHeld_trans (rolesHeld_eachSide (fun _ _ => rolesHeld_modArb ..) ..)
    (rolesHeld_trans (abandonResync_rolesHeld _) (abandonChange_rolesHeld s))
  have hraised : RolesHeld (raise .cable 0x0D09 0 (u.modArb fun b => { b with held := [] })) s :=
    rolesHeld_trans (rolesHeld_raise ..) (rolesHeld_trans (rolesHeld_modArb ..) hu)
  obtain ⟨hheld, hadrift, _⟩ := adriftNow_leaves 0x0D09 (raise .cable 0x0D09 0 (u.modArb fun b => { b with held := [] }))
  refine ⟨rolesHeld_trans hheld hraised, fun hmode => ?_⟩
  rw [hadrift, hraised.mode, decide_eq_true hmode, Bool.or_true]

end Sys2Proof.Machine
end

section
/-!
The arbiter's moves that change the active landing or its partner (10 R400, R405 to R407, R410, R411): each move's result and what it leaves.
-/
namespace Sys2Proof.Machine
set_option Elab.async false -- one proof at a time, as in the tests: the compile is close to its memory limit

theorem applyDue_none {s : State} (h : s.arb.due = []) : applyDue s = s := by
  unfold applyDue
  rw [h]
  rfl

/-! ### The gap's end (10 R400) -/

/-- Time passed to the leg boundary at which a gap ends. -/
def gapEnd (leg : Nat) (s : State) : State := if s.legCount < leg then advance (s.legStart + s.tick.period / 8) s else s

/-- The landing that failed out of step and the other one active, the gap closed. -/
def handedOver (x : Side) (s : State) : State :=
  ((s.setRole x .unsync).setRole x.other .active).modArb fun b => { b with gap := none, failovers := (b.failovers + 1) % 65536 }

theorem takeover_eq {x : Side} {leg : Nat} {s : State} (hgap : s.arb.gap = some (x, leg)) : takeover s
    = if (settlePins (gapEnd leg s)).role x.other ≠ .standby then noLanding ((settlePins (gapEnd leg s)).modArb fun b => { b with gap := none })
      else newActive (takeGapSteps x.other (handedOver x (settlePins (gapEnd leg s)))) := by
  unfold takeover
  rw [hgap]
  rfl

theorem gapEnd_settled (leg : Nat) (s : State) : Same (settlePins (gapEnd leg s)) s ∧ (settlePins (gapEnd leg s)).now = (gapEnd leg s).now
    ∧ (settlePins (gapEnd leg s)).arb.registers = s.arb.registers := by
  have hsame : Same (gapEnd leg s) s := ite_same (advance_same ..) ⟨rfl, rfl, rfl, rfl, rfl, rfl⟩
  have harb : (gapEnd leg s).arb = s.arb := by
    unfold gapEnd
    split
    · exact advance_arb ..
    · rfl
  obtain ⟨hnow, _, hregs⟩ := keepsArb_settlePins (gapEnd leg s)
  exact ⟨same_trans (settlePins_same _) hsame, hnow, by rw [hregs, harb]⟩

theorem takeover_standby {x : Side} {leg : Nat} {s : State} (hgap : s.arb.gap = some (x, leg)) (hrole : s.role x.other = .standby) :
    (takeover s).arb.gap = none ∧ (takeover s).now = (gapEnd leg s).now ∧ (takeover s).role x = .unsync
      ∧ (takeover s).role x.other = .active ∧ (takeover s).arb.failovers = (s.arb.failovers + 1) % 65536 := by
  obtain ⟨hsame, hnow, hregs⟩ := gapEnd_settled leg s
  rw [takeover_eq hgap, if_neg (not_not.mpr ((role_of_same hsame _).trans hrole))]
  generalize settlePins (gapEnd leg s) = u at hsame hnow hregs ⊢
  have hsteps := keepsArb_takeGapSteps x.other (handedOver x u)
  have hactive := keepsArb_newActive (takeGapSteps x.other (handedOver x u))
  have hroles := same_trans (newActive_same (takeGapSteps x.other (handedOver x u))) (takeGapSteps_same ..)
  have hother : (handedOver x u).now = u.now ∧ (handedOver x u).role x = .unsync ∧ (handedOver x u).role x.other = .active
      ∧ (handedOver x u).arb.failovers = (u.arb.failovers + 1) % 65536 := by cases x <;> exact ⟨rfl, rfl, rfl, rfl⟩
  obtain ⟨hover, hout, hin, hcount⟩ := hother
  refine ⟨hactive.gap.trans hsteps.gap, (hactive.now.trans hsteps.now).trans (hover.trans hnow), (role_of_same hroles x).trans hout,
    (role_of_same hroles x.other).trans hin, (hactive.failovers.trans hsteps.failovers).trans ?_⟩
  rw [hcount, show u.arb.failovers = s.arb.failovers from (congrArg Arbiter.failovers hregs :)]

theorem takeover_alone {x : Side} {leg : Nat} {s : State} (hgap : s.arb.gap = some (x, leg)) (hrole : s.role x.other ≠ .standby) :
    (takeover s).arb.gap = none ∧ (takeover s).now = (gapEnd leg s).now ∧ (takeover s).roleA = s.roleA ∧ (takeover s).roleB = s.roleB
      ∧ (2 ≤ s.mode → (takeover s).arb.adrift = true) := by
  obtain ⟨hsame, hnow, _⟩ := gapEnd_settled leg s
  rw [takeover_eq hgap, if_pos (fun h => hrole ((role_of_same hsame _).symm.trans h))]
  generalize settlePins (gapEnd leg s) = u at hsame hnow ⊢
  obtain ⟨_, hA, hB, _, hmode, _⟩ := hsame
  obtain ⟨hheld, hadrift⟩ := noLanding_leaves (u.modArb fun b => { b with gap := none })
  exact ⟨hheld.gap, hheld.now.trans hnow, hheld.roleA.trans hA, hheld.roleB.trans hB, fun h => hadrift (hmode ▸ h)⟩

theorem failoverTakeover_unchanged {s : State} (h : s.arb.change = none) : failoverTakeover s = takeover s := by
  unfold failoverTakeover
  rw [h]
  cases s.arb.gap <;> rfl

/-! ### Fail-back (10 R406, R407) -/

theorem failback_idle {s : State} (hdue : s.arb.due = []) (h : failbackDue s = false ∨ returnIsHeld s = true) : failback s = s := by
  unfold failback
  rw [applyDue_none hdue]
  refine if_pos ?_
  rcases h with hnot | hheld
  · rw [hnot]; rfl
  · rw [hheld, Bool.or_true]

/-- The preferred landing active again and the other one standing by. -/
def swappedBack (s : State) : State :=
  (((settlePins s).setRole s.arb.preferred .active).setRole s.arb.preferred.other .standby).modArb fun b =>
    { b with failbacks := (b.failbacks + 1) % 65536 }

theorem failback_due {s : State} (hdue : s.arb.due = []) (h : failbackDue s = true) (hreturn : returnIsHeld s = false) :
    failback s = raise .cable 0x0D12 s.arb.preferred.num (newActive (swappedBack s)) := by
  unfold failback
  rw [applyDue_none hdue]
  exact if_neg (by rw [h, hreturn]; decide)

theorem swappedBack_leaves (s : State) : (swappedBack s).role s.arb.preferred = .active
    ∧ (swappedBack s).role s.arb.preferred.other = .standby ∧ (swappedBack s).now = s.now ∧ (swappedBack s).mode = s.mode := by
  have hnow := (keepsArb_settlePins s).now
  have hmode := mode_of_same (settlePins_same s)
  unfold swappedBack
  generalize settlePins s = u at hnow hmode ⊢
  cases s.arb.preferred <;> exact ⟨rfl, rfl, hnow, hmode⟩

theorem failback_swaps {s : State} (hdue : s.arb.due = []) (h : failbackDue s = true) (hreturn : returnIsHeld s = false) :
    (failback s).role s.arb.preferred = .active ∧ (failback s).role s.arb.preferred.other = .standby ∧ (failback s).mode = s.mode
      ∧ (failback s).now = s.now := by
  obtain ⟨hin, hout, hnow, hmode⟩ := swappedBack_leaves s
  have hsame := same_trans (raise_same .cable 0x0D12 s.arb.preferred.num (newActive (swappedBack s))) (newActive_same (swappedBack s))
  rw [failback_due hdue h hreturn]
  refine ⟨(role_of_same hsame _).trans hin, (role_of_same hsame _).trans hout, (mode_of_same hsame).trans hmode, ?_⟩
  exact (raise_now ..).trans ((keepsArb_newActive _).now.trans hnow)

/-! ### The handover of a live manifest change (10 R410, 02 R60) -/

theorem closeHandover_leaves (old : Side) (c : Change) (s : State) :
    (closeHandover old c s).arb.change = some { c with stage := 3, side := old } ∧ (closeHandover old c s).arb.gap = s.arb.gap
      ∧ (closeHandover old c s).now = s.now := by
  unfold closeHandover
  refine ⟨?_, ?_, ?_⟩
  · rw [complete_arb, raise_arb, setHold_arb, modLd_arb]
    rfl
  · rw [complete_arb, raise_arb, setHold_arb, modLd_arb]
    rfl
  · rw [complete_now, raise_now, setHold_now, modLd_now]
    rfl

/-- The changed landing active, its partner out of step, no item held. -/
def changedOver (y : Side) (s : State) : State :=
  let s := (settlePins s).setRole y .active
  let s := if s.role y.other = .active then s.setRole y.other .unsync else s
  s.modArb fun b => { b with gap := none, held := [] }

theorem changedOver_leaves (y : Side) (s : State) : (changedOver y s).role y = .active ∧ (changedOver y s).role y.other ≠ .active
    ∧ (changedOver y s).now = s.now ∧ (changedOver y s).mode = s.mode := by
  have hnow := (keepsArb_settlePins s).now
  have hmode := mode_of_same (settlePins_same s)
  unfold changedOver
  generalize settlePins s = w at hnow hmode ⊢
  extract_lets u v
  have hu : u.role y = .active := setRole_role ..
  by_cases hboth : u.role y.other = .active
  · have hv : v = u.setRole y.other .unsync := if_pos hboth
    have hdiffer : Role.unsync ≠ .active := by decide
    rw [hv]
    cases y <;> exact ⟨hu, hdiffer, hnow, hmode⟩
  · have hv : v = u := if_neg hboth
    rw [hv]
    cases y <;> exact ⟨hu, hboth, hnow, hmode⟩

/-- The handover of a change takes place now. -/
def HandoverDue (c : Change) (s : State) : Prop :=
  c.stage = 2 ∧ c.warm ≤ c.count ∧ c.count ≠ 0 ∧ s.role c.side = .standby ∧ commonTick s = true

theorem manifestHandover_eq {c : Change} {s : State} (hdue : s.arb.due = []) (hchange : s.arb.change = some c) : manifestHandover s
    = if c.stage ≠ 2 || c.count < c.warm || c.count = 0 || s.role c.side ≠ .standby || !commonTick s then s
      else closeHandover c.side.other c (newActive (changedOver c.side s)) := by
  unfold manifestHandover
  rw [applyDue_none hdue]
  extract_lets u
  rw [show u.arb.change = some c from hchange]
  rfl

theorem manifestHandover_waits {c : Change} {s : State} (hdue : s.arb.due = []) (hchange : s.arb.change = some c)
    (h : c.stage ≠ 2 ∨ c.count < c.warm ∨ commonTick s = false) : manifestHandover s = s := by
  rw [manifestHandover_eq hdue hchange]
  refine if_pos ?_
  rcases h with h | h | h <;> simp [h]

theorem manifestHandover_done {c : Change} {s : State} (hdue : s.arb.due = []) (hchange : s.arb.change = some c) (h : HandoverDue c s) :
    (manifestHandover s).role c.side = .active ∧ (manifestHandover s).role c.side.other ≠ .active
      ∧ (manifestHandover s).arb.change = some { c with stage := 3, side := c.side.other } ∧ (manifestHandover s).arb.gap = none
      ∧ (manifestHandover s).mode = s.mode ∧ (manifestHandover s).now = s.now := by
  obtain ⟨hstage, hwarm, hcount, hrole, hcommon⟩ := h
  obtain ⟨hin, hout, hnow, hmode⟩ := changedOver_leaves c.side s
  obtain ⟨hclosed, hgap, hlate⟩ := closeHandover_leaves c.side.other c (newActive (changedOver c.side s))
  have hkept := keepsArb_newActive (changedOver c.side s)
  have hsame := same_trans (closeHandover_same c.side.other c (newActive (changedOver c.side s))) (newActive_same (changedOver c.side s))
  rw [manifestHandover_eq hdue hchange, if_neg (by simp [hstage, Nat.not_lt.mpr hwarm, hcount, hrole, hcommon])]
  exact ⟨(role_of_same hsame _).trans hin, fun h => hout ((role_of_same hsame _).symm.trans h), hclosed, hgap.trans hkept.gap,
    (mode_of_same hsame).trans hmode, hlate.trans (hkept.now.trans hnow)⟩

/-! ### A change not confirmed (10 R410) and a bank withdrawn (10 R411) -/

theorem confirmTimeout_waits {c : Change} {s : State} (hchange : s.arb.change = some c) (h : c.stage ≠ 0 ∨ s.nowNs < c.deadline) :
    confirmTimeout s = s := by
  unfold confirmTimeout
  rw [hchange]
  refine if_neg ?_
  rcases h with h | h <;> simp [h]

theorem confirmTimeout_ends {c : Change} {s : State} (hchange : s.arb.change = some c) (hstage : c.stage = 0) (hlate : c.deadline ≤ s.nowNs) :
    (confirmTimeout s).arb.change = none := by
  have hended : confirmTimeout s = abandonChange s := by
    unfold confirmTimeout
    rw [hchange]
    exact if_pos (by simp [hstage, hlate])
  rw [hended, abandonChange_some hchange (by omega)]
  exact (endChange_leaves ..).2

theorem noteSingle_banks (s : State) : (noteSingle s).bank1 = s.bank1 ∧ (noteSingle s).bank2 = s.bank2 := by
  unfold noteSingle
  split
  · exact ⟨(raise_bank1 ..).trans rfl, (raise_bank2 ..).trans rfl⟩
  · exact ⟨rfl, rfl⟩

theorem bankOff_banks (s : State) : (bankOff s).bank1 = s.bank1 ∧ (bankOff s).bank2 = s.bank2 := by
  simp only [bankOff, and_self]

theorem bankLost_banks (k : Nat) (s : State) : (noteSingle (bankOff (raise .cable 0x0D40 k s))).bank1 = s.bank1
    ∧ (noteSingle (bankOff (raise .cable 0x0D40 k s))).bank2 = s.bank2 := by
  obtain ⟨h1, h2⟩ := noteSingle_banks (bankOff (raise .cable 0x0D40 k s))
  obtain ⟨hoff1, hoff2⟩ := bankOff_banks (raise .cable 0x0D40 k s)
  exact ⟨(h1.trans hoff1).trans (raise_bank1 ..), (h2.trans hoff2).trans (raise_bank2 ..)⟩

theorem bank_stays {up : Bool} {k n : Nat} (h : ¬(decide (k = n) && up) = true) : up = (up && decide (k ≠ n)) := by
  cases up
  · rfl
  · simpa using h

theorem bankWithdraw_banks (bank : Nat) (s : State) : (bankWithdraw bank s).bank1 = (s.bank1 && decide (bank ≠ 1))
    ∧ (bankWithdraw bank s).bank2 = (s.bank2 && decide (bank ≠ 2)) := by
  unfold bankWithdraw
  split
  · rename_i hfirst
    obtain ⟨rfl, _⟩ : bank = 1 ∧ s.bank1 = true := by simpa using hfirst
    obtain ⟨h1, h2⟩ := bankLost_banks 1 { s with bank1 := false }
    simp [h1, h2]
  · rename_i hnot1
    split
    · rename_i hsecond
      obtain ⟨rfl, _⟩ : bank = 2 ∧ s.bank2 = true := by simpa using hsecond
      obtain ⟨h1, h2⟩ := bankLost_banks 2 { s with bank2 := false }
      simp [h1, h2]
    · rename_i hnot2
      split
      · exact ⟨(raise_bank1 ..).trans (bank_stays hnot1), (raise_bank2 ..).trans (bank_stays hnot2)⟩
      · exact ⟨bank_stays hnot1, bank_stays hnot2⟩

end Sys2Proof.Machine
end

section
/-!
The end of a resynchronisation (10 R408): the final copy, which leaves the active landing's engines as they are, and the joining landing's
place in the manifest.
-/
namespace Sys2Proof.Machine
set_option Elab.async false -- one proof at a time, as in the tests: the compile is close to its memory limit

/-! ### Blocks sent (10 R408, 12 R451, R473) -/

/-- The registers of a landing's tiles and engines. -/
def Landing.engines (l : Landing) : Tab Tile × Ctl × Axe × Slv × Fus := (l.tiles, l.ctl, l.axe, l.slv, l.fus)

/-- `t` comes from `s` with the arbiter's registers and landing `x`'s engines as they were. -/
def Sending (x : Side) (t s : State) : Prop := KeepsArb t s ∧ (t.ld x).engines = (s.ld x).engines

theorem sending_refl (x : Side) (s : State) : Sending x s s := ⟨keepsArb_refl s, rfl⟩

theorem sending_trans {x : Side} {t u s : State} (h : Sending x t u) (k : Sending x u s) : Sending x t s :=
  ⟨keepsArb_trans h.1 k.1, h.2.trans k.2⟩

theorem keepsArb_bucketAdd (x : Side) (s : State) : KeepsArb (bucketAdd x s) s := by
  unfold bucketAdd
  exact keepsArb_ite (keepsArb_trans (keepsArb_raise ..) (keepsArb_modLd ..)) (keepsArb_modLd ..)

theorem keepsArb_readEffects (x : Side) (a : Nat) (s : State) : KeepsArb (readEffects x a s) s := by
  have hcorrected : ∀ k y, KeepsArb (noteCorrected x k a y s) s := fun k y =>
    keepsArb_trans (keepsArb_bucketAdd ..) (keepsArb_trans (keepsArb_raisePerSecond ..) (keepsArb_modLd ..))
  have hlost : ∀ k y, KeepsArb (noteUncorrectable x k a y s) s := fun k y =>
    keepsArb_ite (keepsArb_trans (keepsArb_raise ..) (keepsArb_modLd ..)) (keepsArb_trans (keepsArb_raisePerSecond ..) (keepsArb_modLd ..))
  unfold readEffects
  extract_lets l pa y
  split
  · exact keepsArb_refl s
  · exact keepsArb_refl s
  · exact keepsArb_ite (keepsArb_trans (keepsArb_modLd ..) (hcorrected ..)) (hcorrected ..)
  · exact hlost ..

theorem readEffects_sending (x : Side) (a : Nat) (s : State) : Sending x (readEffects x a s) s :=
  ⟨keepsArb_readEffects x a s, by rw [(memoryOnly_readEffects x a s).landing]; rfl⟩

theorem sendWords_sending {x y : Side} (h : x ≠ y) (a n : Nat) (s : State) : Sending x (sendWords x y a n s) s := by
  induction n generalizing a s with
  | zero => exact sending_refl x s
  | succ n ih =>
    have hwritten : ∀ w u, Sending x (memWrite y a w u) u := fun w u =>
      ⟨keepsArb_modLd .., congrArg Landing.engines (modLd_ne _ _ _ _ h)⟩
    exact sending_trans (ih ..) (sending_trans (hwritten ..) (readEffects_sending x a s))

theorem sendBlock_sending (x : Side) (a : Nat) (s : State) : Sending x (sendBlock x a s) s := by
  unfold sendBlock
  split
  · exact sending_refl x s
  · rename_i r _
    split
    · exact sending_refl x s
    · rename_i hblock
      have hne : x ≠ r.side := by
        rintro rfl
        simp at hblock
      refine sending_trans (sendWords_sending hne ..) ⟨keepsArb_modLd .., ?_⟩
      rw [modLd_ld]
      rfl

theorem sendBlocks_sending (x : Side) (bs : List Nat) (s : State) : Sending x (bs.foldl (fun s b => sendBlock x (256 * b) s) s) s :=
  foldl_ind (Sending x · s) _ (fun u _ h => sending_trans (sendBlock_sending x _ u) h) bs s (sending_refl x s)

/-! ### The final copy (10 R408 step 2) -/

/-- The bytes of the final copy. -/
def finalBytes (n : Nat) (l : Landing) : Nat := 256 * (dueBlocks l).length + n

/-- The final copy measured, in KiB. -/
def noteFinal (bytes : Nat) (s : State) : State := s.modArb fun b => { b with finalKb := (roundDiv (bytes : Int) 1024).toNat }

theorem noteFinal_arb (bytes : Nat) (s : State) :
    (noteFinal bytes s).arb = { s.arb with finalKb := (roundDiv (bytes : Int) 1024).toNat } := rfl

/-- The final copy made, with the blocks still due. -/
def copyFinal (r : Resync) (bs : List Nat) (s : State) : State :=
  let x := r.side.other
  let u := bs.foldl (fun s b => sendBlock x (256 * b) s) s
  (u.modLd r.side (copyEngines (u.ld x))).modArb fun b => { b with resync := some { r with copied := true } }

theorem modArb_ld (s : State) (f : Arbiter → Arbiter) (x : Side) : (s.modArb f).ld x = s.ld x := by cases x <;> rfl

section
variable {r : Resync} {s : State} (hresync : s.arb.resync = some r)
include hresync

theorem resyncFinal_eq (n : Nat) (hcopied : r.copied = false) (htime : (s.ld r.side.other).fmn.crossing = r.start + 63) :
    resyncFinal n s = if finalLimit (imgPeriod (s.ld r.side.other).fmn.img) < finalBytes n (s.ld r.side.other)
      then failResync (noteFinal (finalBytes n (s.ld r.side.other)) s)
      else copyFinal r (dueBlocks (s.ld r.side.other)) (noteFinal (finalBytes n (s.ld r.side.other)) s) := by
  unfold resyncFinal
  rw [hresync]
  exact if_neg (by simp [hcopied, htime])

theorem resyncFinal_waits (n : Nat) (htime : (s.ld r.side.other).fmn.crossing ≠ r.start + 63) : resyncFinal n s = s := by
  unfold resyncFinal
  rw [hresync]
  exact if_pos (by simp [htime])

theorem resyncDone_waits (htime : (s.ld r.side.other).fmn.crossing ≠ r.start + 63) : resyncDone s = s := by
  unfold resyncDone
  rw [hresync]
  exact if_pos (by simp [htime])

theorem failResync_leaves : (failResync s).arb.finalKb = s.arb.finalKb ∧ (failResync s).arb.resync = none
    ∧ (failResync s).arb.resyncFailed = true := by
  have hkept := endResync_keepsArb hresync true
  exact ⟨hkept.finalKb, hkept.resync, (congrArg Arbiter.resyncFailed hkept.arb :)⟩

end

theorem copyFinal_leaves (r : Resync) (bs : List Nat) (s : State) : (copyFinal r bs s).arb.finalKb = s.arb.finalKb
    ∧ (copyFinal r bs s).arb.resync = some { r with copied := true }
    ∧ ((copyFinal r bs s).ld r.side).engines = (s.ld r.side.other).engines := by
  unfold copyFinal
  extract_lets x u
  obtain ⟨hkept, hengines⟩ : Sending x u s := sendBlocks_sending ..
  refine ⟨?_, rfl, ?_⟩
  · exact (congrArg Arbiter.finalKb (modLd_arb ..)).trans hkept.finalKb
  · rw [modArb_ld, modLd_ld]
    exact hengines

/-- RESYNC_FINAL_COPY in its guard time. -/
theorem resyncFinalCopy_moves {r : Resync} {s : State} (hresync : s.arb.resync = some r) (hcopied : r.copied = false)
    (htime : (s.ld r.side.other).fmn.crossing = r.start + 63) (at_ n : Nat) :
    ∃ t : State, exec (.resyncFinalCopy at_ n) s = .next t ∧ t.arb.finalKb = (roundDiv (finalBytes n (s.ld r.side.other) : Int) 1024).toNat
      ∧ (finalLimit (imgPeriod (s.ld r.side.other).fmn.img) < finalBytes n (s.ld r.side.other) →
          t.arb.resync = none ∧ t.arb.resyncFailed = true)
      ∧ (finalBytes n (s.ld r.side.other) ≤ finalLimit (imgPeriod (s.ld r.side.other).fmn.img) →
          t.arb.resync = some { r with copied := true } ∧ (t.ld r.side).engines = (s.ld r.side.other).engines) := by
  have hguard : (advance (s.cutNs s.lead at_) s).ld r.side.other = s.ld r.side.other := advance_ld ..
  have hfinal := resyncFinal_eq (s := advance (s.cutNs s.lead at_) s) (by rwa [advance_arb]) n hcopied (by rwa [hguard])
  rw [hguard] at hfinal
  refine ⟨_, congrArg Host.Outcome.next hfinal, ?_⟩
  generalize finalBytes n (s.ld r.side.other) = due
  generalize hnoted : noteFinal due (advance (s.cutNs s.lead at_) s) = u
  have hkb : u.arb.finalKb = (roundDiv (due : Int) 1024).toNat := by rw [← hnoted, noteFinal_arb]
  have hresyncU : u.arb.resync = some r := by
    rw [← hnoted, noteFinal_arb, advance_arb]
    exact hresync
  have hld : u.ld r.side.other = s.ld r.side.other := by rw [← hnoted, noteFinal, modArb_ld, hguard]
  by_cases hlong : finalLimit (imgPeriod (s.ld r.side.other).fmn.img) < due
  · obtain ⟨hfinalKb, hover, hfailed⟩ := failResync_leaves hresyncU
    rw [if_pos hlong]
    exact ⟨hfinalKb.trans hkb, fun _ => ⟨hover, hfailed⟩, fun h => absurd hlong (Nat.not_lt.mpr h)⟩
  · obtain ⟨hfinalKb, hcopy, hengines⟩ := copyFinal_leaves r (dueBlocks (s.ld r.side.other)) u
    rw [if_neg hlong]
    exact ⟨hfinalKb.trans hkb, fun h => absurd h hlong, fun _ => ⟨hcopy, hengines.trans (congrArg Landing.engines hld)⟩⟩

/-! ### The joining landing in step (10 R408 step 3) -/

/-- The joining landing at the active one's place and standing by. -/
def joined (r : Resync) (s : State) : State :=
  (endMarking (s.modLd r.side fun l => { l with
    fmn := joinFerryman l.fmn (s.ld r.side.other).fmn, items := [], accused := [], slw := { l.slw with joins := false } })).setRole r.side .standby

/-- The arbiter's registers with landing `x` in step from leg `g` on and no resynchronisation running. -/
def joinedRegisters (x : Side) (g : Nat) (b : Arbiter) : Arbiter :=
  { setSince x g b with
    resync := none, resyncCount := 64, agree := 0, agreedLegs := 0,
    change := if b.change.elim false (fun c => c.stage = 3 && c.side = x) then none else b.change }

/-- The return reported and its command answered. -/
def reportJoin (r : Resync) (s : State) : State :=
  let s := raise .cable 0x0D10 r.side.num s
  match r.cmd with
  | some c => complete c .done [] false s
  | none => s

theorem joined_leaves (r : Resync) (s : State) : (joined r s).role r.side = .standby
    ∧ (joined r s).role r.side.other = s.role r.side.other ∧ (joined r s).now = s.now
    ∧ ((joined r s).ld r.side).fmn = joinFerryman (s.ld r.side).fmn (s.ld r.side.other).fmn := by
  unfold joined
  generalize hf : (fun l : Landing => ({ l with
    fmn := joinFerryman l.fmn (s.ld r.side.other).fmn, items := [], accused := [], slw := { l.slw with joins := false } } : Landing)) = f
  have hsame : Same (endMarking (s.modLd r.side f)) s := same_trans (endMarking_same _) (modLd_same ..)
  refine ⟨setRole_role .., (setRole_other ..).trans (role_of_same hsame _), ?_, ?_⟩
  · exact (setRole_now ..).trans ((endMarking_keepsArb _).now.trans (modLd_now ..))
  · rw [setRole_ld, endMarking_fmn, modLd_ld, ← hf]

theorem reportJoin_leaves (r : Resync) (s : State) : KeepsArb (reportJoin r s) s ∧ Same (reportJoin r s) s
    ∧ ∀ x, ((reportJoin r s).ld x).fmn = (s.ld x).fmn := by
  have hraised := keepsArb_raise .cable 0x0D10 r.side.num s
  have hsame := raise_same .cable 0x0D10 r.side.num s
  unfold reportJoin
  extract_lets u
  split
  · rename_i c _
    refine ⟨keepsArb_trans (keepsArb_complete ..) hraised, same_trans (complete_same ..) hsame, fun x => ?_⟩
    rw [complete_ld]
    exact raise_fmn ..
  · exact ⟨hraised, hsame, fun x => raise_fmn ..⟩

theorem resyncDone_joins {r : Resync} {s : State} (hresync : s.arb.resync = some r) (hcopied : r.copied = true)
    (htime : (s.ld r.side.other).fmn.crossing = r.start + 63) : resyncDone s
      = reportJoin r ((joined r s).modArb (joinedRegisters r.side (8 * ((joined r s).tick.count + 1)))) := by
  unfold resyncDone
  rw [hresync]
  exact if_neg (by simp [hcopied, htime])

theorem resyncDone_leaves {r : Resync} {s : State} (hresync : s.arb.resync = some r) (hcopied : r.copied = true)
    (htime : (s.ld r.side.other).fmn.crossing = r.start + 63) :
    (resyncDone s).role r.side = .standby ∧ (resyncDone s).role r.side.other = s.role r.side.other ∧ (resyncDone s).arb.resync = none
      ∧ ((resyncDone s).ld r.side).fmn = joinFerryman (s.ld r.side).fmn (s.ld r.side.other).fmn ∧ (resyncDone s).now = s.now := by
  obtain ⟨hin, hother, hnow, hfmn⟩ := joined_leaves r s
  rw [resyncDone_joins hresync hcopied htime]
  generalize hu : (joined r s).modArb (joinedRegisters r.side (8 * ((joined r s).tick.count + 1))) = u
  obtain ⟨hkept, hsame, hplace⟩ := reportJoin_leaves r u
  have hroles : ∀ x, u.role x = (joined r s).role x := fun x => by rw [← hu]; cases x <;> rfl
  have hresyncOver : u.arb.resync = none := by rw [← hu]; rfl
  refine ⟨(role_of_same hsame _).trans ((hroles _).trans hin), (role_of_same hsame _).trans ((hroles _).trans hother),
    hkept.resync.trans hresyncOver, ?_, hkept.now.trans ?_⟩
  · rw [hplace, ← hu, modArb_ld, hfmn]
  · rw [← hu]
    exact hnow

/-! ### The statement -/

/-- Settles O43: each move's result by its own lemma, at the instant to which time has passed. -/
theorem arbiterMoves : Obligations.ArbiterMoves := by
  unfold Obligations.ArbiterMoves
  intro at_ bytes bank s s1 tick guard
  have htickArb : tick.arb = s.arb := (advance_arb ..).trans (advance_arb ..)
  have htickSame : Same tick s := same_trans (advance_same ..) (advance_same ..)
  have htickLd : ∀ x, tick.ld x = s.ld x := fun x => (advance_ld ..).trans (advance_ld ..)
  have hroles : ∀ x, s1.role x = s.role x := role_of_same (advance_same at_ s)
  refine ⟨fun x leg hgap hchange => ?_, fun hdue => ?_, fun r hresync => ?_, fun c hchange hdue => ?_, ?_⟩
  · have hgap1 : s1.arb.gap = some (x, leg) := by rwa [advance_arb]
    have hchange1 : s1.arb.change = none := by rwa [advance_arb]
    refine ⟨takeover s1, congrArg Host.Outcome.next (failoverTakeover_unchanged hchange1), ?_⟩
    have hmode : (takeover s1).mode = s.mode := (takeover_same s1).2.1.trans (advance_mode ..)
    by_cases hrole : s.role x.other = .standby
    · obtain ⟨hclosed, hnow, hout, hin, hcount⟩ := takeover_standby hgap1 ((hroles _).trans hrole)
      rw [advance_arb] at hcount
      exact ⟨hclosed, hmode, hnow, fun _ => ⟨hout, hin, hcount⟩, fun h => absurd hrole h⟩
    · obtain ⟨hclosed, hnow, hA, hB, hadrift⟩ := takeover_alone hgap1 (fun h => hrole ((hroles _).symm.trans h))
      rw [advance_roleA] at hA
      rw [advance_roleB] at hB
      rw [advance_mode] at hadrift
      exact ⟨hclosed, hmode, hnow, fun h => absurd h hrole, fun _ => ⟨hA, hB, hadrift⟩⟩
  · have hdueTick : tick.arb.due = [] := by rwa [htickArb]
    have hreturn : returnIsHeld tick = (decide (s.mode = 5) && s.arb.returnHeld) := by
      rw [returnIsHeld, htickArb, mode_of_same htickSame]
    refine ⟨fun h => congrArg Host.Outcome.next (failback_idle hdueTick ?_), fun hback hfree => ?_⟩
    · rw [hreturn]
      simpa using h
    · have hgo : returnIsHeld tick = false := by
        rw [hreturn]
        rcases hfree with h | h <;> simp [h]
      obtain ⟨hin, hout, hmode, hnow⟩ := failback_swaps hdueTick hback hgo
      rw [htickArb] at hin hout
      exact ⟨_, rfl, hin, hout, hmode.trans (mode_of_same htickSame), hnow⟩
  · have hresyncTick : tick.arb.resync = some r := by rwa [htickArb]
    have hresyncGuard : guard.arb.resync = some r := by rwa [advance_arb]
    refine ⟨fun hcopied htime => ?_, fun hcopied htime => ?_, fun htime => ⟨?_, ?_⟩⟩
    · obtain ⟨t, ht, hkb, hlong, hshort⟩ := resyncFinalCopy_moves hresync hcopied htime at_ bytes
      refine ⟨t, ht, hkb, hlong, fun h => ?_⟩
      obtain ⟨hcopy, hengines⟩ := hshort h
      simp only [Landing.engines, Prod.mk.injEq] at hengines
      exact ⟨hcopy, hengines⟩
    · obtain ⟨hin, hother, hover, hfmn, hnow⟩ := resyncDone_leaves hresyncTick hcopied (by rwa [htickLd])
      rw [htickLd, htickLd] at hfmn
      exact ⟨_, rfl, hin, hother.trans (role_of_same htickSame _), hover, (congrArg Ferryman.crossing hfmn :),
        (congrArg Ferryman.running hfmn :), (congrArg Ferryman.index hfmn :), hnow⟩
    · exact congrArg Host.Outcome.next (resyncFinal_waits hresyncGuard bytes (by rwa [advance_ld]))
    · exact congrArg Host.Outcome.next (resyncDone_waits hresyncTick (by rwa [htickLd]))
  · have hdueTick : tick.arb.due = [] := by rwa [htickArb]
    have hchangeTick : tick.arb.change = some c := by rwa [htickArb]
    have hchange1 : s1.arb.change = some c := by rwa [advance_arb]
    refine ⟨fun hstage hwarm hcount hrole hcommon => ?_, fun h => ?_, fun hstage hlate => ?_, fun h => ?_⟩
    · obtain ⟨hin, hout, hclosed, hgap, hmode, hnow⟩ :=
        manifestHandover_done hdueTick hchangeTick ⟨hstage, hwarm, hcount, (role_of_same htickSame _).trans hrole, hcommon⟩
      exact ⟨_, rfl, hin, hout, hclosed, hgap, hmode.trans (mode_of_same htickSame), hnow⟩
    · exact congrArg Host.Outcome.next (manifestHandover_waits hdueTick hchangeTick h)
    · obtain ⟨_, hA, hB, _⟩ := same_trans (confirmTimeout_same s1) (advance_same at_ s)
      exact ⟨_, rfl, confirmTimeout_ends hchange1 hstage hlate, hA, hB⟩
    · exact congrArg Host.Outcome.next (confirmTimeout_waits hchange1 h)
  · obtain ⟨h1, h2⟩ := bankWithdraw_banks bank s1
    obtain ⟨_, hA, hB, _, hmode, _⟩ := same_trans (bankWithdraw_same bank s1) (advance_same at_ s)
    rw [advance_bank1] at h1
    rw [advance_bank2] at h2
    exact ⟨_, rfl, h1, h2, hA, hB, hmode⟩

end Sys2Proof.Machine
end

section
/-!
The report on a leg (10 R391, R393, R397, R398): when it is made, what it says and what else it changes.
-/
namespace Sys2Proof.Machine
set_option Elab.async false -- one proof at a time, as in the tests: the compile is close to its memory limit

/-- The report of a landing kept by the arbiter. -/
def Arbiter.reportFor (b : Arbiter) (x : Side) : Option Report := if x = .A then b.repA else b.repB

theorem setReport_self (x : Side) (r : Option Report) (s : State) : (setReport x r s).arb.reportFor x = r := by cases x <;> rfl

theorem setReport_other (x : Side) (r : Option Report) (s : State) :
    (setReport x r s).arb.reportFor x.other = s.arb.reportFor x.other := by cases x <;> rfl

theorem setReport_ld (x : Side) (r : Option Report) (s : State) (y : Side) : (setReport x r s).ld y = s.ld y := by cases y <;> rfl

/-- Only the landings and the arbiter differ. -/
def LandingsAndArb (t s : State) : Prop := t = { s with a := t.a, b := t.b, arb := t.arb }

theorem landingsAndArb_trans {t u s : State} (h : LandingsAndArb t u) (k : LandingsAndArb u s) : LandingsAndArb t s := h.trans (by rw [k])

theorem modLd_landingsAndArb (s : State) (x : Side) (f : Landing → Landing) : LandingsAndArb (s.modLd x f) s := by cases x <;> rfl

theorem haltDue_landingsAndArb (x : Side) (s : State) : LandingsAndArb (haltDue x s) s := by
  unfold haltDue
  split
  · exact modLd_landingsAndArb ..
  · rfl

theorem haltDue_arb (x : Side) (s : State) : (haltDue x s).arb = s.arb := by
  unfold haltDue
  split
  · exact modLd_arb ..
  · rfl

theorem haltDue_halts {x : Side} {s : State} (h : ∃ e ∈ (s.ld x).accused, e.2.2 = true ∧ e.1 < s.legCount) :
    ((haltDue x s).ld x).fmn.running = false ∧ ((haltDue x s).ld x).fmn.halted = true := by
  have hdue : (s.ld x).accused.any (fun e => e.2.2 && decide (e.1 < s.legCount)) = true := by
    obtain ⟨e, he, hhalt, hover⟩ := h
    exact List.any_eq_true.mpr ⟨e, he, by simp [hhalt, hover]⟩
  rw [haltDue, if_pos hdue, modLd_ld]
  exact ⟨rfl, rfl⟩

/-! ### What a report says (10 R391, R393, R398) -/

theorem reportOf_accuse (s : State) (x : Side) (g : Nat) : (reportOf s x g).accuse = true ↔ ∃ e ∈ (s.ld x).accused, e.1 = g := by
  show ((s.ld x).accused.find? (fun e => e.1 = g)).isSome = true ↔ _
  simp [List.find?_isSome]

theorem reportOf_halt {s : State} {x : Side} {g : Nat} (h : (reportOf s x g).halt = true) :
    ∃ e ∈ (s.ld x).accused, e.2.2 = true ∧ e.1 = g := by
  change ((s.ld x).accused.find? (fun e => e.1 = g)).elim false (fun e => e.2.2) = true at h
  cases hfound : (s.ld x).accused.find? (fun e => e.1 = g) with
  | none => simp [hfound] at h
  | some e =>
    rw [hfound] at h
    exact ⟨e, List.mem_of_find?_eq_some hfound, h, by simpa using List.find?_some hfound⟩

/-! ### When a report is made (10 R388, R393) -/

/-- The items and the self-accusations of the legs up to `g` dropped. -/
def clearLeg (g : Nat) (l : Landing) : Landing :=
  { l with items := l.items.filter (fun i => g < i.leg), accused := l.accused.filter (fun e => g < e.1) }

theorem legReport_late {x : Side} {s : State} (hdue : s.arb.due = []) (h : s.inWindow = false) : legReport x s = haltDue x s := by
  unfold legReport
  rw [applyDue_none hdue]
  exact if_pos (by simp [h])

/-- A landing that reports leg `g`, which is over. -/
structure Reporting (x : Side) (g : Nat) (s : State) : Prop where
  due : s.arb.due = []
  leg : s.legCount = g + 1
  window : s.inWindow = true
  judged : s.arb.judged ≤ g
  fresh : s.report x g = none
  inStep : s.inStep x = true
  since : s.since x ≤ g
  powered : s.powered x = true
  halted : (s.ld x).fmn.halted = false
  reset : (s.ld x).slw.inReset = false
  stage : (s.ld x).slw.stage = 11

theorem legReport_made {x : Side} {g : Nat} {s : State} (h : Reporting x g s) :
    legReport x s = setReport x (some (reportOf s x g)) ((haltDue x s).modLd x (clearLeg g)) := by
  obtain ⟨hdue, hleg, hwindow, hjudged, hfresh, hstep, hsince, hpower, hhalted, hreset, hstage⟩ := h
  have hg : s.legCount - 1 = g := by omega
  have hsends : reports s x g (reportOf s x g).halt = true := by simp [reports, hstep, hsince, hpower, hhalted, hreset, hstage]
  have hopen : ¬(decide (s.legCount = 0) || !s.inWindow || decide (g < s.arb.judged) || (s.report x g).isSome) = true := by
    simp [hleg, hwindow, hfresh, Nat.not_lt.mpr hjudged]
  unfold legReport
  rw [applyDue_none hdue]
  dsimp only
  rw [hg, if_neg hopen, if_pos hsends]
  rfl

theorem legReport_leaves {x : Side} {g : Nat} {s : State} (h : Reporting x g s) : LandingsAndArb (legReport x s) s
    ∧ (legReport x s).arb.reportFor x = some (reportOf s x g) ∧ (legReport x s).arb.reportFor x.other = s.arb.reportFor x.other
    ∧ ((reportOf s x g).halt = true → ((legReport x s).ld x).fmn.running = false ∧ ((legReport x s).ld x).fmn.halted = true) := by
  rw [legReport_made h]
  refine ⟨?_, setReport_self .., ?_, fun hhalt => ?_⟩
  · exact landingsAndArb_trans (by cases x <;> rfl) (landingsAndArb_trans (modLd_landingsAndArb ..) (haltDue_landingsAndArb x s))
  · rw [setReport_other, modLd_arb, haltDue_arb]
  · obtain ⟨e, he, hhalt, hof⟩ := reportOf_halt hhalt
    have hover : e.1 < s.legCount := by rw [hof, h.leg]; omega
    rw [setReport_ld, modLd_ld]
    exact haltDue_halts ⟨e, he, hhalt, hover⟩

end Sys2Proof.Machine
end

section
/-!
The verdict on a leg (10 R397 to R400): what is judged of the two reports, and what each judgement does.
-/
namespace Sys2Proof.Machine
set_option Elab.async false -- one proof at a time, as in the tests: the compile is close to its memory limit

/-! ### The judgement (10 R398) -/

/-- The judgement seen from one landing: `X` its own report, `Y` the other's. -/
def judgeFrom (x : Side) (same cmp accX accY outX outY : Bool) : Judged :=
  match x with
  | .A => judge same cmp accX accY outX outY
  | .B => judge same cmp accY accX outY outX

theorem judgeFrom_equal {x : Side} {acc outX outY : Bool} :
    judgeFrom x true true acc acc outX outY = .agree ∨ judgeFrom x true true acc acc outX outY = .common := by
  cases x <;> cases acc <;> simp [judgeFrom, judge]

theorem judgeFrom_self {x : Side} (same cmp outX outY : Bool) : ∃ r, judgeFrom x same cmp true false outX outY = .failed x r := by
  cases x <;> cases same <;> cases cmp <;> simp [judgeFrom, judge]

theorem judgeFrom_partner {x : Side} (same cmp outX outY : Bool) : ∃ r, judgeFrom x same cmp false true outX outY = .failed x.other r := by
  cases x <;> cases same <;> cases cmp <;> simp [judgeFrom, judge, Side.other]

theorem judgeFrom_outside (x : Side) : judgeFrom x false true false false true false = .failed x 6 := by cases x <;> rfl

theorem judgeFrom_undecided {x : Side} {outX outY : Bool} (h : ¬(outX = true ∧ outY = false)) :
    judgeFrom x false true false false outX outY = .failed x.other 6 ∨ judgeFrom x false true false false outX outY = .unresolved := by
  cases x <;> cases outX <;> cases outY <;> simp [judgeFrom, judge, Side.other] at h ⊢

theorem judgeFrom_both (x : Side) (outX outY : Bool) : judgeFrom x false true true true outX outY = .bothAccuse := by cases x <;> rfl

/-! ### Notes (10 R396, R406, R415, R416) -/

/-- `t` comes from `s` by faults and notes of the arbiter. -/
def Noting (t s : State) : Prop := KeepsArb t s ∧ Same t s

theorem noting_refl (s : State) : Noting s s := ⟨keepsArb_refl s, rfl, rfl, rfl, rfl, rfl, rfl⟩

theorem noting_trans {t u s : State} (h : Noting t u) (k : Noting u s) : Noting t s := ⟨keepsArb_trans h.1 k.1, same_trans h.2 k.2⟩

theorem noting_ite {c : Prop} [Decidable c] {t u s : State} (h : Noting t s) (k : Noting u s) : Noting (if c then t else u) s := by
  split <;> assumption

theorem noting_raise (src : Source) (code detail : Nat) (s : State) : Noting (raise src code detail s) s :=
  ⟨keepsArb_raise .., raise_same ..⟩

theorem noting_modArb (s : State) (f : Arbiter → Arbiter) (hf : (f s.arb).registers = s.arb.registers := by rfl) : Noting (s.modArb f) s :=
  ⟨keepsArb_modArb s f hf, rfl, rfl, rfl, (congrArg Arbiter.due hf :), rfl, rfl⟩

theorem noting_noteVerdict (g row failed : Nat) (outA outB : Bool) (s : State) : Noting (noteVerdict g row failed outA outB s) s := by
  unfold noteVerdict
  exact noting_modArb ..

theorem noting_countAgree (n : Nat) (s : State) : Noting (s.modArb (countAgree n)) s := by
  refine noting_modArb _ _ ?_
  unfold countAgree
  extract_lets k
  split <;> rfl

theorem noting_commonMiss (g : Nat) (s : State) : Noting (commonMiss g s) s := by
  unfold commonMiss
  exact noting_ite (foldl_ind (Noting · s) _ (fun _ _ h => noting_trans (noting_raise ..) (noting_trans (noting_raise ..) h)) _ s (noting_refl s))
    (noting_refl s)

/-! ### What a judgement does (10 R400, R402) -/

/-- The verdicts given and the roles as they were. -/
def Seated (t s : State) : Prop := t.arb.judged = s.arb.judged ∧ t.roleA = s.roleA ∧ t.roleB = s.roleB

theorem seated_trans {t u s : State} (h : Seated t u) (k : Seated u s) : Seated t s :=
  ⟨h.1.trans k.1, h.2.1.trans k.2.1, h.2.2.trans k.2.2⟩

theorem seated_of_held {t s : State} (h : RolesHeld t s) : Seated t s := ⟨h.judged, h.roleA, h.roleB⟩

theorem seated_of_noting {t s : State} (h : Noting t s) : Seated t s := seated_of_held (rolesHeld_of h.1 h.2)

theorem failActive_leaves {x : Side} {s : State} (h : s.arb.change = none) :
    Seated (failActive x s) s ∧ (failActive x s).arb.gap = some (x, s.legCount + 1) := by
  have hopen : failActive x s = openGap x s := by
    unfold failActive
    rw [h]
  obtain ⟨_, hA, hB, _⟩ := openGap_same x s
  rw [hopen]
  exact ⟨⟨(keepsArb_settlePins s).judged, hA, hB⟩, rfl⟩

theorem failStandby_leaves (y : Side) (s : State) : Seated (failStandby y s) s
    ∧ (failStandby y s).arb.due = s.arb.due ++ [{ side := y, role := .unsync, leg := s.legCount + 1 }] := by
  have hheld := abandonChange_rolesHeld s
  have hcount : (abandonChange s).legCount = s.legCount := by unfold State.legCount State.legNow; rw [hheld.now, hheld.tick]
  refine ⟨seated_trans (u := abandonChange s) ⟨rfl, rfl, rfl⟩ (seated_of_held hheld), ?_⟩
  rw [failStandby, dueRole_due, hcount, due_of_same (abandonChange_same s)]

/-- What follows a judgement of the reports `ra` and `rb` on leg `g`, with `x` the active landing. -/
def carryOut (x : Side) (g : Nat) (ra rb : Report) (cmp : Bool) (j : Judged) (s : State) : State :=
  match j with
  | .agree => if cmp then s.modArb (countAgree (g % 8)) else s
  | .common =>
    if cmp then raise .cable 0x0D06 ra.code (commonMiss g (s.modArb (fun b => { b with agree := 0, agreedLegs := 0 })))
    else failStandby x.other (raise .cable 0x0D03 (if x = .A then rb.code else ra.code) s)
  | .failed y _ =>
    let code := if y = .A then ra.code else rb.code
    if y = x then failActive x (raise .cable 0x0D02 code s) else failStandby y (raise .cable 0x0D03 code s)
  | .bothAccuse => adriftNow 0x0D05 (raise .cable 0x0D05 ra.code (s.modArb (fun b => { b with agree := 0, agreedLegs := 0 })))
  | .unresolved => failStandby x.other (raise .cable 0x0D04 (g % 8) s)

/-- The judgement of a state's two reports. -/
def judgement (s : State) : Judged :=
  let ra := s.arb.repA.getD {}
  let rb := s.arb.repB.getD {}
  judge (ra.digest = rb.digest) s.comparing ra.accuse rb.accuse (outside s .A ra) (outside s .B rb)

theorem judgeBoth_carries (x : Side) (g : Nat) (s : State) : ∃ u, Noting u s
    ∧ judgeBoth x g none s = carryOut x g (s.arb.repA.getD {}) (s.arb.repB.getD {}) s.comparing (judgement s) u := by
  unfold judgeBoth
  extract_lets ra rb cmp same outA outB both j s1 s2 s3 failed s4 s5
  have hj : j = judgement s := by
    simp only [j, reduceCtorEq, decide_false, Bool.and_false, Bool.false_eq_true, if_false]
    rfl
  have h1 : Noting s1 s := noting_ite (noting_raise ..) (noting_refl s)
  have h2 : Noting s2 s1 := noting_ite (noting_trans (noting_raise ..) (noting_modArb ..)) (noting_refl s1)
  have h3 : Noting s3 s2 := noting_ite (noting_modArb ..) (noting_refl s2)
  have h4 : Noting s4 s3 := noting_ite (noting_refl s3) (noting_noteVerdict ..)
  refine ⟨s4, noting_trans h4 (noting_trans h3 (noting_trans h2 h1)), ?_⟩
  rw [← hj]
  clear_value s4 j
  cases j <;> rfl

section
variable {x : Side} {g : Nat} {ra rb : Report} {s : State}

theorem carryOut_seated {cmp : Bool} (j : Judged) (h : s.arb.change = none) : Seated (carryOut x g ra rb cmp j s) s := by
  have hactive : ∀ code k, Seated (failActive x (raise .cable code k s)) s := fun code k =>
    seated_trans (failActive_leaves (by rwa [raise_arb])).1 (seated_of_noting (noting_raise ..))
  have hstandby : ∀ y code k, Seated (failStandby y (raise .cable code k s)) s := fun y code k =>
    seated_trans (failStandby_leaves ..).1 (seated_of_noting (noting_raise ..))
  have hcount : Noting (s.modArb fun b => { b with agree := 0, agreedLegs := 0 }) s := noting_modArb ..
  cases j with
  | agree => exact seated_of_noting (noting_ite (noting_countAgree ..) (noting_refl s))
  | common =>
    unfold carryOut
    dsimp only
    split
    · exact seated_of_noting (noting_trans (noting_raise ..) (noting_trans (noting_commonMiss ..) hcount))
    · exact hstandby ..
  | failed y row =>
    unfold carryOut
    dsimp only
    split
    · exact hactive ..
    · exact hstandby ..
  | bothAccuse => exact seated_trans (seated_of_held (adriftNow_leaves ..).1) (seated_of_noting (noting_trans (noting_raise ..) hcount))
  | unresolved => exact hstandby ..

theorem carryOut_agreed {j : Judged} (hj : j = .agree ∨ j = .common) : (carryOut x g ra rb true j s).arb.due = s.arb.due := by
  rcases hj with rfl | rfl
  · exact (noting_countAgree (g % 8) s).1.due
  · have hcount : Noting (s.modArb fun b => { b with agree := 0, agreedLegs := 0 }) s := noting_modArb ..
    unfold carryOut
    dsimp only
    rw [if_pos rfl]
    exact (noting_trans (noting_raise ..) (noting_trans (noting_commonMiss ..) hcount)).1.due

theorem carryOut_active {cmp : Bool} (row : Nat) (h : s.arb.change = none) :
    (carryOut x g ra rb cmp (.failed x row) s).arb.gap = some (x, s.legCount + 1) := by
  unfold carryOut
  dsimp only
  rw [if_pos rfl, (failActive_leaves (by rwa [raise_arb])).2, (keepsArb_raise ..).legCount]

theorem carryOut_standby {cmp : Bool} {j : Judged} (hj : (∃ row, j = .failed x.other row) ∨ j = .unresolved) :
    (carryOut x g ra rb cmp j s).arb.due = s.arb.due ++ [{ side := x.other, role := .unsync, leg := s.legCount + 1 }] := by
  have hfailed : ∀ code k, (failStandby x.other (raise .cable code k s)).arb.due
      = s.arb.due ++ [{ side := x.other, role := .unsync, leg := s.legCount + 1 }] := fun code k => by
    rw [(failStandby_leaves ..).2, (keepsArb_raise ..).legCount, raise_arb]
  rcases hj with ⟨row, rfl⟩ | rfl
  · unfold carryOut
    dsimp only
    rw [if_neg (by cases x <;> decide)]
    exact hfailed ..
  · exact hfailed ..

theorem carryOut_both {cmp : Bool} : (carryOut x g ra rb cmp .bothAccuse s).arb.due = s.arb.due
    ∧ (2 ≤ s.mode → (carryOut x g ra rb cmp .bothAccuse s).arb.adrift = true) := by
  obtain ⟨_, hadrift, hdue⟩ :=
    adriftNow_leaves 0x0D05 (raise .cable 0x0D05 ra.code (s.modArb fun b => { b with agree := 0, agreedLegs := 0 }))
  unfold carryOut
  dsimp only
  rw [hdue, hadrift]
  refine ⟨?_, fun hmode => ?_⟩
  · rw [raise_arb]
    rfl
  · rw [raise_mode, decide_eq_true (show 2 ≤ (s.modArb _).mode from hmode), Bool.or_true]

end

end Sys2Proof.Machine
end

section
/-!
LEG_REPORT and LEG_VERDICT together (10 R393, R397 to R400).
-/
namespace Sys2Proof.Machine
set_option Elab.async false -- one proof at a time, as in the tests: the compile is close to its memory limit

/-! ### The end of a verdict (10 R394) -/

/-- The reports dropped, the compare window released and the items of a landing out of step discarded. -/
def closeVerdict (x : Side) (s : State) : State := dropItems (releaseHeld x (setReport .A none (setReport .B none s)))

theorem closeVerdict_noting (x : Side) (s : State) : Noting (closeVerdict x s) (setReport .A none (setReport .B none s)) := by
  have hreleased : Noting (releaseHeld x (setReport .A none (setReport .B none s))) (setReport .A none (setReport .B none s)) :=
    ⟨keepsArb_trans (keepsArb_foldl (fun _ _ => keepsArb_passItem ..) ..) (keepsArb_modArb ..), releaseHeld_same ..⟩
  have hdropped : ∀ u, Noting (dropItems u) u := fun u => ⟨keepsArb_eachSide (fun _ _ => keepsArb_modLd ..) .., dropItems_same u⟩
  exact noting_trans (hdropped _) hreleased

theorem closeVerdict_reports (x : Side) (s : State) : (closeVerdict x s).arb.repA = none ∧ (closeVerdict x s).arb.repB = none :=
  ⟨(closeVerdict_noting x s).1.repA, (closeVerdict_noting x s).1.repB⟩

theorem closeVerdict_seated (x : Side) (s : State) : Seated (closeVerdict x s) s :=
  seated_trans (seated_of_noting (closeVerdict_noting x s)) ⟨rfl, rfl, rfl⟩

theorem closeVerdict_gap (x : Side) (s : State) : (closeVerdict x s).arb.gap = s.arb.gap := (closeVerdict_noting x s).1.gap

theorem closeVerdict_due (x : Side) (s : State) : (closeVerdict x s).arb.due = s.arb.due := (closeVerdict_noting x s).1.due

theorem closeVerdict_adrift (x : Side) (s : State) : (closeVerdict x s).arb.adrift = s.arb.adrift := (closeVerdict_noting x s).1.adrift

/-! ### Silence (10 R397, R399) -/

theorem noting_judgeLone (x : Side) (g : Nat) (s : State) : Noting (judgeLone x g s) s := by
  refine ⟨?_, judgeLone_same x g s⟩
  unfold judgeLone
  split
  · exact keepsArb_ite (keepsArb_raisePerSecond ..) (keepsArb_refl s)
  · exact keepsArb_refl s

/-- The note and the faults of the silent landings. -/
def noteSilent (x : Side) (g : Nat) (silentX silentY : Bool) (s : State) : State :=
  let u := noteVerdict g 0 ((if silentX then failNum x else 0) + (if silentY then failNum x.other else 0)) false false s
  let v := if silentX then raise .cable 0x0D08 x.num u else u
  if silentY then raise .cable 0x0D08 x.other.num v else v

theorem noting_noteSilent (x : Side) (g : Nat) (silentX silentY : Bool) (s : State) : Noting (noteSilent x g silentX silentY s) s :=
  noting_trans (noting_ite (noting_raise ..) (noting_refl _)) (noting_trans (noting_ite (noting_raise ..) (noting_refl _)) (noting_noteVerdict ..))

theorem judgeSilent_standby {x : Side} {g : Nat} {s : State} (hstandby : s.role x.other = .standby) (silentX silentY : Bool) :
    judgeSilent x g silentX silentY s =
      if silentX && silentY then noLanding (noteSilent x g silentX silentY s)
      else if silentX then failActive x (noteSilent x g silentX silentY s)
      else judgeLone x g (failStandby x.other (noteSilent x g silentX silentY s)) := by
  have hrole : (noteSilent x g silentX silentY s).role x.other = .standby :=
    (role_of_same (noting_noteSilent x g silentX silentY s).2 x.other).trans hstandby
  have hrest : (silentY || decide ((noteSilent x g silentX silentY s).role x.other ≠ .standby)) = silentY := by rw [hrole]; simp
  calc judgeSilent x g silentX silentY s =
      if silentX && (silentY || decide ((noteSilent x g silentX silentY s).role x.other ≠ .standby)) then
        noLanding (noteSilent x g silentX silentY s)
      else if silentX then failActive x (noteSilent x g silentX silentY s)
      else judgeLone x g (failStandby x.other (noteSilent x g silentX silentY s)) := rfl
    _ = _ := by rw [hrest]

/-! ### The judgement of a leg (10 R397, R398) -/

/-- The verdict on leg `g` is given. -/
abbrev leaveLeg (g : Nat) (s : State) : State := s.modArb fun b => { b with judged := g + 1 }

theorem leaveLeg_since (g : Nat) (s : State) (x : Side) : (leaveLeg g s).since x = s.since x := by cases x <;> rfl

theorem leaveLeg_report (g : Nat) (s : State) (x : Side) (k : Nat) : (leaveLeg g s).report x k = s.report x k := by cases x <;> rfl

theorem leaveLeg_role (g : Nat) (s : State) (x : Side) : (leaveLeg g s).role x = s.role x := rfl

/-- What is judged of leg `g`: silence, or the two reports. -/
def judgeLeg (x : Side) (g : Nat) (s : State) : State :=
  if (s.report x g).isNone || (s.report x.other g).isNone then
    judgeSilent x g (s.report x g).isNone (s.report x.other g).isNone (leaveLeg g s)
  else judgeBoth x g none (leaveLeg g s)

/-- Leg `g`, which is over, to be judged: both landings are in step since, `x` as the active one. -/
structure Judging (x : Side) (g : Nat) (s : State) : Prop where
  due : s.arb.due = []
  leg : s.legCount = g + 1
  judged : s.arb.judged ≤ g
  active : s.activeSide = some x
  standby : s.role x.other = .standby
  change : s.arb.change = none
  since : s.since x ≤ g
  sinceOther : s.since x.other ≤ g

theorem noteDiffer_none (g : Nat) (s : State) : noteDiffer g none s = s := by
  unfold noteDiffer
  exact if_neg (by simp)

section
variable {x : Side} {g : Nat} {s : State} (h : Judging x g s)
include h

theorem legVerdict_judges : legVerdict none s = closeVerdict x (judgeLeg x g s) := by
  obtain ⟨hdue, hleg, hjudged, hactive, hstandby, _, hsince, hother⟩ := h
  have hg : s.legCount - 1 = g := by omega
  have hopen : ¬(decide (s.legCount = 0) || decide (g < s.arb.judged)) = true := by simp [hleg, hjudged]
  unfold legVerdict
  rw [applyDue_none hdue]
  dsimp only
  rw [hg, if_neg hopen, show (leaveLeg g s).activeSide = some x from hactive]
  simp only [leaveLeg_since, leaveLeg_report, leaveLeg_role, hstandby, hsince, hother, noteDiffer_none, decide_true, Bool.true_and, if_true]
  rfl

/-! ### Silence judged (10 R397) -/

theorem judgeLeg_silent (hsilent : s.report x g = none ∨ s.report x.other g = none) : ∃ u, Noting u (leaveLeg g s) ∧ judgeLeg x g s =
    if (s.report x g).isNone && (s.report x.other g).isNone then noLanding u
    else if (s.report x g).isNone then failActive x u
    else judgeLone x g (failStandby x.other u) := by
  have hrole : (leaveLeg g s).role x.other = .standby := h.standby
  exact ⟨_, noting_noteSilent .., (if_pos (by simpa using hsilent)).trans (judgeSilent_standby hrole ..)⟩

theorem judgeLeg_silentBoth (hx : s.report x g = none) (hy : s.report x.other g = none) (hmode : 2 ≤ s.mode) :
    (judgeLeg x g s).arb.adrift = true := by
  obtain ⟨u, hu, hjudged⟩ := judgeLeg_silent h (.inl hx)
  simp only [hx, hy, Option.isNone_none, Bool.and_self, if_true] at hjudged
  rw [hjudged]
  exact (noLanding_leaves u).2 (hmode.trans_eq (mode_of_same hu.2).symm)

theorem judgeLeg_silentActive {q : Report} (hx : s.report x g = none) (hy : s.report x.other g = some q) :
    (judgeLeg x g s).arb.gap = some (x, g + 2) := by
  obtain ⟨u, hu, hjudged⟩ := judgeLeg_silent h (.inl hx)
  have hcount : u.legCount = g + 1 := hu.1.legCount.trans h.leg
  simp only [hx, hy, Option.isNone_none, Option.isNone_some, Bool.and_false, Bool.false_eq_true, if_false, if_true] at hjudged
  rw [hjudged]
  exact (failActive_leaves (hu.1.change.trans h.change)).2.trans (by rw [hcount])

/-! ### Two reports judged (10 R398) -/

omit h in
theorem reportFor_of_report {k : Side} {r : Report} (hr : s.report k g = some r) : s.arb.reportFor k = some r := by
  cases k <;> exact (Option.filter_eq_some_iff.mp hr).1

omit h in
theorem judgement_from {p q : Report} (hp : s.report x g = some p) (hq : s.report x.other g = some q) : judgement (leaveLeg g s) =
    judgeFrom x (p.digest = q.digest) s.comparing p.accuse q.accuse (outside s x p) (outside s x.other q) := by
  have hown := reportFor_of_report hp
  have hother := reportFor_of_report hq
  cases x with
  | A =>
    have hA : (leaveLeg g s).arb.repA = some p := hown
    have hB : (leaveLeg g s).arb.repB = some q := hother
    rw [judgement, hA, hB]
    rfl
  | B =>
    have hA : (leaveLeg g s).arb.repA = some q := hother
    have hB : (leaveLeg g s).arb.repB = some p := hown
    rw [judgement, hA, hB]
    simp only [eq_comm (a := p.digest)]
    rfl

omit h in
theorem judgeLeg_paired {p q : Report} (hp : s.report x g = some p) (hq : s.report x.other g = some q) :
    ∃ u ra rb, Noting u (leaveLeg g s) ∧ judgeLeg x g s = carryOut x g ra rb s.comparing
      (judgeFrom x (p.digest = q.digest) s.comparing p.accuse q.accuse (outside s x p) (outside s x.other q)) u := by
  obtain ⟨u, hu, hjudged⟩ := judgeBoth_carries x g (leaveLeg g s)
  rw [judgement_from hp hq] at hjudged
  exact ⟨u, _, _, hu, (if_neg (by simp [hp, hq])).trans hjudged⟩

theorem judgeLeg_seated : Seated (judgeLeg x g s) (leaveLeg g s) := by
  by_cases hsilent : s.report x g = none ∨ s.report x.other g = none
  · obtain ⟨u, hu, hjudged⟩ := judgeLeg_silent h hsilent
    refine seated_trans ?_ (seated_of_noting hu)
    rw [hjudged]
    split
    · exact seated_of_held (noLanding_leaves u).1
    · split
      · exact (failActive_leaves (hu.1.change.trans h.change)).1
      · exact seated_trans (seated_of_noting (noting_judgeLone ..)) (failStandby_leaves ..).1
  · obtain ⟨hx, hy⟩ := not_or.mp hsilent
    obtain ⟨p, hp⟩ := Option.ne_none_iff_exists'.mp hx
    obtain ⟨q, hq⟩ := Option.ne_none_iff_exists'.mp hy
    obtain ⟨u, _, _, hu, hjudged⟩ := judgeLeg_paired hp hq
    rw [hjudged]
    exact seated_trans (carryOut_seated _ (hu.1.change.trans h.change)) (seated_of_noting hu)

section
variable {p q : Report} (hp : s.report x g = some p) (hq : s.report x.other g = some q) (hcompare : s.comparing = true)
include hp hq hcompare

theorem judgeLeg_agreed (hdigest : p.digest = q.digest) (haccuse : p.accuse = q.accuse) : (judgeLeg x g s).arb.due = [] := by
  obtain ⟨u, _, _, hu, hjudged⟩ := judgeLeg_paired hp hq
  rw [hjudged, hcompare, decide_eq_true hdigest, haccuse, carryOut_agreed judgeFrom_equal, hu.1.due]
  exact h.due

theorem judgeLeg_active (hfails : p.accuse = true ∧ q.accuse = false
    ∨ p.digest ≠ q.digest ∧ (p.accuse = false ∧ q.accuse = false) ∧ outside s x p = true ∧ outside s x.other q = false) :
    (judgeLeg x g s).arb.gap = some (x, g + 2) := by
  obtain ⟨u, _, _, hu, hjudged⟩ := judgeLeg_paired hp hq
  have hcount : u.legCount = g + 1 := hu.1.legCount.trans h.leg
  have hfailed : ∃ row, judgeFrom x (p.digest = q.digest) s.comparing p.accuse q.accuse (outside s x p) (outside s x.other q)
      = .failed x row := by
    rcases hfails with ⟨hacc, hquiet⟩ | ⟨hdigest, ⟨hacc, hquiet⟩, hout, hin⟩
    · rw [hacc, hquiet]
      exact judgeFrom_self ..
    · rw [hacc, hquiet, hout, hin, hcompare, decide_eq_false hdigest]
      exact ⟨6, judgeFrom_outside x⟩
  obtain ⟨row, hrow⟩ := hfailed
  rw [hjudged, hrow, carryOut_active row (hu.1.change.trans h.change), hcount]

theorem judgeLeg_standby (hfails : q.accuse = true ∧ p.accuse = false
    ∨ p.digest ≠ q.digest ∧ (p.accuse = false ∧ q.accuse = false) ∧ ¬(outside s x p = true ∧ outside s x.other q = false)) :
    (judgeLeg x g s).arb.due = [{ side := x.other, role := .unsync, leg := g + 2 }] := by
  obtain ⟨u, _, _, hu, hjudged⟩ := judgeLeg_paired hp hq
  have hcount : u.legCount = g + 1 := hu.1.legCount.trans h.leg
  have hdue : u.arb.due = [] := hu.1.due.trans h.due
  have hfailed : (∃ row, judgeFrom x (p.digest = q.digest) s.comparing p.accuse q.accuse (outside s x p) (outside s x.other q)
      = .failed x.other row)
      ∨ judgeFrom x (p.digest = q.digest) s.comparing p.accuse q.accuse (outside s x p) (outside s x.other q) = .unresolved := by
    rcases hfails with ⟨hacc, hquiet⟩ | ⟨hdigest, ⟨hacc, hquiet⟩, honly⟩
    · rw [hacc, hquiet]
      exact .inl (judgeFrom_partner ..)
    · rw [hacc, hquiet, hcompare, decide_eq_false hdigest]
      exact (judgeFrom_undecided honly).imp_left fun hrow => ⟨6, hrow⟩
  rw [hjudged, carryOut_standby hfailed, hdue, hcount]
  rfl

theorem judgeLeg_both (hdigest : p.digest ≠ q.digest) (hx : p.accuse = true) (hy : q.accuse = true) :
    (judgeLeg x g s).arb.due = [] ∧ (2 ≤ s.mode → (judgeLeg x g s).arb.adrift = true) := by
  obtain ⟨u, ra, rb, hu, hjudged⟩ := judgeLeg_paired hp hq
  have hmode : u.mode = s.mode := mode_of_same hu.2
  obtain ⟨hdue, hadrift⟩ := carryOut_both (x := x) (g := g) (ra := ra) (rb := rb) (s := u) (cmp := true)
  rw [hjudged, hcompare, decide_eq_false hdigest, hx, hy, judgeFrom_both]
  exact ⟨hdue.trans (hu.1.due.trans h.due), fun htwo => hadrift (htwo.trans_eq hmode.symm)⟩

end

end

/-! ### The two commands -/

theorem advance_report (n : Nat) (s : State) (x : Side) (g : Nat) : (advance n s).report x g = s.report x g := by
  unfold State.report
  rw [advance_arb]

theorem advance_since (n : Nat) (s : State) (x : Side) : (advance n s).since x = s.since x := by
  unfold State.since
  rw [advance_arb]

theorem advance_inStep (n : Nat) (s : State) (x : Side) : (advance n s).inStep x = s.inStep x := by
  unfold State.inStep
  rw [role_of_same (advance_same n s)]

theorem advance_powered (n : Nat) (s : State) (x : Side) : (advance n s).powered x = s.powered x := by
  unfold State.powered
  rw [advance_sup]

theorem advance_activeSide (n : Nat) (s : State) : (advance n s).activeSide = s.activeSide := by simp [State.activeSide]

theorem reportOf_leg (s : State) (x : Side) (g : Nat) : (reportOf s x g).leg = g := rfl

theorem reportOf_digest (s : State) (x : Side) (g : Nat) : (reportOf s x g).digest =
    legDigest (if g % 8 = 7 then (s.ld x).fmn.crossing - 1 else (s.ld x).fmn.crossing) (g % 8)
      ((s.ld x).items.filter fun i => i.leg = g) := rfl

/-- Settles O42: a report and a verdict taken apart into what is reported, what is judged and what the judgement does. -/
theorem legVerdicts : Obligations.LegVerdicts := by
  unfold Obligations.LegVerdicts
  intro at_ x s hdue s1 s2 rep
  have hreport : exec (.legReport at_ x) s = .next (legReport x s1) := rfl
  have hverdict : exec (.legVerdict at_ none) s = .next (legVerdict none s2) := rfl
  have hdue1 : s1.arb.due = [] := by rw [advance_arb, hdue]
  have hrep : rep = Arbiter.reportFor := rfl
  clear_value rep
  subst hrep
  refine ⟨fun g hleg hwindow hjudged hfresh hstep hsince hpower hhalted hreset hstage => ?_, fun hlate => ?_,
    fun g hleg hjudged hactive hstandby hchange hsince hother => ?_⟩
  · have hreporting : Reporting x g s1 :=
      ⟨hdue1, hleg, hwindow, by rwa [advance_arb], by rwa [advance_report], by rwa [advance_inStep], by rwa [advance_since],
        by rwa [advance_powered], by rwa [advance_ld], by rwa [advance_ld], by rwa [advance_ld]⟩
    obtain ⟨hothers, hown, hpartner, hhalt⟩ := legReport_leaves hreporting
    refine ⟨_, hreport, hothers, hpartner.trans (by rw [advance_arb]), reportOf s1 x g, hown, reportOf_leg .., ?_, ?_, hhalt⟩
    · rw [reportOf_digest, advance_ld]
    · rw [reportOf_accuse, advance_ld]
  · rw [hreport, legReport_late hdue1 hlate]
  · have hjudging : Judging x g s2 :=
      ⟨by rwa [advance_arb], hleg, by rwa [advance_arb], by rwa [advance_activeSide],
        (role_of_same (advance_same ..) _).trans hstandby, by rwa [advance_arb], by rwa [advance_since], by rwa [advance_since]⟩
    have hreports : ∀ y, s2.report y g = s.report y g := fun y => advance_report _ s y g
    obtain ⟨_, hbeforeA, hbeforeB, _, hmode, _⟩ : Same s2 s := advance_same ..
    clear_value s1 s2
    obtain ⟨hA, hB⟩ := closeVerdict_reports x (judgeLeg x g s2)
    obtain ⟨hgiven, hroleA, hroleB⟩ := seated_trans (closeVerdict_seated x _) (judgeLeg_seated hjudging)
    obtain ⟨_, hkept, _⟩ := legVerdict_same none s2
    rw [legVerdict_judges hjudging] at hverdict hkept
    refine ⟨_, hverdict, hkept.trans hmode, hroleA.trans hbeforeA, hroleB.trans hbeforeB, hA, hB, hgiven,
      fun p q hp hq hcompare => ?_, fun q hp hq => ?_, fun hp hq htwo => ?_⟩
    all_goals rw [← hreports] at hp hq
    · rw [closeVerdict_due, closeVerdict_gap, closeVerdict_adrift, ← hmode]
      exact ⟨judgeLeg_agreed hjudging hp hq hcompare, judgeLeg_active hjudging hp hq hcompare, judgeLeg_standby hjudging hp hq hcompare,
        judgeLeg_both hjudging hp hq hcompare⟩
    · rw [closeVerdict_gap]
      exact judgeLeg_silentActive hjudging hp hq
    · rw [closeVerdict_adrift]
      exact judgeLeg_silentBoth hjudging hp hq (htwo.trans_eq hmode.symm)

end Sys2Proof.Machine
end

section
/-!
One step of the queue, and the vessel's mode (01, Modes and trims): every command leaves it one of the six modes.
-/
namespace Sys2Proof.Machine
set_option Elab.async false -- one proof at a time, as in the tests: the compile is close to its memory limit

/-- Settles O1: it is the second case of `step`. -/
theorem stepRunsFront : Obligations.StepRunsFront := by
  unfold Obligations.StepRunsFront
  intro c q s hq
  unfold step
  rw [hq]

/-- Time that passes moves the clocks alone. -/
theorem advance_clocks (n : Nat) (s : State) :
    advance n s = { s with now := (advance n s).now, uptime := (advance n s).uptime, rtc := (advance n s).rtc } := by
  unfold advance
  dsimp only
  split <;> rfl

/-- Settles O3: an idle step is the passing of 10 ns. -/
theorem idleStep : Obligations.IdleStep := by
  unfold Obligations.IdleStep
  intro s hq
  refine ⟨idle s, ?_, ?_, ?_, advance_clocks ..⟩
  · unfold step
    rw [hq]
  · rw [idle, advance_nowNs]
    lia
  · rw [idle, advance_pending, hq]

/-! ### Every command -/

theorem advance_modeFit {n : Nat} {s : State} (hs : s.modeFit) : (advance n s).modeFit := same_modeFit (advance_same n s) hs

theorem next_modeFit_of_same {o : Host.Outcome State Fault Refusal} {s : State} (hs : s.modeFit) (ho : ∃ t, o = .next t ∧ Same t s) :
    ∃ t, o = .next t ∧ t.modeFit :=
  ho.imp fun _ ⟨hnext, hsame⟩ => ⟨hnext, same_modeFit hsame hs⟩

theorem next_modeFit_of_kept {t s : State} (hs : s.modeFit) (hkept : (t.mode, t.dkh.modeReqs) = (s.mode, s.dkh.modeReqs)) :
    ∃ u, (.next t : Host.Outcome State Fault Refusal) = .next u ∧ u.modeFit :=
  ⟨t, rfl, modeFit_of (congrArg Prod.fst hkept) (congrArg Prod.snd hkept) hs⟩

theorem next_modeFit_of_sameM {t s : State} (hs : s.modeFit) (h : SameM t s) :
    ∃ u, (.next t : Host.Outcome State Fault Refusal) = .next u ∧ u.modeFit := next_modeFit_of_kept hs (Prod.ext h.2.1 h.2.2)

theorem rtc_modeFit {s : State} (r : Rtc) (hs : s.modeFit) : ({ s with rtc := r } : State).modeFit := hs

theorem resp_modeFit {s : State} (r : Resp) (hs : s.modeFit) : ({ s with resp := r } : State).modeFit := hs

theorem modPort_modeFit {s : State} (n : Nat) (f : PurPort → PurPort) (hs : s.modeFit) : (s.modPort n f).modeFit := hs

theorem found_modeFit {f : State → State} {s : State} (hf : ∀ u : State, u.modeFit → (f u).modeFit) (hs : s.modeFit) : (found f s).modeFit :=
  found_ind State.modeFit f s (hf s) hs

/-- What is no change of the mode and none of those that wait. -/
def KeepsModes (f : State → State) : Prop := ∀ u, ((f u).mode, (f u).dkh.modeReqs) = (u.mode, u.dkh.modeReqs)

theorem modeFit_of_keepsModes {f : State → State} (hf : KeepsModes f) (s : State) (hs : s.modeFit) : (f s).modeFit :=
  modeFit_of (congrArg Prod.fst (hf s)) (congrArg Prod.snd (hf s)) hs

theorem hostCommand_modeFit {s : State} (hs : s.modeFit) (h : CmdHdr) (op : Nat) (asks : State → Asks) {eff : State → Answer}
    (he : KeepsModes fun u => (eff u).s) :
    ∃ u, (.next (hostCommand h op asks eff s) : Host.Outcome State Fault Refusal) = .next u ∧ u.modeFit :=
  ⟨_, rfl, hostCommand_ind State.modeFit h op asks eff s (fun _ _ => advance_modeFit) (fun _ _ => same_modeFit (logState_same ..))
    (fun _ => same_modeFit (accept_same ..)) (fun _ _ _ _ _ => same_modeFit (complete_same ..)) (modeFit_of_keepsModes he) hs⟩

theorem runEntry_modeFit {s : State} (hs : s.modeFit) (x : Side) (unit op : Nat) (job cycle : Option Nat) {act : Nat → State → State}
    (hact : ∀ k, KeepsModes (act k)) :
    ∃ u, (.next (runEntry x unit op job cycle act s) : Host.Outcome State Fault Refusal) = .next u ∧ u.modeFit := by
  refine ⟨_, rfl, ?_⟩
  unfold runEntry
  split
  · exact hs
  · exact same_modeFit (keepUndo_same ..) (modeFit_of_keepsModes (hact _) _ (same_modeFit (markIssued_same ..) hs))

theorem eachSide_modeFit {s : State} (hs : s.modeFit) (c : Side → Bool) {f : Side → State → State} (hf : ∀ x, KeepsModes (f x)) :
    ∃ u, (.next (eachSide c f s) : Host.Outcome State Fault Refusal) = .next u ∧ u.modeFit :=
  ⟨_, rfl, eachSide_ind State.modeFit c f (fun x => modeFit_of_keepsModes (hf x)) s hs⟩

theorem next_found_modeFit {f : State → State} {s : State} (hf : KeepsModes f) (hs : s.modeFit) :
    ∃ u, (.next (found f s) : Host.Outcome State Fault Refusal) = .next u ∧ u.modeFit :=
  ⟨_, rfl, found_ind State.modeFit f s (modeFit_of_keepsModes hf s) hs⟩

theorem keepsModes_of_sameM {f : State → State} (hf : ∀ u, SameM (f u) u) : KeepsModes f := fun u => Prod.ext (hf u).2.1 (hf u).2.2

theorem keepsModes_of_same {f : State → State} (hf : ∀ u, Same (f u) u) : KeepsModes f :=
  fun u => Prod.ext (hf u).2.2.2.2.1 (hf u).2.2.2.2.2

/-- A host command that does the same to both landings. -/
theorem hostCommand_eachSide_modeFit {s : State} (hs : s.modeFit) (h : CmdHdr) (op : Nat) (asks : State → Asks) {f : Side → State → State}
    (hf : ∀ x, KeepsModes (f x)) :
    ∃ u, (.next (hostCommand h op asks (fun u => done (eachSide (fun _ => true) f u)) s) : Host.Outcome State Fault Refusal) = .next u
      ∧ u.modeFit :=
  hostCommand_modeFit hs h op asks fun u =>
    eachSide_ind (fun t => (t.mode, t.dkh.modeReqs) = (u.mode, u.dkh.modeReqs)) _ f (fun x t ht => (hf x t).trans ht) u rfl

theorem keepsModes_ite (c : State → Prop) [∀ u, Decidable (c u)] {f : State → State} (hf : KeepsModes f) :
    KeepsModes fun u => if c u then f u else u := by
  intro u
  dsimp only
  split
  · exact hf u
  · rfl

theorem execPurRead_same (h : CmdHdr) (addr len : Nat) (s : State) : ∃ t, execPurRead h addr len s = .next t ∧ Same t s :=
  ⟨_, rfl, hostCommandF_same _ _ _ _ _ _ (fun _ => hostRead_same ..) fun _ _ => ite_same (hostRefused_same ..) (by simp)⟩

/-- The commands that can change the mode or have it wait are named with the lemma of their operation; then those that change roles; after
them those that the `Same` lemmas reach only by parts, the findings of the supplies, and the host commands, of whose effects alone it is
shown. Every other command leaves all of these, by simp's `Same` lemmas. -/
theorem exec_modeFit (c : Instr) {s : State} (hs : s.modeFit) : ∃ t, exec c s = .next t ∧ t.modeFit := by
  induction c with
  | crossingTick at_ dst marks => exact ⟨_, rfl, crossingTick_modeFit _ _ _ _ hs⟩
  | dkhSetMode h mode flags target north east heading => exact ⟨_, rfl, setMode_fit _ _ _ _ _ _ _ _ hs⟩
  | landingStart at_ x r => exact ⟨_, rfl, landingStart_modeFit _ _ _ (advance_modeFit hs)⟩
  | roleAssignment at_ => exact ⟨_, rfl, roleAssignment_modeFit _ (advance_modeFit hs)⟩
  | roleDeadline at_ => exact ⟨_, rfl, roleDeadline_modeFit _ (advance_modeFit hs)⟩
  | moduleStop at_ => exact ⟨_, rfl, (stopped_fit _).2⟩
  | temperatureRead at_ a b c base va vb =>
    exact ⟨_, rfl, found_ind State.modeFit _ _ (readTemps_modeFit _ _ _ _ _ _ _) (advance_modeFit hs)⟩
  | supDomainLost at_ domain => exact next_found_modeFit (fun _ => by simp) (advance_modeFit hs)
  | verificationComplete at_ x bank received ok => exact next_modeFit_of_sameM (advance_modeFit hs) (verificationEnd_same ..)
  | cblOutOfService h side => exact hostCommand_modeFit hs _ _ _ (keepsModes_of_sameM fun _ => outOfService_same ..)
  | slwRestart h side => exact hostCommand_modeFit hs _ _ _ (keepsModes_of_sameM fun _ => restartLanding_same ..)
  | backupReset at_ => exact ⟨_, rfl, rtc_modeFit _ (advance_modeFit hs)⟩
  | wakeInstant at_ => exact ⟨_, rfl, rtc_modeFit _ (advance_modeFit hs)⟩
  | jtagAccess at_ x => exact ⟨_, rfl, resp_modeFit _ (advance_modeFit hs)⟩
  | status at_ port => exact ⟨_, rfl, modPort_modeFit _ _ (resp_modeFit _ (advance_modeFit hs))⟩
  | axeStop h mask => exact next_modeFit_of_same hs (execAxeStop_same ..)
  | axeResume h mask => exact next_modeFit_of_same hs (execAxeResume_same ..)
  | axePower h bus l a r => exact next_modeFit_of_same hs (execAxePower_same ..)
  | cblConfirmChange h => exact next_modeFit_of_same hs (execCblConfirmChange_same ..)
  | tolResponse h resp => exact next_modeFit_of_same hs (execTolResponse_same ..)
  | positionSave at_ => exact next_modeFit_of_same hs (execPositionSave_same ..)
  | lockoutEnd at_ p => exact next_modeFit_of_same hs (execLockoutEnd_same ..)
  | purHoldExpired at_ res => exact next_modeFit_of_same hs (execPurHoldExpired_same ..)
  | supCanBus | supFieldLost | supFieldRestored | supReversed | supV24High | supV24Restored |
  supV24aLow | supV24bLow | supEncRange | supAxinRange | encoderLineRestored | axinRangeRestored =>
    exact next_found_modeFit (fun _ => by simp) (advance_modeFit hs)
  | bolAck | bolWriteParams | canBusOn | canIsolate | canReleaseId | canRestore |
  cblAdriftRelease | cblHoldReturn | cblManifestChange | cblMemtest | cblReload | cblResync | dkhImageClose |
  dkhImageErase | dkhImageWrite | ethSetReference | ethStepTime | fusExclude | fusPinTrack | fusReadmit | fusReleaseTrack | fusSetOrigin |
  fusSetTransform | gnsClearAiding | gnsSaveAiding | logClear | logRead | logSetLimit | purPing
  | purRelease | purResend | purSetQueue | purSubscribe | rtcBkpWrite | rtcSet | rtcSetWake | slwLoad |
  tolChallenge | tolJtagUnlock | tolKeyRevoke | tolKeyWrite | tolLogout =>
    exact hostCommand_modeFit hs _ _ _ fun _ => by simp
  | canSend | ctlLoop | apply | align | close | pass | gnsWrite | tsol | ethSend | match_ | schRun | slice | update =>
    exact runEntry_modeFit (advance_modeFit hs) _ _ _ _ _ fun _ _ => by simp
  | axeClearLimit | axeHome | axeOff | axeStart | ctlSwap | ctlWrite | gnsAntennaOff | gnsAntennaOn | schBypassLink | schDcFreeze
  | schRestoreLink | schSetUserCal => exact hostCommand_eachSide_modeFit hs _ _ _ fun _ _ => by simp
  | purRead h addr len => exact next_modeFit_of_same hs (execPurRead_same ..)
  | purAckAlarm h code =>
    refine hostCommand_modeFit hs _ _ _ ?_
    exact keepsModes_of_same fun _ => clearAlarms_same ..
  | stepDriverRetry =>
    refine next_found_modeFit ?_ (advance_modeFit hs)
    exact keepsModes_ite _ (keepsModes_of_same fun _ => settlePins_same _)
  | supStepShort =>
    refine next_found_modeFit ?_ (advance_modeFit hs)
    exact keepsModes_ite _ (keepsModes_of_same fun _ => same_trans (raise_same ..) (settlePins_same _))
  | supStepOpen | supTpFault =>
    refine next_found_modeFit ?_ (advance_modeFit hs)
    exact keepsModes_ite _ (keepsModes_of_same fun _ => raise_same ..)
  | tileStart => exact runEntry_modeFit hs _ _ _ _ _ fun _ _ => by simp
  | axeNanExpired | startDurationEnd | axeStartTimeout | axePmsStale | gnsMag | gnsHoldover | gnsHoldLimit | pulseCommit | calRunStart
  | calResult => exact eachSide_modeFit (advance_modeFit hs) _ fun _ _ => by simp
  | _ => exact next_modeFit_of_kept hs (by simp)

/-- Settles O6: an idle step moves only the clocks, and every command keeps `State.modeFit`, which also says that no waiting record asks for
another mode. -/
theorem modeIsLegal : Obligations.ModeIsLegal := by
  unfold Obligations.ModeIsLegal
  intro s t hs hstep
  unfold step at hstep
  split at hstep
  · cases hstep
    exact same_modeFit (idle_same s) hs
  · rename_i c q _
    obtain ⟨u, hu, hfit⟩ := exec_modeFit c (s := { s with pending := q }) hs
    rw [hu] at hstep
    cases hstep
    exact hfit

end Sys2Proof.Machine
end

section
/-!
The purser's host side (16 R611 to R635): completion entries, the queues' commands, and a key revocation that finds the keys held.
-/
namespace Sys2Proof.Machine
set_option Elab.async false -- one proof at a time, as in the tests: the compile is close to its memory limit

/-! ### Partitions and their queues -/

theorem part_modPart (s : State) (p n : Nat) (f : Partition → Partition) :
    (s.modPart p f).part n = if n = p then f (s.part p) else s.part n := by
  simp only [State.modPart, State.part, Tab.get_upd]

theorem part_modPart_same (s : State) (p : Nat) (f : Partition → Partition) : (s.modPart p f).part p = f (s.part p) := by
  rw [part_modPart, if_pos rfl]

theorem part_modPart_ne (s : State) {p n : Nat} (h : n ≠ p) (f : Partition → Partition) : (s.modPart p f).part n = s.part n := by
  rw [part_modPart, if_neg h]

theorem eq_postEntry_ne (p q : Nat) (e : EvEntry) (s : State) {p' q' : Nat} (h : (p', q') ≠ (p, q)) :
    Tab.get {} ((postEntry p q e s).part p').eq q' = Tab.get {} (s.part p').eq q' := by
  rw [postEntry, part_modPart]
  split
  · rename_i hp
    subst hp
    rw [Tab.get_upd, if_neg fun hq => h (by rw [hq])]
  · rfl

/-- A completion touches the event queues only by its entry. -/
theorem complete_eq (c : Pend) (st : Status) (d : List Byte) (b : Bool) (s : State) (p : Nat) :
    ((complete c st d b s).part p).eq = ((postEntry c.part c.queue
      { typ := 1, stat := st.code, op := c.op, source := 2, flags := b2n b, word := c.seq.toNat, time := s.nowNs, data := d } s).part p).eq := by
  unfold complete
  dsimp only
  split
  · rfl
  · rw [part_modPart]
    split
    · rename_i hp; subst hp; rfl
    · rfl

theorem answered_waitingFor (h : CmdHdr) (op : Nat) (st : Status) (d : List Byte) (s : State) :
    (s.answered h op st d).waitingFor h
      = s.waitingFor h ++ [{ typ := 1, stat := st.code, op := op, source := 2, word := h.seq.toNat, time := s.nowNs, data := d }] := by
  rw [State.waitingFor, State.answered, complete_eq]
  exact (postEntry_waiting ..).trans (if_pos ⟨rfl, rfl⟩)

/-- Settles O9: the entry is `postEntry`'s, and the rest of a completion counts down the commands under way. -/
theorem completionEntry : Obligations.CompletionEntry := by
  unfold Obligations.CompletionEntry
  intro h op st d s
  refine ⟨answered_waitingFor h op st d s, fun p q hne => ?_, complete_shape ..⟩
  rw [State.answered, complete_eq]
  exact eq_postEntry_ne _ _ _ _ hne

/-! ### The commands of the purser (16 R611, R613, R621, R623, R635) -/

/-- An operation that changes the purser's block alone. -/
abbrev PurOnly (t s : State) : Prop := t = { s with pur := t.pur }

theorem purOnly_refl (s : State) : PurOnly s s := rfl

theorem purOnly_trans {u t s : State} (hu : PurOnly u t) (ht : PurOnly t s) : PurOnly u s := by
  unfold PurOnly at *
  rw [hu, ht]

theorem purOnly_modPart (s : State) (p : Nat) (f : Partition → Partition) : PurOnly (s.modPart p f) s := rfl

theorem postSubscribed_purOnly (u : Nat) (e : EvEntry) (n p : Nat) (s : State) : PurOnly (postSubscribed u e n p s) s := by
  induction n generalizing p s with
  | zero => rfl
  | succ n ih =>
    refine purOnly_trans (ih _ _) ?_
    split
    · exact purOnly_modPart ..
    · rfl

theorem postSubscribed_alarms (u : Nat) (e : EvEntry) (n p : Nat) (s : State) : (postSubscribed u e n p s).pur.alarms = s.pur.alarms := by
  induction n generalizing p s with
  | zero => rfl
  | succ n ih =>
    refine (ih _ _).trans ?_
    split <;> rfl

theorem clearAlarm_purOnly (c : Nat) (s : State) : PurOnly (clearAlarm c s) s :=
  purOnly_trans (postSubscribed_purOnly ..) rfl

theorem clearAlarm_alarms (c : Nat) (s : State) : (clearAlarm c s).pur.alarms = s.pur.alarms.filter (· ≠ c) :=
  postSubscribed_alarms ..

theorem clearAlarms_purOnly (l : List Nat) (s : State) : PurOnly (clearAlarms l s) s := by
  induction l generalizing s with
  | nil => rfl
  | cons c l ih => exact purOnly_trans (ih _) (clearAlarm_purOnly c s)

/-- Clearing alarms leaves those that are not named. -/
theorem clearAlarms_alarms (l : List Nat) (s : State) : (clearAlarms l s).pur.alarms = s.pur.alarms.filter (· ∉ l) := by
  induction l generalizing s with
  | nil => simp [clearAlarms]
  | cons c l ih =>
    rw [clearAlarms, ih, clearAlarm_alarms, List.filter_filter]
    refine List.filter_congr fun x _ => ?_
    simp [Bool.and_comm]

theorem netEntries_purOnly (p : Nat) (l : List (Option Nat × Nat × List Byte)) (s : State) : PurOnly (netEntries p l s) s := by
  induction l generalizing s with
  | nil => rfl
  | cons e l ih =>
    refine purOnly_trans (ih _) ?_
    split <;> rfl

theorem netEntries_outbox (p : Nat) (l : List (Option Nat × Nat × List Byte)) (s : State) :
    (netEntries p l s).pur.outbox = s.pur.outbox
      ++ (l.filter (fun e => e.1.isSome)).flatMap (fun e => (s.part p).lastNets.map (fun n => (p, n, (s.part p).lastAddr, e.2.2))) := by
  induction l generalizing s with
  | nil => simp [netEntries]
  | cons e l ih =>
    rw [netEntries, ih]
    by_cases he : e.1.isSome
    · simp [he, netEntry, State.part]
    · simp [he]

/-- What a passing command takes of a partition: the instant, and its queue's sequence number. -/
theorem begun_part (h : CmdHdr) (s : State) (p : Nat) :
    (s.begun h).part p = if p = h.part then
      { s.part p with lastPass := (advance h.at_ s).nowNs,
                      cq := Tab.upd {} (s.part p).cq h.queue (fun w => { w with lastSeq := some h.seq }) } else s.part p := by
  rw [State.begun, accept, part_modPart, advance_part]
  split
  · rename_i hp; subst hp; simp
  · simp

theorem begun_eq (h : CmdHdr) (s : State) (p q : Nat) : (s.begun h).eq p q = s.eq p q := by
  rw [State.eq, begun_part]
  split <;> rfl

/-- A command queue of a command that has begun: only the last sequence number differs. -/
theorem begun_cq (h : CmdHdr) (s : State) (p q : Nat) : (s.begun h).cq p q = { s.cq p q with lastSeq := ((s.begun h).cq p q).lastSeq } := by
  rw [State.cq, begun_part]
  split
  · simp only [Tab.get_upd, State.cq]
    split
    · rename_i hq; subst hq; rfl
    · rfl
  · rfl

theorem begun_lastNets (h : CmdHdr) (s : State) (p : Nat) :
    ((s.begun h).part p).lastNets = (s.part p).lastNets ∧ ((s.begun h).part p).lastAddr = (s.part p).lastAddr := by
  rw [begun_part]
  split <;> exact ⟨rfl, rfl⟩

/-! ### Ring sizes (16 R612, R613) -/

/-- Two states whose queues have rings of the same sizes. -/
def SameRings (t s : State) : Prop := ∀ p q, (t.cq p q).k = (s.cq p q).k ∧ (t.eq p q).k = (s.eq p q).k

theorem ringExp_congr {t s : State} (h : SameRings t s) (r : Nat) : ringExp t r = ringExp s r := by
  unfold ringExp
  dsimp only
  split
  · split
    · exact (h _ _).1
    · exact (h _ _).2
  · exact (h _ _).2

theorem ringSpan_congr {t s : State} (h : SameRings t s) (r : Nat) : ringSpan t r = ringSpan s r := by
  induction r with
  | zero => rw [ringSpan, ringSpan, ringExp_congr h]
  | succ r ih => rw [ringSpan, ringSpan, ringExp_congr h, ih]

theorem layoutBase_congr {t s : State} (h : SameRings t s) (r : Nat) : layoutBase t r = layoutBase s r := by
  rw [layoutBase, layoutBase, ringSpan_congr h]

theorem begun_sameRings (h : CmdHdr) (s : State) : SameRings (s.begun h) s := fun p q => by
  rw [begun_cq, begun_eq]
  exact ⟨rfl, rfl⟩

theorem modCq_cq (s : State) (p q : Nat) (f : CmdQ → CmdQ) (p' q' : Nat) :
    (s.modCq p q f).cq p' q' = if p' = p ∧ q' = q then f (s.cq p q) else s.cq p' q' := by
  rw [State.cq, State.modCq, part_modPart]
  by_cases hp : p' = p
  · subst hp
    by_cases hq : q' = q
    · subst hq; simp [State.cq]
    · simp [Tab.get_upd, hq, State.cq]
  · simp [hp, State.cq]

theorem modCq_eq (s : State) (p q : Nat) (f : CmdQ → CmdQ) (p' q' : Nat) : (s.modCq p q f).eq p' q' = s.eq p' q' := by
  rw [State.eq, State.modCq, part_modPart]
  split
  · rename_i h; subst h; rfl
  · rfl

theorem modEq_eq (s : State) (p q : Nat) (f : EventQ → EventQ) (p' q' : Nat) :
    (s.modEq p q f).eq p' q' = if p' = p ∧ q' = q then f (s.eq p q) else s.eq p' q' := by
  rw [State.eq, State.modEq, part_modPart]
  by_cases hp : p' = p
  · subst hp
    by_cases hq : q' = q
    · subst hq; simp [State.eq]
    · simp [Tab.get_upd, hq, State.eq]
  · simp [hp, State.eq]

theorem modEq_cq (s : State) (p q : Nat) (f : EventQ → EventQ) (p' q' : Nat) : (s.modEq p q f).cq p' q' = s.cq p' q' := by
  rw [State.cq, State.modEq, part_modPart]
  split
  · rename_i h; subst h; rfl
  · rfl

theorem resizeRing_sameRings {t s : State} (h : SameRings t s) (p : Nat) (ev : Bool) (q k : Nat) :
    SameRings (resizeRing p ev q k t) (resizeRing p ev q k s) := fun p' q' => by
  obtain ⟨hc, he⟩ := h p' q'
  cases ev
  · simp only [resizeRing, Bool.false_eq_true, if_false, modCq_cq, modCq_eq]
    refine ⟨?_, he⟩
    split
    · rfl
    · exact hc
  · simp only [resizeRing, if_true, modEq_cq, modEq_eq]
    refine ⟨hc, ?_⟩
    split
    · rfl
    · exact he

theorem resizeRing_lead (p : Nat) (ev : Bool) (q k : Nat) (s : State) :
    (resizeRing p ev q k s).ld (resizeRing p ev q k s).lead = s.ld s.lead := by
  cases ev <;> rfl

theorem areaTooLarge_advance (p : Nat) (ev : Bool) (q k n : Nat) (s : State) :
    areaTooLarge (resizeRing p ev q k (advance n s)) = areaTooLarge (resizeRing p ev q k s) := by
  have hrings : SameRings (advance n s) s := fun p' q' => by simp [State.cq, State.eq]
  have hbytes : areaBytes (resizeRing p ev q k (advance n s)) = areaBytes (resizeRing p ev q k s) :=
    ringSpan_congr (resizeRing_sameRings hrings p ev q k) 47
  simp only [areaTooLarge, hbytes, resizeRing_lead, advance_lead, advance_ld]

/-- While rings move, every ring keeps the base it had. -/
theorem ringBase_moving {u s : State} {m : QueueMove} (hm : u.pur.move = some m)
    (hfrom : m.fromB = (allBases s).filter (fun e => layoutBase u e.1 ≠ e.2)) {r : Nat} (hr : r < 48) : ringBase u r = layoutBase s r := by
  rw [ringBase, hm]
  dsimp only
  rw [hfrom]
  cases hf : ((allBases s).filter (fun e => layoutBase u e.1 ≠ e.2)).find? (fun e => e.1 == r) with
  | none =>
    by_contra hne
    refine (List.find?_eq_none.mp hf (r, layoutBase s r) (List.mem_filter.mpr ⟨?_, by simpa using hne⟩)) (by simp)
    exact List.mem_map.mpr ⟨r, List.mem_range.mpr hr, rfl⟩
  | some e =>
    have hmem := List.mem_of_find?_eq_some hf
    have hr' := List.find?_some hf
    obtain ⟨n, -, rfl⟩ := List.mem_map.mp (List.mem_filter.mp hmem).1
    obtain rfl : n = r := by simpa using hr'
    rfl

/-! ### The commands, and their statement -/

theorem exec_purAckAlarm {h : CmdHdr} {s : State} (hm : h.may 1 [1, 2, 3, 4, 5] s) {code : Nat} (hcode : code < 65536)
    (hact : code = 0 ∨ code ∈ s.pur.alarms) :
    ∃ u : State, exec (.purAckAlarm h code) s = .next (u.answered h 0x0C02 .done []) ∧ u = { s.begun h with pur := u.pur }
      ∧ u.pur.alarms = s.pur.alarms.filter (fun x => if code = 0 then false else decide (x ≠ code)) := by
  have hasks : code = 0 ∨ code ∈ (advance h.at_ s).pur.alarms := by simpa using hact
  have hstart : (s.begun h).pur.alarms = s.pur.alarms := by simp [State.begun, accept, State.modPart]
  have hpur := clearAlarms_purOnly (if code = 0 then (s.begun h).pur.alarms else [code]) (s.begun h)
  have halarms := clearAlarms_alarms (if code = 0 then (s.begun h).pur.alarms else [code]) (s.begun h)
  refine ⟨_, congrArg Host.Outcome.next (hostCommand_may hm (by simpa [hcode] using hasks) 0x0C02 _), ?_, ?_⟩
  · exact purOnly_trans rfl hpur
  · refine halarms.trans ?_
    rw [hstart]
    by_cases h0 : code = 0
    · simp only [h0, if_true]
      exact List.filter_congr fun x hx => by simp [hx]
    · simp [h0]

theorem exec_purRead {h : CmdHdr} {n addr len : Nat} {s : State} (hm : h.may n [0, 1, 2, 3, 4, 5] s) (hok : purReadOk addr len = true)
    (hrange : hostRange (advance h.at_ s) h.part false addr (len / 4) = some n) :
    ∃ u : State, ∃ poison, exec (.purRead h addr len) s
        = .next (complete (cmdOf h 0x0C03) .done (hostRead h.part addr (len / 4) 0 (s.begun h)).1 poison u)
      ∧ u.mode = s.mode ∧ u.roleA = s.roleA ∧ u.roleB = s.roleB := by
  obtain ⟨hsound, hholds, hmode⟩ := hm
  obtain ⟨_, hA, hB, _, hsame, _⟩ := hostRead_same h.part addr (len / 4) 0 (s.begun h)
  have hpass := check_none h { level := n, modes := [0, 1, 2, 3, 4, 5] } (advance h.at_ s) ((sound_advance ..).mpr hsound) rfl
    ((holds_advance ..).mpr hholds) rfl rfl rfl (by rwa [advance_mode]) rfl rfl rfl
  refine ⟨_, _, congrArg Host.Outcome.next (hostCommandF_pass h 0x0C03 _ _ _ s ?_), ?_, ?_, ?_⟩
  · simpa [hok, hrange] using hpass
  · exact hsame.trans ((accept_mode ..).trans (advance_mode ..))
  · exact hA.trans ((accept_roleA ..).trans (advance_roleA ..))
  · exact hB.trans ((accept_roleB ..).trans (advance_roleB ..))

theorem exec_purSubscribe {h : CmdHdr} {s : State} (hm : h.may 0 [1, 2, 3, 4, 5] s) {mask : Word} {q : Nat} (hq : q ≤ 3)
    (hmask : mask.toNat < 2 ^ 19) :
    exec (.purSubscribe h mask q) s
      = .next (((s.begun h).modPart h.part (fun t => { t with subMask := mask.toNat, subQ := q })).answered h 0x0C01 .done []) :=
  congrArg Host.Outcome.next (hostCommand_may hm (by simp only [hq, hmask]; rfl) 0x0C01 _)

theorem exec_purResend {h : CmdHdr} {s : State} (hm : h.may 0 [1, 2, 3, 4, 5] s) {q seq : Nat} (hp : 4 ≤ h.part) (hq : q ≤ 3)
    (hheld : (s.eq h.part q).held.any (fun e => e.1 == some seq) = true) :
    exec (.purResend h q seq) s
      = .next ((netEntries h.part ((s.eq h.part q).held.dropWhile (fun e => e.1 ≠ some seq)) (s.begun h)).answered h 0x0C05 .done []) := by
  have heq : (advance h.at_ s).eq h.part q = s.eq h.part q := by simp [State.eq]
  refine congrArg Host.Outcome.next ((hostCommand_may hm (by simp only [heq, hheld]; simp [hq, isPort, hp]) 0x0C05 _).trans ?_)
  simp only [begun_eq]
  rfl

theorem exec_purRelease {h : CmdHdr} {s : State} (hm : h.may 0 [1, 2, 3, 4, 5] s) {q seq : Nat} (hp : 4 ≤ h.part) (hq : q ≤ 3)
    (hunread : (unreadOf (s.eq h.part q)).any (fun e => e.1 == some seq) = true) :
    exec (.purRelease h q seq) s = .next (((s.begun h).modEq h.part q (releaseTo seq)).answered h 0x0C06 .done []) := by
  have heq : (advance h.at_ s).eq h.part q = s.eq h.part q := by simp [State.eq]
  exact congrArg Host.Outcome.next (hostCommand_may hm (by simp only [heq, hunread]; simp [hq, isPort, hp]) 0x0C06 _)

/-- Rings of new sizes, with the move of those whose base changes under way. -/
def movedRings (h : CmdHdr) (s r : State) : State :=
  { r with pur := { r.pur with
    move := some { cmd := cmdOf h 0x0C04, fromB := (allBases s).filter (fun e => layoutBase r e.1 ≠ e.2) } } }

theorem exec_purSetQueue {h : CmdHdr} {s : State} (hm : h.may 0 [1] s) {kind q k : Nat} (hkind : kind ≤ 1) (hq : q ≤ 3) (hk : k ≤ 8)
    (hport : kind = 1 ∨ h.part < 4) (harea : areaTooLarge (resizeRing h.part (kind == 1) q k s) = false) (hmove : s.pur.move = none)
    (hev : kind = 1 → (s.eq h.part q).head = (s.eq h.part q).tail)
    (hcmd : kind = 0 → (s.cq h.part q).head = (s.cq h.part q).tail ∧ (s.cq h.part q).outstanding = 0) :
    exec (.purSetQueue h kind q k) s
      = .next ((movedRings h (s.begun h) (resizeRing h.part (kind == 1) q k (s.begun h))).answered h 0x0C04 .accepted []) := by
  have heq : (advance h.at_ s).eq h.part q = s.eq h.part q := by simp [State.eq]
  have hcq : (advance h.at_ s).cq h.part q = s.cq h.part q := by simp [State.cq]
  have hlarge := (areaTooLarge_advance h.part (kind == 1) q k h.at_ s).trans harea
  refine congrArg Host.Outcome.next (hostCommand_may hm ?_ 0x0C04 _)
  simp only [heq, hcq, hlarge]
  obtain rfl | rfl : kind = 0 ∨ kind = 1 := by lia
  · obtain ⟨hhead, hout⟩ := hcmd rfl
    have hpart : h.part < 4 := by lia
    simp [hq, hk, isPort, hpart, hmove, hhead, hout]
  · simp [hq, hk, hmove, hev rfl]

theorem movedRings_eq (h : CmdHdr) (s r : State) (p q : Nat) : (movedRings h s r).eq p q = r.eq p q := rfl
theorem movedRings_cq (h : CmdHdr) (s r : State) (p q : Nat) : (movedRings h s r).cq p q = r.cq p q := rfl

theorem layoutBase_movedRings (h : CmdHdr) (s r : State) (n : Nat) : layoutBase (movedRings h s r) n = layoutBase r n :=
  layoutBase_congr (t := movedRings h s r) (s := r) (fun _ _ => ⟨rfl, rfl⟩) n

theorem resizeRing_purOnly (p : Nat) (ev : Bool) (q k : Nat) (s : State) : PurOnly (resizeRing p ev q k s) s := by
  cases ev <;> rfl

theorem resizeRing_eq_self (p q k : Nat) (s : State) :
    (resizeRing p true q k s).eq p q = { s.eq p q with k := k, head := 0, tail := 0, held := [], unread := 0 } := by
  rw [resizeRing, if_pos rfl, modEq_eq, if_pos ⟨rfl, rfl⟩]

theorem resizeRing_cq_self (p q k : Nat) (s : State) :
    (resizeRing p false q k s).cq p q = { s.cq p q with k := k, head := 0, tail := 0 } := by
  rw [resizeRing, if_neg (by decide), modCq_cq, if_pos ⟨rfl, rfl⟩]

/-- Settles O55: each command in a fitting state passes its checks, and the rest is its operation. -/
theorem purserCommands : Obligations.PurserCommands := by
  unfold Obligations.PurserCommands
  intro h mask q code addr len kind k seq s p all
  refine ⟨fun hm hq hmask => exec_purSubscribe hm hq hmask, fun hm hcode hact => ?_, fun n hm hok hrange => exec_purRead hm hok hrange,
    fun hm hp hq => ⟨fun hheld => ?_, exec_purRelease hm hp hq⟩, fun hm => ?_, fun hm hkind hq hk hport harea hmove hev hcmd => ?_⟩
  · obtain ⟨u, hexec, hu, halarms⟩ := exec_purAckAlarm hm hcode hact
    refine ⟨u, hexec, hu, fun h0 => ?_, fun h0 => ?_⟩
    · simp [halarms, h0]
    · simp [halarms, h0]
  · obtain ⟨hnets, haddr⟩ := begun_lastNets h s p
    have hout : (s.begun h).pur.outbox = s.pur.outbox := by simp [State.begun, accept, State.modPart]
    refine ⟨_, exec_purResend hm hp hq hheld, netEntries_purOnly .., (netEntries_outbox ..).trans ?_⟩
    rw [hnets, haddr, hout]
  · exact congrArg Host.Outcome.next (hostCommand_may hm (by simp) 0x0C07 _)
  · refine ⟨_, exec_purSetQueue hm hkind hq hk hport harea hmove hev hcmd, ?_, ?_, ?_, _, rfl, rfl, fun r hr => ?_⟩
    · exact purOnly_trans rfl (resizeRing_purOnly ..)
    · rintro rfl
      rw [movedRings_eq, show ((1 : Nat) == 1) = true from rfl, resizeRing_eq_self]
      exact ⟨rfl, rfl, rfl⟩
    · rintro rfl
      rw [movedRings_cq, show ((0 : Nat) == 1) = false from rfl, resizeRing_cq_self]
      exact ⟨rfl, rfl, rfl⟩
    · exact (ringBase_moving rfl (by simp only [layoutBase_movedRings]) hr).trans (layoutBase_congr (begun_sameRings h s) r)

/-! ### A revocation that finds the keys held (16 R625, R632) -/

/-- Two answers with different statuses to one command differ. -/
theorem answered_status {h : CmdHdr} {op : Nat} {st st' : Status} {d d' : List Byte} {s u : State}
    (heq : s.answered h op st d = u.answered h op st' d') : st.code = st'.code := by
  have hlast := congrArg (fun t : State => (t.waitingFor h).getLast?.map (·.stat)) heq
  simpa [answered_waitingFor] using hlast

/-- In BERTH with P0 at MASTER and one key in slot 0; P1 holds the keys. -/
def heldKeys : State :=
  { mode := 1, pur := { parts := [(0, { level := 3 })], slots := [(0, { alg := 1 })], holds := [(5, some { part := 1 })] } }

/-- Refutes O56: a TOL_KEY_REVOKE of P0 is answered BUSY while P1 holds the keys, where the statement asks for DONE. -/
theorem not_tollhouseKeeps : ¬ Obligations.TollhouseKeeps := by
  unfold Obligations.TollhouseKeeps
  intro hall
  obtain ⟨-, -, -, -, -, -, -, -, -, -, -, hrevoke⟩ := hall 0 0 0 0 none [] [] {} heldKeys
  obtain ⟨u, hexec, -⟩ := (hrevoke (by decide)).1 (by decide) (by decide) (by decide)
  have hbusy : exec (.tolKeyRevoke {} 0) heldKeys = .next (heldKeys.answered {} 0x0C84 .busy []) :=
    congrArg Host.Outcome.next (hostCommand_fail _ _ _ _ heldKeys .busy (by decide))
  exact absurd (answered_status (Host.Outcome.next.inj (hbusy.symm.trans hexec))) (by decide)

end Sys2Proof.Machine
end

section
/-!
TELEGRAM_TRANSMIT in a fail-over gap (10 R400, 13 R521): the outputs of the active landing do not pass, and no telegram goes out.
-/
namespace Sys2Proof.Machine
set_option Elab.async false -- one proof at a time, as in the tests: the compile is close to its memory limit

/-- While the active landing's outputs do not pass, telegrams on which the banks agree are not sent. -/
theorem telegramSend_held {x : Side} {s : State} (hx : s.activeSide = some x) (hpass : s.passes x = false) (c : Nat) :
    telegramSend c true s = s := by
  unfold telegramSend
  simp [hx, hpass]

/-- The Bollard runs on bank 1 with connection 0 transmitting, and Landing A, which is active, has failed: the gap lasts. -/
def sendingInGap : State :=
  { roleA := .active, bank1 := true, arb := { gap := some (.A, 1) },
    bol := { live := true, block := List.replicate 0x120 0 ++ [5] } }

/-- Refutes O49: in the gap TELEGRAM_TRANSMIT sends nothing, where the statement asks for one telegram more. -/
theorem not_bollardCommands : ¬ Obligations.BollardCommands := by
  unfold Obligations.BollardCommands
  intro hall
  obtain ⟨-, -, -, -, ⟨-, -, hsend⟩, -, -, -⟩ := hall 0 0 0 0 0 0 0 0 0 0 0 [] {} sendingInGap
  obtain ⟨t, hexec, -, -, hconn⟩ := hsend ⟨rfl, .inl rfl⟩ (by decide) (by decide)
  have hheld : exec (.telegramTransmit 0 0 true) sendingInGap = .next sendingInGap :=
    congrArg Host.Outcome.next (telegramSend_held (x := .A) rfl rfl 0)
  obtain rfl : sendingInGap = t := Host.Outcome.next.inj (hheld.symm.trans hexec)
  exact absurd (congrArg BolConn.sent hconn) (by decide)

end Sys2Proof.Machine
end

section
/-!
What raising a fault leaves beside the landings: of the purser all but the waiting entries and the alarms, of the logbook all but its buffer;
and what a finding of the cable die, which accuses no landing, leaves of the state (00 R28, 16 R620, 17 R664).
-/
namespace Sys2Proof.Machine
set_option Elab.async false -- one proof at a time, as in the tests: the compile is close to its memory limit

/-! ### Reports -/

/-- The purser and the logbook differ by reports alone: entries posted, alarms set, records buffered or lost. -/
def Reported (t s : State) : Prop :=
  t.pur = { s.pur with parts := t.pur.parts, alarms := t.pur.alarms, alarmSrc := t.pur.alarmSrc }
    ∧ t.log = { s.log with buffer := t.log.buffer, lostPending := t.log.lostPending, lostCount := t.log.lostCount }

theorem reported_refl (s : State) : Reported s s := ⟨rfl, rfl⟩

theorem reported_trans {u t s : State} (hu : Reported u t) (ht : Reported t s) : Reported u s := by
  obtain ⟨hpu, hlu⟩ := hu
  obtain ⟨hpt, hlt⟩ := ht
  exact ⟨hpu.trans (by rw [hpt]), hlu.trans (by rw [hlt])⟩

/-- An operation that leaves the purser and the logbook. -/
theorem reported_of {t s : State} (hpur : t.pur = s.pur) (hlog : t.log = s.log) : Reported t s := by
  rw [Reported, hpur, hlog]
  exact ⟨rfl, rfl⟩

theorem reported_ite {c : Prop} [Decidable c] {t u s : State} (ht : Reported t s) (hu : Reported u s) :
    Reported (if c then t else u) s := by
  split
  · exact ht
  · exact hu

theorem reported_postEntry (p q : Nat) (e : EvEntry) (s : State) : Reported (postEntry p q e s) s := ⟨rfl, rfl⟩

theorem reported_postSubscribed (u : Nat) (e : EvEntry) (n p : Nat) (s : State) : Reported (postSubscribed u e n p s) s := by
  induction n generalizing p s with
  | zero => exact reported_refl s
  | succ n ih => exact reported_trans (ih ..) (reported_ite (reported_postEntry ..) (reported_refl s))

theorem reported_setEvent (src : Source) (code : Nat) (s : State) : Reported (setEvent src code s) s := by
  have hshape := setEvent_shape src code s
  exact reported_of ((congrArg State.pur hshape).trans rfl) ((congrArg State.log hshape).trans rfl)

theorem reported_postEvent (src : Source) (code detail : Nat) (sev : Sev) (s : State) : Reported (postEvent src code detail sev s) s :=
  reported_ite (reported_postSubscribed ..) (reported_refl s)

theorem reported_setAlarm (src : Source) (code : Nat) (sev : Sev) (s : State) : Reported (setAlarm src code sev s) s :=
  reported_ite ⟨rfl, rfl⟩ (reported_refl s)

theorem reported_accuseFor (src : Source) (code : Nat) (sev : Sev) (s : State) : Reported (accuseFor src code sev s) s := by
  unfold accuseFor
  split
  · rename_i x _
    cases x <;> exact ⟨rfl, rfl⟩
  · exact reported_refl s

theorem reported_react (src : Source) (code detail : Nat) (sev : Sev) (s : State) : Reported (react src code detail sev s) s :=
  reported_trans (reported_accuseFor ..) (reported_trans (reported_setAlarm ..)
    (reported_trans (reported_postEvent ..) (reported_setEvent ..)))

theorem reported_logPut (r : LogRec) (s : State) : Reported (logPut r s) s := by
  unfold logPut
  split
  · exact ⟨rfl, rfl⟩
  · exact reported_ite ⟨rfl, rfl⟩ ⟨rfl, rfl⟩

theorem reported_raiseOwn (src : Source) (code detail : Nat) (own : Option (List Byte)) (s : State) :
    Reported (raiseOwn src code detail own s) s := by
  unfold raiseOwn
  split
  · exact reported_refl s
  · exact reported_trans (reported_react ..) (reported_logPut ..)

theorem reported_raise (src : Source) (code detail : Nat) (s : State) : Reported (raise src code detail s) s := reported_raiseOwn ..

theorem reported_raiseWithin (src : Source) (code detail key t window : Nat) (s : State) :
    Reported (raiseWithin src code detail key t window s) s := by
  unfold raiseWithin
  exact reported_ite (reported_refl s) (reported_trans (reported_raise ..) (reported_of rfl rfl))

theorem reported_raisePerSecond (src : Source) (code detail key : Nat) (s : State) : Reported (raisePerSecond src code detail key s) s :=
  reported_raiseWithin ..

theorem reported_complete (c : Pend) (st : Status) (d : List Byte) (b : Bool) (s : State) : Reported (complete c st d b s) s := by
  unfold complete
  exact reported_ite (reported_postEntry ..) ⟨rfl, rfl⟩

section
variable {t s : State} (h : Reported t s)
include h

theorem reported_slots : t.pur.slots = s.pur.slots := (congrArg Purser.slots h.1).trans rfl
theorem reported_ports : t.pur.ports = s.pur.ports := (congrArg Purser.ports h.1).trans rfl
theorem reported_move : t.pur.move = s.pur.move := (congrArg Purser.move h.1).trans rfl
theorem reported_hold (r : Nat) : t.hold r = s.hold r := (congrArg (fun p : Purser => Tab.get none p.holds r) h.1).trans rfl
theorem reported_flash : t.log.flash1 = s.log.flash1 ∧ t.log.flash2 = s.log.flash2 :=
  ⟨(congrArg Logbook.flash1 h.2).trans rfl, (congrArg Logbook.flash2 h.2).trans rfl⟩
theorem reported_copies : t.log.copy1 = s.log.copy1 ∧ t.log.copy2 = s.log.copy2 :=
  ⟨(congrArg Logbook.copy1 h.2).trans rfl, (congrArg Logbook.copy2 h.2).trans rfl⟩

end

/-! ### Findings of the cable die -/

/-- What a finding of the cable die can change. -/
def CableTold (t s : State) : Prop := t = { s with events := t.events, pur := t.pur, log := t.log }

theorem cableTold_refl (s : State) : CableTold s s := rfl

theorem cableTold_trans {u t s : State} (hu : CableTold u t) (ht : CableTold t s) : CableTold u s := by
  unfold CableTold at *
  rw [hu, ht]

theorem cableTold_ite {c : Prop} [Decidable c] {t u s : State} (ht : CableTold t s) (hu : CableTold u s) :
    CableTold (if c then t else u) s := by
  split
  · exact ht
  · exact hu

theorem cableTold_postSubscribed (u : Nat) (e : EvEntry) (n p : Nat) (s : State) : CableTold (postSubscribed u e n p s) s := by
  induction n generalizing p s with
  | zero => rfl
  | succ n ih => exact cableTold_trans (ih ..) (cableTold_ite rfl rfl)

theorem cableTold_logPut (r : LogRec) (s : State) : CableTold (logPut r s) s := by
  unfold logPut
  split
  · rfl
  · exact cableTold_ite rfl rfl

theorem cableTold_setEvent (code : Nat) (s : State) : CableTold (setEvent .cable code s) s := by
  unfold setEvent
  split <;> rfl

theorem cableTold_react (code detail : Nat) (sev : Sev) (s : State) : CableTold (react .cable code detail sev s) s :=
  cableTold_trans (cableTold_ite rfl rfl)
    (cableTold_trans (cableTold_ite (cableTold_postSubscribed ..) rfl) (cableTold_setEvent code s))

theorem cableTold_raiseOwn (code detail : Nat) (own : Option (List Byte)) (s : State) : CableTold (raiseOwn .cable code detail own s) s := by
  unfold raiseOwn
  split
  · rfl
  · exact cableTold_trans (cableTold_react ..) (cableTold_logPut ..)

theorem cableTold_raise (code detail : Nat) (s : State) : CableTold (raise .cable code detail s) s := cableTold_raiseOwn ..

end Sys2Proof.Machine
end

section
/-!
The backup domain and the real-time clock (17 R647 to R659, R672).
-/
namespace Sys2Proof.Machine
set_option Elab.async false -- one proof at a time, as in the tests: the compile is close to its memory limit

/-! ### The clock while time passes -/

/-- Time moves on, or does not. -/
theorem advance_or (n : Nat) (s : State) :
    advance n s = s ∨ ∃ now d, advance n s = { s with now := now, uptime := s.uptime.map (· + d), rtc := rtcRun d s.rtc } := by
  by_cases h : n * nsUnit ≤ s.now
  · exact .inl (if_pos h)
  · exact .inr ⟨_, _, if_neg h⟩

/-- Time that passes moves the counters of the clock alone. -/
theorem advance_rtc (n : Nat) (s : State) :
    (advance n s).rtc = { s.rtc with
      hold := (advance n s).rtc.hold, phase := (advance n s).rtc.phase, subsec := (advance n s).rtc.subsec,
      seconds := (advance n s).rtc.seconds } := by
  obtain h | ⟨_, _, h⟩ := advance_or n s
  · rw [h]
  · rw [h]
    rfl

@[simp] theorem advance_onVbat (n : Nat) (s : State) : (advance n s).rtc.onVbat = s.rtc.onVbat := (congrArg Rtc.onVbat (advance_rtc n s)).trans rfl
@[simp] theorem advance_switches (n : Nat) (s : State) : (advance n s).rtc.switches = s.rtc.switches :=
  (congrArg Rtc.switches (advance_rtc n s)).trans rfl
@[simp] theorem advance_staged (n : Nat) (s : State) : (advance n s).rtc.staged = s.rtc.staged := (congrArg Rtc.staged (advance_rtc n s)).trans rfl
@[simp] theorem advance_wakeCount (n : Nat) (s : State) : (advance n s).rtc.wakeCount = s.rtc.wakeCount :=
  (congrArg Rtc.wakeCount (advance_rtc n s)).trans rfl
@[simp] theorem advance_lowCount (n : Nat) (s : State) : (advance n s).rtc.lowCount = s.rtc.lowCount :=
  (congrArg Rtc.lowCount (advance_rtc n s)).trans rfl
@[simp] theorem advance_vbatLow (n : Nat) (s : State) : (advance n s).rtc.vbatLow = s.rtc.vbatLow := (congrArg Rtc.vbatLow (advance_rtc n s)).trans rfl
@[simp] theorem advance_bkpByte (n : Nat) (s : State) (o : Nat) : bkpByte (advance n s) o = bkpByte s o := by
  rw [bkpByte, bkpByte, advance_rtcMem]

theorem advance_uptime_none (n : Nat) (s : State) : (advance n s).uptime = none ↔ s.uptime = none := by
  obtain h | ⟨_, _, h⟩ := advance_or n s
  · rw [h]
  · rw [h]
    simp

theorem advance_uptime_isSome (n : Nat) (s : State) : (advance n s).uptime.isSome = s.uptime.isSome := by
  obtain h | ⟨_, _, h⟩ := advance_or n s
  · rw [h]
  · rw [h]
    simp

theorem cableWriteOk_congr {t s : State} (hA : t.roleA = s.roleA) (hB : t.roleB = s.roleB) (harb : t.arb = s.arb) (x : Side) :
    cableWriteOk t x = cableWriteOk s x := by simp only [cableWriteOk, State.activeSide, hA, hB, harb]

@[simp] theorem advance_cableWriteOk (n : Nat) (s : State) (x : Side) : cableWriteOk (advance n s) x = cableWriteOk s x :=
  cableWriteOk_congr (advance_roleA ..) (advance_roleB ..) (advance_arb ..) x

@[simp] theorem advance_rtcWriter (n : Nat) (r : Requester) (s : State) : rtcWriter r (advance n s) = rtcWriter r s := by
  cases r <;> simp [rtcWriter]

@[simp] theorem advance_bkpWriter (n o : Nat) (r : Requester) (s : State) : bkpWriter r o (advance n s) = bkpWriter r o s := by
  cases r <;> simp [bkpWriter]

/-! ### The backup memory (17 R647 to R651) -/

theorem bkpByte_bkpPut (o : Nat) (b : List Byte) (s : State) (n : Nat) :
    bkpByte (bkpPut o b s) n = if o ≤ n ∧ n < o + b.length then (b.getD (n - o) 0).toNat else bkpByte s n := by
  rw [bkpByte, bkpPut, bkpCheck, putBytes_get]
  split <;> rfl

theorem bkpByte_bkpPut_ne (o : Nat) (b : List Byte) (s : State) {n : Nat} (h : n < o ∨ o + b.length ≤ n) :
    bkpByte (bkpPut o b s) n = bkpByte s n := by
  rw [bkpByte_bkpPut, if_neg (by lia)]

theorem bkpByte_lt (s : State) (o : Nat) : bkpByte s o < 256 := (Tab.get 0 s.rtc.mem o).isLt

/-- Marking an interrupted start touches the flags of its own record only. -/
theorem markInterrupted_ne (x : Side) (s : State) {n : Nat} (h : n ≠ slipwayAt x + 4) : bkpByte (markInterrupted x s) n = bkpByte s n := by
  unfold markInterrupted
  dsimp only
  split
  · split
    · rfl
    · exact bkpByte_bkpPut_ne _ _ _ (by simp; lia)
  · rfl

theorem markInterrupted_flag (x : Side) {s : State} (h : bkpByte s (slipwayAt x) < 11) :
    bitOf (bkpByte (markInterrupted x s) (slipwayAt x + 4)) 4 = true := by
  unfold markInterrupted
  rw [if_pos h]
  dsimp only
  split
  · assumption
  · rename_i hclear
    have hlt := bkpByte_lt s (slipwayAt x + 4)
    rw [bkpByte_bkpPut, if_pos (by simp)]
    simp only [Nat.sub_self, List.getD_cons_zero, BitVec.toNat_ofNat, bitOf, beq_iff_eq] at hclear ⊢
    lia

theorem markInterrupted_done (x : Side) {s : State} (h : 11 ≤ bkpByte s (slipwayAt x)) : markInterrupted x s = s :=
  if_neg (by lia)

/-- Only the clock's block changes, and its seconds and its other counters stay. -/
theorem markInterrupted_shape (x : Side) (s : State) :
    markInterrupted x s = { s with rtc := (markInterrupted x s).rtc } ∧ (markInterrupted x s).rtc.seconds = s.rtc.seconds
      ∧ (markInterrupted x s).rtc.switches = s.rtc.switches := by
  unfold markInterrupted
  dsimp only
  split
  · split
    · exact ⟨rfl, rfl, rfl⟩
    · exact ⟨rfl, rfl, rfl⟩
  · exact ⟨rfl, rfl, rfl⟩

/-- Each landing's record after both were looked at. -/
theorem markBoth_flags (x : Side) (s : State) :
    (bkpByte s (slipwayAt x) < 11 → bitOf (bkpByte (markInterrupted .B (markInterrupted .A s)) (slipwayAt x + 4)) 4 = true)
      ∧ (11 ≤ bkpByte s (slipwayAt x) →
        bkpByte (markInterrupted .B (markInterrupted .A s)) (slipwayAt x + 4) = bkpByte s (slipwayAt x + 4)) := by
  cases x with
  | A =>
    rw [markInterrupted_ne .B _ (by decide)]
    exact ⟨markInterrupted_flag .A, fun h => by rw [markInterrupted_done .A h]⟩
  | B =>
    have hstage : bkpByte (markInterrupted .A s) (slipwayAt .B) = bkpByte s (slipwayAt .B) := markInterrupted_ne .A s (by decide)
    refine ⟨fun h => markInterrupted_flag .B (by rwa [hstage]), fun h => ?_⟩
    rw [markInterrupted_done .B (by rwa [hstage]), markInterrupted_ne .A s (by decide)]

theorem switchSupply_toVbat {s : State} (h : s.rtc.onVbat = false) :
    let t := switchSupply true s
    t = { s with rtc := t.rtc } ∧ t.rtc.onVbat = true ∧ t.rtc.switches = (s.rtc.switches + 1) % 65536 ∧ t.rtc.seconds = s.rtc.seconds
      ∧ ∀ x, (bkpByte s (slipwayAt x) < 11 → bitOf (bkpByte t (slipwayAt x + 4)) 4 = true)
        ∧ (11 ≤ bkpByte s (slipwayAt x) → bkpByte t (slipwayAt x + 4) = bkpByte s (slipwayAt x + 4)) := by
  obtain ⟨hA, hAsec, hAsw⟩ := markInterrupted_shape .A s
  obtain ⟨hB, hBsec, hBsw⟩ := markInterrupted_shape .B (markInterrupted .A s)
  have ht : switchSupply true s = { markInterrupted .B (markInterrupted .A s) with rtc := { (markInterrupted .B (markInterrupted .A s)).rtc with
      onVbat := true, switches := ((markInterrupted .B (markInterrupted .A s)).rtc.switches + 1) % 65536 } } := by
    simp [switchSupply, h]
  dsimp only
  rw [ht]
  refine ⟨?_, rfl, ?_, hBsec.trans hAsec, fun x => markBoth_flags x s⟩
  · rw [hB, hA]
  · dsimp only
    rw [hBsw, hAsw]

/-- What the reset of the domain leaves (17 R648). -/
theorem domainReset_leaves (s : State) :
    let t : State := { s with rtc := resetDomain s.rtc }
    t = { s with rtc := t.rtc } ∧ t.rtc.seconds = 0 ∧ t.rtc.subsec = 0 ∧ t.rtc.phase = 0 ∧ t.rtc.valid = false ∧ t.rtc.lost = true
      ∧ t.rtc.period = 0 ∧ t.rtc.wakeCount = 0 ∧ ∀ n, bkpByte t n = 0 :=
  ⟨rfl, rfl, rfl, rfl, rfl, rfl, rfl, rfl, fun _ => rfl⟩

theorem switchSupply_toMain (s : State) : switchSupply false s = { s with rtc := { s.rtc with onVbat := false } } := by
  unfold switchSupply
  split
  · rename_i h
    rw [← h]
  · rfl

theorem backupWrite_done {r : Requester} {o : Nat} {s : State} (ho : o < 256) (hal : o % 4 = 0) (hw : bkpWriter r o s = true) (w : Word) :
    backupWrite r o w s = bkpPut o (leBytes 4 w.toNat) s := by
  simp [backupWrite, ho, hal, hw]

theorem bkpPut_leaves (o : Nat) (b : List Byte) (s : State) : bkpPut o b s = { s with rtc := (bkpPut o b s).rtc }
    ∧ (bkpPut o b s).rtc.check = BitVec.ofNat 32 (crc32 (bytesAt (bkpPut o b s).rtc.mem 0 256)) := ⟨rfl, rfl⟩

theorem le_bkpPut (o : Nat) (w : Word) (s : State) : le (bkpPut o (leBytes 4 w.toNat) s).rtc.mem o 4 = w.toNat := by
  have hlt := w.isLt
  exact (le_leBytes ..).trans (Nat.mod_eq_of_lt (by simpa using hlt))

theorem bytesAt_bkpPut (o : Nat) (b : List Byte) (s : State) : bytesAt (bkpPut o b s).rtc.mem o b.length = b := by
  have hbytes := bytesAt_putBytes s.rtc.mem o b 0 b.length (by simp)
  exact hbytes.trans (by simp)

theorem backupWrite_refused {r : Requester} {o : Nat} {s : State} (h : 256 ≤ o ∨ o % 4 ≠ 0 ∨ bkpWriter r o s = false) (w : Word) :
    ((¬∃ p, r = .host p) → backupWrite r o w s = s) ∧ ∀ p, r = .host p → backupWrite r o w s = hostRefused p s := by
  have hno : (o < 256 && o % 4 == 0 && bkpWriter r o s) = false := by
    rcases h with h | h | h
    · simp [Nat.not_lt.mpr h]
    · simp [h]
    · simp [h]
  unfold backupWrite
  rw [hno]
  cases r <;> simp

/-! ### The time (17 R652 to R656) -/

theorem rtcWrite_pass {r : Requester} {s : State} (h : rtcWriter r s = true) (f : State → State) : rtcWrite r f s = f s := if_pos h

theorem rtcWrite_refused {r : Requester} {s : State} (h : rtcWriter r s = false) (f : State → State) :
    ((¬∃ p, r = .host p) → rtcWrite r f s = s) ∧ ∀ p, r = .host p → rtcWrite r f s = hostRefused p s := by
  unfold rtcWrite
  rw [h]
  cases r <;> simp

theorem cableTold_postLost (s : State) : CableTold (postLost s) s := by
  unfold postLost
  exact cableTold_ite rfl (cableTold_trans (cableTold_raiseOwn ..) rfl)

/-- A finding of the cable die leaves the clock. -/
theorem cableTold_rtc {t s : State} (h : CableTold t s) : t.rtc = s.rtc := (congrArg State.rtc h).trans rfl

theorem takeSnapshot_leaves (r : Requester) (s : State) :
    let t := takeSnapshot r s
    t.resp = { data := BitVec.ofNat 32 (rtcShown s).1 } ∧ t = { s with resp := t.resp, rtc := { s.rtc with snaps := t.rtc.snaps } }
      ∧ Tab.get none t.rtc.snaps (reqKey r) = some (rtcShown s) :=
  ⟨rfl, rfl, by simp [takeSnapshot]⟩

/-- The state of a commit before its records. -/
def timeSet (secs sub : Nat) (s : State) : State :=
  { s with rtc := { s.rtc with
    seconds := secs, subsec := sub, phase := 0, valid := true, hold := untilEdge s.rtc, was := some (cycleNow s, rtcShown s),
    wakeSeen := (secs * 32768 + sub) / 128 } }

theorem commitTime_told (secs sub writer : Nat) (s : State) : CableTold (commitTime secs sub writer s) (timeSet secs sub s) := by
  have hrecord : CableTold (postLost (raiseOwn .cable 0x0F02 s.rtc.seconds (some (leBytes 4 s.rtc.seconds ++ leBytes 2 s.rtc.subsec
      ++ leBytes 2 sub ++ leBytes 8 (uptimeMs s) ++ leBytes 1 writer ++ leBytes 1 (b2n s.rtc.valid) ++ leBytes 6 0))
      (timeSet secs sub s))) (timeSet secs sub s) :=
    cableTold_trans (cableTold_postLost _) (cableTold_raiseOwn ..)
  unfold commitTime
  exact cableTold_ite (cableTold_trans (cableTold_raise ..) hrecord) hrecord

theorem commitTime_rtc (secs sub writer : Nat) (s : State) : (commitTime secs sub writer s).rtc = (timeSet secs sub s).rtc :=
  cableTold_rtc (commitTime_told ..)

/-- A state that differs from `u` by its clock and by reports of the cable die. -/
theorem recorded_of {t v u : State} (h : CableTold t v) (hv : v = { u with rtc := v.rtc }) :
    t = { u with rtc := t.rtc, events := t.events, pur := t.pur, log := t.log } := by
  unfold CableTold at h
  rw [h, hv]

theorem commitStaged_leaves (r : Requester) (w : Word) {s : State} {staged : Tab Nat} (h : s.rtc.staged = staged) :
    let t := commitStaged r w s
    t = { s with rtc := t.rtc, events := t.events, pur := t.pur, log := t.log }
      ∧ t.rtc = { s.rtc with seconds := w.toNat, subsec := Tab.get 0 staged (reqKey r), phase := 0, valid := true, hold := untilEdge s.rtc,
                             was := some (cycleNow s, rtcShown s), wakeSeen := (w.toNat * 32768 + Tab.get 0 staged (reqKey r)) / 128,
                             staged := Tab.set 0 staged (reqKey r) 0 } := by
  subst h
  exact ⟨recorded_of (commitTime_told ..) rfl, (commitTime_rtc ..).trans rfl⟩

theorem stageSubsec_eq (r : Requester) (w : Word) {s : State} {staged : Tab Nat} (h : s.rtc.staged = staged) :
    stageSubsec r w s = { s with rtc := { s.rtc with staged := Tab.set 0 staged (reqKey r) (w.toNat % 32768) } } := by
  rw [← h]
  rfl

theorem countWake_idle {s : State} (h : wakeDue s.rtc = false) : ({ s with rtc := countWake s.rtc } : State) = s := by
  rw [countWake, h]
  rfl

theorem countWake_due {c : Rtc} (h : wakeDue c = true) {n} (hn : c.wakeCount = n) :
    countWake c = { c with wakeCount := n + 1, wakeBit := true, wakeSeen := wakeNext c } := by
  rw [← hn]
  exact if_pos h

theorem setWake_done {w : Nat} (h : w ≤ wakeMax) (s : State) :
    setWake w s = raise .cable 0x0F06 w { s with rtc := { s.rtc with period := w, wakeSeen := wakeTime s.rtc } } := if_pos h

/-- A write of the wake period: refused to a host, dropped from one who may not write or beyond the limit. -/
theorem wakeWrite_cases (r : Requester) (w : Word) (s : State) :
    (∀ p, r = .host p → wakeWrite r w s = hostRefused p s)
      ∧ ((¬∃ p, r = .host p) → rtcWriter r s = true → w.toNat % 2 ^ 25 ≤ wakeMax → wakeWrite r w s = setWake (w.toNat % 2 ^ 25) s)
      ∧ ((¬∃ p, r = .host p) → rtcWriter r s = false ∨ wakeMax < w.toNat % 2 ^ 25 → wakeWrite r w s = s) := by
  have hplain : (¬∃ p, r = .host p) → wakeWrite r w s = rtcWrite r (setWake (w.toNat % 2 ^ 25)) s := fun hno => by
    cases r with
    | host p => exact absurd ⟨p, rfl⟩ hno
    | _ => rfl
  refine ⟨fun p hp => by rw [hp]; rfl, fun hno hmay _ => (hplain hno).trans (rtcWrite_pass hmay _), fun hno hbad => (hplain hno).trans ?_⟩
  rcases hmay : rtcWriter r s with _ | _
  · exact (rtcWrite_refused hmay _).1 hno
  · have hover : ¬w.toNat % 2 ^ 25 ≤ wakeMax := by simpa [hmay] using hbad
    exact (rtcWrite_pass hmay _).trans (if_neg hover)

/-! ### VBAT (17 R649) -/

theorem measureVbat_onVbat {s : State} (h : s.rtc.onVbat = true) (v : Nat) :
    measureVbat v s = { s with rtc := { s.rtc with vbat := v % 512 } } := by
  simp [measureVbat, h]

theorem measureVbat_high {s : State} (h : s.rtc.onVbat = false) {v : Nat} (hv : 220 ≤ v) :
    measureVbat v s = { s with rtc := { s.rtc with vbat := v % 512, lowCount := 0, vbatLow := false } } := by
  simp [measureVbat, h, Nat.not_lt.mpr hv]

/-- The clock after one more low measurement. -/
def lowMeasured (v : Nat) (c : Rtc) : Rtc :=
  { c with vbat := v % 512, lowCount := min 10 (c.lowCount + 1), vbatLow := decide (9 ≤ c.lowCount) }

theorem measureVbat_low {s : State} (h : s.rtc.onVbat = false) {v : Nat} (hv : v < 220) :
    measureVbat v s = if 9 ≤ s.rtc.lowCount ∧ s.rtc.vbatLow = false then raise .cable 0x0F04 v { s with rtc := lowMeasured v s.rtc }
      else { s with rtc := lowMeasured v s.rtc } := by
  have hten : min 10 (s.rtc.lowCount + 1) = 10 ↔ 9 ≤ s.rtc.lowCount := by lia
  simp [measureVbat, h, hv, lowMeasured, hten]

/-! ### The commands (17 R672) -/

theorem exec_rtcSet {h : CmdHdr} {s : State} (hm : h.may 2 [1, 2, 3, 4, 5] s) (w : Word) {sub : Nat} (hsub : sub ≤ 32767) :
    exec (.rtcSet h w sub) s = .next ((commitTime w.toNat sub 0xFF (s.begun h)).answered h 0x0F01 .done []) :=
  congrArg Host.Outcome.next (hostCommand_may hm (by simp [hsub]) 0x0F01 _)

theorem exec_rtcSetWake {h : CmdHdr} {s : State} (hm : h.may 2 [1, 2, 3, 4, 5] s) {period : Nat} (hp : period ≤ wakeMax) :
    exec (.rtcSetWake h period) s = .next ((setWake period (s.begun h)).answered h 0x0F02 .done []) :=
  congrArg Host.Outcome.next (hostCommand_may hm (by simp [hp]) 0x0F02 _)

theorem exec_rtcBkpWrite {h : CmdHdr} {s : State} (hm : h.may 2 [1, 2, 3, 4, 5] s) {o : Nat} {data : List Byte} (hal : data.length % 4 = 0)
    (hlow : 4 ≤ data.length) (hhigh : data.length ≤ 128) (ho : 0x80 ≤ o) (hoal : o % 4 = 0) (hend : o + data.length ≤ 0x100) :
    exec (.rtcBkpWrite h o data) s = .next ((bkpPut o data (s.begun h)).answered h 0x0F03 .done []) := by
  have hlast : o ≤ 0xFC := by lia
  exact congrArg Host.Outcome.next (hostCommand_may hm (by simp [hal, hlow, hhigh, ho, hoal, hend, hlast]) 0x0F03 _)

theorem begun_rtcMem (h : CmdHdr) (s : State) : (s.begun h).rtc.mem = s.rtc.mem :=
  (congrArg Rtc.mem (accept_rtc h (advance h.at_ s))).trans (advance_rtcMem h.at_ s)

/-- Settles O58: each operation's own lemma, at the instant it is carried out. -/
theorem clockAndBackup : Obligations.ClockAndBackup := by
  unfold Obligations.ClockAndBackup
  intro at_ o sub period v r w data h s
  dsimp only
  have honVbat : (advance at_ s).rtc.onVbat = s.rtc.onVbat := advance_onVbat at_ s
  have hwriter : rtcWriter r (advance at_ s) = rtcWriter r s := advance_rtcWriter ..
  refine ⟨fun hv => ?_, fun hv => ?_, congrArg _ (switchSupply_toMain _), ⟨_, rfl, domainReset_leaves _⟩, fun ho hal hmay => ?_, fun hno => ?_,
    ⟨_, rfl, takeSnapshot_leaves r _⟩, fun hmay => ?_, fun hno => ?_, ?_, ⟨fun hdue => ?_, fun hdue => ?_⟩,
    ⟨fun hv => ?_, fun hv hhigh => ?_, fun hv hlow => ?_⟩, fun hno => ?_, fun hv hup => ?_,
    fun hm => ⟨fun hsub => ?_, fun hp => ?_, fun hal hlow hhigh ho hoal hend => ?_⟩⟩
  · exact congrArg Host.Outcome.next (if_pos (honVbat.trans hv))
  · obtain ⟨hown, hvbat, hsw, hsec, hflags⟩ := switchSupply_toVbat (honVbat.trans hv)
    simp only [advance_bkpByte, advance_switches] at hflags hsw
    exact ⟨_, rfl, hown, hvbat, hsw, hsec, hflags⟩
  · obtain ⟨hown, hcheck⟩ := bkpPut_leaves o (leBytes 4 w.toNat) (advance at_ s)
    refine ⟨_, congrArg Host.Outcome.next (backupWrite_done ho hal ((advance_bkpWriter ..).trans hmay) w), hown, le_bkpPut .., fun n hn => ?_, hcheck⟩
    rw [bkpByte_bkpPut_ne _ _ _ (by simpa using hn), advance_bkpByte]
  · rw [← advance_bkpWriter at_ o r s] at hno
    obtain ⟨hkept, hrefused⟩ := backupWrite_refused hno w
    exact ⟨fun hh => congrArg Host.Outcome.next (hkept hh), fun p hp => congrArg Host.Outcome.next (hrefused p hp)⟩
  · have hpass := rtcWrite_pass (hwriter.trans hmay)
    exact ⟨congrArg Host.Outcome.next ((hpass _).trans (stageSubsec_eq r w (advance_staged at_ s))), _,
      congrArg Host.Outcome.next (hpass _), commitStaged_leaves r w (advance_staged at_ s)⟩
  · have hrefused := rtcWrite_refused (hwriter.trans hno)
    exact ⟨fun hh => ⟨congrArg _ ((hrefused _).1 hh), congrArg _ ((hrefused _).1 hh)⟩,
      fun p hp => ⟨congrArg _ ((hrefused _).2 p hp), congrArg _ ((hrefused _).2 p hp)⟩⟩
  · obtain ⟨hrefused, hset, hkept⟩ := wakeWrite_cases r w (advance at_ s)
    rw [hwriter] at hset hkept
    exact ⟨fun p hp => congrArg _ (hrefused p hp), fun hh hmay hle => congrArg _ ((hset hh hmay hle).trans (setWake_done hle _)),
      fun hh hbad => congrArg _ (hkept hh hbad)⟩
  · exact congrArg Host.Outcome.next (countWake_idle hdue)
  · exact congrArg (fun c => Host.Outcome.next ({ advance at_ s with rtc := c } : State)) (countWake_due hdue (advance_wakeCount at_ s))
  · exact congrArg Host.Outcome.next (measureVbat_onVbat (honVbat.trans hv) v)
  · exact congrArg Host.Outcome.next (measureVbat_high (honVbat.trans hv) hhigh)
  · have hlow' := measureVbat_low (honVbat.trans hv) hlow
    simp only [advance_lowCount, advance_vbatLow, lowMeasured] at hlow'
    refine ⟨fun hfew => congrArg _ (hlow'.trans (if_neg ?_)), fun hmany hnot => congrArg _ (hlow'.trans (if_pos ⟨hmany, hnot⟩))⟩
    rintro ⟨hmany, hnot⟩
    simp [hnot, Nat.not_lt.mpr hmany] at hfew
  · exact congrArg Host.Outcome.next (if_pos (by simpa [advance_uptime_none] using hno))
  · exact congrArg Host.Outcome.next (if_neg (by simp [hv, advance_uptime_none, hup]))
  · exact ⟨_, exec_rtcSet hm w hsub, recorded_of (commitTime_told ..) rfl, commitTime_rtc ..⟩
  · refine ⟨_, exec_rtcSetWake hm hp, ?_⟩
    rw [setWake_done hp]
    exact ⟨recorded_of (cableTold_raise ..) rfl, cableTold_rtc (cableTold_raise ..)⟩
  · obtain ⟨hown, hcheck⟩ := bkpPut_leaves o data (s.begun h)
    refine ⟨_, exec_rtcBkpWrite hm hal hlow hhigh ho hoal hend, hown, bytesAt_bkpPut .., fun n hn => ?_, hcheck⟩
    rw [bkpByte_bkpPut_ne _ _ _ hn, bkpByte, begun_rtcMem, bkpByte]

end Sys2Proof.Machine
end

section
/-!
Masks: a bit put into a number that has it clear, and one taken out of a number that has it set.
-/
namespace Sys2Proof.Machine
set_option Elab.async false -- one proof at a time, as in the tests: the compile is close to its memory limit

theorem testBit_add_pow {n b : Nat} (h : n.testBit b = false) (i : Nat) : (n + 2 ^ b).testBit i = (decide (i = b) || n.testBit i) := by
  induction b generalizing n i with
  | zero =>
    have heven : n % 2 = 0 := by simpa [Nat.testBit_zero] using h
    cases i with
    | zero => simp [Nat.testBit_zero]; lia
    | succ i => rw [Nat.testBit_succ, Nat.testBit_succ, show (n + 2 ^ 0) / 2 = n / 2 by lia]; simp
  | succ b ih =>
    have hhalf : (n + 2 ^ (b + 1)) / 2 = n / 2 + 2 ^ b := by lia
    rw [Nat.testBit_succ] at h
    cases i with
    | zero => rw [Nat.testBit_zero, Nat.testBit_zero, show (n + 2 ^ (b + 1)) % 2 = n % 2 by lia]; simp
    | succ i => rw [Nat.testBit_succ, Nat.testBit_succ, hhalf, ih h]; simp

theorem bitOf_add_pow {n b : Nat} (h : bitOf n b = false) (i : Nat) : bitOf (n + 2 ^ b) i = (decide (i = b) || bitOf n i) := by
  rw [bitOf_eq_testBit] at h
  rw [bitOf_eq_testBit, bitOf_eq_testBit, testBit_add_pow h]

theorem bitOf_sub_pow {n b : Nat} (h : bitOf n b = true) (i : Nat) : bitOf (n - 2 ^ b) i = (decide (i ≠ b) && bitOf n i) := by
  rw [bitOf_eq_testBit] at h
  have hpow : n - 2 ^ b = n - (n &&& 2 ^ b) := by rw [Nat.and_two_pow, h]; simp
  rw [hpow, bitOf_eq_testBit, bitOf_eq_testBit, testBit_sub_and, Nat.testBit_two_pow, Bool.and_comm, ← decide_not]
  simp [eq_comm]

/-- A bit set in a mask leaves those set before. -/
theorem setBitIn_keeps {t : Tab Nat} {v c : Nat} (h : bitOf (Tab.get 0 t v) c = true) (u b : Nat) :
    bitOf (Tab.get 0 (setBitIn t u b) v) c = true := by
  unfold setBitIn
  dsimp only
  rw [Tab.get_set]
  split
  · rename_i hv
    subst hv
    split
    · exact h
    · rename_i hb
      rw [bitOf_add_pow (Bool.eq_false_iff.mpr hb), h, Bool.or_true]
  · exact h

end Sys2Proof.Machine
end

section
/-!
The logbook: its records, its limits and its two copies (17 R661 to R673).
-/
namespace Sys2Proof.Machine
set_option Elab.async false -- one proof at a time, as in the tests: the compile is close to its memory limit

/-- The entries that `p` names taken out of a table. -/
theorem Tab.get_filter_not {α : Type} (d : α) (p : Nat → Bool) (t : Tab α) (n : Nat) :
    Tab.get d (t.filter fun e => !p e.1) n = if p n then d else Tab.get d t n := by
  induction t with
  | nil => simp
  | cons e t ih =>
    obtain ⟨k, v⟩ := e
    by_cases hk : p k = true
    · rw [List.filter_cons_of_neg (by simp [hk]), ih]
      by_cases hn : k = n
      · subst hn
        simp [hk]
      · rw [Tab.get, if_neg hn]
    · rw [List.filter_cons_of_pos (by simp [hk]), Tab.get, Tab.get, ih]
      by_cases hn : k = n
      · subst hn
        simp [hk]
      · simp [hn]

/-! ### The copies (17 R660, R663, R665) -/

/-- Both copies are in use and neither bank has withdrawn. -/
def bothLive (s : State) : Prop := s.log.copy1 = true ∧ s.log.copy2 = true ∧ s.bank1 = true ∧ s.bank2 = true

theorem bothLive_copyLive {s : State} (h : bothLive s) : copyLive s = (true, true) := by
  obtain ⟨hc1, hc2, hb1, hb2⟩ := h
  simp [copyLive, hc1, hc2, hb1, hb2]

theorem bothLive_advance {s : State} (h : bothLive s) (n : Nat) : bothLive (advance n s) := by
  simpa [bothLive] using h

theorem begun_log (h : CmdHdr) (s : State) : (s.begun h).log = s.log := (accept_log ..).trans (advance_log ..)

theorem begun_bank1 (h : CmdHdr) (s : State) : (s.begun h).bank1 = s.bank1 := (accept_bank1 ..).trans (advance_bank1 ..)

theorem begun_bank2 (h : CmdHdr) (s : State) : (s.begun h).bank2 = s.bank2 := (accept_bank2 ..).trans (advance_bank2 ..)

theorem bothLive_begun {s : State} (h : bothLive s) (c : CmdHdr) : bothLive (s.begun c) := by
  rw [bothLive, begun_log, begun_bank1, begun_bank2]
  exact h

/-- A write that both copies took leaves both in use. -/
theorem dropCopies_ok (s : State) : dropCopies true true s = s := by simp [dropCopies]

theorem dropCopies_second {s : State} (h : bothLive s) :
    dropCopies true false s = raise .cable 0x1003 2 { s with log := { s.log with copy2 := false } } := by
  unfold dropCopies
  rw [bothLive_copyLive h]
  simp

/-- Programmed bytes stand after those of their sector and nowhere else. -/
theorem get_program (n : Nat) (b : List Byte) (f : Tab (List Byte)) (m : Nat) :
    Tab.get [] (program n b f) m = if m = n then Tab.get [] f n ++ b else Tab.get [] f m := Tab.get_upd ..

/-! ### One record (17 R661 to R668) -/

/-- The state of a record written within its sector, before a failed copy goes out of use. -/
def stored (r : LogRec) (ok1 ok2 : Bool) (s : State) : State :=
  let t := storeRec ok1 ok2 (if s.log.used = 0 then sectorHead s.log.nextSeq else []) (recStored r s.log.nextSeq (Tab.get 0 s.log.supp r.code)) s
  { t with log := { t.log with
      nextSeq := (s.log.nextSeq + 1) % 2 ^ 48, used := max 16 s.log.used + recBytes r, started := true,
      wrote := Tab.upd 0 s.log.wrote r.code (· + 1), supp := Tab.set 0 s.log.supp r.code 0 } }

/-- The bytes that a record written now adds to its sector. -/
def programmed (r : LogRec) (l : Logbook) : List Byte :=
  (if l.used = 0 then sectorHead l.nextSeq else []) ++ recStored r l.nextSeq (Tab.get 0 l.supp r.code)

theorem writeRec_fits {r : LogRec} {s : State} (h : max 16 s.log.used + recBytes r ≤ 65536) (ok1 ok2 : Bool) :
    writeRec r ok1 ok2 s = dropCopies ok1 ok2 (stored r ok1 ok2 s) := by
  unfold writeRec
  rw [if_neg (Nat.not_lt.mpr h)]
  rfl

theorem stored_bothLive {r : LogRec} {s : State} (h : bothLive s) (ok1 ok2 : Bool) : bothLive (stored r ok1 ok2 s) := h

theorem stored_flash1 {s : State} (h : bothLive s) (r : LogRec) (ok2 : Bool) :
    (stored r true ok2 s).log.flash1 = program s.log.sector (programmed r s.log) s.log.flash1 := by
  simp [stored, storeRec, bothLive_copyLive h, programmed]

theorem stored_flash2 {s : State} (h : bothLive s) (r : LogRec) (ok1 : Bool) :
    (stored r ok1 true s).log.flash2 = program s.log.sector (programmed r s.log) s.log.flash2 := by
  simp [stored, storeRec, bothLive_copyLive h, programmed]

theorem reported_postLost (s : State) : Reported (postLost s) s := by
  unfold postLost
  exact reported_ite (reported_refl s) (reported_trans (reported_raiseOwn ..) ⟨rfl, rfl⟩)

theorem postLost_none {s : State} (h : s.log.lostPending = 0) : postLost s = s := by simp [postLost, h]

/-- A finding of the cable die leaves the event bits set before. -/
theorem bitOf_raiseOwn_cable {s : State} {v c : Nat} (h : bitOf (Tab.get 0 s.events v) c = true) (code detail : Nat) (own : Option (List Byte)) :
    bitOf (Tab.get 0 (raiseOwn .cable code detail own s).events v) c = true := by
  unfold raiseOwn
  split
  · exact h
  · simp only [react, accuseFor_events, setAlarm_events, postEvent_events, setEvent]
    split
    · simpa using h
    · exact setBitIn_keeps (by simpa using h) ..

theorem bitOf_postLost {s : State} {v c : Nat} (h : bitOf (Tab.get 0 s.events v) c = true) :
    bitOf (Tab.get 0 (postLost s).events v) c = true := by
  unfold postLost
  split
  · exact h
  · exact bitOf_raiseOwn_cable (by exact h) ..

/-- The state in which the oldest record is judged: it is out of the buffer, and the counts are those of the running second. -/
def judged (rest : List LogRec) (s : State) : State := limitSecond { s with log := { s.log with buffer := rest } }

/-- The records of a code written in the running second. -/
def wroteNow (c : Nat) (s : State) : Nat := if uptimeMs s / 1000 ≠ s.log.second then 0 else Tab.get 0 s.log.wrote c

theorem judged_eq (rest : List LogRec) (s : State) :
    judged rest s = { s with log := { s.log with buffer := rest, second := (judged rest s).log.second, wrote := (judged rest s).log.wrote } } := by
  unfold judged limitSecond
  dsimp only
  split <;> rfl

theorem judged_wrote (rest : List LogRec) (s : State) (c : Nat) : Tab.get 0 (judged rest s).log.wrote c = wroteNow c s := by
  unfold wroteNow
  split
  · rename_i hnew
    exact (congrArg (fun t : State => Tab.get 0 t.log.wrote c) (if_neg hnew)).trans (Tab.get_nil 0 c)
  · rename_i hsame
    exact (congrArg (fun t : State => Tab.get 0 t.log.wrote c) (if_pos (not_not.mp hsame))).trans rfl

/-- The logbook waits: a scan or a clear runs, the buffer is empty, or the leg of the oldest record runs still. -/
theorem logbookStep_waits {s : State} (h : s.log.scanning = true ∨ s.log.clearing ≠ none ∨ s.log.buffer = []
    ∨ ∃ q ∈ s.log.buffer.head?, legOpen q s = true) (ok1 ok2 : Bool) : logbookStep ok1 ok2 s = s := by
  unfold logbookStep
  split
  · rfl
  · rename_i hfree
    split
    · rfl
    · rename_i q rest hbuf
      obtain hscan | hclear | hempty | ⟨q', hq, hopen⟩ := h
      · simp [hscan] at hfree
      · simp [Option.isSome_iff_ne_none.mpr hclear] at hfree
      · simp [hempty] at hbuf
      · rw [hbuf, List.head?_cons, Option.mem_some_iff] at hq
        rw [if_pos (by rw [hq]; exact hopen)]

section
variable {s : State} {q : LogRec} {rest : List LogRec} (hscan : s.log.scanning = false) (hclear : s.log.clearing = none)
  (hbuf : s.log.buffer = q :: rest) (hover : legOpen q s = false)
include hscan hclear hbuf hover

theorem logbookStep_writes (hlimit : neverSuppressed q.code = true ∨ limitOf s.log q.code = 255 ∨ wroteNow q.code s < limitOf s.log q.code)
    (ok1 ok2 : Bool) : logbookStep ok1 ok2 s = postLost (writeRec q ok1 ok2 (judged rest s)) := by
  have hkeeps : limitOf (judged rest s).log q.code = limitOf s.log q.code := by rw [judged_eq]; rfl
  have hjudge : (!neverSuppressed q.code && decide (limitOf (judged rest s).log q.code ≠ 255)
      && decide (limitOf (judged rest s).log q.code ≤ Tab.get 0 (judged rest s).log.wrote q.code)) = false := by
    rw [hkeeps, judged_wrote]
    rcases hlimit with h | h | h
    · simp [h]
    · simp [h]
    · simp [Nat.not_le.mpr h]
  unfold logbookStep
  rw [hscan, hclear, hbuf]
  simp only [Option.isSome_none, Bool.or_self, Bool.false_eq_true, if_false, hover]
  exact congrArg postLost (if_neg (Bool.eq_false_iff.mp hjudge))

theorem logbookStep_suppresses (hnever : neverSuppressed q.code = false) (hlim : limitOf s.log q.code ≠ 255)
    (hfull : limitOf s.log q.code ≤ wroteNow q.code s) (ok1 ok2 : Bool) :
    logbookStep ok1 ok2 s = postLost (suppressRec q (judged rest s)) := by
  have hkeeps : limitOf (judged rest s).log q.code = limitOf s.log q.code := by rw [judged_eq]; rfl
  have hjudge : (!neverSuppressed q.code && decide (limitOf (judged rest s).log q.code ≠ 255)
      && decide (limitOf (judged rest s).log q.code ≤ Tab.get 0 (judged rest s).log.wrote q.code)) = true := by
    rw [hkeeps, judged_wrote]
    simp [hnever, hlim, hfull]
  unfold logbookStep
  rw [hscan, hclear, hbuf]
  simp only [Option.isSome_none, Bool.or_self, Bool.false_eq_true, if_false, hover]
  exact congrArg postLost (if_pos hjudge)

end

theorem judged_bothLive {s : State} (h : bothLive s) (rest : List LogRec) : bothLive (judged rest s) := by
  rw [judged_eq]
  exact h

/-- A record that fits, put into both copies. -/
theorem judged_stored {s : State} (hlive : bothLive s) (hlost : s.log.lostPending = 0) {q : LogRec} (hfits : max 16 s.log.used + recBytes q ≤ 65536)
    (rest : List LogRec) :
    let t := postLost (writeRec q true true (judged rest s))
    t = { s with free := t.free, log := t.log } ∧ t.log.buffer = rest
      ∧ t.log.flash1 = program s.log.sector (programmed q s.log) s.log.flash1 ∧ t.log.flash2 = program s.log.sector (programmed q s.log) s.log.flash2
      ∧ t.log.sector = s.log.sector ∧ t.log.used = max 16 s.log.used + recBytes q ∧ t.log.nextSeq = (s.log.nextSeq + 1) % 2 ^ 48 := by
  have hjudged := judged_eq rest s
  have hfits' : max 16 (judged rest s).log.used + recBytes q ≤ 65536 := by rw [hjudged]; exact hfits
  have hwritten : postLost (writeRec q true true (judged rest s)) = stored q true true (judged rest s) := by
    rw [writeRec_fits hfits', dropCopies_ok]
    exact postLost_none (by rw [hjudged]; exact hlost)
  dsimp only
  rw [hwritten, stored_flash1 (judged_bothLive hlive rest), stored_flash2 (judged_bothLive hlive rest)]
  rw [hjudged]
  exact ⟨rfl, rfl, rfl, rfl, rfl, rfl, rfl⟩

/-- A record that fits and that copy 2 failed to take: copy 2 goes out of use, and its loss is reported. -/
theorem judged_dropped {s : State} (hlive : bothLive s) {q : LogRec} (hfits : max 16 s.log.used + recBytes q ≤ 65536) (rest : List LogRec) :
    let t := postLost (writeRec q true false (judged rest s))
    t.log.copy1 = true ∧ t.log.copy2 = false ∧ t.log.flash1 = program s.log.sector (programmed q s.log) s.log.flash1
      ∧ bitOf (Tab.get 0 t.events 0x10) 2 = true := by
  have hjudged := judged_eq rest s
  have hlive' := judged_bothLive hlive rest
  have hfits' : max 16 (judged rest s).log.used + recBytes q ≤ 65536 := by rw [hjudged]; exact hfits
  have hreported : Reported (postLost (writeRec q true false (judged rest s)))
      { stored q true false (judged rest s) with log := { (stored q true false (judged rest s)).log with copy2 := false } } := by
    rw [writeRec_fits hfits', dropCopies_second (stored_bothLive hlive' ..)]
    exact reported_trans (reported_postLost _) (reported_raise ..)
  obtain ⟨hcopy1, hcopy2⟩ := reported_copies hreported
  have hflash := (reported_flash hreported).1.trans (stored_flash1 hlive' q false)
  refine ⟨hcopy1.trans hlive'.1, hcopy2, hflash.trans ?_, ?_⟩
  · rw [hjudged]
    rfl
  · rw [writeRec_fits hfits', dropCopies_second (stored_bothLive hlive' ..)]
    exact bitOf_postLost (raise_cable_bit (sev := .caution) rfl rfl _ _)

/-- A record at its limit: counted, and no number taken. -/
theorem judged_suppressed {s : State} (hlost : s.log.lostPending = 0) (q : LogRec) (rest : List LogRec) :
    let t := postLost (suppressRec q (judged rest s))
    t = { s with log := t.log } ∧ t.log.buffer = rest ∧ t.log.flash1 = s.log.flash1 ∧ t.log.flash2 = s.log.flash2
      ∧ t.log.nextSeq = s.log.nextSeq ∧ t.log.suppressed = satAdd 0xFFFFFFFF s.log.suppressed 1 := by
  have hlost' : (suppressRec q (judged rest s)).log.lostPending = 0 := by
    rw [judged_eq]
    exact hlost
  dsimp only
  rw [postLost_none hlost', judged_eq]
  exact ⟨rfl, rfl, rfl, rfl, rfl, rfl⟩

/-! ### The limits and the reads (17 R668 to R670) -/

theorem limitOf_setLimit (l : Logbook) (code limit c : Nat) :
    limitOf { l with limits := setLimit code limit l.limits } c = if c = code then limit else limitOf l c := by
  unfold limitOf setLimit
  by_cases hlim : limit = defaultLimit code
  · simp only [if_pos hlim, Tab.get_set]
    by_cases hc : c = code
    · simp [hc, hlim]
    · simp [hc]
  · simp only [if_neg hlim, Tab.get_set]
    by_cases hc : c = code
    · simp [hc]
    · simp [hc]

theorem limitWritten_none {s : State} (h : s.log.limitCmds = []) (ok1 ok2 : Bool) : limitWritten ok1 ok2 s = s := by
  unfold limitWritten
  rw [h]

theorem limitWritten_ok {s : State} (hlive : bothLive s) {c : Pend} {rest : List Pend} (hcmds : s.log.limitCmds = c :: rest) :
    limitWritten true true s = complete c .done [] false (storeLimits true true { s with log := { s.log with limitCmds := rest } }) := by
  unfold limitWritten
  rw [hcmds, bothLive_copyLive hlive]
  simp [dropCopies_ok]

theorem storeLimits_ok {s : State} (hlive : bothLive s) :
    storeLimits true true s = { s with free := s.free + 8200, log := { s.log with
      flash1 := Tab.set [] s.log.flash1 1 (limitImage s.log.limits), flash2 := Tab.set [] s.log.flash2 1 (limitImage s.log.limits) } } := by
  unfold storeLimits
  rw [bothLive_copyLive hlive]
  simp

theorem limitWritten_stored {s : State} (hlive : bothLive s) {c : Pend} {rest : List Pend} (hcmds : s.log.limitCmds = c :: rest) :
    ∃ u : State, limitWritten true true s = complete c .done [] false u ∧ u = { s with free := u.free, log := { s.log with
      limitCmds := rest, flash1 := Tab.set [] s.log.flash1 1 (limitImage s.log.limits),
      flash2 := Tab.set [] s.log.flash2 1 (limitImage s.log.limits) } } := by
  refine ⟨_, limitWritten_ok hlive hcmds, ?_⟩
  rw [storeLimits_ok (s := { s with log := { s.log with limitCmds := rest } }) hlive]

theorem heldRecs_congr {t s : State} (hlog : t.log = s.log) (h1 : t.bank1 = s.bank1) (h2 : t.bank2 = s.bank2) : heldRecs t = heldRecs s := by
  simp only [heldRecs, copyLive, hlog, h1, h2]

theorem heldRecs_begun (h : CmdHdr) (s : State) : heldRecs (s.begun h) = heldRecs s :=
  heldRecs_congr (begun_log h s) (begun_bank1 h s) (begun_bank2 h s)

/-! ### The clear (17 R671) -/

theorem eraseSectors_eq {s : State} (hlive : bothLive s) (p : Nat → Bool) :
    eraseSectors p s = { s with log := { s.log with
      flash1 := s.log.flash1.filter (fun e => !p e.1), flash2 := s.log.flash2.filter (fun e => !p e.1) } } := by
  unfold eraseSectors
  rw [bothLive_copyLive hlive]
  rfl

theorem nextSector_ne (n : Nat) : nextSector n ≠ n := by
  unfold nextSector
  split <;> lia

@[simp] theorem react_log (src : Source) (code detail : Nat) (sev : Sev) (s : State) : (react src code detail sev s).log = s.log := by
  have htold : (setAlarm src code sev (postEvent src code detail sev (setEvent src code s))).log = s.log := by
    unfold setAlarm postEvent
    (repeat' split) <;> simp
  unfold react accuseFor
  split
  · rw [accuse_log, htold]
  · exact htold

/-- The record of a clear as its partition asked for it. -/
def clearRec (c : Pend) (s : State) : LogRec :=
  faultRec .cable 0x1002 c.part (some (leBytes 1 c.part ++ leBytes 7 0 ++ leBytes 8 (s.log.nextSeq - 1) ++ leBytes 8 (uptimeMs s))) s

theorem clearRec_bytes (c : Pend) (s : State) : recBytes (clearRec c s) = 40 := by simp [clearRec, faultRec, recBytes]

theorem clearRec_head (c : Pend) (s : State) (seq supp : Nat) :
    (recStored (clearRec c s) seq supp).take 10 = [0x3C, 5, 0x02, 0x10] ++ leBytes 6 seq := by
  simp [clearRec, faultRec, recStored, leBytes]

/-- The state in which the clear's record is written: the next sector begins. -/
def clearing (s : State) : State := { s with log := { s.log with clearing := none, sector := nextSector s.log.sector, used := 0 } }

theorem clearEnd_none {s : State} (h : s.log.clearing = none) (ok1 ok2 : Bool) : clearEnd ok1 ok2 s = s := by
  unfold clearEnd
  rw [h]

theorem clearEnd_some {s : State} (hlive : bothLive s) {c : Pend} (hc : s.log.clearing = some c) :
    clearEnd true true s = complete c .done [] false
      ((react .cable 0x1002 c.part .caution (eraseSectors (· == s.log.sector) (stored (clearRec c s) true true (clearing s)))).setHold 6 none) := by
  have hfits : max 16 (clearing s).log.used + recBytes (clearRec c s) ≤ 65536 := by
    rw [clearRec_bytes]
    exact (by decide : max 16 0 + 40 ≤ 65536)
  unfold clearEnd
  rw [hc, bothLive_copyLive hlive, ← dropCopies_ok (stored _ _ _ _), ← writeRec_fits hfits]
  rfl

/-- A sector after the clear's end: the new one holds the record, the old one nothing. -/
theorem get_cleared (f : Tab (List Byte)) (old n : Nat) (b : List Byte) :
    Tab.get [] ((program (nextSector old) b f).filter fun e => !(e.1 == old)) n
      = if n = old then [] else if n = nextSector old then Tab.get [] f n ++ b else Tab.get [] f n := by
  rw [Tab.get_filter_not [] (· == old), get_program]
  simp only [beq_iff_eq]
  split
  · rfl
  · split
    · rename_i hn
      rw [hn]
    · rfl

/-- What the end of a clear leaves in one copy, whose sectors were `f`. -/
theorem get_clearing (f : Tab (List Byte)) (old n : Nat) (head b : List Byte) :
    Tab.get [] ((program (nextSector old) (head ++ b) f).filter fun e => !(e.1 == old)) n
      = if n = old then [] else if n = nextSector old then Tab.get [] f n ++ head ++ b else Tab.get [] f n := by
  rw [get_cleared, List.append_assoc]

/-- What the end of a clear leaves of the logbook: the next sector with one record in it, the sector before it erased (17 R671). -/
structure Cleared (u : State) (b : List Byte) (l : Logbook) : Prop where
  clearing : u.log.clearing = none
  hold : u.hold 6 = none
  head : b.take 10 = [0x3C, 5, 0x02, 0x10] ++ leBytes 6 l.nextSeq
  nextSeq : u.log.nextSeq = (l.nextSeq + 1) % 2 ^ 48
  sector : u.log.sector = nextSector l.sector
  buffer : u.log.buffer = l.buffer
  flash1 : ∀ n, Tab.get [] u.log.flash1 n = if n = l.sector then [] else if n = nextSector l.sector then
    Tab.get [] l.flash1 n ++ sectorHead l.nextSeq ++ b else Tab.get [] l.flash1 n
  flash2 : ∀ n, Tab.get [] u.log.flash2 n = if n = l.sector then [] else if n = nextSector l.sector then
    Tab.get [] l.flash2 n ++ sectorHead l.nextSeq ++ b else Tab.get [] l.flash2 n

theorem clearEnd_cleared {s : State} (hlive : bothLive s) {c : Pend} (hc : s.log.clearing = some c) :
    ∃ u b, clearEnd true true s = complete c .done [] false u ∧ Cleared u b s.log := by
  refine ⟨_, recStored (clearRec c s) s.log.nextSeq (Tab.get 0 s.log.supp 0x1002), clearEnd_some hlive hc, ?_⟩
  have hstored1 := stored_flash1 (s := Machine.clearing s) hlive (clearRec c s) true
  have hstored2 := stored_flash2 (s := Machine.clearing s) hlive (clearRec c s) true
  rw [eraseSectors_eq (stored_bothLive (s := Machine.clearing s) hlive ..), hstored1, hstored2]
  constructor
  case hold => simp [State.setHold, State.hold]
  case head => exact clearRec_head ..
  all_goals simp only [setHold_log, react_log]
  case clearing => rfl
  case nextSeq => rfl
  case sector => rfl
  case buffer => rfl
  case flash1 => exact fun n => get_clearing ..
  case flash2 => exact fun n => get_clearing ..

/-! ### The commands, and the statement -/

theorem exec_logRead {h : CmdHdr} {s : State} (hm : h.may 1 [1, 2, 3, 4, 5] s) {len : Nat} (hlow : 16 ≤ len) (hhigh : len ≤ 1024) (first : Nat) :
    exec (.logRead h first len) s
      = .next ((s.begun h).answered h 0x1001 .done (fitRecs ((heldRecs s).filter (fun q => first ≤ q.seq)) len)) := by
  rw [← heldRecs_begun h s]
  exact congrArg Host.Outcome.next (hostCommand_may hm (by simp [hlow, hhigh]) 0x1001 _)

/-- The state after LOG_SET_LIMIT: the limit of one code, and the command that waits for the table (17 R669). -/
def limitSet (code limit : Nat) (c : Pend) (s : State) : State :=
  { s with log := { s.log with limits := setLimit code limit s.log.limits, limitCmds := s.log.limitCmds ++ [c] } }

theorem limitSet_leaves (code limit : Nat) (c : Pend) (s : State) :
    let u := limitSet code limit c s
    u = { s with log := u.log } ∧ limitOf u.log code = limit ∧ (∀ n, n ≠ code → limitOf u.log n = limitOf s.log n)
      ∧ u.log.limitCmds = s.log.limitCmds ++ [c] :=
  ⟨rfl, (limitOf_setLimit ..).trans (if_pos rfl), fun _ hn => (limitOf_setLimit ..).trans (if_neg hn), rfl⟩

theorem exec_logSetLimit {h : CmdHdr} {s : State} (hm : h.may 2 [1, 2, 3, 4, 5] s) {code limit : Nat} (hlimit : limit ≤ 255)
    (hcode : severityOf code ≠ none) (hspace : s.log.limits.length < 1024 ∨ Tab.get 0 s.log.limits code ≠ 0 ∨ limit = defaultLimit code) :
    exec (.logSetLimit h code limit) s
      = .next ((limitSet code limit (cmdOf h 0x1002) (s.begun h)).answered h 0x1002 .accepted []) := by
  refine congrArg Host.Outcome.next (hostCommand_may hm ?_ 0x1002 _)
  simp [hlimit, Option.isSome_iff_ne_none.mpr hcode, hspace, or_assoc]

/-- The state of a clear that begins. -/
def clearBegun (h : CmdHdr) (s : State) : State :=
  let t := eraseSectors (fun n => 2 ≤ n && n ≠ s.log.sector) (takeHold 6 h.part s)
  { t with log := { t.log with clearing := some (cmdOf h 0x1003) } }

theorem hostCommand_begun {h : CmdHdr} {n : Nat} {modes : List Nat} {s : State} (hm : h.may n modes s) {asks : State → Asks}
    (hasks : asks (advance h.at_ s) = { level := n, modes := modes }) {op : Nat} {eff : State → Answer} {g : State → State} {st : Status}
    (heff : ∀ u, eff u = { s := g u, st := st }) : hostCommand h op asks eff s = (g (s.begun h)).answered h op st [] := by
  rw [hostCommand_may hm hasks, heff]
  rfl

theorem exec_logClear {h : CmdHdr} {s : State} (hm : h.may 3 [1] s) (hclear : s.log.clearing = none) (hfree : freeTo 6 h.part s = true) :
    exec (.logClear h) s = .next ((clearBegun h (s.begun h)).answered h 0x1003 .accepted []) := by
  have hfree' : freeTo 6 h.part (advance h.at_ s) = true := by rwa [freeTo, advance_hold]
  have hclear' : (advance h.at_ s).log.clearing = none := by rwa [advance_log]
  have hasks : ∀ u : State, u.log.clearing = none → freeTo 6 h.part u = true →
      ({ level := 3, modes := [1], state := u.log.clearing.isNone || !freeTo 6 h.part u, free := freeTo 6 h.part u } : Asks)
        = { level := 3, modes := [1] } := by
    intro u hu hfree
    simp [hu, hfree]
  exact congrArg Host.Outcome.next (hostCommand_begun hm (hasks _ hclear' hfree') fun _ => rfl)

theorem clearBegun_flash {s : State} (hlive : bothLive s) (h : CmdHdr) (n : Nat) :
    let gone := 2 ≤ n ∧ n ≠ s.log.sector
    (gone → Tab.get [] (clearBegun h s).log.flash1 n = [] ∧ Tab.get [] (clearBegun h s).log.flash2 n = [])
      ∧ (¬gone → Tab.get [] (clearBegun h s).log.flash1 n = Tab.get [] s.log.flash1 n
        ∧ Tab.get [] (clearBegun h s).log.flash2 n = Tab.get [] s.log.flash2 n) := by
  have hlive' : bothLive (takeHold 6 h.part s) := hlive
  unfold clearBegun
  rw [eraseSectors_eq hlive']
  dsimp only
  rw [Tab.get_filter_not [] (fun n => decide (2 ≤ n) && decide (n ≠ s.log.sector)),
    Tab.get_filter_not [] (fun n => decide (2 ≤ n) && decide (n ≠ s.log.sector))]
  refine ⟨fun hgone => ?_, fun hkept => ?_⟩
  · rw [if_pos (by simpa using hgone), if_pos (by simpa using hgone)]
    exact ⟨rfl, rfl⟩
  · rw [if_neg (by simpa using hkept), if_neg (by simpa using hkept)]
    exact ⟨rfl, rfl⟩

theorem clearBegun_leaves (h : CmdHdr) (s : State) :
    let u := clearBegun h s
    u = { s with log := u.log, pur := u.pur } ∧ u.log.clearing = some (cmdOf h 0x1003) ∧ (u.hold 6).map (·.part) = some h.part ∧ u.log.nextSeq = s.log.nextSeq
      ∧ u.log.buffer = s.log.buffer := by
  refine ⟨rfl, rfl, ?_, rfl, rfl⟩
  simp [clearBegun, eraseSectors, takeHold, State.setHold, State.hold]

/-- Settles O59: each operation's own lemma, at the instant it is carried out. -/
theorem logbookKeeps : Obligations.LogbookKeeps := by
  unfold Obligations.LogbookKeeps
  intro at_ first len code limit ok1 ok2 h s s1 l both
  have hlog : (advance at_ s).log = s.log := advance_log at_ s
  have hlive : both → bothLive s1 := fun hb => bothLive_advance hb at_
  refine ⟨fun hwait => ?_, fun q rest hscan hclear hbuf hlost hover => ⟨fun hlimit hb hfits => ⟨?_, ?_⟩, fun hnever hlim hfull => ?_⟩,
    fun hnone => ?_, fun c rest hcmds hb => ?_, fun hnone => ?_, fun c hc hb => ?_, fun hm hlow hhigh => exec_logRead hm hlow hhigh first,
    fun hm hlimit hcode hspace => ?_, fun hm hclear hfree => ?_⟩
  · exact congrArg Host.Outcome.next (logbookStep_waits (by rwa [hlog]) ok1 ok2)
  · refine ⟨_, congrArg Host.Outcome.next (logbookStep_writes (s := s1) (by rwa [hlog]) (by rwa [hlog]) (by rwa [hlog]) hover ?_ true true), ?_⟩
    · rw [wroteNow, hlog]
      exact hlimit
    · have hkeeps := judged_stored (hlive hb) (by rwa [hlog]) (q := q) (by rwa [hlog]) rest
      rw [hlog] at hkeeps
      exact hkeeps
  · refine ⟨_, congrArg Host.Outcome.next (logbookStep_writes (s := s1) (by rwa [hlog]) (by rwa [hlog]) (by rwa [hlog]) hover ?_ true false), ?_⟩
    · rw [wroteNow, hlog]
      exact hlimit
    · have hkeeps := judged_dropped (hlive hb) (q := q) (by rwa [hlog]) rest
      rw [hlog] at hkeeps
      exact hkeeps
  · refine ⟨_, congrArg Host.Outcome.next (logbookStep_suppresses (s := s1) (by rwa [hlog]) (by rwa [hlog]) (by rwa [hlog]) hover hnever
      (by rwa [hlog]) ?_ ok1 ok2), ?_⟩
    · rw [wroteNow, hlog]
      exact hfull
    · have hkeeps := judged_suppressed (s := s1) (by rwa [hlog]) q rest
      rw [hlog] at hkeeps
      exact hkeeps
  · exact congrArg Host.Outcome.next (limitWritten_none (by rwa [hlog]) ..)
  · obtain ⟨u, hend, hu⟩ := limitWritten_stored (hlive hb) (by rwa [hlog])
    rw [hlog] at hu
    exact ⟨u, congrArg Host.Outcome.next hend, hu⟩
  · exact congrArg Host.Outcome.next (clearEnd_none (by rwa [hlog]) ..)
  · obtain ⟨u, b, hend, hu⟩ := clearEnd_cleared (hlive hb) (by rwa [hlog])
    rw [hlog] at hu
    exact ⟨u, b, congrArg Host.Outcome.next hend, hu.clearing, hu.hold, hu.head, hu.nextSeq, hu.sector, hu.buffer, hu.flash1, hu.flash2⟩
  · obtain ⟨hown, hset, hkept, hcmds⟩ := limitSet_leaves code limit (cmdOf h 0x1002) (s.begun h)
    rw [begun_log] at hkept hcmds
    exact ⟨_, exec_logSetLimit hm hlimit hcode hspace, hown, hset, hkept, hcmds⟩
  · obtain ⟨hown, hclearing, hhold, hseq, hbuf⟩ := clearBegun_leaves h (s.begun h)
    rw [begun_log] at hseq hbuf
    refine ⟨_, exec_logClear hm hclear hfree, hown, hclearing, hhold, hseq, hbuf, fun hb n => ?_⟩
    have hflash := clearBegun_flash (bothLive_begun hb h) h n
    rw [begun_log] at hflash
    exact hflash

end Sys2Proof.Machine
end

section
/-!
The queues of the host partitions: doorbells, event entries, and rings that move (16 R612 to R620, R625, R644).
-/
namespace Sys2Proof.Machine
set_option Elab.async false -- one proof at a time, as in the tests: the compile is close to its memory limit

/-! ### Whole words written into a landing's memory -/

/-- `t` comes from `s` by a change of landing `x` alone. -/
def LdOnly (x : Side) (t s : State) : Prop := t = s.setLd x (t.ld x)

/-- `t` comes from `s` by changes of the landings alone. -/
def LandingsOnly (t s : State) : Prop := t = { s with a := t.a, b := t.b }

theorem ldOnly_refl (x : Side) (s : State) : LdOnly x s s := by cases x <;> rfl

theorem ldOnly_trans {x : Side} {u t s : State} (hu : LdOnly x u t) (ht : LdOnly x t s) : LdOnly x u s := by
  refine Eq.trans hu ?_
  rw [ht]
  cases x <;> rfl

theorem ldOnly_modLd (x : Side) (f : Landing → Landing) (s : State) : LdOnly x (s.modLd x f) s := by
  rw [LdOnly, modLd_ld]
  rfl

theorem ldOnly_other {x : Side} {t s : State} (h : LdOnly x t s) : t.ld x.other = s.ld x.other := by
  rw [h, setLd_other]

theorem ldOnly_landings {x : Side} {t s : State} (h : LdOnly x t s) : LandingsOnly t s := by
  cases x
  · exact Eq.trans h (congrArg (fun b => ({ s with a := t.a, b := b } : State)) (ldOnly_other h).symm)
  · exact Eq.trans h (congrArg (fun a => ({ s with a := a, b := t.b } : State)) (ldOnly_other h).symm)

theorem landingsOnly_trans {u t s : State} (hu : LandingsOnly u t) (ht : LandingsOnly t s) : LandingsOnly u s := by
  unfold LandingsOnly at *
  rw [hu, ht]

theorem landingsOnly_ite {c : Prop} [Decidable c] {t u s : State} (ht : LandingsOnly t s) (hu : LandingsOnly u s) :
    LandingsOnly (if c then t else u) s := by
  split
  · exact ht
  · exact hu

theorem landingsOnly_pur {t s : State} (h : LandingsOnly t s) : t.pur = s.pur := (congrArg State.pur h).trans rfl

theorem ldOnly_memBytes (x : Side) (n : Nat) {a : Nat} {data : List Byte} (ha : a % 8 = 0) (hlen : data.length % 8 = 0) (s : State) :
    LdOnly x (memBytes x n a data s) s := by
  induction n generalizing a data s with
  | zero => exact ldOnly_refl x s
  | succ n ih =>
    rw [memBytes]
    split
    · exact ldOnly_refl x s
    · rename_i hsome
      have hpos : 0 < data.length := List.length_pos_iff.mpr (by simpa using hsome)
      have htake : (data.take (a / 8 * 8 + 8 - a)).length = 8 := by rw [List.length_take]; lia
      have hdrop : (data.drop (a / 8 * 8 + 8 - a)).length % 8 = 0 := by rw [List.length_drop]; lia
      dsimp only
      rw [if_pos htake]
      exact ldOnly_trans (ih (by lia) hdrop _) (ldOnly_modLd ..)

/-- Whole words: nothing is read first, so no fault is found. -/
theorem ldOnly_memPut (x : Side) {a : Nat} {data : List Byte} (ha : a % 8 = 0) (hlen : data.length % 8 = 0) (s : State) :
    LdOnly x (memPut x a data s) s := ldOnly_memBytes x _ ha hlen s

section
variable {f : Side → State → State} (hf : ∀ y s, LdOnly y (f y s) s) (c : Side → Bool) (s : State)
include hf

theorem eachSide_landingsOnly : LandingsOnly (eachSide c f s) s := by
  have hone : ∀ y v, LandingsOnly (if c y = true then f y v else v) v := fun y v => landingsOnly_ite (ldOnly_landings (hf y v)) rfl
  exact landingsOnly_trans (hone .B _) (hone .A s)

/-- A change of each landing alone: landing `x` is changed as it was before both, where it is chosen. -/
theorem eachSide_ldOnly (x : Side) :
    ∃ u, u.ld x = s.ld x ∧ LandingsOnly u s ∧ (eachSide c f s).ld x = if c x then (f x u).ld x else s.ld x := by
  cases x with
  | A =>
    refine ⟨s, rfl, rfl, ?_⟩
    have hB : ∀ v, (if c .B = true then f .B v else v).ld .A = v.ld .A := fun v => by
      split
      · exact ldOnly_other (hf .B v)
      · rfl
    refine (hB _).trans ?_
    split <;> rfl
  | B =>
    have hA : (if c .A = true then f .A s else s).ld .B = s.ld .B := by
      split
      · exact ldOnly_other (hf .A s)
      · rfl
    refine ⟨_, hA, landingsOnly_ite (ldOnly_landings (hf .A s)) rfl, ?_⟩
    unfold eachSide
    dsimp only
    split
    · rfl
    · exact hA

end

/-! ### Where a ring lies (16 R612) -/

/-- What the purser's block alone decides. -/
theorem layoutBase_of_pur {t s : State} (h : t.pur = s.pur) (r : Nat) : layoutBase t r = layoutBase s r :=
  layoutBase_congr (fun p q => by simp [State.cq, State.eq, State.part, h]) r

theorem ringExp_of_pur {t s : State} (h : t.pur = s.pur) (r : Nat) : ringExp t r = ringExp s r :=
  ringExp_congr (fun p q => by simp [State.cq, State.eq, State.part, h]) r

theorem queueBase_of_pur {t s : State} (h : t.pur = s.pur) (p : Nat) (ev : Bool) (q : Nat) : queueBase t p ev q = queueBase s p ev q := by
  simp only [queueBase, ringBase, layoutBase_of_pur h, h]

theorem queueMoving_of_pur {t s : State} (h : t.pur = s.pur) (p : Nat) (ev : Bool) (q : Nat) :
    queueMoving t p ev q = queueMoving s p ev q := by
  simp only [queueMoving, ringMoving, h]

theorem ringSize_words (k : Nat) : ringSize k % 4096 = 0 := Nat.mul_mod_right ..

theorem ringSpan_words (s : State) (r : Nat) : ringSpan s r % 4096 = 0 := by
  induction r with
  | zero => exact ringSize_words _
  | succ r ih =>
    have hsize := ringSize_words (ringExp s (r + 1))
    rw [ringSpan]
    lia

theorem layoutBase_words (s : State) (r : Nat) : layoutBase s r % 8 = 0 := by
  have hspan := ringSpan_words s r
  unfold layoutBase
  lia

theorem ringSpan_mono (s : State) {r n : Nat} (h : r ≤ n) : ringSpan s r ≤ ringSpan s n := by
  induction h with
  | refl => exact Nat.le_refl _
  | step _ ih => exact Nat.le_trans ih (Nat.le_add_right ..)

theorem layoutBase_high {s : State} (harea : areaBytes s ≤ 0x200000) {r : Nat} (hr : r < 48) : 0x10600000 ≤ layoutBase s r := by
  have hspan := ringSpan_mono s (show r ≤ 47 by lia)
  unfold areaBytes at harea
  unfold layoutBase
  lia

/-- A later ring lies below every earlier one. -/
theorem layoutBase_below {s : State} (harea : areaBytes s ≤ 0x200000) {r n : Nat} (hlt : r < n) (hn : n < 48) :
    layoutBase s n + ringSize (ringExp s n) ≤ layoutBase s r := by
  obtain ⟨m, rfl⟩ : ∃ m, n = m + 1 := ⟨n - 1, by lia⟩
  have hbefore := ringSpan_mono s (show r ≤ m by lia)
  have htotal := ringSpan_mono s (show m + 1 ≤ 47 by lia)
  have hnext : ringSpan s (m + 1) = ringSpan s m + ringSize (ringExp s (m + 1)) := rfl
  unfold areaBytes at harea
  unfold layoutBase
  lia

theorem layoutBase_apart {s : State} (harea : areaBytes s ≤ 0x200000) {r n : Nat} (hne : r ≠ n) (hr : r < 48) (hn : n < 48) :
    layoutBase s r + ringSize (ringExp s r) ≤ layoutBase s n ∨ layoutBase s n + ringSize (ringExp s n) ≤ layoutBase s r := by
  rcases Nat.lt_or_gt_of_ne hne with h | h
  · exact .inr (layoutBase_below harea h hn)
  · exact .inl (layoutBase_below harea h hr)

theorem queueBase_still {s : State} (hmove : s.pur.move = none) {p q : Nat} (hp : p < 4) (ev : Bool) :
    queueBase s p ev q = layoutBase s (8 * p + (if ev then 4 else 0) + q) := by
  simp [queueBase, ringOf, isPort, hp, ringBase, hmove]

theorem queueMoving_still {s : State} (hmove : s.pur.move = none) (p q : Nat) (ev : Bool) : queueMoving s p ev q = false := by
  simp only [queueMoving, ringMoving, hmove]
  split <;> rfl

/-! ### Doorbells (16 R615, R616) -/

theorem postDescriptors_eq (p base : Nat) (l : Landing) (ds : List (Nat × Nat)) (s : State) :
    postDescriptors p base l ds s = { s with agree := (postDescriptors p base l ds s).agree }
      ∧ (postDescriptors p base l ds s).agree.waiting.map (·.content)
          = s.agree.waiting.map (·.content) ++ ds.map (fun d => peekBytes l (base + d.1) d.2) := by
  induction ds generalizing s with
  | nil => exact ⟨rfl, by simp [postDescriptors]⟩
  | cons d ds ih =>
    obtain ⟨hown, hcontent⟩ := ih (postArrival 4 p (peekBytes l (base + d.1) d.2) s)
    exact ⟨hown.trans rfl, hcontent.trans (by simp [postArrival])⟩

theorem ringDoorbell_format {p q tail : Nat} {s : State} (h : tail % 8 ≠ 0 ∨ ringSize (s.cq p q).k ≤ tail) :
    ringDoorbell p q tail s = portFormat p s := by
  unfold ringDoorbell
  exact if_pos (by simpa using h)

theorem ringDoorbell_walked {p q tail : Nat} {s : State} (hal : tail % 8 = 0) (hlt : tail < ringSize (s.cq p q).k) {ds : List (Nat × Nat)}
    (hwalk : walkRing (s.ld s.lead) (queueBase s p false q) (ringSize (s.cq p q).k) tail 19 (s.cq p q).tail = .ok ds) :
    ringDoorbell p q tail s = if 16 < (s.cq p q).outstanding + ds.length then portError p errQueueFull s
      else (postDescriptors p (queueBase s p false q) (s.ld s.lead) ds s).modCq p q
        (fun c => { c with tail := tail, head := tail, outstanding := c.outstanding + ds.length }) := by
  unfold ringDoorbell
  dsimp only
  rw [if_neg (by simp [hal, hlt]), hwalk]

theorem posted_leaves (p q idx base : Nat) (l : Landing) (ds : List (Nat × Nat)) (s : State) :
    let t := (postDescriptors p base l ds s).modCq p q (fun c => { c with tail := idx, head := idx, outstanding := c.outstanding + ds.length })
    t = { s with agree := t.agree, pur := t.pur }
      ∧ t.cq p q = { s.cq p q with tail := idx, head := idx, outstanding := (s.cq p q).outstanding + ds.length }
      ∧ t.agree.waiting.map (·.content) = s.agree.waiting.map (·.content) ++ ds.map (fun d => peekBytes l (base + d.1) d.2) := by
  obtain ⟨hown, hcontent⟩ := postDescriptors_eq p base l ds s
  refine ⟨?_, ?_, hcontent⟩
  · rw [hown]
    rfl
  · rw [modCq_cq, if_pos ⟨rfl, rfl⟩, hown]
    rfl

theorem doorbellWrite_port {p q : Nat} {s : State} (hp : p < 4) (hstill : queueMoving s p false q = false) (n : Nat) :
    doorbellWrite p q n s = ringDoorbell p q (n % 2 ^ 20) s := by simp [doorbellWrite, isPort, hp, hstill]

theorem doorbellWrite_held {p q : Nat} {s : State} (hp : p < 4) (hmoving : queueMoving s p false q = true) (n : Nat) :
    doorbellWrite p q n s = s.modCq p q (fun c => { c with heldTail := some n }) := by simp [doorbellWrite, isPort, hp, hmoving]

theorem doorbellWrite_network {p : Nat} (hp : 4 ≤ p) (q n : Nat) (s : State) : doorbellWrite p q n s = s := by
  simp [doorbellWrite, isPort, Nat.not_lt.mpr hp]

theorem eventHeadStep_network {p : Nat} (hp : 4 ≤ p) (q n : Nat) (s : State) : eventHeadStep p q n s = s := by
  simp [eventHeadStep, isPort, Nat.not_lt.mpr hp]

theorem eventHeadStep_some {p : Nat} (hp : p < 4) {q n k : Nat} {s : State}
    (h : boundaryIn (n % 2 ^ 20) (s.eq p q).tail (unreadOf (s.eq p q)) 0 = some k) :
    eventHeadStep p q n s = s.modEq p q (fun e => { e with head := n % 2 ^ 20, unread := e.unread - k }) := by
  unfold eventHeadStep
  simp only [isPort, hp, decide_true, Bool.not_true, Bool.false_eq_true, if_false, h]

theorem eventHeadStep_none {p : Nat} (hp : p < 4) {q n : Nat} {s : State}
    (h : boundaryIn (n % 2 ^ 20) (s.eq p q).tail (unreadOf (s.eq p q)) 0 = none) : eventHeadStep p q n s = portFormat p s := by
  unfold eventHeadStep
  simp only [isPort, hp, decide_true, Bool.not_true, Bool.false_eq_true, if_false, h]

/-! ### Event entries (16 R619) -/

theorem entryBytes_words (v : EvEntry) (seq : Nat) : (entryBytes v seq).length % 8 = 0 := by
  unfold entryBytes
  simp only [List.length_append, leBytes_length, List.length_replicate]
  lia

/-- The queue after an entry that needs no pad. -/
def entryPut (e : EventQ) (v : EvEntry) (rest : List EvEntry) : EventQ :=
  { putAtTail { e with waiting := rest } (some e.nextSeq) (entryBytes v e.nextSeq) with nextSeq := (e.nextSeq + 1) % 2 ^ 32 }

theorem ringEntry_fits {e : EventQ} {v : EvEntry} (hlost : e.lost = 0) (hfree : (entryBytes v e.nextSeq).length ≤ ringFree e)
    (hend : e.tail + (entryBytes v e.nextSeq).length ≤ ringSize e.k) (rest : List EvEntry) (time : Nat) :
    ringEntry { e with waiting := rest } v time = some (entryPut e v rest) := by
  have hnopad : ¬ringSize e.k - e.tail < (entryBytes v e.nextSeq).length := by lia
  have hspace : ¬ringFree { e with waiting := rest } < 0 + (entryBytes v e.nextSeq).length := by
    rw [show ringFree { e with waiting := rest } = ringFree e from rfl]
    lia
  unfold ringEntry ringPut
  dsimp only
  rw [if_pos hlost, if_neg hnopad, if_neg hspace]
  rfl

/-- The entry is the one that is new to the ring. -/
theorem entryPut_new (e : EventQ) (v : EvEntry) (rest : List EvEntry) :
    (entryPut e v rest).held.drop ((entryPut e v rest).held.length - ((entryPut e v rest).unread - e.unread))
      = [(some e.nextSeq, e.tail, entryBytes v e.nextSeq)] := by
  simp [entryPut, putAtTail]

theorem entryStep_waits {p q : Nat} {s : State} (h : queueMoving s p true q = true ∨ (s.eq p q).waiting = []) : entryStep p q s = s := by
  unfold entryStep
  dsimp only
  split
  · rfl
  · rename_i hstill
    rcases h with h | h
    · exact absurd h hstill
    · rw [h]

/-- The entry written at the tail of its ring on every landing in step. -/
def entryWritten (p q : Nat) (v : EvEntry) (rest : List EvEntry) (s : State) : State :=
  eachSide s.inStep (fun x => memPut x (queueBase s p true q + (s.eq p q).tail) (entryBytes v (s.eq p q).nextSeq))
    (s.modEq p q (fun _ => entryPut (s.eq p q) v rest))

theorem entryStep_writes {p q : Nat} {s : State} (hp : p < 4) (hmove : s.pur.move = none) {v : EvEntry} {rest : List EvEntry}
    (hwait : (s.eq p q).waiting = v :: rest) (hlost : (s.eq p q).lost = 0)
    (hfree : (entryBytes v (s.eq p q).nextSeq).length ≤ ringFree (s.eq p q))
    (hend : (s.eq p q).tail + (entryBytes v (s.eq p q).nextSeq).length ≤ ringSize (s.eq p q).k) :
    entryStep p q s = entryWritten p q v rest s := by
  unfold entryStep
  dsimp only
  rw [queueMoving_still hmove, hwait]
  dsimp only
  rw [if_neg (by decide), ringEntry_fits hlost hfree hend]
  dsimp only
  rw [entryPut_new, if_pos hlost, if_pos (show isPort p = true from decide_eq_true hp)]
  rfl

theorem entryWritten_leaves {p q : Nat} {s : State} (hp : p < 4) (hq : q < 4) (hmove : s.pur.move = none) (harea : areaBytes s ≤ 0x200000)
    (hal : (s.eq p q).tail % 8 = 0) (v : EvEntry) (rest : List EvEntry) :
    let t := entryWritten p q v rest s
    let b := entryBytes v (s.eq p q).nextSeq
    t.eq p q = entryPut (s.eq p q) v rest
      ∧ ∀ x, (s.inStep x = true → peekBytes (t.ld x) (queueBase s p true q + (s.eq p q).tail) b.length = b)
        ∧ (s.inStep x = false → t.ld x = s.ld x) := by
  have hbase : queueBase s p true q = layoutBase s (8 * p + 4 + q) := queueBase_still hmove hp true
  have hwords : (queueBase s p true q + (s.eq p q).tail) % 8 = 0 := by
    have hlayout := layoutBase_words s (8 * p + 4 + q)
    lia
  have hhigh : 0x08000000 ≤ queueBase s p true q + (s.eq p q).tail := by
    have hlayout := layoutBase_high harea (show 8 * p + 4 + q < 48 by lia)
    lia
  have hput : ∀ x u, LdOnly x (memPut x (queueBase s p true q + (s.eq p q).tail) (entryBytes v (s.eq p q).nextSeq) u) u :=
    fun x u => ldOnly_memPut x hwords (entryBytes_words ..) u
  refine ⟨?_, fun x => ?_⟩
  · have hpur := landingsOnly_pur (eachSide_landingsOnly hput s.inStep (s.modEq p q fun _ => entryPut (s.eq p q) v rest))
    rw [State.eq, State.part, entryWritten, hpur]
    exact (modEq_eq ..).trans (if_pos ⟨rfl, rfl⟩)
  · obtain ⟨u, _, _, heq⟩ := eachSide_ldOnly hput s.inStep (s.modEq p q fun _ => entryPut (s.eq p q) v rest) x
    rw [entryWritten, heq]
    refine ⟨fun hstep => ?_, fun hstep => ?_⟩
    · rw [if_pos hstep]
      exact peekBytes_memPut x _ hhigh u
    · rw [if_neg (by simp [hstep])]
      cases x <;> rfl

/-! ### Rings that move (16 R613) -/

theorem ldOnly_putImages (x : Side) (l : List (Nat × List Byte)) (h : ∀ e ∈ l, e.1 % 8 = 0 ∧ e.2.length % 8 = 0) (s : State) :
    LdOnly x (putImages x l s) s := by
  induction l generalizing s with
  | nil => exact ldOnly_refl x s
  | cons e l ih =>
    obtain ⟨ha, hlen⟩ := h e List.mem_cons_self
    exact ldOnly_trans (ih (fun f hf => h f (List.mem_cons_of_mem _ hf)) _) (ldOnly_memPut x ha hlen s)

/-- The bytes of two images do not meet. -/
def Apart (e f : Nat × List Byte) : Prop := e.1 + e.2.length ≤ f.1 ∨ f.1 + f.2.length ≤ e.1

theorem putImages_outside (x : Side) {l : List (Nat × List Byte)} {b : Nat} (hb : 0x08000000 ≤ b) (hhigh : ∀ e ∈ l, 0x08000000 ≤ e.1)
    (hout : ∀ e ∈ l, b < e.1 ∨ e.1 + e.2.length ≤ b) (s : State) : peekByte ((putImages x l s).ld x) b = peekByte (s.ld x) b := by
  induction l generalizing s with
  | nil => rfl
  | cons e l ih =>
    have hhere := hout e List.mem_cons_self
    rw [putImages, ih (fun f hf => hhigh f (List.mem_cons_of_mem _ hf)) (fun f hf => hout f (List.mem_cons_of_mem _ hf)),
      peekByte_memPut x _ (hhigh e List.mem_cons_self) hb, if_neg (by lia)]

/-- Images that lie apart read back, each from its own place. -/
theorem putImages_peekBytes (x : Side) {l : List (Nat × List Byte)} (hhigh : ∀ e ∈ l, 0x08000000 ≤ e.1) (hapart : l.Pairwise Apart) (s : State) :
    ∀ e ∈ l, peekBytes ((putImages x l s).ld x) e.1 e.2.length = e.2 := by
  induction l generalizing s with
  | nil => exact fun e he => absurd he List.not_mem_nil
  | cons d l ih =>
    obtain ⟨hd, hrest⟩ := List.pairwise_cons.mp hapart
    have hhigh' : ∀ e ∈ l, 0x08000000 ≤ e.1 := fun f hf => hhigh f (List.mem_cons_of_mem _ hf)
    have hlow := hhigh d List.mem_cons_self
    intro e he
    rcases List.mem_cons.mp he with rfl | he
    · refine peekBytes_eq fun i hi => ?_
      have hout : ∀ f ∈ l, e.1 + i < f.1 ∨ f.1 + f.2.length ≤ e.1 + i := fun f hf => by
        rcases hd f hf with h | h <;> lia
      rw [putImages, putImages_outside x (by lia) hhigh' hout, peekByte_memPut x _ hlow (by lia), if_pos (by lia),
        Nat.add_sub_cancel_left]
    · exact ih hhigh' hrest _ e he

theorem peekBytes_length (l : Landing) (a n : Nat) : (peekBytes l a n).length = n := by
  induction n generalizing a with
  | zero => rfl
  | succ n ih => rw [peekBytes, List.length_cons, ih]

theorem ringImages_words (s : State) (l : Landing) (mv : List (Nat × Nat)) :
    ∀ e ∈ ringImages s l mv, e.1 % 8 = 0 ∧ e.2.length % 8 = 0 := by
  intro e he
  obtain ⟨r, _, rfl⟩ := List.mem_map.mp he
  have hsize := ringSize_words (ringExp s r.1)
  have hbase := layoutBase_words s r.1
  rw [peekBytes_length]
  lia

/-- What a doorbell leaves: the landings and the running move. -/
def Rung (t s : State) : Prop := (∀ x, t.ld x = s.ld x) ∧ t.pur.move = s.pur.move

theorem rung_refl (s : State) : Rung s s := ⟨fun _ => rfl, rfl⟩

theorem rung_trans {u t s : State} (hu : Rung u t) (ht : Rung t s) : Rung u s := by
  obtain ⟨hul, hum⟩ := hu
  obtain ⟨htl, htm⟩ := ht
  exact ⟨fun x => (hul x).trans (htl x), hum.trans htm⟩

theorem rung_modCq (s : State) (p q : Nat) (f : CmdQ → CmdQ) : Rung (s.modCq p q f) s := ⟨fun x => by cases x <;> rfl, rfl⟩

theorem rung_portError (p e : Nat) (s : State) : Rung (portError p e s) s := ⟨fun x => by cases x <;> rfl, rfl⟩

theorem rung_raiseWithin (code detail key t window : Nat) (s : State) : Rung (raiseWithin .cable code detail key t window s) s := by
  refine ⟨fun x => ?_, reported_move (reported_raiseWithin ..)⟩
  unfold raiseWithin
  dsimp only
  split
  · rfl
  · refine (raise_cable_ld code detail _ x).trans ?_
    cases x <;> rfl

theorem rung_portFormat (p : Nat) (s : State) : Rung (portFormat p s) s := rung_trans (rung_raiseWithin ..) (rung_portError ..)

theorem rung_ringDoorbell (p q tail : Nat) (s : State) : Rung (ringDoorbell p q tail s) s := by
  unfold ringDoorbell
  dsimp only
  split
  · exact rung_portFormat p s
  · split
    · exact rung_portFormat p s
    · exact rung_portError ..
    · rename_i ds _
      split
      · exact rung_portError ..
      · obtain ⟨hown, _⟩ := postDescriptors_eq p (queueBase s p false q) (s.ld s.lead) ds s
        refine rung_trans (rung_modCq ..) ?_
        rw [hown]
        exact ⟨fun x => by cases x <;> rfl, rfl⟩

theorem rung_heldDoorbells (n : Nat) (s : State) : Rung (heldDoorbells n s) s := by
  induction n with
  | zero => exact rung_refl s
  | succ n ih =>
    refine rung_trans ?_ ih
    dsimp only [heldDoorbells]
    split
    · exact rung_trans (rung_ringDoorbell ..) (rung_modCq ..)
    · exact rung_refl _

@[simp] theorem advance_serves (n : Nat) (s : State) (x : Side) : (advance n s).serves x = s.serves x := by
  unfold State.serves
  rw [role_of_same (advance_same n s)]

theorem withPur_ld (s : State) (b : Purser) (x : Side) : ({ s with pur := b } : State).ld x = s.ld x := by cases x <;> rfl

/-- The moved rings at their new bases. -/
def imagesPut (m : QueueMove) (s : State) : State := eachSide s.serves (fun x s => putImages x (ringImages s (s.ld x) m.fromB) s) s

/-- The state in which no move runs any more. -/
def moved (m : QueueMove) (s : State) : State := { imagesPut m s with pur := { (imagesPut m s).pur with move := none } }

/-- The state of a move's end, before the command's completion. -/
def moveEnded (m : QueueMove) (s : State) : State :=
  heldDoorbells 16 (moved m s)

theorem rung_moveEnded (m : QueueMove) (s : State) : Rung (moveEnded m s) (moved m s) := rung_heldDoorbells ..

theorem moveEnd_some {s : State} {m : QueueMove} (h : s.pur.move = some m) : moveEnd s = complete m.cmd .done [] false (moveEnded m s) := by
  unfold moveEnd
  rw [h]
  rfl

theorem moveEnded_leaves {s : State} {m : QueueMove} (harea : areaBytes s ≤ 0x200000) (hnodup : (m.fromB.map (·.1)).Nodup) (hrings : ∀ r ∈ m.fromB, r.1 < 48) :
    let u := moveEnded m s
    u.pur.move = none ∧ ∀ x,
      (s.serves x = true → ∀ r ∈ m.fromB, peekBytes (u.ld x) (layoutBase s r.1) (ringSize (ringExp s r.1))
          = peekBytes (s.ld x) r.2 (ringSize (ringExp s r.1)))
        ∧ (s.serves x = false → u.ld x = s.ld x) := by
  obtain ⟨hld, hmove⟩ := rung_moveEnded m s
  dsimp only
  generalize moveEnded m s = u at hld hmove ⊢
  refine ⟨hmove.trans rfl, fun x => ?_⟩
  obtain ⟨v, hv, hvonly, heq⟩ := eachSide_ldOnly
    (f := fun x s => putImages x (ringImages s (s.ld x) m.fromB) s) (fun y u => ldOnly_putImages y _ (ringImages_words u _ _) u) s.serves s x
  have hpur := landingsOnly_pur hvonly
  have hu : u.ld x = if s.serves x = true then (putImages x (ringImages v (v.ld x) m.fromB) v).ld x else s.ld x :=
    (hld x).trans ((withPur_ld ..).trans heq)
  have himages : ringImages v (v.ld x) m.fromB = ringImages s (s.ld x) m.fromB := by
    simp only [ringImages, hv, layoutBase_of_pur hpur, ringExp_of_pur hpur]
  rw [hu, himages]
  refine ⟨fun hserves r hr => ?_, fun hserves => if_neg (by simp [hserves])⟩
  rw [if_pos hserves]
  have hhigh : ∀ e ∈ ringImages s (s.ld x) m.fromB, 0x08000000 ≤ e.1 := fun e he => by
    obtain ⟨k, hk, rfl⟩ := List.mem_map.mp he
    exact Nat.le_trans (by decide) (layoutBase_high harea (hrings k hk))
  have hapart : (ringImages s (s.ld x) m.fromB).Pairwise Apart := by
    refine List.pairwise_map.mpr ((List.pairwise_map.mp hnodup).imp_of_mem fun {e f} he hf hne => ?_)
    simp only [Apart, peekBytes_length]
    exact layoutBase_apart harea hne (hrings e he) (hrings f hf)
  have hread := putImages_peekBytes x hhigh hapart v _ (List.mem_map_of_mem hr)
  rwa [peekBytes_length] at hread

/-- Settles O54: each queue operation's own lemma, at the instant it is carried out. -/
theorem partitionQueues : Obligations.PartitionQueues := by
  unfold Obligations.PartitionQueues
  intro at_ p q n res s
  dsimp only
  have hpur : (advance at_ s).pur = s.pur := advance_pur at_ s
  have hcq : (advance at_ s).cq p q = s.cq p q := by simp [State.cq]
  have heq : (advance at_ s).eq p q = s.eq p q := by simp [State.eq]
  refine ⟨fun hp => ⟨congrArg _ (doorbellWrite_network hp q n (advance at_ s)), congrArg _ (eventHeadStep_network hp q n (advance at_ s))⟩, fun hp hstill => ⟨fun hbad => ?_,
    fun ds hal hlt hwalk => ?_⟩, fun hp hmoving => ?_, fun hp => ⟨fun k hk => ?_, fun hnone => ?_⟩, fun hwait => ?_,
    fun v rest hp hq hmove harea hwait hlost hal => ?_, fun hnone => ?_, fun m hm harea hnodup hrings => ?_, fun hnone => ?_,
    fun k hk => ⟨fun hdue => ?_, fun hearly => ?_⟩⟩
  · refine congrArg Host.Outcome.next ((doorbellWrite_port hp ((queueMoving_of_pur hpur ..).trans hstill) n).trans (ringDoorbell_format ?_))
    rwa [hcq]
  · have hwalked := ringDoorbell_walked (p := p) (q := q) (s := (advance at_ s)) (ds := ds) hal (by rwa [hcq])
      (by simpa only [hcq, advance_lead, advance_ld, queueBase_of_pur hpur] using hwalk)
    have hstep := congrArg (Host.Outcome.next (φ := Fault) (ρ := Refusal))
      ((doorbellWrite_port hp ((queueMoving_of_pur hpur ..).trans hstill) n).trans hwalked)
    rw [hcq] at hstep
    refine ⟨fun hmany => hstep.trans (congrArg _ (if_pos hmany)), fun hfew => ⟨_, hstep.trans (congrArg _ (if_neg (Nat.not_lt.mpr hfew))), ?_⟩⟩
    obtain ⟨hown, hmoved, hcontent⟩ := posted_leaves p q (n % 2 ^ 20) (queueBase (advance at_ s) p false q) ((advance at_ s).ld (advance at_ s).lead) ds (advance at_ s)
    refine ⟨hown, hmoved.trans (by rw [hcq]), hcontent.trans ?_⟩
    rw [queueBase_of_pur hpur]
    simp only [advance_agree, advance_lead, advance_ld]
  · exact congrArg Host.Outcome.next (doorbellWrite_held hp ((queueMoving_of_pur hpur ..).trans hmoving) n)
  · exact congrArg Host.Outcome.next (eventHeadStep_some hp (by rwa [heq]))
  · exact congrArg Host.Outcome.next (eventHeadStep_none hp (by rwa [heq]))
  · refine congrArg Host.Outcome.next (entryStep_waits ?_)
    rwa [heq, queueMoving_of_pur hpur]
  · intro hfree hend
    have hmove1 : (advance at_ s).pur.move = none := by rwa [hpur]
    have harea1 : areaBytes (advance at_ s) ≤ 0x200000 := by
      rw [areaBytes, ringSpan_congr (s := s) (fun p q => by simp [State.cq, State.eq])]
      exact harea
    obtain ⟨hput, hld⟩ := entryWritten_leaves (s := (advance at_ s)) hp hq hmove1 harea1 (by rwa [heq]) v rest
    refine ⟨_, congrArg Host.Outcome.next (entryStep_writes (s := (advance at_ s)) hp hmove1 (by rwa [heq]) (by rwa [heq]) (by rwa [heq]) (by rwa [heq])),
      ?_, ?_, ?_, ?_, ?_, fun x => ?_⟩
    · rw [hput]; rfl
    · rw [hput, heq]; rfl
    · rw [hput, heq]; rfl
    · rw [hput, heq]; rfl
    · rw [hput, heq]; rfl
    · have hside := hld x
      rw [heq, queueBase_of_pur hpur, advance_inStep, advance_ld] at hside
      exact hside
  · change Host.Outcome.next (moveEnd (if (advance at_ s).pur.move.isSome then advance (advance at_ s).nextTickNs (advance at_ s) else (advance at_ s))) = _
    rw [hpur, hnone, if_neg (by simp), moveEnd, hpur, hnone]
  · have hpur2 : (advance (advance at_ s).nextTickNs (advance at_ s)).pur = s.pur := (advance_pur ..).trans hpur
    have harea2 : areaBytes (advance (advance at_ s).nextTickNs (advance at_ s)) ≤ 0x200000 := by
      rw [areaBytes, ringSpan_congr (s := s) (fun p q => by simp [State.cq, State.eq])]
      exact harea
    obtain ⟨hmove, hld⟩ := moveEnded_leaves (s := advance (advance at_ s).nextTickNs (advance at_ s)) harea2 hnodup hrings
    refine ⟨moveEnded m (advance (advance at_ s).nextTickNs (advance at_ s)), ?_, hmove, fun x => ?_⟩
    · change Host.Outcome.next (moveEnd (if (advance at_ s).pur.move.isSome then advance (advance at_ s).nextTickNs (advance at_ s) else (advance at_ s))) = _
      rw [hpur, hm, if_pos (Option.isSome_some ..), moveEnd_some (by rw [hpur2, hm])]
    · have hside := hld x
      simp only [layoutBase_of_pur hpur2, ringExp_of_pur hpur2, advance_serves, advance_ld] at hside
      exact hside
  · change Host.Outcome.next _ = _
    rw [advance_hold, hnone]
  · change Host.Outcome.next _ = _
    rw [advance_hold, hk]
    exact congrArg _ (if_pos hdue)
  · change Host.Outcome.next _ = _
    rw [advance_hold, hk]
    exact congrArg _ (if_neg (Nat.not_le.mpr hearly))

end Sys2Proof.Machine
end

section
/-!
What the work of one landing leaves: the other landing, and of the purser and the logbook all but their reports (03 R108 to R149, 12 R449 to R465).
-/
namespace Sys2Proof.Machine
set_option Elab.async false -- one proof at a time, as in the tests: the compile is close to its memory limit

/-- `t` comes from `s` by the work of landing `x` and by reports. -/
def Within (x : Side) (t s : State) : Prop := t.ld x.other = s.ld x.other ∧ Reported t s

theorem within_refl (x : Side) (s : State) : Within x s s := ⟨rfl, reported_refl s⟩

theorem within_trans {x : Side} {u t s : State} (hu : Within x u t) (ht : Within x t s) : Within x u s := by
  obtain ⟨hul, hur⟩ := hu
  obtain ⟨htl, htr⟩ := ht
  exact ⟨hul.trans htl, reported_trans hur htr⟩

theorem within_ite {c : Prop} [Decidable c] {x : Side} {t u s : State} (ht : Within x t s) (hu : Within x u s) :
    Within x (if c then t else u) s := by
  split
  · exact ht
  · exact hu

theorem within_foldl {α : Type} {x : Side} {f : State → α → State} (hf : ∀ s a, Within x (f s a) s) (l : List α) (s : State) :
    Within x (l.foldl f s) s := by
  induction l generalizing s with
  | nil => exact within_refl x s
  | cons a l ih => exact within_trans (ih _) (hf s a)

section
variable (x : Side)

theorem within_modLd (f : Landing → Landing) (s : State) : Within x (s.modLd x f) s := ⟨modLd_other .., reported_of (modLd_pur ..) (modLd_log ..)⟩

theorem within_raise (code detail : Nat) (s : State) : Within x (raise (.landing x) code detail s) s := ⟨raise_other .., reported_raise ..⟩

theorem within_raiseWithin (code detail key t window : Nat) (s : State) : Within x (raiseWithin (.landing x) code detail key t window s) s := by
  refine ⟨?_, reported_raiseWithin ..⟩
  unfold raiseWithin
  dsimp only
  split
  · rfl
  · refine (raise_other ..).trans ?_
    cases x <;> rfl

/-! ### Memory -/

theorem within_memWrite (a : Nat) (w : Pw) (s : State) : Within x (memWrite x a w s) s := within_modLd ..

theorem within_bucketAdd (s : State) : Within x (bucketAdd x s) s :=
  within_ite (within_trans (within_raise ..) (within_modLd ..)) (within_modLd ..)

theorem within_noteCorrected (kind a : Nat) (y : Byte) (s : State) : Within x (noteCorrected x kind a y s) s :=
  within_trans (within_bucketAdd ..) (within_trans (within_raiseWithin ..) (within_modLd ..))

theorem within_noteUncorrectable (kind a : Nat) (y : Byte) (s : State) : Within x (noteUncorrectable x kind a y s) s :=
  within_ite (within_trans (within_raise ..) (within_modLd ..)) (within_trans (within_raiseWithin ..) (within_modLd ..))

theorem within_readEffects (a : Nat) (s : State) : Within x (readEffects x a s) s := by
  unfold readEffects
  dsimp only
  split
  case h_1 | h_2 => exact within_refl x s
  case h_3 => exact within_ite (within_trans (within_modLd ..) (within_noteCorrected ..)) (within_noteCorrected ..)
  case h_4 => exact within_noteUncorrectable ..

theorem within_memReadN (a n : Nat) (s : State) : Within x (memReadN x a n s).2 s := by
  induction n generalizing a s with
  | zero => exact within_refl x s
  | succ n ih => exact within_trans (ih ..) (within_readEffects ..)

theorem within_memMerge (a : Nat) (data : List (Nat × Byte)) (s : State) : Within x (memMerge x a data s) s :=
  within_trans (within_memWrite ..) (within_readEffects ..)

theorem within_memBytes (n a : Nat) (data : List Byte) (s : State) : Within x (memBytes x n a data s) s := by
  induction n generalizing a data s with
  | zero => exact within_refl x s
  | succ n ih =>
    exact within_ite (within_refl x s) (within_trans (ih ..) (within_ite (within_memWrite ..) (within_memMerge ..)))

theorem within_memPut (a : Nat) (data : List Byte) (s : State) : Within x (memPut x a data s) s := within_memBytes ..

/-! ### The tiles -/

theorem within_landWord (cyc : Nat) (e : Nat × List (Nat × Byte) × Bool) (s : State) : Within x (landWord x cyc e s) s :=
  within_trans (within_memWrite ..) (within_trans (within_modLd ..) (within_ite (within_readEffects ..) (within_refl x s)))

theorem within_landCycle (n cyc : Nat) (rs : List PendRes) (s : State) : Within x (landCycle x n cyc rs s) s :=
  within_trans (within_modLd ..)
    (within_trans (within_foldl (fun s r => within_foldl (fun s e => within_landWord x cyc e s) (PendRes.mem r) s) _ _) (within_modLd ..))

theorem within_settleN (n t k : Nat) (s : State) : Within x (settleN x n t k s) s := by
  induction k generalizing s with
  | zero => exact within_refl x s
  | succ k ih =>
    unfold settleN
    split
    · exact within_refl x s
    · exact within_ite (within_refl x s) (within_trans (ih _) (within_trans (within_landCycle ..) (within_modLd ..)))

theorem within_settle (n t : Nat) (s : State) : Within x (settle x n t s) s := within_settleN ..

theorem within_launch (n : Nat) (r : PendRes) (s : State) : Within x (launch x n r s) s := within_modLd ..

theorem within_issue (n cyc : Nat) (w : Word) (bad : PendRes) (run : Tile → PendRes) (s : State) : Within x (issue x n cyc w bad run s) s := by
  unfold issue
  dsimp only
  split
  · exact within_settle ..
  · exact within_trans (within_launch ..) (within_settle ..)
  · exact within_trans (within_launch ..) (within_settle ..)

theorem within_tileFault (n code detail land : Nat) (s : State) : Within x (tileFault x n code detail land s) s :=
  within_trans (within_launch ..) (within_raiseWithin ..)

theorem within_loadOp (size : Nat) (f : Nat → DWord) (n cyc : Nat) (w : Word) (s : State) : Within x (loadOp size f x n cyc w s) s := by
  refine within_trans ?_ (within_settle x n cyc s)
  unfold loadOp
  dsimp only
  split
  · exact within_refl ..
  · exact within_launch ..
  · exact within_ite (within_launch ..) (within_ite (within_trans (within_tileFault ..) (within_launch ..))
      (within_trans (within_launch ..) (within_readEffects ..)))

theorem within_loadVec (n cyc : Nat) (w : Word) (s : State) : Within x (loadVec x n cyc w s) s := by
  refine within_trans ?_ (within_settle x n cyc s)
  unfold loadVec
  dsimp only
  split
  · exact within_refl ..
  · exact within_launch ..
  · exact within_ite (within_launch ..) (within_ite (within_trans (within_tileFault ..) (within_launch ..))
      (within_trans (within_launch ..) (within_memReadN ..)))

theorem within_storeOp (size : Nat) (src : Tile → List Pw) (n cyc : Nat) (w : Word) (s : State) : Within x (storeOp size src x n cyc w s) s :=
  within_trans (within_ite (within_refl ..) (within_ite (within_tileFault ..) (within_ite (within_tileFault ..)
    (within_ite (within_launch ..) (within_launch ..))))) (within_settle x n cyc s)

/-- Every run of a syllable stays within its landing. -/
def StaysWithin (f : Syl) : Prop := ∀ x n cyc w s, Within x (f x n cyc w s) s

section
variable (n cyc : Nat) (w : Word) (s : State)

theorem within_floatOp (lat : Nat) (useB useC : Bool) (f : Fmt → Nat → Nat → Nat → Nat × Nat) :
    Within x (floatOp lat useB useC f x n cyc w s) s := within_ite (within_issue ..) (within_issue ..)

theorem within_fcmpOp (f : Fmt → Nat → Nat → Bool × Nat) : Within x (fcmpOp f x n cyc w s) s := within_issue ..

theorem within_convOp (f : Fmt → DWord → Nat × Nat) : Within x (convOp f x n cyc w s) s := within_issue ..

theorem within_intOp (lat : Nat) (f : DWord → DWord → DWord × Nat) : Within x (intOp lat f x n cyc w s) s := within_issue ..

theorem within_intOp1 (f : DWord → DWord × Nat) : Within x (intOp1 f x n cyc w s) s := within_issue ..

theorem within_cmpOp (f : DWord → DWord → Bool) : Within x (cmpOp f x n cyc w s) s := within_issue ..

theorem within_predOp (f : Bool → Bool → Bool) : Within x (predOp f x n cyc w s) s := within_issue ..

end

/-- Every syllable of slots 0 and 1 issues one result, `SEL` under any guard; `NOP` lets results land. -/
theorem staysWithin_sylInt (op : Nat) : StaysWithin (sylInt op) := by
  unfold sylInt
  split
  case h_13 | h_27 | h_28 | h_31 | h_36 => exact fun x n cyc w s => within_intOp1 ..
  case h_14 | h_25 | h_26 => exact fun x n cyc w s => within_issue ..
  case h_15 => exact fun x n cyc w s => within_trans (within_launch ..) (within_settle ..)
  case h_16 | h_17 | h_18 | h_19 | h_20 | h_21 => exact fun x n cyc w s => within_cmpOp ..
  case h_22 | h_23 | h_24 => exact fun x n cyc w s => within_predOp ..
  case h_37 => exact fun x n cyc w s => within_settle ..
  all_goals exact fun x n cyc w s => within_intOp ..

theorem staysWithin_sylFloat (op : Nat) : StaysWithin (sylFloat op) := by
  unfold sylFloat
  split
  case h_12 | h_13 | h_14 | h_15 => exact fun x n cyc w s => within_fcmpOp ..
  case h_16 | h_17 | h_18 | h_19 | h_20 => exact fun x n cyc w s => within_convOp ..
  case h_21 | h_22 | h_23 | h_24 | h_25 => exact fun x n cyc w s => within_issue ..
  case h_26 => exact fun x n cyc w s => within_settle ..
  all_goals exact fun x n cyc w s => within_floatOp ..

theorem staysWithin_sylMem (op : Nat) : StaysWithin (sylMem op) := by
  unfold sylMem
  split
  case h_8 => exact fun x n cyc w s => within_loadVec ..
  case h_9 | h_10 | h_11 | h_12 | h_13 => exact fun x n cyc w s => within_storeOp ..
  case h_14 | h_15 => exact fun x n cyc w s => within_issue ..
  case h_16 | h_17 => exact fun x n cyc w s => within_trans (within_modLd ..) (within_settle ..)
  case h_18 => exact fun x n cyc w s => within_settle ..
  all_goals exact fun x n cyc w s => within_loadOp ..

theorem within_sylOf (k : Nat) (n cyc : Nat) (w : Word) (s : State) : Within x (sylOf k w x n cyc w s) s := by
  unfold sylOf
  split
  · exact staysWithin_sylInt ..
  · split
    · exact staysWithin_sylFloat ..
    · exact staysWithin_sylMem ..

theorem within_issueBundle (n cyc : Nat) (s : State) : Within x (issueBundle x n cyc s) s := by
  unfold issueBundle
  dsimp only
  split
  · exact within_settle ..
  · split
    · have hpoisoned := within_trans (within_settle x n cyc _) (within_trans (within_raise x 0x0162 (n * 2 ^ 16 + (s.tile x n).bundle) _)
        (within_memReadN x (istoreBase n + 16 * (s.tile x n).bundle) 2 s))
      exact within_ite (within_trans (within_modLd ..) hpoisoned) hpoisoned
    · exact within_trans (within_foldl (fun s k => within_sylOf x k n cyc _ s) _ _) (within_memReadN ..)

theorem within_issueN (n k : Nat) (s : State) : Within x (issueN x n k s) s := by
  induction k generalizing s with
  | zero => exact within_refl x s
  | succ k ih => exact within_trans (ih _) (within_trans (within_modLd ..) (within_issueBundle ..))

theorem within_touchTile (a : Nat) (s : State) : Within x (touchTile x a s) s :=
  within_ite (within_trans (within_settle ..) (within_issueN ..)) (within_refl x s)

/-! ### The merge buffer (12 R460, R461) -/

theorem within_mergeFlush (w : Nat) (s : State) : Within x (mergeFlush x w s) s := by
  unfold mergeFlush
  split
  · exact within_refl x s
  · exact within_trans (within_modLd ..) (within_trans (within_memMerge ..) (within_modLd ..))

theorem within_hostMemWrite (p n a : Nat) (data : List Byte) (s : State) : Within x (hostMemWrite x p n a data s) s := by
  induction n generalizing a data s with
  | zero => exact within_refl x s
  | succ n ih =>
    exact within_ite (within_refl x s) (within_trans (ih ..) (within_trans
      (within_ite (within_trans (within_memWrite ..) (within_mergeFlush ..)) (within_modLd ..)) (within_touchTile ..)))

end

section
variable {f : Side → State → State} (hf : ∀ y s, Within y (f y s) s) (c : Side → Bool) (s : State)
include hf

theorem eachSide_reported : Reported (eachSide c f s) s := by
  have hone : ∀ y v, Reported (if c y = true then f y v else v) v := fun y v => reported_ite (hf y v).2 (reported_refl v)
  exact reported_trans (hone .B _) (hone .A s)

/-- The work of each landing: landing `x` does its own, where it is chosen, as it was before both. -/
theorem eachSide_within (x : Side) :
    ∃ u, u.ld x = s.ld x ∧ Reported u s ∧ (eachSide c f s).ld x = if c x then (f x u).ld x else s.ld x := by
  cases x with
  | A =>
    refine ⟨s, rfl, reported_refl s, ?_⟩
    have hB : ∀ v, (if c .B = true then f .B v else v).ld .A = v.ld .A := fun v => by
      split
      · exact (hf .B v).1
      · rfl
    refine (hB _).trans ?_
    split <;> rfl
  | B =>
    have hA : (if c .A = true then f .A s else s).ld .B = s.ld .B := by
      split
      · exact (hf .A s).1
      · rfl
    refine ⟨_, hA, reported_ite (hf .A s).2 (reported_refl s), ?_⟩
    unfold eachSide
    dsimp only
    split
    · rfl
    · exact hA

end

end Sys2Proof.Machine
end

section
/-!
Purser ports: buffered writes and reads of memory, and the status word (16 R604 to R608).
-/
namespace Sys2Proof.Machine
set_option Elab.async false -- one proof at a time, as in the tests: the compile is close to its memory limit

theorem port_modPort (s : State) (n : Nat) (f : PurPort → PurPort) : (s.modPort n f).port n = f (s.port n) := by
  simp [State.modPort, State.port]

theorem port_of_ports {t s : State} (h : t.pur.ports = s.pur.ports) (n : Nat) : t.port n = s.port n := by
  rw [State.port, State.port, h]

/-- The access table goes by the purser's block and the manifest that runs. -/
theorem hostRange_congr {s t : State} (hpur : t.pur = s.pur) (himg : (t.ld t.lead).fmn.img = (s.ld s.lead).fmn.img) (p : Nat) (write : Bool)
    (a n : Nat) : hostRange t p write a n = hostRange s p write a n := by
  have harea : areaBytes t = areaBytes s := ringSpan_congr (fun p q => by simp [State.cq, State.eq, State.part, hpur]) 47
  have hown : ∀ b, ownRing t p b = ownRing s p b := fun b => by
    simp only [ownRing, ringBase, layoutBase_of_pur hpur, ringExp_of_pur hpur, hpur]
    rfl
  have hneeds : ∀ b, hostNeeds t p write b = hostNeeds s p write b := fun b => by
    rw [hostNeeds, harea, himg, hown]
    rfl
  induction n generalizing a with
  | zero => rfl
  | succ n ih => rw [hostRange, hostRange, hneeds, ih]

/-- The state of a transaction that begins: the last answer is gone. -/
def unanswered (s : State) : State := { s with resp := {} }

theorem unanswered_hostRange (s : State) (p : Nat) (write : Bool) (a n : Nat) : hostRange (unanswered s) p write a n = hostRange s p write a n :=
  hostRange_congr (s := s) (t := unanswered s) rfl rfl p write a n

/-- A memory of the map lies outside the register blocks. -/
theorem regKindAt_mapped {a : Nat} (h : memMapped a = true) : regKindAt a = none := by
  have hlow : a < 0x28400000 := by
    simp only [memMapped, Bool.or_eq_true, Bool.and_eq_true, decide_eq_true_eq] at h
    lia
  have hunit : regUnit a = none := by
    unfold regUnit
    dsimp only
    rw [if_neg (by simp; lia), if_neg (by simp; lia), if_neg (by simp; lia)]
  rw [regKindAt, hunit]
  rfl

theorem portRange_word {a : Nat} (h : a % 8 = 0) : portRange a 8 = true := by
  have hword : a % 4 = 0 := by lia
  have hpage : (a + 7) / 4096 = a / 4096 := by lia
  simp [portRange, hword, hpage]

/-! ### Writes (16 R605, R606) -/

section
variable {port a : Nat} {data : List Byte} {s : State} (hserving : s.pur.serving = true) (hal : a % 8 = 0) (hlen : data.length = 8)
include hserving hal hlen

theorem portWrite_word : portWrite port a data true s =
    if !((hostRange s port true a 2).elim false (fun n => n ≤ (s.part port).level)) then portRefused port (hostRange s port true a 2) (unanswered s)
    else if 2 ≤ (s.port port).wbuf.length || inMovingRing (unanswered s) a 8 then portError port errBusy (unanswered s)
    else (unanswered s).modPort port (fun p => { p with wbuf := p.wbuf ++ [(a, data)] }) := by
  rw [← unanswered_hostRange s port true a 2]
  unfold portWrite
  dsimp only
  rw [if_neg (by simp [hserving]), hlen, if_neg (by simp [portRange_word hal])]
  rfl

theorem portWrite_buffered {n : Nat} (hneed : hostRange s port true a 2 = some n) (hlevel : n ≤ (s.part port).level)
    (hfree : (s.port port).wbuf.length < 2) (hmove : s.pur.move = none) :
    portWrite port a data true s = (unanswered s).modPort port (fun p => { p with wbuf := p.wbuf ++ [(a, data)] }) := by
  have hstill : inMovingRing (unanswered s) a 8 = false := by
    unfold inMovingRing
    rw [show (unanswered s).pur.move = none from hmove]
  rw [portWrite_word hserving hal hlen, hneed, hstill, if_neg (by simp [hlevel]), if_neg (by simp [hfree])]

theorem portWrite_refused (hneed : hostRange s port true a 2 = none) :
    portWrite port a data true s = hostRefused port (portError port errUnmapped (unanswered s)) := by
  rw [portWrite_word hserving hal hlen, hneed]
  rfl

end

/-- A whole word of a port: the merge buffer's bytes of it go first. -/
theorem hostMemWrite_word (x : Side) (p : Nat) {a : Nat} {data : List Byte} (hal : a % 8 = 0) (hlen : data.length = 8) (s : State) :
    hostMemWrite x p 3 a data s = memWrite x a ⟨BitVec.ofNat 64 (ofLe data), false⟩ (mergeFlush x a (touchTile x a s)) := by
  have hword : a / 8 * 8 = a := by lia
  have hall : data.take 8 = data := List.take_of_length_le (by lia)
  have hnone : data.drop 8 = [] := List.drop_of_length_le (by lia)
  have hsome : data.isEmpty = false := by cases data with
    | nil => simp at hlen
    | cons => rfl
  rw [hostMemWrite]
  dsimp only
  rw [if_neg (by simp [hsome]), hword, Nat.add_sub_cancel_left, hall, if_pos hlen, hnone]
  rfl

theorem writePerformed_word {port a : Nat} {data : List Byte} {rest : List (Nat × List Byte)} {s : State} (hal : a % 8 = 0) (hlen : data.length = 8)
    (hmap : memMapped a = true) (hbuf : (s.port port).wbuf = (a, data) :: rest) :
    let t := writePerformed port s
    (t.port port).wbuf = rest ∧ ∀ x, (s.serves x = true → peekWord (t.ld x) a = ⟨BitVec.ofNat 64 (ofLe data), false⟩)
      ∧ (s.serves x = false → t.ld x = s.ld x) := by
  have hwithin : ∀ y v, Within y (hostMemWrite y port 3 a data v) v := fun y v => within_hostMemWrite ..
  have ht : writePerformed port s
      = eachSide s.serves (fun x => hostMemWrite x port 3 a data) (s.modPort port (fun p => { p with wbuf := rest })) := by
    unfold writePerformed
    rw [hbuf]
    dsimp only
    rw [if_neg (by simp [regKindAt_mapped hmap]), hlen]
    rfl
  dsimp only
  rw [ht]
  refine ⟨?_, fun x => ?_⟩
  · rw [port_of_ports (reported_ports (eachSide_reported hwithin ..)), port_modPort]
  · obtain ⟨u, _, _, heq⟩ := eachSide_within hwithin s.serves (s.modPort port (fun p => { p with wbuf := rest })) x
    rw [heq]
    refine ⟨fun hserves => ?_, fun hidle => ?_⟩
    · rw [if_pos hserves, hostMemWrite_word x port hal hlen, memWrite, modLd_ld]
      exact peekWord_ldWrite ..
    · rw [if_neg (by simp [hidle])]
      cases x <;> rfl

/-! ### Reads (16 R605, R607) -/

theorem portReadReq_starts {port a n k : Nat} {s : State} (hserving : s.pur.serving = true) (hrange : portRange a n = true)
    (hneed : hostRange s port false a (n / 4) = some k) (hlevel : k ≤ (s.part port).level) (hidle : (s.port port).reading = none) :
    portReadReq port a n true s = (unanswered s).modPort port (fun p => { p with reading := some (a, n), readDone := false }) := by
  rw [← unanswered_hostRange] at hneed
  have hidle' : ((unanswered s).port port).reading = none := hidle
  have hlevel' : k ≤ ((unanswered s).part port).level := hlevel
  unfold portReadReq
  change (if !(unanswered s).pur.serving then _ else _) = _
  rw [if_neg (by simp [unanswered, hserving]), if_neg (by simp [hrange])]
  change (if !((hostRange (unanswered s) port false a (n / 4)).elim false (fun k => k ≤ ((unanswered s).part port).level)) then _
    else if ((unanswered s).port port).reading.isSome then _ else _) = _
  rw [hneed, hidle', if_neg (by simp [hlevel']), if_neg (by simp)]
  rfl

theorem portReadBuf_answers {port off : Nat} {s : State} (hserving : s.pur.serving = true) (hal : off % 4 = 0) (len : Nat) :
    portReadBuf port off len true s
      = { s with resp := { bytes := (List.range len).map (fun i => (s.port port).rbuf.getD (off + i) 0) } } := by
  unfold portReadBuf
  dsimp only
  rw [if_neg (by simp [hserving]), if_neg (by simp [hal])]
  rfl

/-- Settles O15: each transaction's own lemma, at the instant it is carried out. -/
theorem portAccesses : Obligations.PortAccesses := by
  unfold Obligations.PortAccesses
  refine ⟨fun at_ port addr data s hserving hal hlen hmap => ?_, fun at_ port addr len off n s hserving => ?_⟩
  · have hserving' : (advance at_ s).pur.serving = true := by rwa [advance_pur]
    have hport : (advance at_ s).port port = s.port port := port_of_ports (by rw [advance_pur]) port
    refine ⟨fun n hneed hlevel hfree hmove => ?_, fun hneed => ?_, fun rest hbuf => ?_⟩
    · exact congrArg Host.Outcome.next (portWrite_buffered hserving' hal hlen hneed (by rwa [advance_part]) (by rwa [hport]) (by rwa [advance_pur]))
    · exact congrArg Host.Outcome.next (portWrite_refused hserving' hal hlen hneed)
    · have hdone := writePerformed_word (s := advance at_ s) hal hlen hmap (by rwa [hport])
      simp only [advance_serves, advance_ld] at hdone
      exact ⟨_, rfl, hdone⟩
  · have hserving' : (advance at_ s).pur.serving = true := by rwa [advance_pur]
    have hport : (advance at_ s).port port = s.port port := port_of_ports (by rw [advance_pur]) port
    refine ⟨fun k hrange hneed hlevel hidle => ?_, fun hreading => ?_, fun hal => ?_, ?_⟩
    · exact congrArg Host.Outcome.next (portReadReq_starts hserving' hrange hneed (by rwa [advance_part]) (by rwa [hport]))
    · refine ⟨(hostRead port addr (len / 4) 0 (advance at_ s)).2.2.modPort port (fun p => { p with
        reading := none, rbuf := (hostRead port addr (len / 4) 0 (advance at_ s)).1, readDone := true,
        poisonWord := (hostRead port addr (len / 4) 0 (advance at_ s)).2.1 }), ?_, ?_, ?_, ?_⟩
      · change Host.Outcome.next (portReadComplete port (advance at_ s)) = _
        rw [portReadComplete, hport, hreading]
      · rw [port_modPort]
      · rw [port_modPort]
      · rw [port_modPort]
    · refine ⟨_, congrArg Host.Outcome.next (portReadBuf_answers hserving' hal n), rfl, by simp, fun i hi => ?_⟩
      rw [hport]
      simp [hi]
    · refine ⟨_, rfl, ?_, rfl⟩
      change ({ data := BitVec.ofNat 32 (portStatus (advance at_ s) port) } : Resp) = _
      rw [portStatus, portStatus, hport, advance_part]

end Sys2Proof.Machine
end

section
/-!
Supplies, domains, pins and temperatures (18 R683 to R702, R710).
-/
namespace Sys2Proof.Machine
set_option Elab.async false -- one proof at a time, as in the tests: the compile is close to its memory limit

/-! ### Findings -/

/-- Before the supervisor runs nothing is found. -/
theorem found_idle {s : State} (h : s.uptime = none) (at_ : Nat) (f : State → State) : found f (advance at_ s) = advance at_ s :=
  if_neg (by rw [advance_uptime_isSome, h]; decide)

theorem found_runs {s : State} (h : s.uptime ≠ none) (at_ : Nat) (f : State → State) : found f (advance at_ s) = f (advance at_ s) :=
  if_pos (by rw [advance_uptime_isSome, Option.isSome_iff_ne_none]; exact h)

theorem bitOf_putBit (n i : Nat) (b : Bool) (j : Nat) : bitOf (putBit n i b) j = if j = i then b else bitOf n j := by
  unfold putBit
  split
  · rename_i hb
    split
    · rename_i hj
      rw [hj, hb]
    · rfl
  · rename_i hb
    split
    · rename_i hset
      rw [bitOf_add_pow (by simpa [hset] using hb)]
      by_cases hj : j = i <;> simp [hj, hset]
    · rename_i hclear
      rw [bitOf_sub_pow (by simpa [hclear] using hb)]
      by_cases hj : j = i <;> simp [hj, hclear]

/-! ### Step pulses up to now (09 R357 to R360) -/

/-- What running the step generators can change. -/
def Stepped (t s : State) : Prop :=
  t = { s with a := { s.a with axe := t.a.axe }, b := { s.b with axe := t.b.axe }, arb := { s.arb with gapSteps := t.arb.gapSteps }, pins := t.pins }

theorem stepped_refl (s : State) : Stepped s s := rfl

theorem stepped_trans {u t s : State} (hu : Stepped u t) (ht : Stepped t s) : Stepped u s := by
  unfold Stepped at *
  rw [hu, ht]

theorem stepped_ite {c : Prop} [Decidable c] {t u s : State} (ht : Stepped t s) (hu : Stepped u s) : Stepped (if c then t else u) s := by
  split
  · exact ht
  · exact hu

theorem stepped_modAxis (s : State) (x : Side) (a : Nat) (f : Axis → Axis) : Stepped (s.modAxis x a f) s := by cases x <;> rfl

theorem stepped_runAxes (x : Side) (s : State) : Stepped (runAxes x s) s := by
  refine foldl_ind (Stepped · s) _ (fun u q hu => stepped_trans ?_ hu) _ s (stepped_refl s)
  dsimp only
  split
  · exact stepped_ite (stepped_trans rfl (stepped_modAxis ..)) (stepped_modAxis ..)
  · exact stepped_ite (stepped_trans rfl (stepped_modAxis ..)) (stepped_modAxis ..)

theorem stepped_settlePins (s : State) : Stepped (settlePins s) s := stepped_trans (stepped_runAxes ..) (stepped_runAxes ..)

@[simp] theorem settlePins_sup (s : State) : (settlePins s).sup = s.sup := (congrArg State.sup (stepped_settlePins s)).trans rfl

/-! ### The field domain (18 R684, 13 R488) -/

/-- The reports of the Bollard's work. -/
theorem finish_told (s : State) (w : BolWork) : Told (finish s w) { s with bol := w.b } :=
  foldl_ind (Told · { s with bol := w.b }) _ (fun u e hu => told_trans (told_raise .cable e.1 e.2 u) hu) w.ev _ (told_refl _)

theorem finish_bol (s : State) (w : BolWork) : (finish s w).bol = w.b := (congrArg State.bol (finish_told s w)).trans rfl

theorem och_modOch (b : Bollard) (i : Nat) (f : BolOutCh → BolOutCh) (k : Nat) : (b.modOch i f).och k = if k = i then f (b.och i) else b.och k :=
  Tab.get_upd ..

/-- The first `n` channels changed alike. -/
theorem och_foldl_modOch (f : BolOutCh → BolOutCh) (n : Nat) (b : Bollard) (k : Nat) :
    ((List.range n).foldl (fun b i => b.modOch i f) b).och k = if k < n then f (b.och k) else b.och k := by
  induction n generalizing k with
  | zero => rfl
  | succ n ih =>
    rw [List.range_succ, List.foldl_append, List.foldl_cons, List.foldl_nil, och_modOch, ih, ih]
    by_cases hk : k = n
    · rw [if_pos hk, if_neg (by lia), if_pos (by lia), hk]
    · by_cases hlt : k < n
      · rw [if_neg hk, if_pos hlt, if_pos (by lia)]
      · rw [if_neg hk, if_neg hlt, if_neg (by lia)]

theorem adriftHold_och (was : Bollard) (w : BolWork) (k : Nat) : (adriftHold was w).b.och k = w.b.och k := by
  unfold adriftHold
  dsimp only
  split <;> rfl

theorem bolFieldLost_told (s : State) : Told (bolFieldLost s) { s with bol := (bolFieldLost s).bol } := by
  have htold := finish_told s
  unfold bolFieldLost
  dsimp only
  rw [finish_bol]
  exact htold _

theorem bolFieldLost_off (s : State) {k : Nat} (hk : k < 16) : ((bolFieldLost s).bol.och k).on = false := by
  unfold bolFieldLost
  dsimp only
  rw [finish_bol, adriftHold_och, och_foldl_modOch, if_pos hk]

/-- The state in which the Bollard learns of the loss: the pulses have left, and the drivers are off. -/
def unpowered (code : Nat) (s : State) : State :=
  { (settlePins s).modSup (fun u => { u with field := false, fieldCause := code }) with
    pins := { (settlePins s).pins with off := allSteps, skip := 0 } }

theorem fieldOff_eq (code : Nat) (s : State) : fieldOff code s = bolFieldLost (unpowered code s) := rfl

theorem unpowered_sup (code : Nat) (s : State) : (unpowered code s).sup = { s.sup with field := false, fieldCause := code } := by
  rw [← settlePins_sup s]
  rfl

theorem fieldOff_leaves (code : Nat) (s : State) :
    let t := fieldOff code s
    t.sup = { s.sup with field := false, fieldCause := code } ∧ t.pins.off = 2 ^ 32 - 1 ∧ t.mode = s.mode ∧ t.roleA = s.roleA ∧ t.roleB = s.roleB
      ∧ (∀ k < 16, (t.bol.och k).on = false) ∧ t.arb.adrift = s.arb.adrift := by
  have hstep := stepped_settlePins s
  have htold := bolFieldLost_told (unpowered code s)
  have hoff : ∀ k < 16, ((bolFieldLost (unpowered code s)).bol.och k).on = false := fun k hk => bolFieldLost_off _ hk
  rw [fieldOff_eq]
  generalize bolFieldLost (unpowered code s) = t at htold hoff ⊢
  refine ⟨((congrArg State.sup htold).trans rfl).trans (unpowered_sup code s), (congrArg (fun u : State => u.pins.off) htold).trans rfl,
    ?_, ?_, ?_, hoff, ?_⟩
  · exact (congrArg State.mode htold).trans ((congrArg State.mode hstep).trans rfl)
  · exact (congrArg State.roleA htold).trans ((congrArg State.roleA hstep).trans rfl)
  · exact (congrArg State.roleB htold).trans ((congrArg State.roleB hstep).trans rfl)
  · exact (congrArg (fun u : State => u.arb.adrift) htold).trans ((congrArg (fun u : State => u.arb.adrift) hstep).trans rfl)

theorem fieldOn_leaves (s : State) :
    let t := raise .cable 0x1107 0 (fieldOn s)
    t.sup = { s.sup with field := true } ∧ t.pins.off = s.sup.stepShort ∧ t.pins.skip = 2 ^ 32 - 1 - s.sup.stepShort
      ∧ t.arb.adrift = s.arb.adrift ∧ t.mode = s.mode := by
  have hsup := settlePins_sup s
  dsimp only
  rw [raise_sup, raise_pins, raise_arb, raise_mode]
  refine ⟨?_, ?_, ?_, (congrArg (fun u : State => u.arb.adrift) (stepped_settlePins s)).trans rfl,
    (congrArg State.mode (stepped_settlePins s)).trans rfl⟩
  · rw [← hsup]
    rfl
  · rw [← hsup]
    rfl
  · rw [← hsup]
    rfl

/-! ### A landing that stops (01 R55, 18 R702) -/

/-- The supply and the landings held in reset are as they were. -/
def Supplied (t s : State) : Prop := t.sup = s.sup ∧ ∀ y, (t.ld y).slw.inReset = (s.ld y).slw.inReset

theorem supplied_refl (s : State) : Supplied s s := ⟨rfl, fun _ => rfl⟩

theorem supplied_trans {u t s : State} (hu : Supplied u t) (ht : Supplied t s) : Supplied u s := by
  obtain ⟨husup, hureset⟩ := hu
  obtain ⟨htsup, htreset⟩ := ht
  exact ⟨husup.trans htsup, fun y => (hureset y).trans (htreset y)⟩

theorem supplied_ite {c : Prop} [Decidable c] {t u s : State} (ht : Supplied t s) (hu : Supplied u s) : Supplied (if c then t else u) s := by
  split
  · exact ht
  · exact hu

theorem supplied_modLd (x : Side) {f : Landing → Landing} (s : State) (hf : ∀ l, (f l).slw.inReset = l.slw.inReset := by intro l; rfl) :
    Supplied (s.modLd x f) s := by
  refine ⟨modLd_sup .., fun y => ?_⟩
  by_cases hy : y = x
  · rw [hy, modLd_ld]
    exact hf _
  · rw [modLd_ne _ _ _ _ hy]

/-- An operation that leaves the supply and the landings. -/
theorem supplied_of {t s : State} (hsup : t.sup = s.sup) (hld : ∀ y, t.ld y = s.ld y) : Supplied t s := ⟨hsup, fun y => by rw [hld]⟩

theorem supplied_raise (src : Source) (code detail : Nat) (s : State) : Supplied (raise src code detail s) s :=
  ⟨raise_sup .., fun y => by rw [raise_ld]⟩

theorem supplied_complete (c : Pend) (st : Status) (d : List Byte) (p : Bool) (s : State) : Supplied (complete c st d p s) s :=
  supplied_of (complete_sup ..) fun _ => complete_ld ..

theorem supplied_settlePins (s : State) : Supplied (settlePins s) s := by
  refine ⟨settlePins_sup s, fun y => ?_⟩
  rw [stepped_settlePins s]
  cases y <;> rfl

theorem supplied_modArb (s : State) (f : Arbiter → Arbiter) : Supplied (s.modArb f) s := supplied_of rfl fun y => by cases y <;> rfl

theorem supplied_dropLoad (y : Side) (s : State) : Supplied (dropLoad y s) s :=
  supplied_trans (supplied_modLd y _) (supplied_of rfl fun z => by cases z <;> rfl)

theorem supplied_endChange (st : Status) (s : State) : Supplied (endChange st s) s := by
  unfold endChange
  split
  · exact supplied_refl s
  · rename_i c _
    refine supplied_trans (supplied_complete ..) (supplied_trans (supplied_of rfl fun y => by cases y <;> rfl) ?_)
    exact supplied_trans (supplied_modLd c.side _)
      (supplied_modArb ..)

theorem supplied_abandonChange (s : State) : Supplied (abandonChange s) s := by
  unfold abandonChange
  split
  · exact supplied_refl s
  · exact supplied_ite (supplied_refl s) (supplied_trans (supplied_endChange ..) (supplied_raise ..))

theorem supplied_endMarking (s : State) : Supplied (endMarking s) s :=
  eachSide_ind (Supplied · s) _ _ (fun x u hu => supplied_trans (supplied_modLd x u) hu) s (supplied_refl s)

theorem supplied_reportResync (failed : Bool) (r : Resync) (s : State) : Supplied (reportResync failed r s) s := by
  unfold reportResync
  cases r.cmd with
  | none => exact supplied_ite (supplied_raise ..) (supplied_refl s)
  | some c => exact supplied_trans (supplied_complete ..) (supplied_ite (supplied_raise ..) (supplied_refl s))

theorem supplied_abandonResync (s : State) : Supplied (abandonResync s) s := by
  unfold abandonResync
  cases hresync : s.arb.resync with
  | none =>
    unfold endResync
    rw [hresync]
    exact supplied_refl s
  | some r =>
    rw [endResync_some hresync]
    exact supplied_trans (supplied_reportResync ..) (supplied_trans (supplied_endMarking _) (supplied_modArb ..))

theorem supplied_closeSlw (y : Side) (s : State) : Supplied (closeSlw y s) s := by
  unfold closeSlw
  split
  · exact supplied_refl s
  · refine supplied_trans (supplied_ite ?_ (supplied_ite (supplied_modArb ..) (supplied_refl _))) (supplied_dropLoad y s)
    exact supplied_trans (supplied_of rfl fun z => by cases z <;> rfl) (supplied_modLd y _)

theorem supplied_keepSlw (y : Side) (s : State) : Supplied (keepSlw y s) s :=
  supplied_ite (supplied_refl s) (supplied_trans (supplied_modLd y _) (supplied_dropLoad y s))

theorem supplied_finishSlw (s : State) : Supplied (finishSlw s) s := by
  unfold finishSlw
  extract_lets q any cmd answer
  have hanswer : ∀ st v, Supplied (answer st v) v := fun st v => by
    show Supplied (match cmd with | some c => complete c st [] false v | none => v) v
    cases cmd with
    | none => exact supplied_refl v
    | some c => exact supplied_complete ..
  have hkept := supplied_trans (supplied_keepSlw .B _) (supplied_keepSlw .A s)
  split
  · exact supplied_trans (hanswer ..) (supplied_trans (supplied_closeSlw .B _) (supplied_trans (supplied_closeSlw .A _) (supplied_abandonResync s)))
  · exact supplied_trans (hanswer ..) hkept
  · exact supplied_trans (hanswer ..) hkept

theorem supplied_abandonWork (x : Side) (s : State) : Supplied (abandonWork x s) s := by
  unfold abandonWork
  extract_lets u give d v m c
  have hgive : ∀ c w, Supplied (give c w) w := fun c w => by
    show Supplied (match c with | some c => complete c .abandoned [] false w | none => w) w
    cases c with
    | none => exact supplied_refl w
    | some c => exact supplied_complete ..
  have hu : Supplied u s := supplied_ite (supplied_abandonResync s) (supplied_refl s)
  have hv : Supplied v u := by
    unfold v
    split
    · exact supplied_trans (supplied_ite (supplied_ite (hgive ..) (supplied_ite (supplied_finishSlw _) (supplied_refl _)))
        (supplied_ite (supplied_abandonChange _) (hgive ..))) (supplied_dropLoad x u)
    · exact supplied_refl u
  exact supplied_trans (hgive ..) (supplied_trans (hgive ..) (supplied_trans (supplied_modLd x _) (supplied_trans hv hu)))

theorem supplied_stopLanding (x : Side) (s : State) : Supplied (stopLanding x s) s :=
  supplied_trans (supplied_modLd x _) (supplied_trans (supplied_abandonWork ..) (supplied_settlePins s))

theorem stopLanding_running (x : Side) (s : State) : ((stopLanding x s).ld x).fmn.running = false := by
  unfold stopLanding
  rw [modLd_ld]

theorem stopLanding_mode_roles (x : Side) (s : State) :
    (stopLanding x s).mode = s.mode ∧ (stopLanding x s).roleA = s.roleA ∧ (stopLanding x s).roleB = s.roleB := by
  unfold stopLanding
  simp

/-- A landing without power: it stops, and the module keeps its roles. -/
theorem landingOff_leaves (x : Side) (f : Supply → Supply) (s : State) :
    let t := (stopLanding x s).modSup f
    t.sup = f s.sup ∧ (t.ld x).fmn.running = false ∧ t.roleA = s.roleA ∧ t.roleB = s.roleB := by
  obtain ⟨hsup, _⟩ := supplied_stopLanding x s
  obtain ⟨_, hA, hB⟩ := stopLanding_mode_roles x s
  refine ⟨congrArg f hsup, ?_, hA, hB⟩
  refine Eq.trans ?_ (stopLanding_running x s)
  cases x <;> rfl

theorem noteSingle_sup (s : State) : (noteSingle s).sup = s.sup := by
  unfold noteSingle
  split
  · exact raise_sup ..
  · rfl

theorem bankOff_sup (s : State) : (bankOff s).sup = s.sup := by simp only [bankOff]

theorem bankWithdraw_sup (bank : Nat) (s : State) : (bankWithdraw bank s).sup = s.sup := by
  have hlost : ∀ k (v : State), (noteSingle (bankOff (raise .cable 0x0D40 k v))).sup = v.sup := fun k v => by
    rw [noteSingle_sup, bankOff_sup, raise_sup]
  unfold bankWithdraw
  split
  · exact hlost 1 _
  · split
    · exact hlost 2 _
    · split
      · exact raise_sup ..
      · rfl

/-! ### Step outputs (18 R694) -/

theorem stepChecked_advance (at_ : Nat) (s : State) (n : Nat) : stepChecked (advance at_ s) n = stepChecked s n := by
  simp only [stepChecked, stepDesc, State.activeSide, advance_sup, advance_ld, advance_roleA, advance_roleB]

/-- A domain's power found lost (18 R685). -/
def domainLost (domain : Nat) (s : State) : State :=
  if domainOn s domain then domainOff domain (raise .cable 0x1108 domain s) else s

theorem domainLost_on {s : State} {k : Nat} (h : domainOn s k = true) : domainLost k s = domainOff k (raise .cable 0x1108 k s) := if_pos h

theorem domainLost_landA {s : State} (h : s.sup.landA = true) :
    domainLost 0 s = (stopLanding .A (raise .cable 0x1108 0 s)).modSup (fun u => { u with landA := false }) :=
  (domainLost_on (k := 0) h).trans (if_pos (by rwa [raise_sup]))

theorem domainLost_landB {s : State} (h : s.sup.landB = true) :
    domainLost 1 s = (stopLanding .B (raise .cable 0x1108 1 s)).modSup (fun u => { u with landB := false }) :=
  (domainLost_on (k := 1) h).trans (if_pos (by rwa [raise_sup]))

theorem domainLost_bank1 {s : State} (h : s.sup.bank1 = true) :
    (domainLost 2 s).bank1 = false ∧ (domainLost 2 s).bank2 = s.bank2 ∧ (domainLost 2 s).sup.bank1 = false := by
  rw [domainLost_on (k := 2) h]
  obtain ⟨h1, h2⟩ := bankWithdraw_banks 1 ((raise .cable 0x1108 2 s).modSup (fun u => { u with bank1 := false }))
  exact ⟨h1.trans (by simp), h2.trans (by simp [State.modSup]), congrArg Supply.bank1 (bankWithdraw_sup ..)⟩

theorem domainLost_bank2 {s : State} (h : s.sup.bank2 = true) :
    (domainLost 3 s).bank2 = false ∧ (domainLost 3 s).bank1 = s.bank1 ∧ (domainLost 3 s).sup.bank2 = false := by
  rw [domainLost_on (k := 3) h]
  obtain ⟨h1, h2⟩ := bankWithdraw_banks 2 ((raise .cable 0x1108 3 s).modSup (fun u => { u with bank2 := false }))
  exact ⟨h2.trans (by simp), h1.trans (by simp [State.modSup]), congrArg Supply.bank2 (bankWithdraw_sup ..)⟩

theorem domainLost_field {s : State} (h : s.sup.field = true) : domainLost 4 s = fieldOff 0x1108 (raise .cable 0x1108 4 s) :=
  (domainLost_on (k := 4) h).trans (if_pos (by rwa [raise_sup]))

/-- A short found: the pair is off. -/
def shorted (n : Nat) (s : State) : State :=
  { (settlePins s).modSup (fun u => { u with stepShort := putBit u.stepShort n true }) with
    pins := { (settlePins s).pins with off := putBit (settlePins s).pins.off n true } }

theorem shorted_leaves (n : Nat) (s : State) :
    let t := raise .cable 0x1109 n (shorted n s)
    bitOf t.sup.stepShort n = true ∧ bitOf t.pins.off n = true ∧ t.mode = s.mode ∧ t.arb.adrift = s.arb.adrift := by
  dsimp only
  rw [raise_sup, raise_pins, raise_mode, raise_arb]
  exact ⟨(bitOf_putBit ..).trans (if_pos rfl), (bitOf_putBit ..).trans (if_pos rfl), (congrArg State.mode (stepped_settlePins s)).trans rfl,
    (congrArg (fun u : State => u.arb.adrift) (stepped_settlePins s)).trans rfl⟩

/-- A driver pair that is on again. -/
def retried (n : Nat) (s : State) : State :=
  { (settlePins s).modSup (fun u => { u with stepShort := putBit u.stepShort n false }) with
    pins := { (settlePins s).pins with off := putBit (settlePins s).pins.off n false, skip := putBit (settlePins s).pins.skip n false } }

theorem retried_leaves (n : Nat) (s : State) :
    bitOf (retried n s).sup.stepShort n = false ∧ bitOf (retried n s).pins.off n = false ∧ (retried n s).mode = s.mode :=
  ⟨(bitOf_putBit ..).trans (if_pos rfl), (bitOf_putBit ..).trans (if_pos rfl), (congrArg State.mode (stepped_settlePins s)).trans rfl⟩

/-! ### The module stopped (01 R55, 18 R684) -/

/-- What a stop of the module keeps is as it was. -/
structure Lasts (t s : State) : Prop where
  flash : ∀ x, (t.ld x).flash = (s.ld x).flash
  slots : t.pur.slots = s.pur.slots
  params : t.bol.slots = s.bol.slots
  copy1 : t.log.flash1 = s.log.flash1
  copy2 : t.log.flash2 = s.log.flash2
  rtc : t.rtc = s.rtc

theorem lasts_trans {u t s : State} (hu : Lasts u t) (ht : Lasts t s) : Lasts u s :=
  ⟨fun x => (hu.flash x).trans (ht.flash x), hu.slots.trans ht.slots, hu.params.trans ht.params, hu.copy1.trans ht.copy1, hu.copy2.trans ht.copy2,
    hu.rtc.trans ht.rtc⟩

theorem lasts_modSup (f : Supply → Supply) (s : State) : Lasts (s.modSup f) s := ⟨fun x => by cases x <;> rfl, rfl, rfl, rfl, rfl, rfl⟩

theorem lasts_ite {c : Prop} [Decidable c] {t u s : State} (ht : Lasts t s) (hu : Lasts u s) : Lasts (if c then t else u) s := by
  split
  · exact ht
  · exact hu

theorem lasts_raise (src : Source) (code detail : Nat) (s : State) : Lasts (raise src code detail s) s := by
  have hreported := reported_raise src code detail s
  obtain ⟨hcopy1, hcopy2⟩ := reported_flash hreported
  exact ⟨fun _ => raise_flash .., reported_slots hreported, by rw [raise_bol], hcopy1, hcopy2, raise_rtc ..⟩

theorem lasts_settlePins (s : State) : Lasts (settlePins s) s := by
  rw [stepped_settlePins s]
  exact ⟨fun x => by cases x <;> rfl, rfl, rfl, rfl, rfl, rfl⟩

theorem lasts_tempHigh (x : Side) (t : Int) (was : Bool) (s : State) : Lasts (tempHigh x t was s) s :=
  lasts_ite (lasts_trans (lasts_raise ..) (lasts_modSup ..)) (lasts_modSup ..)

/-- What time that passes keeps of what a stop keeps: all but the seconds of the clock. -/
structure Timeless (u s : State) : Prop where
  ld : ∀ x, u.ld x = s.ld x
  pur : u.pur = s.pur
  bol : u.bol = s.bol
  log : u.log = s.log
  rtcMem : u.rtc.mem = s.rtc.mem

theorem advance_timeless (at_ : Nat) (s : State) : Timeless (advance at_ s) s :=
  ⟨advance_ld at_ s, advance_pur .., advance_bol .., advance_log .., advance_rtcMem ..⟩

theorem stopped_ends {v u s : State} (h : Lasts v u) (hu : Timeless u s) :
    let t := stopped v
    t.uptime = none ∧ t.roleA = .none ∧ t.roleB = .none ∧ (∀ x, (t.ld x).flash = (s.ld x).flash)
      ∧ t.pur.slots = s.pur.slots ∧ t.bol.slots = s.bol.slots ∧ t.log.flash1 = s.log.flash1 ∧ t.log.flash2 = s.log.flash2
      ∧ t.rtc.mem = s.rtc.mem ∧ t.rtc.seconds = u.rtc.seconds ∧ ∀ x, (t.ld x).mem = [] := by
  obtain ⟨hflash, hslots, hparams, hcopy1, hcopy2, hrtc⟩ := h
  rw [hu.pur] at hslots
  rw [hu.bol] at hparams
  rw [hu.log] at hcopy1 hcopy2
  refine ⟨rfl, rfl, rfl, fun x => ?_, hslots, hparams, hcopy1, hcopy2, (congrArg Rtc.mem hrtc).trans hu.rtcMem, (congrArg Rtc.seconds hrtc :),
    fun x => by cases x <;> rfl⟩
  have hkept := (hflash x).trans (congrArg Landing.flash (hu.ld x))
  cases x <;> exact hkept

/-! ### Temperatures (18 R702) -/

/-- The readings of one second, and which landings are hot. -/
def readings (a b c base : Byte) (va vb : Word) (u : Supply) : Supply :=
  { u with tempA := a, tempB := b, tempC := c, tempBase := base, va := va, vb := vb,
           hotA := decide (105 < celsius a) || (u.hotA && decide (100 ≤ celsius a)),
           hotB := decide (105 < celsius b) || (u.hotB && decide (100 ≤ celsius b)) }

/-- The state after the readings, before the limits. -/
def heated (a b c base : Byte) (va vb : Word) (s : State) : State :=
  let s := s.modSup (fun u => { u with tempA := a, tempB := b, tempC := c, tempBase := base, va := va, vb := vb })
  tempHigh .B (celsius b) s.sup.hotB (tempHigh .A (celsius a) s.sup.hotA s)

theorem tempHigh_sup (x : Side) (t : Int) (was : Bool) (s : State) :
    (tempHigh x t was s).sup = (match x with
      | .A => { s.sup with hotA := decide (105 < t) || (was && decide (100 ≤ t)) }
      | .B => { s.sup with hotB := decide (105 < t) || (was && decide (100 ≤ t)) }) := by
  have hboth : ∀ v : State, (tempHigh x t was v).sup = (v.modSup (fun u => match x with
      | .A => { u with hotA := decide (105 < t) || (was && decide (100 ≤ t)) }
      | .B => { u with hotB := decide (105 < t) || (was && decide (100 ≤ t)) })).sup := fun v => by
    unfold tempHigh
    dsimp only
    split
    · exact raise_sup ..
    · rfl
  rw [hboth]
  cases x <;> rfl

theorem heated_sup (a b c base : Byte) (va vb : Word) (s : State) : (heated a b c base va vb s).sup = readings a b c base va vb s.sup := by
  unfold heated
  rw [tempHigh_sup, tempHigh_sup]
  rfl

theorem heated_same (a b c base : Byte) (va vb : Word) (s : State) : Same (heated a b c base va vb s) s :=
  same_trans (tempHigh_same ..) (same_trans (tempHigh_same ..) (modSup_same ..))

theorem heated_lasts (a b c base : Byte) (va vb : Word) (s : State) : Lasts (heated a b c base va vb s) s := by
  unfold heated
  exact lasts_trans (lasts_tempHigh ..) (lasts_trans (lasts_tempHigh ..) (lasts_modSup ..))

theorem readTemps_eq (a b c base : Byte) (va vb : Word) (s : State) :
    readTemps a b c base va vb s
      = if 125 < celsius c then
          stopped (settlePins (raise .cable 0x1110 2 (tempLimit .B (celsius b) (tempLimit .A (celsius a) (heated a b c base va vb s)))))
        else tempLimit .B (celsius b) (tempLimit .A (celsius a) (heated a b c base va vb s)) := rfl

theorem tempLimit_cool {x : Side} {t : Int} (h : t ≤ 120) (s : State) : tempLimit x t s = s := by
  unfold tempLimit
  exact if_neg (by simp [Int.not_lt.mpr h])

/-- A landing too hot is held in reset; the other's hold stays. -/
theorem tempLimit_leaves (x : Side) (t : Int) (s : State) :
    (tempLimit x t s).sup = s.sup ∧ (∀ y, y ≠ x → ((tempLimit x t s).ld y).slw.inReset = (s.ld y).slw.inReset)
      ∧ (120 < t → s.powered x = true → ((tempLimit x t s).ld x).slw.inReset = true) ∧ (tempLimit x t s).mode = s.mode
      ∧ (tempLimit x t s).roleA = s.roleA ∧ (tempLimit x t s).roleB = s.roleB := by
  unfold tempLimit
  split
  · obtain ⟨hsup, hreset⟩ := supplied_trans (supplied_stopLanding x _) (supplied_raise .cable 0x1110 x.num s)
    obtain ⟨hmode, hA, hB⟩ := stopLanding_mode_roles x (raise .cable 0x1110 x.num s)
    refine ⟨(modLd_sup ..).trans hsup, fun y hy => ?_, fun _ _ => ?_, (modLd_mode ..).trans (hmode.trans (raise_mode ..)),
      (modLd_roleA ..).trans (hA.trans (raise_roleA ..)), (modLd_roleB ..).trans (hB.trans (raise_roleB ..))⟩
    · rw [State.modSlw, modLd_ne _ _ _ _ hy]
      exact hreset y
    · rw [State.modSlw, modLd_ld]
  · rename_i hcold
    refine ⟨rfl, fun _ _ => rfl, fun ht hpower => ?_, rfl, rfl, rfl⟩
    simpa [ht, hpower] using hcold

theorem powered_of_sup {t s : State} (h : t.sup = s.sup) (x : Side) : t.powered x = s.powered x := by
  unfold State.powered
  rw [h]

theorem readTemps_runs {a b c base : Byte} {va vb : Word} {s : State} (hc : celsius c ≤ 125) :
    let t := readTemps a b c base va vb s
    t.sup = readings a b c base va vb s.sup ∧ (120 < celsius a → s.sup.landA = true → (t.ld .A).slw.inReset = true)
      ∧ (120 < celsius b → s.sup.landB = true → (t.ld .B).slw.inReset = true) ∧ t.mode = s.mode ∧ t.roleA = s.roleA ∧ t.roleB = s.roleB := by
  obtain ⟨_, hA, hB, _, hmode, _⟩ := heated_same a b c base va vb s
  have hsup := heated_sup a b c base va vb s
  generalize hu : heated a b c base va vb s = u at hA hB hmode hsup
  have heq : readTemps a b c base va vb s = tempLimit .B (celsius b) (tempLimit .A (celsius a) u) := by
    rw [readTemps_eq, if_neg (Int.not_lt.mpr hc), hu]
  obtain ⟨hsupA, _, hresetA, hmodeA, hroleAA, hroleAB⟩ := tempLimit_leaves .A (celsius a) u
  obtain ⟨hsupB, hotherB, hresetB, hmodeB, hroleBA, hroleBB⟩ := tempLimit_leaves .B (celsius b) (tempLimit .A (celsius a) u)
  dsimp only
  rw [heq]
  refine ⟨hsupB.trans (hsupA.trans hsup), fun hhot hland => ?_, fun hhot hland => ?_, hmodeB.trans (hmodeA.trans hmode),
    hroleBA.trans (hroleAA.trans hA), hroleBB.trans (hroleAB.trans hB)⟩
  · rw [hotherB .A (by decide)]
    refine hresetA hhot ?_
    rw [State.powered, hsup]
    exact hland
  · refine hresetB hhot ?_
    rw [powered_of_sup hsupA, State.powered, hsup]
    exact hland

/-- Settles O60: each finding's own lemma, at the instant it is found. -/
theorem supplyActs : Obligations.SupplyActs := by
  unfold Obligations.SupplyActs
  intro at_ input i n now time domain ok v va vb a b c base s
  dsimp only
  have hkept : Timeless (advance at_ s) s := advance_timeless at_ s
  have hsup : (advance at_ s).sup = s.sup := advance_sup at_ s
  have hmode : (advance at_ s).mode = s.mode := advance_mode at_ s
  have harb : (advance at_ s).arb = s.arb := advance_arb at_ s
  have hpins : (advance at_ s).pins = s.pins := advance_pins at_ s
  have hroleA : (advance at_ s).roleA = s.roleA := advance_roleA at_ s
  have hroleB : (advance at_ s).roleB = s.roleB := advance_roleB at_ s
  have hbank1 : (advance at_ s).bank1 = s.bank1 := advance_bank1 at_ s
  have hbank2 : (advance at_ s).bank2 = s.bank2 := advance_bank2 at_ s
  have hcheck : stepChecked (advance at_ s) n = stepChecked s n := stepChecked_advance at_ s n
  have hidle : s.uptime = none → ∀ f, Host.Outcome.next (found f (advance at_ s)) = (.next (advance at_ s) : Host.Outcome State Fault Refusal) :=
    fun hno f => congrArg _ (found_idle hno at_ f)
  have hruns : s.uptime ≠ none → ∀ f, Host.Outcome.next (found f (advance at_ s)) = (.next (f (advance at_ s)) : Host.Outcome State Fault Refusal) :=
    fun hup f => congrArg _ (found_runs hup at_ f)
  have hstop : exec (.moduleStop at_) s = .next (stopped (settlePins (advance at_ s))) := rfl
  refine ⟨fun hno => ?_, ⟨_, hstop, stopped_ends (lasts_settlePins _) hkept⟩, fun hup => ?_⟩
  · have hidle := hidle hno
    exact ⟨hidle _, hidle _, hidle _, hidle _, hidle _, hidle _, hidle _, hidle _, hidle _, hidle _, hidle _, hidle _, hidle _, hidle _,
      hidle _, hidle _, hidle _, hidle _, hidle _⟩
  have hruns := hruns hup
  refine ⟨⟨hruns _, hruns _, hruns _, hruns _, hruns _, hruns _, hruns _, hruns _⟩, ?_⟩
  refine ⟨fun hoff => ?_, fun hon => ?_, fun hon => ?_, fun hoff => ?_, fun hoff => ?_, fun hland => ?_, fun hland => ?_, fun hbank => ?_,
    fun hbank => ?_, fun hon => ?_, fun hno => ?_, fun hchecked => ?_, fun hok hon hshort => ?_, fun hok => ?_, fun hchecked hpin => ?_,
    fun hi => ?_, hruns _, fun hi => ?_, hruns _, fun hn => ?_, fun hn => ?_, hruns _, fun hc => ?_, fun hc ha hb => ?_⟩
  · exact (hruns _).trans (congrArg _ (if_neg (by simp [hoff])))
  · refine ⟨_, (hruns _).trans (congrArg _ (if_pos (by rwa [hsup]))), ?_⟩
    have hleaves := fieldOff_leaves 0x1106 (raise .cable 0x1106 0 (advance at_ s))
    simpa only [raise_sup, raise_mode, raise_roleA, raise_roleB, raise_arb, hsup, hmode, hroleA, hroleB, harb] using hleaves
  · exact (hruns _).trans (congrArg _ (if_pos (by rwa [hsup])))
  · refine ⟨_, (hruns _).trans (congrArg _ (if_neg (by simp [hoff]))), ?_⟩
    have hleaves := fieldOn_leaves (advance at_ s)
    simpa only [hsup, hmode, harb] using hleaves
  · refine (hruns _).trans (congrArg _ (if_neg ?_))
    have hoff1 : domainOn (advance at_ s) domain = false := by simpa only [domainOn, hsup] using hoff
    simp [hoff1]
  · refine ⟨_, (hruns (domainLost 0)).trans (congrArg _ (domainLost_landA (hsup ▸ hland))), ?_⟩
    have hleaves := landingOff_leaves .A (fun u => { u with landA := false }) (raise .cable 0x1108 0 (advance at_ s))
    simpa only [raise_sup, raise_roleA, raise_roleB, hsup, hroleA, hroleB] using hleaves
  · refine ⟨_, (hruns (domainLost 1)).trans (congrArg _ (domainLost_landB (hsup ▸ hland))), ?_⟩
    have hleaves := landingOff_leaves .B (fun u => { u with landB := false }) (raise .cable 0x1108 1 (advance at_ s))
    simpa only [raise_sup, raise_roleA, raise_roleB, hsup, hroleA, hroleB] using hleaves
  · obtain ⟨hoff, hother, hlost⟩ := domainLost_bank1 (s := advance at_ s) (hsup ▸ hbank)
    exact ⟨_, hruns (domainLost 2), hoff, hother.trans hbank2, hlost⟩
  · obtain ⟨hoff, hother, hlost⟩ := domainLost_bank2 (s := advance at_ s) (hsup ▸ hbank)
    exact ⟨_, hruns (domainLost 3), hoff, hother.trans hbank1, hlost⟩
  · refine ⟨_, (hruns (domainLost 4)).trans (congrArg _ (domainLost_field (hsup ▸ hon))), ?_⟩
    have hleaves := fieldOff_leaves 0x1108 (raise .cable 0x1108 4 (advance at_ s))
    simpa only [raise_sup, raise_mode, raise_roleA, raise_roleB, raise_arb, hsup, hmode, hroleA, hroleB, harb] using hleaves
  · have hno1 : stepChecked (advance at_ s) n = false := hcheck.trans hno
    exact ⟨(hruns _).trans (congrArg _ (if_neg (by simp [hno1]))), (hruns _).trans (congrArg _ (if_neg (by simp [hno1])))⟩
  · have hyes1 : stepChecked (advance at_ s) n = true := hcheck.trans hchecked
    refine ⟨raise .cable 0x1109 n (shorted n (advance at_ s)), (hruns _).trans (congrArg _ (if_pos hyes1)), ?_⟩
    have hleaves := shorted_leaves n (advance at_ s)
    simpa only [hmode, harb] using hleaves
  · refine ⟨retried n (advance at_ s), (hruns _).trans (congrArg _ (if_pos (by simp [hok, hon, hshort]))), ?_⟩
    have hleaves := retried_leaves n (advance at_ s)
    simpa only [hmode] using hleaves
  · exact (hruns _).trans (congrArg _ (if_neg (by simp [hok])))
  · have hyes1 : stepChecked (advance at_ s) n = true := hcheck.trans hchecked
    exact (hruns _).trans (congrArg _ (if_pos (by simp [hyes1, hpin])))
  · exact (hruns _).trans (congrArg _ (if_pos hi))
  · exact (hruns _).trans (congrArg _ (if_pos hi))
  · exact (hruns _).trans (congrArg _ (if_pos hn))
  · refine ⟨_, (hruns _).trans (congrArg _ (if_pos hn)), ?_, ?_⟩
    · rw [raise_sup]
      rfl
    · rw [raise_sup]
      by_cases hzero : n = 0
      · simp [hzero, State.modSup]
      · have hone : n = 1 := by lia
        simp [hone, State.modSup]
  · refine ⟨_, hruns _, ?_⟩
    have hleaves := readTemps_runs (a := a) (b := b) (base := base) (va := va) (vb := vb) (s := (advance at_ s)) hc
    simpa only [readings, hsup, hmode, hroleA, hroleB] using hleaves
  · refine ⟨_, (hruns _).trans (congrArg _ ((readTemps_eq ..).trans (if_pos hc))), ?_⟩
    rw [tempLimit_cool ha, tempLimit_cool hb]
    exact stopped_ends (lasts_trans (lasts_settlePins _) (lasts_trans (lasts_raise ..) (heated_lasts ..))) hkept

end Sys2Proof.Machine
end

section
/-!
What the operations of the CAN ports change and what they leave: the controllers of a port on one landing and on both, the port records, and
the reports between them (14 R538, R543 to R552).
-/
namespace Sys2Proof.Machine
set_option Elab.async false -- one proof at a time, as in the tests: the compile is close to its memory limit

/-! ### Tables written twice -/

section
variable {α : Type}

theorem Tab.erase_free {t : Tab α} {i : Nat} (h : ∀ e ∈ t, e.1 ≠ i) : Tab.erase t i = t := by
  induction t with
  | nil => rfl
  | cons e t ih => rw [Tab.erase, if_neg (h e List.mem_cons_self), ih (fun f hf => h f (List.mem_cons_of_mem _ hf))]

theorem Tab.erase_ins {t : Tab α} {i : Nat} (v : α) (h : ∀ e ∈ t, e.1 ≠ i) : Tab.erase (Tab.ins i v t) i = t := by
  induction t with
  | nil => simp [Tab.ins, Tab.erase]
  | cons e t ih =>
    rw [Tab.ins]
    split
    · rw [Tab.erase, if_pos rfl]
      exact Tab.erase_free h
    · rw [Tab.erase, if_neg (h e List.mem_cons_self), ih (fun f hf => h f (List.mem_cons_of_mem _ hf))]

theorem Tab.erase_set [DecidableEq α] (d : α) (t : Tab α) (i : Nat) (v : α) : Tab.erase (Tab.set d t i v) i = Tab.erase t i := by
  rw [Tab.set]
  split
  · exact Tab.erase_free (Tab.erase_ne t i)
  · exact Tab.erase_ins v (Tab.erase_ne t i)

theorem Tab.set_set [DecidableEq α] (d : α) (t : Tab α) (i : Nat) (v w : α) : Tab.set d (Tab.set d t i v) i w = Tab.set d t i w := by
  rw [Tab.set, Tab.erase_set, Tab.set]

theorem Tab.upd_upd [DecidableEq α] (d : α) (t : Tab α) (i : Nat) (f g : α → α) :
    Tab.upd d (Tab.upd d t i f) i g = Tab.upd d t i (fun a => g (f a)) := by
  simp only [Tab.upd, Tab.get_set_self, Tab.set_set]

/-- Entries of a range rewritten one after the other. -/
theorem Tab.get_foldl_set [DecidableEq α] (d : α) (c : Nat → Bool) (v : Nat → α) (t : Tab α) (k n : Nat) :
    Tab.get d ((List.range k).foldl (fun t b => if c b then Tab.set d t b (v b) else t) t) n
      = if n < k ∧ c n = true then v n else Tab.get d t n := by
  induction k with
  | zero => simp
  | succ k ih =>
    rw [List.range_succ, List.foldl_append, List.foldl_cons, List.foldl_nil]
    by_cases hn : n = k
    · subst hn
      cases hc : c n <;> simp [hc, ih]
    · have hlt : n < k + 1 ↔ n < k := by lia
      simp only [hlt]
      split
      · rw [Tab.get_set_ne _ _ _ _ _ hn, ih]
      · rw [ih]

end

/-! ### A controller of one landing, of both, and a port record -/

section
variable (s : State) (x y : Side) (p : Nat)

@[simp] theorem modCan_port (f : CanCtl → CanCtl) : ((s.modCan x p f).ld x).can.port p = f ((s.ld x).can.port p) := by
  simp [State.modCan, Can.port]

@[simp] theorem modCan_other (f : CanCtl → CanCtl) : (s.modCan x p f).ld x.other = s.ld x.other := modLd_other ..

theorem modCan_ld (f : CanCtl → CanCtl) :
    (s.modCan x p f).ld x = { s.ld x with can := { (s.ld x).can with ports := Tab.upd {} (s.ld x).can.ports p f } } := modLd_ld ..

@[simp] theorem modCan_fmn (f : CanCtl → CanCtl) : ((s.modCan x p f).ld y).fmn = (s.ld y).fmn := by cases x <;> cases y <;> rfl

@[simp] theorem modCan_mem (f : CanCtl → CanCtl) : ((s.modCan x p f).ld y).mem = (s.ld y).mem := by cases x <;> cases y <;> rfl

@[simp] theorem modCan_start (f : CanCtl → CanCtl) : ((s.modCan x p f).ld y).can.start = (s.ld y).can.start := by
  cases x <;> cases y <;> rfl

@[simp] theorem modCan_canRec (f : CanCtl → CanCtl) : (s.modCan x p f).canRec = s.canRec := modLd_canRec ..

@[simp] theorem modCan_mode (f : CanCtl → CanCtl) : (s.modCan x p f).mode = s.mode := modLd_mode ..

theorem modCan_nowNs (f : CanCtl → CanCtl) : (s.modCan x p f).nowNs = s.nowNs := by cases x <;> rfl

theorem modCan_modCan (f g : CanCtl → CanCtl) : (s.modCan x p f).modCan x p g = s.modCan x p (fun c => g (f c)) := by
  rw [State.modCan, State.modCan, modLd_modLd, State.modCan]
  exact modLd_congr s x (by simp only [Tab.upd_upd])

/-- A controller under a change of one landing's controller. -/
theorem modCan_portOf (f : CanCtl → CanCtl) :
    ((s.modCan x p f).ld y).can.port p = if y = x then f ((s.ld y).can.port p) else (s.ld y).can.port p := by
  split
  · subst y
    exact modCan_port ..
  · rename_i hne
    rw [State.modCan, modLd_ne _ _ _ _ hne]

@[simp] theorem bothCan_port (f : CanCtl → CanCtl) : ((bothCan p f s).ld y).can.port p = f ((s.ld y).can.port p) := by
  cases y <;> simp [bothCan, modCan_portOf]

@[simp] theorem bothCan_fmn (f : CanCtl → CanCtl) : ((bothCan p f s).ld y).fmn = (s.ld y).fmn := by simp [bothCan]

@[simp] theorem bothCan_mem (f : CanCtl → CanCtl) : ((bothCan p f s).ld y).mem = (s.ld y).mem := by simp [bothCan]

@[simp] theorem bothCan_canRec (f : CanCtl → CanCtl) : (bothCan p f s).canRec = s.canRec := by simp [bothCan]

@[simp] theorem bothCan_mode (f : CanCtl → CanCtl) : (bothCan p f s).mode = s.mode := by simp [bothCan]

theorem bothCan_landings (f : CanCtl → CanCtl) : LandingsOnly (bothCan p f s) s := by
  unfold bothCan State.modCan
  exact landingsOnly_trans (ldOnly_landings (ldOnly_modLd ..)) (ldOnly_landings (ldOnly_modLd ..))

theorem modCanPort_mode (f : CanPort → CanPort) (p : Nat) (s : State) : (s.modCanPort p f).mode = s.mode := rfl

@[simp] theorem modCanPort_canPort (f : CanPort → CanPort) : (s.modCanPort p f).canPort p = f (s.canPort p) := by
  simp [State.modCanPort, State.canPort]

theorem modCanPort_canPort_ne {n : Nat} (h : n ≠ p) (f : CanPort → CanPort) : (s.modCanPort p f).canPort n = s.canPort n := by
  simp [State.modCanPort, State.canPort, Tab.get_upd, h]

@[simp] theorem modCanPort_ld (f : CanPort → CanPort) : (s.modCanPort p f).ld y = s.ld y := by cases y <;> rfl

theorem canPort_congr {t s : State} (h : t.canRec = s.canRec) (p : Nat) : t.canPort p = s.canPort p := by
  rw [State.canPort, h, State.canPort]

@[simp] theorem advance_canPort (n : Nat) : (advance n s).canPort p = s.canPort p := canPort_congr (advance_canRec ..) p

end

@[simp] theorem raise_can (src : Source) (code detail : Nat) (s : State) (y : Side) :
    ((raise src code detail s).ld y).can = (s.ld y).can := by rw [raise_ld]

/-- Of a fault that is raised at most once per second, the landings' controllers, images and memories and the port records are kept. -/
theorem raisePerSecond_keeps (src : Source) (code detail key : Nat) (s : State) (y : Side) :
    let t := raisePerSecond src code detail key s
    (t.ld y).can = (s.ld y).can ∧ (t.ld y).fmn = (s.ld y).fmn ∧ t.canRec = s.canRec := by
  have hlast : ∀ l, ({ s with lastRaised := l } : State).ld y = s.ld y := fun l => by cases y <;> rfl
  simp only [raisePerSecond, raiseWithin]
  split
  · exact ⟨rfl, rfl, rfl⟩
  · simp [hlast]

/-! ### Who takes part on the bus -/

/-- What decides who takes part on the bus: the roles, the images, the port records and the supply of the field. -/
theorem canOnBus_congr {t s : State} (hsame : Same t s) (hfmn : ∀ y, (t.ld y).fmn = (s.ld y).fmn) (hrec : t.canRec = s.canRec)
    (hsup : t.sup = s.sup) (x : Side) (p : Nat) : canOnBus t x p = canOnBus s x p := by
  simp only [canOnBus, State.serves, role_of_same hsame, hfmn, canPort_congr hrec, hsup]

theorem activeSide_of_same {t s : State} (h : Same t s) : t.activeSide = s.activeSide := by
  have hA : t.roleA = s.roleA := role_of_same h .A
  have hB : t.roleB = s.roleB := role_of_same h .B
  simp only [State.activeSide, hA, hB]

theorem canSends_congr {t s : State} (hsame : Same t s) (hfmn : ∀ y, (t.ld y).fmn = (s.ld y).fmn) (hrec : t.canRec = s.canRec)
    (x : Side) (p : Nat) : canSends t x p = canSends s x p := by
  simp only [canSends, activeSide_of_same hsame, hfmn, canPort_congr hrec]

@[simp] theorem advance_canOnBus (n : Nat) (s : State) (x : Side) (p : Nat) : canOnBus (advance n s) x p = canOnBus s x p :=
  canOnBus_congr (advance_same ..) (fun y => by rw [advance_ld]) (advance_canRec ..) (advance_sup ..) x p

@[simp] theorem advance_canSends (n : Nat) (s : State) (x : Side) (p : Nat) : canSends (advance n s) x p = canSends s x p :=
  canSends_congr (advance_same ..) (fun y => by rw [advance_ld]) (advance_canRec ..) x p

@[simp] theorem advance_passes (n : Nat) (s : State) (x : Side) : (advance n s).passes x = s.passes x := by
  simp only [State.passes, advance_activeSide, advance_arb]

/-! ### Fields of a port's controllers that an operation keeps -/

/-- The field `g` of the controllers of port `p` is the same on both landings. -/
structure KeepsCtl {α : Type} (g : CanCtl → α) (p : Nat) (t s : State) : Prop where
  port : ∀ y, g ((t.ld y).can.port p) = g ((s.ld y).can.port p)

section
variable {α : Type} {g : CanCtl → α} {p : Nat}

theorem keepsCtl_refl (s : State) : KeepsCtl g p s s := ⟨fun _ => rfl⟩

theorem keepsCtl_trans {u t s : State} (hu : KeepsCtl g p u t) (ht : KeepsCtl g p t s) : KeepsCtl g p u s :=
  ⟨fun y => (hu.port y).trans (ht.port y)⟩

theorem keepsCtl_ite {c : Prop} [Decidable c] {t u s : State} (ht : KeepsCtl g p t s) (hu : KeepsCtl g p u s) :
    KeepsCtl g p (if c then t else u) s := by
  split
  · exact ht
  · exact hu

theorem keepsCtl_of {t s : State} (h : ∀ y, (t.ld y).can = (s.ld y).can) : KeepsCtl g p t s := ⟨fun y => by rw [h]⟩

theorem keepsCtl_raise (src : Source) (code detail : Nat) (s : State) : KeepsCtl g p (raise src code detail s) s :=
  keepsCtl_of fun _ => raise_can ..

theorem keepsCtl_raisePerSecond (src : Source) (code detail key : Nat) (s : State) : KeepsCtl g p (raisePerSecond src code detail key s) s :=
  keepsCtl_of fun y => (raisePerSecond_keeps src code detail key s y).1

theorem keepsCtl_modCan (x : Side) (s : State) {f : CanCtl → CanCtl} (hf : ∀ c, g (f c) = g c := by intro c; rfl) :
    KeepsCtl g p (s.modCan x p f) s := by
  refine ⟨fun y => ?_⟩
  rw [modCan_portOf]
  split
  · exact hf _
  · rfl

theorem keepsCtl_bothCan (s : State) {f : CanCtl → CanCtl} (hf : ∀ c, g (f c) = g c := by intro c; rfl) :
    KeepsCtl g p (bothCan p f s) s :=
  ⟨fun y => by rw [bothCan_port, hf]⟩

theorem keepsCtl_modCanPort (f : CanPort → CanPort) (n : Nat) (s : State) : KeepsCtl g p (s.modCanPort n f) s :=
  keepsCtl_of fun y => by rw [modCanPort_ld]

end

end Sys2Proof.Machine
end

section
/-!
Errors, the time master and the commands of the CAN ports (14 R549 to R558): settles `Obligations.CanControl`.
-/
namespace Sys2Proof.Machine
set_option Elab.async false -- one proof at a time, as in the tests: the compile is close to its memory limit

/-! ### Errors (14 R549 to R552) -/

/-- The statistics of a controller that a bus error counts. -/
def errorCounts (c : CanCtl) : Nat × Nat × Nat × Nat × Nat := (c.bit, c.stuff, c.crc, c.ack, c.last)

/-- The fields of a controller that an error's reports and its end leave. -/
structure Settled {α : Type} (g : CanCtl → α) : Prop where
  pend : ∀ c t u, g { c with pend := t, next := u } = g c
  coll : ∀ c k, g { c with coll := k } = g c
  ack : ∀ c k b, g { c with ackRun := k, noAck := b } = g c

section
variable {α : Type} {g : CanCtl → α}

theorem keepsCtl_collision (hg : Settled g) (x : Side) (p key : Nat) (s : State) : KeepsCtl g p (collision x p key s) s := by
  have hraised : KeepsCtl g p (raise (.landing x) 0x0A06 key (s.modCan x p (fun c => { c with coll := Tab.set 0 c.coll key 0 }))) s :=
    keepsCtl_trans (keepsCtl_raise ..) (keepsCtl_modCan x s (fun c => hg.coll c _))
  unfold collision
  refine keepsCtl_ite (keepsCtl_trans (keepsCtl_bothCan _ (fun c => hg.pend c _ _)) ?_) hraised
  exact keepsCtl_trans (keepsCtl_modCanPort ..) hraised

theorem keepsCtl_confine (hg : Settled g) (hpassive : ∀ c b, g { c with passive := b } = g c) (x : Side) (p : Nat) (s : State) :
    KeepsCtl g p (confine x p s) s := by
  have hcleared : KeepsCtl g p (clearPending p s) s := keepsCtl_bothCan s (fun c => hg.pend c _ _)
  unfold confine
  refine keepsCtl_ite ?_ (keepsCtl_ite ?_ (keepsCtl_refl s))
  · exact keepsCtl_trans (keepsCtl_raise ..) (keepsCtl_trans (keepsCtl_modCanPort ..)
      (keepsCtl_trans (keepsCtl_modCan x _ (fun c => hpassive c _)) hcleared))
  · exact keepsCtl_trans (keepsCtl_raise ..) (keepsCtl_modCan x s (fun c => hpassive c _))

end

theorem settled_errorCounts : Settled errorCounts := ⟨fun _ _ _ => rfl, fun _ _ => rfl, fun _ _ _ => rfl⟩

theorem settled_tec : Settled CanCtl.tec := ⟨fun _ _ _ => rfl, fun _ _ => rfl, fun _ _ _ => rfl⟩

/-- A transmit error leaves the transmit counter as it is (14 R549). -/
def riseFree (e : CanErr) (c : CanCtl) : Bool := e.exempt || (e.typ = 5 && c.passive && !e.dominant)

/-- The counters of a controller after a transmit error; `free` where the transmit counter does not rise. -/
def transmitError (e : CanErr) (free : Bool) (c : CanCtl) : CanCtl :=
  { c with
    tec := if free then c.tec else min 256 (c.tec + 8)
    coll := if e.typ = 1 && e.dataField then Tab.upd 0 c.coll e.id (· + 1) else Tab.set 0 c.coll e.id 0 }

/-- A transmit error ends where the counters lead, and between only reports, collisions and the end of the attempt lie. -/
theorem countError_transmit {e : CanErr} {n : Nat} (htx : e.tx = some n) (x : Side) (p : Nat) (s : State) :
    ∃ u, countError x p e s = confine x p u
      ∧ ∀ {α : Type} (g : CanCtl → α), Settled g →
          KeepsCtl g p u (s.modCan x p (transmitError e (riseFree e ((s.ld x).can.port p)))) := by
  simp only [countError, htx]
  refine ⟨_, rfl, fun g hg => ?_⟩
  refine keepsCtl_trans (keepsCtl_bothCan _ (fun c => hg.pend c _ _)) ?_
  refine keepsCtl_trans (keepsCtl_ite (keepsCtl_collision hg ..) (keepsCtl_refl _)) ?_
  have hrun : ∀ t : State, ∀ k, KeepsCtl g p (bothCan p (fun c => { c with ackRun := k }) t) t :=
    fun t k => keepsCtl_bothCan t (fun c => hg.ack c k c.noAck)
  refine keepsCtl_trans (keepsCtl_ite (keepsCtl_trans (keepsCtl_raise ..) ?_) (keepsCtl_refl _)) (hrun ..)
  exact keepsCtl_bothCan _ (fun c => hg.ack c c.ackRun true)

theorem keepsCtl_countError (x : Side) (p : Nat) (e : CanErr) (s : State) : KeepsCtl errorCounts p (countError x p e s) s := by
  cases htx : e.tx with
  | none =>
    simp only [countError, htx]
    exact keepsCtl_ite (keepsCtl_refl s)
      (keepsCtl_trans (keepsCtl_confine settled_errorCounts (fun _ _ => rfl) ..) (keepsCtl_modCan x s))
  | some n =>
    obtain ⟨u, hu, hkeeps⟩ := countError_transmit htx x p s
    rw [hu]
    exact keepsCtl_trans (keepsCtl_confine settled_errorCounts (fun _ _ => rfl) ..)
      (keepsCtl_trans (hkeeps errorCounts settled_errorCounts) (keepsCtl_modCan x s))

/-- A port with the transmit counter above 255 is bus-off with nothing pending (14 R550). -/
theorem confine_off {x : Side} {p : Nat} {s : State} (h : 255 < ((s.ld x).can.port p).tec) :
    (((confine x p s).canPort p).off = 2 ∨ ((confine x p s).canPort p).off = 3) ∧ 0x0A03 ∈ (confine x p s).pur.alarms
      ∧ ∀ y, (((confine x p s).ld y).can.port p).pend = [] ∧ (((confine x p s).ld y).can.port p).next = [] := by
  have hoff : confine x p s = goBusOff x p s := by
    unfold confine
    exact if_pos h
  rw [hoff, goBusOff]
  refine ⟨?_, raise_alarm (by decide : severityOf 0x0A03 = some .alarm) rfl .., fun y => ?_⟩
  · rw [canPort_congr (raise_canRec ..), modCanPort_canPort]
    dsimp only
    split
    · exact .inr rfl
    · exact .inl rfl
  · rw [raise_can, modCanPort_ld, modCan_portOf, clearPending, bothCan_port]
    split
    · exact ⟨rfl, rfl⟩
    · exact ⟨rfl, rfl⟩

/-- The statistics of the controller at which a bus error is seen. -/
def countBusError (e : CanErr) (c : CanCtl) : CanCtl :=
  let up := fun (b : Bool) (v : Nat) => satAdd 0xFF v (b2n b)
  { c with
    bit := up (e.typ = 1) c.bit, stuff := up (e.typ = 2) c.stuff, crc := up (e.typ = 3 || e.typ = 4) c.crc,
    ack := up (e.typ = 5) c.ack, last := e.typ % 8, lastData := e.dataPhase }

/-- A bus error counted and reported, before the active controller's counters take it. -/
def busErrorSeen (x : Side) (p : Nat) (e : CanErr) (s : State) : State :=
  raisePerSecond (.landing x) 0x0A0C p p (s.modCan x p (countBusError e))

theorem busErrorSeen_port (x : Side) (p : Nat) (e : CanErr) (s : State) :
    ((busErrorSeen x p e s).ld x).can.port p = countBusError e ((s.ld x).can.port p) := by
  obtain ⟨hcan, -, -⟩ := raisePerSecond_keeps (.landing x) 0x0A0C p p (s.modCan x p (countBusError e)) x
  rw [busErrorSeen, hcan, modCan_port]

theorem busErrorSeen_canRec (x : Side) (p : Nat) (e : CanErr) (s : State) : (busErrorSeen x p e s).canRec = s.canRec := by
  obtain ⟨-, -, hrec⟩ := raisePerSecond_keeps (.landing x) 0x0A0C p p (s.modCan x p (countBusError e)) x
  rw [busErrorSeen, hrec, modCan_canRec]

theorem busErrorSeen_sends (x : Side) (p : Nat) (e : CanErr) (s : State) : canSends (busErrorSeen x p e s) x p = canSends s x p := by
  refine canSends_congr (same_trans (raisePerSecond_same ..) (modCan_same ..)) (fun y => ?_) (busErrorSeen_canRec ..) x p
  obtain ⟨-, hfmn, -⟩ := raisePerSecond_keeps (.landing x) 0x0A0C p p (s.modCan x p (countBusError e)) y
  exact hfmn.trans (modCan_fmn ..)

theorem busError_seen {x : Side} {p : Nat} {s : State} (h : canOnBus s x p = true) (e : CanErr) :
    busError x p e s = if canSends s x p then countError x p e (busErrorSeen x p e s) else busErrorSeen x p e s := by
  have hsends : busError x p e s
      = if canSends (busErrorSeen x p e s) x p then countError x p e (busErrorSeen x p e s) else busErrorSeen x p e s := by
    simp only [busError, h, Bool.not_true, Bool.false_eq_true, if_false]
    rfl
  rw [hsends, busErrorSeen_sends]

/-! ### The time master (14 R554 to R556) -/

/-- What an operation of the ports leaves beside the controllers. -/
def KeepsRecs (t s : State) : Prop := t.canRec = s.canRec ∧ t.mode = s.mode

theorem keepsRecs_refl (s : State) : KeepsRecs s s := ⟨rfl, rfl⟩

theorem keepsRecs_trans {u t s : State} (hu : KeepsRecs u t) (ht : KeepsRecs t s) : KeepsRecs u s := ⟨hu.1.trans ht.1, hu.2.trans ht.2⟩

theorem keepsRecs_ite {c : Prop} [Decidable c] {t u s : State} (ht : KeepsRecs t s) (hu : KeepsRecs u s) :
    KeepsRecs (if c then t else u) s := by
  split
  · exact ht
  · exact hu

theorem keepsRecs_raise (src : Source) (code detail : Nat) (s : State) : KeepsRecs (raise src code detail s) s :=
  ⟨raise_canRec .., raise_mode ..⟩

theorem keepsRecs_modCan (x : Side) (p : Nat) (f : CanCtl → CanCtl) (s : State) : KeepsRecs (s.modCan x p f) s :=
  ⟨modCan_canRec .., modCan_mode ..⟩

theorem keepsRecs_bothCan (p : Nat) (f : CanCtl → CanCtl) (s : State) : KeepsRecs (bothCan p f s) s := ⟨bothCan_canRec .., bothCan_mode ..⟩

theorem keepsRecs_landings {t s : State} (h : LandingsOnly t s) : KeepsRecs t s :=
  ⟨(congrArg State.canRec h).trans rfl, (congrArg State.mode h).trans rfl⟩

theorem keepsRecs_errorActive (x : Side) (p : Nat) (s : State) : KeepsRecs (errorActive x p s) s := by
  unfold errorActive
  exact keepsRecs_ite (keepsRecs_trans (keepsRecs_raise ..) (keepsRecs_modCan ..)) (keepsRecs_refl s)

theorem keepsRecs_sentOk (x : Side) (p : Nat) (s : State) : KeepsRecs (sentOk x p s) s := by
  unfold sentOk
  exact keepsRecs_ite (keepsRecs_refl s)
    (keepsRecs_trans (keepsRecs_errorActive ..) (keepsRecs_trans (keepsRecs_modCan ..) (keepsRecs_bothCan ..)))

theorem keepsRecs_postCan (x : Side) (p : Nat) (content : List Byte) (s : State) : KeepsRecs (postCan x p content s) s := by
  refine keepsRecs_trans (keepsRecs_modCan ..) ?_
  unfold takeRecord
  exact keepsRecs_ite (keepsRecs_refl s) ⟨rfl, rfl⟩

/-- A mailbox buffer is whole words: 8 bytes of stamp, then the content. -/
theorem canContent_words (f : CanFrame) (mailbox : Nat) (own : Option Nat) : (canContent f mailbox own).length % 8 = 0 := by
  simp only [canContent, List.length_append, leBytes_length, List.length_replicate]
  lia

/-- The bytes of a mailbox that took a frame with content `c` (14 R547). -/
def mailboxBytes (now : Nat) (c : List Byte) : List Byte := leBytes 8 now ++ c ++ List.replicate (88 - c.length) 0

theorem ldOnly_mailbox (x : Side) (p k now : Nat) (f : CanFrame) (own : Option Nat) (s : State) :
    LdOnly x (memPut x (canMailbox p k) (mailboxBytes now (canContent f k own)) s) s := by
  have hwords := canContent_words f k own
  refine ldOnly_memPut x (by unfold canMailbox; lia) ?_ s
  simp only [mailboxBytes, List.length_append, leBytes_length, List.length_replicate]
  lia

theorem offerFrame_taken {x : Side} {p k : Nat} {f : CanFrame} {own : Option Nat} {s : State}
    (h : (List.range 64).find? (fun k => mailboxTakes (s.ld x).fmn.img p k f own.isSome) = some k) :
    offerFrame x p f own s
      = let s1 := memPut x (canMailbox p k) (mailboxBytes s.nowNs (canContent f k own)) s
        if bitOf (canFilter (s.ld x).fmn.img p k).1 31 then postCan x p (canContent f k own) s1 else s1 := by
  simp only [offerFrame, h]
  rfl

theorem offerFrame_missed {x : Side} {p : Nat} {f : CanFrame} {own : Option Nat} {s : State}
    (h : (List.range 64).find? (fun k => mailboxTakes (s.ld x).fmn.img p k f own.isSome) = none) :
    offerFrame x p f own s
      = if own.isSome then s else s.modCan x p (fun c => { c with dropped := satAdd 0xFFFF c.dropped 1 }) := by
  simp only [offerFrame, h]

theorem keepsRecs_offerFrame (x : Side) (p : Nat) (f : CanFrame) (own : Option Nat) (s : State) :
    KeepsRecs (offerFrame x p f own s) s := by
  cases h : (List.range 64).find? (fun k => mailboxTakes (s.ld x).fmn.img p k f own.isSome) with
  | none =>
    rw [offerFrame_missed h]
    exact keepsRecs_ite (keepsRecs_refl s) (keepsRecs_modCan ..)
  | some k =>
    have hput := keepsRecs_landings (ldOnly_landings (ldOnly_mailbox x p k s.nowNs f own s))
    rw [offerFrame_taken h]
    exact keepsRecs_ite (keepsRecs_trans (keepsRecs_postCan ..) hput) hput

/-- The state a bus error is taken in, before it is counted: the counts it leaves, and what an error of a silent controller does not move. -/
theorem busError_counts {x : Side} {p : Nat} {s : State} (h : canOnBus s x p = true) (e : CanErr) :
    errorCounts (((busError x p e s).ld x).can.port p) = errorCounts (countBusError e ((s.ld x).can.port p)) := by
  rw [busError_seen h, ← busErrorSeen_port]
  split
  · exact (keepsCtl_countError ..).port x
  · rfl

theorem busError_silent {x : Side} {p : Nat} {s : State} (h : canOnBus s x p = true) (hsilent : canSends s x p = false) (e : CanErr) :
    busError x p e s = busErrorSeen x p e s := by
  rw [busError_seen h, hsilent]
  rfl

/-- A transmit error that counts lifts a transmit counter above 247 to bus-off (14 R550). -/
theorem busError_off {x : Side} {p : Nat} {s : State} {e : CanErr} {n : Nat} (h : canOnBus s x p = true) (hsends : canSends s x p = true)
    (htx : e.tx = some n) (hrise : riseFree e ((s.ld x).can.port p) = false) (htec : 247 < ((s.ld x).can.port p).tec) :
    ∃ u, busError x p e s = confine x p u ∧ 255 < ((u.ld x).can.port p).tec := by
  obtain ⟨u, hu, hkeeps⟩ := countError_transmit htx x p (busErrorSeen x p e s)
  refine ⟨u, by rw [busError_seen h, if_pos hsends, hu], ?_⟩
  rw [(hkeeps CanCtl.tec settled_tec).port x, modCan_port, busErrorSeen_port]
  have hfree : riseFree e (countBusError e ((s.ld x).can.port p)) = false := hrise
  simp only [transmitError, hfree, Bool.false_eq_true, if_false]
  change 255 < min 256 (((s.ld x).can.port p).tec + 8)
  lia

theorem busOffRecovery_idle {p : Nat} {s : State}
    (h : (s.canPort p).off ≠ 2 ∨ s.activeSide = none ∨ ∃ y, s.activeSide = some y ∧ canOnBus s y p = false) :
    busOffRecovery p s = s := by
  refine if_pos ?_
  rcases h with hoff | hnone | ⟨y, hside, hbus⟩
  · simp [hoff]
  · simp [hnone]
  · simp [hside, hbus]

theorem busOffRecovery_ends {p : Nat} {s : State} {y : Side} (hoff : (s.canPort p).off = 2) (hside : s.activeSide = some y)
    (hbus : canOnBus s y p = true) :
    busOffRecovery p s = raise (activeSource s) 0x0A04 p (resetCounters p (s.modCanPort p (fun r => { r with off := 0, disc := true }))) := by
  refine if_neg ?_
  simp [hoff, hside, hbus]

theorem resetCounters_port (p : Nat) (s : State) (y : Side) :
    ((resetCounters p s).ld y).can.port p = { (s.ld y).can.port p with tec := 0, rec_ := 0, passive := false } := bothCan_port ..

theorem clearPending_port (p : Nat) (s : State) (y : Side) :
    ((clearPending p s).ld y).can.port p = { (s.ld y).can.port p with pend := [], next := [] } := bothCan_port ..

theorem resetCounters_canRec (p : Nat) (s : State) : (resetCounters p s).canRec = s.canRec := bothCan_canRec ..

theorem clearPending_canRec (p : Nat) (s : State) : (clearPending p s).canRec = s.canRec := bothCan_canRec ..

theorem refDue_none {p : Nat} {s : State} (h : refDue s p = none) (sof : Nat) : sendReference p sof s = s ∧ refLate p s = s := by
  simp [sendReference, refLate, h]

theorem refLate_due {p k d : Nat} {y : Side} {s : State} (hdue : refDue s p = some (y, d, k)) :
    refLate p s = if (s.canPort p).refDone < k then raise (.landing y) 0x0A0B p (s.modCanPort p (fun r => { r with refDone := k })) else s := by
  simp only [refLate, hdue]

/-- The time-master message due last cannot go: it was sent or given up, or the landing does not send now. -/
theorem sendReference_held {p k d sof : Nat} {y : Side} {s : State} (hdue : refDue s p = some (y, d, k))
    (h : k < (s.canPort p).refDone ∨ canSends s y p = false ∨ canOnBus s y p = false ∨ s.passes y = false) : sendReference p sof s = s := by
  simp only [sendReference, hdue]
  refine if_pos ?_
  rcases h with h | h | h | h <;> simp [h]

/-- What a sent reference message leaves in its port record (14 R554, R555). -/
def refSentRec (k sof : Nat) (r : CanPort) : CanPort :=
  { r with disc := false, cycle := k % 64, refDisc := r.disc, refSent := (r.refSent + 1) % 65536, ref := refBytes k r.disc sof,
           refDone := k + 1 }

theorem sendReference_sent {p k d sof : Nat} {y : Side} {s : State} (hdue : refDue s p = some (y, d, k))
    (hdone : (s.canPort p).refDone ≤ k) (hsends : canSends s y p = true) (hbus : canOnBus s y p = true) (hpass : s.passes y = true) :
    KeepsRecs (sendReference p sof s) (s.modCanPort p (fun _ => refSentRec k sof (s.canPort p))) := by
  have hfree : ¬ (k < (s.canPort p).refDone || !canSends s y p || !canOnBus s y p || !s.passes y) = true := by
    simp [hsends, hbus, hpass, Nat.not_lt.mpr hdone]
  have hrec : s.modCanPort p (fun r => { r with
      disc := false, cycle := k % 64, refDisc := (s.canPort p).disc, refSent := (r.refSent + 1) % 65536,
      ref := refBytes k (s.canPort p).disc sof, refDone := k + 1 }) = s.modCanPort p (fun _ => refSentRec k sof (s.canPort p)) := rfl
  simp only [sendReference, hdue, if_neg hfree, hrec]
  exact eachSide_ind (KeepsRecs · _) _ _ (fun x u hu => keepsRecs_trans (keepsRecs_offerFrame ..) hu) _
    (keepsRecs_trans (keepsRecs_sentOk ..) (keepsRecs_bothCan ..))

theorem keepsRecs_canPort {t s : State} (h : KeepsRecs t s) (n : Nat) : t.canPort n = s.canPort n := canPort_congr h.1 n

/-! ### The commands (14 R557, R558) -/

theorem begun_canRec (s : State) (h : CmdHdr) : (s.begun h).canRec = s.canRec := (accept_canRec ..).trans (advance_canRec ..)

@[simp] theorem begun_canPort (s : State) (h : CmdHdr) (p : Nat) : (s.begun h).canPort p = s.canPort p := canPort_congr (begun_canRec s h) p

@[simp] theorem advance_canConfigured (n : Nat) (s : State) (p : Nat) : canConfigured (advance n s) p = canConfigured s p := by
  simp only [canConfigured, advance_lead, advance_ld]

theorem raiseIsolated_keeps (p : Nat) (s : State) :
    (raiseIsolated p s).canRec = s.canRec ∧ ∀ y, ((raiseIsolated p s).ld y).can = (s.ld y).can := by
  refine eachSide_ind (fun t => t.canRec = s.canRec ∧ ∀ y, (t.ld y).can = (s.ld y).can) _ _ (fun x u hu => ?_) s ⟨rfl, fun _ => rfl⟩
  exact ⟨(raise_canRec ..).trans hu.1, fun y => (raise_can ..).trans (hu.2 y)⟩

section
variable {h : CmdHdr} {p : Nat} {s : State} (hcfg : canConfigured s p = true)
include hcfg

theorem exec_canIsolate (hm : h.may 2 [1, 2, 3, 4, 5] s) (hopen : (s.canPort p).isolated = false) :
    exec (.canIsolate h p) s = .next ((raiseIsolated p (clearPending p
      ((s.begun h).modCanPort p (fun r => { r with isolated := true })))).answered h 0x0A01 .done []) :=
  congrArg _ (hostCommand_may hm (by simp [hcfg, hopen]) 0x0A01 _)

theorem exec_canRestore (hm : h.may 2 [1, 2, 3, 4, 5] s) (hshut : (s.canPort p).isolated = true) :
    exec (.canRestore h p) s = .next ((raiseIsolated p (resetCounters p
      ((s.begun h).modCanPort p (fun r => { r with isolated := false, off := 0, disc := true })))).answered h 0x0A02 .done []) :=
  congrArg _ (hostCommand_may hm (by simp [hcfg, hshut]) 0x0A02 _)

theorem exec_canBusOn (hm : h.may 1 [1, 2, 3, 4, 5] s) (hoff : (s.canPort p).off = 3) (hflag : canFlag (s.ld s.lead).fmn.img p 1 = true) :
    exec (.canBusOn h p) s = .next (((s.begun h).modCanPort p (fun r => { r with off := 2 })).answered h 0x0A03 .done []) :=
  congrArg _ (hostCommand_may hm (by simp [hcfg, hoff, hflag]) 0x0A03 _)

theorem exec_canReleaseId {id : Nat} {ext : Bool} (hm : h.may 1 [1, 2, 3, 4, 5] s) (hid : id < 2 ^ 29)
    (hsupp : id + b2n ext * 2 ^ 29 ∈ (s.canPort p).supp) :
    exec (.canReleaseId h p id ext) s = .next (((s.begun h).modCanPort p (fun r =>
      { r with supp := r.supp.filter (fun k => k ≠ id + b2n ext * 2 ^ 29) })).answered h 0x0A04 .done []) :=
  congrArg _ (hostCommand_may hm (by simpa [hcfg] using ⟨hid, hsupp⟩) 0x0A04 _)

end

/-- Settles O51: the statistics and the transmit counter are followed through the steps of a bus error, the port record through the time
master's message, and each command is the effect that the model gives it. -/
theorem canControl : Obligations.CanControl := by
  unfold Obligations.CanControl
  intro at_ p sof id ext x e h s
  dsimp only
  have hport : ((advance at_ s).ld x).can.port p = (s.ld x).can.port p := by rw [advance_ld]
  refine ⟨fun hbus => ?_, fun hbus => ⟨_, rfl, ?_, fun n hsends htx hexempt hrise htec => ?_⟩, ⟨fun hidle => ?_, fun y hside hbus => ?_,
    fun y hoff hside hbus => ⟨_, rfl, ?_⟩⟩, ⟨fun hnone => ?_, fun y d k hdue => ⟨fun hheld => ?_, fun hdone hsends hbus hpass => ⟨_, rfl, ?_⟩,
    fun hlate => ?_, fun hdone => ?_⟩⟩, fun hcfg => ⟨fun hm hopen => ⟨_, exec_canIsolate hcfg hm hopen, ?_⟩,
    fun hm hshut => ⟨_, exec_canRestore hcfg hm hshut, ?_⟩, fun hm hoff hflag => exec_canBusOn hcfg hm hoff hflag,
    fun hm hid hsupp => exec_canReleaseId hcfg hm hid hsupp⟩⟩
  · exact congrArg _ (if_pos (by simpa using hbus))
  · have hon : canOnBus (advance at_ s) x p = true := by simpa using hbus
    have hcounts := busError_counts hon e
    simp only [errorCounts, Prod.mk.injEq, hport] at hcounts
    obtain ⟨hbit, hstuff, hcrc, hack, hlast⟩ := hcounts
    refine ⟨hbit, hstuff, hcrc, hack, hlast, fun hsilent => ?_⟩
    rw [busError_silent hon (by simpa using hsilent), busErrorSeen_port, busErrorSeen_canRec, hport]
    exact ⟨rfl, rfl, rfl, advance_canRec ..⟩
  · have hfree : riseFree e (((advance at_ s).ld x).can.port p) = false := by
      rw [hport]
      rcases hrise with hrise | hrise | hrise <;> simp [riseFree, hexempt, hrise]
    obtain ⟨u, hu, hover⟩ := busError_off (by simpa using hbus) (by simpa using hsends) htx hfree (by rwa [hport])
    rw [hu]
    exact confine_off hover
  · exact congrArg _ (busOffRecovery_idle (hidle.imp (by simp) (fun hnone => .inl (by rw [advance_activeSide, hnone]))))
  · exact congrArg _ (busOffRecovery_idle (.inr (.inr ⟨y, by rw [advance_activeSide, hside], by simpa using hbus⟩)))
  · rw [busOffRecovery_ends (by simpa using hoff) (by rw [advance_activeSide, hside]) (by simpa using hbus)]
    refine ⟨?_, fun z => ?_⟩
    · rw [canPort_congr (raise_canRec ..), canPort_congr (resetCounters_canRec ..), modCanPort_canPort, advance_canPort]
    · rw [raise_can, resetCounters_port]
      exact ⟨rfl, rfl, rfl⟩
  · obtain ⟨hsend, hlate⟩ := refDue_none hnone sof
    exact ⟨congrArg _ hsend, congrArg _ hlate⟩
  · exact congrArg _ (sendReference_held hdue (by simpa using hheld))
  · have hkeeps := sendReference_sent (sof := sof) hdue (by simpa using hdone) (by simpa using hsends) (by simpa using hbus)
      (by simpa using hpass)
    refine ⟨?_, (hkeeps.2.trans (modCanPort_mode ..)).trans (advance_mode ..), fun n hn => ?_⟩
    · rw [keepsRecs_canPort hkeeps, modCanPort_canPort, advance_canPort]
      rfl
    · rw [keepsRecs_canPort hkeeps, modCanPort_canPort_ne _ _ hn, advance_canPort]
  · exact congrArg _ ((refLate_due hdue).trans (if_pos (by rwa [advance_canPort])))
  · exact congrArg _ ((refLate_due hdue).trans (if_neg (by rw [advance_canPort]; exact Nat.not_lt.mpr hdone)))
  · obtain ⟨hrec, hcan⟩ := raiseIsolated_keeps p (clearPending p ((s.begun h).modCanPort p (fun r => { r with isolated := true })))
    refine ⟨?_, fun n hn => ?_, fun y => ?_⟩
    · rw [canPort_congr hrec, canPort_congr (clearPending_canRec ..), modCanPort_canPort, begun_canPort]
    · rw [canPort_congr hrec, canPort_congr (clearPending_canRec ..), modCanPort_canPort_ne _ _ hn, begun_canPort]
    · rw [hcan, clearPending_port]
      exact ⟨rfl, rfl⟩
  · obtain ⟨hrec, hcan⟩ := raiseIsolated_keeps p
      (resetCounters p ((s.begun h).modCanPort p (fun r => { r with isolated := false, off := 0, disc := true })))
    refine ⟨?_, fun n hn => ?_, fun y => ?_⟩
    · rw [canPort_congr hrec, canPort_congr (resetCounters_canRec ..), modCanPort_canPort, begun_canPort]
    · rw [canPort_congr hrec, canPort_congr (resetCounters_canRec ..), modCanPort_canPort_ne _ _ hn, begun_canPort]
    · rw [hcan, resetCounters_port]
      exact ⟨rfl, rfl⟩

end Sys2Proof.Machine
end

section
/-!
Frames sent and received on the CAN ports (14 R541 to R548): settles `Obligations.CanFrames`. Its first part, reads of clean memory and what
the selector does with an item, serves every unit that hands items over (02 R58, 10 R390 to R403).
-/
namespace Sys2Proof.Machine
set_option Elab.async false -- one proof at a time, as in the tests: the compile is close to its memory limit

/-! ### Reads of clean memory (12 R451) -/

theorem classify_zero : classify 0#8 = .clean := classify_clean

theorem peekWord_clean {l : Landing} (h : l.syn = []) (a : Nat) : (peekWord l a).p = false := by
  simp [peekWord, h, classify_zero]

section
variable {x : Side} {s : State} (h : (s.ld x).syn = [])
include h

theorem readEffects_clean (a : Nat) : readEffects x a s = s := by
  simp [readEffects, h, classify_zero]

theorem memReadN_clean (a n : Nat) : (memReadN x a n s).2 = s := by
  induction n generalizing a with
  | zero => rfl
  | succ n ih => simp only [memReadN, memRead, readEffects_clean h, ih]

theorem memReadN_sound (a n : Nat) : ∀ w ∈ (memReadN x a n s).1, w.p = false := by
  induction n generalizing a with
  | zero => simp [memReadN]
  | succ n ih =>
    simp only [memReadN, memRead, readEffects_clean h, List.mem_cons]
    rintro w (rfl | hw)
    · exact peekWord_clean h a
    · exact ih _ w hw

theorem memReadN_cons (a n : Nat) : (memReadN x a (1 + n) s).1 = peekWord (s.ld x) a :: (memReadN x (a + 8) n s).1 := by
  rw [Nat.add_comm]
  simp only [memReadN, memRead, readEffects_clean h]

end

/-! ### Items handed to the selector (10 R390, R394, R403) -/

@[simp] theorem modLd_passes (s : State) (x y : Side) (f : Landing → Landing) : (s.modLd x f).passes y = s.passes y := by
  simp only [State.passes, State.activeSide, modLd_roleA, modLd_roleB, modLd_arb]
  rfl

section
variable {deliver : OutItem → State → State} {x : Side} {i : OutItem} {s : State} (hsound : i.poisoned = false)
include hsound

/-- A sound item of a landing whose outputs do not pass only enters its digest. -/
theorem handItem_kept (hpass : s.passes x = false) :
    handItem deliver x i s = s.modLd x (fun l => { l with items := l.items ++ [{ i with leg := s.legOf i.cycle }] }) := by
  have hpoison : ({ i with leg := s.legOf i.cycle } : OutItem).poisoned = false := hsound
  have hpasses : (s.modLd x (fun l => { l with items := l.items ++ [{ i with leg := s.legOf i.cycle }] })).passes x = false := by
    rw [modLd_passes, hpass]
  simp only [handItem, hpoison, Bool.false_eq_true, if_false, hpasses, Bool.not_false, if_true]

/-- A sound item of the active landing outside the compare window goes to its pins, unless Adrift. -/
theorem handItem_delivered (hpass : s.passes x = true) (hadrift : s.arb.adrift = false)
    (hlate : 2400 ≤ i.cycle % max 1 (s.tick.period / 10)) :
    handItem deliver x i s = deliver { i with leg := s.legOf i.cycle }
      (s.modLd x (fun l => { l with items := l.items ++ [{ i with leg := s.legOf i.cycle }] })) := by
  have hpoison : ({ i with leg := s.legOf i.cycle } : OutItem).poisoned = false := hsound
  have hpasses : (s.modLd x (fun l => { l with items := l.items ++ [{ i with leg := s.legOf i.cycle }] })).passes x = true := by
    rw [modLd_passes, hpass]
  have hheld : (s.modLd x (fun l => { l with items := l.items ++ [{ i with leg := s.legOf i.cycle }] })).holds
      { i with leg := s.legOf i.cycle } = false := by
    simp [State.holds, Nat.not_lt.mpr hlate]
  have hselect : selectItem (s.modLd x (fun l => { l with items := l.items ++ [{ i with leg := s.legOf i.cycle }] })) x
      { i with leg := s.legOf i.cycle } = some { i with leg := s.legOf i.cycle } := by
    simp [selectItem, hadrift]
  simp only [handItem, hpoison, Bool.false_eq_true, if_false, hpasses, Bool.not_true, hheld, passItem, hselect, Bool.false_and]

end

theorem poisoned_false {i : OutItem} (h : ∀ w ∈ i.words, w.p = false) : i.poisoned = false := by
  simpa [OutItem.poisoned] using h

/-! ### Sending (14 R541 to R543) -/

/-- The words of data of a transmit item with header word `w` (14 R540). -/
def canItemData (w : Nat) : Nat := if bitOf w 19 then 0 else (min 64 (bits w 31 24) + 7) / 8

/-- The item of transmit buffer `job` with header word `w` and words `ws` is well formed (14 R540). -/
def canItemOk (m : Tab Byte) (job w : Nat) (ws : List Pw) : Bool :=
  canHeadOk m (bits w 7 0) (bits w 15 8) (bits w 23 16) (bits w 31 24) (bits w 63 32) && bits w 7 0 == job / 16
    && padZero (bitOf w 19) (bits w 31 24) (ws.drop 1)

/-- The item of transmit buffer `job` as it is handed to the selector (14 R541). -/
def canItem (x : Side) (job cycle : Nat) (inTx : Bool) (ws : List Pw) (s : State) : OutItem :=
  { key := Tab.get 0 (s.ld x).can.keys job - 1, cycle := cycle, port := 0x26, sub := job % 128 + 128 * b2n inTx, words := ws }

theorem canSendOp_clean {x : Side} {s : State} (h : (s.ld x).syn = []) (job cycle : Nat) (inTx : Bool) :
    let w := (peekWord (s.ld x) (canBuffer job)).v.toNat
    let ws := (memReadN x (canBuffer job) (1 + canItemData w) s).1
    (∀ v ∈ ws, v.p = false)
      ∧ canSendOp x job cycle inTx s
        = if canItemOk (s.ld x).fmn.img job w ws then handItem deliverCan x (canItem x job cycle inTx ws s) s
          else raisePerSecond (.landing x) 0x0A07 (job / 16) (job / 16) s := by
  dsimp only
  have hsound := memReadN_sound h (canBuffer job) (1 + canItemData (peekWord (s.ld x) (canBuffer job)).v.toNat)
  refine ⟨hsound, ?_⟩
  have hany : (memReadN x (canBuffer job) (1 + canItemData (peekWord (s.ld x) (canBuffer job)).v.toNat) s).1.any (fun w => w.p) = false := by
    simpa using hsound
  rw [memReadN_cons h] at hany ⊢
  simp only [canItemData, bits] at hany
  simp only [canSendOp, memRead, readEffects_clean h, memReadN_clean h, hany]
  simp only [canItemOk, canItem, canItemData, bits, List.drop_succ_cons, List.drop_zero]
  have hswap : ∀ (c : Bool) (t u : State), (if (!false && !c) = true then t else u) = if c = true then u else t := by
    intro c t u
    cases c <;> rfl
  exact hswap ..

/-- An item waits in its empty buffer on both landings where its port takes it (14 R543). -/
theorem deliverCan_waits {i : OutItem} {s : State} {job : Nat} {inTx : Bool} (hjob : job < 128) (hsub : i.sub = job % 128 + 128 * b2n inTx)
    (hopen : (s.canPort (job / 16)).isolated = false) (hoff : (s.canPort (job / 16)).off = 0)
    (hsupp : idKey (frameOf (ofWords i.words)).frame ∉ (s.canPort (job / 16)).supp)
    (hempty : Tab.get none ((s.ld s.lead).can.port (job / 16)).pend (job % 16) = none) :
    deliverCan i s = bothCan (job / 16) (fun c =>
      { c with pend := Tab.set none c.pend (job % 16) (some (frameOf (ofWords i.words))) }) s := by
  have hp : i.sub % 128 / 16 = job / 16 := by rw [hsub]; lia
  have hb : i.sub % 16 = job % 16 := by rw [hsub]; lia
  have hfree : ((s.canPort (job / 16)).isolated || (s.canPort (job / 16)).off ≠ 0
      || (s.canPort (job / 16)).supp.contains (idKey (frameOf (ofWords i.words)).frame)) = false := by
    simpa [hopen, hoff] using hsupp
  simp only [deliverCan, hp, hb, hfree, hempty, Bool.false_eq_true, if_false, Option.isSome_none, Bool.and_false]

/-- The state in which a dispatch entry's operation runs. -/
theorem markIssued_same_advance (x : Side) (e at_ : Nat) (s : State) : Same (markIssued x e (advance at_ s)) s :=
  same_trans (markIssued_same ..) (advance_same ..)

theorem exec_canSend {x : Side} {job cyc e : Nat} {s : State} (he : entryFor (s.ld x).fmn 10 1 (some job) (some cyc) = some e)
    (at_ : Nat) (inTx : Bool) : exec (.canSend at_ x job cyc inTx) s
      = .next (keepUndo x e (s.ld x) (canSendOp x job (cyc + 24) inTx (markIssued x e (advance at_ s)))) :=
  congrArg _ (runEntry_started he _ at_)

/-! ### Frames on the bus (14 R544 to R547) -/

/-- What the end of an attempt leaves in the buffers: a waiting frame takes the place of the pending one, and `own` is cleared. -/
theorem endAttempt_pend (own : Option Nat) (c : CanCtl) {n : Nat} (hn : n < 16) :
    Tab.get none (endAttempt own c).pend n
      = if own = some n ∨ (Tab.get none c.next n).isSome then Tab.get none c.next n else Tab.get none c.pend n := by
  refine (Tab.get_foldl_set none (fun b => own = some b || (Tab.get none c.next b).isSome) (fun b => Tab.get none c.next b) c.pend 16 n).trans ?_
  simp [hn]

theorem endAttempt_freed (c : CanCtl) {n : Nat} (hn : n < 16) :
    Tab.get none (endAttempt none c).pend n = (Tab.get none c.next n).orElse (fun _ => Tab.get none c.pend n) := by
  rw [endAttempt_pend none c hn]
  cases Tab.get none c.next n <;> simp

theorem receivedOk_silent {x : Side} {p : Nat} {s : State} (h : canSends s x p = false) : receivedOk x p s = s := by
  simp [receivedOk, h]

theorem sentOk_silent {x : Side} {p : Nat} {s : State} (h : canSends s x p = false) : sentOk x p s = s := by
  simp [sentOk, h]

theorem takeCanFrame_other {x : Side} {p : Nat} {f : CanFrame} {s : State} (h : ownBuffer ((s.ld x).can.port p) f = none) :
    takeCanFrame x p f s = offerFrame x p f none (s.modCan x p (endAttempt none)) := by
  simp only [takeCanFrame, h, Option.map_none]

theorem takeRecord_ld (from_ : Option Side) (cls port stamp : Nat) (content : List Byte) (s : State) (y : Side) :
    (takeRecord from_ cls port stamp content s).ld y = s.ld y := by
  unfold takeRecord
  split
  · rfl
  · cases y <;> rfl

/-- The controllers and the port records under a posted record: its own count alone moves. -/
theorem postCan_ld (x : Side) (p : Nat) (content : List Byte) (s : State) :
    (postCan x p content s).ld x = (s.modCan x p (fun c => { c with posted := satAdd 0xFFFF c.posted 1 })).ld x
      ∧ (postCan x p content s).ld x.other = s.ld x.other := by
  have hld : ∀ y, (takeRecord (some x) 7 p s.nowNs content s).ld y = s.ld y := fun y => takeRecord_ld ..
  refine ⟨?_, ?_⟩
  · rw [postCan, modCan_ld, modCan_ld, hld]
  · rw [postCan, modCan_other, hld]

/-- The fields of a controller that a mailbox and a posted record leave. -/
structure Untold {α : Type} (g : CanCtl → α) : Prop where
  posted : ∀ c k, g { c with posted := k } = g c
  dropped : ∀ c k, g { c with dropped := k } = g c

section
variable {α : Type} {g : CanCtl → α} {p : Nat}

theorem keepsCtl_takeRecord (from_ : Option Side) (cls port stamp : Nat) (content : List Byte) (s : State) :
    KeepsCtl g p (takeRecord from_ cls port stamp content s) s := keepsCtl_of fun y => by rw [takeRecord_ld]

theorem keepsCtl_postCan (hposted : ∀ c k, g { c with posted := k } = g c) (x : Side) (content : List Byte) (s : State) :
    KeepsCtl g p (postCan x p content s) s :=
  keepsCtl_trans (keepsCtl_modCan x _ (fun c => hposted c _)) (keepsCtl_takeRecord ..)

theorem keepsCtl_memPut (x : Side) (a : Nat) (data : List Byte) (s : State) : KeepsCtl g p (memPut x a data s) s := by
  obtain ⟨⟨hother, -, -, -⟩, hland⟩ := memoryOnly_memPut (x := x) a data s
  refine keepsCtl_of fun y => ?_
  by_cases hy : y = x
  · rw [hy, hland]
  · rw [show y = x.other by cases x <;> cases y <;> simp_all [Side.other], hother]

theorem keepsCtl_offerFrame (hg : Untold g) (x : Side) (f : CanFrame) (own : Option Nat) (s : State) :
    KeepsCtl g p (offerFrame x p f own s) s := by
  cases h : (List.range 64).find? (fun k => mailboxTakes (s.ld x).fmn.img p k f own.isSome) with
  | none =>
    rw [offerFrame_missed h]
    exact keepsCtl_ite (keepsCtl_refl s) (keepsCtl_modCan x s (fun c => hg.dropped c _))
  | some k =>
    rw [offerFrame_taken h]
    exact keepsCtl_ite (keepsCtl_trans (keepsCtl_postCan hg.posted ..) (keepsCtl_memPut ..)) (keepsCtl_memPut ..)

theorem keepsCtl_sentOk (hg : ∀ c k b t, g { c with ackRun := k, noAck := b, tec := t } = g c)
    (hpassive : ∀ c b, g { c with passive := b } = g c) (x : Side) (s : State) : KeepsCtl g p (sentOk x p s) s := by
  unfold sentOk errorActive
  have hcounted : KeepsCtl g p ((bothCan p (fun c => { c with ackRun := 0, noAck := false }) s).modCan x p
      (fun c => { c with tec := c.tec - 1 })) s :=
    keepsCtl_trans (keepsCtl_modCan x _ (fun c => hg c c.ackRun c.noAck _)) (keepsCtl_bothCan s (fun c => hg c 0 false c.tec))
  refine keepsCtl_ite (keepsCtl_refl s) (keepsCtl_ite ?_ hcounted)
  exact keepsCtl_trans (keepsCtl_raise ..) (keepsCtl_trans (keepsCtl_modCan x _ (fun c => hpassive c _)) hcounted)

end

/-- A mailbox that takes a frame leaves the buffers and the count of frames dropped. -/
theorem offerFrame_taken_ctl {x : Side} {p k : Nat} {f : CanFrame} {own : Option Nat} {s : State}
    (h : (List.range 64).find? (fun k => mailboxTakes (s.ld x).fmn.img p k f own.isSome) = some k) :
    (((offerFrame x p f own s).ld x).can.port p).pend = ((s.ld x).can.port p).pend
      ∧ (((offerFrame x p f own s).ld x).can.port p).dropped = ((s.ld x).can.port p).dropped := by
  have hkeeps : ∀ {α : Type} (g : CanCtl → α), (∀ c k, g { c with posted := k } = g c) → KeepsCtl g p (offerFrame x p f own s) s :=
    fun g hg => by
      rw [offerFrame_taken h]
      exact keepsCtl_ite (keepsCtl_trans (keepsCtl_postCan hg ..) (keepsCtl_memPut ..)) (keepsCtl_memPut ..)
  exact ⟨(hkeeps CanCtl.pend fun _ _ => rfl).port x, (hkeeps CanCtl.dropped fun _ _ => rfl).port x⟩

theorem offerFrame_ld_other (x : Side) (p : Nat) (f : CanFrame) (own : Option Nat) (s : State) :
    (offerFrame x p f own s).ld x.other = s.ld x.other := by
  cases h : (List.range 64).find? (fun k => mailboxTakes (s.ld x).fmn.img p k f own.isSome) with
  | none =>
    rw [offerFrame_missed h]
    split
    · rfl
    · exact modCan_other ..
  | some k =>
    have hput := ldOnly_other (ldOnly_mailbox x p k s.nowNs f own s)
    rw [offerFrame_taken h]
    dsimp only
    split
    · exact (postCan_ld ..).2.trans hput
    · exact hput

/-- The first bytes of a range. -/
theorem peekBytes_take (l : Landing) (a : Nat) {n k : Nat} (h : k ≤ n) : (peekBytes l a n).take k = peekBytes l a k := by
  induction k generalizing a n with
  | zero => rfl
  | succ k ih =>
    obtain ⟨m, rfl⟩ : ∃ m, n = m + 1 := ⟨n - 1, by lia⟩
    rw [peekBytes, List.take_succ_cons, ih (a + 1) (by lia), peekBytes]

/-- A mailbox that took a frame begins with the stamp and the frame's head (14 R547). -/
theorem mailboxBytes_head (now : Nat) (f : CanFrame) (k : Nat) (own : Option Nat) :
    16 ≤ (mailboxBytes now (canContent f k own)).length
      ∧ (mailboxBytes now (canContent f k own)).take 16 = leBytes 8 now ++ (canContent f k own).take 8 := by
  have hlen : 8 ≤ (canContent f k own).length := by
    simp only [canContent, List.length_append, leBytes_length]
    lia
  refine ⟨by simp only [mailboxBytes, List.length_append, leBytes_length]; lia, ?_⟩
  rw [mailboxBytes, List.append_assoc, List.take_append, leBytes_length, List.take_of_length_le (by rw [leBytes_length]; lia),
    List.take_append_of_le_length (by lia)]

theorem offerFrame_peek {x : Side} {p k : Nat} {f : CanFrame} {own : Option Nat} {s : State}
    (h : (List.range 64).find? (fun k => mailboxTakes (s.ld x).fmn.img p k f own.isSome) = some k) :
    peekBytes ((offerFrame x p f own s).ld x) (canMailbox p k) 16 = leBytes 8 s.nowNs ++ (canContent f k own).take 8 := by
  obtain ⟨hlen, hhead⟩ := mailboxBytes_head s.nowNs f k own
  have hput := peekBytes_memPut x (a := canMailbox p k) (mailboxBytes s.nowNs (canContent f k own)) (by unfold canMailbox; lia) s
  rw [← hhead, ← hput, peekBytes_take _ _ hlen, offerFrame_taken h]
  dsimp only
  split
  · rw [(postCan_ld ..).1, modCan_ld]
    exact peekBytes_congr (fun _ => rfl) ..
  · rfl

/-- The buffer that a sent frame counts for is one of the sixteen. -/
theorem ownBuffer_lt {q : CanCtl} {f : CanFrame} {b : Nat} {c : CanPend} (h : ownBuffer q f = some (b, c)) : b < 16 := by
  obtain ⟨n, hn, hb⟩ := List.exists_of_findSome?_eq_some h
  split at hb
  · split at hb
    · simp only [Option.some.injEq, Prod.mk.injEq] at hb
      rw [← hb.1]
      exact List.mem_range.mp hn
    · cases hb
  · cases hb

theorem ownBuffer_congr {q r : CanCtl} (h : q.pend = r.pend) (f : CanFrame) : ownBuffer q f = ownBuffer r f := by
  simp only [ownBuffer, h]

/-- The landing's own frame, sent: its buffer is freed, it is counted, confirmed where that is asked, and offered to the mailboxes. -/
theorem takeCanFrame_own {x : Side} {p b : Nat} {f : CanFrame} {c : CanPend} {s : State}
    (h : ownBuffer ((s.ld x).can.port p) f = some (b, c)) :
    let s1 := (s.modCan x p (endAttempt (some b))).modCan x p (fun q =>
      { q with sent := satAdd 0xFFFF q.sent 1, coll := Tab.set 0 q.coll (idKey f) 0 })
    takeCanFrame x p f s = offerFrame x p f (some b) (if c.confirm then postCan x p (canContent f 0xFF (some b)) s1 else s1) := by
  simp only [takeCanFrame, h, Option.map_some]

theorem modCan_congr {s : State} {x : Side} {p : Nat} {f g : CanCtl → CanCtl} (h : f ((s.ld x).can.port p) = g ((s.ld x).can.port p)) :
    s.modCan x p f = s.modCan x p g := by
  have hupd : Tab.upd {} (s.ld x).can.ports p f = Tab.upd {} (s.ld x).can.ports p g := by
    simp only [Can.port] at h
    simp only [Tab.upd, h]
  exact modLd_congr s x (by rw [hupd])

/-- What a frame of the landing's own, once sent, leaves (14 R544). -/
theorem takeCanFrame_sent {x : Side} {p b : Nat} {f : CanFrame} {c : CanPend} {s : State}
    (h : ownBuffer ((s.ld x).can.port p) f = some (b, c)) :
    (((takeCanFrame x p f s).ld x).can.port p).sent = satAdd 0xFFFF ((s.ld x).can.port p).sent 1
      ∧ Tab.get none (((takeCanFrame x p f s).ld x).can.port p).pend b = Tab.get none ((s.ld x).can.port p).next b
      ∧ (takeCanFrame x p f s).ld x.other = s.ld x.other ∧ KeepsRecs (takeCanFrame x p f s) s := by
  rw [takeCanFrame_own h]
  have hkeeps : ∀ {α : Type} (g : CanCtl → α), Untold g → ∀ u : State,
      KeepsCtl g p (offerFrame x p f (some b) (if c.confirm then postCan x p (canContent f 0xFF (some b)) u else u)) u := fun g hg u =>
    keepsCtl_trans (keepsCtl_offerFrame hg ..) (keepsCtl_ite (keepsCtl_postCan hg.posted ..) (keepsCtl_refl u))
  refine ⟨?_, ?_, ?_, ?_⟩
  · rw [(hkeeps CanCtl.sent ⟨fun _ _ => rfl, fun _ _ => rfl⟩ _).port x, modCan_port, modCan_port]
    rfl
  · rw [(hkeeps CanCtl.pend ⟨fun _ _ => rfl, fun _ _ => rfl⟩ _).port x, modCan_port, modCan_port]
    exact (endAttempt_pend (some b) _ (ownBuffer_lt h)).trans (if_pos (.inl rfl))
  · rw [offerFrame_ld_other]
    split
    · rw [(postCan_ld ..).2, modCan_other, modCan_other]
    · rw [modCan_other, modCan_other]
  · refine keepsRecs_trans (keepsRecs_offerFrame ..) ?_
    have hcounted := keepsRecs_trans (keepsRecs_modCan x p (fun q =>
      { q with sent := satAdd 0xFFFF q.sent 1, coll := Tab.set 0 q.coll (idKey f) 0 }) _) (keepsRecs_modCan x p (endAttempt (some b)) s)
    exact keepsRecs_ite (keepsRecs_trans (keepsRecs_postCan ..) hcounted) hcounted

/-- CAN_SEND of clean memory as its dispatch entry (14 R541): the words read are sound; a malformed item is reported, a sound one handed over. -/
theorem canSendOp_issued {x : Side} {s : State} (hsyn : (s.ld x).syn = []) (e at_ job cycle : Nat) (inTx : Bool) :
    let s0 := markIssued x e (advance at_ s)
    let w := (peekWord (s.ld x) (canBuffer job)).v.toNat
    let ws := (memReadN x (canBuffer job) (1 + canItemData w) s0).1
    (∀ v ∈ ws, v.p = false)
      ∧ canSendOp x job cycle inTx s0
        = if canItemOk (s.ld x).fmn.img job w ws then handItem deliverCan x (canItem x job cycle inTx ws s0) s0
          else raisePerSecond (.landing x) 0x0A07 (job / 16) (job / 16) s0 := by
  have hissued : (markIssued x e (advance at_ s)).ld x
      = { s.ld x with fmn := { (s.ld x).fmn with issued := (s.ld x).fmn.issued ++ [e] } } := markIssued_ld ..
  have hop := canSendOp_clean (s := markIssued x e (advance at_ s)) (x := x) (by rw [hissued]; exact hsyn) job cycle inTx
  rw [hissued] at hop
  exact hop

theorem markIssued_mem (x y : Side) (e : Nat) (s : State) : ((markIssued x e s).ld y).mem = (s.ld y).mem := by
  cases x <;> cases y <;> rfl

theorem markIssued_legOf (x : Side) (e cycle : Nat) (s : State) : (markIssued x e s).legOf cycle = s.legOf cycle := by
  simp [State.legOf, markIssued]

theorem exec_canFrameSent {x : Side} {p : Nat} {s : State} (hon : canOnBus s x p = true) (at_ : Nat) (f : CanFrame) :
    exec (.canFrameSent at_ x p f) s = .next (takeCanFrame x p f (sentOk x p (advance at_ s))) :=
  congrArg Host.Outcome.next (if_pos (by simpa using hon))

theorem exec_canFrameReceived {x : Side} {p : Nat} {f : CanFrame} {s : State} (hon : canOnBus s x p = true)
    (hsilent : canSends s x p = false) (hown : ownBuffer ((s.ld x).can.port p) f = none) (at_ : Nat) :
    exec (.canFrameReceived at_ x p f) s = .next (offerFrame x p f none ((advance at_ s).modCan x p (endAttempt none))) := by
  refine congrArg Host.Outcome.next ((if_pos (by simpa using hon)).trans ?_)
  rw [receivedOk_silent (by simpa using hsilent), takeCanFrame_other (by rwa [advance_ld])]

/-- An item of the active landing, outside the compare window, waits in its empty buffer on both landings (14 R543, 10 R394). -/
theorem handItem_waits {x : Side} {job cycle : Nat} {inTx : Bool} {ws : List Pw} {s : State} (hsound : ∀ w ∈ ws, w.p = false)
    (hjob : job < 128) (hpass : s.passes x = true) (hadrift : s.arb.adrift = false) (hlate : 2400 ≤ cycle % max 1 (s.tick.period / 10))
    (hopen : (s.canPort (job / 16)).isolated = false) (hoff : (s.canPort (job / 16)).off = 0)
    (hsupp : idKey (frameOf (ofWords ws)).frame ∉ (s.canPort (job / 16)).supp)
    (hempty : Tab.get none ((s.ld x).can.port (job / 16)).pend (job % 16) = none) :
    let t := handItem deliverCan x (canItem x job cycle inTx ws s) s
    LandingsOnly t s
      ∧ ∀ y, Tab.get none ((t.ld y).can.port (job / 16)).pend (job % 16) = some (frameOf (ofWords ws)) ∧ (t.ld y).mem = (s.ld y).mem := by
  have hactive : s.activeSide = some x := by
    simp only [State.passes, Bool.and_eq_true, decide_eq_true_eq] at hpass
    exact hpass.1.1
  have hlead : ∀ i, (s.modLd x (fun l => { l with items := l.items ++ [i] })).lead = x := fun i => by
    simp [State.lead, activeSide_of_same (modLd_same ..), hactive]
  have hcan : ∀ i y, ((s.modLd x (fun l => { l with items := l.items ++ [i] })).ld y).can = (s.ld y).can := fun i y => by
    cases x <;> cases y <;> rfl
  have hmem : ∀ i y, ((s.modLd x (fun l => { l with items := l.items ++ [i] })).ld y).mem = (s.ld y).mem := fun i y => by
    cases x <;> cases y <;> rfl
  have hrec : ∀ i, (s.modLd x (fun l => { l with items := l.items ++ [i] })).canPort (job / 16) = s.canPort (job / 16) := fun i =>
    canPort_congr (modLd_canRec ..) _
  dsimp only
  rw [handItem_delivered (poisoned_false hsound) hpass hadrift hlate, deliverCan_waits (inTx := inTx) hjob rfl (by rwa [hrec])
    (by rwa [hrec]) (by rwa [hrec]) (by rw [hlead, hcan]; exact hempty)]
  refine ⟨landingsOnly_trans (bothCan_landings ..) (ldOnly_landings (ldOnly_modLd ..)), fun y => ⟨?_, ?_⟩⟩
  · rw [bothCan_port]
    simp only [Tab.get_set_self]
    rfl
  · rw [bothCan_mem, hmem]

/-- Settles O50: an item follows the selector's rule, a frame the end of its attempt and the mailbox that takes it. -/
theorem canFrames : Obligations.CanFrames := by
  unfold Obligations.CanFrames
  intro at_ p job cyc b inTx x f s
  dsimp only
  have hport : ((advance at_ s).ld x).can.port p = (s.ld x).can.port p := by rw [advance_ld]
  have himg : (((advance at_ s).modCan x p (endAttempt none)).ld x).fmn.img = (s.ld x).fmn.img := by rw [modCan_fmn, advance_ld]
  refine ⟨fun e he hsyn hjob => ?_, fun hoff => ⟨congrArg _ (if_neg (by simp [hoff])), congrArg _ (if_neg (by simp [hoff]))⟩,
    fun hon hsilent hown => ?_, fun c hon hown => ?_⟩
  · obtain ⟨hsound, hop⟩ := canSendOp_issued hsyn e at_ job (cyc + 24) inTx
    have hpass : (markIssued x e (advance at_ s)).passes x = s.passes x := by rw [markIssued, modLd_passes, advance_passes]
    refine ⟨fun hbad => ?_, fun hok hkept => ?_, fun hok hpassed hadrift hlate hopen hbus hsupp hempty => ?_⟩
    · rw [exec_canSend he, hop]
      exact congrArg (fun t => Host.Outcome.next (keepUndo x e (s.ld x) t)) (if_neg (by rw [Bool.not_eq_true]; exact hbad))
    · rw [exec_canSend he, hop]
      refine ⟨_, _, congrArg (fun t => Host.Outcome.next (keepUndo x e (s.ld x) t)) ((if_pos hok).trans
        (handItem_kept (poisoned_false hsound) (hpass.trans hkept))), rfl, rfl, rfl, rfl, markIssued_legOf ..⟩
    · have hissued : (markIssued x e (advance at_ s)).ld x
          = { s.ld x with fmn := { (s.ld x).fmn with issued := (s.ld x).fmn.issued ++ [e] } } := markIssued_ld ..
      have hmem : ∀ y, ((markIssued x e (advance at_ s)).ld y).mem = (s.ld y).mem := fun y => by rw [markIssued_mem, advance_ld]
      have hrec : (markIssued x e (advance at_ s)).canPort (job / 16) = s.canPort (job / 16) :=
        canPort_congr (by rw [markIssued, modLd_canRec, advance_canRec]) _
      have htick : (markIssued x e (advance at_ s)).tick = s.tick := by simp [markIssued]
      have harb : (markIssued x e (advance at_ s)).arb = s.arb := by simp [markIssued]
      obtain ⟨hlandings, hwaits⟩ := handItem_waits (inTx := inTx) hsound hjob (hpass.trans hpassed) (by rwa [harb]) (by rwa [htick])
        (by rwa [hrec]) (by rwa [hrec]) (by rwa [hrec]) (by rw [hissued]; exact hempty)
      rw [exec_canSend he, hop]
      refine ⟨_, congrArg (fun t => Host.Outcome.next (keepUndo x e (s.ld x) t)) (if_pos hok), hlandings, fun y => ?_⟩
      obtain ⟨hpend, hkept⟩ := hwaits y
      exact ⟨hpend, hkept.trans (hmem y)⟩
  · have hreceived := exec_canFrameReceived hon hsilent hown at_
    refine ⟨fun k hk => ⟨_, hreceived, ?_⟩, fun hnone => ⟨_, hreceived, ?_⟩⟩
    · have htaken : (List.range 64).find? (fun n => mailboxTakes (((advance at_ s).modCan x p (endAttempt none)).ld x).fmn.img p n f
          (none : Option Nat).isSome) = some k := by rw [himg]; exact hk
      obtain ⟨hpend, hdropped⟩ := offerFrame_taken_ctl htaken
      rw [modCan_port, hport] at hpend hdropped
      refine ⟨?_, fun n hn => ?_, hdropped, ?_⟩
      · rw [offerFrame_peek htaken, modCan_nowNs]
      · rw [hpend, endAttempt_freed _ hn]
      · rw [offerFrame_ld_other, modCan_other, advance_ld]
    · have hmissed : (List.range 64).find? (fun n => mailboxTakes (((advance at_ s).modCan x p (endAttempt none)).ld x).fmn.img p n f
          (none : Option Nat).isSome) = none := by rw [himg]; exact hnone
      rw [offerFrame_missed hmissed]
      simp only [Option.isSome_none, Bool.false_eq_true, if_false, modCan_port, modCan_modCan, hport]
      refine ⟨fun n hn => endAttempt_freed _ hn, modCan_congr ?_⟩
      rw [hport]
      rfl
  · have hctl : KeepsCtl (fun q : CanCtl => (q.pend, q.next, q.sent)) p (sentOk x p (advance at_ s)) (advance at_ s) :=
      keepsCtl_sentOk (fun _ _ _ _ => rfl) (fun _ _ => rfl) ..
    have hx := hctl.port x
    simp only [Prod.mk.injEq, hport] at hx
    obtain ⟨hpend, hnext, hsent⟩ := hx
    obtain ⟨hcount, hfree, hother, hrecs⟩ := takeCanFrame_sent (s := sentOk x p (advance at_ s)) ((ownBuffer_congr hpend f).trans hown)
    refine ⟨_, exec_canFrameSent hon at_ f, by rw [hcount, hsent], by rw [hfree, hnext], fun hsilent => ?_, ?_⟩
    · rw [hother, sentOk_silent (by simpa using hsilent), advance_ld]
    · exact hrecs.1.trans ((keepsRecs_sentOk ..).1.trans (advance_canRec ..))

end Sys2Proof.Machine
end

section
/-!
A Bollard evaluation cycle is safe from every state (13 R486 to R488, R504, R505, R510, R511, R522): settles `Obligations.BollardIsSafe`.
-/
namespace Sys2Proof.Machine
set_option Elab.async false -- one proof at a time, as in the tests: the compile is close to its memory limit

/-! ### What the parts of a cycle leave -/

/-- A property of the result that every step keeps, a fold keeps. -/
theorem foldl_kept {α β γ : Type} (g : β → γ) {f : β → α → β} (hf : ∀ b a, g (f b a) = g b) (l : List α) (b : β) : g (l.foldl f b) = g b := by
  induction l generalizing b with
  | nil => rfl
  | cons a l ih => rw [List.foldl_cons, ih, hf]

/-- The block in force, its generation and the count of cycles. -/
def bolFrame (b : Bollard) : List Byte × Nat × Nat := (b.block, b.gen, b.cycle)

/-- What the conditions of the functions of types 1 to 5 are judged by, with the frame. -/
def bolInputs (b : Bollard) : (List Byte × Nat × Nat) × Tab BolChan × Tab BolInp × Tab Nat × Tab BolConn :=
  (bolFrame b, b.chans, b.inps, b.pinBad, b.conns)

theorem bolFrame_of_inputs {c b : Bollard} (h : bolInputs c = bolInputs b) : bolFrame c = bolFrame b := congrArg Prod.fst h

theorem frame_ite {c : Prop} [Decidable c] {u v : BolWork} {r : List Byte × Nat × Nat} (hu : bolFrame u.b = r) (hv : bolFrame v.b = r) :
    bolFrame (if c then u else v).b = r := by
  split
  · exact hu
  · exact hv

/-- A step of a cycle's checks on each of a range. -/
theorem frame_foldl {f : BolWork → Nat → BolWork} (hf : ∀ w k, bolFrame (f w k).b = bolFrame w.b) (l : List Nat) (w : BolWork) :
    bolFrame (l.foldl f w).b = bolFrame w.b := foldl_kept (fun w : BolWork => bolFrame w.b) hf l w

theorem faultFns_frame (c : Nat → Bool) (code : Nat) (w : BolWork) : bolFrame (faultFns c code w).b = bolFrame w.b := by
  unfold faultFns BolWork.mod
  dsimp only
  refine foldl_kept bolFrame (fun b k => ?_) _ _
  split
  · rfl
  · rfl

theorem sampleIn_frame (p : BolPins) (b : Bollard) : bolFrame (sampleIn p b) = bolFrame b := by
  unfold sampleIn
  dsimp only
  refine (foldl_kept bolFrame ?_ _ _).trans (foldl_kept bolFrame ?_ _ _)
  · intro _ _
    rfl
  · intro _ _
    rfl

/-- Functions put into FAULT, or not, after a part that keeps the frame. -/
theorem frame_ite_fault {c : Prop} [Decidable c] {u v : BolWork} {r : List Byte × Nat × Nat} (f : Nat → Bool) (code : Nat)
    (hu : bolFrame u.b = r) (hv : bolFrame v.b = r) : bolFrame (if c then faultFns f code u else v).b = r :=
  frame_ite ((faultFns_frame ..).trans hu) hv

theorem checkPins_frame (w : BolWork) : bolFrame (checkPins w).b = bolFrame w.b := by
  unfold checkPins
  refine frame_foldl (fun w i => ?_) _ w
  dsimp only
  exact frame_ite_fault _ _ rfl rfl

theorem checkDisc_frame (s : State) (w : BolWork) : bolFrame (checkDisc s w).b = bolFrame w.b := by
  unfold checkDisc
  refine frame_foldl (fun w n => ?_) _ w
  dsimp only
  exact frame_ite rfl (frame_ite rfl (frame_ite_fault _ _ rfl rfl))

theorem checkSwitches_frame (p : BolPins) (w : BolWork) : bolFrame (checkSwitches p w).1.b = bolFrame w.b := by
  unfold checkSwitches
  refine foldl_kept (fun r : BolWork × List Nat => bolFrame r.1.b) (fun r i => ?_) _ (w, [])
  obtain ⟨w, l⟩ := r
  dsimp only
  generalize (if (decide (bitOf p.sswT i ≠ bitOf p.sswC i) && decide (bitOf p.sswT i = bitOf w.b.ssw i)) = true then 0
    else min 11 (Tab.get 0 w.b.sswRun i + 1)) = n
  split
  · rfl
  · rfl

theorem checkEnc_frame (s : State) (p : BolPins) (w : BolWork) : bolFrame (checkEnc s p w).b = bolFrame w.b := by
  unfold checkEnc
  refine frame_foldl (fun w e => ?_) _ w
  dsimp only
  exact frame_ite_fault _ _ rfl rfl

theorem checkBanks_frame (s : State) (p : BolPins) (w : BolWork) : bolFrame (checkBanks s p w).b = bolFrame w.b := by
  unfold checkBanks
  refine frame_foldl (fun w k => ?_) _ w
  dsimp only
  exact frame_ite_fault _ _ rfl rfl

theorem checkChan_frame (s : State) (p : BolPins) (w : BolWork) (i : Nat) : bolFrame (checkChan s p w i).b = bolFrame w.b := by
  unfold checkChan
  exact frame_ite (frame_ite rfl rfl) (frame_ite rfl rfl)

theorem checkFeedback_frame (s : State) (w : BolWork) (o : Nat) : bolFrame (checkFeedback s w o).b = bolFrame w.b := by
  unfold checkFeedback
  dsimp only
  split
  · rfl
  · exact frame_ite rfl (frame_ite rfl (frame_ite rfl rfl))

theorem checkOuts_frame (s : State) (p : BolPins) (w : BolWork) : bolFrame (checkOuts s p w).b = bolFrame w.b := by
  unfold checkOuts
  dsimp only
  refine Eq.trans (frame_foldl (fun w o => ?_) _ _) ((frame_foldl (checkFeedback_frame s) _ _).trans (frame_foldl (checkChan_frame s p) _ _))
  exact frame_ite_fault _ _ rfl rfl

/-! ### The conditions of the functions (13 R504, R505) -/

theorem fn_modFn (b : Bollard) (k : Nat) (f : BolFn → BolFn) (j : Nat) : (b.modFn k f).fn j = if j = k then f (b.fn k) else b.fn j :=
  Tab.get_upd ..

/-- A function of type 1 to 5, whose condition the inputs and the connections decide. -/
def simpleFn (b : Bollard) (k : Nat) : Prop := 1 ≤ fnType b.block k ∧ fnType b.block k ≤ 5

theorem inValue_congr {b c : Bollard} (h : bolInputs c = bolInputs b) (s : State) (n : Nat) : inValue s c n = inValue s b n := by
  simp only [bolInputs, bolFrame, Prod.mk.injEq] at h
  obtain ⟨⟨hblock, -, -⟩, hchans, hinps, hbad, -⟩ := h
  simp only [inValue, chanSafe, hblock, Bollard.chan, hchans, Bollard.inp, hinps, hbad]

theorem runCond_congr {b c : Bollard} (h : bolInputs c = bolInputs b) {k : Nat} (hk : simpleFn b k) (s : State) :
    runCond s c k = runCond s b k := by
  have hin := inValue_congr h s
  simp only [bolInputs, bolFrame, Prod.mk.injEq] at h
  obtain ⟨⟨hblock, -, -⟩, -, -, -, hconns⟩ := h
  obtain ⟨hlow, hhigh⟩ := hk
  unfold runCond
  simp only [hblock, hin, telBit, Bollard.conn, hconns]
  interval_cases hcase : fnType b.block k <;> rfl

/-- Every function of types 1 to 5 that is in RUN has its condition. -/
def RunsRightly (s : State) (n : Nat) (b : Bollard) : Prop := ∀ k < n, simpleFn b k → (b.fn k).st = 1 → runCond s b k = true

/-- The condition stands where the inputs do and no function enters RUN against it. -/
theorem runsRightly_of {s : State} {n : Nat} {b c : Bollard} (h : RunsRightly s n b) (hin : bolInputs c = bolInputs b)
    (hst : ∀ k, (c.fn k).st = 1 → (b.fn k).st = 1 ∨ (simpleFn b k → runCond s b k = true)) : RunsRightly s n c := by
  have hblock : c.block = b.block := congrArg (fun q => q.1.1) hin
  intro k hk htype hrun
  have hsimple : simpleFn b k := by rwa [simpleFn, hblock] at htype
  rw [runCond_congr hin hsimple]
  rcases hst k hrun with hst | hst
  · exact h k hk hsimple hst
  · exact hst hsimple

/-- The count of cycles decides no condition. -/
theorem runsRightly_cycle {s : State} {n : Nat} {b : Bollard} (h : RunsRightly s n b) (c : Nat) : RunsRightly s n { b with cycle := c } := h

/-- The demand of function `k` in a cycle (13 R505). -/
def demandFn (s : State) (found : List Nat) (w : BolWork) (k : Nat) : BolWork :=
  let t := fnType w.b.block k
  let st := (w.b.fn k).st
  let fin := w.b.cycle + 1
  if t = 0 then w
  else if st = 1 && !runCond s w.b k then
    let w := w.raise_ 0x0E01 k
    if 6 ≤ t then (w.mod (stopFn k 0x0E0B fin)).raise_ 0x0E0B k else w.mod (stopFn k 0x0E01 fin)
  else if (st = 1 || st = 4) && found.any (fun i => concerned w.b i k) then w.mod (stopFn k 0x0E15 fin)
  else w

theorem demands_eq (s : State) (found : List Nat) (w : BolWork) : demands s found w = (List.range 16).foldl (demandFn s found) w := rfl

theorem stopFn_inputs (k code fin : Nat) (b : Bollard) : bolInputs (stopFn k code fin b) = bolInputs b := by
  unfold stopFn
  split <;> rfl

theorem stopFn_st (k code fin : Nat) (b : Bollard) (j : Nat) : ((stopFn k code fin b).fn j).st = 1 → (b.fn j).st = 1 ∧ j ≠ k := by
  unfold stopFn
  split
  all_goals
    rw [fn_modFn]
    split
    · intro h
      simp at h
    · rename_i hne
      exact fun h => ⟨h, hne⟩

/-- A demand leaves the inputs; a function that stays in RUN was in RUN, and the one asked has its condition. -/
theorem demandFn_keeps (s : State) (found : List Nat) (w : BolWork) (k : Nat) :
    bolInputs (demandFn s found w k).b = bolInputs w.b
      ∧ ∀ j, ((demandFn s found w k).b.fn j).st = 1 → (w.b.fn j).st = 1 ∧ (j = k → simpleFn w.b k → runCond s w.b k = true) := by
  have hstop : ∀ code fin, bolInputs (stopFn k code fin w.b) = bolInputs w.b
      ∧ ∀ j, ((stopFn k code fin w.b).fn j).st = 1 → (w.b.fn j).st = 1 ∧ (j = k → simpleFn w.b k → runCond s w.b k = true) :=
    fun code fin => ⟨stopFn_inputs .., fun j hj => ⟨(stopFn_st _ _ _ _ _ hj).1, fun heq => absurd heq (stopFn_st _ _ _ _ _ hj).2⟩⟩
  unfold demandFn
  dsimp only
  split
  · rename_i hnone
    exact ⟨rfl, fun j hj => ⟨hj, fun _ hsimple => absurd hsimple.1 (by lia)⟩⟩
  · split
    · split
      · exact hstop ..
      · exact hstop ..
    · rename_i hcond
      split
      · exact hstop ..
      · refine ⟨rfl, fun j hj => ⟨hj, fun heq _ => ?_⟩⟩
        subst heq
        simpa [hj] using hcond

theorem demands_runs (s : State) (found : List Nat) (w : BolWork) :
    bolInputs (demands s found w).b = bolInputs w.b ∧ RunsRightly s 16 (demands s found w).b := by
  rw [demands_eq]
  suffices hall : ∀ n, bolInputs ((List.range n).foldl (demandFn s found) w).b = bolInputs w.b
      ∧ RunsRightly s n ((List.range n).foldl (demandFn s found) w).b from hall 16
  intro n
  induction n with
  | zero => exact ⟨rfl, fun k hk => absurd hk (by lia)⟩
  | succ n ih =>
    obtain ⟨hin, hruns⟩ := ih
    rw [List.range_succ, List.foldl_append, List.foldl_cons, List.foldl_nil]
    generalize (List.range n).foldl (demandFn s found) w = v at hin hruns
    obtain ⟨hkept, hst⟩ := demandFn_keeps s found v n
    refine ⟨hkept.trans hin, fun k hk hsimple hrun => ?_⟩
    obtain ⟨hwas, hasked⟩ := hst k hrun
    have hblock : (demandFn s found v n).b.block = v.b.block := congrArg (fun q => q.1.1) hkept
    have hsimple' : simpleFn v.b k := by rwa [simpleFn, hblock] at hsimple
    rw [runCond_congr hkept hsimple']
    by_cases hn : k = n
    · exact hn ▸ hasked hn (hn ▸ hsimple')
    · exact hruns k (by lia) hsimple' hwas

/-! ### What follows the demands -/

/-- The inputs and the states of the functions. -/
def bolHeld (b : Bollard) : ((List Byte × Nat × Nat) × Tab BolChan × Tab BolInp × Tab Nat × Tab BolConn) × (Nat → Nat) :=
  (bolInputs b, fun k => (b.fn k).st)

theorem bolHeld_inputs {c b : Bollard} (h : bolHeld c = bolHeld b) : bolInputs c = bolInputs b := congrArg Prod.fst h

theorem bolHeld_st {c b : Bollard} (h : bolHeld c = bolHeld b) (k : Nat) : (c.fn k).st = (b.fn k).st := congrFun (congrArg Prod.snd h) k

theorem bolHeld_block {c b : Bollard} (h : bolHeld c = bolHeld b) : c.block = b.block := congrArg (fun q => q.1.1.1) h

theorem runsRightly_held {s : State} {n : Nat} {b c : Bollard} (h : RunsRightly s n b) (hc : bolHeld c = bolHeld b) : RunsRightly s n c :=
  runsRightly_of h (bolHeld_inputs hc) fun k hk => .inl (bolHeld_st hc k ▸ hk)

/-- A function whose state stays. -/
theorem bolHeld_modFn (b : Bollard) (k : Nat) (f : BolFn → BolFn) (hf : (f (b.fn k)).st = (b.fn k).st) : bolHeld (b.modFn k f) = bolHeld b := by
  refine Prod.ext rfl (funext fun j => ?_)
  change ((b.modFn k f).fn j).st = (b.fn j).st
  rw [fn_modFn]
  split
  · rename_i heq
    rw [hf, heq]
  · rfl

theorem held_ite {c : Prop} [Decidable c] {u v : BolWork} {r} (hu : bolHeld u.b = r) (hv : bolHeld v.b = r) :
    bolHeld (if c then u else v).b = r := by
  split
  · exact hu
  · exact hv

theorem held_foldl {f : BolWork → Nat → BolWork} (hf : ∀ w k, bolHeld (f w k).b = bolHeld w.b) (l : List Nat) (w : BolWork) :
    bolHeld (l.foldl f w).b = bolHeld w.b := foldl_kept (fun w : BolWork => bolHeld w.b) hf l w

theorem extremes_held (w : BolWork) : bolHeld (extremes w).b = bolHeld w.b := by
  unfold extremes
  refine held_foldl (fun w k => ?_) _ w
  dsimp only
  refine held_ite ?_ rfl
  exact bolHeld_modFn _ _ _ rfl

theorem twoHand_held (k : Nat) (x y : Bool) (w : BolWork) : bolHeld (twoHand k x y w).1.b = bolHeld w.b := by
  have hset : ∀ g : BolFn, g.st = (w.b.fn k).st → bolHeld (w.b.modFn k fun _ => g) = bolHeld w.b := fun g hg => bolHeld_modFn _ _ _ hg
  unfold twoHand
  dsimp only
  split
  · exact hset _ rfl
  · split
    · exact hset _ rfl
    · split
      · rfl
      · split
        · exact hset _ rfl
        · split
          · exact hset _ rfl
          · exact hset _ rfl

/-- A function that enters RUN. -/
theorem enterRun_st (k : Nat) (w : BolWork) : bolInputs (enterRun k w).b = bolInputs w.b
    ∧ ∀ j, j ≠ k → ((enterRun k w).b.fn j).st = (w.b.fn j).st := by
  refine ⟨rfl, fun j hj => ?_⟩
  change (((w.b.modFn k _).fn j)).st = _
  rw [fn_modFn, if_neg hj]

/-- A function that enters RUN under its condition, or does not enter it. -/
theorem entered_keeps {s : State} {w v : BolWork} {k : Nat} (hv : bolHeld v.b = bolHeld w.b) (stopped one two go : Bool) :
    bolInputs (if (stopped && runCond s w.b k && one && two && go) = true then enterRun k v else v).b = bolInputs w.b
    ∧ ∀ j, ((if (stopped && runCond s w.b k && one && two && go) = true then enterRun k v else v).b.fn j).st = 1
      → (w.b.fn j).st = 1 ∨ (simpleFn w.b j → runCond s w.b j = true) := by
  split
  · rename_i hgo
    have hcond : runCond s w.b k = true := by
      simp only [Bool.and_eq_true] at hgo
      exact hgo.1.1.1.2
    obtain ⟨hin, hst⟩ := enterRun_st k v
    refine ⟨hin.trans (bolHeld_inputs hv), fun j hj => ?_⟩
    by_cases heq : j = k
    · exact .inr fun _ => heq ▸ hcond
    · exact .inl ((bolHeld_st hv j).symm.trans ((hst j heq).symm.trans hj))
  · exact ⟨bolHeld_inputs hv, fun j hj => .inl ((bolHeld_st hv j).symm.trans hj)⟩

/-- A restart leaves the inputs and the other functions, and takes a function to RUN only under its condition (13 R506). -/
theorem restart_keeps (s : State) (w : BolWork) (k : Nat) : bolInputs (restart s w k).b = bolInputs w.b
    ∧ ∀ j, ((restart s w k).b.fn j).st = 1 → (w.b.fn j).st = 1 ∨ (simpleFn w.b j → runCond s w.b j = true) := by
  unfold restart
  dsimp only
  split
  · exact ⟨rfl, fun j hj => .inl hj⟩
  · generalize hth : (if fnType w.b.block k = 4 then
      twoHand k (inValue s w.b (fnA w.b.block k)) (inValue s w.b (fnB w.b.block k)) w else (w, false)) = th
    have hheld : bolHeld th.1.b = bolHeld w.b := by
      rw [← hth]
      split
      · exact twoHand_held ..
      · rfl
    clear hth
    generalize (if resetValue s th.1.b (fnReset w.b.block k) = some true then min 5001 ((th.1.b.fn k).held + 1) else 0) = n
    have hmod : bolHeld (th.1.b.modFn k fun f => { f with held := n, wait := f.wait && runCond s w.b k }) = bolHeld w.b :=
      (bolHeld_modFn _ _ _ rfl).trans hheld
    exact entered_keeps hmod _ _ _ _

theorem restarts_runs (s : State) (l : List Nat) (w : BolWork) (h : RunsRightly s 16 w.b) :
    bolInputs (l.foldl (restart s) w).b = bolInputs w.b ∧ RunsRightly s 16 (l.foldl (restart s) w).b := by
  induction l generalizing w with
  | nil => exact ⟨rfl, h⟩
  | cons k l ih =>
    obtain ⟨hin, hst⟩ := restart_keeps s w k
    obtain ⟨hin', hruns⟩ := ih (restart s w k) (runsRightly_of h hin hst)
    exact ⟨hin'.trans hin, hruns⟩

theorem markThru_held (b : Bollard) : bolHeld (markThru b) = bolHeld b := by
  unfold markThru
  refine foldl_kept bolHeld ?_ _ _
  intro _ _
  rfl

theorem command_held (up : Bool) (s : State) (b : Bollard) : bolHeld (command up s b) = bolHeld b := by
  unfold command
  dsimp only
  refine (foldl_kept bolHeld ?_ _ _).trans (foldl_kept bolHeld ?_ _ _)
  · intro b o
    split
    · rfl
    · split
      · rfl
      · rfl
  · intro _ _
    rfl

/-- The first `n` channels changed, each in its own way. -/
theorem och_foldl_modEach (f : Nat → BolOutCh → BolOutCh) (n : Nat) (b : Bollard) (k : Nat) :
    ((List.range n).foldl (fun b i => b.modOch i (f i)) b).och k = if k < n then f k (b.och k) else b.och k := by
  induction n generalizing k with
  | zero => rfl
  | succ n ih =>
    rw [List.range_succ, List.foldl_append, List.foldl_cons, List.foldl_nil, och_modOch, ih, ih]
    by_cases hk : k = n
    · rw [if_pos hk, if_neg (by lia), if_pos (by lia), hk]
    · by_cases hlt : k < n
      · rw [if_neg hk, if_pos hlt, if_pos (by lia)]
      · rw [if_neg hk, if_neg hlt, if_neg (by lia)]

/-- A channel that is commanded ON is one that is to be ON (13 R510). -/
theorem command_on (up : Bool) (s : State) (b : Bollard) {i : Nat} (hi : i < 16) (hon : ((command up s b).och i).on = true) :
    outOn s b i = true := by
  unfold command at hon
  dsimp only at hon
  rw [foldl_kept (fun b : Bollard => (b.och i).on) (fun b o => ?_)] at hon
  · rw [och_foldl_modEach (fun i c => { c with on := (up || c.on) && outOn s b i }), if_pos hi] at hon
    exact (Bool.and_eq_true_iff.mp hon).2
  · split
    · rfl
    · split
      · rfl
      · rfl

theorem testOut_held (was : Bollard) (p : BolPins) (w : BolWork) : bolHeld (testOut was p w).b = bolHeld w.b := by
  unfold testOut
  refine held_foldl (fun w i => ?_) _ w
  dsimp only
  exact held_ite (held_ite rfl (held_ite rfl rfl)) rfl

/-- A test switches no channel over (13 R512). -/
theorem testOut_on (was : Bollard) (p : BolPins) (w : BolWork) (i : Nat) : ((testOut was p w).b.och i).on = (w.b.och i).on := by
  unfold testOut
  refine foldl_kept (fun w : BolWork => (w.b.och i).on) (fun w j => ?_) _ w
  dsimp only
  split
  · split
    · rfl
    · split
      · rfl
      · change ((w.b.modOch j _).och i).on = _
        rw [och_modOch]
        split
        · rename_i heq
          rw [heq]
        · rfl
  · rfl

theorem adriftHold_held (was : Bollard) (w : BolWork) : bolHeld (adriftHold was w).b = bolHeld w.b := by
  unfold adriftHold
  exact held_ite rfl rfl

theorem adriftHold_adrift (was : Bollard) (w : BolWork) : (adriftHold was w).b.adrift = adriftWanted (adriftHold was w).b := by
  unfold adriftHold
  dsimp only
  split
  · rfl
  · rfl

/-! ### The cycle -/

/-- What a channel that is ON stands on, in the states of the functions that name its output (13 R510). -/
def MayBeOn (s : State) (b : Bollard) (i : Nat) : Prop :=
  outEnabled b.block (i / 2) = true ∧ s.sup.field = true ∧ bankUp s (i % 2) = true
    ∧ ∀ k ∈ outNamed b.block (i / 2), (b.fn k).st = 1 ∨ (b.fn k).st = 2 ∨ (b.fn k).st = 4

theorem mayBeOn_of_outOn {s : State} {b : Bollard} {i : Nat} (h : outOn s b i = true) : MayBeOn s b i := by
  simp only [outOn, Bool.and_eq_true, List.all_eq_true, Bool.or_eq_true, decide_eq_true_eq, or_assoc] at h
  obtain ⟨⟨⟨⟨hout, -⟩, hfield⟩, hbank⟩, hfns⟩ := h
  exact ⟨hout, hfield, hbank, hfns⟩

theorem mayBeOn_congr {s : State} {b c : Bollard} (h : bolHeld c = bolHeld b) {i : Nat} (hb : MayBeOn s b i) : MayBeOn s c i := by
  simp only [MayBeOn, bolHeld_block h, bolHeld_st h]
  exact hb

theorem endStops_frame (b : Bollard) : bolFrame (endStops b) = bolFrame b := by
  unfold endStops
  refine foldl_kept bolFrame (fun b k => ?_) _ b
  split
  · rfl
  · rfl

/-- A cycle is safe: its functions run by their conditions, its channels are ON only where they may be, and it asks for Adrift as it must. -/
structure SafeCycle (s : State) (b c : Bollard) : Prop where
  frame : bolFrame c = (b.block, b.gen, b.cycle + 1)
  adrift : c.adrift = adriftWanted c
  runs : RunsRightly s 16 c
  on : ∀ i < 16, (c.och i).on = true → MayBeOn s c i

/-- The work of a cycle before the demands: the inputs and the checks (13 R511). -/
theorem checked_frame (p : BolPins) (s : State) (w : BolWork) :
    bolFrame (checkOuts s p (checkBanks s p (checkDisc s (checkEnc s p w)))).b = bolFrame w.b :=
  (checkOuts_frame ..).trans ((checkBanks_frame ..).trans ((checkDisc_frame ..).trans (checkEnc_frame ..)))

theorem bolCycle_safe (p : BolPins) (s : State) : SafeCycle s s.bol (bolCycle p s).b := by
  have hwas : bolFrame (command false s (endStops s.bol)) = bolFrame s.bol :=
    (bolFrame_of_inputs (bolHeld_inputs (command_held ..))).trans (endStops_frame _)
  unfold bolCycle
  dsimp only
  generalize command false s (endStops s.bol) = was at hwas
  generalize hr : checkSwitches p (checkPins { b := sampleIn p was }) = r
  have hrFrame : bolFrame r.1.b = bolFrame s.bol := by
    rw [← hr]
    exact (checkSwitches_frame ..).trans ((checkPins_frame _).trans ((sampleIn_frame p was).trans hwas))
  have hchecked := (checked_frame p s r.1).trans hrFrame
  generalize checkOuts s p (checkBanks s p (checkDisc s (checkEnc s p r.1))) = w at hchecked
  obtain ⟨hdem, hruns⟩ := demands_runs s r.2 w
  have hext := extremes_held (demands s r.2 w)
  obtain ⟨hin, hrestarted⟩ := restarts_runs s (List.range 16) (extremes (demands s r.2 w)) (runsRightly_held hruns hext)
  have hframe := bolFrame_of_inputs (hin.trans ((bolHeld_inputs hext).trans hdem))
  generalize (List.range 16).foldl (restart s) (extremes (demands s r.2 w)) = v at hin hrestarted hframe
  have hmarked := markThru_held v.b
  generalize hcmd : v.mod (fun b => command true s (markThru b)) = x
  have hx : x.b = command true s (markThru v.b) := by
    rw [← hcmd]
    unfold BolWork.mod
    dsimp only
  have hcommanded : bolHeld x.b = bolHeld (markThru v.b) := by
    rw [hx]
    exact command_held true s (markThru v.b)
  have hon : ∀ i < 16, (x.b.och i).on = true → MayBeOn s x.b i := by
    intro i hi hion
    rw [hx] at hion
    exact mayBeOn_congr hcommanded (mayBeOn_of_outOn (command_on true s (markThru v.b) hi hion))
  have htested := testOut_held was p x
  have htestOn := testOut_on was p x
  generalize testOut was p x = y at htested htestOn
  have hheld : bolHeld y.b = bolHeld v.b := htested.trans (hcommanded.trans hmarked)
  have hyFrame : bolFrame y.b = bolFrame s.bol := (bolFrame_of_inputs (bolHeld_inputs hheld)).trans (hframe.trans hchecked)
  obtain ⟨hblock, hgen, hcycle⟩ : y.b.block = s.bol.block ∧ y.b.gen = s.bol.gen ∧ y.b.cycle = s.bol.cycle := by
    simpa only [bolFrame, Prod.mk.injEq] using hyFrame
  have hyRuns : RunsRightly s 16 y.b := runsRightly_held hrestarted hheld
  have hyOn : ∀ i < 16, (y.b.och i).on = true → MayBeOn s y.b i := fun i hi hion =>
    mayBeOn_congr htested (hon i hi (htestOn i ▸ hion))
  generalize hz : y.mod (fun b => { b with cycle := b.cycle + 1 }) = z
  have hadrift := adriftHold_held s.bol z
  refine ⟨?_, adriftHold_adrift .., ?_, ?_⟩
  · refine (bolFrame_of_inputs (bolHeld_inputs hadrift)).trans ?_
    rw [← hz, ← hblock, ← hgen, ← hcycle]
    rfl
  · refine runsRightly_held (b := z.b) ?_ hadrift
    rw [← hz]
    exact runsRightly_cycle hyRuns _
  · intro i hi hion
    rw [adriftHold_och] at hion
    refine mayBeOn_congr hadrift ?_
    rw [← hz] at hion ⊢
    exact hyOn i hi hion

/-! ### The command -/

/-- At most the Bollard changes and the cable die tells what it found. -/
def BolTold (t s : State) : Prop := t = { s with bol := t.bol, events := t.events, pur := t.pur, log := t.log }

theorem bolTold_of_cable {t s : State} {b : Bollard} (h : CableTold t { s with bol := b }) : BolTold t s := by
  unfold CableTold at h
  unfold BolTold
  rw [h]

theorem bolTold_trans {u t s : State} (hu : BolTold u t) (ht : BolTold t s) : BolTold u s := by
  unfold BolTold at *
  rw [hu, ht]

theorem finish_cableTold (s : State) (w : BolWork) : CableTold (finish s w) { s with bol := w.b } :=
  foldl_ind (CableTold · { s with bol := w.b }) _ (fun u e hu => cableTold_trans (cableTold_raise e.1 e.2 u) hu) w.ev _ (cableTold_refl _)

theorem noteSingle_told (s : State) : BolTold (noteSingle s) s := by
  unfold noteSingle
  split
  · exact bolTold_of_cable (cableTold_raise ..)
  · rfl

theorem noteSingle_bol (s : State) : (noteSingle s).bol = { s.bol with single := (noteSingle s).bol.single } := by
  unfold noteSingle
  split
  · rw [(congrArg State.bol (cableTold_raise ..)).trans rfl]
  · rfl

theorem cycleEnd_clocks (s : State) :
    cycleEnd s = { s with now := (cycleEnd s).now, uptime := (cycleEnd s).uptime, rtc := (cycleEnd s).rtc } := by
  unfold cycleEnd
  split
  · exact advance_clocks ..
  · rfl

/-- What a state lends a cycle: the banks that evaluate and the field domain. -/
structure SamePower (t s : State) : Prop where
  bank1 : t.bank1 = s.bank1
  bank2 : t.bank2 = s.bank2
  field : t.sup.field = s.sup.field

theorem samePower_trans {u t s : State} (hu : SamePower u t) (ht : SamePower t s) : SamePower u s :=
  ⟨hu.bank1.trans ht.bank1, hu.bank2.trans ht.bank2, hu.field.trans ht.field⟩

theorem bankUp_power {t s : State} (h : SamePower t s) (k : Nat) : bankUp t k = bankUp s k := by
  simp only [bankUp, h.bank1, h.bank2]

theorem runCond_power {t s : State} (h : SamePower t s) (b : Bollard) (k : Nat) : runCond t b k = runCond s b k := by
  have hin : ∀ n, inValue t b n = inValue s b n := fun n => by
    simp only [inValue, chanSafe, bankUp_power h]
  simp only [runCond, hin]

theorem mayBeOn_power {t s : State} (h : SamePower t s) {b : Bollard} {i : Nat} (ht : MayBeOn t b i) : MayBeOn s b i := by
  obtain ⟨hout, hfield, hbank, hfns⟩ := ht
  exact ⟨hout, h.field ▸ hfield, bankUp_power h _ ▸ hbank, hfns⟩

theorem samePower_of_told {t s : State} (h : BolTold t s) : SamePower t s :=
  ⟨(congrArg State.bank1 h).trans rfl, (congrArg State.bank2 h).trans rfl, (congrArg (fun u : State => u.sup.field) h).trans rfl⟩

theorem cycleEnd_bol (s : State) : (cycleEnd s).bol = s.bol := (congrArg State.bol (cycleEnd_clocks s)).trans rfl

theorem cycleEnd_power (s : State) : SamePower (cycleEnd s) s :=
  ⟨(congrArg State.bank1 (cycleEnd_clocks s)).trans rfl, (congrArg State.bank2 (cycleEnd_clocks s)).trans rfl,
    (congrArg (fun u : State => u.sup.field) (cycleEnd_clocks s)).trans rfl⟩

theorem advance_power (n : Nat) (s : State) : SamePower (advance n s) s :=
  ⟨(congrArg State.bank1 (advance_clocks n s)).trans rfl, (congrArg State.bank2 (advance_clocks n s)).trans rfl,
    (congrArg (fun u : State => u.sup.field) (advance_clocks n s)).trans rfl⟩

/-- No cycle runs without a block in force or without a bank, and none is noted as one bank's. -/
theorem evaluationStep_none (p : BolPins) {s : State} (h : s.bol.live = false ∨ s.bank1 = false ∧ s.bank2 = false) :
    evaluationStep p s = s := by
  have hnote : noteSingle s = s := by
    unfold noteSingle
    rcases h with h | ⟨h1, h2⟩
    · simp [h]
    · simp [h1, h2]
  unfold evaluationStep
  rw [hnote]
  rcases h with h | ⟨h1, h2⟩
  · simp [h]
  · simp [h1, h2]

/-- A cycle that runs. -/
theorem evaluationStep_safe (p : BolPins) {s : State} (hlive : s.bol.live = true) (hbank : s.bank1 = true ∨ s.bank2 = true) :
    BolTold (evaluationStep p s) s ∧ SafeCycle s s.bol (evaluationStep p s).bol := by
  have htold := noteSingle_told s
  have hpower := samePower_of_told htold
  have hbol := noteSingle_bol s
  unfold evaluationStep
  dsimp only
  generalize noteSingle s = u at htold hpower hbol
  have hrun : (u.bol.live && (u.bank1 || u.bank2)) = true := by
    have hulive : u.bol.live = true := by rw [hbol, ← hlive]
    simpa only [hulive, hpower.bank1, hpower.bank2, Bool.true_and, Bool.or_eq_true] using hbank
  rw [if_pos hrun]
  obtain ⟨hframe, hadrift, hruns, hon⟩ := bolCycle_safe p u
  refine ⟨bolTold_trans (bolTold_of_cable (finish_cableTold ..)) htold, ?_⟩
  rw [finish_bol]
  refine ⟨?_, hadrift, fun k hk hsimple hst => ?_, fun i hi hion => mayBeOn_power hpower (hon i hi hion)⟩
  · rw [hframe, hbol]
  · exact (runCond_power hpower ..).symm.trans (hruns k hk hsimple hst)

/-- Settles O48: what a cycle drives and runs follows the demands, which come last of all that could stop a function; what comes after them keeps
the inputs, and only a restart takes a function to RUN, under its condition. -/
theorem bollardIsSafe : Obligations.BollardIsSafe := by
  unfold Obligations.BollardIsSafe
  intro at_ p s
  have hexec : exec (.evaluationCycle at_ p) s = .next (evaluationStep p (cycleEnd (advance at_ s))) := rfl
  have hbol := (cycleEnd_bol _).trans (advance_bol at_ s)
  have hpower := samePower_trans (cycleEnd_power _) (advance_power at_ s)
  rw [hexec]
  generalize cycleEnd (advance at_ s) = c at hbol hpower
  rw [← hbol, ← hpower.bank1, ← hpower.bank2]
  refine ⟨fun h => congrArg Host.Outcome.next (evaluationStep_none p h), fun hlive hbank => ?_⟩
  obtain ⟨htold, hframe, hadrift, hruns, hon⟩ := evaluationStep_safe p hlive hbank
  simp only [bolFrame, Prod.mk.injEq] at hframe
  obtain ⟨hblock, hgen, hcycle⟩ := hframe
  refine ⟨_, rfl, htold, hcycle, hblock, hgen, hadrift, fun k hk hlow hhigh hst => ?_, fun i hi hion => ?_⟩
  · exact (runCond_power hpower ..).symm.trans (hruns k hk ⟨hlow, hhigh⟩ hst)
  · exact mayBeOn_power hpower (hon i hi hion)

end Sys2Proof.Machine
end

section
/-!
Mode changes and the loading of an image (11 R421 to R424, R428, 02 R95, 04 R178, 10 R409, R410): settles `Obligations.ModesAndLoads`.
-/
namespace Sys2Proof.Machine
set_option Elab.async false -- one proof at a time, as in the tests: the compile is close to its memory limit

/-! ### DKH_SET_MODE (11 R421 to R424) -/

/-- The arrival record of a mode record (02 R62). -/
def modeArrival (r : ModeReq) (s : State) : Arrival :=
  { cls := 3, port := 0, stamp := s.nowNs, from_ := s.lead.num, content := r.bytes, order := s.agree.nextOrder }

theorem requestMode_eq (r : ModeReq) (s : State) : requestMode r s
    = { s with dkh := { s.dkh with modeReqs := s.dkh.modeReqs ++ [r] },
               agree := { s.agree with waiting := s.agree.waiting ++ [modeArrival r s], nextOrder := s.agree.nextOrder + 1 } } := by
  rw [requestMode, postMode, takeRecord_taken (.inr ⟨rfl, rfl⟩)]
  rfl

section
variable {mode flags target : Nat} {north east heading : DWord} {h : CmdHdr} {s : State}

/-- A request that passes posts its record (11 R423). -/
theorem setMode_passes (hm : h.may (if mode = 5 then 2 else 1) [1, 2, 3, 4, 5] s) (hlow : 1 ≤ mode) (hhigh : mode ≤ 5) (hflags : flags ≤ 3)
    (htarget : bitOf flags 1 = true → target ≤ 255) (hheading : bitOf flags 0 = true → headingOk heading = true)
    (hallowed : modeAllowed (advance h.at_ s) mode flags = true) (hbar : mode = 1 ∨ adriftBar (advance h.at_ s) = false) :
    setMode h mode flags target north east heading s
      = requestMode (setModeReq h mode flags target north east heading (s.begun h)) (s.begun h) := by
  obtain ⟨hsound, hholds, hmode⟩ := hm
  have hcheck : checkCommand h (setModeAsks mode flags target heading (advance h.at_ s)) (advance h.at_ s) = none := by
    refine check_none _ _ _ ((sound_advance ..).mpr hsound) rfl ((holds_advance ..).mpr hholds) rfl rfl ?_ ?_ ?_ rfl rfl
    · simp only [setModeAsks, Bool.and_eq_true, Bool.or_eq_true, decide_eq_true_eq, Bool.not_eq_true']
      refine ⟨⟨⟨⟨hlow, hhigh⟩, hflags⟩, ?_⟩, ?_⟩
      · cases hset : bitOf flags 1
        · exact .inl rfl
        · exact .inr (htarget hset)
      · cases hset : bitOf flags 0
        · exact .inl rfl
        · exact .inr (hheading hset)
    · rwa [advance_mode]
    · simp only [setModeAsks, hallowed, Bool.true_and, Bool.or_eq_true, decide_eq_true_eq, Bool.not_eq_true']
      exact hbar
  unfold setMode
  dsimp only
  rw [hcheck]
  rfl

end

/-! ### SLW_LOAD (11 R428) -/

theorem beginLoad_loadOf (y z : Side) (q : Load) (s : State) : (beginLoad y q s).loadOf z = if z = y then some q else s.loadOf z := by
  rw [State.loadOf, beginLoad, modLd_dkh]
  refine (Tab.get_set none s.dkh.loads y.num (some q) z.num).trans ?_
  cases y <;> cases z <;> rfl

theorem beginLoad_fmn (y z : Side) (q : Load) (s : State) :
    ((beginLoad y q s).ld z).fmn = { (s.ld z).fmn with verifying := (s.ld z).fmn.verifying || decide (z = y) } := by
  by_cases heq : z = y
  · subst heq
    rw [(beginLoad_leaves z q s).2.1, decide_eq_true rfl, Bool.or_true]
  · rw [beginLoad, modLd_ne _ _ _ _ heq, loads_ld, decide_eq_false heq, Bool.or_false]

/-- Only the landings and the loads change. -/
def LoadsOnly (t s : State) : Prop := t = { s with a := t.a, b := t.b, dkh := t.dkh }

theorem eachSide_loadsOnly (c : Side → Bool) (q : Load) (s : State) : LoadsOnly (eachSide c (fun y s => beginLoad y q s) s) s := by
  refine eachSide_ind (LoadsOnly · s) c _ (fun y t ht => ?_) s rfl
  unfold LoadsOnly at ht ⊢
  rw [ht]
  cases y <;> rfl

/-- What a step done for each landing does to what it keeps for the other one. -/
theorem eachSide_at {α : Type} (g : State → α) (k : α → α) {f : Side → State → State} {y : Side} (hself : ∀ t, g (f y t) = k (g t))
    (hother : ∀ t, g (f y.other t) = g t) (c : Side → Bool) (s : State) : g (eachSide c f s) = if c y = true then k (g s) else g s := by
  have hif : ∀ z t, g (if c z = true then f z t else t) = if c z = true then g (f z t) else g t := fun z t => by split <;> rfl
  have hskip : ∀ t, g (if c y.other = true then f y.other t else t) = g t := fun t => by rw [hif, hother, ite_self]
  unfold eachSide
  cases y with
  | A => exact (hskip _).trans (by rw [hif, hself])
  | B =>
    have hfirst : g (if c .A = true then f .A s else s) = g s := hskip s
    exact (hif ..).trans (by rw [hself, hfirst])

/-- A load begun on the landings of `c`. -/
theorem eachSide_beginLoad (c : Side → Bool) (q : Load) (s : State) (y : Side) :
    (eachSide c (fun y s => beginLoad y q s) s).loadOf y = (if c y = true then some q else s.loadOf y)
      ∧ ((eachSide c (fun y s => beginLoad y q s) s).ld y).fmn = { (s.ld y).fmn with verifying := (s.ld y).fmn.verifying || c y } := by
  have hne : y ≠ y.other := by cases y <;> decide
  constructor
  · refine eachSide_at (fun t => t.loadOf y) (fun _ => some q) (fun t => ?_) (fun t => ?_) c s
    · exact (beginLoad_loadOf ..).trans (if_pos rfl)
    · exact (beginLoad_loadOf ..).trans (if_neg hne)
  · refine (eachSide_at (fun t => (t.ld y).fmn) (fun f => { f with verifying := true }) (y := y) (fun t => ?_) (fun t => ?_) c s).trans ?_
    · exact (beginLoad_leaves ..).2.1
    · rw [beginLoad_fmn, decide_eq_false hne, Bool.or_false]
    · cases c y <;> simp

/-! ### The end of a verification (02 R95, 10 R409, R410) -/

theorem dropLoad_leaves (x : Side) (s : State) : (dropLoad x s).loadOf x = none
    ∧ (dropLoad x s).ld x = { s.ld x with fmn := { (s.ld x).fmn with verifying := false } } ∧ (dropLoad x s).ld x.other = s.ld x.other := by
  refine ⟨?_, ?_, ?_⟩
  · rw [State.loadOf, dropLoad, modLd_dkh]
    exact Tab.get_set_self none s.dkh.loads x.num none
  · rw [dropLoad, modLd_ld, loads_ld]
  · rw [dropLoad, modLd_other, loads_ld]

theorem verificationEnd_none {x : Side} {bank : Nat} {s : State} (h : ∀ q, s.loadOf x = some q → q.bank ≠ bank) (received : Nat) (ok : Bool) :
    verificationEnd x bank received ok s = s := by
  unfold verificationEnd
  split
  · rfl
  · rename_i q hq
    exact if_pos (h q hq)

theorem loadVerdict_media (x : Side) (bank received : Nat) (s : State) : loadVerdict x bank received false s = (some .media, s) := rfl

theorem loadVerdict_passes {x : Side} {bank received : Nat} {s : State} (h : verify s (flashImage (s.ld x) bank) received = none) :
    loadVerdict x bank received true s = (none, notePassed x s) := by
  simp only [loadVerdict, loadImage, h]
  rfl

/-- A reloaded image installed; a resynchronisation of its landing ends (10 R409). -/
def reloaded (x : Side) (img : Tab Byte) (s : State) : State :=
  (if s.arb.resync.elim false (fun c => c.side = x) then abandonResync s else s).modLd x (install img)

/-- The image of a manifest change waits for the next tick of its landing (10 R410). -/
def changeReady (x : Side) (img : Tab Byte) (s : State) : State :=
  (startNext x (dropLoad x (s.modLd x fun l => { l with fmn := { l.fmn with next := some img } }))).modArb fun b =>
    { b with change := b.change.map fun c => { c with stage := 2, count := 0 } }

section
variable {x : Side} {bank received : Nat} {s : State} {q : Load}

theorem verificationEnd_media {c : Pend} (hq : s.loadOf x = some q) (hbank : q.bank = bank) (hkind : q.kind = 2) (hc : q.cmd = some c) :
    verificationEnd x bank received false s = complete c .media [] false (dropLoad x s) := by
  unfold verificationEnd
  rw [hq]
  dsimp only
  rw [if_neg (not_not_intro hbank), loadVerdict_media, hkind, hc]
  rfl

theorem verificationEnd_reloaded {c : Pend} (hq : s.loadOf x = some q) (hbank : q.bank = bank) (hkind : q.kind = 2) (hc : q.cmd = some c)
    (hpass : verify s (flashImage (s.ld x) bank) received = none) : verificationEnd x bank received true s
      = complete c .done [] false (dropLoad x (reloaded x (flashImage (s.ld x) bank) (notePassed x s))) := by
  unfold verificationEnd
  rw [hq]
  dsimp only
  rw [if_neg (not_not_intro hbank), loadVerdict_passes hpass, hkind, hc]
  rfl

theorem verificationEnd_change (hq : s.loadOf x = some q) (hbank : q.bank = bank) (hkind : q.kind = 3)
    (hpass : verify s (flashImage (s.ld x) bank) received = none) : verificationEnd x bank received true s
      = if rateChange ((notePassed x s).ld x.other).fmn.img (flashImage (s.ld x) bank) = true then
          endChange .state (dropLoad x (notePassed x s)) else changeReady x (flashImage (s.ld x) bank) (notePassed x s) := by
  unfold verificationEnd
  rw [hq]
  dsimp only
  rw [if_neg (not_not_intro hbank), loadVerdict_passes hpass, hkind]
  rfl

end

theorem notePassed_leaves (x : Side) (s : State) :
    (notePassed x s).ld x = { s.ld x with fmn := { (s.ld x).fmn with lastVerify := 0, verifying := false } }
      ∧ (notePassed x s).ld x.other = s.ld x.other ∧ (notePassed x s).arb = s.arb ∧ (notePassed x s).mode = s.mode :=
  ⟨modLd_ld .., modLd_other .., modLd_arb .., modLd_mode ..⟩

theorem install_fmn (img : Tab Byte) (l : Landing) : (install img l).fmn.img = img ∧ (install img l).fmn.loaded = true := ⟨rfl, rfl⟩

theorem dropLoad_mode (x : Side) (s : State) : (dropLoad x s).mode = s.mode := by rw [dropLoad, modLd_mode]

theorem dropLoad_arb (x : Side) (s : State) : (dropLoad x s).arb = s.arb := by rw [dropLoad, modLd_arb]

theorem reloaded_leaves (x : Side) (img : Tab Byte) (s : State) :
    ((reloaded x img s).ld x).fmn.img = img ∧ ((reloaded x img s).ld x).fmn.loaded = true ∧ (reloaded x img s).mode = s.mode := by
  unfold reloaded
  rw [modLd_ld, modLd_mode]
  refine ⟨(install_fmn ..).1, (install_fmn ..).2, ?_⟩
  split
  · exact (abandonResync_rolesHeld s).mode
  · rfl

/-- A manifest change that ends without its handover, before its command is answered (10 R410). -/
def changeOver (c : Change) (s : State) : State :=
  let s := s.modArb fun b => { b with change := none }
  let s := s.modLd c.side fun l => { l with fmn := { l.fmn with next := none, verifying := false } }
  let s := { s with dkh := { s.dkh with loads := s.dkh.loads.filter fun e => !(e.1 = c.side.num && e.2.elim false (fun q => q.kind = 3)) } }
  s.setHold 4 none

theorem endChange_some {c : Change} {s : State} (h : s.arb.change = some c) (st : Status) :
    endChange st s = complete c.cmd st [] false (changeOver c s) := by
  unfold endChange
  rw [h]
  rfl

theorem Tab.get_free {α : Type} (d : α) {t : Tab α} {i : Nat} (h : ∀ e ∈ t, e.1 ≠ i) : Tab.get d t i = d := by
  rw [← Tab.erase_free h, Tab.get_erase, if_pos rfl]

theorem dropLoad_free (x : Side) (s : State) : ∀ e ∈ (dropLoad x s).dkh.loads, e.1 ≠ x.num := by
  have hloads : (dropLoad x s).dkh.loads = Tab.erase s.dkh.loads x.num := by
    rw [dropLoad, modLd_dkh]
    change Tab.set none s.dkh.loads x.num none = _
    rw [Tab.set, if_pos rfl]
  rw [hloads]
  exact Tab.erase_ne _ _

theorem changeOver_leaves {c : Change} {x : Side} (hside : c.side = x) (s : State) :
    (changeOver c s).arb.change = none ∧ ((changeOver c s).ld x).fmn = { (s.ld x).fmn with next := none, verifying := false }
      ∧ (changeOver c s).mode = s.mode := by
  subst hside
  refine ⟨?_, ?_, ?_⟩
  · exact congrArg Arbiter.change (modLd_arb ..)
  · cases hc : c.side <;> simp [changeOver, hc] <;> rfl
  · exact modLd_mode ..

theorem changeOver_loadOf (c : Change) {x : Side} {s : State} (h : ∀ e ∈ s.dkh.loads, e.1 ≠ x.num) : (changeOver c s).loadOf x = none := by
  refine Tab.get_free none fun e he => ?_
  have hmem : e ∈ ((s.modArb fun b => { b with change := none }).modLd c.side fun l =>
      { l with fmn := { l.fmn with next := none, verifying := false } }).dkh.loads := List.mem_of_mem_filter he
  rw [modLd_dkh] at hmem
  exact h e hmem

theorem changeReady_leaves (x : Side) (img : Tab Byte) (s : State) :
    (changeReady x img s).loadOf x = none
      ∧ ((changeReady x img s).ld x).fmn
        = { (s.ld x).fmn with next := some img, verifying := false, startAt := some ((s.ld x).fmn.crossing + 1) }
      ∧ (changeReady x img s).mode = s.mode ∧ (changeReady x img s).arb.change = s.arb.change.map fun c => { c with stage := 2, count := 0 } := by
  obtain ⟨hload, hld, -⟩ := dropLoad_leaves x (s.modLd x fun l => { l with fmn := { l.fmn with next := some img } })
  have harb := dropLoad_arb x (s.modLd x fun l => { l with fmn := { l.fmn with next := some img } })
  have hmode := dropLoad_mode x (s.modLd x fun l => { l with fmn := { l.fmn with next := some img } })
  rw [modLd_ld] at hld
  rw [modLd_arb] at harb
  rw [modLd_mode] at hmode
  unfold changeReady
  generalize dropLoad x (s.modLd x fun l => { l with fmn := { l.fmn with next := some img } }) = t at hload hld harb hmode
  refine ⟨?_, ?_, ?_, ?_⟩
  · refine Eq.trans ?_ hload
    exact congrArg (fun k : Deckhand => Tab.get none k.loads x.num) (modLd_dkh ..)
  · rw [modArb_ld, startNext, modLd_ld, hld]
  · exact (modLd_mode ..).trans hmode
  · refine (congrArg (fun b : Arbiter => b.change.map fun c => { c with stage := 2, count := 0 }) (modLd_arb ..)).trans ?_
    rw [harb]

theorem powered_congr {t s : State} (h : t.sup = s.sup) (y : Side) : t.powered y = s.powered y := by
  cases y <;> simp only [State.powered, h]

theorem begun_dkh (h : CmdHdr) (s : State) : (s.begun h).dkh = s.dkh := (accept_dkh ..).trans (advance_dkh ..)

theorem begun_loadOf (h : CmdHdr) (s : State) (y : Side) : (s.begun h).loadOf y = s.loadOf y := by rw [State.loadOf, begun_dkh, State.loadOf]

theorem slwTarget_begun (h : CmdHdr) (s : State) (y : Side) : slwTarget (s.begun h) y = slwTarget s y := by
  have hpower : (s.begun h).powered y = s.powered y := powered_congr ((accept_sup ..).trans (advance_sup ..)) y
  simp only [slwTarget, State.serves, role_of_same (begun_same s h), hpower, begun_ld]

/-- Settles O45: each command by the equation of the branch that it takes. -/
theorem modesAndLoads : Obligations.ModesAndLoads := by
  unfold Obligations.ModesAndLoads
  intro at_ bank received mode flags target north east heading ok x h s
  dsimp only
  have hload : (advance at_ s).loadOf x = s.loadOf x := by rw [State.loadOf, advance_dkh, State.loadOf]
  have hld := advance_ld at_ s
  have harb := advance_arb at_ s
  have hmode := advance_mode at_ s
  refine ⟨?_, ?_, ?_, ?_, ?_⟩
  · intro hm hlow hhigh hflags htarget hheading hallowed hbar
    have hdkh := begun_dkh h s
    have hagree : (s.begun h).agree = s.agree := (accept_agree ..).trans (advance_agree ..)
    have hmodeNow := mode_of_same (begun_same s h)
    refine ⟨_, congrArg Host.Outcome.next (setMode_passes hm hlow hhigh hflags htarget hheading hallowed hbar), ?_⟩
    rw [requestMode_eq]
    refine ⟨rfl, setModeReq h mode flags target north east heading (s.begun h), ?_, rfl, rfl, rfl, ?_, ?_⟩
    · rw [hdkh]
    · rw [setModeReq, hmodeNow]
      rfl
    · simp only [hagree, List.map_append, List.map_cons, List.map_nil]
      rfl
  · intro hm hbank hactive hA hB hchange
    have hasks : (advance h.at_ s).activeSide.isSome = true ∧ (advance h.at_ s).loadOf .A = none ∧ (advance h.at_ s).loadOf .B = none
        ∧ (advance h.at_ s).arb.change = none := by
      rw [activeSide_of_same (advance_same ..), State.loadOf, State.loadOf, advance_dkh, advance_arb]
      exact ⟨Option.isSome_iff_ne_none.mpr hactive, hA, hB, hchange⟩
    obtain ⟨hactive', hA', hB', hchange'⟩ := hasks
    refine ⟨_, congrArg Host.Outcome.next (hostCommand_may hm ?_ _ _), ?_, fun y => ?_⟩
    · rw [decide_eq_true hbank, hactive', hA', hB', hchange']
      rfl
    · exact eachSide_loadsOnly ..
    · obtain ⟨hloads, hfmn⟩ := eachSide_beginLoad (slwTarget (s.begun h)) { kind := 1, bank := bank, cmd := some (cmdOf h 0x1201) } (s.begun h) y
      have hnone : (s.begun h).loadOf y = none := by
        rw [begun_loadOf]
        cases y
        · exact hA
        · exact hB
      rw [slwTarget_begun, hnone] at hloads
      rw [slwTarget_begun, begun_ld] at hfmn
      exact ⟨hloads, hfmn⟩
  · intro hnone
    refine congrArg Host.Outcome.next (verificationEnd_none ?_ ..)
    rwa [hload]
  · intro q c hq hbank hkind hc
    have hq' := hload.trans hq
    refine ⟨fun hfalse => ?_, fun htrue hpass => ?_⟩
    · subst hfalse
      obtain ⟨hdropped, hat, hother⟩ := dropLoad_leaves x (advance at_ s)
      refine ⟨_, congrArg Host.Outcome.next (verificationEnd_media hq' hbank hkind hc), hdropped, ?_, hother.trans (hld _)⟩
      rw [hat, hld]
    · subst htrue
      rw [← hld] at hpass
      refine ⟨_, congrArg Host.Outcome.next (verificationEnd_reloaded hq' hbank hkind hc hpass), (dropLoad_leaves ..).1, ?_⟩
      obtain ⟨himg, hloaded, hmode'⟩ := reloaded_leaves x (flashImage ((advance at_ s).ld x) bank) (notePassed x (advance at_ s))
      rw [(dropLoad_leaves ..).2.1, dropLoad_mode]
      refine ⟨himg.trans ?_, hloaded, hmode'.trans ((notePassed_leaves ..).2.2.2.trans hmode)⟩
      rw [hld]
  · intro q c hq hbank hkind hchange hside htrue hpass
    subst htrue
    have hq' := hload.trans hq
    rw [← hld] at hpass
    obtain ⟨hnoted, hnotedOther, hnotedArb, hnotedMode⟩ := notePassed_leaves x (advance at_ s)
    have hend := verificationEnd_change hq' hbank hkind hpass
    rw [hnotedOther] at hend
    rw [hld, hld] at hend
    rw [hld] at hnoted
    generalize notePassed x (advance at_ s) = t at hend hnoted hnotedArb hnotedMode
    refine ⟨fun hrate => ?_, fun hrate => ?_⟩
    · rw [if_pos hrate] at hend
      have hchange' : (dropLoad x t).arb.change = some c := by rw [dropLoad_arb, hnotedArb, harb, hchange]
      rw [endChange_some hchange'] at hend
      obtain ⟨hnone, hfmn, hkept⟩ := changeOver_leaves hside (dropLoad x t)
      refine ⟨_, congrArg Host.Outcome.next hend, ⟨changeOver_loadOf c (dropLoad_free x t), ?_, ?_⟩, hnone, ?_⟩
      · rw [hfmn]
      · rw [hkept, dropLoad_mode, hnotedMode, hmode]
      · rw [hfmn]
    · rw [if_neg (by rw [hrate]; decide)] at hend
      obtain ⟨hdropped, hfmn, hkept, hready⟩ := changeReady_leaves x (flashImage (s.ld x) bank) t
      refine ⟨_, congrArg Host.Outcome.next hend, ⟨hdropped, ?_, ?_⟩, ?_, ?_, ?_⟩
      · rw [hfmn]
      · rw [hkept, hnotedMode, hmode]
      · rw [hready, hnotedArb, harb, hchange]
        rfl
      · rw [hfmn]
      · rw [hfmn, hnoted]

end Sys2Proof.Machine
end

section
/-!
Starts of a landing (11 R430, R433, R434, R440): its slipway record, a start begun, a start that fails, a landing in quarantine.
-/
namespace Sys2Proof.Machine
set_option Elab.async false -- one proof at a time, as in the tests: the compile is close to its memory limit

/-! ### The slipway record (11 R433) -/

theorem recByte_congr {t s : State} (h : t.rtc.mem = s.rtc.mem) (x : Side) (o : Nat) : recByte t x o = recByte s x o := by
  rw [recByte, recByte, bkpByte, bkpByte, h]

theorem recByte_putRec (x : Side) (o : Nat) (b : List Byte) (s : State) (n : Nat) :
    recByte (putRec x o b s) x n = if o ≤ n ∧ n < o + b.length then (b.getD (n - o) 0).toNat else recByte s x n := by
  rw [recByte, putRec, bkpByte_bkpPut, Nat.add_sub_add_left]
  by_cases h : o ≤ n ∧ n < o + b.length
  · rw [if_pos (by lia), if_pos h]
  · rw [if_neg (by lia), if_neg h]
    rfl

theorem recByte_putRec_ne (x : Side) (o : Nat) (b : List Byte) (s : State) {n : Nat} (h : n < o ∨ o + b.length ≤ n) :
    recByte (putRec x o b s) x n = recByte s x n := by
  rw [recByte_putRec, if_neg (by lia)]

theorem recByte_lt (s : State) (x : Side) (o : Nat) : recByte s x o < 256 := bkpByte_lt ..

theorem putRec_ld (x : Side) (o : Nat) (b : List Byte) (s : State) (y : Side) : (putRec x o b s).ld y = s.ld y := by cases y <;> rfl

theorem recByte_modLd (s : State) (x : Side) (f : Landing → Landing) (y : Side) (o : Nat) : recByte (s.modLd x f) y o = recByte s y o :=
  recByte_congr (congrArg Rtc.mem (modLd_rtc ..)) y o

theorem recByte_raise (src : Source) (code detail : Nat) (s : State) (y : Side) (o : Nat) : recByte (raise src code detail s) y o = recByte s y o :=
  recByte_congr (congrArg Rtc.mem (raise_rtc ..)) y o

theorem recByte_modArb (s : State) (f : Arbiter → Arbiter) (y : Side) (o : Nat) : recByte (s.modArb f) y o = recByte s y o := rfl

/-- The quarantined flag is set by adding it. -/
theorem bitOf_addBits_quarantined (n : Nat) : bitOf (BitVec.ofNat 8 (addBits n 32)).toNat 5 = true := by
  unfold addBits
  simp only [List.range, List.range.loop, List.foldl_cons, List.foldl_nil]
  generalize bitOf n 0 = b0, bitOf n 1 = b1, bitOf n 2 = b2, bitOf n 3 = b3, bitOf n 4 = b4, bitOf n 5 = b5, bitOf n 6 = b6, bitOf n 7 = b7
  revert b0 b1 b2 b3 b4 b5 b6 b7
  decide

/-! ### A start begun (11 R430, R433, R434) -/

theorem beginStart_slw (x : Side) (s : State) : ((beginStart x s).ld x).slw.running = true ∧ ((beginStart x s).ld x).slw.stage = 3
    ∧ ((beginStart x s).ld x).slw.restarted = (s.ld x).slw.restarted := by
  unfold beginStart
  dsimp only
  rw [modLd_ld]
  exact ⟨rfl, rfl, rfl⟩

theorem beginStart_flash (x : Side) (s : State) : ((beginStart x s).ld x).flash = (s.ld x).flash := by
  unfold beginStart
  dsimp only
  rw [modLd_ld, putRec_ld, putRec_ld, putRec_ld]
  rfl

theorem beginStart_other (x : Side) (s : State) : (beginStart x s).ld x.other = s.ld x.other := by
  unfold beginStart
  dsimp only
  rw [modLd_other, putRec_ld, putRec_ld, putRec_ld]

theorem beginStart_failures (x : Side) (s : State) : recByte (beginStart x s) x 1 = recByte s x 1 := by
  unfold beginStart
  dsimp only
  rw [recByte_modLd, recByte_putRec_ne x 8 _ _ (.inl (by decide)), recByte_putRec_ne x 4 _ _ (.inl (by decide)),
    recByte_putRec_ne x 0 _ _ (.inr (by simp))]

/-! ### A start that fails (11 R434, R440) -/

/-- A start of landing `x` has failed that was the failure after `n` others: begun again, or quarantined. -/
def Failed (x : Side) (n : Nat) (t : State) : Prop :=
  (n < 2 → (t.ld x).slw.running = true ∧ (t.ld x).slw.stage = 3 ∧ recByte t x 1 = n + 1)
    ∧ (2 ≤ n → (t.ld x).slw.running = false ∧ (t.ld x).slw.inReset = true ∧ bitOf (recByte t x 4) 5 = true)

/-- Held in reset, out of service and marked, before its command is answered (11 R440). -/
def heldInReset (x : Side) (s : State) : State :=
  dueRole x .quarantined ((raise (.landing x) 0x1206 x.num (putRec x 4 [BitVec.ofNat 8 (addBits (recByte s x 4) 32)] s)).modLd x fun l =>
    { resetLanding l with events := l.events, slw := { l.slw with inReset := true, running := false, s10 := false, cmd := none } })

theorem heldInReset_leaves (x : Side) (s : State) : ((heldInReset x s).ld x).slw.running = false ∧ ((heldInReset x s).ld x).slw.inReset = true
    ∧ bitOf (recByte (heldInReset x s) x 4) 5 = true := by
  unfold heldInReset dueRole
  rw [modArb_ld, modLd_ld]
  refine ⟨rfl, rfl, ?_⟩
  rw [recByte_modArb, recByte_modLd, recByte_raise, recByte_putRec, if_pos (by simp)]
  exact bitOf_addBits_quarantined _

theorem quarantine_leaves (x : Side) (s : State) : ((quarantine x s).ld x).slw.running = false ∧ ((quarantine x s).ld x).slw.inReset = true
    ∧ bitOf (recByte (quarantine x s) x 4) 5 = true := by
  unfold quarantine
  dsimp only
  split
  · rw [complete_ld, recByte_congr (congrArg Rtc.mem (complete_rtc ..))]
    exact heldInReset_leaves x s
  · exact heldInReset_leaves x s

theorem failStart_failed (x : Side) (code stage : Nat) (s : State) : Failed x (recByte s x 1) (failStart x code stage s) := by
  unfold failStart
  dsimp only
  generalize addBits (recByte s x 4) (pathFlag stage) = f
  refine ⟨fun hfew => ?_, fun hmany => ?_⟩
  · rw [if_neg (by lia)]
    obtain ⟨hrunning, hstage, -⟩ := beginStart_slw x (putRec x 0 ([BitVec.ofNat 8 stage, BitVec.ofNat 8 (min 3 (recByte s x 1 + 1))]
      ++ leBytes 2 code ++ [BitVec.ofNat 8 f]) s)
    refine ⟨hrunning, hstage, ?_⟩
    rw [beginStart_failures, recByte_putRec, if_pos (by simp)]
    have hcount : min 3 (recByte s x 1 + 1) = recByte s x 1 + 1 := by lia
    rw [hcount]
    simp
    lia
  · rw [if_pos (by lia)]
    exact quarantine_leaves ..

theorem failBefore11_failed (x : Side) (code detail stage : Nat) (s : State) :
    Failed x (recByte s x 1) (failBefore11 x code detail stage s) := by
  have hfailed := failStart_failed x code stage (raise (.landing x) code detail s)
  rwa [recByte_raise] at hfailed

/-! ### Power and roles decide who is ready (11 R437) -/

theorem s10_of_pace {t s : State} (h : t.pace = s.pace) (x : Side) : (t.ld x).slw.s10 = (s.ld x).slw.s10 := by
  simp only [State.pace, Landing.beat, Prod.mk.injEq] at h
  cases x
  · exact h.2.2.2.2.1.2.2.1
  · exact h.2.2.2.2.2.2.2.1

theorem ready_of_pace {t s : State} (h : t.pace = s.pace) (x : Side) : ready t x = ready s x := by
  have hs10 := s10_of_pace h x
  simp only [State.pace, Landing.beat, Prod.mk.injEq] at h
  obtain ⟨-, -, hA, hB, ⟨-, -, -, hresetA⟩, -, -, -, hresetB⟩ := h
  cases x
  · simp only [ready, State.powered, hs10, hA]
    rw [show (t.ld .A).slw.inReset = (s.ld .A).slw.inReset from hresetA]
  · simp only [ready, State.powered, hs10, hB]
    rw [show (t.ld .B).slw.inReset = (s.ld .B).slw.inReset from hresetB]

theorem sameManifest_congr {t s : State} (h : ∀ x, (t.ld x).fmn = (s.ld x).fmn) : sameManifest t = sameManifest s := by
  have hA : t.a.fmn = s.a.fmn := h .A
  have hB : t.b.fmn = s.b.fmn := h .B
  simp only [sameManifest, hA, hB]

/-! ### The clock and the deadline of a start -/

/-- Module time and the deadline of R437 stand. -/
def Timed (t s : State) : Prop := t.now = s.now ∧ t.dkh.deadline = s.dkh.deadline

theorem timed_refl (s : State) : Timed s s := ⟨rfl, rfl⟩

theorem timed_trans {u t s : State} (hu : Timed u t) (ht : Timed t s) : Timed u s := ⟨hu.1.trans ht.1, hu.2.trans ht.2⟩

theorem timed_ite {c : Prop} [Decidable c] {t u s : State} (ht : Timed t s) (hu : Timed u s) : Timed (if c then t else u) s := by
  split
  · exact ht
  · exact hu

theorem timed_modLd (s : State) (x : Side) (f : Landing → Landing) : Timed (s.modLd x f) s :=
  ⟨modLd_now .., congrArg Deckhand.deadline (modLd_dkh ..)⟩

theorem timed_setRole (s : State) (x : Side) (r : Role) : Timed (s.setRole x r) s :=
  ⟨setRole_now .., congrArg Deckhand.deadline (setRole_dkh ..)⟩

theorem timed_raise (src : Source) (code detail : Nat) (s : State) : Timed (raise src code detail s) s :=
  ⟨raise_now .., congrArg Deckhand.deadline (raise_dkh ..)⟩

theorem timed_eachSide {f : Side → State → State} (hf : ∀ x s, Timed (f x s) s) (c : Side → Bool) (s : State) : Timed (eachSide c f s) s :=
  eachSide_ind (Timed · s) c f (fun x t ht => timed_trans (hf x t) ht) s (timed_refl s)

theorem timed_beginLoad (y : Side) (q : Load) (s : State) : Timed (beginLoad y q s) s :=
  timed_trans (timed_modLd ..) ⟨rfl, rfl⟩

theorem timed_startResync (y : Side) (cmd : Option Pend) (s : State) : Timed (startResync y cmd s) s :=
  timed_trans ⟨rfl, rfl⟩ (timed_trans (timed_modLd ..) (timed_modLd ..))

theorem timed_rejoin (y : Side) (s : State) : Timed (rejoin y s) s :=
  timed_ite (timed_refl s) (timed_ite (timed_beginLoad ..) (timed_ite (timed_startResync ..) (timed_refl s)))

theorem timed_finishStart (x : Side) (s : State) : Timed (finishStart x s) s := timed_trans (timed_modLd ..) ⟨rfl, rfl⟩

theorem timed_enterS11 (x : Side) (s : State) : Timed (enterS11 x s) s := by
  unfold enterS11
  extract_lets u
  have hstage : Timed (enterStage x 11 s) s := timed_trans ⟨rfl, rfl⟩ (timed_modLd ..)
  have hentered : Timed u s := timed_trans (timed_modLd ..) hstage
  exact timed_ite (timed_trans (timed_modLd ..) hentered) hentered

theorem timed_bolTrial (on : Bool) (s : State) : Timed (bolTrial on s) s := by
  unfold bolTrial
  dsimp only
  split
  · exact timed_refl s
  · have htold := finish_told s
    exact ⟨(congrArg State.now (htold _)).trans rfl, (congrArg (fun t : State => t.dkh.deadline) (htold _)).trans rfl⟩

theorem timed_releaseAdrift (s : State) : Timed (releaseAdrift s) s := by
  have hstepped := stepped_settlePins s
  refine timed_trans (t := settlePins s) ⟨rfl, rfl⟩ ?_
  exact ⟨(congrArg State.now hstepped).trans rfl, (congrArg (fun t : State => t.dkh.deadline) hstepped).trans rfl⟩

theorem timed_changeMode (mode cause part : Nat) (s : State) : Timed (changeMode mode cause part s) s := by
  unfold changeMode
  extract_lets d s1 s2 s3 s4
  have h1 : Timed s1 s := ⟨rfl, rfl⟩
  have h2 : Timed s2 s1 := timed_eachSide (fun _ _ => timed_raise ..) _ _
  have h3 : Timed s3 s2 := timed_ite (timed_refl _) ⟨rfl, rfl⟩
  have h4 : Timed s4 s := timed_trans (timed_bolTrial ..) (timed_trans h3 (timed_trans h2 h1))
  exact timed_ite (timed_trans (timed_releaseAdrift _) h4) h4

theorem timed_setLevel (p n slot : Nat) (s : State) : Timed (setLevel p n slot s) s := by
  unfold setLevel
  exact timed_ite ⟨rfl, rfl⟩ (timed_trans (timed_raise ..) ⟨rfl, rfl⟩)

theorem timed_enterBerth (s : State) : Timed (enterBerth s) s := by
  unfold enterBerth
  extract_lets s1 s2 p s3
  have h1 : Timed s1 s := timed_changeMode ..
  have h2 : Timed s2 s1 := timed_eachSide (fun x s => timed_trans (timed_raise ..) (timed_finishStart x s)) _ _
  have h3 : Timed s3 s := timed_trans ⟨rfl, rfl⟩ (timed_trans h2 h1)
  exact timed_ite h3 (timed_trans (timed_setLevel ..) (timed_trans ⟨rfl, rfl⟩ h3))

end Sys2Proof.Machine
end

section
/-!
The assignment of the roles at start-up and the end of S10 (11 R437, R438, R441).
-/
namespace Sys2Proof.Machine
set_option Elab.async false -- one proof at a time, as in the tests: the compile is close to its memory limit

theorem rejoin_pace (y : Side) (s : State) : (rejoin y s).pace = s.pace := by
  unfold rejoin
  dsimp only
  split
  · rfl
  · split
    · exact beginLoad_pace ..
    · split
      · exact startResync_pace ..
      · rfl

theorem modSlw_slw (s : State) (x : Side) (f : Slipway → Slipway) : ((s.modSlw x f).ld x).slw = f (s.ld x).slw :=
  congrArg Landing.slw (modLd_ld ..)

theorem modSlw_pace (s : State) (x : Side) (f : Slipway → Slipway) (hs10 : (f (s.ld x).slw).s10 = (s.ld x).slw.s10)
    (hreset : (f (s.ld x).slw).inReset = (s.ld x).slw.inReset) : (s.modSlw x f).pace = s.pace :=
  modLd_pace s x _ (by simp only [Landing.beat, hs10, hreset])

theorem enterS11_pace (x : Side) (s : State) : (enterS11 x s).pace = s.pace := by
  unfold enterS11
  extract_lets u
  have hu : u.pace = s.pace := (modSlw_pace _ _ _ rfl rfl).trans (modSlw_pace s x _ rfl rfl)
  split
  · exact (modLd_pace _ _ _ rfl).trans hu
  · exact hu

theorem role_ite {c : Prop} [Decidable c] (t u : State) (x : Side) : (if c then t else u).role x = if c then t.role x else u.role x := by
  split <;> rfl

theorem timed_enterAll (s : State) : Timed (eachSide s.inStep enterS11 s) s := timed_eachSide timed_enterS11 _ s

theorem enterBerth_role (s : State) (x : Side) : (enterBerth s).role x = s.role x := by
  obtain ⟨⟨_, hA, hB, _⟩, _⟩ := enterBerth_rq s
  cases x
  · exact hA
  · exact hB

theorem setRole_of_other (s : State) (a : Side) (r : Role) : (s.setRole a.other r).role a = s.role a := by cases a <;> rfl

/-- The landing beside the active one `a` that joins later (11 R437, R438). -/
def joinsLater (a : Side) (s : State) : State :=
  rejoin a.other (finishStart a.other ((raise (.landing a.other) 0x1208 0 (s.setRole a.other .unsync)).modSlw a.other
    fun w => { w with entered := s.nowNs, joins := true }))

structure JoinsLater (a : Side) (t s : State) : Prop where
  active : t.role a = s.role a
  other : t.role a.other = .unsync
  pace : t.pace = s.pace
  timed : Timed t s

theorem joinsLater_leaves (a : Side) (s : State) : JoinsLater a (joinsLater a s) s := by
  have hsame : Same (joinsLater a s) (s.setRole a.other .unsync) :=
    same_trans (rejoin_same ..) (same_trans (finishStart_same ..) (same_trans (modSlw_same ..) (raise_same ..)))
  refine ⟨(role_of_same hsame a).trans (setRole_of_other ..), (role_of_same hsame _).trans (setRole_role ..), ?_, ?_⟩
  · exact (rejoin_pace ..).trans ((finishStart_pace ..).trans ((modSlw_pace _ _ _ rfl rfl).trans ((raise_pace ..).trans (setRole_pace ..))))
  · exact timed_trans (timed_rejoin ..) (timed_trans (timed_finishStart ..) (timed_trans (timed_modLd ..)
      (timed_trans (timed_raise ..) (timed_setRole ..))))

theorem modArb_role (s : State) (f : Arbiter → Arbiter) (x : Side) : (s.modArb f).role x = s.role x := by cases x <;> rfl

theorem modArb_pace (s : State) (f : Arbiter → Arbiter) : (s.modArb f).pace = s.pace := rfl

theorem timed_modArb (s : State) (f : Arbiter → Arbiter) : Timed (s.modArb f) s := ⟨rfl, rfl⟩

/-- What an assignment with landing `a` ACTIVE leaves (11 R437): the roles, the boundary at which they are given, and what it does not touch. -/
structure Assigned (a : Side) (t s : State) : Prop where
  active : t.role a = .active
  other : t.role a.other = if ready s a.other = true ∧ s.role a.other = .none then (if sameManifest s = true then .standby else .unsync)
    else s.role a.other
  pace : t.pace = s.pace
  timed : Timed t (advance s.nextLeg.1 s)

theorem assignRoles_assigned (a : Side) (alone : Bool) (s : State) : Assigned a (assignRoles a alone s) s := by
  unfold assignRoles
  extract_lets o b s1 s2 s3 there same s4 s5 s6
  have hrole1 : s1.role o = s.role o := role_of_same (advance_same ..) o
  have hactive2 : s2.role a = .active := (modArb_role ..).trans (setRole_role s1 a .active)
  have hrole2 : s2.role o = s.role o := (modArb_role ..).trans ((setRole_other s1 a .active).trans hrole1)
  have hpace2 : s2.pace = s.pace := (modArb_pace ..).trans ((setRole_pace ..).trans (advance_pace ..))
  have hfmn2 : ∀ x, (s2.ld x).fmn = (s.ld x).fmn := fun x => by
    rw [modArb_ld, setRole_ld, advance_ld]
  have htimed2 : Timed s2 s1 := timed_trans (t := s1.setRole a .active) (timed_modArb ..) (timed_setRole ..)
  clear_value s2
  have hsame3 : Same s3 s2 := ite_same (same_trans (raise_same ..) (modSlw_same ..)) (by simp)
  have hpace3 : s3.pace = s.pace := by
    refine Eq.trans ?_ hpace2
    simp only [s3]
    split
    · exact (raise_pace ..).trans (modSlw_pace _ _ _ rfl rfl)
    · rfl
  have hfmn3 : ∀ x, (s3.ld x).fmn = (s.ld x).fmn := fun x => by
    refine Eq.trans ?_ (hfmn2 x)
    simp only [s3]
    split
    · rw [raise_ld]
      cases a <;> cases x <;> rfl
    · rfl
  have hthere : there = (ready s o && decide (s.role o = .none)) := by
    simp only [there]
    rw [ready_of_pace hpace3, role_of_same hsame3, hrole2]
  have hsame : same = sameManifest s := sameManifest_congr hfmn3
  have htimed3 : Timed s3 s1 := timed_trans (t := s2) (timed_ite (timed_trans (timed_raise ..) (timed_modLd ..)) (timed_refl _)) htimed2
  have hactive3 : s3.role a = .active := (role_of_same hsame3 a).trans hactive2
  have hrole3 : s3.role o = s.role o := (role_of_same hsame3 o).trans hrole2
  clear_value s3 there same
  have hactive4 : s4.role a = .active := (role_ite ..).trans (by rw [setRole_of_other, hactive3, ite_self])
  have hrole4 : s4.role o = if (there && same) = true then .standby else s.role o :=
    (role_ite ..).trans (by rw [setRole_role, hrole3])
  have hpace4 : s4.pace = s.pace := (ite_pace ..).trans (by rw [setRole_pace, ite_self, hpace3])
  have htimed4 : Timed s4 s1 := timed_ite (timed_trans (timed_setRole ..) htimed3) htimed3
  have hsame5 : Same s5 s4 := eachSide_same _ _ _ fun _ _ => enterS11_same ..
  have hpace5 : s5.pace = s.pace := (eachSide_pace _ _ enterS11_pace _).trans hpace4
  have htimed5 : Timed s5 s1 := timed_trans (timed_enterAll s4) htimed4
  have hactive5 := (role_of_same hsame5 a).trans hactive4
  have hrole5 := (role_of_same hsame5 o).trans hrole4
  clear_value s5
  have hjoins := joinsLater_leaves a s5
  have h6 : s6 = if (there && !same) = true then joinsLater a s5 else s5 := rfl
  clear_value s6
  have hactive6 : s6.role a = .active := by rw [h6, role_ite, hjoins.active, hactive5, ite_self]
  have hrole6 : s6.role o = if (there && !same) = true then .unsync else s5.role o := by rw [h6, role_ite, hjoins.other]
  have hpace6 : s6.pace = s.pace := by rw [h6, ite_pace, hjoins.pace, ite_self, hpace5]
  have htimed6 : Timed s6 s1 := h6 ▸ timed_ite (timed_trans hjoins.timed htimed5) htimed5
  have hother : s6.role o = if ready s o = true ∧ s.role o = .none then (if sameManifest s = true then .standby else .unsync) else s.role o := by
    rw [hrole6, hrole5, hthere, hsame]
    by_cases hready : ready s o = true ∧ s.role o = .none
    · rw [if_pos hready, hready.1, hready.2]
      cases sameManifest s <;> rfl
    · have hnot : (ready s o && decide (s.role o = .none)) = false := by simpa using hready
      rw [if_neg hready, hnot]
      rfl
  refine ⟨(role_ite ..).trans ?_, (role_ite ..).trans ?_, (ite_pace ..).trans ?_, timed_ite htimed6 (timed_trans (timed_enterBerth _) htimed6)⟩
  · rw [enterBerth_role, ite_self, hactive6]
  · rw [enterBerth_role, ite_self, hother]
  · rw [enterBerth_pace, ite_self, hpace6]

/-- A landing that completes S10 has completed it, whatever role it gets (11 R437, R441). -/
theorem completeS10_s10 (x : Side) (s : State) : ((completeS10 x s).ld x).slw.s10 = true := by
  unfold completeS10
  extract_lets cmd u v
  have hu : (u.ld x).slw.s10 = true := congrArg Slipway.s10 (modSlw_slw ..)
  have hpace : v.pace = u.pace := by
    simp only [v]
    split
    · refine (rejoin_pace ..).trans ((finishStart_pace ..).trans ((modSlw_pace _ _ _ rfl rfl).trans ?_))
      exact pace_of rfl rfl rfl rfl
    · split
      · exact (assignRoles_assigned x true u).pace
      · rfl
  have hv := (s10_of_pace hpace x).trans hu
  clear_value cmd v
  cases cmd with
  | none => exact hv
  | some c => exact (congrArg (fun l : Landing => l.slw.s10) (complete_ld ..)).trans hv

end Sys2Proof.Machine
end

section
/-!
The stages of a start on a landing (11 R430 to R436): which pass, and when all of them do.
-/
namespace Sys2Proof.Machine
set_option Elab.async false -- one proof at a time, as in the tests: the compile is close to its memory limit

/-! ### The flash of the landings -/

/-- Every landing's flash stands. -/
def SameFlash (t s : State) : Prop := (∀ y, (t.ld y).flash = (s.ld y).flash) ∧ ∀ y, (t.ld y).fwErased = (s.ld y).fwErased

theorem sameFlash_refl (s : State) : SameFlash s s := ⟨fun _ => rfl, fun _ => rfl⟩

theorem sameFlash_trans {u t s : State} (hu : SameFlash u t) (ht : SameFlash t s) : SameFlash u s :=
  ⟨fun y => (hu.1 y).trans (ht.1 y), fun y => (hu.2 y).trans (ht.2 y)⟩

theorem sameFlash_on {t s : State} (h : SameFlash t s) (y : Side) :
    (t.ld y).flash = (s.ld y).flash ∧ (t.ld y).fwErased = (s.ld y).fwErased := ⟨h.1 y, h.2 y⟩

theorem sameFlash_all {t s : State} (h : ∀ y, (t.ld y).flash = (s.ld y).flash ∧ (t.ld y).fwErased = (s.ld y).fwErased) : SameFlash t s :=
  ⟨fun y => (h y).1, fun y => (h y).2⟩

theorem sameFlash_ite {c : Prop} [Decidable c] {t u s : State} (ht : SameFlash t s) (hu : SameFlash u s) : SameFlash (if c then t else u) s := by
  split
  · exact ht
  · exact hu

theorem sameFlash_of {t s : State} (h : ∀ y, t.ld y = s.ld y) : SameFlash t s :=
  sameFlash_all fun y => by rw [h y]; exact ⟨rfl, rfl⟩

theorem sameFlash_modLd (x : Side) {f : Landing → Landing} (s : State)
    (hf : ∀ l, (f l).flash = l.flash ∧ (f l).fwErased = l.fwErased := by intro l; exact ⟨rfl, rfl⟩) : SameFlash (s.modLd x f) s := by
  refine sameFlash_all fun y => ?_
  by_cases hy : y = x
  · rw [hy, modLd_ld]
    exact hf _
  · rw [modLd_ne _ _ _ _ hy]
    exact ⟨rfl, rfl⟩

theorem sameFlash_raise (src : Source) (code detail : Nat) (s : State) : SameFlash (raise src code detail s) s := by
  refine sameFlash_all fun y => ?_
  rw [raise_ld]
  exact ⟨rfl, rfl⟩

theorem sameFlash_complete (c : Pend) (st : Status) (d : List Byte) (p : Bool) (s : State) : SameFlash (complete c st d p s) s :=
  sameFlash_of fun _ => complete_ld ..

theorem flashByte_congr {k l : Landing} (h : k.flash = l.flash ∧ k.fwErased = l.fwErased) (a : Nat) : flashByte k a = flashByte l a := by
  unfold flashByte factoryAt
  rw [h.1, h.2]

theorem flashBytes_congr {k l : Landing} (h : k.flash = l.flash ∧ k.fwErased = l.fwErased) (n a : Nat) :
    flashBytes k a n = flashBytes l a n := by
  induction n generalizing a with
  | zero => rfl
  | succ n ih => rw [flashBytes, flashBytes, ih, flashByte_congr h]

theorem flashBytes_take (l : Landing) (a : Nat) {k n : Nat} (h : k ≤ n) : (flashBytes l a n).take k = flashBytes l a k := by
  induction k generalizing a n with
  | zero => rfl
  | succ k ih =>
    cases n with
    | zero => lia
    | succ n => rw [flashBytes, flashBytes, List.take_succ_cons, ih _ (by lia)]

/-! ### The stages (11 R430 to R436) -/

theorem enterStage_flash (x : Side) (n : Nat) (s : State) : SameFlash (enterStage x n s) s :=
  sameFlash_trans (sameFlash_of fun y => putRec_ld ..) (sameFlash_modLd x s)

theorem takePath_flash (x : Side) (flag : Nat) {mark : Slipway → Slipway} (s : State) : SameFlash (takePath x flag mark s) s := by
  have hmarked : SameFlash (s.modSlw x mark) s := sameFlash_modLd x s
  exact sameFlash_ite (sameFlash_ite (sameFlash_trans (sameFlash_raise ..) hmarked) hmarked) (sameFlash_refl s)

/-- A sound firmware copy passes S3 (11 R431). -/
theorem stageS3_passes {r : StartRun} (hfw : r.fw ≤ 1) (x : Side) (s : State) : (stageS3 x r s).2 = true ∧ SameFlash (stageS3 x r s).1 s := by
  unfold stageS3
  split
  · exact ⟨rfl, sameFlash_refl s⟩
  · rw [if_pos (by lia)]
    have hmarked : SameFlash (s.modSlw x fun w => { w with fw1 := true }) s := sameFlash_modLd x s
    exact ⟨rfl, sameFlash_trans (t := s.modSlw x fun w => { w with fw1 := true }) (sameFlash_raise (.landing x) 0x1307 1 _) hmarked⟩

/-- Erased copies of the remap table pass S5 (12 R470). -/
theorem stageS5_passes {x : Side} {s : State} (h0 : ofLe (flashBytes (s.ld x) 0x63800000 4) = 0xFFFFFFFF)
    (h1 : ofLe (flashBytes (s.ld x) 0x63801000 4) = 0xFFFFFFFF) : (stageS5 x s).2 = true := by
  unfold stageS5
  extract_lets u one b load
  have hflash := takePath_flash x 1 (mark := fun w => { w with remap1 := true }) s
  have hblank : ofLe (b.take 4) = 0xFFFFFFFF := by
    simp only [b]
    rw [flashBytes_take _ _ (by decide), flashBytes_congr (sameFlash_on hflash x)]
    split
    · exact h1
    · exact h0
  rw [if_pos hblank]

/-- Nothing found by the memory test passes S6 (12 R458). -/
theorem stageS6_passes {r : StartRun} (hlines : r.badLines = []) (hspares : r.badSpares = []) (hother : r.otherBad = false) (x : Side) (s : State) :
    (stageS6 x r s).2 = true := by
  unfold stageS6
  simp only [hlines, hspares, hother, List.filter_nil, List.foldl_nil, Nat.sub_self, Nat.not_lt_zero, decide_false, Bool.or_false,
    Bool.false_eq_true, if_false]

theorem stageS7_passes (x : Side) (s : State) : (stageS7 x s).2 = true := by
  unfold stageS7
  dsimp only
  split
  · split
    · rfl
    · split
      · rfl
      · split
        · rfl
        · rfl
  · split
    · split
      · rfl
      · rfl
    · rfl

theorem stageS9_passes (x : Side) (r : StartRun) (s : State) : (stageS9 x r s).2 = true := by
  unfold stageS9
  dsimp only
  split
  · rfl
  · rfl

/-- Reduced speed only gives a stage more time (11 R430, R435). -/
theorem stageLimit_slow {slow : Bool} {n k : Nat} (h : stageLimit slow n = some k) : ∃ j ≤ k, stageLimit false n = some j := by
  by_cases hn : n = 4
  · subst hn
    have hk : (if slow then 1000000 else 400000) = k := Option.some.inj h
    refine ⟨400000, ?_, rfl⟩
    split at hk
    · lia
    · lia
  · refine ⟨k, le_rfl, ?_⟩
    rw [← h]
    unfold stageLimit
    split
    case h_2 => exact absurd rfl hn
    all_goals rfl

/-- No stage overruns its limit. -/
def InTime (r : StartRun) : Prop := ∀ e ∈ r.times, ∀ k, stageLimit false e.1 = some k → e.2 ≤ k

theorem overLimit_inTime {r : StartRun} (h : InTime r) (x : Side) (n : Nat) (s : State) : overLimit x r.times n s = false := by
  unfold overLimit
  cases hlimit : stageLimit (s.ld x).slw.slow n with
  | none => rfl
  | some k =>
    obtain ⟨j, hjk, hj⟩ := stageLimit_slow hlimit
    simp only [Option.elim_some, List.any_eq_false, Bool.and_eq_true, decide_eq_true_eq, not_and, not_lt]
    exact fun e he heq => (h e he j (heq ▸ hj)).trans hjk

section
variable {x : Side} {r : StartRun}

/-- A stage that passes and is in time leads on to the next. -/
theorem runStages_pass (hfail : r.fail = none) (htime : InTime r) {n : Nat} {f : State → State × Bool} {s : State}
    (hpass : (f (enterStage x n s)).2 = true) (l : List (Nat × (State → State × Bool))) :
    runStages x r ((n, f) :: l) s = runStages x r l (f (enterStage x n s)).1 := by
  rw [runStages]
  rw [hpass, hfail, overLimit_inTime htime]
  rfl

/-- Stages that always pass. -/
theorem runStages_all (hfail : r.fail = none) (htime : InTime r) (l : List (Nat × (State → State × Bool))) (hpass : ∀ p ∈ l, ∀ s, (p.2 s).2 = true)
    (s : State) : (runStages x r l s).2 = none := by
  induction l generalizing s with
  | nil => rfl
  | cons p l ih =>
    rw [runStages_pass hfail htime (hpass p List.mem_cons_self _)]
    exact ih (fun q hq => hpass q (List.mem_cons_of_mem _ hq)) _

/-- What a start needs to pass every stage. -/
structure SoundStart (x : Side) (r : StartRun) (s : State) : Prop where
  copy : r.fw ≤ 1
  inTime : InTime r
  noFailure : r.fail = none
  noLines : r.badLines = []
  noSpares : r.badSpares = []
  noOther : r.otherBad = false
  table : ofLe (flashBytes (s.ld x) 0x63800000 4) = 0xFFFFFFFF
  copyTable : ofLe (flashBytes (s.ld x) 0x63801000 4) = 0xFFFFFFFF

theorem runStages_sound {s : State} (h : SoundStart x r s) : (runStages x r (landingStages x r) s).2 = none := by
  obtain ⟨hcopy, htime, hfail, hlines, hspares, hother, htable, hcopyTable⟩ := h
  unfold landingStages
  obtain ⟨hpass3, hflash3⟩ := stageS3_passes hcopy x (enterStage x 3 s)
  rw [runStages_pass hfail htime hpass3, runStages_pass hfail htime rfl]
  have hflash4 := takePath_flash x 0 (mark := fun w => { w with slow := true }) (enterStage x 4 (stageS3 x r (enterStage x 3 s)).1)
  have hflash := sameFlash_trans (enterStage_flash x 5 _) (sameFlash_trans hflash4 (sameFlash_trans (enterStage_flash ..)
    (sameFlash_trans hflash3 (enterStage_flash ..))))
  have hpass5 : (stageS5 x (enterStage x 5 (stageS4 x (enterStage x 4 (stageS3 x r (enterStage x 3 s)).1)).1)).2 = true := by
    refine stageS5_passes ?_ ?_
    · rwa [← flashBytes_congr (sameFlash_on hflash x)] at htable
    · rwa [← flashBytes_congr (sameFlash_on hflash x)] at hcopyTable
  rw [runStages_pass hfail htime hpass5]
  refine runStages_all hfail htime _ (fun p hp t => ?_) _
  simp only [List.mem_cons, List.not_mem_nil, or_false] at hp
  rcases hp with rfl | rfl | rfl | rfl | rfl
  · exact stageS6_passes hlines hspares hother x t
  · exact stageS7_passes x t
  · rfl
  · exact stageS9_passes x r t
  · rfl

end

/-! ### A start that fails in S3, and the end of a start (11 R434) -/

theorem recByte_enterStage (x : Side) (n : Nat) (s : State) : recByte (enterStage x n s) x 1 = recByte s x 1 := by
  rw [enterStage, recByte_putRec_ne x 0 _ _ (.inr (by simp))]
  exact recByte_modLd ..

theorem stageS3_failures (x : Side) (r : StartRun) (s : State) : recByte (stageS3 x r s).1 x 1 = recByte s x 1 := by
  unfold stageS3
  split
  · rfl
  · split
    · exact (recByte_raise ..).trans (recByte_modLd ..)
    · rfl

/-- A firmware copy that is not sound, or an S3 that takes too long, fails the start in S3 (11 R431, R434). -/
theorem runStages_failsS3 {x : Side} {r : StartRun} (h : 2 ≤ r.fw ∨ ∃ e ∈ r.times, e.1 = 3 ∧ 200000 < e.2) (s : State) :
    ∃ u e, runStages x r (landingStages x r) s = (u, some e) ∧ recByte u x 1 = recByte s x 1 := by
  have hcount := (stageS3_failures x r (enterStage x 3 s)).trans (recByte_enterStage x 3 s)
  unfold landingStages
  rw [runStages]
  split
  · exact ⟨_, _, rfl, hcount⟩
  · rename_i hgone
    rcases h with hcopy | ⟨e, he, hstage, hlate⟩
    · have hfalse : (stageS3 x r (enterStage x 3 s)).2 = false := by
        unfold stageS3
        rw [if_neg (by lia), if_neg (by lia)]
      simp [hfalse] at hgone
    · have hover : overLimit x r.times 3 (stageS3 x r (enterStage x 3 s)).1 = true :=
        List.any_eq_true.mpr ⟨e, he, by simpa using ⟨hstage, hlate⟩⟩
      rw [if_pos hover]
      exact ⟨_, _, rfl, hcount⟩

section
variable {x : Side} {r : StartRun} {s : State}

theorem landingStart_none (h : (s.ld x).slw.running = false ∨ (s.ld x).slw.s10 = true ∨ s.powered x = false) : landingStart x r s = s := by
  unfold landingStart
  refine if_pos ?_
  rcases h with h | h | h
  · simp [h]
  · simp [h]
  · simp [h]

/-- The start's instants noted, as its stages find them. -/
def noted (x : Side) (r : StartRun) (s : State) : State :=
  s.modSlw x (fun w => { w with
    times := r.times.foldl (fun t e => if 3 ≤ e.1 then Tab.set 0 t e.1 e.2 else t) w.times,
    started := if w.restarted then s.nowNs - 1000 * (r.times.filter (fun e => 2 < e.1)).foldl (fun a e => a + e.2) 0 else w.started })

/-- What follows the stages: a failed start, or the end of S10. -/
def afterStages (x : Side) (r : StartRun) : State × Option (Nat × Nat) → State
  | (s, some e) => failStart x e.2 e.1 (raise (.landing x) e.2 e.1 s)
  | (s, none) =>
    let c := ticksSince s ((s.nowNs - 1000 * (r.times.filter (fun e => 3 < e.1)).foldl (fun a e => a + e.2) 0) * nsUnit)
    completeS10 x (s.modLd x (fun l => { l with fmn := { l.fmn with crossing := c } }))

theorem landingStart_runs (hrunning : (s.ld x).slw.running = true) (hs10 : (s.ld x).slw.s10 = false) (hpower : s.powered x = true) :
    landingStart x r s = afterStages x r (runStages x r (landingStages x r) (noted x r s)) := by
  unfold landingStart
  dsimp only
  rw [if_neg (by simp [hrunning, hs10, hpower])]
  rfl

theorem noted_leaves (x : Side) (r : StartRun) (s : State) : SameFlash (noted x r s) s ∧ recByte (noted x r s) x 1 = recByte s x 1 := by
  unfold noted State.modSlw
  exact ⟨sameFlash_modLd x s, recByte_modLd ..⟩

theorem afterStages_failed (x : Side) (r : StartRun) (u : State) (e : Nat × Nat) : Failed x (recByte u x 1) (afterStages x r (u, some e)) :=
  failBefore11_failed x e.2 e.1 e.1 u

theorem afterStages_s10 (x : Side) (r : StartRun) (u : State) : ((afterStages x r (u, none)).ld x).slw.s10 = true := completeS10_s10 ..

theorem landingStart_failed (hrunning : (s.ld x).slw.running = true) (hs10 : (s.ld x).slw.s10 = false) (hpower : s.powered x = true)
    (h : 2 ≤ r.fw ∨ ∃ e ∈ r.times, e.1 = 3 ∧ 200000 < e.2) : Failed x (recByte s x 1) (landingStart x r s) := by
  obtain ⟨u, e, hrun, hcount⟩ := runStages_failsS3 h (noted x r s)
  rw [landingStart_runs hrunning hs10 hpower, hrun, ← (noted_leaves x r s).2, ← hcount]
  exact afterStages_failed ..

theorem landingStart_completes (hrunning : (s.ld x).slw.running = true) (hs10 : (s.ld x).slw.s10 = false) (hpower : s.powered x = true)
    (h : SoundStart x r s) : ((landingStart x r s).ld x).slw.s10 = true := by
  have hflash := sameFlash_on (noted_leaves x r s).1 x
  have hsound : SoundStart x r (noted x r s) :=
    { h with table := by rw [flashBytes_congr hflash, h.table], copyTable := by rw [flashBytes_congr hflash, h.copyTable] }
  have hrun := runStages_sound hsound
  rw [landingStart_runs hrunning hs10 hpower]
  generalize runStages x r (landingStages x r) (noted x r s) = q at hrun
  obtain ⟨u, e⟩ := q
  subst hrun
  exact afterStages_s10 ..

end

end Sys2Proof.Machine
end

section
/-!
The slipway (11 R430, R431, R434, R437, R440 to R442): power-good, the commands of the stages and of the roles, a restart; settles
`Obligations.SlipwayStarts`.
-/
namespace Sys2Proof.Machine
set_option Elab.async false -- one proof at a time, as in the tests: the compile is close to its memory limit

/-! ### A landing restarted (11 R441) -/

theorem sameFlash_modArb (s : State) (f : Arbiter → Arbiter) : SameFlash (s.modArb f) s := sameFlash_of (modArb_ld s f)

theorem sameFlash_answer (c : Option Pend) (st : Status) (s : State) :
    SameFlash (match c with | some c => complete c st [] false s | none => s) s := by
  cases c with
  | none => exact sameFlash_refl s
  | some c => exact sameFlash_complete ..

theorem sameFlash_dropLoad (y : Side) (s : State) : SameFlash (dropLoad y s) s :=
  sameFlash_trans (sameFlash_modLd y _) (sameFlash_of fun z => by cases z <;> rfl)

theorem sameFlash_abandonChange (s : State) : SameFlash (abandonChange s) s := by
  have hend : ∀ st u, SameFlash (endChange st u) u := fun st u => by
    unfold endChange
    split
    · exact sameFlash_refl u
    · rename_i c _
      refine sameFlash_trans (sameFlash_complete ..) (sameFlash_trans (sameFlash_of fun y => by cases y <;> rfl) ?_)
      exact sameFlash_trans (sameFlash_modLd c.side _) (sameFlash_modArb ..)
  unfold abandonChange
  split
  · exact sameFlash_refl s
  · exact sameFlash_ite (sameFlash_refl s) (sameFlash_trans (hend ..) (sameFlash_raise ..))

theorem sameFlash_reportResync (failed : Bool) (r : Resync) (s : State) : SameFlash (reportResync failed r s) s := by
  unfold reportResync
  cases r.cmd with
  | none => exact sameFlash_ite (sameFlash_raise ..) (sameFlash_refl s)
  | some c => exact sameFlash_trans (sameFlash_complete ..) (sameFlash_ite (sameFlash_raise ..) (sameFlash_refl s))

theorem sameFlash_abandonResync (s : State) : SameFlash (abandonResync s) s := by
  unfold abandonResync
  cases hresync : s.arb.resync with
  | none =>
    unfold endResync
    rw [hresync]
    exact sameFlash_refl s
  | some r =>
    have hmarking : ∀ u, SameFlash (endMarking u) u := fun u =>
      eachSide_ind (SameFlash · u) _ _ (fun x v hv => sameFlash_trans (sameFlash_modLd x v) hv) u (sameFlash_refl u)
    rw [endResync_some hresync]
    exact sameFlash_trans (sameFlash_reportResync ..) (sameFlash_trans (hmarking _) (sameFlash_modArb ..))

theorem sameFlash_closeSlw (y : Side) (s : State) : SameFlash (closeSlw y s) s := by
  unfold closeSlw
  split
  · exact sameFlash_refl s
  · refine sameFlash_trans (sameFlash_ite ?_ (sameFlash_ite (sameFlash_modArb ..) (sameFlash_refl _))) (sameFlash_dropLoad y s)
    exact sameFlash_trans (sameFlash_of fun z => by cases z <;> rfl) (sameFlash_modLd y _)

theorem sameFlash_keepSlw (y : Side) (s : State) : SameFlash (keepSlw y s) s :=
  sameFlash_ite (sameFlash_refl s) (sameFlash_trans (sameFlash_modLd y _) (sameFlash_dropLoad y s))

theorem sameFlash_finishSlw (s : State) : SameFlash (finishSlw s) s := by
  unfold finishSlw
  extract_lets q any cmd answer
  have hanswer : ∀ st v, SameFlash (answer st v) v := fun st v => sameFlash_answer cmd st v
  have hkept := sameFlash_trans (sameFlash_keepSlw .B _) (sameFlash_keepSlw .A s)
  split
  · exact sameFlash_trans (hanswer ..) (sameFlash_trans (sameFlash_closeSlw .B _)
      (sameFlash_trans (sameFlash_closeSlw .A _) (sameFlash_abandonResync s)))
  · exact sameFlash_trans (hanswer ..) hkept
  · exact sameFlash_trans (hanswer ..) hkept

theorem sameFlash_abandonWork (x : Side) (s : State) : SameFlash (abandonWork x s) s := by
  unfold abandonWork
  extract_lets u give d v m c
  have hgive : ∀ c w, SameFlash (give c w) w := fun c w => sameFlash_answer c .abandoned w
  have hu : SameFlash u s := sameFlash_ite (sameFlash_abandonResync s) (sameFlash_refl s)
  have hv : SameFlash v u := by
    unfold v
    split
    · exact sameFlash_trans (sameFlash_ite (sameFlash_ite (hgive ..) (sameFlash_ite (sameFlash_finishSlw _) (sameFlash_refl _)))
        (sameFlash_ite (sameFlash_abandonChange _) (hgive ..))) (sameFlash_dropLoad x u)
    · exact sameFlash_refl u
  exact sameFlash_trans (hgive ..) (sameFlash_trans (hgive ..) (sameFlash_trans (sameFlash_modLd x _) (sameFlash_trans hv hu)))

/-- What a restart leaves: the landing in S3 with its failures forgotten, its flash and the vessel's mode (11 R441). -/
structure Restarted (x : Side) (t s : State) : Prop where
  running : (t.ld x).slw.running = true
  stage : (t.ld x).slw.stage = 3
  restarted : (t.ld x).slw.restarted = true
  failures : recByte t x 1 = 0
  flash : (t.ld x).flash = (s.ld x).flash
  mode : t.mode = s.mode

theorem restartLanding_leaves (x : Side) (cmd : Pend) (s : State) : Restarted x (restartLanding x cmd s) s := by
  have hflash := sameFlash_on (sameFlash_abandonWork x s) x
  obtain ⟨⟨_, hmode, _⟩, _⟩ := abandonWork_same x s
  unfold restartLanding
  generalize abandonWork x s = u at hflash hmode
  extract_lets _ v w
  have hw : (w.ld x).slw.restarted = true ∧ (w.ld x).flash = (s.ld x).flash := by
    simp only [w, State.modSlw]
    rw [modLd_ld]
    refine ⟨rfl, ?_⟩
    dsimp only
    simp only [v]
    rw [putRec_ld, putRec_ld, hflash.1]
  have hfailures : recByte w x 1 = 0 := by
    refine (recByte_modLd ..).trans ?_
    rw [recByte_putRec_ne x 4 _ _ (.inl (by decide)), recByte_putRec, if_pos (by simp)]
    rfl
  have hwMode : w.mode = s.mode := (modLd_mode ..).trans hmode
  obtain ⟨hrunning, hstage, hrestarted⟩ := beginStart_slw x w
  exact ⟨hrunning, hstage, hrestarted.trans hw.1, (beginStart_failures x w).trans hfailures, (beginStart_flash x w).trans hw.2,
    (mode_of_same (beginStart_same x w)).trans hwMode⟩

/-! ### Commands outside the stages' own work -/

section
variable {x : Side} {s : State}

theorem stageTimeout_fails (hrunning : (s.ld x).slw.running = true) {stage : Nat} (hlow : 3 ≤ stage) (hhigh : stage ≤ 11) (at_ : Nat) :
    ∃ t : State, exec (.slwStageTimeout at_ x stage) s = .next t ∧ Failed x (recByte s x 1) t := by
  have hrec : recByte (advance at_ s) x 1 = recByte s x 1 := advance_bkpByte ..
  refine ⟨_, congrArg Host.Outcome.next (if_pos ?_), hrec ▸ failBefore11_failed ..⟩
  rw [inSlipway, advance_ld, hrunning, decide_eq_true hlow, decide_eq_true hhigh]
  rfl

theorem deckhandHalt_fails (hrunning : (s.ld x).slw.running = true) (hstage : (s.ld x).slw.stage < 11) (code : Nat) :
    Failed x (recByte s x 1) (deckhandHalt x code s) := by
  unfold deckhandHalt
  dsimp only
  rw [if_pos (by rw [hrunning, decide_eq_true hstage]; rfl)]
  exact failBefore11_failed ..

theorem deckhandHalt_reports (h : (s.ld x).slw.running = false ∨ 11 ≤ (s.ld x).slw.stage) (hreset : (s.ld x).slw.inReset = false)
    (hpower : s.powered x = true) (hs10 : (s.ld x).slw.s10 = true) (code : Nat) : deckhandHalt x code s = raise (.landing x) code x.num s := by
  unfold deckhandHalt
  dsimp only
  have hpast : ((s.ld x).slw.running && decide ((s.ld x).slw.stage < 11)) = false := by
    rcases h with h | h
    · simp [h]
    · simp [Nat.not_lt.mpr h]
  rw [hpast, hreset, hpower, hs10]
  rfl

end

/-! ### Power-good (11 R430, R432) -/

/-- What the module shows of its start beside the landings: that it runs, that its logbook is scanned, that S1 has ended, the landing preferred. -/
def ModuleStart (t s : State) : Prop :=
  t.uptime.isSome = s.uptime.isSome ∧ t.log.scanning = s.log.scanning ∧ t.dkh.s1 = s.dkh.s1 ∧ t.arb.preferred = s.arb.preferred

theorem moduleStart_refl (s : State) : ModuleStart s s := ⟨rfl, rfl, rfl, rfl⟩

theorem moduleStart_trans {u t s : State} (hu : ModuleStart u t) (ht : ModuleStart t s) : ModuleStart u s := by
  obtain ⟨h1, h2, h3, h4⟩ := hu
  obtain ⟨k1, k2, k3, k4⟩ := ht
  exact ⟨h1.trans k1, h2.trans k2, h3.trans k3, h4.trans k4⟩

theorem moduleStart_ite {c : Prop} [Decidable c] {t u s : State} (ht : ModuleStart t s) (hu : ModuleStart u s) :
    ModuleStart (if c then t else u) s := by
  split
  · exact ht
  · exact hu

theorem moduleStart_told {t s : State} (h : Told t s) (k : Reported t s) : ModuleStart t s :=
  ⟨(congrArg (fun u : State => u.uptime.isSome) h).trans rfl, (congrArg Logbook.scanning k.2).trans rfl,
    (congrArg (fun u : State => u.dkh.s1) h).trans rfl, (congrArg (fun u : State => u.arb.preferred) h).trans rfl⟩

theorem moduleStart_raise (src : Source) (code detail : Nat) (s : State) : ModuleStart (raise src code detail s) s :=
  moduleStart_told (told_raise ..) (reported_raise ..)

theorem moduleStart_modLd (s : State) (x : Side) (f : Landing → Landing) : ModuleStart (s.modLd x f) s := by cases x <;> exact moduleStart_refl s

theorem moduleStart_setRole (s : State) (x : Side) (r : Role) : ModuleStart (s.setRole x r) s := by cases x <;> exact moduleStart_refl s

theorem moduleStart_advance (n : Nat) (s : State) : ModuleStart (advance n s) s :=
  ⟨advance_uptime_isSome n s, congrArg Logbook.scanning (advance_log ..), congrArg Deckhand.s1 (advance_dkh ..),
    congrArg Arbiter.preferred (advance_arb ..)⟩

theorem moduleStart_eachSide {f : Side → State → State} (hf : ∀ x s, ModuleStart (f x s) s) (c : Side → Bool) (s : State) :
    ModuleStart (eachSide c f s) s :=
  eachSide_ind (ModuleStart · s) c f (fun x t ht => moduleStart_trans (hf x t) ht) s (moduleStart_refl s)

theorem moduleStart_putRec (x : Side) (o : Nat) (b : List Byte) (s : State) : ModuleStart (putRec x o b s) s := ⟨rfl, rfl, rfl, rfl⟩

theorem moduleStart_beginStart (x : Side) (s : State) : ModuleStart (beginStart x s) s :=
  moduleStart_trans (moduleStart_modLd ..) ⟨rfl, rfl, rfl, rfl⟩

theorem moduleStart_launchLanding (x : Side) (s : State) : ModuleStart (launchLanding x s) s :=
  moduleStart_ite (moduleStart_trans (moduleStart_modLd ..) (moduleStart_setRole ..)) (moduleStart_beginStart ..)

theorem moduleStart_liftQuarantine (s : State) : ModuleStart (liftQuarantine s) s := by
  unfold liftQuarantine
  extract_lets q again
  have hagain : ∀ x u, ModuleStart (again x u) u := fun x u => moduleStart_trans (moduleStart_putRec x 4 _ _) (moduleStart_putRec ..)
  clear_value q again
  exact moduleStart_ite (moduleStart_trans (hagain ..) (hagain ..)) (moduleStart_refl s)

theorem moduleStart_logStart (backup : Bool) (s : State) : ModuleStart (logStart backup s) s := by
  unfold logStart
  exact moduleStart_trans (moduleStart_told (told_react ..) (reported_react ..)) ⟨rfl, rfl, rfl, rfl⟩

theorem moduleStart_aid (a : Aiding) (s : State) : ModuleStart { s with aid := a } s := ⟨rfl, rfl, rfl, rfl⟩

theorem moduleStart_startReference (ext : Bool) (cmd : Option Pend) (boot : Bool) (s : State) :
    ModuleStart (startReference ext cmd boot s) s := ⟨rfl, rfl, rfl, rfl⟩

theorem moduleStart_stageS2 (s : State) : ModuleStart (stageS2 s) s := by
  unfold stageS2
  extract_lets c ok s1 r s2 s3
  have h1 : ModuleStart s1 s := moduleStart_logStart ..
  have h3 : ModuleStart s3 s := moduleStart_trans (moduleStart_raise ..) (moduleStart_trans ⟨rfl, rfl, rfl, rfl⟩ h1)
  refine moduleStart_ite (moduleStart_trans ⟨rfl, rfl, rfl, rfl⟩ h1) (moduleStart_trans (moduleStart_eachSide (fun x u => ?_) _ _) h3)
  exact moduleStart_trans (moduleStart_modLd ..) (moduleStart_raise ..)

/-- A landing after S2: it enters S3 or stays in reset, and the other one is as it was (11 R440). -/
theorem launchLanding_leaves (x : Side) (s : State) :
    (((launchLanding x s).ld x).slw.running = true ∧ ((launchLanding x s).ld x).slw.stage = 3
        ∨ (launchLanding x s).role x = .quarantined ∧ ((launchLanding x s).ld x).slw.inReset = true)
      ∧ (launchLanding x s).ld x.other = s.ld x.other ∧ (launchLanding x s).role x.other = s.role x.other := by
  unfold launchLanding
  split
  · refine ⟨.inr ⟨?_, congrArg Slipway.inReset (modSlw_slw ..)⟩, ?_, ?_⟩
    · exact (modLd_role ..).trans (setRole_role ..)
    · exact (modLd_other ..).trans (setRole_ld ..)
    · exact (modLd_role ..).trans (setRole_other ..)
  · obtain ⟨hrunning, hstage, -⟩ := beginStart_slw x s
    exact ⟨.inl ⟨hrunning, hstage⟩, beginStart_other x s, role_of_same (beginStart_same x s) _⟩

theorem launchBoth_leaves (s : State) (y : Side) :
    let t := launchLanding .B (launchLanding .A s)
    (t.ld y).slw.running = true ∧ (t.ld y).slw.stage = 3 ∨ t.role y = .quarantined ∧ (t.ld y).slw.inReset = true := by
  obtain ⟨hA, -⟩ := launchLanding_leaves .A s
  obtain ⟨hB, hld, hrole⟩ := launchLanding_leaves .B (launchLanding .A s)
  cases y with
  | A =>
    have hld' : (launchLanding .B (launchLanding .A s)).ld .A = (launchLanding .A s).ld .A := hld
    have hrole' : (launchLanding .B (launchLanding .A s)).role .A = (launchLanding .A s).role .A := hrole
    dsimp only
    rw [hld', hrole']
    exact hA
  | B => exact hB

/-- Module time begins at the end of S0, which has lasted `n` (15 R584). -/
def timeZero (n : Nat) (s : State) : State :=
  let u : State := { s with now := 0, uptime := some 0 }
  { u with dkh := { u.dkh with s0 := n } }

/-- The module at the end of S0: its domains on, module time 0 (11 R430, 15 R584). -/
def s0Ended (t : Nat) (p : PowerOn) (s : State) : State :=
  timeZero (1000 * p.d0) (advance (t + 1000 * p.d0) (domainsOn p s))

/-- The module at the instant of S1's verdict, its logbook scanned (11 R430, 17 R666). -/
def scanned (t : Nat) (p : PowerOn) (s : State) : State := advance (1000 * p.d1) (scanLog p.copy1 p.copy2 (s0Ended t p s))

/-- The module at the end of S1, before S2 (11 R432, 13 R492). -/
def s1Ended (s : State) : State :=
  { s with dkh := { s.dkh with s1 := true }, arb := { s.arb with preferred := if bitOf s.bol.ssw 0 then .B else .A } }

theorem cableTold_ld {t s : State} (h : CableTold t s) (y : Side) : t.ld y = s.ld y := by
  rw [CableTold] at h
  rw [h]
  cases y <;> rfl

theorem scanLog_told (c1 c2 : Bool) (s : State) : CableTold (scanLog c1 c2 s) s ∧ (scanLog c1 c2 s).log.scanning = false := by
  unfold scanLog
  extract_lets l seen top n table u
  have hu : CableTold u s ∧ u.log.scanning = false := ⟨rfl, rfl⟩
  clear_value u
  split
  · exact ⟨cableTold_trans (cableTold_raise ..) hu.1, ((moduleStart_raise ..).2.1).trans hu.2⟩
  · exact hu

theorem timeZero_leaves (n : Nat) (s : State) :
    (timeZero n s).uptime = some 0 ∧ (timeZero n s).dkh.s1 = s.dkh.s1 ∧ ∀ y, (timeZero n s).ld y = s.ld y :=
  ⟨rfl, rfl, fun y => by cases y <;> rfl⟩

theorem s0Ended_leaves (t : Nat) (p : PowerOn) (s : State) :
    (s0Ended t p s).uptime = some 0 ∧ (s0Ended t p s).dkh.s1 = s.dkh.s1 ∧ ∀ y, (s0Ended t p s).ld y = s.ld y := by
  have hs1 : (advance (t + 1000 * p.d0) (domainsOn p s)).dkh.s1 = s.dkh.s1 := congrArg Deckhand.s1 (advance_dkh ..)
  have hdomains : ∀ y, (domainsOn p s).ld y = s.ld y := fun y => by cases y <;> rfl
  obtain ⟨hup, hs1', hld⟩ := timeZero_leaves (1000 * p.d0) (advance (t + 1000 * p.d0) (domainsOn p s))
  exact ⟨hup, hs1'.trans hs1, fun y => (hld y).trans ((advance_ld ..).trans (hdomains y))⟩

theorem scanned_leaves (t : Nat) (p : PowerOn) (s : State) : (scanned t p s).uptime.isSome = true ∧ (scanned t p s).log.scanning = false
    ∧ (scanned t p s).dkh.s1 = s.dkh.s1 ∧ ∀ y, (scanned t p s).ld y = s.ld y := by
  obtain ⟨hup, hs1, hld⟩ := s0Ended_leaves t p s
  obtain ⟨htold, hscanning⟩ := scanLog_told p.copy1 p.copy2 (s0Ended t p s)
  obtain ⟨hup', hscanning', hs1', -⟩ := moduleStart_advance (1000 * p.d1) (scanLog p.copy1 p.copy2 (s0Ended t p s))
  refine ⟨hup'.trans ?_, hscanning'.trans hscanning, hs1'.trans ?_, fun y => ?_⟩
  · exact (congrArg (fun u : State => u.uptime.isSome) htold).trans (congrArg Option.isSome hup)
  · exact (congrArg (fun u : State => u.dkh.s1) htold).trans hs1
  · rw [scanned, advance_ld, cableTold_ld htold, hld]

/-- What S1 does beside the Bollard. -/
def S1Told (t s : State) : Prop := ModuleStart t s ∧ ∀ y, t.ld y = s.ld y

theorem s1Told_raise (code detail : Nat) {t s : State} (h : S1Told t s) : S1Told (raise .cable code detail t) s :=
  ⟨moduleStart_trans (moduleStart_raise ..) h.1, fun y => (cableTold_ld (cableTold_raise ..) y).trans (h.2 y)⟩

theorem s1Told_bol (b : Bollard) (s : State) : S1Told { s with bol := b } s := ⟨⟨rfl, rfl, rfl, rfl⟩, fun y => by cases y <;> rfl⟩

theorem bolS1_told (samples : List (Nat × Nat)) (s : State) : S1Told (bolS1 samples s).1 s := by
  unfold bolS1
  extract_lets b ssw g s'
  have hs' : S1Told s' s := s1Told_bol ..
  split
  · exact s1Told_raise _ _ hs'
  · split
    · exact s1Told_raise _ _ (s1Told_bol ..)
    · split
      · split
        · exact s1Told_bol ..
        · exact s1Told_raise _ _ hs'
      · exact s1Told_raise _ _ hs'

theorem bolS1_unsound {samples : List (Nat × Nat)} (h : switchesOk samples = false) (s : State) : (bolS1 samples s).2 = false := by
  unfold bolS1
  dsimp only
  rw [h]
  rfl

/-- Sound switches that name no block end S1 with the safety outputs off (13 R492). -/
theorem bolS1_bare {samples : List (Nat × Nat)} (h : switchesOk samples = true) (hnone : (samples.headD (0, 0)).1 / 256 = 0) (s : State) :
    (bolS1 samples s).2 = true ∧ (bolS1 samples s).1.bol.ssw = (samples.headD (0, 0)).1 := by
  unfold bolS1
  dsimp only
  rw [h, hnone]
  exact ⟨rfl, congrArg Bollard.ssw (raise_bol ..)⟩

/-- Stage S2 and what follows it, up to the landings' own stages (11 R430, R432, R440). -/
def s2Ended (p : PowerOn) (s : State) : State :=
  let s := advance (1000 * (p.d1 + p.d2)) s
  let s := eachSide (fun _ => true) (fun x s => s.modSlw x (fun w =>
    { w with times := Tab.set 0 (Tab.set 0 (Tab.set 0 [] 0 p.d0) 1 p.d1) 2 p.d2 })) s
  let s := liftQuarantine (stageS2 s)
  let s := if masterKey s then s else raise .cable 0x0C86 0 s
  let s := { s with aid := { s.aid with next := none } }
  if bitOf (le s.rtc.mem 0x60 4) 0 then startReference true none true s else s

theorem powerStart_eq (t : Nat) (p : PowerOn) (s : State) : powerStart t p s
    = if !(bolS1 p.switches (scanned t p s)).2 || 50000 < p.d1 then (bolS1 p.switches (scanned t p s)).1
      else launchLanding .B (launchLanding .A (s2Ended p (s1Ended (bolS1 p.switches (scanned t p s)).1))) := rfl

theorem s2Ended_start (p : PowerOn) (s : State) : ModuleStart (s2Ended p s) s := by
  unfold s2Ended
  extract_lets s1 s2 s3 s4 a s5
  have h2 : ModuleStart s2 s := moduleStart_trans (moduleStart_eachSide (fun _ _ => moduleStart_modLd ..) _ _) (moduleStart_advance ..)
  have h3 : ModuleStart s3 s := moduleStart_trans (moduleStart_liftQuarantine _) (moduleStart_trans (moduleStart_stageS2 _) h2)
  have h4 : ModuleStart s4 s := moduleStart_ite h3 (moduleStart_trans (moduleStart_raise ..) h3)
  have h5 : ModuleStart s5 s := moduleStart_trans (moduleStart_aid ..) h4
  exact moduleStart_ite (moduleStart_trans (moduleStart_startReference ..) h5) h5

/-- A module that starts (11 R430): it runs with its logbook scanned. -/
theorem powerStart_module (t : Nat) (p : PowerOn) (s : State) :
    (powerStart t p s).uptime.isSome = true ∧ (powerStart t p s).log.scanning = false := by
  obtain ⟨hup, hscanning, -, -⟩ := scanned_leaves t p s
  obtain ⟨⟨hup1, hscanning1, -, -⟩, -⟩ := bolS1_told p.switches (scanned t p s)
  rw [powerStart_eq]
  generalize bolS1 p.switches (scanned t p s) = r at hup1 hscanning1
  split
  · exact ⟨hup1.trans hup, hscanning1.trans hscanning⟩
  · obtain ⟨hup2, hscanning2, -, -⟩ := moduleStart_trans (moduleStart_launchLanding .B _) (moduleStart_trans (moduleStart_launchLanding .A _)
      (s2Ended_start p (s1Ended r.1)))
    exact ⟨hup2.trans (hup1.trans hup), hscanning2.trans (hscanning1.trans hscanning)⟩

/-- Switches that are not sound, or an S1 that takes too long, leave the landings in reset (11 R432). -/
theorem powerStart_stops {t : Nat} {p : PowerOn} {s : State} (h : switchesOk p.switches = false ∨ 50000 < p.d1) :
    (powerStart t p s).dkh.s1 = s.dkh.s1 ∧ ∀ y, (powerStart t p s).ld y = s.ld y := by
  have hstop : (!(bolS1 p.switches (scanned t p s)).2 || decide (50000 < p.d1)) = true := by
    rcases h with h | h
    · rw [bolS1_unsound h]
      rfl
    · rw [decide_eq_true h, Bool.or_true]
  obtain ⟨-, -, hs1, hld⟩ := scanned_leaves t p s
  obtain ⟨⟨-, -, hs1', -⟩, hld'⟩ := bolS1_told p.switches (scanned t p s)
  rw [powerStart_eq, if_pos hstop]
  exact ⟨hs1'.trans hs1, fun y => (hld' y).trans (hld y)⟩

/-- Sound switches lead on to S2 and to the landings' own stages (11 R430, R432, R440). -/
theorem powerStart_runs {t : Nat} {p : PowerOn} {s : State} (h : switchesOk p.switches = true) (hd1 : p.d1 ≤ 50000)
    (hnone : (p.switches.headD (0, 0)).1 / 256 = 0) :
    (powerStart t p s).dkh.s1 = true ∧ (powerStart t p s).arb.preferred = (if bitOf (p.switches.headD (0, 0)).1 0 then .B else .A)
      ∧ ∀ y, ((powerStart t p s).ld y).slw.running = true ∧ ((powerStart t p s).ld y).slw.stage = 3
        ∨ (powerStart t p s).role y = .quarantined ∧ ((powerStart t p s).ld y).slw.inReset = true := by
  obtain ⟨hbare, hssw⟩ := bolS1_bare h hnone (scanned t p s)
  rw [powerStart_eq]
  generalize bolS1 p.switches (scanned t p s) = r at hbare hssw
  rw [if_neg (by simpa [hbare] using hd1)]
  have hstart := s2Ended_start p (s1Ended r.1)
  generalize s2Ended p (s1Ended r.1) = u at hstart
  obtain ⟨-, -, hs1, hpreferred⟩ := moduleStart_trans (moduleStart_launchLanding .B _) (moduleStart_trans (moduleStart_launchLanding .A u) hstart)
  refine ⟨hs1, hpreferred.trans ?_, launchBoth_leaves u⟩
  rw [← hssw]
  rfl

/-! ### The commands -/

theorem exec_powerGood_none {at_ : Nat} {p : PowerOn} {s : State}
    (h : s.uptime.isSome = true ∨ (p.goodA = false ∧ p.goodB = false) ∨ p.s0Ok = false ∨ 500000 < p.d0) :
    exec (.powerGood at_ p) s = .next (advance at_ s) := by
  refine congrArg Host.Outcome.next (if_pos ?_)
  rw [advance_uptime_isSome]
  rcases h with h | ⟨hA, hB⟩ | h | h
  · simp [h]
  · simp [hA, hB]
  · simp [h]
  · simp [h]

theorem exec_powerGood_starts {at_ : Nat} {p : PowerOn} {s : State} (hup : s.uptime = none) (hgood : p.goodA = true ∨ p.goodB = true)
    (hs0 : p.s0Ok = true) (hd0 : p.d0 ≤ 500000) : exec (.powerGood at_ p) s = .next (powerStart at_ p (advance at_ s)) := by
  refine congrArg Host.Outcome.next (if_neg ?_)
  rw [advance_uptime_isSome, hup, hs0]
  rcases hgood with h | h
  · simpa [h] using hd0
  · simpa [h] using hd0

section
variable {at_ : Nat} {s : State}

theorem ready_advance (n : Nat) (s : State) (x : Side) : ready (advance n s) x = ready s x := ready_of_pace (advance_pace ..) x

theorem roleAssignment_none (h : s.activeSide ≠ none ∨ s.pur.serving = true ∨ ready s s.arb.preferred = false) : roleAssignment s = s := by
  unfold roleAssignment
  refine if_pos ?_
  rcases h with h | h | h
  · simp [Option.isSome_iff_ne_none.mpr h]
  · simp [h]
  · simp [h]

theorem roleAssignment_assigns (hnone : s.activeSide = none) (hserving : s.pur.serving = false) (hready : ready s s.arb.preferred = true) :
    roleAssignment s = assignRoles s.arb.preferred false s := by
  unfold roleAssignment
  refine if_neg ?_
  simp [hnone, hserving, hready]

theorem roleDeadline_none (h : s.dkh.s1 = false ∨ s.activeSide ≠ none ∨ s.pur.serving = true ∨ s.nowNs + s.dkh.s0 < 2450000000) :
    roleDeadline s = s := by
  unfold roleDeadline
  refine if_pos ?_
  rcases h with h | h | h | h
  · simp [h]
  · simp [Option.isSome_iff_ne_none.mpr h]
  · simp [h]
  · simp [h]

/-- The deadline noted. -/
def deadlinePassed (s : State) : State := { s with dkh := { s.dkh with deadline := true } }

theorem deadlinePassed_leaves (s : State) : (deadlinePassed s).dkh.deadline = true ∧ (deadlinePassed s).roleA = s.roleA
    ∧ (deadlinePassed s).roleB = s.roleB := ⟨rfl, rfl, rfl⟩

theorem roleDeadline_due (hs1 : s.dkh.s1 = true) (hnone : s.activeSide = none) (hserving : s.pur.serving = false)
    (hdue : 2450000000 ≤ s.nowNs + s.dkh.s0) : roleDeadline s = (if ready s s.arb.preferred = true then
        assignRoles s.arb.preferred false (deadlinePassed s)
      else if ready s s.arb.preferred.other = true then assignRoles s.arb.preferred.other true (deadlinePassed s) else deadlinePassed s) := by
  have hready : ∀ x, ready (deadlinePassed s) x = ready s x := fun x => by cases x <;> rfl
  unfold roleDeadline
  rw [if_neg (by simpa [hs1, hnone, hserving] using hdue), ← hready, ← hready]
  rfl

end

/-- Settles O46: a start, a failed start, an assignment of roles and a restart by what each leaves. -/
theorem slipwayStarts : Obligations.SlipwayStarts := by
  unfold Obligations.SlipwayStarts
  intro at_ stage side x p r h s
  dsimp only
  have hld : (advance at_ s).ld x = s.ld x := advance_ld ..
  have hrec : recByte (advance at_ s) x 1 = recByte s x 1 := advance_bkpByte ..
  have hpower : (advance at_ s).powered x = s.powered x := powered_congr (advance_sup ..) x
  have hactive := activeSide_of_same (advance_same at_ s)
  have hrole := role_of_same (advance_same at_ s)
  have hready := ready_advance at_ s
  have hmanifest : sameManifest (advance at_ s) = sameManifest s := sameManifest_congr fun y => congrArg Landing.fmn (advance_ld ..)
  refine ⟨⟨fun hnone => exec_powerGood_none hnone, fun hup hgood hs0 hd0 => ?_⟩, ⟨fun hnone => ?_, fun hrunning hs10 hon => ?_⟩,
    ⟨fun hnone => ?_, fun hnone hserving hprefer => ?_, fun hnone => ?_, fun hs1 hnone hserving hdue => ?_⟩,
    ⟨fun hnone => ?_, fun hrunning hlow hhigh => stageTimeout_fails hrunning hlow hhigh at_⟩,
    ⟨congrArg Host.Outcome.next (if_pos rfl), fun hrunning hstage => ?_, fun hpast hreset hon hs10 => ?_⟩, fun hm hside hout hactiveOther hon hidle => ?_⟩
  · refine ⟨_, exec_powerGood_starts hup hgood hs0 hd0, (powerStart_module ..).1, (powerStart_module ..).2, fun hbad => ?_, fun hsound hd1 hbare => ?_⟩
    · obtain ⟨hs1, hsame⟩ := powerStart_stops (t := at_) (s := advance at_ s) hbad
      exact ⟨hs1.trans (congrArg Deckhand.s1 (advance_dkh ..)), fun y => by rw [hsame, advance_ld]⟩
    · exact powerStart_runs hsound hd1 hbare
  · exact congrArg Host.Outcome.next (landingStart_none (by rwa [hld, hpower]))
  · rw [← hld] at hrunning hs10
    rw [← hpower] at hon
    refine ⟨_, rfl, fun hfails => ?_, fun hcopy htime hfail hlines hspares hother htable hcopyTable => ?_⟩
    · rw [← hrec]
      exact landingStart_failed hrunning hs10 hon hfails
    · rw [← hld] at htable hcopyTable
      exact landingStart_completes hrunning hs10 hon ⟨hcopy, htime, hfail, hlines, hspares, hother, htable, hcopyTable⟩
  · exact congrArg Host.Outcome.next (roleAssignment_none (by rwa [hactive, advance_pur, advance_arb, hready]))
  · have hassign := roleAssignment_assigns (hactive.trans hnone) ((congrArg Purser.serving (advance_pur ..)).trans hserving)
      (by rwa [advance_arb, hready])
    rw [advance_arb] at hassign
    obtain ⟨hgiven, hother, -, htimed⟩ := assignRoles_assigned s.arb.preferred false (advance at_ s)
    rw [hready, hrole, hmanifest] at hother
    refine ⟨_, congrArg Host.Outcome.next hassign, hgiven, htimed.1, fun hthere hsame => ?_, fun hthere hother' => ?_, fun habsent => ?_⟩
    · rw [hother, if_pos hthere, if_pos hsame]
    · rw [hother, if_pos hthere, if_neg (by rw [hother']; decide)]
    · rw [hother, if_neg habsent]
  · exact congrArg Host.Outcome.next (roleDeadline_none (by rwa [hactive, advance_pur, advance_dkh]))
  · have hdeadline := roleDeadline_due ((congrArg Deckhand.s1 (advance_dkh ..)).trans hs1) (hactive.trans hnone)
      ((congrArg Purser.serving (advance_pur ..)).trans hserving) (by rwa [advance_dkh])
    rw [advance_arb, hready, hready] at hdeadline
    have hpassed : ∀ a alone, (assignRoles a alone (deadlinePassed (advance at_ s))).role a = .active
        ∧ (assignRoles a alone (deadlinePassed (advance at_ s))).dkh.deadline = true := fun a alone => by
      obtain ⟨hgiven, -, -, htimed⟩ := assignRoles_assigned a alone (deadlinePassed (advance at_ s))
      exact ⟨hgiven, htimed.2.trans (congrArg Deckhand.deadline (advance_dkh ..))⟩
    refine ⟨_, congrArg Host.Outcome.next hdeadline, ?_⟩
    by_cases hfirst : ready s s.arb.preferred = true
    · rw [if_pos hfirst]
      exact ⟨(hpassed ..).2, fun _ => (hpassed ..).1, fun hnot => absurd hfirst (by rw [hnot]; decide), fun hnot => absurd hfirst (by rw [hnot]; decide)⟩
    · rw [if_neg hfirst]
      by_cases hsecond : ready s s.arb.preferred.other = true
      · rw [if_pos hsecond]
        exact ⟨(hpassed ..).2, fun h => absurd h hfirst, fun _ _ => (hpassed ..).1, fun _ hnot => absurd hsecond (by rw [hnot]; decide)⟩
      · rw [if_neg hsecond]
        obtain ⟨hdone, hroleA, hroleB⟩ := deadlinePassed_leaves (advance at_ s)
        exact ⟨hdone, fun h => absurd h hfirst, fun _ h => absurd h hsecond, fun _ _ => ⟨hroleA.trans (advance_roleA ..), hroleB.trans (advance_roleB ..)⟩⟩
  · refine congrArg Host.Outcome.next (if_neg ?_)
    rw [inSlipway, hld]
    rcases hnone with h | h | h
    · simp [h]
    · simp [Nat.not_le.mpr h]
    · simp [Nat.not_le.mpr h]
  · refine ⟨_, rfl, ?_⟩
    rw [← hrec]
    rw [← hld] at hrunning hstage
    exact deckhandHalt_fails hrunning hstage 0x1306
  · rw [← hld] at hpast hreset hs10
    rw [← hpower] at hon
    exact ⟨congrArg Host.Outcome.next (deckhandHalt_reports hpast hreset hon hs10 0x1305),
      congrArg Host.Outcome.next (deckhandHalt_reports hpast hreset hon hs10 0x1306)⟩
  · have hpowerAt : (advance h.at_ s).powered (sideOf side) = true := (powered_congr (advance_sup ..) _).trans hon
    refine ⟨_, congrArg Host.Outcome.next (hostCommand_may hm ?_ _ _), ?_⟩
    · rw [roleIn_advance (by simpa using hout), decide_eq_true hside, activeSide_of_same (advance_same ..), decide_eq_true hactiveOther, hpowerAt,
        inSlipway, advance_ld, hidle]
      rfl
    · obtain ⟨hrunning, hstage, hrestarted, hfailures, hflash, hmode⟩ := restartLanding_leaves (sideOf side) (cmdOf h 0x1202) (s.begun h)
      exact ⟨hrunning, hstage, hrestarted, hfailures, hflash.trans (congrArg Landing.flash (begun_ld ..)),
        hmode.trans (mode_of_same (begun_same s h))⟩

end Sys2Proof.Machine
end
